-- ==== Sys2Proof/Word.lean ====
section
/-!
DEFINITION. Word.lean: the words of the package and the sparse map that every large store of the model is held in.
-/
namespace Sys2Proof

/-- One byte. -/
abbrev Byte := BitVec 8
/-- A register of the part (00_scope.md R8: 32 bits wide). -/
abbrev Word32 := BitVec 32
/-- A store word (04_dot_unit.md R111: the unit's memories move one 64-bit word at a time). -/
abbrev Word64 := BitVec 64

/-- A sparse map: keys strictly rising, no entry equal to what an unlisted key reads as. -/
abbrev SMap (α : Type) := List (Nat × α)

end Sys2Proof
end

