-- ==== Sys2Proof/Syntax.lean ====
section
/-!
DEFINITION. Syntax.lean: the commands the package takes, one constructor per row of spec/opcode_table.json in its order,
with the operands that the outside world (or the array's own playback) decides.
-/
namespace Sys2Proof

/-- A dot unit by g = 256 × die + 64 × region + 8 × cluster + unit (16_observation.md R404). -/
abbrev UnitIx := Fin 4096
/-- A cluster by k = 32 × die + 8 × region + cluster (16_observation.md R404). -/
abbrev ClusterIx := Fin 512
/-- A region by 4 × die + region (15_faults_and_self_management.md R395). -/
abbrev RegionIx := Fin 64
abbrev DieIx := Fin 16
/-- A function unit by 2 × cluster index + f. -/
abbrev FunIx := Fin 1024
/-- A tile site 0 to 15 (00_scope.md R3). -/
abbrev SiteIx := Fin 16
/-- A memory tile t (00_scope.md R4). -/
abbrev MemIx := Fin 8
/-- A verdict assembler (06_function_and_steering.md R164). -/
abbrev VaIx := Fin 4
/-- A ring pair (13_host_control.md R329). -/
abbrev RingIx := Fin 64
/-- An intake receive lane n of the package (02_crossing_time.md R53). -/
abbrev IntakeLane := Fin 384

/-- The four link ports of a unit, in the order of 05_unit_instructions.md R115. -/
inductive Port
  | north | east | south | west
deriving DecidableEq, Repr

/-- A beat (00_scope.md R12): sixteen 12-bit mantissas, the row exponent, the crossing tag and the marks. -/
structure Beat where
  mant : BitVec 192
  exp : BitVec 6
  tag : BitVec 6
  bad : Bool
  late : Bool
  first : Bool
  last : Bool
deriving DecidableEq, Repr

/-- What plays a timetable: a dot unit or a function unit. -/
inductive Agent
  | dot (u : UnitIx)
  | fn (f : FunIx)
deriving DecidableEq, Repr

/-- A queue of the array (07_links_queues_arbiters.md R169). -/
inductive QueueId
  | port (u : UnitIx) (p : Port)
  | bank (k : ClusterIx) (q : Fin 16)
  | steer (k : ClusterIx) (i : Fin 4)
deriving DecidableEq, Repr

/-- An arbiter (07_links_queues_arbiters.md R179). -/
inductive ArbId
  | cache (r : RegionIx)
  | memory (t : MemIx)
  | egress (site : SiteIx) (lead : Fin 32)
deriving DecidableEq, Repr

/-- A lane of an optical tile: `tx` is false for a receive lane (11_optical_tiles.md R274). -/
structure LaneId where
  site : SiteIx
  lane : Fin 48
  tx : Bool
deriving DecidableEq, Repr

/-- The comma of character 0 of a crossing slot as the receiver sees it (02_crossing_time.md R36, R50). -/
inductive Comma
  | k285 | k281
  | bad     -- missing, misplaced or code-violating
deriving DecidableEq, Repr

/-- A die's byte-port controllers (08_logic_fabric.md R202). -/
inductive ByteCtl
  | uart | i2c
deriving DecidableEq, Repr

/-- The registers whose read latches the matching high register. -/
inductive LoReg
  | timRun
  | vaLast (v : VaIx)
  | ufuse (d : DieIx)
deriving DecidableEq, Repr

/-- What a lane carries below its scrambler or its 8b/10b code (11_optical_tiles.md R279, R280): a 64b/66b block, control where `ctl`, an 8b/10b
character, a K character where `k`, or a code violation. -/
inductive Line
  | block (ctl : Bool) (bits : Word64)
  | char (k : Bool) (b : Byte)
  | violation
deriving DecidableEq, Repr

/-- What a flit brings with it beside its TYPE and the payload fields that its command names: the lane it came on, its header, the header's
reserved bits [31:30] as `spare`, the payload bits that no field names as `extra`, and the check received (12_elvaro_fabric.md R297, R298). -/
structure FlitHdr where
  site : SiteIx
  lane : Fin 32
  locked : Bool
  stream : BitVec 14
  seq : BitVec 8
  first : Bool
  last : Bool
  epoch : Bool
  spare : BitVec 2
  extra : BitVec 256
  check : Word32
deriving DecidableEq, Repr

/-- The stores a BIST finds failing: units by index with their stores failing, dies with any failure, memory tiles. -/
structure BistResult where
  units : List UnitIx
  dies : BitVec 16
  tiles : BitVec 8
deriving DecidableEq, Repr

/-- Who asks an arbiter for its port (07_links_queues_arbiters.md R179): at a region cache a unit of the region, by its region unit index, or the
stream engine; at a memory controller a descriptor, or a host transfer; at a fabric egress a stream. -/
inductive Requester
  | unit (u : Fin 64)
  | engine
  | desc (r : RegionIx) (i : Fin 64)
  | host
  | stream (x : BitVec 14)
deriving DecidableEq, Repr

/-- What link ECC made of an access (10_staged_mode.md R247): the words it corrected, and the words that arrive with an error it cannot correct, by
their index in the access; true where that error is more than one bit of the word, so that inline SECDED cannot correct it either. -/
structure LinkEcc where
  corrected : Nat
  passed : List (Nat × Bool)
deriving DecidableEq, Repr

/-- The read of memory that fills a cache line: an address of the line, and what link ECC made of it (10 R247, R252). -/
structure FillRead where
  addr : BitVec 48
  link : LinkEcc
deriving DecidableEq, Repr

/-- The commands: one constructor per row of spec/opcode_table.json. -/
inductive Instr
  /-- CROSSING_START, 02 R38. -/
  | crossingStart
  /-- TIMING_SLOT, 02 R36: the comma seen, characters 1 to 7 (character 1 at [7:0]), and whether the slot has a code violation. -/
  | timingSlot (comma : Comma) (chars : BitVec 56) (violation : Bool)
  /-- NOP, 02 R39: a NOP command in a slot. -/
  | nop
  /-- RUN_START, 02 R40: crossing reference A0 to A2 and argument A3. -/
  | runStart (ref : BitVec 24) (a3 : Byte)
  /-- RUN_STOP, 02 R40. -/
  | runStop (ref : BitVec 24) (a3 : Byte)
  /-- RESYNC, 02 R41: the turn number of A0 to A3. -/
  | resync (turn : Word32)
  /-- RESYNC_LOAD, 02 R41. -/
  | resyncLoad
  /-- TEST_PULSE, 02 R39: reference and user code. -/
  | testPulse (ref : BitVec 24) (a3 : Byte)
  /-- MENU_SELECT, 02 R45: reference and menu. -/
  | menuSelect (ref : BitVec 24) (a3 : Byte)
  /-- FROST, 16 R398: reference and array cycle. -/
  | frost (ref : BitVec 24) (a3 : Byte)
  /-- RUN_START_EFFECT, 02 R43. -/
  | runStartEffect
  /-- RUN_STOP_EFFECT, 02 R43. -/
  | runStopEffect
  /-- MENU_SELECT_EFFECT, 02 R45. -/
  | menuSelectEffect
  /-- TEST_PULSE_EFFECT, 08 R201. -/
  | testPulseEffect
  /-- EPOCH_EFFECT, 12 R318. -/
  | epochEffect
  /-- RUN_STOPPED_LAST_VERDICT, 02 R43. -/
  | runStoppedLastVerdict
  /-- TIMING_SIGNAL_PRESENT, 02 R46. -/
  | timingSignalPresent
  /-- COMMA_FOUND, 02 R46. -/
  | commaFound
  /-- CONFIRM_COMPLETE, 02 R46. -/
  | confirmComplete
  /-- TIMING_CODE_VIOLATION, 02 R46. -/
  | timingCodeViolation
  /-- FREQUENCY_MEASUREMENT, 02 R46: the crossing clock in hertz as measured against REFCLK. -/
  | frequencyMeasurement (hz : Word32)
  /-- PLL_LOCK, 02 R46. -/
  | pllLock
  /-- PLL_LOCK_TIMEOUT, 02 R46. -/
  | pllLockTimeout
  /-- PHASE_ALIGNED, 02 R46. -/
  | phaseAligned
  /-- PHASE_TIMEOUT, 02 R46. -/
  | phaseTimeout
  /-- TURN_START_SEEN, 02 R37: a K28.1, `gap` crossings after the previous K28.1. -/
  | turnStartSeen (gap : Nat)
  /-- NUMBER_TIMEOUT, 02 R37. -/
  | numberTimeout
  /-- TIMING_LANE_LOSS, 02 R50. -/
  | timingLaneLoss
  /-- HOLDOVER_RETURN, 02 R51: the phase error in hundredths of a cycle and the crossing number received. -/
  | holdoverReturn (phase : Int) (num : BitVec 12)
  /-- HOLDOVER_EXPIRED, 02 R52. -/
  | holdoverExpired
  /-- FORCED_RUN_STOP, 02 R52. -/
  | forcedRunStop
  /-- TIM_CTRL_WRITE, 02 R49. -/
  | timCtrlWrite (v : Word32)
  /-- INTAKE_FRAME_START, 02 R57, 11 R279 to R281: the FRAME_START block alone, or K27.7, the two characters of the crossing number, and those of
  sequence and length. -/
  | intakeFrameStart (n : IntakeLane) (head : Line) (number rest : List Line)
  /-- INTAKE_FRAME_ARRIVAL, 11 R279 to R281: the payload that followed the start, the characters of the CRC (on an 8b/10b lane), the frame's last
  block or character, and the arrival cycle a (02 R54). -/
  | intakeFrameArrival (n : IntakeLane) (data sum : List Line) (close : Line) (a : Nat)
  /-- WAYSTATION_RELEASE, 02 R55. -/
  | waystationRelease
  /-- STAGED_WAYSTATION_RELEASE, 02 R61. -/
  | stagedWaystationRelease (n : IntakeLane)
  /-- ARRIVAL_MEASUREMENT_END, 11 R291. -/
  | arrivalMeasurementEnd (n : IntakeLane)
  /-- CONTRIBUTION_ARRIVAL, 06 R159: the oldest contribution on its way to assembler v. -/
  | contributionArrival (v : VaIx)
  /-- RECORD_CLOSE, 06 R160. -/
  | recordClose (v : VaIx)
  /-- VERDICT_LAUNCH, 11 R286. -/
  | verdictLaunch (v : VaIx)
  /-- ANCHOR, 04 R106. -/
  | anchor (a : Agent)
  /-- MAC, 05 R118. -/
  | mac (u : UnitIx)
  /-- MACZ, 05 R119. -/
  | macz (u : UnitIx)
  /-- GRP, 05 R122. -/
  | grp (u : UnitIx)
  /-- CLR, 05 R124. -/
  | clr (u : UnitIx)
  /-- EMIT, 05 R125. -/
  | emit (u : UnitIx)
  /-- ADDIN, 05 R127. -/
  | addin (u : UnitIx)
  /-- ADDIN_ROW_TAKEN, 05 R128. -/
  | addinRowTaken (u : UnitIx)
  /-- EMIT_BUS_CYCLE_FREE, 05 R129. -/
  | emitBusCycleFree (u : UnitIx)
  /-- PASS, 05 R132. -/
  | pass (u : UnitIx)
  /-- DUP, 05 R133. -/
  | dup (u : UnitIx)
  /-- HOLD, 05 R134. -/
  | hold (a : Agent)
  /-- HOLD_END, 05 R134. -/
  | holdEnd (a : Agent)
  /-- SYNC, 05 R135. -/
  | sync (a : Agent)
  /-- DROPPKT, 05 R137. -/
  | dropPkt (a : Agent)
  /-- MENU, 05 R138. -/
  | menu (a : Agent)
  /-- ACT, 06 R147. -/
  | act (f : FunIx)
  /-- ROWX, 06 R146. -/
  | rowx (f : FunIx)
  /-- PIN, 06 R146. -/
  | pin (f : FunIx)
  /-- NORM, 06 R148. -/
  | norm (f : FunIx)
  /-- EXPT, 06 R147. -/
  | expt (f : FunIx)
  /-- RCP, 06 R149. -/
  | rcp (f : FunIx)
  /-- REDUCE, 06 R154. -/
  | reduce (f : FunIx)
  /-- POOL, 06 R146. -/
  | pool (f : FunIx)
  /-- SORT16, 06 R150. -/
  | sort16 (f : FunIx)
  /-- TOPK, 06 R150. -/
  | topk (f : FunIx)
  /-- GATHER, 06 R151. -/
  | gather (f : FunIx)
  /-- SCATTER, 06 R151. -/
  | scatter (f : FunIx)
  /-- THRESH, 06 R158. -/
  | thresh (f : FunIx)
  /-- FUN_SOURCE_WAIT_END, 06 R145. -/
  | funSourceWaitEnd (f : FunIx)
  /-- FUN_BLOCKED_WAIT_END, 06 R153. -/
  | funBlockedWaitEnd (f : FunIx)
  /-- TOKEN_LOAD, 06 R157. -/
  | tokenLoad (k : ClusterIx)
  /-- MERGE, 06 R156. -/
  | merge (k : ClusterIx)
  /-- SPLIT, 06 R156. -/
  | splitRows (k : ClusterIx)
  /-- SELECT, 06 R156. -/
  | select (k : ClusterIx)
  /-- ROUTE, 06 R156. -/
  | route (k : ClusterIx)
  /-- MASK, 06 R156. -/
  | mask (k : ClusterIx)
  /-- PACK, 06 R156. -/
  | pack (k : ClusterIx)
  /-- UNPACK, 06 R156. -/
  | unpack (k : ClusterIx)
  /-- BEAT_ARRIVAL, 07 R165: the oldest beat on its way to this port. -/
  | beatArrival (u : UnitIx) (p : Port)
  /-- DROP_REST, 07 R175. -/
  | dropRest (q : QueueId)
  /-- INJECTION, 07 R177. -/
  | injection (k : ClusterIx) (q : Fin 16)
  /-- CREDIT_RETURN, 07 R173. -/
  | creditReturn (q : QueueId)
  /-- WRITE_CREDIT_WAIT_END, 07 R173. -/
  | writeCreditWaitEnd (q : QueueId)
  /-- ARBITER_DECISION, 07 R180: the requesters that present a request in this cycle. -/
  | arbiterDecision (a : ArbId) (presented : List Requester)
  /-- TRANSACTION_END, 07 R182. -/
  | transactionEnd (a : ArbId)
  /-- LOG_FRAME_LO, 08 R207. -/
  | logFrameLo (k : ClusterIx) (v : Word32)
  /-- FRAME_APPLIED, 08 R207. -/
  | frameApplied (k : ClusterIx)
  /-- BEGIN, 08 R210. -/
  | logBegin (k : ClusterIx)
  /-- DONE, 08 R209. -/
  | logDone (k : ClusterIx)
  /-- BLOCK_RELEASE, 08 R209. -/
  | blockRelease (k : ClusterIx)
  /-- START, 08 R211. -/
  | rgnStart (r : RegionIx)
  /-- RELEASE, 08 R211. -/
  | rgnRelease (r : RegionIx)
  /-- RECONFIG_RELEASE, 08 R211. -/
  | reconfigRelease (r : RegionIx)
  /-- REQUEST, 08 R214. -/
  | commitRequest (r : RegionIx)
  /-- COMMIT, 08 R214. -/
  | commit (r : RegionIx)
  /-- FREE_PLL_LOCKED, 08 R196. -/
  | freePllLocked (r : RegionIx) (pll : Fin 2)
  /-- LOGIC_PORT_WRITE, 08 R199: the block's logic offers this beat on LWj. -/
  | logicPortWrite (k : ClusterIx) (j : Fin 4) (b : Beat)
  /-- LOGIC_PORT_TAKE, 08 R199. -/
  | logicPortTake (k : ClusterIx) (j : Fin 4)
  /-- BYTE_PORT_START, 08 R202. -/
  | bytePortStart (k : ClusterIx) (c : ByteCtl)
  /-- BYTE_PORT_WRITE_BYTE, 08 R202. -/
  | bytePortWriteByte (k : ClusterIx) (c : ByteCtl) (b : Byte)
  /-- BYTE_PORT_READ_BYTE, 08 R202. -/
  | bytePortReadByte (k : ClusterIx) (c : ByteCtl) (ack : Bool)
  /-- BYTE_PORT_STOP, 08 R202. -/
  | bytePortStop (k : ClusterIx) (c : ByteCtl)
  /-- BYTE_PORT_DONE, 08 R202: the byte that the line answers. -/
  | bytePortDone (d : DieIx) (c : ByteCtl) (resp : Byte)
  /-- READ, 08 R218. -/
  | ufuseRead (d : DieIx)
  /-- PROGRAM, 08 R202. -/
  | ufuseProgram (d : DieIx)
  /-- FUSE_PROGRAM_DONE, 08 R202. -/
  | fuseProgramDone (d : DieIx)
  /-- WINDOW_WRITE, 04 R111. -/
  | windowWrite (a : Agent) (v : Word32)
  /-- WINDOW_READ, 04 R111. -/
  | windowRead (a : Agent)
  /-- LO_READ_LATCH, 02 R65. -/
  | loReadLatch (r : LoReg)
  /-- RC_READ, 00 R9. -/
  | rcRead (addr : Word32)
  /-- REGISTER_WRITE, 00 R9. -/
  | registerWrite (addr : Word32) (v : Word32)
  /-- LOAD_IMAGE, 09 R235: the bytes of the image as the first and the second read bring them. -/
  | loadImage (r : RingIx) (first second : List Byte)
  /-- LOAD_LOCK_WAIT_END, 09 R235. -/
  | loadLockWaitEnd (r : RingIx)
  /-- VERIFY_IMAGE, 09 R237. -/
  | verifyImage (r : RingIx) (image : List Byte)
  /-- QUANTISE, 13 R344: the weights as the host answers them. -/
  | quantise (r : RingIx) (weights : List Byte)
  /-- WRITE_MEM, 13 R341: the bytes the host answers. -/
  | writeMem (r : RingIx) (data : List Byte)
  /-- READ_MEM, 13 R341. -/
  | readMem (r : RingIx)
  /-- COPY, 13 R341. -/
  | copy (r : RingIx)
  /-- ARM_RUN, 13 R340. -/
  | armRun (r : RingIx)
  /-- DISARM, 13 R346. -/
  | disarm (r : RingIx)
  /-- SELECT_MENU, 13 R343. -/
  | selectMenu (r : RingIx)
  /-- FROST_HOST_COMMAND, 13 R343. -/
  | frostHostCommand (r : RingIx)
  /-- FROST_READ, 16 R402. -/
  | frostRead (r : RingIx)
  /-- SPY_DRAIN, 13 R350. -/
  | spyDrain (r : RingIx)
  /-- ATTEST, 14 R374. -/
  | attest (r : RingIx)
  /-- SCRUB, 13 R346. -/
  | scrub (r : RingIx)
  /-- LINK_TRAIN, 13 R346. -/
  | linkTrain (r : RingIx)
  /-- BIST, 13 R346: what the tests find. -/
  | bist (r : RingIx) (found : BistResult)
  /-- BARRIER_TEST, 13 R346: the longest release measured, in array cycles. -/
  | barrierTest (r : RingIx) (longest : Nat)
  /-- HRG_DB, 13 R332. -/
  | hrgDb (r : RingIx) (v : Word32)
  /-- ENABLE, 13 R334: a write to HRG_CTRL. -/
  | hrgEnable (r : RingIx) (v : Word32)
  /-- DESCRIPTOR_FETCH, 13 R335: the 64 bytes the host answers. -/
  | descriptorFetch (r : RingIx) (bytes : List Byte)
  /-- ENGINE_STEP, 13 R335. -/
  | engineStep
  /-- HOST_READ_TIMEOUT, 13 R337. -/
  | hostReadTimeout (r : RingIx)
  /-- READ_REGISTERS, 13 R353: count registers from an address. -/
  | readRegisters (addr : Word32) (count : Nat)
  /-- WRITE_REGISTERS, 13 R354: the data bytes up to STW_CS_N rising. -/
  | writeRegisters (addr : Word32) (bytes : List Byte)
  /-- READ_IDENTITY, 13 R352. -/
  | readIdentity
  /-- READ_PORT_STATUS, 13 R352. -/
  | readPortStatus
  /-- POSTED_WRITE, 13 R354. -/
  | postedWrite
  /-- SHADOW_REFRESH, 13 R355. -/
  | shadowRefresh
  /-- INDIRECT_READ, 13 R356. -/
  | indirectRead
  /-- INDIRECT_WRITE, 13 R356. -/
  | indirectWrite
  /-- INDIRECT_ACCESS_DONE, 13 R356. -/
  | indirectAccessDone
  /-- REFRESH, 10 R248. -/
  | refresh (t : MemIx)
  /-- REFRESH_RATE_READ, 10 R248: the stack's indication. -/
  | refreshRateRead (t : MemIx) (rate : BitVec 3)
  /-- SCRUB_NOW, 10 R249. -/
  | scrubNow (t : MemIx)
  /-- PATROL_SCRUB_READ, 10 R249. -/
  | patrolScrubRead (t : MemIx)
  /-- MEMORY_READ, 10 R246: a read of `words` 64-bit words at a tile address. -/
  | memoryRead (t : MemIx) (addr : Nat) (words : Nat) (link : LinkEcc)
  /-- MEMORY_WRITE, 10 R247. -/
  | memoryWrite (t : MemIx) (addr : Nat) (data : List Word64) (link : LinkEcc)
  /-- CACHE_ACCESS, 10 R251: the access of the region cache's present grant, a read of the line at this address or a write to it. -/
  | cacheAccess (r : RegionIx) (addr : BitVec 48) (write : Bool)
  /-- CACHE_FILL, 10 R252: the fill of the line at this address completes. -/
  | cacheFill (r : RegionIx) (fill : FillRead)
  /-- INVALIDATE, 10 R253. -/
  | invalidate (r : RegionIx)
  /-- INVALIDATION_DONE, 10 R255. -/
  | invalidationDone (r : RegionIx)
  /-- ARM, 10 R261. -/
  | arm (r : RegionIx) (i : Fin 64)
  /-- ABORT, 10 R262. -/
  | abort (r : RegionIx) (i : Fin 64)
  /-- TILE_REQUEST, 10 R258. -/
  | tileRequest (r : RegionIx) (i : Fin 64)
  /-- TRANSFER_COMPLETE, 10 R262. -/
  | transferComplete (r : RegionIx) (i : Fin 64)
  /-- HANDLE_POP_WAIT_END, 10 R265. -/
  | handlePopWaitEnd (r : RegionIx) (i : Fin 64)
  /-- HANDLE_PUSH_WAIT_END, 10 R265. -/
  | handlePushWaitEnd (r : RegionIx) (i : Fin 64)
  /-- STR_HQ_PUSH, 10 R266. -/
  | strHqPush (r : RegionIx) (q : Fin 16) (v : Word32)
  /-- STR_HQ_POP, 10 R266. -/
  | strHqPop (r : RegionIx) (q : Fin 16)
  /-- LEAF_ARRIVE, 10 R267. -/
  | leafArrive (r : RegionIx)
  /-- BARRIER_RELEASE, 10 R268. -/
  | barrierRelease
  /-- BARRIER_TIMEOUT, 10 R270. -/
  | barrierTimeout
  /-- GO, 10 R272: a write to RGN_RECOVER with GO = 1. -/
  | recoverGo (r : RegionIx) (v : Word32)
  /-- LANE_UP, 11 R290. -/
  | laneUp (l : LaneId)
  /-- TRAINING_ATTEMPT_FAILED, 11 R290. -/
  | trainingAttemptFailed (l : LaneId)
  /-- MARGIN_MEASUREMENT, 11 R293. -/
  | marginMeasurement (l : LaneId) (h v : BitVec 6)
  /-- LOSS_OF_LOCK, 11 R294. -/
  | lossOfLock (l : LaneId)
  /-- TRAIN, 11 R294. -/
  | train (l : LaneId)
  /-- LNK_BOND_WRITE, 11 R283. -/
  | lnkBondWrite (s : SiteIx) (v : Word32)
  /-- LASER_POWER_CHANGE, 11 R276: the power on a fibre in units of 0.1 dBm, none without light. -/
  | laserPowerChange (s : SiteIx) (fibre2 : Bool) (power : Option (BitVec 9))
  /-- BEAT_FRAME_SEND, 11 R289. -/
  | beatFrameSend (s : SiteIx) (lane : Fin 32)
  /-- CODEWORD_RECEIVED, 12 R300, R308: the symbol errors in it, and one past the SEQ of the last loose flit it was sent with, if any. -/
  | codewordReceived (s : SiteIx) (lane : Fin 32) (errors : Nat) (past : Option (BitVec 8))
  /-- NULL, 12 R299: a NULL flit, or a flit whose TYPE is reserved. -/
  | nullFlit (h : FlitHdr) (ty : BitVec 4)
  /-- BEAT, 12 R304. -/
  | beatFlit (h : FlitHdr) (b : Beat)
  /-- WRITE, 12 R309. -/
  | writeFlit (h : FlitHdr) (addr : BitVec 48) (bytes : List Byte)
  /-- READ_FLIT, 12 R309. -/
  | readFlit (h : FlitHdr) (addr : BitVec 48) (bytesM1 : BitVec 12) (tag : Byte)
  /-- DATA, 13 R328. -/
  | dataFlit (h : FlitHdr) (tag : Byte) (offset : BitVec 12) (err : Bool) (bytes : List Byte)
  /-- NOTICE, 13 R333. -/
  | noticeFlit (h : FlitHdr) (payload : BitVec 256)
  /-- CREDIT, 12 R307. -/
  | creditFlit (h : FlitHdr) (credits : BitVec 16)
  /-- LINK, 12 R308. -/
  | linkFlit (h : FlitHdr) (ackSeq : BitVec 8) (nak : Bool)
  /-- NEGO, 12 R320. -/
  | nego (h : FlitHdr) (gen : Byte) (cap : Word32) (endpoint : BitVec 10) (host tkClaim : Bool) (tkNum : BitVec 10) (width : BitVec 2)
  /-- ANNOUNCE, 12 R316. -/
  | announce (h : FlitHdr) (tkNum : BitVec 10) (seq : BitVec 16)
  /-- SCHED, 12 R317. -/
  | sched (h : FlitHdr) (code : Byte) (ref : BitVec 24) (a3 : Byte) (seq : BitVec 16)
  /-- SCHED_ACK, 12 R317. -/
  | schedAck (h : FlitHdr) (refused : Bool) (sender : BitVec 10) (seq : BitVec 16)
  /-- ARRIVE, 12 R319. -/
  | arrive (h : FlitHdr) (sender : BitVec 10) (seq : BitVec 16)
  /-- SYS_RELEASE, 12 R319. -/
  | sysRelease (h : FlitHdr) (seq : BitVec 16)
  /-- DETACH, 12 R321. -/
  | detach (h : FlitHdr) (group : BitVec 10) (member : BitVec 3) (stream : BitVec 14)
  /-- RESTRIPE, 12 R313. -/
  | restripe (h : FlitHdr) (width : BitVec 2)
  /-- ECHO, 12 R306. -/
  | echo (h : FlitHdr) (reply : Bool) (stamp : Word32)
  /-- LOCKED_WINDOW, 12 R302. -/
  | lockedWindow (s : SiteIx) (lead : Fin 32)
  /-- LOCKED_RECEIVE_RELEASE, 12 R304: stream number of the locked context. -/
  | lockedReceiveRelease (x : BitVec 14)
  /-- CREDIT_TIMER, 12 R307. -/
  | creditTimer (x : BitVec 14)
  /-- ACK_TIMER, 12 R308. -/
  | ackTimer (s : SiteIx) (lane : Fin 32)
  /-- NAK_REPEAT, 12 R308. -/
  | nakRepeat (s : SiteIx) (lane : Fin 32)
  /-- RESEND_TIMEOUT, 12 R308. -/
  | resendTimeout (s : SiteIx) (lane : Fin 32)
  /-- DETACH_TIMEOUT, 12 R311. -/
  | detachTimeout (m : BitVec 10)
  /-- RESET, 12 R312. -/
  | linkReset (s : SiteIx) (lead : Fin 32)
  /-- ANNOUNCE_TIMER, 12 R316. -/
  | announceTimer
  /-- TK_KNOWN_TIMEOUT, 12 R316. -/
  | tkKnownTimeout
  /-- SEND, 12 R317. -/
  | tkSend
  /-- CLEAR, 12 R327. -/
  | detachClear
  /-- PORST_N_RISE, 14 R367: the straps at the pins. -/
  | porstRise (straps : BitVec 4)
  /-- PORST_N_FALL, 17 R419. -/
  | porstFall
  /-- REFCLK_PRESENT, 17 R421. -/
  | refclkPresent
  /-- FLASH_TIMEOUT, 14 R362. -/
  | flashTimeout
  /-- REBOOT, 14 R370: the straps at the pins. -/
  | reboot (straps : BitVec 4)
  /-- FLASH_READ, 14 R373. -/
  | flashRead
  /-- FLASH_PROGRAM, 14 R373. -/
  | flashProgram
  /-- FLASH_ERASE, 14 R373. -/
  | flashErase
  /-- FLASH_COMMAND_DONE, 14 R373. -/
  | flashCommandDone
  /-- OWNER_PROGRAM, 14 R372: a write to TRU_OWNER_CMD. -/
  | ownerProgram (confirm : Byte)
  /-- OWNER_PROGRAM_DONE, 14 R372. -/
  | ownerProgramDone
  /-- UNIT_SCRUB_READ, 15 R382. -/
  | unitScrubRead (u : UnitIx)
  /-- REGION_SCRUB_READ, 15 R382. -/
  | regionScrubRead (r : RegionIx)
  /-- NOW, 15 R385. -/
  | scrubNowRegion (r : RegionIx)
  /-- FENCED_WRITE, 15 R386. -/
  | fencedWrite (u : UnitIx) (fenced : Bool)
  /-- AVS_READING, 15 R388: the worst slack in ps. -/
  | avsReading (d : DieIx) (slack : BitVec 8)
  /-- AVS_STEP_SETTLED, 15 R388. -/
  | avsStepSettled (d : DieIx)
  /-- TEMPERATURE_CONVERSION, 15 R390: the 64 readings, signed, in 0.25 °C, region 0 first. -/
  | temperatureConversion (temps : List Int)
  /-- SECOND_CONVERSION, 15 R390: the region whose sensor converts again and its reading. -/
  | secondConversion (r : RegionIx) (temp : Int)
  /-- TRIP_STOP, 15 R392. -/
  | tripStop
  /-- BROWNOUT, 17 R413. -/
  | brownout
  /-- VIN_RISE, 17 R414. -/
  | vinRise
  /-- RAILS_GOOD, 17 R414. -/
  | railsGood
  /-- POWER_AVERAGE, 17 R417: VIN in 10 mV, current in 10 mA and the 1 ms average in 0.1 W. -/
  | powerAverage (vin iin pin : BitVec 16)
  /-- OV, 17 R418. -/
  | ov
  /-- OC, 17 R418. -/
  | oc
  /-- REG_FAULT, 17 R418. -/
  | regFault (d : DieIx)
  /-- REFCLK_LOSS, 17 R418. -/
  | refclkLoss
  /-- SMBUS_READ_IDENTITY, 17 R429. -/
  | smbusReadIdentity
  /-- SMBUS_READ_STATUS, 17 R429. -/
  | smbusReadStatus
  /-- SMBUS_READ_VIN, 17 R429. -/
  | smbusReadVin
  /-- SMBUS_READ_CURRENT, 17 R429. -/
  | smbusReadCurrent
  /-- SMBUS_READ_POWER, 17 R429. -/
  | smbusReadPower
  /-- SMBUS_READ_PEAK, 17 R429. -/
  | smbusReadPeak
  /-- SMBUS_READ_TEMPERATURE, 17 R429. -/
  | smbusReadTemperature
  /-- SMBUS_READ_BOOT_STATUS, 17 R429. -/
  | smbusReadBootStatus
  /-- SMBUS_ALERT_MASK, 17 R429: a write of the mask, or a read. -/
  | smbusAlertMask (write : Option (BitVec 16))
  /-- ALERT_RESPONSE, 17 R430. -/
  | alertResponse
  /-- EXTEST, 16 R409: the pins as they stand and the boundary cells shifted in. -/
  | extest (pins shifted : BitVec 102)
  /-- SAMPLE_PRELOAD, 16 R408. -/
  | samplePreload (pins shifted : BitVec 102)
  /-- IDCODE, 16 R408. -/
  | idcode
  /-- FRS_ADDR, 16 R408. -/
  | frsAddr (offset : Word32)
  /-- FRS_DATA, 16 R408. -/
  | frsData
  /-- BYPASS, 16 R408: any other instruction code, 0xFF among them. -/
  | bypass (code : Byte)
  /-- TRST_N, 16 R408. -/
  | trst
  /-- FRS_ARM, 16 R398. -/
  | frsArm
  /-- FRS_RELEASE, 16 R401. -/
  | frsRelease
  /-- FROST_CAPTURE, 16 R399. -/
  | frostCapture
  /-- LANE_SIGNAL_PRESENT, 11 R290. -/
  | laneSignalPresent (l : LaneId)
  /-- LOCK_RECOVERED, 11 R294. -/
  | lockRecovered (l : LaneId)
  /-- GPIO_LEVEL_CHANGE, 08 R219. -/
  | gpioLevelChange (i : Fin 8) (level : Bool)
  /-- XSPI_OTHER_COMMAND, 13 R352. -/
  | xspiOtherCommand (opcode ext : Byte)
  /-- VIN_BELOW_10_V, 17 R413. -/
  | vinBelow10V
deriving DecidableEq, Repr

end Sys2Proof
end

