-- ==== Sys2Proof/Decode.lean ====
section
/-!
DEFINITION. Decode.lean: the command that a table word spells. No row of spec/opcode_table.json gives bits, so no word spells a command
(notes/assumptions/18.md).
-/
namespace Sys2Proof

/-- The command whose table bits are w. -/
def decodeTableWord (nbits w : Nat) : Option Instr :=
  match nbits, w with
  | _, _ => none

end Sys2Proof
end

