-- ==== Sys2Proof/Config.lean ====
section
/-!
DEFINITION. Config.lean: the values the spec leaves open, as constants without a body: nothing in Lean can evaluate them.
-/
namespace Sys2Proof.Config

/-- A value of `w` bits that the spec leaves open; `n` is the counter `State.freeNext` at the moment it is drawn
(notes/assumptions/3.md). -/
opaque freeValue (w : Nat) (n : Nat) : BitVec w

/-- The signature for a digest if the first 64 candidates of RFC 6979 for k are all turned away (14_boot_and_trust.md R375;
notes/assumptions/4.md): no one knows an input for which that happens. -/
opaque ecdsaLate (privateKey : Nat) (digest : List Byte) : List Byte

/-- The clock tree that serves boundary port `j` (LR0 to LR3, then LW0 to LW3) of logic block `k` under a port-binding word
(08_logic_fabric.md R199: the Aelael device model's; notes/assumptions/15.md). -/
opaque portTree (binding : Word64) (k j : Nat) : BitVec 2

/-- The position of the other end of the length-12 wire that a switch box at position `i` of its row or column drives
(08_logic_fabric.md R194: the Aelael device model's; notes/assumptions/15.md). -/
opaque wireEnd (vertical : Bool) (i : Nat) : BitVec 7

/-- A net of a logic block (08_logic_fabric.md R192, R194): constant 0, a table output of a cell before its flip-flop and the cell's output (B where
`b` holds), the wire that a driver of a switch
box drives (0 to 3 length 1 north, east, south, west; 4 and 5 length 4 east, south; 6 and 7 an end of a horizontal, a vertical length-12 wire), or
an input from the block's edge by the model's number (Machine/Cells.lean, `inputBit`). -/
inductive Net where
  | zero
  | table (col row : Nat) (b : Bool)
  | cell (col row : Nat) (b : Bool)
  | wire (driver col row : Nat)
  | input (i : Nat)
deriving DecidableEq, Repr, Inhabited

/-- The candidate that a select other than 0 takes at a multiplexer of the position (col, row): 0 to 7 the drivers of `Net.wire`, 8 to 13 the cell's
inputs i0 to i5, 14 CE, 15 SR (08_logic_fabric.md R194, R206: the Aelael device model's; notes/assumptions/15.md). -/
opaque candidate (mux col row select : Nat) : Net

/-- The nets that select among the cells of a COMBINE run, least significant first (08_logic_fabric.md R193; notes/assumptions/15.md). -/
opaque combineSelect (col row len : Nat) : List Net

/-- What a length-12 wire with no driver enabled reads as (08_logic_fabric.md R194; notes/assumptions/15.md). -/
opaque undriven (vertical : Bool) (col row : Nat) : Bool

/-- What a logic configuration word with a correctable upset acts as until it is corrected: index and corrected value
(15_faults_and_self_management.md R384; notes/assumptions/3.md). -/
opaque upset (i : Nat) (v : Word64) : Word64

/-- The value of a net that depends on itself through no flip-flop (notes/assumptions/15.md). -/
opaque looped (n : Net) : Bool

/-- An input of a logic block at an edge whose value the model does not follow: draw `n`, cycle `c`, input `i` (notes/assumptions/15.md). -/
opaque edgeInput (n c i : Nat) : Bool

/-- The phase of free tree i of region r against the array clock, to which it stands in no relation (08_logic_fabric.md R196; notes/assumptions/15.md). -/
opaque freePhase (r i : Nat) : Nat

/-- An edge of free tree i of region r in array cycle c falls before the locked trees' edge of that cycle (08_logic_fabric.md R196;
notes/assumptions/15.md). -/
opaque freeFirst (r i c : Nat) : Bool

/-- How many edges a free tree has between two looks at it while the array clock is stopped: draw `n` (08_logic_fabric.md R196;
notes/assumptions/15.md). -/
opaque freeEdges (n : Nat) : Nat

/-- The cycles that a boundary port of block k takes through its dual-clock queue at least (08_logic_fabric.md R200, 02 R34;
notes/assumptions/15.md). -/
opaque portCrossing (k j : Nat) : Nat

/-- The net that is user signal `i` of logic block `k` (08_logic_fabric.md R203; notes/assumptions/15.md). -/
opaque signalNet (k i : Nat) : Net

/-- A word that a BIST left in a store: the spec says only that it overwrites every store it tests (13_host_control.md R346). `n` tells
tests and stores apart, `i` is the word (notes/assumptions/3.md). -/
opaque testWord (n i : Nat) : Word64

/-- A word of a frost capture whose content the spec leaves open: the operation pipeline of a function unit, whose layout is the Aelael
device model's, and queue-bank positions that hold no beat (16_observation.md R406). `n` tells captures apart, `w` is the word's place in
the shadow (notes/assumptions/3.md). -/
opaque frostWord (n w : Nat) : Word64

/-- The place of a word of a region cache's data-array window: set [19:9], way [8:5], word of the line [4:0]. The spec gives the window's layout
nowhere (10_staged_mode.md R255; notes/assumptions/3.md). -/
opaque cacheCell : Nat → BitVec 20

end Sys2Proof.Config
end

