-- ==== Sys2Proof/Machine/RegTable.lean ====
section
/-!
DEFINITION. Machine/RegTable.lean: the register map of the TW16 (00_scope.md R10) and the fields of every register with
their access codes (R9) and reset values, table by table as the chapters of the spec give them. A field is written
`<access> <low bit> <width> (<reset>)`. Bits no field covers are reserved: they read as zero and writes to them are
ignored (R8).
-/
namespace Sys2Proof.Machine

/-- The access codes of 00_scope.md R9. `live` is a read-only field computed from the state when it is read, `staged` is a
read-write field that takes effect at a commit (08_logic_fabric.md R213), `rcExt` is a read-to-clear field that records an extreme, and `rcLevel` one
that restarts at the level held at the moment of the read. -/
inductive Acc
  | rw | ro | live | wo | w1c | w1s | rc | rcExt | rcLevel | staged
deriving DecidableEq, Repr

/-- One field of a register: its place, its access code and the value it holds after reset. -/
structure FieldSpec where
  acc : Acc
  lo : Nat
  w : Nat
  reset : Nat
deriving DecidableEq, Repr

def rw (lo w : Nat) (r : Nat := 0) : FieldSpec := ⟨.rw, lo, w, r⟩
def ro (lo w : Nat) (r : Nat := 0) : FieldSpec := ⟨.ro, lo, w, r⟩
def live (lo w : Nat) : FieldSpec := ⟨.live, lo, w, 0⟩
def wo (lo w : Nat) : FieldSpec := ⟨.wo, lo, w, 0⟩
def w1c (lo : Nat) : FieldSpec := ⟨.w1c, lo, 1, 0⟩
def w1s (lo : Nat) : FieldSpec := ⟨.w1s, lo, 1, 0⟩
def rc (lo w : Nat) (r : Nat := 0) : FieldSpec := ⟨.rc, lo, w, r⟩
def rcExt (lo w : Nat) (r : Nat := 0) : FieldSpec := ⟨.rcExt, lo, w, r⟩
def rcLevel (lo w : Nat) : FieldSpec := ⟨.rcLevel, lo, w, 0⟩
def stg (lo w : Nat) (r : Nat := 0) : FieldSpec := ⟨.staged, lo, w, r⟩

/-- A register that a table lists and that has no field, or none on this package: it reads as zero, and writes to it are ignored. -/
def blank : List FieldSpec := [wo 0 32]

/-! ### Bases of the register space (00_scope.md R10) -/

def siteBase (s : Nat) : Nat := 0x80000 + s * 0x1000
def dieBase (d : Nat) : Nat := 0x1000000 + d * 0x100000
/-- `rho` is 4 × die + region. -/
def regionBase (rho : Nat) : Nat := dieBase (rho / 4) + (rho % 4) * 0x40000
/-- `k` is 32 × die + 8 × region + cluster (16_observation.md R404). -/
def clusterBase (k : Nat) : Nat := regionBase (k / 8) + 0x20000 + (k % 8) * 0x2000
/-- `g` is 256 × die + 64 × region + 8 × cluster + unit (16_observation.md R404). -/
def unitBase (g : Nat) : Nat := clusterBase (g / 8) + (g % 8) * 0x100
/-- `f` is 2 × cluster index + function unit. -/
def funBase (f : Nat) : Nat := clusterBase (f / 2) + 0x900 + (f % 2) * 0x80
def steBase (k : Nat) : Nat := clusterBase k + 0xA00
def logBase (k : Nat) : Nat := clusterBase k + 0x1000
def descBase (rho i : Nat) : Nat := regionBase rho + 0x8000 + i * 0x40
def vaBase (v : Nat) : Nat := 0x1000 + v * 0x100
def ringBase (r : Nat) : Nat := 0x30000 + r * 0x40
def spyBase (q : Nat) : Nat := 0x33000 + q * 0x20
def rxBase (site lane : Nat) : Nat := siteBase site + 0x100 + lane * 0x20
def txBase (site lane : Nat) : Nat := siteBase site + 0x700 + lane * 0x20
def grpBase (site lead : Nat) : Nat := siteBase site + 0xB00 + lead * 0x10
def txmapBase (site link : Nat) : Nat := siteBase site + 0xD00 + link * 8
/-- `x` is a stream number: context x mod 1,024 of die x div 1,024 (12_elvaro_fabric.md R324). -/
def ctxBase (x : Nat) : Nat := dieBase (x / 1024) + 0x30000 + (x % 1024) * 0x20
def mcBase (m : Nat) : Nat := dieBase (m / 64) + 0x70000 + (m % 64) * 0x40
def hardBase (d : Nat) : Nat := dieBase d + 0x38000
def avsBase (d : Nat) : Nat := dieBase d + 0x78000
def wayBase (n : Nat) : Nat := 0x21000 + n * 0x10

/-! ### Field tables -/

/-- 00 R7, 01 R17 R31, 09 R238. -/
def pkgRegs : Nat → List FieldSpec
  | 0x0000 => [live 0 32]
  | 0x0004 => [ro 0 4 4, ro 4 4 4, ro 8 4 4, ro 12 4 8, ro 16 4 8, ro 20 4 4]
  | 0x0008 => [ro 0 2, ro 2 1, ro 3 1, ro 8 7, ro 16 7, ro 24 7]
  | 0x000C => [ro 0 16, ro 16 16]
  | 0x0200 => [ro 0 1, w1c 1, ro 2 6, ro 8 10]
  | 0x0204 => [rw 0 32 0x1000000]
  | 0x0208 => [rc 0 32]
  | 0x2000 => [rw 0 10, ro 10 1, rw 11 1, ro 12 1, ro 13 1, w1c 14, ro 15 1, ro 16 10, w1c 26]
  | 0x2004 => [rw 0 4, rw 4 5, rw 9 1, rw 16 10, rw 26 1]
  | 0x2008 => [ro 0 5, w1c 5, w1s 6]
  | 0x2100 => [rw 0 24, rw 24 8]
  | 0x2104 => [rw 0 8, w1s 8, w1c 9]
  | 0x2108 => [rw 0 16 0x1000, rw 16 11 1]
  | 0x210C => [rc 0 16, ro 16 16]
  | a =>
    if 0x100 ≤ a ∧ a < 0x120 then [rw 0 2, rw 2 1, rw 3 4, rw 7 2, rw 9 3, rw 12 3, ro 16 1]           -- 08 R219
    else if 0x1000 ≤ a ∧ a < 0x1400 then                                                              -- 06 R164
      match a % 0x100 with
      | 0x00 => [ro 0 1, ro 1 3]
      | 0x04 | 0x08 | 0x0C | 0x10 | 0x14 | 0x1C | 0x20 => [ro 0 32]
      | 0x18 => [rc 0 16, rc 16 16]
      | _ => []
    else if 0x2040 ≤ a ∧ a < 0x20C0 then                                                              -- 12 R327
      (if a % 8 = 0 then [ro 0 10, ro 10 3, ro 16 12, ro 31 1] else [ro 0 32])
    else []

/-- 15 R395, 17 R432 (offsets in the block at 0x0001_0000). -/
def thermRegs : Nat → List FieldSpec
  | 0x000 => [ro 0 2, w1c 2, ro 3 1, ro 4 1, ro 16 6]
  | 0x004 => [ro 0 11, rcExt 16 11]
  | 0x008 => [rc 0 16, rc 16 16]
  | 0x00C => [ro 0 13]
  | 0x100 => [ro 0 1, ro 1 1, w1c 2, w1c 3, w1c 4, w1c 5, w1c 6, w1c 7, ro 8 1, ro 9 4, ro 13 4]
  | 0x104 => [ro 0 16, ro 16 16]
  | 0x108 => [ro 0 16, rcExt 16 16]
  | 0x10C => [rw 0 11]
  | 0x110 => [rw 0 7 0x58, rw 8 8 0x1E]
  | 0x114 => [rc 0 16]
  | _ => []

/-- 02 R65 (offsets in the block at 0x0002_0000). -/
def timRegs : Nat → List FieldSpec
  | 0x000 => [rw 0 6, rw 6 1 1, rw 8 6 30, rw 16 8 16]
  | 0x004 => [ro 0 4, ro 8 1, ro 9 1, w1c 10, w1c 11, w1c 12, w1c 13, ro 16 6]
  | 0x008 => [ro 0 32]
  | 0x00C => [ro 0 12, ro 16 13]
  | 0x010 => [ro 0 32]
  | 0x014 => [ro 0 32]
  | 0x018 => [ro 0 16]
  | 0x01C => [rc 0 8, rc 8 8, rc 16 8, rc 24 8]
  | 0x100 => [ro 0 13, ro 16 4]
  | a =>
    if 0x1000 ≤ a ∧ a < 0x1000 + 384 * 0x10 then
      match a % 0x10 with
      | 0x0 => [ro 0 13, ro 16 13]
      | 0x4 => [ro 0 13, rcExt 16 13 0x1FFF]
      | 0x8 => [rc 0 16, rc 16 16]
      | 0xC => [w1c 0, ro 1 1, ro 2 1, rcLevel 8 7]
      | _ => []
    else []

/-- 13 R359 R360 R361 (offsets in the block at 0x0003_0000). -/
def ringRegs (a : Nat) : List FieldSpec :=
  if a < 0x1000 then
    match a % 0x40 with
    | 0x00 => [rw 0 1, rw 1 4 4, rw 16 14]
    | 0x04 => [rw 0 14]
    | 0x08 | 0x10 => [rw 0 32]
    | 0x0C | 0x14 => [rw 0 16]
    | 0x18 => [ro 0 12, ro 16 12]
    | 0x1C => [ro 0 1, w1c 1, w1c 2, w1c 3, ro 4 1 1, ro 16 16]
    | 0x20 => [rc 0 32]
    | _ => []
  else if a < 0x1100 then [wo 0 12]
  else if a = 0x2000 then [ro 0 6, ro 6 1, ro 7 1, ro 8 6]
  else if a = 0x2004 then [live 0 7, w1c 7, w1c 8, w1c 9, w1c 10]
  else if a = 0x2010 then [rw 0 32]
  else if a = 0x2014 then [w1s 0, w1s 1, ro 2 1, w1c 3]
  else if a = 0x2018 then [rw 0 32]
  else if 0x3000 ≤ a ∧ a < 0x3100 then
    match a % 0x20 with
    | 0x00 => [rw 0 1, rw 1 2, rw 3 2, rw 5 1, rw 16 16]
    | 0x04 => [live 0 15, w1c 15, live 16 12, live 28 1]
    | 0x08 => [rc 0 16, rc 16 16]
    | 0x0C => [rcLevel 0 13]
    | _ => []
  else []

/-- 14 R378 (offsets in the block at 0x0004_0000). -/
def bootRegs : Nat → List FieldSpec
  | 0x000 => [ro 0 4, ro 4 4, ro 8 4, ro 12 1, ro 13 1, ro 16 4]
  | 0x004 => [w1s 0, w1c 1]
  | 0x010 => [rw 0 32]
  | 0x014 => [rw 0 2, rw 2 8, w1s 16, ro 17 1, w1c 18]
  | 0x200 => [live 0 1, ro 1 1]
  | 0x208 | 0x20C => [live 0 32]
  | 0x210 | 0x214 => [ro 0 32]
  | 0x218 => [ro 0 32]
  | 0x280 => [wo 0 8, w1s 8, ro 9 1, w1c 10]
  | a =>
    if 0x100 ≤ a ∧ a < 0x200 then [rw 0 32]
    else if 0x220 ≤ a ∧ a < 0x260 then [live 0 32]
    else if 0x260 ≤ a ∧ a < 0x280 then [rw 0 32]
    else if 0x300 ≤ a ∧ a < 0x340 then [live 0 32]
    else []

/-- 16 R411 (offsets in the block at 0x0005_0000). -/
def frostRegs : Nat → List FieldSpec
  | 0x00 => [rw 0 6, w1s 8, w1s 9]
  | 0x04 => [ro 0 1, w1c 1, w1c 2, w1c 3, rc 16 16]
  | 0x08 => [ro 0 12, ro 16 6, ro 24 3, ro 27 1]
  | 0x0C => [ro 0 32]
  | _ => []

/-- An arbiter's counter block, 07 R191. -/
def arbRegs : Nat → List FieldSpec
  | 0x0 => [rc 0 16, rc 16 16]
  | 0x4 => [rcExt 0 24]
  | 0x8 => [rc 0 16]
  | _ => []

/-- The kind of tile at a site (00_scope.md R3): 0 intake, 1 light, 2 memory, for variant 0 TW16-T, 1 TW16-X, 2 TW16-S. -/
def tileKind (variant site : Nat) : Nat :=
  match variant with
  | 0 => if site ∈ [0, 1, 2, 3, 8, 9, 10, 11] then 0 else if site ∈ [4, 5, 6, 12, 13, 14] then 1 else 2
  | 1 => if site ∈ [0, 8] then 0 else if site ∈ [7, 15] then 2 else 1
  | _ => if site ∈ [0, 8] then 0 else if site ∈ [3, 4, 7, 11, 12, 15] then 1 else 2

/-- The registers that a tile of this kind has at its site (10 R250, 11 R296, 12 R326, 07 R191). -/
def tileRegs (kind a : Nat) : List FieldSpec :=
  if a < 0x100 then
    if kind = 2 then
      match a with
      | 0x00 => [rw 0 1 1, w1s 1, rw 16 8 0x18]
      | 0x04 => [ro 0 1, ro 1 1, ro 2 3 2, w1c 5]
      | 0x08 => [rc 0 16, rc 16 8, rc 24 8]
      | 0x0C => [ro 0 32]
      | 0x10 => [ro 0 3, w1c 31]
      | 0x14 => [ro 0 26]
      | 0x18 => [rc 0 32]
      | _ => []
    else []
  else if a < 0x700 then
    if (kind = 0 ∧ a < 0x100 + 48 * 0x20) ∨ (kind = 1 ∧ a < 0x100 + 32 * 0x20) then
      match a % 0x20 with
      | 0x00 => [rw 0 15 25781, rw 15 1 1, rw 16 1 1, wo 17 1]
      | 0x04 => [live 0 3, live 3 1, w1c 4, w1c 5, w1c 6, w1c 7, w1c 8, rc 16 8]
      | 0x08 => [ro 0 6, ro 8 6, rcExt 16 6 0x3F, rcExt 24 6 0x3F]
      | 0x0C => [rc 0 16, rc 16 8, rc 24 8]
      | _ => []
    else []
  else if a < 0xB00 then
    if (kind = 0 ∧ a < 0x700 + 16 * 0x20) ∨ (kind = 1 ∧ a < 0x700 + 32 * 0x20) then
      match a % 0x20 with
      | 0x00 => [rw 0 2, rw 2 2, rw 4 4, rw 8 1, rw 9 1 1, rw 16 15 25781]
      | 0x04 => [ro 0 3, live 3 1, ro 4 1, w1c 5, w1c 6, w1c 7, rc 16 16]
      | 0x08 => [rc 0 32]
      | _ => []
    else []
  else if a < 0xD00 then
    if kind = 1 then
      match a % 0x10 with
      | 0x0 => [rw 0 1 1, w1s 1]
      | 0x4 => [ro 0 1, ro 1 2, live 3 1, w1c 4, w1c 5, ro 6 1, ro 8 8, ro 16 10, ro 26 5]
      | 0x8 => [rc 0 12, rc 12 12, rc 24 8]
      | _ => [ro 0 12, rc 16 8, rc 24 8]
    else []
  else if a < 0xD80 then
    if kind = 1 then
      (if a % 8 = 0 then [rw 0 14, rw 15 1, rw 16 3 7, rw 19 5, rw 24 8] else [live 0 8, rc 8 8, rc 16 8, rc 24 8])
    else []
  else if a = 0xE00 then [live 0 2, live 8 8]
  else if a = 0xE04 then if kind = 2 then [] else [rw 0 6 0x08, rw 8 6 0x0C, rw 16 1 1]
  else if a = 0xE08 then if kind = 1 then [ro 0 9, ro 16 9, w1c 25, w1c 26, w1c 27, w1c 28] else []
  else if a = 0xE0C then
    (if kind = 1 then [rw 0 2, rw 2 2, rw 4 2, rw 6 2, rw 8 1, rw 9 1, rw 10 1, rw 11 1]
     else if kind = 0 then [rw 0 2, rw 2 2] else [])
  else if 0xF00 ≤ a then
    (if kind = 2 then (if a < 0xF10 then arbRegs (a % 0x10) else []) else if kind = 1 then arbRegs (a % 0x10) else [])
  else []

/-- The tables list a register at this offset of a tile site, whatever tile it holds; a site's egress blocks of the lead lanes 16 to 31 reach into
the first 0x100 bytes after it (10 R250, 11 R296, 12 R326, 07 R179, R191). -/
def siteListed (a : Nat) : Bool :=
  decide (a < 0x1C) || (decide (a < 0x100) && decide (a % 0x10 < 0xC)) || (decide (0x100 ≤ a) && decide (a < 0x700)) && decide (a % 0x20 < 0x10) ||
    (decide (0x700 ≤ a) && decide (a < 0xB00)) && decide (a % 0x20 < 0xC) || (decide (0xB00 ≤ a) && decide (a < 0xD80)) ||
    (decide (0xE00 ≤ a) && decide (a < 0xE10)) || (decide (0xF00 ≤ a) && decide (a % 0x10 < 0xC))

/-- The registers at offset `a` of a site: those of its own tile, then the egress blocks that the tile
before reaches with (notes/assumptions/70.md), and a register that a table lists and the tile lacks, which reads as zero. -/
def siteRegs (own before_ : Nat) (a : Nat) : List FieldSpec :=
  let mine := tileRegs own a
  let reach := if before_ = 1 ∧ a < 0x100 then arbRegs (a % 0x10) else []
  if !mine.isEmpty then mine else if !reach.isEmpty then reach else if siteListed a then blank else []

/-- Fields of a port or steering input queue, 07 R187 R188. -/
def portQRegs : Nat → List FieldSpec
  | 0x0 => [stg 0 1, wo 1 1, live 4 4, live 8 1, live 9 1, w1c 10, w1c 11, live 12 1, live 13 1, live 14 1, live 15 1, w1c 16]
  | 0x4 => [rc 0 16, rc 16 16]
  | 0x8 => [rc 0 16, rcLevel 16 4]
  | 0xC => [rc 0 16, rc 16 16]
  | _ => []

/-- A dot unit, 04 R110, 07 R187 R189, 15 R386. -/
def dotRegs : Nat → List FieldSpec
  | 0x00 => [rw 0 10, rw 16 8, rw 24 4, rw 31 1]
  | 0x04 => [ro 0 1, w1c 1, w1c 2, live 3 1, live 16 9]
  | 0x08 => [stg 0 3, stg 3 1 1]
  | 0x10 | 0x14 | 0x18 | 0x1C => [stg 0 32]
  | 0x20 | 0x24 | 0x28 | 0x2C | 0x30 | 0x34 | 0x38 | 0x3C => [rw 0 9, rw 16 9]
  | 0x40 | 0x44 | 0x48 | 0x4C => [rw 0 6, rw 8 6, rw 16 6, rw 24 6]
  | 0x50 => [ro 0 4, live 4 4]
  | 0x54 => [rc 0 32]
  | 0x58 => [rc 0 16, rc 16 16]
  | 0x5C => [rc 0 8, rc 8 8, rc 16 8, rc 24 8]
  | 0x60 => [rc 0 16, rc 16 16]
  | 0x64 => [stg 0 2, stg 2 1, stg 3 2, stg 5 1, stg 6 2, stg 8 1, stg 9 2, stg 11 1, live 12 1]
  | 0x68 => [rc 0 16, rc 16 16]
  | 0x6C => [rw 0 1, ro 1 1, ro 2 1]
  | 0x70 => [rw 0 14, rw 16 2, rw 31 1]
  | 0x74 | 0x78 => [rw 0 32]
  | a => if 0x80 ≤ a ∧ a < 0xC0 then portQRegs (a % 0x10) else []

/-- A function unit, 06 R162. -/
def funRegs : Nat → List FieldSpec
  | 0x00 => [rw 0 9, rw 16 8, rw 24 4, rw 31 1]
  | 0x04 => [ro 0 1, w1c 1, w1c 2, live 16 8]
  | 0x08 => [ro 0 4, live 4 4]
  | 0x0C => [rc 0 8, rc 8 8, rc 16 8, rc 24 8]
  | 0x10 => [rc 0 16]
  | 0x14 => [rc 0 16, rc 16 16]
  | 0x20 => [rw 0 8, rw 31 1]
  | 0x24 | 0x28 => [rw 0 32]
  | _ => []

/-- A queue-bank queue, 07 R190; `q` is the queue's number, which gives the reset value of BASE. -/
def bankQRegs (q : Nat) : Nat → List FieldSpec
  | 0x00 => [stg 0 10 (64 * q), stg 16 11 0x40, stg 27 1]
  | 0x04 => [live 0 11, live 11 1, live 12 1, w1c 13, w1c 14, live 15 1, live 16 1, live 17 1, w1c 18]
  | 0x08 => [wo 0 1]
  | 0x0C => [rc 0 16, rc 16 16]
  | 0x10 => [rc 0 16, rcLevel 16 11]
  | 0x14 => [rc 0 16, rc 16 16]
  | 0x18 => [stg 0 3, stg 3 2, stg 5 1, stg 8 3, stg 11 2, stg 13 1]
  | _ => []

/-- A cluster: units, 05 R131, 06 R162 R163, 07 R188 R190, 08 R216. -/
def clusterRegs (a : Nat) : List FieldSpec :=
  if a < 0x800 then dotRegs (a % 0x100)
  else if a = 0x800 then [rc 0 16, rc 16 16]
  else if 0x900 ≤ a ∧ a < 0xA00 then funRegs (a % 0x80)
  else if a = 0xA00 then [stg 0 3, stg 3 2, stg 5 2, stg 8 4, stg 12 4, stg 16 6, stg 22 3, stg 31 1]
  else if a = 0xA04 then [stg 0 4, stg 4 4, stg 8 4, stg 12 4]
  else if a = 0xA08 then [live 0 1, live 1 1, live 8 6, live 16 12]
  else if a = 0xA0C then [rc 0 16, rc 16 16]
  else if 0xA40 ≤ a ∧ a < 0xA80 then portQRegs (a % 0x10)
  else if 0xC00 ≤ a ∧ a < 0xE00 then bankQRegs ((a - 0xC00) / 0x20) (a % 0x20)
  else if 0x1000 ≤ a ∧ a < 0x1020 then
    match a % 0x20 with
    | 0x00 => [wo 0 1, wo 1 1]
    | 0x04 => [ro 0 2, w1c 2, w1c 3, w1c 4, w1c 5, ro 16 7, ro 23 6, ro 29 1]
    | 0x08 | 0x0C => [wo 0 32]
    | 0x10 => [ro 0 16]
    | 0x14 | 0x18 => [ro 0 32]
    | _ => []
  else []

/-- A stream descriptor, 10 R256. -/
def descRegs : Nat → List FieldSpec
  | 0x00 | 0x08 | 0x10 | 0x18 | 0x1C | 0x24 | 0x28 => [rw 0 32]
  | 0x04 | 0x0C | 0x14 | 0x20 => [rw 0 16]
  | 0x2C => [rw 0 3 7, rw 3 3, rw 6 3, rw 9 1, rw 10 1, rw 11 1, rw 12 1, rw 13 6, rw 19 1, rw 20 4, rw 24 1, rw 25 4, rw 29 1]
  | 0x30 => [wo 0 1, wo 1 1]
  | 0x34 => [ro 0 1, ro 1 1, w1c 2, w1c 3, ro 4 3, rc 16 16]
  | 0x38 => [ro 0 32]
  | 0x3C => blank
  | _ => []

/-- A region below its clusters, 08 R217, 09 R241, 10 R255 R266 R273, 15 R396, 07 R191. -/
def regionRegs (a : Nat) : List FieldSpec :=
  match a with
  | 0x1000 => [wo 0 1, wo 1 1, ro 2 1, ro 3 1, w1c 4]
  | 0x1004 => [rc 0 16]
  | 0x1008 => [wo 0 1, ro 1 1, w1c 2, w1c 3, ro 16 12]
  | 0x100C => [stg 0 2, stg 2 4 2, stg 8 2, stg 10 4 2, stg 16 2, stg 18 4 2, stg 24 2, stg 26 4 2]
  | 0x1010 | 0x1014 => [stg 0 7, stg 8 6, stg 16 1, ro 17 1, ro 18 1]
  | 0x1200 => [rw 0 1]
  | 0x1204 => [ro 0 3, w1c 3, ro 4 3, ro 7 4, ro 11 5, ro 16 12]
  | 0x1208 => [ro 0 6, ro 16 9]
  | 0x120C | 0x1210 => [rc 0 16, rc 16 16]
  | 0x1214 => [rc 0 16]
  | 0x1300 => [live 0 1, live 1 1, live 2 1]
  | 0x1304 => [rw 0 8, rw 8 3, wo 31 1]
  | 0x1400 => [ro 0 11, live 16 12]
  | 0x1404 => [w1s 0, rw 1 1 1, ro 8 8, rc 16 16]
  | 0x1408 => [rc 0 16, rc 16 16]
  | 0x140C => [ro 0 3, ro 3 3, ro 6 4, ro 10 18, w1c 31]
  | 0x4000 | 0x4004 | 0x4008 => arbRegs (a % 0x10)
  | 0x4100 => [wo 0 1, ro 1 1]
  | 0x4104 | 0x4108 => [rc 0 32]
  | 0x410C => [rc 0 16, rc 16 16]
  | 0x4110 => [rc 0 16, live 16 16]
  | a =>
    if 0x8000 ≤ a ∧ a < 0x9000 then descRegs (a % 0x40)
    else if 0x9100 ≤ a ∧ a < 0x9200 then [rw 0 17, rw 17 10]
    else if 0x9200 ≤ a ∧ a < 0x9300 then
      match a % 0x10 with
      | 0x0 => [live 0 5, live 5 1, live 6 1, w1c 7, rcLevel 16 5]
      | 0x4 => [wo 0 16]
      | 0x8 => [live 0 16]
      | _ => []
    else []

/-- A fabric stream context, 12 R324. -/
def ctxRegs : Nat → List FieldSpec
  | 0x00 => [rw 0 3, rw 3 1, rw 4 3 7, rw 8 7, rw 16 8]
  | 0x04 => [rw 0 14, rw 16 14]
  | 0x08 => [rw 0 13, rw 16 3, rw 24 8]
  | 0x0C => [ro 0 13, ro 16 13]
  | 0x10 => [ro 0 1, w1c 1, w1c 2, ro 8 8, ro 16 7]
  | 0x14 | 0x18 => [rc 0 16, rc 16 16]
  | 0x1C => [rc 0 16]
  | _ => []

/-- A multicast group, 12 R325. -/
def mcRegs : Nat → List FieldSpec
  | 0x00 => [rw 0 8, rw 16 16]
  | 0x04 => [ro 0 8, live 8 8, rc 16 16]
  | a => if 0x08 ≤ a ∧ a < 0x28 ∧ a % 4 = 0 then [rw 0 4, rw 4 5, rw 9 1, rw 10 14, rw 24 8] else if 0x28 ≤ a ∧ a < 0x40 ∧ a % 4 = 0 then blank else []

/-- A die's hard blocks, 08 R218. -/
def hardRegs : Nat → List FieldSpec
  | 0x00 => [live 0 12, live 16 12]
  | 0x04 => [rw 0 16 0xD8, rw 16 5, rw 21 1]
  | 0x08 => [rw 0 2, rw 2 5, rw 7 1]
  | 0x10 => [rw 0 10]
  | 0x14 | 0x18 => [rw 0 32]
  | 0x1C => [wo 0 1, wo 1 1, ro 2 1, w1c 3, live 4 1]
  | _ => []

/-- A die's adaptive-voltage registers, 15 R397. -/
def avsRegs : Nat → List FieldSpec
  | 0x0 => [ro 0 10, ro 16 8, ro 24 1, w1c 25, ro 26 1]
  | 0x4 => [rc 0 16, rc 16 16]
  | 0x8 => [live 0 10, live 16 10]
  | _ => []

/-- The fields of the register at a steward address on a package of this variant; none where nothing is mapped. -/
def regSpec (variant a : Nat) : List FieldSpec :=
  if a % 4 ≠ 0 then []
  else if a < 0x10000 then pkgRegs a
  else if a < 0x20000 then thermRegs (a - 0x10000)
  else if a < 0x30000 then
    (if 0x21000 + 96 * 0x10 ≤ a ∧ variant ≠ 0 ∧ !(timRegs (a - 0x20000)).isEmpty then blank else timRegs (a - 0x20000))
  else if a < 0x40000 then ringRegs (a - 0x30000)
  else if a < 0x50000 then bootRegs (a - 0x40000)
  else if a < 0x60000 then frostRegs (a - 0x50000)
  else if a < 0x80000 then []
  else if a < 0x90100 then
    let site := (a - 0x80000) / 0x1000
    siteRegs (if site < 16 then tileKind variant site else 3) (if site = 0 then 3 else tileKind variant (site - 1)) (a % 0x1000)
  else if a < 0x1000000 then []
  else if a < 0x2000000 then
    let o := a % 0x100000
    let q := o % 0x40000
    if q < 0x20000 then regionRegs q
    else if q < 0x30000 then clusterRegs ((q - 0x20000) % 0x2000)
    else if o / 0x40000 = 0 then
      (if q < 0x38000 then ctxRegs (q % 0x20) else if q < 0x38020 then hardRegs (q % 0x20) else [])
    else if o / 0x40000 = 1 then
      (if q < 0x31000 then mcRegs (q % 0x40) else if 0x38000 ≤ q ∧ q < 0x3800C then avsRegs (q % 0x10) else [])
    else []
  else []

/-- The value of a register after reset, from its fields. -/
def resetOf (fs : List FieldSpec) : Word32 :=
  fs.foldl (fun w f => w ||| (BitVec.ofNat 32 (f.reset % 2 ^ f.w) <<< f.lo)) 0#32

/-- The bits that a list of fields covers. -/
def maskOf (fs : List FieldSpec) (p : Acc → Bool) : Word32 :=
  fs.foldl (fun w f => if p f.acc then w ||| (BitVec.ofNat 32 (2 ^ f.w - 1) <<< f.lo) else w) 0#32

end Sys2Proof.Machine
end

