-- ==== Sys2Proof/Machine/State.lean ====
section
/-!
DEFINITION. Machine/State.lean: everything the spec gives the package, as plain data. Every architectural register of the
steward map is held in `regs` and `staged`, keyed by its address (Machine/RegTable.lean names the fields); the parts that
are no registers (stores, banks, queues, tables, engines, pins) are the other fields. INVENTORY.md lists them with the
rules that name them.
-/
namespace Sys2Proof.Machine

/-! ### Numbers in stores -/

/-- The SECDED state of one stored word (04_dot_unit.md R104): correctable, or uncorrectable (poison, R246, is stored so).
A word not listed is clean. -/
inductive Ecc
  | correctable | uncorrectable
deriving DecidableEq, Repr

/-- A memory under SECDED: 64-bit words by index, and the words that do not read clean. `fill` names the last BIST that overwrote it
(13_host_control.md R346). -/
structure Store where
  words : SMap Word64 := []
  ecc : SMap (Option Ecc) := []
  fill : Option Nat := none
deriving DecidableEq, Repr

/-- An accumulator bank of a dot unit (04_dot_unit.md R100, R101): 32 rows of `w` bits, the predicted mod-7 residue of each,
the two flags, the crossing tag and the exponent, unset after a clear. -/
structure Bank (w : Nat) where
  rows : List (BitVec w) := List.replicate 32 0
  res : List Nat := List.replicate 32 0
  bad : Bool := false
  late : Bool := false
  tag : BitVec 6 := 0
  exp : Option (BitVec 6) := none
deriving DecidableEq, Repr

/-- A row on the sum bus (05_unit_instructions.md R126). `sender` ranks it (0 to 7 units, 8 and 9 function units, R153);
`due` is its bus cycle; `collided` says that a collision of that cycle has been counted (R129); `pc` is the word that sent it
(09_timetable_contract.md R241). -/
structure BusRow where
  vals : List (BitVec 48) := List.replicate 32 0
  exp : BitVec 6 := 0
  expValid : Bool := false
  bad : Bool := false
  late : Bool := false
  tag : BitVec 6 := 0
  src : Nat := 0
  dest : Nat := 0
  sender : Nat := 0
  due : Nat := 0
  collided : Bool := false
  pc : Nat := 0
deriving DecidableEq, Repr

/-- The all-zero beat that a queue's last value is after a load or a purge (07_links_queues_arbiters.md R171). -/
def zeroBeat : Beat := ⟨0, 0, 0, false, false, false, false⟩

/-! ### Dot units and function units -/

/-- A bank write that has issued and is not yet written (05_unit_instructions.md R114). -/
inductive BankWrite
  /-- MAC or MACZ: the exact sums of the products by row, and the beat's exponent, tag and marks. -/
  | mac (gb : Nat) (clear : Bool) (sums : List Int) (exp tag : BitVec 6) (bad late : Bool)
  /-- GRP: the group bank as read at issue, scale words (s_m, s_e) by row, an uncorrectable scale word, the fraction point. -/
  | grp (mb : Nat) (g : Bank 28) (scales : List (Nat × Nat)) (scaleBad : Bool) (q : Nat)
  | clr (mask : BitVec 16)
  | addin (mb : Nat) (row : BusRow)
deriving DecidableEq, Repr

structure Flight where
  due : Nat
  write : BankWrite
deriving DecidableEq, Repr

/-- What a unit's issue slot waits for (04_dot_unit.md R105, R108, R109; 05 R128, R129, R134; 06 R145, R153). -/
inductive Wait
  | none
  /-- Word 0: waiting for the next anchor. -/
  | sync
  /-- A HOLD that ends at this cycle. -/
  | hold (until_ : Nat)
  /-- A staged ADDIN without a row, from this cycle. -/
  | addin (since : Nat)
  /-- A staged EMIT whose bus cycle is taken, from this cycle. -/
  | emit (since : Nat)
  /-- A word whose write to a HOLD queue lacks credit, from this cycle. -/
  | credit (q : QueueId) (since : Nat)
  /-- A staged function-unit word on an empty source, or on busy output cycles. -/
  | source (since : Nat)
  | output (since : Nat)
deriving DecidableEq, Repr

/-- The playback of a timetable: the index of the word issuing next, its issue cycle, and what it waits for. -/
structure Play where
  pc : Nat := 0
  at_ : Nat := 0
  wait : Wait := .none
deriving DecidableEq, Repr

/-- The beat that left a port last: its cycle, what sent it (the input port of a pass-through, or 4 for a word, 07 R167), the beat and its
epoch (16_observation.md R405), and whether the tile it left for, if any, had room for it. -/
structure OutRec where
  port : Nat
  cycle : Nat
  rank : Nat
  beat : Beat
  epoch : Bool
  took : Bool
deriving DecidableEq, Repr

/-- A dot unit (04_dot_unit.md R94, R95, R98, R100, R111). `schedHeld` holds SCHED as it was before LAG changed, with the
crossing sequence number it holds for (R93); `outLink` is the beat that left each port last; `src` is the source region of each input port (08 R211), none for the unit's own region. -/
structure DotUnit where
  play : Play := {}
  weight : Store := {}
  scale : Store := {}
  zp : Store := {}
  tt : Store := {}
  gb : List (Bank 28) := List.replicate 4 {}
  mb : List (Bank 48) := List.replicate 16 {}
  flight : List Flight := []
  schedHeld : Option (Nat × Nat) := none
  outLink : List OutRec := []
  src : List (Option Nat) := [none, none, none, none]
  scrubPos : Nat := 0
  winHi : Word32 := 0
deriving DecidableEq, Repr

/-- What an operation word has taken from a source: a beat or a sum-bus row. -/
inductive TakenItem
  | beat (b : Beat)
  | row (r : BusRow)
deriving DecidableEq, Repr

/-- An operation word at work in a function unit (06_function_and_steering.md R141, R145): the word, its issue cycle, how many of its takes
are done, the cycles it has waited for its sources, the menu at its issue, what it took from SRC and SRC2, and how many output beats it has
formed. -/
structure FunOp where
  w : Word64
  at_ : Nat
  next : Nat
  slip : Nat
  menu : Nat
  a : List TakenItem
  b : List TakenItem
  formed : Nat
deriving DecidableEq, Repr

/-- A function unit (06 R140, R145, R152, R153): its timetable, the word at work, its sum-bus buffer and the row taken last, the mark
that an unreadable or reserved word left on every later row, and the output-port cycles taken. -/
structure FunUnit where
  play : Play := {}
  op : Option FunOp := none
  tt : Store := {}
  buf : List BusRow := []
  lastRow : BusRow := {}
  poisoned : Bool := false
  outBusy : List Nat := []
  schedHeld : Option (Nat × Nat) := none
  winHi : Word32 := 0
deriving DecidableEq, Repr

/-! ### Queues, links, clusters -/

/-- Who meets a hazard: cluster, AGENT of 09 R241 and the word issuing in it. -/
structure Who where
  k : Nat
  agent : Nat
  pc : Nat
deriving DecidableEq, Repr

/-- A queue of the array (07_links_queues_arbiters.md R170 to R176). `taken` is how many of its writer's credits are out, `returning` the
cycles at which credits on their way back reach it, `wrote` the cycle of a write whose count MAX_OCC has not taken yet, `head` the place of the head beat in a queue-bank queue's part of the bank (16 R406), `readCycle` one more than the cycle of the last read and `gotCycle` of the last
read that found a beat (R178), `blocked` a logic port's write that waits for credit, with the cycle it waits from, `waitSince` the cycle since which
its writer waits for credit with a beat of another kind: an injection, a deliver context, the waystation or a descriptor (R173), `excess` a write
that found the queue full, with its writer and cycle, until it is known that no read of that cycle made room (R170), `delayed` the beats of a
function unit's word that wait for credit, each with the cycle it was ready in (R173), and `filledAt` and `creditAt` the cycles at which the queue was
last filled from empty, and its writer last got a credit with none left (08 R199).
Sticky bits and counters are registers. -/
structure Queue where
  beats : List Beat := []
  last : Beat := zeroBeat
  discarding : Bool := false
  pkt : Bool := false
  head : Nat := 0
  taken : Nat := 0
  readCycle : Nat := 0
  gotCycle : Nat := 0
  wrote : Option Nat := none
  returning : List Nat := []
  blocked : Option (Beat × Nat) := none
  waitSince : Option Nat := none
  excess : Option (Beat × Who × Nat) := none
  filledAt : Nat := 0
  creditAt : Nat := 0
  delayed : List (Nat × Beat) := []
deriving DecidableEq, Repr

/-- A beat on a neighbour link (07 R165, R166): where it goes, the cycle it is present from, its sender's epoch, and whether a
queue-bank queue injected it (R177). -/
structure LinkBeat where
  unit : Nat
  port : Nat
  due : Nat
  beat : Beat
  epoch : Bool
  injected : Bool
deriving DecidableEq, Repr

/-- A beat on its way into a queue-bank or steering input queue, with the rank of its writer (07 R178). -/
structure QueueArrival where
  q : QueueId
  due : Nat
  writer : Nat
  beat : Beat
deriving DecidableEq, Repr

/-- A row that a steering unit has begun (06 R155, R156): the input it reads, none for a zero row of UNPACK with `left` beats to go, the
queue it goes to, none when it is discarded, and the marks it leaves with. -/
structure SteerJob where
  inp : Option Nat
  out : Option Nat
  bad : Bool
  late : Bool
  left : Nat
deriving DecidableEq, Repr

/-- A steering unit (06 R155 to R157): the token held, the one loaded last (16 R403), the rows begun, oldest first, the cycle at which each input's head beat reached its
head, SPLIT's row count and tag, PACK and UNPACK's slot and count, a map that waits for the row in progress, the first cycle it can apply its
next beat, and the cycle since which that beat waits for credit, and the queue of the bank that lacks it. -/
structure Steer where
  token : Option Beat := none
  lastToken : Beat := zeroBeat
  jobs : List SteerJob := []
  headAt : List Nat := [0, 0, 0, 0]
  splitCount : Nat := 0
  splitTag : Option (BitVec 6) := none
  slot : Nat := 0
  packed : Nat := 0
  nextMap : Option (Word32 × Word32) := none
  busy : Nat := 0
  waitSince : Option Nat := none
  waitFor : Nat := 0
deriving DecidableEq, Repr

/-- A logic block (08_logic_fabric.md R192 to R195, R205 to R209): its cell words, routing words and flip-flops by cell, the
contended wires, the frame words assembled so far and the frame being applied, whether any frame has been applied since a load, the cycle of
DONE, the byte-port exchange, the boundary port registers (LR0 to LR3, LW0 to LW3), the cycle before which its edges have been played, and one
more than the cycle of each port's last beat. -/
structure Logic where
  cells : Store := {}
  routing : Store := {}
  flops : SMap Bool := []
  contended : List Nat := []
  frameHi : Word32 := 0
  words : List Word64 := []
  applying : Option (List Word64) := none
  framed : Bool := false
  doneAt : Nat := 0
  response : Byte := 0
  done : Bool := false
  portRegs : List Beat := List.replicate 8 zeroBeat
  playedTo : Nat := 0
  portAt : SMap Nat := []
deriving DecidableEq, Repr

structure Cluster where
  bus : List BusRow := []
  arrivals : List QueueArrival := []
  store : Store := {}
  steer : Steer := {}
  logic : Logic := {}
  injected : List (Nat × Nat) := []
deriving DecidableEq, Repr

/-! ### Regions: commit and reconfiguration, cache, streams -/

/-- A line of a region cache (10_staged_mode.md R251 to R254): its line address (package address / 256), its way, 32 words, the words that read
uncorrectable and correctable, the number of pins, when it was used last, and whether it is dropped when it unpins. -/
structure CacheLine where
  addr : Nat
  way : Nat
  words : List Word64
  poison : List Nat
  weak : List Nat
  pins : Nat
  used : Nat
  dropOnUnpin : Bool
deriving DecidableEq, Repr

/-- A fill in progress (10 R252): its line address, the way it takes, and the descriptor whose request at the memory arbiter it is. -/
structure CacheFillReq where
  addr : Nat
  way : Nat
  desc : Nat
deriving DecidableEq, Repr

/-- Where a line request of a descriptor stands: not yet granted, waiting at the cache for an unpinned way since a cycle, or waiting for a fill
(10 R251, R252). -/
inductive ReqStatus
  | new
  | waitPin (since : Nat)
  | waitFill
deriving DecidableEq, Repr

/-- A merged request of a descriptor (10 R258): the line, its first word of the line, and the bytes `lo` to `hi` of the transfer that it brings. -/
structure LineReq where
  line : Nat
  w0 : Nat
  lo : Nat
  hi : Nat
  status : ReqStatus
deriving DecidableEq, Repr

/-- A stream descriptor at work (10 R258, R261, R262, R265): the running and the queued snapshot of its 12 registers, the transfer half at
its start, the bytes requested and those dealt with, the requests still open, the pinned lines with the byte after the last that each brings, the
handle it popped, whether it has written poison, what it waits for, the error that ends it after the request in flight (R262), the bytes written
(R256), and the bytes of its previous arming in this crossing (R268). -/
structure Desc where
  running : Option (List Word32) := none
  queued : Option (List Word32) := none
  half : Nat := 0
  requested : Nat := 0
  written : Nat := 0
  reqs : List LineReq := []
  pins : List (Nat × Nat) := []
  handle : Option (BitVec 16) := none
  poisoned : Bool := false
  waitPop : Bool := false
  waitPush : Bool := false
  stopping : Option Nat := none
  moved : Nat := 0
  armed : Nat := 0
deriving DecidableEq, Repr

/-- An arbiter (07 R180 to R184): waiting requests with the decision they were parked at, the owner, whether its transaction runs, and whether that
transaction's access has been made; without a transaction the grant is parked on the owner. `decisions` counts its own cycles, `grantedAt` is the
one of the last grant. -/
structure Arbiter where
  parked : List (Requester × Nat) := []
  owner : Option Requester := none
  busy : Bool := false
  served : Bool := false
  grantedAt : Nat := 0
  emergency : Bool := false
  decisions : Nat := 0
  squallSkip : Bool := false
deriving DecidableEq, Repr

/-- What belongs to a region (10 R252, R258, R265, 08 R198, R211): its reconfiguration, its cache arbiter, lines and fills with a use count, its
descriptors and handle queues, its barrier leaf, its scrub position and immediate passes, a staged detector setting, the descriptor and line of a
read that has missed under the present grant, and the cycles to which its clock trees stay low. -/
structure Region where
  toggledAt : Option Nat := none
  releaseAt : Option Nat := none
  requestAt : Option Nat := none
  arb : Arbiter := {}
  lines : List CacheLine := []
  fills : List CacheFillReq := []
  useCount : Nat := 0
  descs : SMap Desc := []
  hqs : SMap (List (BitVec 16)) := []
  arrived : Bool := false
  scrubPos : Nat := 0
  nowUnits : List Nat := []
  nowRegion : Bool := false
  hazNext : Option Bool := none
  missed : Option (Nat × Nat) := none
  treeHold : SMap Nat := []
deriving DecidableEq, Repr

/-! ### Timing, run, waystation, verdicts -/

/-- The codes of the pending table (02_crossing_time.md R39, R42; EPOCH by 12 R317). -/
inductive PendCode
  | runStop | runStart | menuSelect | testPulse | frost | epoch
deriving DecidableEq, Repr

/-- An entry of the pending table: the crossing it names (by the model's sequence number `xseq`), its argument, whether the host sent it (16 R398), and the ring
pair of a DISARM that entered it (13 R346). -/
structure PendCmd where
  code : PendCode
  x : Nat
  a3 : Nat
  host : Bool
  disarm : Option Nat
deriving DecidableEq, Repr

/-- Why a run is to stop at the next crossing start (02 R52). -/
inductive ForcedStop
  | relockFail | holdoverExpired
deriving DecidableEq, Repr

/-- The run (02 R43, R44, R106; 14 R375). Crossings are named by the model's own sequence number `xseq`. `stop` is p once
RUN_STOP has taken effect; `restart` says that the RUN_STOP just taken was half of a restart;
`starts` holds the first crossings of the runs of a chain of restarts, newest first. -/
structure Run where
  started : Bool := false
  start : Nat := 0
  anchor0 : Nat := 0
  stop : Option Nat := none
  restart : Bool := false
  forced : Option ForcedStop := none
  forcedAt : Nat := 0
  count : Nat := 0
  turn : Word32 := 0
  crossing : Nat := 0
  step0Stop : Option Nat := none
  starts : List Nat := []
deriving DecidableEq, Repr

/-- Array time and the locking sequence beside its registers (02 R37, R41, R46, R50, R51). `now` counts array cycles, `xstart`
is the cycle that opened the current crossing, `xseq` its sequence number; `menus` is the menu in force for the current crossing
and those before it, newest first. -/
structure Clock where
  now : Nat := 0
  xstart : Nat := 0
  xseq : Nat := 0
  menus : List Nat := [0]
  firstTurnStart : Bool := false
  everLocked : Bool := false
  resync : Option Word32 := none
  lane : Nat := 0
  holdStart : Nat := 0
  badCommas : Nat := 0
  goodCommas : Nat := 0
  empty : Bool := false
  tpulse : Bool := false
  tcode : Byte := 0
  stopped : Bool := false
deriving DecidableEq, Repr

/-- A frame present in a waystation lane (02 R54). -/
structure HeldFrame where
  xseq : Nat
  num : Nat
  beats : List Beat
  arrival : Nat
deriving DecidableEq, Repr

/-- A frame that is being released, one beat in each cycle from `start` on (02 R55). -/
structure Leaving where
  start : Nat
  frame : HeldFrame
deriving DecidableEq, Repr

/-- What R57 and R58 made of a frame that has begun to arrive. -/
inductive FrameClass
  | accept (xseq : Nat) | late | misnumbered | overrun | ignored
deriving DecidableEq, Repr

structure Incoming where
  num : Nat
  seq : Nat
  bytesM1 : Nat
  cls : FrameClass
deriving DecidableEq, Repr

/-- A waystation lane (02 R54 to R58) and its arrival measurement (11 R291). `next` is the next crossing the lane releases. -/
structure WayLane where
  held : List HeldFrame := []
  leaving : Option Leaving := none
  incoming : Option Incoming := none
  next : Nat := 0
  lastSeq : Option Nat := none
  measuring : Bool := false
  measured : Nat := 0
  aMin : Nat := 0
  aMax : Nat := 0
deriving DecidableEq, Repr

/-- A contribution (06 R158): bits and their mask, CID, tag and marks, the feature record if it carries one, and the cycle it
reaches its assembler. -/
structure Contribution where
  va : Nat
  bits : Word32
  mask : Word32
  cid : Nat
  tag : BitVec 6
  bad : Bool
  late : Bool
  feature : Option Beat
  due : Nat
deriving DecidableEq, Repr

/-- A record of an assembler (06 R159). -/
structure VaRecord where
  bits : Word32 := 0
  badMask : Word32 := 0
  lateMask : Word32 := 0
  cids : Word64 := 0
  dup : Bool := false
  features : List (Nat × Beat) := []
deriving DecidableEq, Repr

/-- A verdict formed and not yet sent (06 R160, 11 R285): the crossing, what the fallback turn needs to form it again, and the
feature records. -/
structure Verdict where
  xseq : Nat
  num : Nat
  turn : Word32
  rawBits : Word32
  mb : Word32
  ml : Word32
  menu : Nat
  features : List (Nat × Beat)
deriving DecidableEq, Repr

structure Assembler where
  records : SMap VaRecord := []
  closed : List Verdict := []
  nextClose : Nat := 0
deriving DecidableEq, Repr

/-! ### The image -/

/-- A placed channel (09 R230): the region of each template region, and the mirrors. -/
structure Placement where
  regions : List Nat
  mirrorX : Bool
  mirrorY : Bool
deriving DecidableEq, Repr

/-- A step of the stage sequence (10 R269). -/
structure StageStep where
  armMask : Word64
  swap : Bool
  cacheInv : Bool
  system : Bool
  last : Bool
  rpt : Nat
deriving DecidableEq, Repr

/-- A placement of a layer (13 R345). -/
structure LayerPlace where
  tregion : Nat
  cluster : Nat
  unit : Nat
  menu : Nat
  o0 : Nat
  i0 : Nat
  ni : Nat
  row : Nat
  set : Nat
  zp : Nat
deriving DecidableEq, Repr

structure LayerPin where
  o : Nat
  group : Nat
  scale : BitVec 16
  zp : Int
deriving DecidableEq, Repr

/-- A layer of the Layers section (13 R345); `zeroGiven` says that the image supplies zero points for it (03 R70). -/
structure Layer where
  format : Nat
  g : Nat
  out : Nat
  inp : Nat
  places : List LayerPlace
  pins : List LayerPin
  zeroGiven : Bool
deriving DecidableEq, Repr

/-- A lane-map entry of a placed channel (09 R233): lane n, cluster index k and queue. -/
structure LaneBind where
  lane : Nat
  cluster : Nat
  queue : Nat
deriving DecidableEq, Repr

/-- A slot of a calendar (12 R302, R322). -/
structure CalSlot where
  slot : Nat
  link : Nat
  beat : Nat
  stream : Nat
deriving DecidableEq, Repr

structure Calendar where
  site : Nat
  lead : Nat
  opens : Nat
  slots : Nat
  entries : List CalSlot
deriving DecidableEq, Repr

/-- What the package keeps of the image it holds (01 R28, 09 R224, R235). `e` is E fixed at load (02 R63). -/
structure Image where
  locked : Bool
  cap : Word32
  n : Nat
  k : Nat
  l : Nat
  w : Nat
  f : Nat
  d : Nat
  e : Nat
  regions : Nat
  channels : Nat
  menus : BitVec 16
  placements : List Placement
  lanes : List LaneBind
  layers : List Layer
  steps : List StageStep
  descInit : List (Nat × Nat × List Word32)
  calendars : List Calendar
  contexts : List Nat
  digest : List Byte
deriving DecidableEq, Repr

/-- The stage sequence at work (10 R268 to R270): the step open, its runs left, the crossing's cycle of the last release and of the
first arrival, and the swap half is a register. `sysWait` says that a SYSTEM step waits for the timekeeper;
`menu` is the menu that the next opening of step 0 takes (13 R343), `inForce` the one that SELECT_MENU set last (04 R108). -/
structure Stage where
  running : Bool := false
  step : Nat := 0
  left : Nat := 0
  releasedAt : Nat := 0
  firstArrival : Option Nat := none
  lastArrival : Option Nat := none
  sysWait : Bool := false
  barrierSeq : Nat := 0
  menu : Option Nat := none
  inForce : Nat := 0
deriving DecidableEq, Repr

/-! ### Optical lanes and the Elvaro fabric -/

/-- A lane of an optical tile beside its registers (11 R279, R289, R290, R293 to R295): failed attempts, low margins in a row, lock lost while locked,
LOW_MARGIN or LOS set in this run, left DARK by a re-striping, on a lead lane the lanes that a re-striped group without the fabric goes on with, the
last 58 bits that the scrambler of a transmit lane has sent, and the egress queue of a BEAT lane with the beats that the frame open on it has sent. -/
structure LaneSt where
  attempts : Nat := 0
  low : Nat := 0
  lost : Bool := false
  hurt : Bool := false
  dropped : Bool := false
  stripe : Option (List Nat) := none
  scrambler : BitVec 58 := 0
  egress : List Beat := []
  inRow : Option (List Beat) := none
deriving DecidableEq, Repr

/-- A loose flit held or sent: what it carries, by kind (12 R299). -/
inductive FlitBody
  | beat (b : Beat)
  | write (addr : BitVec 48) (bytes : List Byte)
  | read (addr : BitVec 48) (bytesM1 : BitVec 12) (tag : Byte)
  | data (tag : Byte) (offset : BitVec 12) (err : Bool) (bytes : List Byte)
  | notice (payload : BitVec 256)
  | credit (n : BitVec 16)
  | link (ackSeq : BitVec 8) (nak : Bool)
  | sys (fields : BitVec 256)
  | null
deriving DecidableEq, Repr

structure Flit where
  locked : Bool
  stream : BitVec 14
  first : Bool
  last : Bool
  epoch : Bool
  body : FlitBody
deriving DecidableEq, Repr

/-- The retry state of one lane (12 R308): the next SEQ it sends, its unacknowledged flits with their SEQ and resends, the SEQ it
expects, the flits accepted since its last acknowledgement, whether it has a NAK outstanding and one past the last SEQ seen since, its
codewords mod 256; on a group's lead lane also the new flits that wait, in order, and the group's next position (R301). -/
structure Retry where
  nextSeq : BitVec 8 := 0
  unacked : List (BitVec 8 × Nat × Flit) := []
  expect : BitVec 8 := 0
  sinceAck : Nat := 0
  nak : Bool := false
  seen : BitVec 8 := 0
  codewords : BitVec 8 := 0
  waiting : List Flit := []
  pos : Nat := 0
  rested : Bool := true
  filling : List (BitVec 320) := []
  long : Bool := false
  sent : List (List (BitVec 10)) := []
deriving DecidableEq, Repr

/-- A place in the position order of a group's loose flits that are not passed on yet: its lane and SEQ, and the flit once it is accepted, with
whether a field of it is reserved (12 R308). -/
structure HeldFlit where
  lane : Nat
  seq : BitVec 8
  got : Option (Bool × Flit)
deriving DecidableEq, Repr

/-- A READ of host memory by a ring path (13 R328): its TAG, its pair, the index of the descriptor it reads for (none for the fetch of one) and whether
in the second read of a load, the first of its bytes in what it reads, how many it asks for, how many DATA has brought, and whether the flit has
left. -/
structure HostRead where
  tag : Byte
  pair : Nat
  cmd : Option Nat
  second : Bool
  base : Nat
  len : Nat
  got : Nat := 0
  sent : Bool := false
deriving DecidableEq, Repr

/-- A fabric context (12 R304 to R309): buffered flits, replies to send, the group its flits come by, credits due, and for a locked one the
crossings held, the set arriving and the arrival measurement since a crossing; of an access context the next TAG, the READs not answered in full
(13 R328), and the words of the flit at its head that a memory port has moved (07 R180). -/
structure CtxSt where
  buf : List Flit := []
  outq : List Flit := []
  via : Option (Nat × Nat) := none
  since : Nat := 0
  due : Nat := 0
  held : List HeldFrame := []
  leaving : Option Leaving := none
  arriving : List Beat := []
  arrivingTag : BitVec 6 := 0
  arrivingClass : Option FrameClass := none
  next : Nat := 0
  uncorrSeen : Bool := false
  measuring : Bool := false
  measured : Nat := 0
  aMin : Nat := 0
  aMax : Nat := 0
  nextTag : Byte := 0
  reads : List HostRead := []
  words : List (Word64 × Bool) := []
deriving DecidableEq, Repr

/-- A multicast group's queue, its members' credits, whether its head waits, the copies (member, flit) that wait for the egress arbiter, and which
detached members have since seen a LAST pass (12 R311, 07 R179). -/
structure McSt where
  queue : List Flit := []
  credits : List Nat := List.replicate 8 0
  waiting : Bool := false
  outq : List (Nat × Flit) := []
  lastPassed : List Bool := List.replicate 8 false
deriving DecidableEq, Repr

/-- A light tile's edge link (12 R302, R310): transmit buffer, loose beats waiting, and credit. -/
structure TxLink where
  buffer : List Beat := []
  loose : List Beat := []
  credit : Nat := 0
deriving DecidableEq, Repr

/-- The timekeeper's own counters (12 R316 to R319). -/
structure SysSt where
  annSeq : BitVec 16 := 0
  cmdSeq : BitVec 16 := 0
  arrivals : List (BitVec 16 × List Nat) := []
  lastEpoch : Option Nat := none
  heardClaim : Bool := false
deriving DecidableEq, Repr

/-! ### Host side -/

/-- What a ring command waits for, or what it ended with (13 R334 to R346). -/
inductive CmdPhase
  /-- The source of LOAD_IMAGE, VERIFY_IMAGE or QUANTISE is read by steps (R335, R342): what the host has answered and is not taken yet, what it
  answers in a second read, what the first read gave, what this one has given, and the words of it that were poisoned. -/
  | reading (given later prior got : List Byte) (bad : List Nat)
  /-- A move goes on by steps (R335): bytes moved, what the host has answered and is not taken yet, words held from the source, and the first poisoned
  one's offset. -/
  | moving (moved : Nat) (given : List Byte) (held : List (Word64 × Bool)) (bad : Option Nat)
  /-- A BIST goes on by steps: what it finds, and the parts still to be tested, as (kind of store, number). -/
  | testing (found : BistResult) (left : List (Nat × Nat))
  | waitLock (poisoned : Bool)
  | waitStop
  | waitTrain (site : Nat) (tx : Bool) (mask : Word64)
  | waitBarriers (system : Bool) (left : Nat) (count : Nat) (longest : Nat)
  | done (status : Nat) (result : Word64)
deriving DecidableEq, Repr

structure RingCmd where
  index : Nat
  bytes : List Byte
  phase : CmdPhase
deriving DecidableEq, Repr

/-- A completion written to host memory: its address, its bytes, and whether it has been written once more (13 R337). -/
structure Written where
  addr : Nat
  bytes : List Byte
  again : Bool := false
deriving DecidableEq, Repr

/-- A ring pair beside its registers (13 R332 to R335, R337): descriptors read ahead with their index, the command at work, and the last completion
written. -/
structure Ring where
  ahead : List (Nat × List Byte) := []
  cur : Option RingCmd := none
  compl : Option Written := none
deriving DecidableEq, Repr

/-- A spy queue (13 R347 to R351): whole records, oldest first, and the rest of one in progress. -/
structure Spy where
  records : List (List Word64) := []
  rest : List Word64 := []
deriving DecidableEq, Repr

/-! ### Boot, trust, management -/

/-- A word of a die's user fuse area (08_logic_fabric.md R202). -/
structure FuseWord where
  programmed : Bool := false
  value : Word64 := 0
  ecc : Option Ecc := none
deriving DecidableEq, Repr

/-- The fuses (14 R371, 00 R7, 15 R397): set at manufacture, kept through every reset. `user` is keyed by 1,024 × die + word. -/
structure Fuses where
  variant : Nat := 0
  grade13 : Bool := false
  vendorHash : List Byte := List.replicate 32 0
  ownerSet : Bool := false
  ownerHash : List Byte := List.replicate 32 0
  serial : Word64 := 0
  idKey : List Byte := (List.range 64).map (fun i =>
    BitVec.ofNat 8 (0x6B17D1F2E12C4247F8BCE6E563A440F277037D812DEB33A0F4A13945D898C2964FE342E2FE1A7F9B8EE7EB4A7C0F9E162BCE33576B315ECECBB6406837BF51F5 / 2 ^ (8 * (63 - i))))
  idPrivate : Nat := 1
  vmin : Nat := 650
  vmax : Nat := 900
  vdefault : Nat := 750
  bankBad : Bool := false
  user : SMap FuseWord := []
deriving DecidableEq, Repr

/-- The manifest in use and the digests that ATTEST reports (14 R375, R376). -/
structure Trust where
  manifestDigest : List Byte := List.replicate 32 0
  firmwareDigest : List Byte := List.replicate 32 0
  quantDigest : List Byte := List.replicate 32 0
  quantCount : Nat := 0
  ownerNew : Option (List Byte) := none
deriving DecidableEq, Repr

/-- Adaptive voltage of a die (15 R388, R389): consecutive readings above 40 ps, below 20 ps at the ceiling, and at 20 ps or more in
the limit condition, and whether a step settles. -/
structure Avs where
  high : Nat := 0
  lowAtMax : Nat := 0
  good : Nat := 0
  settling : Bool := false
deriving DecidableEq, Repr

/-- Thermal and supply management beside its registers (15 R390 to R393, 17 R417, R418); `maxFresh` says that MAX has been read and
takes the next reading outright (00 R9). -/
structure Thermal where
  below : Nat := 0
  second : List Nat := []
  latest : List Int := List.replicate 64 0
  stopNow : Bool := false
  fallbackNext : Bool := false
  fallback : Bool := false
  tripConfirmed : Bool := false
  stopped : Bool := false
  coresOff : Bool := false
  die0Off : Bool := false
  maxFresh : Bool := true
  underLimit : Nat := 0
  squallTenths : Nat := 0
deriving DecidableEq, Repr

/-- What a GPIO pin carries (08 R203): nothing, high-impedance with the weak pull-down; a level that a user signal drives; a die's UART pin (RX where
`role`) or its open-drain I2C pin (SDA where `role`). -/
inductive Pad where
  | highZ
  | level (v : Bool)
  | uart (die : Nat) (role : Bool)
  | openDrain (die : Nat) (role : Bool)
deriving DecidableEq, Repr

/-- The pins and supplies of the package (17 R420 to R430). -/
structure Pins where
  porst : Bool := false
  vin : Bool := false
  refclk : Bool := false
  straps : BitVec 4 := 0
  thermtripLow : Bool := false
  alert : Bool := false
  gpioAt : SMap Nat := []
deriving DecidableEq, Repr

/-- The TAP (16 R408): instruction, data register, shadow offset, boundary cells. -/
structure Tap where
  ir : BitVec 8 := 0x02
  dr : BitVec 102 := 0x1A7165B7
  offset : Word32 := 0
  boundary : BitVec 102 := 0
deriving DecidableEq, Repr

/-- A frost capture (16 R399, R403): copies of the covered state and of what its layout is read by, and where it was taken; `free` is the
counter of the free values that stand for the words whose layout the spec leaves to the device model (R406). -/
structure Snapshot where
  units : SMap DotUnit
  funs : SMap FunUnit
  clusters : SMap Cluster
  portQ : SMap Queue
  bankQ : SMap Queue
  steerQ : SMap Queue
  way : SMap WayLane
  ctx : SMap CtxSt
  vas : SMap Assembler
  regs : SMap Word32
  baseSwap : Bool
  clock : Clock
  stage : Stage
  image : Option Image
  free : Nat
deriving DecidableEq, Repr

/-- What the registers of a moment are read from: the steward port's shadow of the registers that are not live (13 R355). -/
structure RegView where
  regs : SMap Word32
  staged : SMap (Option Word32)
  baseSwap : Bool
  clock : Clock
  units : SMap DotUnit
  funs : SMap FunUnit
  clusters : SMap Cluster
  portQ : SMap Queue
  bankQ : SMap Queue
  steerQ : SMap Queue
  links : List LinkBeat
  regions : SMap Region
  image : Option Image
  ctxs : SMap CtxSt
  mcs : SMap McSt
  txLinks : SMap TxLink
  run : Run
  contribs : List Contribution
  memArb : SMap Arbiter
  stage : Stage
  lanes : SMap LaneSt
  fuses : Fuses
  fusePend : SMap (Option (Nat × Word64))
  pins : Pins
  freeNext : Nat
deriving DecidableEq, Repr

/-- What the package sends out: the model's own record, newest first. -/
inductive Out
  /-- A verdict frame (11 R285, R286): assembler, verdict word, feature records (CID, beat), and, for each group that carries it, its site, its
  lead lane and its slots, each with what every lane of the group that is UP sends. -/
  | verdict (va : Nat) (word : Word64) (features : List (Nat × Beat)) (groups : List (Nat × Nat × List (List (Option Line))))
  /-- A beat-egress frame, or the next part of one (11 R289). -/
  | beats (site lane : Nat) (lines : List Line)
  /-- Blocks of a frame as a lane sends them (11 R279): sync header in [1:0], the scrambled payload above. -/
  | coded (site lane : Nat) (blocks : List (BitVec 66))
  /-- A flit on a lane, in its group's position `pos`, with its SEQ (12 R297, R301); positions that no record names carry NULL. -/
  | flit (site lane pos : Nat) (seq : BitVec 8) (f : Flit)
  /-- Data on the steward port. -/
  | steward (words : List Word32)
  /-- A reply of the SMBus target: its address, the bytes, and the packet error code behind them where the controller uses one (17 R428). -/
  | smbus (addr : BitVec 7) (bytes : List Byte) (pec : Byte)
  /-- Bytes of a command on the boot port: opcode, extension, address, data (14 R362). -/
  | bootPort (bytes : List Byte)
  /-- What the boundary cells drive on the pins under EXTEST (16 R409). -/
  | cells (v : BitVec 102)
  /-- Data on TDO. -/
  | tdo (width : Nat) (bits : BitVec 102)
  /-- A byte-port command on a die's UART or I2C pins (08 R202): 0 start, 1 write, 2 read, 3 stop. -/
  | bytePort (die : Nat) (i2c : Bool) (op : Nat) (b : Byte)
  /-- What a GPIO pin carries from now on (08 R203, R208). -/
  | pad (pin : Nat) (v : Pad)
  /-- A register value read over the fabric or inside the package. -/
  | read (addr : Nat) (v : Word32)
deriving DecidableEq, Repr

/-- The reasons a command can stop with a fault. -/
inductive Fault
  /-- Raised by no command: one that names a lane, tile or site that the package's order code does not have (00_scope.md R3, 11 R278) does
  nothing (notes/assumptions/63.md). Safe: nothing stops. -/
  | absent
deriving DecidableEq, Repr

/-- The reasons a command can be refused. -/
inductive Refusal
  /-- The command has no meaning in the model yet. Safe: nothing can be proved of it. -/
  | notModelled (mnemonic : String)
deriving DecidableEq, Repr

/-- The package. -/
structure State where
  /-- Registers by steward address, where they differ from their reset value; staged values by address. -/
  regs : SMap Word32 := []
  staged : SMap (Option Word32) := []
  /-- SWAP has inverted bit 8 of every menu base an odd number of times since a load (10 R263). -/
  baseSwap : Bool := false
  clock : Clock := {}
  run : Run := {}
  pendTable : List PendCmd := []
  way : SMap WayLane := []
  units : SMap DotUnit := []
  funs : SMap FunUnit := []
  clusters : SMap Cluster := []
  portQ : SMap Queue := []
  bankQ : SMap Queue := []
  steerQ : SMap Queue := []
  links : List LinkBeat := []
  contribs : List Contribution := []
  vas : SMap Assembler := []
  regions : SMap Region := []
  memTiles : SMap Store := []
  memHeld : SMap (List Nat) := []
  memArb : SMap Arbiter := []
  egressArb : SMap Arbiter := []
  stage : Stage := {}
  image : Option Image := none
  lanes : SMap LaneSt := []
  retries : SMap Retry := []
  ctxs : SMap CtxSt := []
  mcs : SMap McSt := []
  txLinks : SMap TxLink := []
  heldFlits : SMap (List HeldFlit) := []
  /-- One more than the crossing whose window each group sent last (12 R302). -/
  windows : SMap Nat := []
  sys : SysSt := {}
  rings : SMap Ring := []
  posted : List (Nat × Word32) := []
  shadow : Option RegView := none
  indirect : Option Bool := none
  spies : SMap Spy := []
  fuses : Fuses := {}
  flash : SMap Byte := []
  /-- Commands that the flash will not answer, given before the boot that sends them (14 R362; notes/assumptions/41.md). -/
  flashDead : Nat := 0
  trust : Trust := {}
  avs : SMap Avs := []
  thermal : Thermal := {}
  pins : Pins := {}
  tap : Tap := {}
  frost : Option Snapshot := none
  hazardsHeld : SMap Bool := []
  byteCmds : SMap (Option (Nat × Nat × Byte)) := []
  fencePend : List (Nat × Bool) := []
  fusePend : SMap (Option (Nat × Word64)) := []
  /-- The crossing and the cycle that a register trigger names (16 R398). -/
  frostArmed : Option (Nat × Nat) := none
  /-- The high words that a read of a low register latches, by the low register's address (02 R65, 06 R164, 08 R218). -/
  latchHi : SMap Word32 := []
  /-- The flash command in progress: OP, address, bytes − 1, and the bytes to program (14 R373). -/
  flashCmd : Option (Nat × Nat × Nat × List Byte) := none
  freeNext : Nat := 0
  out : List Out := []
  pending : List Instr := []
deriving DecidableEq, Repr

/-- The package before PORST_N rises: every register at its reset value, every store, queue and table empty, PORST_N low
(17_package_power.md R419, R421). The fuses are those of a TW16-T-12 (notes/assumptions/5.md). -/
def State.reset : State := {}

end Sys2Proof.Machine
end

