-- ==== Sys2Proof/Machine/Ops.lean ====
section
/-!
DEFINITION. Machine/Ops.lean: the named operations over the state: sparse maps, register fields, free values, sent
records, array time and crossings. Everything else of the model reads and writes the state through these.
-/
namespace Sys2Proof.Machine

/-- The outcome of a command. -/
abbrev Res := Host.Outcome State Fault Refusal

/-! ### Sparse maps -/

/-- What a sparse map reads at a key; `d` is what an unlisted key reads as. -/
def mget {α : Type} (d : α) (m : SMap α) (k : Nat) : α :=
  match m with
  | [] => d
  | e :: r => if e.1 = k then e.2 else mget d r k

/-- The map without a key. -/
def merase {α : Type} (m : SMap α) (k : Nat) : SMap α := m.filter (fun e => e.1 != k)

/-- A key put at its place. -/
def minsert {α : Type} (m : SMap α) (k : Nat) (v : α) : SMap α :=
  match m with
  | [] => [(k, v)]
  | e :: r => if k < e.1 then (k, v) :: e :: r else e :: minsert r k v

/-- A write into a sparse map. Writing what an unlisted key reads as removes the entry. -/
def mset {α : Type} [DecidableEq α] (d : α) (m : SMap α) (k : Nat) (v : α) : SMap α :=
  if v = d then merase m k else minsert (merase m k) k v

/-- Every value of a map changed by `f`, in canonical form. -/
def mmap {α : Type} [DecidableEq α] (d : α) (f : α → α) (m : SMap α) : SMap α :=
  (m.map (fun e => (e.1, f e.2))).filter (fun e => decide (e.2 ≠ d))

/-- The canonical form: keys strictly rising, and no entry equal to what an unlisted key reads as. -/
def mwf {α : Type} [DecidableEq α] (d : α) : SMap α → Bool
  | [] => true
  | [e] => decide (e.2 ≠ d)
  | e :: f :: r => decide (e.2 ≠ d) && decide (e.1 < f.1) && mwf d (f :: r)

/-! ### Small arithmetic -/

/-- Bits `lo` to `lo + w − 1` of a number. -/
def bits (v lo w : Nat) : Nat := v / 2 ^ lo % 2 ^ w

/-- The two's-complement value of the low `w` bits. -/
def sext (w v : Nat) : Int :=
  let u := v % 2 ^ w
  if u < 2 ^ (w - 1) then (u : Int) else (u : Int) - (2 ^ w : Nat)

/-- The low `w` bits of an integer, as a number. -/
def low (w : Nat) (i : Int) : Nat := (i % (2 ^ w : Nat)).toNat

/-- A Bool as a bit. -/
def bit (b : Bool) : Nat := if b then 1 else 0

/-- A little-endian number from bytes. -/
def leNat : List Byte → Nat
  | [] => 0
  | b :: r => b.toNat + 256 * leNat r

/-- The low `n` bytes of a number, least significant first. -/
def leBytes : Nat → Nat → List Byte
  | 0, _ => []
  | n + 1, v => BitVec.ofNat 8 v :: leBytes n (v / 256)

/-- The elements of a list from index `i`, `n` of them. -/
def slice {α : Type} (l : List α) (i n : Nat) : List α := (l.drop i).take n

/-- A list with the element at `i` changed by `f`. -/
def modAt {α : Type} (l : List α) (i : Nat) (f : α → α) : List α :=
  match l, i with
  | [], _ => []
  | a :: r, 0 => f a :: r
  | a :: r, i + 1 => a :: modAt r i f

/-! ### Register fields -/

/-- A field of a register: address, low bit, width. -/
structure Fld where
  addr : Nat
  lo : Nat
  w : Nat
deriving DecidableEq, Repr

/-- The reset value of the power limit by order code and grade (17_package_power.md R415). -/
def powerLimitReset (variant : Nat) (grade13 : Bool) : Nat :=
  match variant, grade13 with
  | 0, false => 1080
  | 0, true => 1170
  | 1, false => 1110
  | 1, true => 1200
  | _, false => 1050
  | _, true => 1140

/-- What a register reads before anything has written it: PWR_AVS.MV is a factory trim (15_faults_and_self_management.md R397). -/
def regReset (s : State) (a : Nat) : Word32 :=
  if a = 0x1010C then BitVec.ofNat 32 (powerLimitReset s.fuses.variant s.fuses.grade13)
  else if 0x1000000 ≤ a ∧ a < 0x2000000 ∧ a % 0x100000 = 0x78000 then BitVec.ofNat 32 s.fuses.vdefault
  else resetOf (regSpec s.fuses.variant a)

/-- The bits of a register that SWAP inverts: bit 8 of each menu base of a dot unit (10_staged_mode.md R263). -/
def swapMask (a : Nat) : Word32 :=
  if 0x1000000 ≤ a ∧ a < 0x2000000 ∧ 0x20000 ≤ a % 0x40000 ∧ a % 0x40000 < 0x30000 ∧ a % 0x2000 < 0x800 ∧ 0x20 ≤ a % 0x100 ∧ a % 0x100 < 0x40
  then 0x01000100 else 0

/-- What SWAP has done to a register. -/
def State.swapped (s : State) (a : Nat) (v : Word32) : Word32 := if s.baseSwap then v ^^^ swapMask a else v

/-- The register as it reads. -/
def State.raw (s : State) (a : Nat) : Word32 := s.swapped a (mget (regReset s a) s.regs a)

def State.setRaw (s : State) (a : Nat) (v : Word32) : State := { s with regs := mset (regReset s a) s.regs a (s.swapped a v) }

/-- A register word with a field replaced. -/
def putField (r : Word32) (lo w v : Nat) : Word32 :=
  (r &&& ~~~(BitVec.ofNat 32 (2 ^ w - 1) <<< lo)) ||| (BitVec.ofNat 32 (v % 2 ^ w) <<< lo)

/-- The value of a field. -/
def State.fld (s : State) (f : Fld) : Nat := bits (s.raw f.addr).toNat f.lo f.w

/-- The state with a field set. -/
def State.setFld (s : State) (f : Fld) (v : Nat) : State := s.setRaw f.addr (putField (s.raw f.addr) f.lo f.w v)

/-- The state with a saturating counter raised by `n` (02 R65, 04 R110: fields saturate). -/
def State.bump (s : State) (f : Fld) (n : Nat := 1) : State := s.setFld f (min (2 ^ f.w - 1) (s.fld f + n))

/-- The state with a sticky bit set. -/
def State.mark (s : State) (f : Fld) : State := s.setFld f 1

/-- Whether a one-bit field is 1. -/
def State.is (s : State) (f : Fld) : Bool := s.fld f == 1

/-- A field that keeps the greatest value seen. -/
def State.raise (s : State) (f : Fld) (v : Nat) : State := if s.fld f < v then s.setFld f v else s

/-- A field that keeps the least value seen. -/
def State.lower (s : State) (f : Fld) (v : Nat) : State := if v < s.fld f then s.setFld f v else s

/-- The high word that the next read of a low register latches. -/
def State.latch (s : State) (a : Nat) (v : Word32) : State := { s with latchHi := mset 0 s.latchHi a v }

/-! ### Free values and what is sent -/

/-- The counter moves past the free value drawn (notes/assumptions/3.md). -/
def State.drawn (s : State) : State := { s with freeNext := s.freeNext + 1 }

/-- The package sends something. -/
def State.send (s : State) (o : Out) : State := { s with out := o :: s.out }

/-! ### Parts of the state by index -/

def State.unit (s : State) (g : Nat) : DotUnit := mget {} s.units g
def State.setUnit (s : State) (g : Nat) (u : DotUnit) : State := { s with units := mset {} s.units g u }
def State.fun_ (s : State) (f : Nat) : FunUnit := mget {} s.funs f
def State.setFun (s : State) (f : Nat) (u : FunUnit) : State := { s with funs := mset {} s.funs f u }
def State.cluster (s : State) (k : Nat) : Cluster := mget {} s.clusters k
def State.setCluster (s : State) (k : Nat) (c : Cluster) : State := { s with clusters := mset {} s.clusters k c }
def State.region (s : State) (r : Nat) : Region := mget {} s.regions r
def State.setRegion (s : State) (r : Nat) (v : Region) : State := { s with regions := mset {} s.regions r v }
def State.wayLane (s : State) (n : Nat) : WayLane := mget {} s.way n
def State.setWay (s : State) (n : Nat) (v : WayLane) : State := { s with way := mset {} s.way n v }
def State.va (s : State) (v : Nat) : Assembler := mget {} s.vas v
def State.setVa (s : State) (v : Nat) (a : Assembler) : State := { s with vas := mset {} s.vas v a }
def State.ctx (s : State) (x : Nat) : CtxSt := mget {} s.ctxs x
def State.setCtx (s : State) (x : Nat) (c : CtxSt) : State := { s with ctxs := mset {} s.ctxs x c }

/-- The queues: port queues by 4 × unit + port, queue-bank queues by 16 × cluster + queue, steering input queues by
4 × cluster + input. -/
def portNat : Port → Nat
  | .north => 0 | .east => 1 | .south => 2 | .west => 3

def portOf (n : Nat) : Port :=
  match n % 4 with
  | 0 => .north | 1 => .east | 2 => .south | _ => .west

def State.queue (s : State) : QueueId → Queue
  | .port u p => mget {} s.portQ (4 * u.val + portNat p)
  | .bank k q => mget {} s.bankQ (16 * k.val + q.val)
  | .steer k i => mget {} s.steerQ (4 * k.val + i.val)

def State.setQueue (s : State) (q : QueueId) (v : Queue) : State :=
  match q with
  | .port u p => { s with portQ := mset {} s.portQ (4 * u.val + portNat p) v }
  | .bank k q => { s with bankQ := mset {} s.bankQ (16 * k.val + q.val) v }
  | .steer k i => { s with steerQ := mset {} s.steerQ (4 * k.val + i.val) v }

/-! ### Array time and crossings -/

/-- Array time moves on to the cycle at which a command takes effect; it never moves back (notes/assumptions/1.md). -/
def State.at (s : State) (t : Nat) : State := { s with clock := { s.clock with now := max s.clock.now t } }

def fTimCtrl : Nat := 0x20000
def fState : Fld := ⟨0x20004, 0, 4⟩
def fFreqRange : Fld := ⟨0x20004, 8, 1⟩
def fRatioErr : Fld := ⟨0x20004, 9, 1⟩
def fLoss : Fld := ⟨0x20004, 10, 1⟩
def fRelockFail : Fld := ⟨0x20004, 11, 1⟩
def fHoldExpired : Fld := ⟨0x20004, 12, 1⟩
def fTimIgnored : Fld := ⟨0x20004, 13, 1⟩
def fNActive : Fld := ⟨0x20004, 16, 6⟩
def fLane : Fld := ⟨0x20000, 0, 6⟩
def fEnable : Fld := ⟨0x20000, 6, 1⟩
def fNDefault : Fld := ⟨0x20000, 8, 6⟩
def fWeather : Fld := ⟨0x20000, 16, 8⟩
def fHz : Fld := ⟨0x20008, 0, 32⟩
def fCurrent : Fld := ⟨0x2000C, 0, 12⟩
def fTurnLen : Fld := ⟨0x2000C, 16, 13⟩
def fTurn : Fld := ⟨0x20010, 0, 32⟩
def fRunHi : Fld := ⟨0x20018, 0, 16⟩
def fCommaErr : Fld := ⟨0x2001C, 0, 8⟩
def fNumErr : Fld := ⟨0x2001C, 8, 8⟩
def fCmdErr : Fld := ⟨0x2001C, 16, 8⟩
def fLossCnt : Fld := ⟨0x2001C, 24, 8⟩
def fWinW : Fld := ⟨0x20100, 0, 13⟩
def fWinF : Fld := ⟨0x20100, 16, 4⟩
def fRegime : Fld := ⟨0x8, 0, 2⟩
def fLoading : Fld := ⟨0x8, 2, 1⟩
def fArmed : Fld := ⟨0x8, 3, 1⟩
def fRegionsPer : Fld := ⟨0x8, 8, 7⟩
def fChannels : Fld := ⟨0x8, 16, 7⟩
def fIdle : Fld := ⟨0x8, 24, 7⟩
/-- TRU_RUN_NUM (14 R377). -/
def fRunNum : Fld := ⟨0x40218, 0, 32⟩

/-- The array clock runs: LOCKED or HOLDOVER (02 R47), and the package has not stopped it (15 R392). -/
def State.runs (s : State) : Bool := decide (7 ≤ s.fld fState) && !s.clock.stopped

def State.armed (s : State) : Bool := s.is fArmed

/-- N in use: the image's, else TIM_CTRL.N_DEFAULT (02_crossing_time.md, "Locking the array"). -/
def State.n (s : State) : Nat :=
  match s.image with
  | some im => im.n
  | none => s.fld fNDefault

/-- The first cycle of the crossing with sequence number `q`. -/
def State.openAt (s : State) (q : Nat) : Nat := s.clock.xstart + q * s.n - s.clock.xseq * s.n

/-- The crossing number of the crossing with sequence number `q` (R37). -/
def State.numOf (s : State) (q : Nat) : Nat :=
  let t := s.fld fTurnLen
  (s.fld fCurrent + q + (t - s.clock.xseq % t)) % t

/-- The turn number of the crossing with sequence number `q` (R37). -/
def State.turnOf (s : State) (q : Nat) : Nat :=
  let t : Int := s.fld fTurnLen
  low 32 ((s.fld fTurn * t + s.fld fCurrent + q - s.clock.xseq) / t)

/-- The menu in force for the crossing with sequence number `q` (04 R93): the list is newest first. -/
def State.menuAt (s : State) (q : Nat) : Nat :=
  s.clock.menus.getD (s.clock.xseq - q) (s.clock.menus.getLastD 0)

/-- The crossing belongs to the started run, or to the runs that it restarted (02 R43, R44): the waystation releases it and the assemblers
answer it. -/
def State.inRun (s : State) (q : Nat) : Bool :=
  s.run.started && decide (s.run.anchor0 ≤ q) &&
    (match s.run.stop with
     | some p => decide (q < p)
     | none => true)

/-! ### Status outputs (17_package_power.md R422, R429, R430) -/

def fBootState : Fld := ⟨0x40000, 0, 4⟩
def fThermState : Fld := ⟨0x10000, 0, 2⟩
def fTripped : Fld := ⟨0x10000, 3, 1⟩
def fSupplyStop : Fld := ⟨0x10100, 1, 1⟩
def fThrottle : Fld := ⟨0x10100, 8, 1⟩
def fBrownout : Fld := ⟨0x10100, 6, 1⟩
def fAlertMask : Fld := ⟨0x10110, 8, 8⟩

def fRailsGood : Fld := ⟨0x10100, 0, 1⟩

/-- EXTEST is in the instruction register: the pins have left the core (16 R409). -/
def State.extest (s : State) : Bool := decide (s.tap.ir = 0x00)

/-- Die 0 has its rails and is out of reset (R414, R418, R419). -/
def dieAlive (s : State) : Bool := s.pins.vin && s.is fRailsGood && s.pins.porst && !s.thermal.die0Off

/-- READY (R422): high from DONE until a trip or a supply stop stops the array. -/
def State.ready (s : State) : Bool := decide (s.fld fBootState = 5) && !s.thermal.stopped

/-- In recovery (14 R369). -/
def State.recovery (s : State) : Bool := decide (s.fld fBootState = 6)

/-- The status word of SMBus command 0x01 (R429). -/
def State.statusWord (s : State) : Nat :=
  bit s.ready + 2 * bit s.recovery + 4 * bit (decide (s.fld fThermState = 1)) + 8 * s.fld fTripped + 16 * s.fld fSupplyStop +
    32 * s.fld fThrottle + 64 * s.fld fBrownout + 128 * bit (decide (s.fld fState < 7))

/-- The status word as the target reports it: what comes from the dies reads 0 while they are in reset or off (R429). -/
def State.reported (s : State) : Nat := if dieAlive s then s.statusWord else 2 ^ 4 * bits s.statusWord 4 3

/-- A status bit whose mask bit is 1 and that has risen since `before` latches an alert (R430). -/
def withAlert (before s : State) : State :=
  if (List.range 8).any (fun i => decide (bits (s.fld fAlertMask) i 1 = 1) && decide (bits before.reported i 1 = 0) &&
      decide (bits s.reported i 1 = 1)) then
    { s with pins := { s.pins with alert := true } }
  else s

/-- A locked image is loaded. -/
def State.lockedImage (s : State) : Bool :=
  match s.image with
  | some im => im.locked
  | none => false

/-- A staged image is loaded. -/
def State.stagedImage (s : State) : Bool :=
  match s.image with
  | some im => !im.locked
  | none => false

end Sys2Proof.Machine
end

