-- ==== Sys2Proof/Machine/Geometry.lean ====
section
/-!
DEFINITION. Machine/Geometry.lean: where units, links and tile sites stand (01_six_levels.md R13, R15, R23; 07 R165 to R168).
-/
namespace Sys2Proof.Machine

/-- The column of unit g (R15). -/
def unitX (g : Nat) : Nat := 16 * (g / 256 % 4) + 8 * (g / 64 % 2) + 4 * (g / 8 % 2) + g % 4

/-- The row of unit g (R15). -/
def unitY (g : Nat) : Nat := 16 * (g / 1024) + 8 * (g / 128 % 2) + 2 * (g / 16 % 4) + g / 4 % 2

/-- The unit at (x, y) (R15). -/
def unitAt (x y : Nat) : Nat :=
  256 * (4 * (y / 16) + x / 16) + 64 * (2 * (y % 16 / 8) + x % 16 / 8) + 8 * (2 * (y % 8 / 2) + x % 8 / 4) + (4 * (y % 2) + x % 4)

/-- The neighbour of unit g in the direction of port p, none at the package's edge. -/
def neighbour (g p : Nat) : Option Nat :=
  let x := unitX g
  let y := unitY g
  match p with
  | 0 => if y = 0 then none else some (unitAt x (y - 1))
  | 1 => if x = 63 then none else some (unitAt (x + 1) y)
  | 2 => if y = 63 then none else some (unitAt x (y + 1))
  | _ => if x = 0 then none else some (unitAt (x - 1) y)

/-- The cycles of one link: 1, and 1 more over a region boundary or 6 more over a die boundary (07 R166). -/
def linkCycles (g h : Nat) : Nat := if g / 256 ≠ h / 256 then 7 else if g / 64 ≠ h / 64 then 2 else 1

/-- The tile site on the side of port p of a die on the package's edge (R23). -/
def siteOf (die p : Nat) : Nat :=
  match p with
  | 0 => die
  | 1 => 4 + die / 4
  | 2 => 23 - die
  | _ => 15 - die / 4

/-- The die a site attaches to (R23). -/
def dieOf (site : Nat) : Nat :=
  match site / 4 with
  | 0 => site
  | 1 => 4 * (site - 4) + 3
  | 2 => 23 - site
  | _ => 4 * (15 - site)

/-- The edge link of a unit on the side of port p (11 R289). -/
def edgeLink (g p : Nat) : Nat := if p % 2 = 0 then unitX g % 16 else unitY g % 16

/-- The kind of tile at a site: 0 intake, 1 light, 2 memory (00 R3). -/
def State.tile (s : State) (site : Nat) : Nat := tileKind s.fuses.variant site

/-- The sites of one kind in ascending order (00 R4, 02 R53). -/
def State.sitesOf (s : State) (kind : Nat) : List Nat := (List.range 16).filter (fun i => s.tile i == kind)

/-- The region of a unit, of a cluster. -/
def unitRegion (g : Nat) : Nat := g / 64
def clusterRegion (k : Nat) : Nat := k / 8

/-- The region is one that no channel of the image occupies (R21). -/
def State.idleRegion (s : State) (r : Nat) : Bool :=
  match s.image with
  | some im => !im.placements.any (fun p => p.regions.contains r)
  | none => false

end Sys2Proof.Machine
end

