-- ==== Sys2Proof/Machine/Arbiter.lean ====
section
/-!
DEFINITION. Machine/Arbiter.lean: the arbiters of the region caches, the memory controllers and the fabric egress
(07_links_queues_arbiters.md R179 to R185, R191; 15 R391).
-/
namespace Sys2Proof.Machine

/-- The counter block of an arbiter (R191). Where a memory tile's own registers lie at the address that R179 gives the blocks of LEAD 16 and 17 of the
light tile before it, the counts are kept where no register reads them (notes/assumptions/70.md). -/
def arbBase : ArbId → State → Nat
  | .cache r, _ => regionBase r.val + 0x4000
  | .memory t, s => siteBase ((s.sitesOf 2).getD t.val 0) + 0xF00
  | .egress site lead, s =>
    if (lead.val = 16 ∨ lead.val = 17) ∧ site.val < 15 ∧ s.tile (site.val + 1) = 2 then 0x91000 + 0x20 * site.val + 0x10 * (lead.val - 16)
    else siteBase site.val + 0xF00 + lead.val * 0x10

def fPreempt (b : Nat) : Fld := ⟨b, 0, 16⟩
def fDead (b : Nat) : Fld := ⟨b, 16, 16⟩
def fMaxWait (b : Nat) : Fld := ⟨b + 4, 0, 24⟩
def fParkedHits (b : Nat) : Fld := ⟨b + 8, 0, 16⟩

def State.arb (s : State) : ArbId → Arbiter
  | .cache r => (s.region r.val).arb
  | .memory t => mget {} s.memArb t.val
  | .egress site lead => mget {} s.egressArb (32 * site.val + lead.val)

def State.setArb (s : State) (a : ArbId) (v : Arbiter) : State :=
  match a with
  | .cache r => s.setRegion r.val { s.region r.val with arb := v }
  | .memory t => { s with memArb := mset {} s.memArb t.val v }
  | .egress site lead => { s with egressArb := mset {} s.egressArb (32 * site.val + lead.val) v }

/-- The package has the arbiter's port (00 R3, R191). -/
def arbExists (s : State) : ArbId → Bool
  | .cache _ => true
  | .memory t => decide (t.val < (s.sitesOf 2).length)
  | .egress site _ => decide (s.tile site.val = 1)

/-- Squall's limits hold: in squall, during the fallback turn, and while throttling (15 R391, R392, 17 R417). -/
def squallLimits (s : State) : Bool := decide (s.fld fThermState = 1) || s.thermal.fallback || s.is fThrottle

/-- Squall keeps a memory controller from a grant in every second cycle (15 R391); loose flits are limited by their positions. -/
def squallHolds (s : State) (a : ArbId) : Bool :=
  match a with
  | .memory _ => squallLimits s && (s.arb a).squallSkip
  | _ => false

/-! ### Decisions (R180 to R182) -/

/-- Newly presented requests enter the pending queue, one entry for each requester (R181). -/
def parkAll (parked : List (Requester × Nat)) (presented : List Requester) (cycle : Nat) : List (Requester × Nat) :=
  presented.foldl (fun l q => if l.any (fun e => decide (e.1 = q)) then l else l ++ [(q, cycle)]) parked

/-- The candidate of highest rank: the least rank number (R179, R180). -/
def bestRank (rank : Requester → Nat) (l : List (Requester × Nat)) : Option (Requester × Nat) :=
  l.foldl (fun b e => match b with
    | none => some e
    | some x => if rank e.1 < rank x.1 then some e else some x) none

/-- Nobody but `o` presents or holds a request. -/
def onlyOwn (l : List (Requester × Nat)) (o : Requester) : Bool := l.all (fun e => decide (e.1 = o))

/-- The request that a parked grant serves at once (R182). -/
def parkedServes (v : Arbiter) (waiting : List (Requester × Nat)) : Option (Requester × Nat) :=
  match v.owner with
  | some o => if onlyOwn waiting o then waiting.head? else none
  | none => none

/-- A request is granted: it leaves the pending queue, and the time it spent there counts (R180, R185). -/
def grant (s : State) (a : ArbId) (waiting : List (Requester × Nat)) (e : Requester × Nat) : State :=
  let v := s.arb a
  (s.setArb a { v with
    parked := waiting.filter (fun x => decide (x.1 ≠ e.1))
    owner := some e.1
    busy := true
    served := false
    grantedAt := v.decisions
    squallSkip := true }).raise (fMaxWait (arbBase a s)) (min (2 ^ 24 - 1) (v.decisions - e.2))

/-- One decision of the arbiter over the requests it holds and those presented (R180 to R185). A parked grant ends when another requester presents
or holds a request (R182). -/
def decideArb (s0 : State) (a : ArbId) (rank : Requester → Nat) (presented : List Requester) : State :=
  let s := s0.setArb a { s0.arb a with decisions := (s0.arb a).decisions + 1 }
  let v := s.arb a
  let waiting := parkAll v.parked presented v.decisions
  let owner := if v.busy then v.owner else v.owner.filter (fun o => onlyOwn waiting o)
  if v.busy || v.emergency || squallHolds s a then s.setArb a { v with parked := waiting, owner := owner, squallSkip := false }
  else match parkedServes v waiting with
    | some e => (grant s a waiting e).bump (fParkedHits (arbBase a s))
    | none =>
      match bestRank rank waiting with
      | none => s.setArb a { v with owner := owner, squallSkip := false }
      | some e => grant s a waiting e

/-- The grant is used: its access has been made. -/
def serveArb (s : State) (a : ArbId) : State := s.setArb a { s.arb a with served := true }

/-- Who holds the port for an access still to be made; nobody while the emergency requester has it (R184). -/
def grantee (s : State) (a : ArbId) : Option Requester :=
  let v := s.arb a
  if v.busy && !v.served && !v.emergency then v.owner else none

/-- A transaction ends: the grant stays parked on its owner when nobody else waits (R182); an emergency requester gives the port up (R184). -/
def endTransaction (s : State) (a : ArbId) : State :=
  let v := s.arb a
  if v.emergency then s.setArb a { v with emergency := false, owner := none, busy := false }
  else if v.busy then s.setArb a { v with busy := false, owner := v.owner.filter (fun o => onlyOwn v.parked o) }
  else s

/-! ### Withdrawal and emergency (R183, R184) -/

/-- A requester withdraws its request (R183): a parked one leaves the pending queue, and the time it spent there counts (R185); in the cycle in which
its grant takes effect the port is left idle for that cycle. A transaction under way is not ended. -/
def withdrawRequest (s : State) (a : ArbId) (q : Requester) : State :=
  let v := s.arb a
  match v.parked.find? (fun e => decide (e.1 = q)) with
  | some e =>
    (s.setArb a { v with parked := v.parked.filter (fun x => decide (x.1 ≠ q)) }).raise (fMaxWait (arbBase a s))
      (min (2 ^ 24 - 1) (v.decisions - e.2))
  | none =>
    if grantee s a = some q ∧ v.grantedAt = v.decisions then (s.setArb a { v with busy := false, owner := none }).bump (fDead (arbBase a s))
    else s

/-- Every request that `p` holds of is withdrawn, and a grant to such a requester ends. -/
def withdrawAll (s : State) (a : ArbId) (p : Requester → Bool) : State :=
  let s1 := ((s.arb a).parked.filter (fun e => p e.1)).foldl (fun t e => withdrawRequest t a e.1) s
  let v := s1.arb a
  if v.owner.any p then s1.setArb a { v with busy := false, owner := none } else s1

/-- The emergency requester takes the port (R184): an access still to be made is abandoned without effect, and its request returns to its pending
entry. A burst of a memory controller that has begun is complete when refresh takes the port. A grant that it takes from an owner counts; an idle
port has none to take (R186). -/
def preemptArb (s : State) (a : ArbId) : State :=
  let v := s.arb a
  let parked := match grantee s a with
    | some o => parkAll v.parked [o] v.decisions
    | none => v.parked
  (s.setArb a { v with emergency := true, busy := false, owner := none, parked := parked }).bump (fPreempt (arbBase a s)) (bit v.busy)

end Sys2Proof.Machine
end

