-- ==== Sys2Proof/Machine/Operands.lean ====
section
/-!
DEFINITION. Machine/Operands.lean: the operand forms of the timetable words and the arithmetic on them: fields of a word,
weight levels and operands, scales, rounding, saturation and emission (03_number_formats.md R66 to R82, 05 R112 to R138).
-/
namespace Sys2Proof.Machine

/-! ### Stores -/

/-- What a word that nothing has written reads as, a word of a store, and what its check bits say. -/
def Store.blank (m : Store) (i : Nat) : Word64 :=
  match m.fill with
  | none => 0
  | some n => Config.testWord n i

def Store.word (m : Store) (i : Nat) : Word64 := mget (m.blank i) m.words i
def Store.check (m : Store) (i : Nat) : Option Ecc := mget none m.ecc i

/-- A write generates check bits (04 R111): the word reads clean. -/
def Store.put (m : Store) (i : Nat) (v : Word64) : Store :=
  { m with words := mset (m.blank i) m.words i v, ecc := mset none m.ecc i none }

/-- A write of a poisoned word (10 R246). -/
def Store.putPoison (m : Store) (i : Nat) (v : Word64) : Store :=
  { m with words := mset (m.blank i) m.words i v, ecc := mset none m.ecc i (some .uncorrectable) }

/-- What a configuration word acts as: an upset one as the upset has left it (15 R384). -/
def Store.acts (m : Store) (i : Nat) : Word64 := if m.check i = some .correctable then Config.upset i (m.word i) else m.word i

/-- How many of the words from `i`, `n` of them, read corrected, and how many uncorrectable. -/
def Store.corrected (m : Store) (i n : Nat) : Nat :=
  ((List.range n).filter (fun j => m.check (i + j) == some .correctable)).length
def Store.broken (m : Store) (i n : Nat) : Nat :=
  ((List.range n).filter (fun j => m.check (i + j) == some .uncorrectable)).length

/-- Words from bytes, least significant first, the last one padded with zero bytes. -/
def wordsOf : Nat → List Byte → List Word64
  | 0, _ => []
  | n + 1, l => match l with
    | [] => []
    | _ => BitVec.ofNat 64 (leNat (l.take 8)) :: wordsOf n (l.drop 8)

/-- Words written from an index on. -/
def Store.putAll (m : Store) (i : Nat) (ws : List Word64) : Store :=
  (ws.foldl (fun (p : Nat × Store) w => (p.1 + 1, p.2.put p.1 w)) (i, m)).2

/-! ### Fields of a timetable word -/

/-- A field of a 64-bit word. -/
def wf (w : Word64) (lo n : Nat) : Nat := bits w.toNat lo n

/-- The opcode (05 R112, 06 R141). -/
def opcode (w : Word64) : Nat := wf w 58 6

/-! ### Rounding and scaling -/

/-- Nearest, ties to even, of x / 2^n (R77). -/
def rneShift (x : Int) (n : Nat) : Int :=
  if n = 0 then x
  else
    let f := x / (2 ^ n : Nat)
    let r := x - f * (2 ^ n : Nat)
    let h : Int := (2 ^ (n - 1) : Nat)
    if h < r ∨ (r = h ∧ f % 2 = 1) then f + 1 else f

/-- x × 2^k, rounded when k is negative (R74). -/
def scaleBy (x k : Int) : Int := if 0 ≤ k then x * (2 ^ k.toNat : Nat) else rneShift x (-k).toNat

def max48 : Int := 2 ^ 47 - 1
def min48 : Int := -(2 ^ 47)

/-- Saturation to 48 bits (R74). -/
def sat48 (v : Int) : Int := if max48 < v then max48 else if v < min48 then min48 else v

/-- Whether sat48 limits the value (R76). -/
def limited (v : Int) : Bool := decide (max48 < v) || decide (v < min48)

/-- The mathematical residue mod 7 (04 R101). -/
def mod7 (v : Int) : Nat := (v % 7).toNat

/-! ### Weights -/

/-- The default codebook of W4B (R67). -/
def defaultLevels : List Int := [-127, -92, -69, -51, -36, -23, -11, 0, 10, 21, 33, 47, 63, 82, 104, 127]

def fFormat (g : Nat) : Fld := ⟨unitBase g + 0x08, 0, 3⟩
def fDefaultCb (g : Nat) : Fld := ⟨unitBase g + 0x08, 3, 1⟩
def fCodebook (g i : Nat) : Fld := ⟨unitBase g + 0x10 + 4 * i, 0, 32⟩

/-- The 16 levels of the unit's codebook in effect (R67, R68). -/
def codebook (s : State) (g : Nat) : List Int :=
  if s.is (fDefaultCb g) then defaultLevels
  else (List.range 16).map (fun k => sext 8 (bits (s.fld (fCodebook g (k / 4))) (8 * (k % 4)) 8))

/-- The level of a code under a format (R66). -/
def level (fmt : Nat) (cb : List Int) (code : Nat) : Int :=
  match fmt with
  | 0 => cb.getD code 0
  | 1 => 16 * (code : Int) - 120
  | _ => sext 8 code

/-- Code j of a weight-store row that starts at store word `at_` (R69). -/
def codeOf (m : Store) (at_ fmt j : Nat) : Nat :=
  if fmt < 2 then bits (m.word (at_ + j / 16)).toNat (4 * (j % 16)) 4
  else bits (m.word (at_ + j / 8)).toNat (8 * (j % 8)) 8

/-- Zero point o of set z (04 R95). -/
def zeroPoint (m : Store) (z o : Nat) : Int := sext 8 (bits (m.word (4 * z + o / 8)).toNat (8 * (o % 8)) 8)

/-- Scale word o of set x: mantissa and exponent (R72, 04 R94). -/
def scaleWord (m : Store) (x o : Nat) : Nat × Nat :=
  let w := bits (m.word (8 * x + o / 4)).toNat (16 * (o % 4)) 16
  (bits w 0 8, bits w 8 6)

/-- Element i of a beat as a signed mantissa (00 R12). -/
def mantissa (b : Beat) (i : Nat) : Int := sext 12 (bits b.mant.toNat (12 * i) 12)

/-- The mantissas of a beat. -/
def mantissas (b : Beat) : List Int := (List.range 16).map (mantissa b)

/-- Sixteen mantissas as the field of a beat. -/
def packMant (l : List Int) : BitVec 192 :=
  BitVec.ofNat 192 ((List.range 16).foldl (fun a i => a + 2 ^ (12 * i) * low 12 (l.getD i 0)) 0)

/-- The sums that a MAC adds to the 32 rows of its group bank (04 R88 to R90). -/
def macSums (w z : Store) (fmt : Nat) (cb : List Int) (row zp half : Nat) (b : Beat) : List Int :=
  (List.range 32).map (fun o =>
    let zo := zeroPoint z zp o
    if fmt < 2 then
      (List.range 16).foldl (fun a i => a + (level fmt cb (codeOf w (32 * row) fmt (16 * o + i)) - zo) * mantissa b i) 0
    else
      (List.range 8).foldl (fun a i => a + (level fmt cb (codeOf w (32 * row) fmt (8 * o + i)) - zo) * mantissa b (8 * half + i)) 0)

/-! ### Emission -/

/-- The mantissa of x in units of 2^u at output exponent e (R80), limited to ±2,047. -/
def emitMant (x u : Int) (e : Nat) : Int :=
  let v := scaleBy x (u + 32 - e)
  if 2047 < v then 2047 else if v < -2047 then -2047 else v

/-- No element is limited at this exponent. -/
def fitsAt (xs : List Int) (u : Int) (e : Nat) : Bool :=
  xs.all (fun x => let v := scaleBy x (u + 32 - e); decide (-2047 ≤ v) && decide (v ≤ 2047))

/-- The measured exponent: the least that limits no element, 0 for a zero row, 63 when none does (R81). -/
def measuredExp (xs : List Int) (u : Int) : Nat :=
  if xs.all (fun x => decide (x = 0)) then 0
  else ((List.range 64).find? (fitsAt xs u)).getD 63

end Sys2Proof.Machine
end

