-- ==== Sys2Proof/Machine/Flags.lean ====
section
/-!
DEFINITION. Machine/Flags.lean: the marks, residues, exponents and saturation of banks as beats and rows enter them
(03 R73 to R76, 04 R99 to R102), and the records of the hazard detector (09 R239 to R241).
-/
namespace Sys2Proof.Machine

/-! ### Banks -/

/-- A cleared bank: zero values, flags and tag clear, exponent unset (04 R100). -/
def clearBank (w : Nat) : Bank w := {}

/-- A beat's products enter a group bank (R73, R74, 04 R100, R101): the first beat since the clear gives exponent and tag. -/
def addMac (b : Bank 28) (clear : Bool) (sums : List Int) (exp tag : BitVec 6) (bad late : Bool) : Bank 28 :=
  let b0 := if clear then clearBank 28 else b
  { rows := List.zipWith (fun r d => r + BitVec.ofInt 28 d) b0.rows sums
    res := List.zipWith (fun r d => (r + mod7 d) % 7) b0.res sums
    bad := b0.bad || bad
    late := b0.late || late
    tag := if b0.exp.isNone then tag else b0.tag
    exp := some (b0.exp.getD exp) }

/-- One row of a main bank with a contribution: value, residue, and whether it was limited (R74, R76, 04 R101). -/
def addRow (v : BitVec 48) (r : Nat) (t : Int) : BitVec 48 × Nat × Bool :=
  let x := v.toInt + t
  let y := sat48 x
  (BitVec.ofInt 48 y, if limited x then mod7 y else (r + mod7 t) % 7, limited x)

/-- A row of a group bank no longer has the residue predicted for it (04 R102). -/
def groupMismatch (g : Bank 28) (scales : List (Nat × Nat)) : Bool :=
  (List.range 32).any (fun o => decide ((scales.getD o (0, 0)).1 ≠ 0) &&
    decide (mod7 (g.rows.getD o 0).toInt ≠ g.res.getD o 0))

/-- GRP changes its main bank: the group bank's exponent is set and at least one scale is enabled (05 R123). -/
def grpActs (g : Bank 28) (scales : List (Nat × Nat)) : Bool :=
  g.exp.isSome && scales.any (fun p => decide (p.1 ≠ 0))

/-- GRP writes its main bank (R74, 04 R100, 05 R123); the second part is the number of rows limited. -/
def addGroup (m : Bank 48) (g : Bank 28) (scales : List (Nat × Nat)) (scaleBad : Bool) (q : Nat) : Bank 48 × Nat :=
  let eg := g.exp.getD 0
  let eb := m.exp.getD eg
  let rows := (List.range 32).map (fun o =>
    let p := scales.getD o (0, 0)
    let v := m.rows.getD o 0
    let r := m.res.getD o 0
    if p.1 = 0 then (v, r, false)
    else addRow v r (scaleBy ((g.rows.getD o 0).toInt * p.1) ((p.2 : Int) - 31 + q + eg.toNat - eb.toNat)))
  ({ rows := rows.map (·.1)
     res := rows.map (·.2.1)
     bad := m.bad || g.bad || scaleBad || groupMismatch g scales
     late := m.late || g.late
     tag := if m.exp.isNone then g.tag else m.tag
     exp := some eb }, (rows.filter (·.2.2)).length)

/-- ADDIN writes its main bank (R75, 04 R100). -/
def addBusRow (m : Bank 48) (r : BusRow) : Bank 48 × Nat :=
  if !r.expValid then ({ m with bad := m.bad || r.bad, late := m.late || r.late }, 0)
  else
    let eb := m.exp.getD r.exp
    let rows := (List.range 32).map (fun o =>
      addRow (m.rows.getD o 0) (m.res.getD o 0) (scaleBy (r.vals.getD o 0).toInt ((r.exp.toNat : Int) - eb.toNat)))
    ({ rows := rows.map (·.1)
       res := rows.map (·.2.1)
       bad := m.bad || r.bad
       late := m.late || r.late
       tag := if m.exp.isNone then r.tag else m.tag
       exp := some eb }, (rows.filter (·.2.2)).length)

/-- A row of a main bank no longer has the residue predicted for it (04 R102). -/
def emitMismatch (m : Bank 48) : Bool :=
  (List.range 32).any (fun o => decide (mod7 (m.rows.getD o 0).toInt ≠ m.res.getD o 0))

/-- A beat with the bad mark set where `b` holds. -/
def badIf (x : Beat) (b : Bool) : Beat := { x with bad := x.bad || b }

/-! ### The hazard detector -/

def fHazKind (r : Nat) : Fld := ⟨regionBase r + 0x1204, 0, 3⟩
def fHazValid (r : Nat) : Fld := ⟨regionBase r + 0x1204, 3, 1⟩
def fHazCluster (r : Nat) : Fld := ⟨regionBase r + 0x1204, 4, 3⟩
def fHazAgent (r : Nat) : Fld := ⟨regionBase r + 0x1204, 7, 4⟩
def fHazObject (r : Nat) : Fld := ⟨regionBase r + 0x1204, 11, 5⟩
def fHazCrossing (r : Nat) : Fld := ⟨regionBase r + 0x1204, 16, 12⟩
def fHazCycle (r : Nat) : Fld := ⟨regionBase r + 0x1208, 0, 6⟩
def fHazPc (r : Nat) : Fld := ⟨regionBase r + 0x1208, 16, 9⟩

/-- The counter of a kind (R241): 1 EMPTY_READ, 2 FULL_WRITE, 3 OPEN_READ, 4 DOUBLE_WRITE, 5 SLIP. -/
def fHazCount (r kind : Nat) : Fld :=
  match kind with
  | 1 => ⟨regionBase r + 0x120C, 0, 16⟩
  | 2 => ⟨regionBase r + 0x120C, 16, 16⟩
  | 3 => ⟨regionBase r + 0x1210, 0, 16⟩
  | 4 => ⟨regionBase r + 0x1210, 16, 16⟩
  | _ => ⟨regionBase r + 0x1214, 0, 16⟩

/-- The word of a timetable of `p` words that issues at cycle t, as far as it has been played (04 R110, 09 R241). -/
def playing (v : Play) (p t : Nat) : Nat :=
  let i := if t < v.at_ then v.pc - 1 else v.pc
  if i < p then i else 0

/-- The detector of the agent's region records a hazard at cycle t (R240, R241): the first since VALID was cleared whole, and every one
in its counter. -/
def hazard (s : State) (kind : Nat) (who : Who) (object t : Nat) : State :=
  let r := clusterRegion who.k
  if mget false s.hazardsHeld r then
    let s1 := s.bump (fHazCount r kind)
    if s1.is (fHazValid r) then s1
    else
      let n : Int := max 1 s.n
      let d : Int := (t : Int) - s.clock.xstart
      let q := (s.clock.xseq + d / n).toNat
      ((((((((s1.setFld (fHazKind r) kind).mark (fHazValid r)).setFld (fHazCluster r) (who.k % 8)).setFld (fHazAgent r) who.agent).setFld
        (fHazObject r) object).setFld (fHazCrossing r) (s.numOf q)).setFld (fHazCycle r) (d % n).toNat).setFld (fHazPc r) who.pc)
  else s

end Sys2Proof.Machine
end

