-- ==== Sys2Proof/Machine/Queues.lean ====
section
/-!
DEFINITION. Machine/Queues.lean: the queues of the array: depth, mode, reads, writes, drop-rest, purge and credits
(07_links_queues_arbiters.md R169 to R178, R187, R188, R190).
-/
namespace Sys2Proof.Machine

/-! ### Where a queue's registers lie -/

/-- The register block of a queue. -/
def qBase : QueueId → Nat
  | .port u p => unitBase u.val + 0x80 + 0x10 * portNat p
  | .bank k q => clusterBase k.val + 0xC00 + 0x20 * q.val
  | .steer k i => clusterBase k.val + 0xA40 + 0x10 * i.val

/-- The cluster a queue belongs to. -/
def qCluster : QueueId → Nat
  | .port u _ => u.val / 8
  | .bank k _ => k.val
  | .steer k _ => k.val

/-- The index a hazard record names a queue by. -/
def qObject : QueueId → Nat
  | .port _ p => portNat p
  | .bank _ q => q.val
  | .steer _ i => i.val

def isBank : QueueId → Bool
  | .bank _ _ => true
  | _ => false

def fQMode (q : QueueId) : Fld := if isBank q then ⟨qBase q, 27, 1⟩ else ⟨qBase q, 0, 1⟩
def fQDepth (q : QueueId) : Fld := ⟨qBase q, 16, 11⟩
def fQUnderrun (q : QueueId) : Fld := if isBank q then ⟨qBase q + 0x4, 13, 1⟩ else ⟨qBase q, 10, 1⟩
def fQOverrun (q : QueueId) : Fld := if isBank q then ⟨qBase q + 0x4, 14, 1⟩ else ⟨qBase q, 11, 1⟩
def fQCfgErr (q : QueueId) : Fld := if isBank q then ⟨qBase q + 0x4, 18, 1⟩ else ⟨qBase q, 16, 1⟩
def fQUnder (q : QueueId) : Fld := if isBank q then ⟨qBase q + 0xC, 0, 16⟩ else ⟨qBase q + 0x4, 0, 16⟩
def fQOver (q : QueueId) : Fld := if isBank q then ⟨qBase q + 0xC, 16, 16⟩ else ⟨qBase q + 0x4, 16, 16⟩
def fQBlocked (q : QueueId) : Fld := if isBank q then ⟨qBase q + 0x10, 0, 16⟩ else ⟨qBase q + 0x8, 0, 16⟩
def fQMaxOcc (q : QueueId) : Fld := if isBank q then ⟨qBase q + 0x10, 16, 11⟩ else ⟨qBase q + 0x8, 16, 4⟩
def fQDiscard (q : QueueId) : Fld := if isBank q then ⟨qBase q + 0x14, 0, 16⟩ else ⟨qBase q + 0xC, 0, 16⟩
def fQCollide (q : QueueId) : Fld := if isBank q then ⟨qBase q + 0x14, 16, 16⟩ else ⟨qBase q + 0xC, 16, 16⟩

/-- The depth in effect (R169). -/
def qDepth (s : State) (q : QueueId) : Nat := if isBank q then s.fld (fQDepth q) else 8

/-- HOLD mode (R169). -/
def qHold (s : State) (q : QueueId) : Bool := s.is (fQMode q)

/-- The writer's credit count (R173). -/
def qCredits (s : State) (q : QueueId) : Nat := qDepth s q - (s.queue q).taken

def qFull (s : State) (q : QueueId) : Bool := decide (qDepth s q ≤ (s.queue q).beats.length)

/-! ### Paths -/

def fPtOut (g p : Nat) : Fld := ⟨unitBase g + 0x64, 3 * p, 2⟩
def fPtEn (g p : Nat) : Fld := ⟨unitBase g + 0x64, 3 * p + 2, 1⟩

/-- The input ports of unit g that pass through to its output port o, the lower first (R167). -/
def passInputs (s : State) (g o : Nat) : List Nat :=
  (List.range 4).filter (fun p => s.is (fPtEn g p) && decide (s.fld (fPtOut g p) = o))

/-- The latency of the path that ends in port p of unit g, back through pass-throughs to the word that sends (R166, R173). -/
def pathBack (s : State) : Nat → Nat → Nat → Nat
  | 0, _, _ => 1
  | fuel + 1, g, p =>
    match neighbour g p with
    | none => 1
    | some h =>
      match passInputs s h ((p + 2) % 4) with
      | [] => linkCycles g h
      | i :: _ => linkCycles g h + pathBack s fuel h i

/-- The queue of a cluster that injects into a unit's port (R177). -/
def injector (s : State) (g p : Nat) : Option Nat :=
  (List.range 16).find? (fun q =>
    let r := s.raw (clusterBase (g / 8) + 0xC00 + 0x20 * q + 0x18)
    decide (bits r.toNat 5 1 = 1) && decide (bits r.toNat 0 3 = g % 8) && decide (bits r.toNat 3 2 = p))

/-- The queue of a cluster that captures a unit's output port (R177). -/
def capturer (s : State) (g p : Nat) : Option Nat :=
  (List.range 16).find? (fun q =>
    let r := s.raw (clusterBase (g / 8) + 0xC00 + 0x20 * q + 0x18)
    decide (bits r.toNat 13 1 = 1) && decide (bits r.toNat 8 3 = g % 8) && decide (bits r.toNat 11 2 = p))

/-- The latency of a queue's forward path, which its credits take back (R173); within a cluster it is one hop (notes/assumptions/9.md). -/
def creditLat (s : State) (q : QueueId) : Nat :=
  match q with
  | .port u p => if (injector s u.val (portNat p)).isSome then 1 else pathBack s 128 u.val (portNat p)
  | _ => 1

/-- A credit for each of `n` beats that left at cycle t is on its way to the writer (R173). -/
def giveCredits (s : State) (q : QueueId) (n t : Nat) : State :=
  if qHold s q then
    let v := s.queue q
    s.setQueue q { v with returning := v.returning ++ List.replicate n (t + creditLat s q) }
  else s

/-! ### Writes -/

/-- The count that a write of a cycle before t left is taken into MAX_OCC: within one cycle a read frees its entry before the write counts
(R170, and the worked example of R178). -/
def noteOcc (s : State) (q : QueueId) (t : Nat) : State :=
  let v := s.queue q
  match v.wrote with
  | some c => if c < t then (s.setQueue q { v with wrote := none }).raise (fQMaxOcc q) v.beats.length else s
  | none => s

/-- The queues that hold something of their own and satisfy `p`. -/
def queuesOf (s : State) (p : QueueId → Bool) : List QueueId :=
  let ports := s.portQ.map (fun e => QueueId.port (Fin.ofNat 4096 (e.1 / 4)) (portOf e.1))
  let banks := s.bankQ.map (fun e => QueueId.bank (Fin.ofNat 512 (e.1 / 16)) (Fin.ofNat 16 e.1))
  let steers := s.steerQ.map (fun e => QueueId.steer (Fin.ofNat 512 (e.1 / 4)) (Fin.ofNat 4 e.1))
  (ports ++ banks ++ steers).filter p

/-- A write that found the queue full in a cycle before t was lost: no read of its cycle made room (R170, R172). -/
def noteOver (s : State) (q : QueueId) (t : Nat) : State :=
  match (s.queue q).excess with
  | some (_, who, c) =>
    if c < t then hazard (((s.setQueue q { s.queue q with excess := none }).mark (fQOverrun q)).bump (fQOver q)) 2 who (qObject q) c else s
  | none => s

/-- What the cycles before t left to count in a queue. -/
def noteQueue (s : State) (q : QueueId) (t : Nat) : State := noteOver (noteOcc s q t) q t

/-- Every queue that `p` names takes the count of its last write into MAX_OCC. -/
def noteQueues (s : State) (p : QueueId → Bool) (t : Nat) : State := (queuesOf s p).foldl (fun x q => noteQueue x q t) s

/-- The cycles up to t that the queue's writer has waited for credit count, and its wait goes on (R173). -/
def chargeQueue (s : State) (q : QueueId) (t : Nat) : State :=
  let v := s.queue q
  let s1 := match v.waitSince with
    | some c => (s.bump (fQBlocked q) (t - c)).setQueue q { v with waitSince := some (max c t) }
    | none => s
  match v.blocked with
  | some (b, c) => (s1.bump (fQBlocked q) (t - c)).setQueue q { s1.queue q with blocked := some (b, max c t) }
  | none => s1

/-- The writer of a HOLD queue without credit waits from cycle t (R173). -/
def noteWait (s : State) (q : QueueId) (t : Nat) : State :=
  if qHold s q then s.setQueue q { s.queue q with waitSince := some ((s.queue q).waitSince.getD t) } else s

/-- The writer's wait ends in cycle t (R173). -/
def endWait (s : State) (q : QueueId) (t : Nat) : State :=
  let s1 := chargeQueue s q t
  s1.setQueue q { s1.queue q with waitSince := none }

/-- A beat enters a queue (R170, R172, R175): discarded while DISCARDING; at a full queue it is taken where the cycle reads the queue, else
ignored and counted. -/
def writeQueue (s0 : State) (q : QueueId) (b : Beat) (who : Who) (t : Nat) : State :=
  let s := noteQueue s0 q t
  let v := s.queue q
  if v.discarding then
    giveCredits ((s.setQueue q { v with discarding := !b.last, pkt := v.pkt && !b.last }).bump (fQDiscard q)) q 1 t
  else if qFull s q then s.setQueue q { v with excess := some (b, who, t) }
  else s.setQueue q { v with beats := v.beats ++ [b], wrote := some t, filledAt := if v.beats.isEmpty then t else v.filledAt }

/-- The writer of a HOLD queue spends a credit (R173). -/
def spendCredit (s : State) (q : QueueId) : State :=
  if qHold s q then s.setQueue q { s.queue q with taken := (s.queue q).taken + 1 } else s

/-- The oldest credit on its way reaches the writer, whose wait ends; a beat that a function unit's word has ready leaves with it (R173). -/
def returnCredit (s : State) (q : QueueId) : State :=
  let v := s.queue q
  match v.returning with
  | [] => s
  | t :: r =>
    let s1 := endWait ((s.at t).setQueue q { v with returning := r }) q t
    let w := s1.queue q
    match w.delayed with
    | [] => s1.setQueue q { w with taken := w.taken - 1, creditAt := if qCredits s q = 0 then t else w.creditAt }
    | (d, b) :: rest =>
      let s2 := s1.setQueue q { w with delayed := rest, waitSince := (rest.head?).map (fun e => max t e.1) }
      let c := s2.cluster (qCluster q)
      s2.setCluster (qCluster q) { c with arrivals := c.arrivals ++ [⟨q, max d (t + 1), 0, b⟩] }

/-- The writer may send: the queue is DROP, or credit is left (R173). -/
def maySend (s : State) (q : QueueId) : Bool := !qHold s q || decide (0 < qCredits s q)

/-! ### Reads -/

/-- The place of the head after `n` beats have left: a queue-bank queue uses its DEPTH positions in ring order (R177, 16 R406). -/
def movedHead (s : State) (q : QueueId) (n : Nat) : Nat :=
  if isBank q then ((s.queue q).head + n) % max 1 (qDepth s q) else 0

/-- The queue is that of a pass-through port, which a word finds empty (R167). -/
def passPort (s : State) (q : QueueId) : Bool :=
  match q with
  | .port u p => s.is (fPtEn u.val (portNat p))
  | _ => false

/-- The write of cycle t that found the queue full takes the entry that a read of the same cycle has freed (R170). -/
def takeOver (s : State) (q : QueueId) (t : Nat) : State :=
  let v := s.queue q
  match v.excess with
  | some (b, who, c) => if c = t then writeQueue (s.setQueue q { v with excess := none }) q b who t else s
  | none => s

/-- A read at cycle t finds nothing: an underrun (R171). -/
def underRead (s : State) (q : QueueId) (who : Who) (t : Nat) : State :=
  hazard ((s.mark (fQUnderrun q)).bump (fQUnder q)) 1 who (qObject q) t

/-- The later of two readers of one cycle reads as though the queue were empty, and is counted (R178). -/
def lostRead (s : State) (q : QueueId) (who : Who) (t : Nat) : State :=
  underRead (hazard (s.bump (fQCollide q)) 4 who (qObject q) t) q who t

/-- A read of a queue at cycle t: the head beat, removed when `pop` holds, or the last value of an empty queue, which is an underrun
(R171, R175). The packet in progress follows R137. -/
def readQueue (s0 : State) (q : QueueId) (pop : Bool) (who : Who) (t : Nat) : Beat × Bool × State :=
  let s := noteQueue s0 q t
  let v := s.queue q
  if isBank q && decide (v.readCycle = t + 1) then (v.last, false, lostRead s q who t)
  else
    let v1 := { v with readCycle := t + 1 }
    match v.discarding || passPort s q, v.beats with
    | false, b :: rest =>
      if pop then
        (b, true, takeOver (giveCredits (s.setQueue q { v1 with
          gotCycle := t + 1
          beats := rest
          last := b
          pkt := (v.pkt || b.first) && !b.last
          head := movedHead s q 1 }) q 1 t) q t)
      else (b, true, s.setQueue q { v1 with gotCycle := t + 1, last := b })
    | _, _ => (v.last, false, underRead (s.setQueue q v1) q who t)

/-- The queue has a beat to read. -/
def qReady (s : State) (q : QueueId) : Bool := !(s.queue q).discarding && !(s.queue q).beats.isEmpty

/-- The beats up to and including the first last-of-row beat, and the rest; whether one was found. -/
def dropTo (l : List Beat) : List Beat × Bool × Nat :=
  match l with
  | [] => ([], false, 0)
  | b :: r =>
    if b.last then (r, true, 1)
    else
      let p := dropTo r
      (p.1, p.2.1, p.2.2 + 1)

/-- The drop-rest-of-packet command at cycle t (R175). -/
def dropRest (s0 : State) (q : QueueId) (t : Nat) : State :=
  let s := noteOver (noteOcc s0 q (t + 1)) q t
  let v := s.queue q
  if v.pkt && !v.discarding then
    let p := dropTo v.beats
    takeOver (giveCredits ((s.setQueue q { v with
      beats := p.1
      pkt := !p.2.1
      discarding := !p.2.1
      head := movedHead s q p.2.2 }).bump (fQDiscard q) p.2.2) q p.2.2 t) q t
  else s

/-- A purge (R176): sticky bits and counters stay. -/
def purgeQueue (s : State) (q : QueueId) : State := (chargeQueue (noteQueue s q (s.clock.now + 1)) q s.clock.now).setQueue q {}

end Sys2Proof.Machine
end

