-- ==== Sys2Proof/Machine/Links.lean ====
section
/-!
DEFINITION. Machine/Links.lean: neighbour links, pass-through, capture and injection, the tile ports, and beats arriving
in queues (07_links_queues_arbiters.md R165 to R168, R177, R178; 08 R212; 11 R283, R289; 12 R302, R310). Array reads settle
what is due first: a beat is readable from its due cycle, and a full queue that is read in a cycle takes that
cycle's write (R170).
-/
namespace Sys2Proof.Machine

/-! ### Lanes and groups of a tile (11 R283) -/

def fBondWidth (site o : Nat) : Fld := ⟨siteBase site + 0xE0C, 2 * o, 2⟩
def fBondNrz (site o : Nat) : Fld := ⟨siteBase site + 0xE0C, 8 + o, 1⟩

/-- The transmit lanes of a tile (00 R3). -/
def txLanes (s : State) (site : Nat) : Nat :=
  match s.tile site with
  | 0 => 16
  | 1 => 32
  | _ => 0

/-- The size of the group that holds a transmit lane. -/
def groupSize (s : State) (site lane : Nat) : Nat := 2 ^ s.fld (fBondWidth site (lane / 8))

/-- The lead lane of a group. -/
def leadOf (s : State) (site lane : Nat) : Nat := lane - lane % groupSize s site lane

def isLead (s : State) (site lane : Nat) : Bool := decide (leadOf s site lane = lane)

def fTxFunc (site lane : Nat) : Fld := ⟨txBase site lane, 0, 2⟩
def fTxVa (site lane : Nat) : Fld := ⟨txBase site lane, 2, 2⟩
def fTxLink (site lane : Nat) : Fld := ⟨txBase site lane, 4, 4⟩
def fTxLoop (site lane : Nat) : Fld := ⟨txBase site lane, 8, 1⟩
def fTxEnable (site lane : Nat) : Fld := ⟨txBase site lane, 9, 1⟩
def fRxEnable (site lane : Nat) : Fld := ⟨rxBase site lane, 16, 1⟩
def fTxRate (site lane : Nat) : Fld := ⟨txBase site lane, 16, 15⟩
def fTxState (site lane : Nat) : Fld := ⟨txBase site lane + 4, 0, 3⟩
def fTxNoLight (site lane : Nat) : Fld := ⟨txBase site lane + 4, 4, 1⟩
def fTxCfgErr (site lane : Nat) : Fld := ⟨txBase site lane + 4, 5, 1⟩
def fTxIgnored (site lane : Nat) : Fld := ⟨txBase site lane + 4, 6, 1⟩
def fTxOverrun (site lane : Nat) : Fld := ⟨txBase site lane + 4, 7, 1⟩
def fTxDrop (site lane : Nat) : Fld := ⟨txBase site lane + 4, 16, 16⟩
def fTxFrames (site lane : Nat) : Fld := ⟨txBase site lane + 8, 0, 32⟩

/-- The function that a lead lane's FUNC gives its group is one that R284 allows. -/
def funcValid (s : State) (site lane : Nat) : Bool :=
  let f := s.fld (fTxFunc site lane)
  let one := decide (groupSize s site lane = 1)
  match s.tile site with
  | 0 =>
    let r := s.fld (fTxRate site lane)
    decide (f = 0) || (decide (f ≠ 3) && (decide (f = 1) || one) && decide (9600 ≤ r) && decide (r ≤ 28100))
  | 1 => decide (f = 0) || decide (f = 3) || (s.is (fBondNrz site (lane / 8)) && (decide (f = 1) || one))
  | _ => false

/-- The function a group has: IDLE where R284 does not allow its setting. -/
def funcOf (s : State) (site lane : Nat) : Nat :=
  if isLead s site lane && funcValid s site lane then s.fld (fTxFunc site lane) else 0

/-- The key of a lane's state: receive lanes from 0, transmit lanes from 64. -/
def laneKey (site lane : Nat) (tx : Bool) : Nat := site * 128 + (if tx then 64 else 0) + lane
def State.lane (s : State) (site lane : Nat) (tx : Bool) : LaneSt := mget {} s.lanes (laneKey site lane tx)
def State.setLane (s : State) (site lane : Nat) (tx : Bool) (v : LaneSt) : State :=
  { s with lanes := mset {} s.lanes (laneKey site lane tx) v }

/-- The BEAT lane that takes an edge link (R289). -/
def beatLane (s : State) (site k : Nat) : Option Nat :=
  (List.range (txLanes s site)).find? (fun j => decide (funcOf s site j = 2) && decide (s.fld (fTxLink site j) = k))

/-! ### Edge links -/

def fOutCollide (g : Nat) : Fld := ⟨unitBase g + 0x68, 0, 16⟩
def fUnconnected (g : Nat) : Fld := ⟨unitBase g + 0x68, 16, 16⟩
def fTxmapEn (site k : Nat) : Fld := ⟨txmapBase site k, 15, 1⟩
def fTxmapStream (site k : Nat) : Fld := ⟨txmapBase site k, 0, 14⟩
def fTxmapPrio (site k : Nat) : Fld := ⟨txmapBase site k, 16, 3⟩
def fTxmapLead (site k : Nat) : Fld := ⟨txmapBase site k, 19, 5⟩
def fTxmapInit (site k : Nat) : Fld := ⟨txmapBase site k, 24, 8⟩
def fTxStale (site k : Nat) : Fld := ⟨txmapBase site k + 4, 8, 8⟩
def fTxLate (site k : Nat) : Fld := ⟨txmapBase site k + 4, 16, 8⟩
def fTxDropBuf (site k : Nat) : Fld := ⟨txmapBase site k + 4, 24, 8⟩

def State.txLink (s : State) (site k : Nat) : TxLink := mget {} s.txLinks (16 * site + k)
def State.setTxLink (s : State) (site k : Nat) (v : TxLink) : State := { s with txLinks := mset {} s.txLinks (16 * site + k) v }

/-- A locked calendar slot of the image names the edge link (12 R302). -/
def slotNames (s : State) (site k : Nat) : Bool :=
  match s.image with
  | some im => im.calendars.any (fun c => decide (c.site = site) && c.entries.any (fun e => decide (e.link = k)))
  | none => false

/-- Where a tile keeps the beats of an edge link: the egress queue of a BEAT lane, the buffer of its calendar slots, or its loose buffer
(11 R289, 12 R302, R310). -/
inductive TileBuf
  | lane (j : Nat)
  | slots
  | loose
deriving DecidableEq, Repr

/-- The buffer of edge link k of a site, if it is connected (07 R168). -/
def tileBuf (s : State) (site k : Nat) : Option TileBuf :=
  let beat := (beatLane s site k).map TileBuf.lane
  match s.tile site with
  | 0 => beat
  | 1 => if slotNames s site k then some .slots
    else if beat.isSome then beat else if s.is (fTxmapEn site k) then some .loose else none
  | _ => none

/-- The beats a tile's buffer holds. -/
def bufHeld (s : State) (site k : Nat) (t : TileBuf) : List Beat :=
  match t with
  | .lane j => (s.lane site j true).egress
  | .slots => (s.txLink site k).buffer
  | .loose => (s.txLink site k).loose

def setBuf (s : State) (site k : Nat) (t : TileBuf) (l : List Beat) : State :=
  match t with
  | .lane j => s.setLane site j true { s.lane site j true with egress := l }
  | .slots => s.setTxLink site k { s.txLink site k with buffer := l }
  | .loose => s.setTxLink site k { s.txLink site k with loose := l }

/-- The tile has room for a beat of edge link k. -/
def tileTakes (s : State) (site k : Nat) : Bool :=
  match tileBuf s site k with
  | some (.lane j) => decide ((s.lane site j true).egress.length < 64)
  | some t => decide ((bufHeld s site k t).length < 16)
  | none => false

/-- A beat leaves unit g on edge link k towards the tile at a site; one that finds no room, or no connection, is lost and counted (07 R168,
11 R289, 12 R302, R310). -/
def tileSend (s : State) (g site k : Nat) (b : Beat) : State :=
  match tileBuf s site k with
  | none => s.bump (fUnconnected g)
  | some t =>
    if tileTakes s site k then setBuf s site k t (bufHeld s site k t ++ [b])
    else match t with
      | .lane j => (s.mark (fTxOverrun site j)).bump (fTxDrop site j)
      | _ => s.bump (fTxDropBuf site k)

/-! ### Sending -/

def fRgnBusy (r : Nat) : Fld := ⟨regionBase r + 0x1000, 2, 1⟩
def fEpoch (r : Nat) : Fld := ⟨regionBase r + 0x1000, 3, 1⟩
def fStale (r : Nat) : Fld := ⟨regionBase r + 0x1004, 0, 16⟩

/-- A beat is put on its way into a queue of the cluster (R166, R178). -/
def sendArrival (s : State) (k : Nat) (q : QueueId) (due writer : Nat) (b : Beat) : State :=
  let c := s.cluster k
  s.setCluster k { c with arrivals := c.arrivals ++ [⟨q, due, writer, b⟩] }

/-- A beat is on its way out of unit g by port o at cycle t, to a capture, a neighbour or a tile (R166, R168, R177). -/
def launch (s : State) (g o : Nat) (b : Beat) (epoch : Bool) (t : Nat) : State :=
  match capturer s g o with
  | some q => sendArrival s (g / 8) (.bank (Fin.ofNat 512 (g / 8)) (Fin.ofNat 16 q)) (t + 1) 4 b
  | none =>
    match neighbour g o with
    | some h => { s with links := s.links ++ [⟨h, (o + 2) % 4, t + linkCycles g h, b, epoch, false⟩] }
    | none => tileSend s g (siteOf (g / 256) o) (edgeLink g o) b

/-- A beat that leaves unit g by port o at cycle t takes the place of one that had left there in that cycle, and lost its output (R167). Where that
one found no tile or no room in it, neither does this one, and the loss is counted already. -/
def relaunch (s : State) (g o : Nat) (b : Beat) (epoch : Bool) (took : Bool) (t : Nat) : State :=
  match capturer s g o, neighbour g o with
  | some q, _ =>
    let c := s.cluster (g / 8)
    launch (s.setCluster (g / 8) { c with arrivals := c.arrivals.filter (fun a =>
      !(decide (qObject a.q = q) && isBank a.q && decide (a.writer = 4) && decide (a.due = t + 1))) }) g o b epoch t
  | none, some h =>
    launch { s with links := s.links.filter (fun l =>
        !(decide (l.unit = h) && decide (l.port = (o + 2) % 4) && decide (l.due = t + linkCycles g h))) } g o b epoch t
  | none, none =>
    let site := siteOf (g / 256) o
    let k := edgeLink g o
    match took, tileBuf s site k with
    | true, some d => setBuf s site k d ((bufHeld s site k d).dropLast ++ [b])
    | _, _ => s

/-- A beat leaves unit g by port o at cycle t. `rank` is the input port of a pass-through, 4 for a word: of two in one cycle the lower leaves,
and the other is lost and counted (R167). A fenced unit marks it bad (15 R386). -/
def sendBeat (s : State) (g o : Nat) (b : Beat) (epoch : Bool) (rank t pc : Nat) : State :=
  let b' := badIf b (s.is ⟨unitBase g + 0x6C, 0, 1⟩)
  let u := s.unit g
  let rest := u.outLink.filter (fun r => decide (r.port ≠ o))
  let clash := u.outLink.find? (fun r => decide (r.port = o) && decide (r.cycle = t))
  let lost := hazard (s.bump (fOutCollide g)) 4 ⟨g / 8, g % 8, pc⟩ o t
  let note (x : State) (took : Bool) := x.setUnit g { x.unit g with outLink := rest ++ [⟨o, t, rank, b', epoch, took⟩] }
  match clash with
  | none => launch (note s (tileTakes s (siteOf (g / 256) o) (edgeLink g o))) g o b' epoch t
  | some r => if rank < r.rank then relaunch (note lost r.took) g o b' epoch r.took t else lost

/-- The configuration epoch that a unit sends (R165). -/
def epochOf (s : State) (g : Nat) : Bool := s.is (fEpoch (unitRegion g))

/-! ### Arrivals -/

/-- The epoch that input port p of unit g expects: that of its source region (08 R211). -/
def expects (s : State) (g p : Nat) : Bool :=
  s.is (fEpoch (((s.unit g).src.getD p none).getD (unitRegion g)))

/-- A beat on a link reaches its port (R165, R167, R177, 08 R212). A pass-through does not look at the epoch. -/
def deliver (s : State) (l : LinkBeat) : State :=
  let u : UnitIx := Fin.ofNat 4096 l.unit
  let q : QueueId := .port u (portOf l.port)
  let who : Who := ⟨l.unit / 8, l.unit % 8, playing (s.unit l.unit).play (s.fld ⟨unitBase l.unit, 0, 10⟩) l.due⟩
  if s.idleRegion (unitRegion l.unit) then s
  else if !l.injected && (injector s l.unit l.port).isSome then s.bump (fQCollide q)
  else if s.is (fPtEn l.unit l.port) then
    sendBeat s l.unit (s.fld (fPtOut l.unit l.port)) l.beat l.epoch l.port l.due who.pc
  else if l.injected then writeQueue s q l.beat ⟨l.unit / 8, 12, 0⟩ l.due
  else if l.epoch != expects s l.unit l.port then s.bump (fStale (unitRegion l.unit))
  else writeQueue s q l.beat who l.due

/-- The earlier of two beats on links; of one cycle the lower port's, and else the first (R167). -/
def firstDue (best : Option LinkBeat) (l : LinkBeat) : Option LinkBeat :=
  match best with
  | none => some l
  | some b => if l.due < b.due ∨ (l.due = b.due ∧ l.port < b.port) then some l else some b

/-- The earliest of the beats on links that `p` names. -/
def nextBeat (s : State) (p : LinkBeat → Bool) : Option LinkBeat := (s.links.filter p).foldl firstDue none

/-- The beats on links that `p` names arrive, in the order of their cycles. -/
def settleBeats (s : State) (p : LinkBeat → Bool) : Nat → State
  | 0 => s
  | fuel + 1 =>
    match nextBeat s p with
    | none => s
    | some l => settleBeats (deliver { s with links := s.links.erase l } l) p fuel

/-- Every beat due by a cycle at one of these ports of unit g arrives. -/
def settlePorts (s : State) (g : Nat) (ps : List Nat) (bound : Nat) : State :=
  settleBeats s (fun l => decide (l.unit = g) && ps.contains l.port && decide (l.due ≤ bound)) s.links.length

/-- The beats that pass through unit g to its output port o by cycle t have left, those behind them on the same paths first (R167). -/
def settlePass (s : State) : Nat → Nat → Nat → Nat → State
  | 0, _, _, _ => s
  | fuel + 1, g, o, t =>
    match passInputs s g o with
    | [] => s
    | ps =>
      if s.links.all (fun l => decide (t < l.due)) then s
      else settlePorts (ps.foldl (fun x p => match neighbour g p with
        | some h => settlePass x fuel h ((p + 2) % 4) (t - linkCycles g h)
        | none => x) s) g ps t

/-- Every beat due at a port by a cycle arrives, those that pass through its neighbours included. -/
def settlePort (s : State) (g p bound : Nat) : State :=
  let s1 := match neighbour g p with
    | some h => settlePass s 128 h ((p + 2) % 4) (bound - linkCycles g h)
    | none => s
  settlePorts s1 g [p] bound

/-- Beats on links due by a cycle arrive. -/
def settleLinks (s : State) (bound : Nat) (fuel : Nat) : State := settleBeats s (fun l => decide (l.due ≤ bound)) fuel

/-- A beat that enters an empty steering input queue is at its head from that cycle (06 R156). -/
def noteHead (s : State) (a : QueueArrival) (wasEmpty : Bool) : State :=
  match a.q with
  | .steer k i =>
    if wasEmpty then
      let c := s.cluster k.val
      s.setCluster k.val { c with steer := { c.steer with headAt := c.steer.headAt.set i.val a.due } }
    else s
  | _ => s

/-- Of the beats that reach one queue in one cycle the writer earliest in R178's order is accepted; each other one is lost and counted. -/
def landOne (p : State × List (QueueId × Nat)) (a : QueueArrival) : State × List (QueueId × Nat) :=
  let who : Who := ⟨qCluster a.q, 12, 0⟩
  if p.2.contains (a.q, a.due) then (hazard (p.1.bump (fQCollide a.q)) 4 who (qObject a.q) a.due, p.2)
  else (noteHead (writeQueue p.1 a.q a.beat who a.due) a (p.1.queue a.q).beats.isEmpty, (a.q, a.due) :: p.2)

/-- Arrivals in the order of their cycle and then of R178. -/
def arrivalBefore (a b : QueueArrival) : Bool :=
  decide (a.due < b.due) || (decide (a.due = b.due) && decide (a.writer < b.writer))

def insertArrival (a : QueueArrival) : List QueueArrival → List QueueArrival
  | [] => [a]
  | b :: r => if arrivalBefore a b then a :: b :: r else b :: insertArrival a r

def sortArrivals (l : List QueueArrival) : List QueueArrival := l.foldr insertArrival []

/-- Every beat on its way into a queue of cluster k by a cycle arrives. -/
def settleCluster (s : State) (k bound : Nat) : State :=
  let c := s.cluster k
  let due := sortArrivals (c.arrivals.filter (fun a => decide (a.due ≤ bound)))
  let s1 := s.setCluster k { c with arrivals := c.arrivals.filter (fun a => decide (bound < a.due)) }
  (due.foldl landOne (s1, [])).1

/-- Everything due at a queue by a cycle arrives. -/
def settleQueue (s : State) (q : QueueId) (bound : Nat) : State :=
  match q with
  | .port u p => settlePort s u.val (portNat p) bound
  | _ => settleCluster s (qCluster q) bound

/-- A read of a queue at cycle t, and whether it found a beat: what arrives by that cycle is readable in it, and a write that found the queue full
takes the entry that the read frees (R170, R171). -/
def readAt (s : State) (q : QueueId) (pop : Bool) (who : Who) (t : Nat) : Beat × Bool × State := readQueue (settleQueue s q t) q pop who t

/-- The same for a reader of a queue of the bank: one that another reader of its cycle comes before loses its read (R178). -/
def readRanked (s : State) (q : QueueId) (behind : Bool) (who : Who) (t : Nat) : Beat × Bool × State :=
  if behind then
    let s1 := noteQueue (settleQueue s q t) q t
    ((s1.queue q).last, false, lostRead s1 q who t)
  else readAt s q true who t

/-! ### Where an output ends -/

/-- The queue that a beat sent by unit g out of port o ends in, through pass-throughs and captures (R166, R167, R177); none where it
reaches no queue: a tile, or an injected port. -/
def endQueue (s : State) : Nat → Nat → Nat → Option QueueId
  | 0, _, _ => none
  | fuel + 1, g, o =>
    match capturer s g o with
    | some q => some (.bank (Fin.ofNat 512 (g / 8)) (Fin.ofNat 16 q))
    | none =>
      match neighbour g o with
      | none => none
      | some h =>
        let p := (o + 2) % 4
        if (injector s h p).isSome then none
        else if s.is (fPtEn h p) then endQueue s fuel h (s.fld (fPtOut h p))
        else some (.port (Fin.ofNat 4096 h) (portOf p))

/-- The ports of an output mask (05 R115). -/
def maskPorts (m : Nat) : List Nat := (List.range 4).filter (fun i => decide (bits m i 1 = 1))

/-- The queues that these ports end in whose writer has no credit (R173). -/
def lacking (s : State) (g : Nat) (ports : List Nat) : List QueueId := (ports.filterMap (endQueue s 128 g)).filter (fun q => !maySend s q)

/-- A word's beat leaves by a port, spending the credit of the queue it ends in. -/
def wordSend (s0 : State) (g o : Nat) (b : Beat) (t pc : Nat) : State :=
  let s := settlePass s0 128 g o t
  let s1 := match endQueue s 128 g o with
    | some q => spendCredit s q
    | none => s
  sendBeat s1 g o b (epochOf s1 g) 4 t pc

/-! ### Commands -/

/-- BEAT_ARRIVAL: the oldest beat on its way to the port arrives at its cycle (R165); at a pass-through, after those that reached the same output
before it (R167). -/
def execBeatArrival (u : UnitIx) (p : Port) (s : State) : Res :=
  match nextBeat s (fun l => decide (l.unit = u.val) && decide (l.port = portNat p)) with
  | none => .next s
  | some l =>
    let s1 := s.at l.due
    if s.is (fPtEn u.val (portNat p)) then .next (settlePass s1 128 u.val (s.fld (fPtOut u.val (portNat p))) l.due)
    else .next (deliver { s1 with links := s1.links.erase l } l)

end Sys2Proof.Machine
end

