-- ==== Sys2Proof/Machine/Agents.lean ====
section
/-!
DEFINITION. Machine/Agents.lean: the registers and memory of the two kinds of agent that play a timetable, dot units and function units
(04_dot_unit.md R93, R110; 06_function_and_steering.md R140, R162).
-/
namespace Sys2Proof.Machine

/-! ### The agent's registers and memory -/

def aBase : Agent → Nat
  | .dot u => unitBase u.val
  | .fn f => funBase f.val

def isDot : Agent → Bool
  | .dot _ => true
  | .fn _ => false

/-- The cluster of an agent, and the AGENT number of R241. -/
def aCluster : Agent → Nat
  | .dot u => u.val / 8
  | .fn f => f.val / 2
def aIndex : Agent → Nat
  | .dot u => u.val % 8
  | .fn f => 8 + f.val % 2

def fPeriod (a : Agent) : Fld := ⟨aBase a, 0, if isDot a then 10 else 9⟩
def fLag (a : Agent) : Fld := ⟨aBase a, 16, 8⟩
def fK (a : Agent) : Fld := ⟨aBase a, 24, 4⟩
def fAgentEnable (a : Agent) : Fld := ⟨aBase a, 31, 1⟩
def fRunning (a : Agent) : Fld := ⟨aBase a + 4, 0, 1⟩
def fAgentIgnored (a : Agent) : Fld := ⟨aBase a + 4, 1, 1⟩
def fWinErr (a : Agent) : Fld := ⟨aBase a + 4, 2, 1⟩
def fActive (a : Agent) : Fld := ⟨aBase a + (if isDot a then 0x50 else 0x08), 0, 4⟩
def fStarved (a : Agent) : Fld := ⟨aBase a + (if isDot a then 0x60 else 0x14), 0, 16⟩
def fBlocked (a : Agent) : Fld := ⟨aBase a + (if isDot a then 0x60 else 0x14), 16, 16⟩
def fCe (g : Nat) : Fld := ⟨unitBase g + 0x5C, 0, 8⟩
def fWeightUe (g : Nat) : Fld := ⟨unitBase g + 0x5C, 8, 8⟩
def fScaleUe (g : Nat) : Fld := ⟨unitBase g + 0x5C, 16, 8⟩
def fTtUe (g : Nat) : Fld := ⟨unitBase g + 0x5C, 24, 8⟩

def State.play (s : State) : Agent → Play
  | .dot u => (s.unit u.val).play
  | .fn f => (s.fun_ f.val).play

def State.setPlay (s : State) (a : Agent) (p : Play) : State :=
  match a with
  | .dot u => s.setUnit u.val { s.unit u.val with play := p }
  | .fn f => s.setFun f.val { s.fun_ f.val with play := p }

/-- The timetable memory. -/
def State.tt (s : State) : Agent → Store
  | .dot u => (s.unit u.val).tt
  | .fn f => (s.fun_ f.val).tt

/-- P, when it lies in its range; 0 leaves the unit idle (04 R110, 06 R162). -/
def period (s : State) (a : Agent) : Nat :=
  let p := s.fld (fPeriod a)
  if p ≤ (if isDot a then 512 else 256) then p else 0

/-- The unit plays: its RUNNING bit is 1 and the array clock runs. -/
def plays (s : State) (a : Agent) : Bool := s.runs && s.is (fRunning a)

def whoOf (s : State) (a : Agent) : Who := ⟨aCluster a, aIndex a, (s.play a).pc⟩

/-- The index of the word that issues at cycle t, as far as the agent has played (04 R110, 09 R241). -/
def issuing (s : State) (a : Agent) (t : Nat) : Nat := playing (s.play a) (period s a) t

/-! ### Menus -/

/-- DOT_MENU.SCHED or FUN_MENU.SCHED: in locked mode the menu in force for crossing x − LAG, as it was loaded at the start of the current
crossing x; in staged mode the menu that SELECT_MENU set last (R93, R108). -/
def schedOf (s : State) (a : Agent) : Nat :=
  let held := match a with
    | .dot u => (s.unit u.val).schedHeld
    | .fn f => (s.fun_ f.val).schedHeld
  if s.stagedImage then s.stage.inForce
  else match held with
    | some (q, m) => if q = s.clock.xseq then m else s.menuAt (s.clock.xseq - s.fld (fLag a))
    | none => s.menuAt (s.clock.xseq - s.fld (fLag a))

end Sys2Proof.Machine
end

