-- ==== Sys2Proof/Machine/Bus.lean ====
section
/-!
DEFINITION. Machine/Bus.lean: the banks of a dot unit with the writes in flight, and the sum bus of a cluster
(04_dot_unit.md R98 to R102, 05 R114, R125 to R131, 06 R152, R153).
-/
namespace Sys2Proof.Machine

/-! ### Bank writes in flight -/

def fSatCnt (g : Nat) : Fld := ⟨unitBase g + 0x54, 0, 32⟩
def fResGroup (g : Nat) : Fld := ⟨unitBase g + 0x58, 0, 16⟩
def fResEmit (g : Nat) : Fld := ⟨unitBase g + 0x58, 16, 16⟩

/-- Of two writes of one main bank in one cycle this one is lost: CLR wins over GRP and ADDIN, GRP over ADDIN (R99). -/
def losesTo (a b : BankWrite) : Bool :=
  match a, b with
  | .grp mb _ _ _ _, .clr m => m.getLsbD mb
  | .addin mb _, .clr m => m.getLsbD mb
  | .addin mb _, .grp mb' _ _ _ _ => decide (mb = mb')
  | _, _ => false

/-- The write meets another one of its cycle and is lost. -/
def isLost (fs : List Flight) (f : Flight) : Bool := fs.any (fun g => decide (g.due = f.due) && losesTo f.write g.write)

/-- One write lands in the banks; the second part is the number of main-bank rows limited. -/
def landWrite (u : DotUnit) (w : BankWrite) : DotUnit × Nat :=
  match w with
  | .mac gb clear sums exp tag bad late => ({ u with gb := modAt u.gb gb (fun b => addMac b clear sums exp tag bad late) }, 0)
  | .grp mb g scales scaleBad q =>
    let r := addGroup (u.mb.getD mb {}) g scales scaleBad q
    ({ u with mb := modAt u.mb mb (fun _ => r.1) }, r.2)
  | .clr m => ({ u with mb := (List.range 16).map (fun i => if m.getLsbD i then {} else u.mb.getD i {}) }, 0)
  | .addin mb row =>
    let r := addBusRow (u.mb.getD mb {}) row
    ({ u with mb := modAt u.mb mb (fun _ => r.1) }, r.2)

def insertFlight (f : Flight) : List Flight → List Flight
  | [] => [f]
  | g :: r => if f.due < g.due then f :: g :: r else g :: insertFlight f r

/-- The writes due by a cycle land in the order of their cycles. -/
def landAll (u : DotUnit) (bound : Nat) : DotUnit × Nat :=
  let due := (u.flight.filter (fun f => decide (f.due ≤ bound))).foldl (fun l f => insertFlight f l) []
  let kept := due.filter (fun f => !isLost u.flight f)
  kept.foldl (fun p f =>
    let r := landWrite p.1 f.write
    (r.1, p.2 + r.2)) ({ u with flight := u.flight.filter (fun f => decide (bound < f.due)) }, 0)

/-- The bank writes of unit g that are due by a cycle land, and limited rows are counted (R76). -/
def settleUnit (s : State) (g bound : Nat) : State :=
  let u := s.unit g
  if u.flight.any (fun f => decide (f.due ≤ bound)) then
    let r := landAll u bound
    (s.setUnit g r.1).bump (fSatCnt g) r.2
  else s

/-- The main bank that two writes share, which one of them at least names alone (R241). -/
def sharedBank (a b : BankWrite) : Nat :=
  match a, b with
  | .grp mb _ _ _ _, _ => mb
  | .addin mb _, _ => mb
  | _, .grp mb _ _ _ _ => mb
  | _, .addin mb _ => mb
  | _, _ => 0

/-- A bank write issues; two writes of one bank in one cycle are a hazard (R240). -/
def addFlight (s : State) (a : Agent) (g : Nat) (f : Flight) : State :=
  let u := s.unit g
  let clash := u.flight.find? (fun h => decide (h.due = f.due) && (losesTo f.write h.write || losesTo h.write f.write))
  let s1 := s.setUnit g { u with flight := u.flight ++ [f] }
  match clash with
  | some h => hazard s1 4 (whoOf s1 a) (sharedBank f.write h.write) f.due
  | none => s1

/-- A write of the bank, from a word issued before, lands at this cycle or later. -/
def openGroup (u : DotUnit) (gb t : Nat) : Bool :=
  u.flight.any (fun f => decide (t ≤ f.due) && (match f.write with
    | .mac b _ _ _ _ _ _ => decide (b = gb)
    | _ => false))

def openMain (u : DotUnit) (mb t : Nat) : Bool :=
  u.flight.any (fun f => decide (t ≤ f.due) && (match f.write with
    | .grp b _ _ _ _ => decide (b = mb)
    | .addin b _ => decide (b = mb)
    | .clr m => m.getLsbD mb
    | _ => false))

/-! ### The sum bus -/

def fBusCollide (k : Nat) : Fld := ⟨clusterBase k + 0x800, 0, 16⟩
def fUntaken (k : Nat) : Fld := ⟨clusterBase k + 0x800, 16, 16⟩
def fBusLost (f : Nat) : Fld := ⟨funBase f + 0x0C, 0, 8⟩

/-- A row reaches function unit f's buffer of 4 rows (06 R152). -/
def enterBuffer (s : State) (f : Nat) (r : BusRow) : State :=
  let u := s.fun_ f
  if u.buf.length < 4 then s.setFun f { u with buf := u.buf ++ [r] }
  else hazard (s.bump (fBusLost f)) 2 ⟨f / 2, 8 + f % 2, issuing s (.fn (Fin.ofNat 1024 f)) r.due⟩ 0 r.due

/-- The unit waits at an ADDIN from this cycle or earlier (05 R128). -/
def awaitsRow (s : State) (k dest due : Nat) : Bool :=
  match (s.unit (8 * k + dest)).play.wait with
  | .addin since => decide (since ≤ due)
  | _ => false

/-- A row that has passed on the bus: a function unit's goes to its buffer, a unit's or one addressed to nobody is lost and counted
(R130), unless the unit waits for it. -/
def passRow (k : Nat) (p : State × List BusRow) (r : BusRow) : State × List BusRow :=
  if r.dest = 8 ∨ r.dest = 9 then (enterBuffer p.1 (2 * k + (r.dest - 8)) r, p.2)
  else if decide (r.dest < 8) && awaitsRow p.1 k r.dest r.due && !p.2.any (fun x => decide (x.dest = r.dest)) then (p.1, p.2 ++ [r])
  else (p.1.bump (fUntaken k), p.2)

def insertRow (r : BusRow) : List BusRow → List BusRow
  | [] => [r]
  | x :: l => if r.due < x.due then r :: x :: l else x :: insertRow r l

/-- The rows due on the bus of cluster k by a cycle have passed. -/
def settleBus (s : State) (k bound : Nat) : State :=
  let c := s.cluster k
  let due := (c.bus.filter (fun r => decide (r.due ≤ bound))).foldl (fun l r => insertRow r l) []
  let p := due.foldl (passRow k) (s, [])
  let c1 := p.1.cluster k
  p.1.setCluster k { c1 with bus := p.2 ++ c.bus.filter (fun r => decide (bound < r.due)) }

/-- The rows due before cycle c have passed, and of cycle c itself those for these destinations, function units: a dot unit may still take its own
in that cycle (R130, 06 R152). -/
def settleBusAt (s : State) (k c : Nat) (dests : List Nat) : State :=
  let s1 := settleBus s k (c - 1)
  let v := s1.cluster k
  let mine (r : BusRow) : Bool := decide (r.due = c) && dests.contains r.dest
  (v.bus.filter mine).foldl (fun x r => enterBuffer x (2 * k + (r.dest - 8)) r) (s1.setCluster k { v with bus := v.bus.filter (fun r => !mine r) })

/-- A row is placed on the bus. In locked mode a row that meets another one of its cycle leaves only the lowest sender's, marked bad, and the
cycle is counted once (R129); a hazard names the word that sent it (09 R241). -/
def placeRow (s : State) (k : Nat) (r : BusRow) : State :=
  let c := s.cluster k
  match c.bus.find? (fun x => decide (x.due = r.due)) with
  | none => s.setCluster k { c with bus := c.bus ++ [r] }
  | some x =>
    let w := if r.sender < x.sender then r else x
    let s1 := s.setCluster k { c with bus := (c.bus.filter (fun y => decide (y.due ≠ r.due))) ++ [{ w with bad := true, collided := true }] }
    if x.collided then s1 else hazard (s1.bump (fBusCollide k)) 4 ⟨k, w.sender, w.pc⟩ 0 r.due

end Sys2Proof.Machine
end

