-- ==== Sys2Proof/Machine/FunOps.lean ====
section
/-!
DEFINITION. Machine/FunOps.lean: what the operations of a function unit compute from the beats and rows they have taken
(06_function_and_steering.md R142 to R151, R154, R158).
-/
namespace Sys2Proof.Machine

/-! ### Fields of an operation word (R142, R146) -/

def wSrc (w : Word64) : Nat := wf w 53 5
def wDst (w : Word64) : Nat := wf w 48 5
def wBdest (w : Word64) : Nat := wf w 44 4
def wMeasured (w : Word64) : Bool := decide (wf w 43 1 = 1)
def wEout (w : Word64) : Nat := wf w 37 6
def wLen (w : Word64) : Nat := wf w 27 10 + 1
def wQin (w : Word64) : Nat := wf w 21 6
def wTbase (w : Word64) : Nat := wf w 0 14
def wSrc2 (w : Word64) : Nat := wf w 0 5
def wNidx (w : Word64) : Nat := wf w 5 10 + 1

/-- ceil(n / 16). -/
def beatsFor (n : Nat) : Nat := (n + 15) / 16

/-- What an operation works on: its word, the cluster store and the active menu, what it took from SRC and from SRC2, and the counter
that free values are drawn at. -/
structure FIn where
  w : Word64
  store : Store
  menu : Nat
  a : List TakenItem
  b : List TakenItem
  free : Nat

/-- What an operation gives: its output beats, a sum-bus row, the bits, mask and feature of a contribution, and what it counts. -/
structure FOut where
  beats : List Beat := []
  row : Option BusRow := none
  trigger : Option (Nat × Nat × Option Beat) := none
  bad : Bool := false
  range : Nat := 0
  sat : Nat := 0
  tblUe : Nat := 0

/-! ### Rows as integers (R143) -/

def itemBad : TakenItem → Bool
  | .beat b => b.bad
  | .row r => r.bad
def itemLate : TakenItem → Bool
  | .beat b => b.late
  | .row r => r.late
def itemTag : TakenItem → BitVec 6
  | .beat b => b.tag
  | .row r => r.tag
def itemBeat : TakenItem → Beat
  | .beat b => b
  | .row _ => zeroBeat

/-- Every mantissa of a list of beats, in order. -/
def allMants (l : List TakenItem) : List Int := l.flatMap (fun x => mantissas (itemBeat x))

/-- Value k of a wide row of 8 beats (R154). -/
def wideValue (l : List TakenItem) (k : Nat) : Int := sext 48 (bits (itemBeat (l.getD (k / 4) (.beat zeroBeat))).mant.toNat (48 * (k % 4)) 48)

/-- The elements of a sum-bus row: 32 values; elements past them are stated nowhere and are free (notes/assumptions/3.md). -/
def rowValues (r : BusRow) (len free : Nat) : List Int :=
  (List.range len).map (fun i =>
    if !r.expValid then 0
    else if i < 32 then (r.vals.getD i 0).toInt else (Config.freeValue 48 (free + i)).toInt)

/-- A row as integers x_i in a unit of 2^u: LEN elements (R143). -/
def rowOf (l : List TakenItem) (len qin free : Nat) : List Int × Int :=
  match l with
  | .row r :: _ => (rowValues r len free, (if r.expValid then (r.exp.toNat : Int) else 0) - 32 - qin)
  | .beat b :: _ => ((allMants l).take len, (b.exp.toNat : Int) - 32)
  | [] => ([], -32)

/-- A wide row as integers. -/
def wideOf (l : List TakenItem) (len qin : Nat) : List Int × Int :=
  ((List.range (min len 32)).map (wideValue l), ((itemBeat (l.headD (.beat zeroBeat))).exp.toNat : Int) - 32 - qin)

/-! ### Output rows -/

/-- Beats of a row from mantissas, with exponent, tag and marks; the marks of beat j come from `bad j` and `late j`. -/
def beatsOf (ms : List Int) (n : Nat) (e : Nat) (tag : BitVec 6) (bad late : Nat → Bool) : List Beat :=
  (List.range n).map (fun j =>
    { mant := packMant (slice ms (16 * j) 16), exp := BitVec.ofNat 6 e, tag := tag, bad := bad j, late := late j
      first := decide (j = 0), last := decide (j + 1 = n) })

def anyBad (i : FIn) : Bool := (i.a ++ i.b).any itemBad
def anyLate (i : FIn) : Bool := (i.a ++ i.b).any itemLate
def firstTag (i : FIn) : BitVec 6 := itemTag (i.a.headD (.beat zeroBeat))

/-- The emission step (R80 to R82): mantissas and exponent of a row in units of 2^u. -/
def emitRow (measured : Bool) (eout : Nat) (ys : List Int) (u : Int) : List Int × Nat :=
  let e := if measured then measuredExp ys u else eout
  (ys.map (fun y => emitMant y u e), e)

/-- An emitted row whose marks are the OR of all that was read (R144). -/
def emitAll (i : FIn) (measured : Bool) (ys : List Int) (u : Int) (bad : Bool) : List Beat :=
  let r := emitRow measured (wEout i.w) ys u
  beatsOf r.1 (beatsFor ys.length) r.2 (firstTag i) (fun _ => anyBad i || bad) (fun _ => anyLate i)

/-- An emitted row whose beat j carries the marks of input beat j, or of the whole sum-bus row (R144). -/
def emitByBeat (i : FIn) (measured : Bool) (ys : List Int) (u : Int) (bad : Bool) : List Beat :=
  let r := emitRow measured (wEout i.w) ys u
  let at_ (j : Nat) := if i.a.length = 1 then i.a.headD (.beat zeroBeat) else i.a.getD j (.beat zeroBeat)
  beatsOf r.1 (beatsFor ys.length) r.2 (firstTag i) (fun j => itemBad (at_ j) || bad) (fun j => itemLate (at_ j))

/-! ### Tables in the cluster store -/

/-- The store word of a table word: addresses wrap at 1 MiB (R146). -/
def tableIx (w : Word64) (n : Nat) : Nat := (8 * wTbase w + n) % 131072
def tableWord (i : FIn) (n : Nat) : Nat := (i.store.word (tableIx i.w n)).toNat

/-- How many of these table words, each counted once, read as uncorrectable (R144). -/
def tableUe (i : FIn) (ns : List Nat) : Nat :=
  (ns.eraseDups.filter (fun n => i.store.check (tableIx i.w n) == some .uncorrectable)).length

def sat16 (v : Int) : Int := if 32767 < v then 32767 else if v < -32768 then -32768 else v

/-- The segment of z, and the table word that holds it (R147). -/
def segment (z : Int) : Nat := ((z + 32768) / 256).toNat
def segmentWord (z : Int) : Nat := 1 + segment z / 2

/-- The piecewise-linear function (R147). -/
def pwl (i : FIn) (z : Int) : Int :=
  let w := bits (tableWord i (segmentWord z)) (32 * (segment z % 2)) 32
  sext 16 (bits w 0 16) * 256 + sext 16 (bits w 16 16) * ((z + 32768) % 256)

/-! ### The operations (R146) -/

/-- ACT (R147). -/
def opAct (i : FIn) : FOut :=
  let x := rowOf i.a (wLen i.w) (wQin i.w) i.free
  let h := tableWord i 0
  let bias := decide (wf i.w 14 1 = 1)
  let b (j : Nat) : Int := if bias then sext 16 (bits (tableWord i (129 + j / 4)) (16 * (j % 4)) 16) else 0
  let zs := (List.range x.1.length).map (fun j => sat16 (scaleBy (x.1.getD j 0) (x.2 + 40 - (bits h 0 6 : Nat)) + b j))
  let ue := tableUe i (0 :: zs.map segmentWord ++ (if bias then (List.range x.1.length).map (fun j => 129 + j / 4) else []))
  { beats := emitByBeat i (wMeasured i.w) (zs.map (pwl i)) ((bits h 8 6 : Nat) - 40) (decide (0 < ue)), tblUe := ue }

/-- ROWX: always measured. -/
def opRowx (i : FIn) : FOut :=
  let x := rowOf i.a (wLen i.w) (wQin i.w) i.free
  { beats := emitAll i true x.1 x.2 false }

/-- PIN: always pinned at EOUT. -/
def opPin (i : FIn) : FOut :=
  let x := rowOf i.a (wLen i.w) (wQin i.w) i.free
  { beats := emitByBeat i false x.1 x.2 false }

/-- The number of bits of a number. -/
def bitlen (n : Nat) : Nat := if n = 0 then 0 else Nat.log2 n + 1

/-- The integer square root, one bit at a time. -/
def isqrt (n : Nat) : Nat := (List.range 64).foldr (fun k r => if (r + 2 ^ k) * (r + 2 ^ k) ≤ n then r + 2 ^ k else r) 0

/-- The integer nearest 2^47 / sqrt(d), ties to even (R148). -/
def rsqrt47 (d : Nat) : Nat :=
  let r := isqrt (2 ^ 94 / d)
  let m := (2 * r + 1) * (2 * r + 1) * d
  if m < 2 ^ 96 ∨ (m = 2 ^ 96 ∧ r % 2 = 1) then r + 1 else r

/-- The integer nearest a / b, ties to even (R149). -/
def nearest (a b : Nat) : Nat :=
  let q := a / b
  let r := a % b
  if b < 2 * r ∨ (2 * r = b ∧ q % 2 = 1) then q + 1 else q

/-- NORM (R148). -/
def opNorm (i : FIn) : FOut :=
  let x := rowOf i.a (wLen i.w) (wQin i.w) i.free
  let len := wLen i.w
  let s1 := x.1.foldl (· + ·) 0
  let s2 := x.1.foldl (fun a v => a + v * v) 0
  let d := ((len : Int) * s2 - s1 * s1 + (2 ^ wf i.w 14 5 : Nat)).toNat
  let sh := 2 * ((bitlen d - 32 + 1) / 2)
  let rho := rsqrt47 (rneShift d sh).toNat
  let g (j : Nat) : Int := sext 16 (bits (tableWord i (j / 4)) (16 * (j % 4)) 16)
  let o (j : Nat) : Int := sext 16 (bits (tableWord i ((len + 3) / 4 + j / 4)) (16 * (j % 4)) 16)
  let ys := (List.range len).map (fun j =>
    rneShift (((len : Int) * x.1.getD j 0 - s1) * rho) (35 + sh / 2) * g j + o j * 65536)
  let ue := tableUe i ((List.range len).flatMap (fun j => [j / 4, (len + 3) / 4 + j / 4]))
  { beats := emitAll i (wMeasured i.w) ys (-24) (decide (0 < ue)), tblUe := ue }

/-- EXPT (R147). -/
def opExpt (i : FIn) : FOut :=
  let x := rowOf i.a (wLen i.w) (wQin i.w) i.free
  let h := tableWord i 0
  let mx := x.1.foldl max (x.1.headD 0)
  let zs := x.1.map (fun v => max (-32768) (scaleBy (v - mx) (x.2 + 40 - (bits h 0 6 : Nat))))
  let ue := tableUe i (0 :: zs.map segmentWord)
  { beats := emitAll i (wMeasured i.w) (zs.map (pwl i)) ((bits h 8 6 : Nat) - 40) (decide (0 < ue)), tblUe := ue }

/-- RCP (R149). -/
def opRcp (i : FIn) : FOut :=
  let x := rowOf i.a (wLen i.w) (wQin i.w) i.free
  let s := x.1.foldl (· + ·) 0
  if s ≤ 0 then { beats := emitAll i (wMeasured i.w) (x.1.map (fun _ => 0)) (-48) true, bad := true, range := 1 }
  else
    let sh := bitlen s.toNat - 24
    let rho := nearest (2 ^ 48) (rneShift s sh).toNat
    { beats := emitAll i (wMeasured i.w) (x.1.map (fun v => v * rho)) (-48 - (sh : Int)) false }

/-- NOBJ of a POOL word. -/
def wNobj (w : Word64) : Nat := wf w 0 6 + 1

/-- The rows of a POOL: each of b beats, or each a sum-bus row. -/
def poolRows (i : FIn) : List (List Int × Int) :=
  let per := if wSrc i.w = 16 then 1 else beatsFor (wLen i.w)
  (List.range (wNobj i.w)).map (fun j => rowOf (slice i.a (per * j) per) (wLen i.w) (wQin i.w) i.free)

/-- POOL: element-wise maximum or sum over NOBJ rows, aligned exactly to the finest unit (R146). -/
def opPool (i : FIn) : FOut :=
  let rows := poolRows i
  let u := (rows.map (·.2)).foldl min ((rows.map (·.2)).headD 0)
  let al : List (List Int) := rows.map (fun r => r.1.map (fun x => x * ((2 ^ (r.2 - u).toNat : Nat) : Int)))
  let sum := decide (wf i.w 6 1 = 1)
  let ys := (List.range (wLen i.w)).map (fun j =>
    let c := al.map (fun r => r.getD j 0)
    if sum then c.foldl (· + ·) 0 else c.foldl max (c.headD 0))
  { beats := emitAll i (wMeasured i.w) ys u false }

/-- A stable order of (mantissa, index) pairs: `before a b` says that a goes strictly before b. -/
def insertBy (before : Int × Nat → Int × Nat → Bool) (x : Int × Nat) : List (Int × Nat) → List (Int × Nat)
  | [] => [x]
  | y :: r => if before x y then x :: y :: r else y :: insertBy before x r

def sortBy (before : Int × Nat → Int × Nat → Bool) (l : List (Int × Nat)) : List (Int × Nat) :=
  l.foldl (fun acc x => insertBy before x acc) []

/-- A value beat, and an index beat under exponent 32 when IDX is 1 (R150). -/
def sortedBeats (i : FIn) (l : List (Int × Nat)) (idx : Bool) : List Beat :=
  let e := (itemBeat (i.a.headD (.beat zeroBeat))).exp
  let mk (ms : List Int) (x : BitVec 6) (f z : Bool) : Beat :=
    { mant := packMant ms, exp := x, tag := firstTag i, bad := anyBad i, late := anyLate i, first := f, last := z }
  if idx then [mk (l.map (·.1)) e true false, mk (l.map (fun p => (p.2 : Int))) 32 false true] else [mk (l.map (·.1)) e true true]

/-- SORT16 (R150). -/
def opSort16 (i : FIn) : FOut :=
  let ms := (allMants i.a).take (min 16 (wLen i.w))
  let asc := decide (wf i.w 0 1 = 1)
  let l := sortBy (fun x y => if asc then decide (x.1 < y.1) else decide (y.1 < x.1)) (ms.zip (List.range 16))
  { beats := sortedBeats i l (decide (wf i.w 1 1 = 1)) }

/-- TOPK (R150). -/
def opTopk (i : FIn) : FOut :=
  let ms := (allMants i.a).take (wLen i.w)
  let l := sortBy (fun x y => decide (y.1 < x.1)) (ms.zip (List.range 1024))
  { beats := sortedBeats i (l.take (wf i.w 0 4 + 1)) (decide (wf i.w 4 1 = 1)) }

/-- The indices of GATHER and SCATTER: signed mantissas (R151). -/
def indices (i : FIn) : List Int := (allMants i.b).take (wNidx i.w)

def badIndices (i : FIn) : Nat := ((indices i).filter (fun x => decide (x < 0) || decide ((wLen i.w : Int) ≤ x))).length

/-- GATHER (R151). -/
def opGather (i : FIn) : FOut :=
  let data := (allMants i.a).take (wLen i.w)
  let bad := badIndices i
  let ms := (indices i).map (fun x => if 0 ≤ x then data.getD x.toNat 0 else 0)
  { beats := beatsOf ms (beatsFor (wNidx i.w)) (itemBeat (i.a.headD (.beat zeroBeat))).exp.toNat (firstTag i)
      (fun _ => anyBad i || decide (0 < bad)) (fun _ => anyLate i)
    range := bad }

/-- SCATTER (R151): of two equal indices the later element wins. -/
def opScatter (i : FIn) : FOut :=
  let data := (allMants i.a).take (wNidx i.w)
  let bad := badIndices i
  let pairs := (indices i).zip data
  let ms := pairs.foldl (fun (r : List Int) p => if 0 ≤ p.1 ∧ p.1 < (wLen i.w : Int) then r.set p.1.toNat p.2 else r) (List.replicate (wLen i.w) 0)
  { beats := beatsOf ms (beatsFor (wLen i.w)) (itemBeat (i.a.headD (.beat zeroBeat))).exp.toNat (firstTag i)
      (fun _ => anyBad i || decide (0 < bad)) (fun _ => anyLate i)
    range := bad }

/-- A row as A or B of REDUCE: values, unit, exponent field and whether it is valid. -/
def reduceIn (i : FIn) (l : List TakenItem) (wide : Bool) : List Int × Int × Nat × Bool :=
  match l with
  | [] => ([], 0, 0, false)
  | .row r :: _ => let x := rowOf l (min 32 (wLen i.w)) (wQin i.w) i.free; (x.1, x.2, r.exp.toNat, r.expValid)
  | .beat b :: _ =>
    let x := if wide then wideOf l (wLen i.w) (wQin i.w) else rowOf l (wLen i.w) (wQin i.w) i.free
    (x.1, x.2, b.exp.toNat, true)

/-- Eight beats of a wide row (R154). -/
def wideBeats (vals : List Int) (e : Nat) (tag : BitVec 6) (bad late : Bool) : List Beat :=
  (List.range 8).map (fun j =>
    { mant := BitVec.ofNat 192 ((List.range 4).foldl (fun a k => a + 2 ^ (48 * k) * low 48 (vals.getD (4 * j + k) 0)) 0)
      exp := BitVec.ofNat 6 e, tag := tag, bad := bad, late := late, first := decide (j = 0), last := decide (j = 7) })

/-- REDUCE (R154). -/
def opReduce (i : FIn) : FOut :=
  let w := i.w
  let a := reduceIn i i.a (decide (wf w 5 1 = 1))
  let b := reduceIn i i.b (decide (wf w 6 1 = 1))
  let u := if i.b.isEmpty then a.2.1 else min a.2.1 b.2.1
  let wideOut := decide (wf w 7 1 = 1)
  let bus := decide (wDst w = 16)
  let n := if wideOut || bus then min 32 (wLen w) else wLen w
  let ss := (List.range n).map (fun j =>
    a.1.getD j 0 * (2 ^ (a.2.1 - u).toNat : Nat) + (if i.b.isEmpty then 0 else b.1.getD j 0 * (2 ^ (b.2.1 - u).toNat : Nat)))
  if !wideOut && !bus then { beats := emitAll i (wMeasured w) ss u false }
  else
    let eo := if a.2.2.2 then a.2.2.1 else if b.2.2.2 then b.2.2.1 else 0
    let vs := ss.map (fun x => scaleBy x (u - ((eo : Int) - 32 - (wf w 8 6 : Nat))))
    let ws := vs.map sat48
    let sat := (vs.filter limited).length
    if bus then
      { row := some { vals := (List.range 32).map (fun j => BitVec.ofInt 48 (ws.getD j 0)), exp := BitVec.ofNat 6 eo
                      expValid := a.2.2.2 || b.2.2.2, bad := anyBad i, late := anyLate i, tag := firstTag i }
        sat := sat }
    else { beats := wideBeats ws eo (firstTag i) (anyBad i) (anyLate i), sat := sat }

/-- v against a threshold entry, exactly (R158). -/
def threshBit (x u : Int) (entry : Nat) : Bool :=
  let tm := sext 16 (bits entry 0 16)
  let te : Int := (bits entry 16 6 : Nat) - 32
  let m := min u te
  let v := x * (2 ^ (u - m).toNat : Nat)
  let t := tm * (2 ^ (te - m).toNat : Nat)
  match bits entry 22 2 with
  | 0 => decide (t ≤ v)
  | 1 => decide (t < v)
  | 2 => decide (v ≤ t)
  | _ => decide (v < t)

/-- THRESH (R158): bits BOFF on, their mask, and the first beat of the row when FEAT is 1. -/
def opThresh (i : FIn) : FOut :=
  let x := rowOf i.a (wLen i.w) (wQin i.w) i.free
  let boff := wf i.w 14 5
  let n := min (wLen i.w) (32 - boff)
  let ix (j : Nat) := 16 * i.menu + j / 2
  let bs := (List.range n).foldl (fun a j =>
    a + (if threshBit (x.1.getD j 0) x.2 (bits (tableWord i (ix j)) (32 * (j % 2)) 32) then 2 ^ (boff + j) else 0)) 0
  let feat := match i.a with
    | .beat b :: _ => b
    | .row r :: _ => (wideBeats (r.vals.map (·.toInt)) r.exp.toNat r.tag r.bad r.late).headD zeroBeat
    | [] => zeroBeat
  let ue := tableUe i ((List.range n).map ix)
  { trigger := some (bs, (2 ^ n - 1) * 2 ^ boff, if wf i.w 19 1 = 1 then some feat else none)
    bad := anyBad i || decide (0 < ue), tblUe := ue }

end Sys2Proof.Machine
end

