-- ==== Sys2Proof/Machine/FunRun.lean ====
section
/-!
DEFINITION. Machine/FunRun.lean: the operation words of the function units at work: what each takes in which cycle, when it waits for a
source, and what it sends on (06_function_and_steering.md R141 to R146, R152, R153, R158). The takes of a word are made in the order of
their cycles whenever the cluster is looked at (notes/assumptions/10.md).
-/
namespace Sys2Proof.Machine

/-! ### What a word takes and how long -/

/-- Where an item comes from. `rowBeat` is a row taken by an operation that copies beats, `open_` a source code that names nothing: their
mantissas are stated nowhere (notes/assumptions/3.md). -/
inductive Src
  | queue (q : Nat)
  | bus
  | rowBeat
  | open_
deriving DecidableEq, Repr

/-- The operations that copy mantissas (R146): 0x18 to 0x1B. -/
def copies (op : Nat) : Bool := decide (0x18 ≤ op) && decide (op ≤ 0x1B)

def srcCode (op code : Nat) : Src :=
  if code < 16 then .queue code else if code = 16 then (if copies op then .rowBeat else .bus) else .open_

/-- One item to take: cycles after issue, from SRC2 or not, and the source. -/
structure Take where
  off : Nat
  second : Bool
  src : Src
deriving DecidableEq, Repr

def takesOf (n off : Nat) (second : Bool) (src : Src) : List Take :=
  (List.range n).map (fun j => ⟨off + j, second, if src = .rowBeat ∧ 0 < j then .open_ else src⟩)

def beforeTake (a b : Take) : Bool := decide (a.off < b.off) || (decide (a.off = b.off) && !a.second && b.second)

def mergeTakes (a b : List Take) : List Take :=
  b.foldl (fun l t => (l.filter (fun x => !beforeTake t x)) ++ t :: l.filter (fun x => beforeTake t x)) a

def idxBeats (w : Word64) : Nat := beatsFor (wNidx w)
def rowBeats (w : Word64) : Nat := beatsFor (wLen w)

/-- The lengths of the two rows of REDUCE in takes (R146). -/
def lenA (w : Word64) : Nat := if wSrc w = 16 then 1 else if wf w 5 1 = 1 then 8 else rowBeats w
def lenB (w : Word64) : Nat := if wSrc2 w = 31 then 0 else if wSrc2 w = 16 then 1 else if wf w 6 1 = 1 then 8 else rowBeats w

/-- What a word takes, in order (R141, R146, R151). -/
def takePlan (w : Word64) : List Take :=
  let op := opcode w
  let a := srcCode op (wSrc w)
  let b := if wSrc2 w < 16 then Src.queue (wSrc2 w) else .open_
  match op with
  | 0x16 => mergeTakes (takesOf (lenA w) 0 false a) (takesOf (lenB w) 0 true b)
  | 0x17 => if a = .bus then (List.range (wNobj w)).map (fun j => ⟨j * rowBeats w, false, a⟩) else takesOf (wNobj w * rowBeats w) 0 false a
  | 0x18 => takesOf 1 0 false a
  | 0x1A => takesOf (rowBeats w) 0 false a ++ takesOf (idxBeats w) (rowBeats w) true b
  | 0x1B => mergeTakes (takesOf (idxBeats w) 0 false a) (takesOf (idxBeats w) 0 true b)
  | _ => if a = .bus then takesOf 1 0 false a else takesOf (rowBeats w) 0 false a

/-- The duration (R146). -/
def duration (w : Word64) : Nat :=
  let b := rowBeats w
  match opcode w with
  | 0x16 => max (lenA w) (lenB w)
  | 0x17 => wNobj w * b
  | 0x18 => 1
  | 0x1A => b + idxBeats w
  | 0x1B => idxBeats w
  | _ => b

/-- The latency λ (R146). -/
def latency (w : Word64) : Nat :=
  let b := rowBeats w
  let m := if wMeasured w then b + 4 else 0
  match opcode w with
  | 0x10 => 5 + m
  | 0x11 => b + 4
  | 0x12 => 3
  | 0x13 => 2 * b + 8 + m
  | 0x14 => b + 5 + m
  | 0x15 => b + 6 + m
  | 0x16 => duration w + 2 + (if wf w 7 1 = 1 ∨ wDst w = 16 then 0 else m)
  | 0x17 => wNobj w * b + 3 + m
  | 0x18 => 7
  | 0x19 => b + 8
  | 0x1A => b + 3
  | 0x1B => idxBeats w + 3
  | _ => b + 2

/-- How many output beats the word forms. -/
def outBeats (w : Word64) : Nat :=
  match opcode w with
  | 0x16 => if wDst w = 16 then 0 else if wf w 7 1 = 1 then 8 else rowBeats w
  | 0x18 => 1 + wf w 1 1
  | 0x19 => 1 + wf w 4 1
  | 0x1A => idxBeats w
  | 0x1C => 0
  | _ => rowBeats w

/-- The operation (R146). -/
def operate (i : FIn) : FOut :=
  match opcode i.w with
  | 0x10 => opAct i
  | 0x11 => opRowx i
  | 0x12 => opPin i
  | 0x13 => opNorm i
  | 0x14 => opExpt i
  | 0x15 => opRcp i
  | 0x16 => opReduce i
  | 0x17 => opPool i
  | 0x18 => opSort16 i
  | 0x19 => opTopk i
  | 0x1A => opGather i
  | 0x1B => opScatter i
  | _ => opThresh i

/-- The word sends its output beats as it takes its input: ACT pinned and PIN, from beats, and GATHER (R144, R146, R151). -/
def streams (w : Word64) : Bool :=
  match opcode w with
  | 0x10 => !wMeasured w && decide (wSrc w ≠ 16)
  | 0x12 => decide (wSrc w ≠ 16)
  | 0x1A => true
  | _ => false

/-! ### Output -/

def fOutPort (f : Nat) : Fld := ⟨funBase f + 0x0C, 8, 8⟩
def fFunSat (f : Nat) : Fld := ⟨funBase f + 0x0C, 16, 8⟩
def fTblUe (f : Nat) : Fld := ⟨funBase f + 0x0C, 24, 8⟩
def fRange (f : Nat) : Fld := ⟨funBase f + 0x10, 0, 16⟩

/-- The queue a DST names, if any (R142). -/
def dstQueue (f code : Nat) : Option QueueId :=
  let k := Fin.ofNat 512 (f / 2)
  if code < 16 then some (.bank k (Fin.ofNat 16 code))
  else if 17 ≤ code ∧ code ≤ 20 then some (.steer k (Fin.ofNat 4 (code - 17)))
  else none

/-- The queue a word's output beats go to: none for THRESH and for what goes to the sum bus. -/
def outQueue (f : Nat) (w : Word64) : Option QueueId := if outBeats w = 0 then none else dstQueue f (wDst w)

def funWho (s : State) (f : Nat) : Who := ⟨f / 2, 8 + f % 2, (s.fun_ f).play.pc - 1⟩

/-- How many of these takes are rows of the sum-bus buffer and fall by a cycle, for a word that issued at `t`. -/
def busTakes (l : List Take) (t due : Nat) : Nat :=
  (l.filter (fun x => (decide (x.src = .bus) || decide (x.src = .rowBeat)) && decide (t + x.off ≤ due))).length

/-- How many cycles a word holds the issue slot of a function unit (R134, R146). -/
def slotCycles (w : Word64) : Nat :=
  if 0x10 ≤ opcode w ∧ opcode w ≤ 0x1C then duration w else if opcode w = 0x09 then max 1 (wf w 42 16) else 1

/-- The rows that words of unit f take which issue from word pc, cycle t, on by a cycle; `fuel` words are looked at. -/
def comingTakes (s : State) (f due : Nat) : Nat → Nat → Nat → Nat
  | _, _, 0 => 0
  | pc, t, fuel + 1 =>
    if t ≤ due ∧ 1 ≤ pc ∧ pc < period s (.fn (Fin.ofNat 1024 f)) then
      let w := (s.fun_ f).tt.word pc
      (if 0x10 ≤ opcode w ∧ opcode w ≤ 0x1C then busTakes (takePlan w) t due else 0) + comingTakes s f due (pc + 1) (t + slotCycles w) fuel
    else 0

/-- How many rows unit f takes from its sum-bus buffer by a cycle, with the word at work and those that issue until then (R152). -/
def busTakesBy (s : State) (f due : Nat) : Nat :=
  let u := s.fun_ f
  let now := match u.op with
    | some o => busTakes ((takePlan o.w).drop o.next) (o.at_ + o.slip) due
    | none => 0
  match u.play.wait with
  | .none => now + comingTakes s f due u.play.pc u.play.at_ 8
  | .hold t => comingTakes s f due (u.play.pc + 1) t 8
  | _ => 0

/-- The bus cycle is taken, or the buffer of the function unit addressed would be full at it (R129, 06 R152). -/
def busTaken (s : State) (k dest due : Nat) : Bool :=
  let c := s.cluster k
  let f := 2 * k + (dest - 8)
  c.bus.any (fun r => decide (r.due = due)) ||
    (decide (dest = 8 ∨ dest = 9) &&
      decide (4 + busTakesBy s f due ≤ (s.fun_ f).buf.length + (c.bus.filter (fun r => decide (r.dest = dest) && decide (r.due < due))).length))

/-- The claim that a REDUCE at work has on a bus cycle. -/
def reduceClaim (s : State) (f : Nat) : Option Nat :=
  match (s.fun_ f).op with
  | some o => if opcode o.w = 0x16 ∧ wDst o.w = 16 then some (o.at_ + latency o.w + o.slip) else none
  | none => none

/-- The bus cycle is taken, by a row on its way or by a REDUCE at work (05 R129). -/
def busClaimed (s : State) (k dest due : Nat) : Bool :=
  busTaken s k dest due || decide (reduceClaim s (2 * k) = some due) || decide (reduceClaim s (2 * k + 1) = some due)

/-- The first cycle from `t` on at which a row to `dest` may issue, `fuel` tried. -/
def freeBusCycle (s : State) (k dest lat : Nat) : Nat → Nat → Nat
  | t, 0 => t
  | t, fuel + 1 => if busClaimed s k dest (t + lat) then freeBusCycle s k dest lat (t + 1) fuel else t

/-- The first cycle from `t` on in which the output port is free, `fuel` tried. -/
def freeOutCycle (busy : List Nat) : Nat → Nat → Nat
  | t, 0 => t
  | t, fuel + 1 => if busy.contains t then freeOutCycle busy (t + 1) fuel else t

/-- Output beat j of a word leaves by the output port (R153). In staged mode a beat that its word's wait for a source has moved onto a taken cycle
leaves in the next free one, and the cycles between count as BLOCKED. A beat for which the writer holds no credit leaves when one comes back
(07 R173). -/
def pushBeat (f : Nat) (o : FunOp) (s0 : State) (p : Nat × Beat) : State :=
  let planned := o.at_ + latency o.w + o.slip + p.1
  match outQueue f o.w with
  | none => s0
  | some q =>
    let u := s0.fun_ f
    let due := if s0.stagedImage then freeOutCycle u.outBusy planned u.outBusy.length else planned
    let s := if planned < due then s0.bump (fBlocked (.fn (Fin.ofNat 1024 f))) (due - planned) else s0
    let b := badIf p.2 u.poisoned
    let s1 := s.setFun f { u with outBusy := due :: u.outBusy }
    if u.outBusy.contains due then hazard (s.bump (fOutPort f)) 4 (funWho s f) (qObject q) due
    else if maySend s1 q then sendArrival (spendCredit s1 q) (f / 2) q due (f % 2) b
    else noteWait (s1.setQueue q { s1.queue q with delayed := (s1.queue q).delayed ++ [(due, b)] }) q due

def funIn (s : State) (f : Nat) (o : FunOp) : FIn :=
  { w := o.w, store := (s.cluster (f / 2)).store, menu := o.menu, a := o.a, b := o.b, free := s.freeNext }

/-- The index beats that a GATHER is still to take and that are in its queue, or on their way to it, already. -/
def indexAhead (s : State) (f : Nat) (o : FunOp) : List TakenItem :=
  let q : QueueId := .bank (Fin.ofNat 512 (f / 2)) (Fin.ofNat 16 (wSrc2 o.w))
  let coming := ((s.cluster (f / 2)).arrivals.filter (fun a => decide (a.q = q))).map (·.beat)
  if opcode o.w = 0x1A ∧ wSrc2 o.w < 16 then (((s.queue q).beats ++ coming).take ((takePlan o.w).length - o.next)).map .beat else []

/-- The beats a streaming word can send now. ACT and PIN send those of the input taken so far. GATHER sends a beat when it becomes readable, three
index beats after its own, or when the word takes no more or is about to wait (`flush`): it then carries the marks of everything that has been read
and of what is in the index queue already, since a beat that leaves cannot carry those of beats that come later (R144, R151,
notes/assumptions/69.md). -/
def streamNow (s : State) (f : Nat) (o : FunOp) (flush : Bool) : State :=
  let out := operate (funIn s f { o with b := o.b ++ indexAhead s f o })
  let have_ := if opcode o.w = 0x1A then (if flush || decide ((takePlan o.w).length ≤ o.next) then o.b.length else max o.formed (o.b.length - 3))
    else o.a.length
  let new := (List.range have_).drop o.formed
  let s1 := new.foldl (fun t j => pushBeat f o t (j, { out.beats.getD j zeroBeat with last := decide (j + 1 = outBeats o.w) })) s
  s1.setFun f { s1.fun_ f with op := some { o with formed := have_ } }

/-- A contribution is formed at b + 2 and reaches its assembler 24 cycles later (R158). -/
def contribute (s : State) (f : Nat) (o : FunOp) (out : FOut) : State :=
  match out.trigger with
  | none => s
  | some (bs, mask, feature) =>
    let c : Contribution :=
      { va := wBdest o.w % 4, bits := BitVec.ofNat 32 bs, mask := BitVec.ofNat 32 mask, cid := wEout o.w, tag := firstTag (funIn s f o)
        bad := out.bad || (s.fun_ f).poisoned, late := anyLate (funIn s f o), feature := feature
        due := o.at_ + latency o.w + o.slip + 24 }
    { s with contribs := s.contribs ++ [c] }

/-- The sum-bus row of a REDUCE (R153): SRC 0, ranked after the units. In staged mode it takes the first free bus cycle, as its word waits at issue
for one (R129). -/
def placeReduce (s : State) (f : Nat) (o : FunOp) (out : FOut) : State :=
  match out.row with
  | none => s
  | some r =>
    let u := s.fun_ f
    let planned := o.at_ + latency o.w + o.slip
    let idle := s.setFun f { u with op := none }
    let due := if s.stagedImage then freeBusCycle idle (f / 2) (wBdest o.w) 0 planned 256 else planned
    placeRow (if planned < due then s.bump (fBlocked (.fn (Fin.ofNat 1024 f))) (due - planned) else s) (f / 2) { r with
      bad := r.bad || u.poisoned, src := 0, dest := wBdest o.w, sender := 8 + f % 2, due := due, pc := (funWho s f).pc }

/-- The last take of a word is made: the rest of its output and its counts (R144, R149, R151, R154). -/
def finishOp (s : State) (f : Nat) (o : FunOp) : State :=
  let out := operate (funIn s f o)
  let s1 := if streams o.w then s else
    ((List.range out.beats.length).zip out.beats).foldl (pushBeat f o) s
  let s2 := placeReduce (contribute s1 f o out) f o out
  let s3 := ((s2.bump (fRange f) out.range).bump (fFunSat f) out.sat).bump (fTblUe f) out.tblUe
  { s3.setFun f { s3.fun_ f with op := none } with freeNext := s3.freeNext + 2048 }

/-! ### Takes -/

/-- What is due at a source before a take at cycle c (R152, 07 R170). -/
def readySource (s : State) (f : Nat) (src : Src) (c : Nat) : State :=
  match src with
  | .queue q => settleQueue s (.bank (Fin.ofNat 512 (f / 2)) (Fin.ofNat 16 q)) c
  | .open_ => s
  | _ =>
    let s1 := settleBus s (f / 2) (c - 1)
    if decide ((s1.fun_ f).buf.length < 4) then settleBusAt s1 (f / 2) c [8 + f % 2] else s1

/-- A word of unit f that has not issued yet, from word pc, cycle t, on, takes from queue q of its cluster in cycle c; `fuel` words are looked at. -/
def comingReads (s : State) (f q c : Nat) : Nat → Nat → Nat → Bool
  | _, _, 0 => false
  | pc, t, fuel + 1 =>
    if t ≤ c ∧ 1 ≤ pc ∧ pc < period s (.fn (Fin.ofNat 1024 f)) then
      let w := (s.fun_ f).tt.word pc
      (decide (0x10 ≤ opcode w ∧ opcode w ≤ 0x1C) && (takePlan w).any (fun x => decide (x.src = .queue q) && decide (t + x.off = c))) ||
        comingReads s f q c (pc + 1) (t + slotCycles w) fuel
    else false

/-- Unit f reads queue q of its cluster in cycle c by a word whose command is still to come: it ranks by R178, not by that command's place. -/
def readsSoon (s : State) (f q c : Nat) : Bool :=
  let p := (s.fun_ f).play
  plays s (.fn (Fin.ofNat 1024 f)) && (match p.wait with
    | .none => comingReads s f q c p.pc p.at_ 512
    | .hold t => comingReads s f q c (p.pc + 1) t 512
    | _ => false)

/-- The source has an item. -/
def hasItem (s : State) (f : Nat) (src : Src) : Bool :=
  match src with
  | .queue q => qReady s (.bank (Fin.ofNat 512 (f / 2)) (Fin.ofNat 16 q))
  | .open_ => true
  | _ => !(s.fun_ f).buf.isEmpty

/-- A beat whose mantissas and exponent are stated nowhere, with the tag and marks of a row: for a source code that names nothing those of the last
row taken, and such a source is never empty (the model's choice, notes/assumptions/24.md). -/
def openBeat (n : Nat) (r : BusRow) : Beat :=
  ⟨Config.freeValue 192 n, Config.freeValue 6 n, r.tag, r.bad, r.late, false, false⟩

/-- One item is taken at cycle c; an empty source gives its last value and counts (R145). -/
def takeItem (s : State) (f : Nat) (src : Src) (c : Nat) : TakenItem × State :=
  let a : Agent := .fn (Fin.ofNat 1024 f)
  match src with
  | .queue q =>
    let r := readRanked s (.bank (Fin.ofNat 512 (f / 2)) (Fin.ofNat 16 q)) (decide (f % 2 = 1) && readsSoon s (f - 1) q c) (funWho s f) c
    (.beat r.1, if r.2.1 then r.2.2 else r.2.2.bump (fStarved a))
  | .open_ => (.beat (openBeat s.freeNext (s.fun_ f).lastRow), s.drawn)
  | _ =>
    let u := s.fun_ f
    let p := match u.buf with
      | r :: rest => (r, settleBusAt (s.setFun f { u with buf := rest, lastRow := r }) (f / 2) c [8 + f % 2])
      | [] => (u.lastRow, hazard (s.bump (fStarved a)) 1 (funWho s f) 16 c)
    if src = .rowBeat then (.beat (openBeat p.2.freeNext p.1), p.2.drawn) else (.row p.1, p.2)

/-- The word at work, its next take and the cycle of it, unless it waits. -/
def nextTake (s : State) (f : Nat) : Option (FunOp × Take × Nat) :=
  let u := s.fun_ f
  match u.op with
  | none => none
  | some o => if u.play.wait ≠ .none then none else
    match (takePlan o.w)[o.next]? with
    | some t => some (o, t, o.at_ + o.slip + t.off)
    | none => none

/-- The OBJECT that a hazard record names a source by (09 R241). -/
def srcObject (src : Src) : Nat :=
  match src with
  | .queue q => q
  | _ => 16

/-- One take of unit f at its cycle: in staged mode the word waits when its source is empty (R145), which the hazard detector sees (09 R240). -/
def takeStep (s : State) (f : Nat) (o : FunOp) (t : Take) (c : Nat) : State :=
  let s1 := readySource s f t.src c
  if s1.stagedImage && !hasItem s1 f t.src then
    let s2 := hazard (if streams o.w then streamNow s1 f o true else s1) 1 (funWho s1 f) (srcObject t.src) c
    s2.setFun f { s2.fun_ f with play := { (s2.fun_ f).play with wait := .source c } }
  else
    let r := takeItem s1 f t.src c
    let o1 := { o with
      next := o.next + 1
      a := if t.second then o.a else o.a ++ [r.1]
      b := if t.second then o.b ++ [r.1] else o.b }
    let s2 := r.2.setFun f { r.2.fun_ f with op := some o1 }
    let s3 := if streams o.w then streamNow s2 f o1 false else s2
    if o1.next < (takePlan o.w).length then s3
    else match (s3.fun_ f).op with
      | some o2 => finishOp s3 f o2
      | none => s3

/-- The takes of the two units of cluster k, in the order of their cycles, up to a cycle. -/
def runTakes (s : State) (k bound : Nat) : Nat → State
  | 0 => s
  | fuel + 1 =>
    let go (f : Nat) (x : FunOp × Take × Nat) := if x.2.2 ≤ bound then runTakes (takeStep s f x.1 x.2.1 x.2.2) k bound fuel else s
    match nextTake s (2 * k), nextTake s (2 * k + 1) with
    | none, none => s
    | some x, none => go (2 * k) x
    | none, some y => go (2 * k + 1) y
    | some x, some y => if x.2.2 ≤ y.2.2 then go (2 * k) x else go (2 * k + 1) y

/-- How many takes the two units of cluster k have to make. -/
def takesLeft (s : State) (k : Nat) : Nat :=
  let n (f : Nat) := match (s.fun_ f).op with
    | some o => (takePlan o.w).length - o.next
    | none => 0
  n (2 * k) + n (2 * k + 1)

/-- Function units of cluster k up to a cycle. -/
def settleFuns (s : State) (k bound : Nat) : State := runTakes s k bound (takesLeft s k)

/-- Everything of cluster k that is due by a cycle: takes, arrivals, bus rows but those that a dot unit may still take in it. -/
def settleAll (s : State) (k bound : Nat) : State :=
  settleBusAt (settleCluster (settleFuns s k bound) k bound) k bound [8, 9]

end Sys2Proof.Machine
end

