-- ==== Sys2Proof/Machine/Steering.lean ====
section
/-!
DEFINITION. Machine/Steering.lean: the steering unit of a cluster (06_function_and_steering.md R155 to R157, R163). Each command of an
operation applies one beat, at most one a cycle.
-/
namespace Sys2Proof.Machine

def fSteOp (k : Nat) : Fld := ⟨steBase k, 0, 3⟩
def fSteNin (k : Nat) : Fld := ⟨steBase k, 3, 2⟩
def fSteNout (k : Nat) : Fld := ⟨steBase k, 5, 2⟩
def fSteTokq (k : Nat) : Fld := ⟨steBase k, 8, 4⟩
def fSteCntq (k : Nat) : Fld := ⟨steBase k, 12, 4⟩
def fSteSlots (k : Nat) : Fld := ⟨steBase k, 16, 6⟩
def fSteZbeats (k : Nat) : Fld := ⟨steBase k, 22, 3⟩
def fSteEnable (k : Nat) : Fld := ⟨steBase k, 31, 1⟩
def fSteOut (k j : Nat) : Fld := ⟨steBase k + 4, 4 * j, 4⟩
def fSteTagErr (k : Nat) : Fld := ⟨steBase k + 0xC, 0, 16⟩
def fSteDiscard (k : Nat) : Fld := ⟨steBase k + 0xC, 16, 16⟩

def steerIn (k i : Nat) : QueueId := .steer (Fin.ofNat 512 k) (Fin.ofNat 4 i)
def bankQ (k q : Nat) : QueueId := .bank (Fin.ofNat 512 k) (Fin.ofNat 16 q)

def State.steer (s : State) (k : Nat) : Steer := (s.cluster k).steer
def State.setSteer (s : State) (k : Nat) (v : Steer) : State := s.setCluster k { s.cluster k with steer := v }

/-- The steering unit plays: enabled, with the array clock running. -/
def steers (s : State) (k : Nat) : Bool := s.runs && s.is (fSteEnable k)

/-- The cycle at which the unit next acts. -/
def steerCycle (s : State) (k : Nat) : Nat := max s.clock.now (s.steer k).busy

/-- Everything due in the cluster before the steering unit acts in cycle t. -/
def steerReady (s : State) (k t : Nat) : State := settleCluster (settleFuns s k t) k t

/-- The queue holds a beat in cycle t before this cycle's reads of the function units, which come first in the order of R178. -/
def heldBefore (s : State) (k : Nat) (q : QueueId) (t : Nat) : Bool :=
  qReady (settleCluster (settleFuns s k (t - 1)) k t) q || decide ((s.queue q).gotCycle = t + 1)

/-- A function unit of the cluster reads the queue in cycle t by a word whose command is still to come (07 R178). -/
def funReadsSoon (s : State) (k q t : Nat) : Bool := readsSoon s (2 * k) q t || readsSoon s (2 * k + 1) q t

/-- Of the readers of a queue of the bank, a function unit or the token register reads it in cycle t by a command still to come: a logic block or an
injection comes after them (07 R178). -/
def readBefore (s : State) (k q t : Nat) : Bool :=
  funReadsSoon s k q t || (steers s k && decide (2 ≤ s.fld (fSteOp k)) && decide (s.fld (fSteTokq k) = q) && (s.steer k).token.isNone &&
    decide ((s.steer k).busy ≤ t) && qReady s (bankQ k q) && decide ((s.queue (bankQ k q)).readCycle ≠ t + 1))

/-- The new map applies (R155): the token register is cleared. SPLIT's row count, its tag and the slot of PACK and UNPACK begin again with it (the
model's choice, notes/assumptions/26.md). -/
def takeMap (s : State) (k : Nat) (m0 m1 : Word32) : State :=
  let v := s.steer k
  ((s.setRaw (steBase k) m0).setRaw (steBase k + 4) m1).setSteer k { v with
    token := none
    jobs := []
    splitCount := 0
    splitTag := none
    slot := 0
    packed := 0
    nextMap := none
    waitSince := none }

/-- A steering map commits: at once, or when the row in progress has been applied (R155). -/
def commitMap (s : State) (k : Nat) (m0 m1 : Word32) : State :=
  let v := s.steer k
  if v.jobs.isEmpty then takeMap s k m0 m1 else s.setSteer k { v with nextMap := some (m0, m1) }

/-- TOKEN_LOAD: the token at the head of TOKQ enters the empty register, and is usable from the next cycle (R157). A load that comes
after a function unit's read of that cycle loads nothing (07 R178). -/
def execTokenLoad (k : ClusterIx) (s : State) : Res :=
  let t := steerCycle s k.val
  let s1 := steerReady (s.at t) k.val t
  let q := bankQ k.val (s.fld (fSteTokq k.val))
  if steers s k.val && decide (2 ≤ s.fld (fSteOp k.val)) && (s.steer k.val).token.isNone && heldBefore (s.at t) k.val q t then
    let r := readRanked s1 q (funReadsSoon s1 k.val (s.fld (fSteTokq k.val)) t) ⟨k.val, 10, 0⟩ t
    if r.2.1 then .next (r.2.2.setSteer k.val { r.2.2.steer k.val with token := some r.1, lastToken := r.1, busy := t + 1 })
    else .next r.2.2
  else .next s

/-! ### Rows -/

/-- Slots of PACK and UNPACK. -/
def slotCount (s : State) (k : Nat) : Nat := if s.fld (fSteSlots k) = 0 then 64 else s.fld (fSteSlots k)

def tokenValue (b : Beat) : Nat := bits b.mant.toNat 0 12

/-- Mask bit i of a token: bit i mod 12 of lane i div 12 (06, "Steering units"). -/
def tokenMask (b : Beat) (i : Nat) : Bool := b.mant.getLsbD (12 * (i / 12) + i % 12)

/-- The head beat of an input. -/
def headOf (s : State) (k i : Nat) : Beat := (s.queue (steerIn k i)).beats.headD zeroBeat

/-- A row of input i governed by a token begins (R157): a different tag marks it bad and is counted. -/
def tokenRow (s : State) (k i : Nat) (tok : Beat) (out : Option Nat) : State :=
  let wrong := decide ((headOf s k i).tag ≠ tok.tag)
  let s1 := if wrong then s.bump (fSteTagErr k) else s
  let v := s1.steer k
  s1.setSteer k { v with jobs := v.jobs ++ [⟨some i, out, wrong || tok.bad, tok.late, 0⟩] }

def inputsReady (s : State) (k n : Nat) : Bool := (List.range n).all (fun i => qReady s (steerIn k i))

/-- MERGE begins the row whose first beat reached its head first, lower inputs first (R156). -/
def startMerge (s : State) (k : Nat) : State :=
  let v := s.steer k
  let ready := (List.range (s.fld (fSteNin k) + 1)).filter (fun i => qReady s (steerIn k i))
  let best := ready.foldl (fun (b : Option Nat) i => match b with
    | none => some i
    | some j => if v.headAt.getD i 0 < v.headAt.getD j 0 then some i else some j) none
  match best with
  | none => s
  | some i => s.setSteer k { v with jobs := [⟨some i, some (s.fld (fSteOut k 0)), false, false, 0⟩] }

/-- SPLIT begins row j of input 0, j from 0 again at a new tag (R156). -/
def startSplit (s : State) (k : Nat) : State :=
  if qReady s (steerIn k 0) then
    let v := s.steer k
    let tag := (headOf s k 0).tag
    let j := if v.splitTag = some tag then v.splitCount else 0
    let out := s.fld (fSteOut k (j % (s.fld (fSteNout k) + 1)))
    s.setSteer k { v with jobs := [⟨some 0, some out, false, false, 0⟩], splitCount := j + 1, splitTag := some tag }
  else s

/-- SELECT takes the head row of every input (R156). DISCARD counts a value beyond NIN once for its token (the model's choice,
notes/assumptions/26.md). -/
def startSelect (s : State) (k : Nat) (tok : Beat) : State :=
  let n := s.fld (fSteNin k) + 1
  if inputsReady s k n then
    let s1 := if n ≤ tokenValue tok then s.bump (fSteDiscard k) else s
    (List.range n).foldl (fun x i => tokenRow x k i tok (if i = tokenValue tok then some (s.fld (fSteOut k 0)) else none)) s1
  else s

/-- ROUTE (R156). -/
def startRoute (s : State) (k : Nat) (tok : Beat) : State :=
  if inputsReady s k 1 then
    if tokenValue tok ≤ s.fld (fSteNout k) then tokenRow s k 0 tok (some (s.fld (fSteOut k (tokenValue tok))))
    else tokenRow (s.bump (fSteDiscard k)) k 0 tok none
  else s

/-- MASK (R156). -/
def startMask (s : State) (k : Nat) (tok : Beat) : State :=
  if inputsReady s k 1 then tokenRow s k 0 tok (if tokenValue tok % 2 = 1 then some (s.fld (fSteOut k 0)) else none) else s

/-- A slot of PACK (R156). -/
def startPack (s : State) (k : Nat) (tok : Beat) : State :=
  if inputsReady s k 1 then
    tokenRow s k 0 tok (if tokenMask tok (s.steer k).slot then some (s.fld (fSteOut k 0)) else none)
  else s

/-- A slot of UNPACK (R156). A zero row carries the marks of a marked token (R157; the model's choice, notes/assumptions/26.md). -/
def startUnpack (s : State) (k : Nat) (tok : Beat) : State :=
  let v := s.steer k
  let out := some (s.fld (fSteOut k 0))
  if tokenMask tok v.slot then (if inputsReady s k 1 then tokenRow s k 0 tok out else s)
  else s.setSteer k { v with jobs := [⟨none, out, tok.bad, tok.late, s.fld (fSteZbeats k) + 1⟩] }

/-! ### One beat -/

/-- The beat a job applies next, and whether it is its last. -/
def jobBeat (s : State) (k : Nat) (j : SteerJob) : Option (Beat × Bool) :=
  match j.inp with
  | some i => if qReady s (steerIn k i) then some (headOf s k i, (headOf s k i).last) else none
  | none =>
    let z := s.fld (fSteZbeats k) + 1
    let tag := match (s.steer k).token with
      | some t => t.tag
      | none => 0
    some ({ zeroBeat with tag := tag, first := decide (j.left = z), last := decide (j.left = 1) }, decide (j.left = 1))

/-- The last slot's last beat is applied: PACK writes its count token (R156). Its exponent is stated nowhere (notes/assumptions/3.md); its marks are
the token's, and it is a row of one beat (the model's choice, notes/assumptions/26.md). -/
def countToken (s : State) (tok : Beat) (n : Nat) : Beat :=
  ⟨BitVec.ofNat 192 n, Config.freeValue 6 s.freeNext, tok.tag, tok.bad, tok.late, true, true⟩

/-- The row just applied ends: the slot moves on, the token retires, a map that waited applies (R155, R156). -/
def endRow (s : State) (k : Nat) (forwarded : Bool) (t : Nat) : State :=
  let v := s.steer k
  let op := s.fld (fSteOp k)
  let done := v.jobs.isEmpty
  let slots := decide (op = 5 ∨ op = 6)
  let v1 := if slots then { v with slot := v.slot + 1, packed := v.packed + bit forwarded } else v
  let slotsOver := slots && decide (slotCount s k ≤ v1.slot)
  let s1 := match op, slotsOver, v.token with
    | 5, true, some tok =>
      let q := bankQ k (s.fld (fSteCntq k))
      sendArrival (spendCredit s.drawn q) k q (t + 2) 2 (countToken s tok v1.packed)
    | _, _, _ => s
  let retire := decide (2 ≤ op) && done && (!slots || slotsOver)
  let v2 := if retire then { v1 with token := none, slot := 0, packed := 0 } else v1
  let s2 := s1.setSteer k v2
  match v2.nextMap, done with
  | some (m0, m1), true => takeMap s2 k m0 m1
  | _, _ => s2

/-- The queues that the next beat of a job needs credit for: its output, and CNTQ at the end of PACK. -/
def jobQueues (s : State) (k : Nat) (j : SteerJob) (last : Bool) : List QueueId :=
  let v := s.steer k
  let out := match j.out with
    | some o => [bankQ k o]
    | none => []
  if decide (s.fld (fSteOp k) = 5) && last && decide (slotCount s k ≤ v.slot + 1) then out ++ [bankQ k (s.fld (fSteCntq k))] else out

/-- The cycles up to t that a beat has waited for credit count in the queue that lacks it (07 R173). -/
def chargeSteer (s : State) (k t : Nat) : State :=
  let v := s.steer k
  match v.waitSince with
  | some c => (s.bump (fQBlocked (bankQ k v.waitFor)) (t - c)).setSteer k { v with waitSince := some (max c t) }
  | none => s

/-- The first row begun applies one beat in cycle t; without credit to its output it waits, and each cycle is counted (07 R173). -/
def applyBeat (s : State) (k t : Nat) : State :=
  let v := s.steer k
  match v.jobs with
  | [] => s
  | j :: rest =>
    match jobBeat s k j with
    | none => s
    | some (b, last) =>
      let qs := jobQueues s k j last
      let s0 := chargeSteer s k t
      match qs.find? (fun q => !maySend s q) with
      | some q => s0.setSteer k { v with waitSince := some t, waitFor := qObject q }
      | none =>
        let s1 := match j.inp with
          | some i => (readAt s0 (steerIn k i) true ⟨k, 10, 0⟩ t).2.2
          | none => s0
        let b' : Beat := { b with bad := b.bad || j.bad, late := b.late || j.late }
        let s2 := match j.out with
          | some o => sendArrival (spendCredit s1 (bankQ k o)) k (bankQ k o) (t + 2) 2 b'
          | none => s1
        let w := s2.steer k
        let jobs := if last then rest else { j with left := j.left - 1 } :: rest
        let headAt := match j.inp with
          | some i => w.headAt.set i (t + 1)
          | none => w.headAt
        let s3 := (s2.at t).setSteer k { w with jobs := jobs, headAt := headAt, busy := t + 1, waitSince := none }
        if last then endRow s3 k j.out.isSome t else s3

/-- One beat of operation `op` in the next cycle of the unit: the row in progress goes on, or a new one begins with `start`. -/
def steerBeat (op k : Nat) (start : State → State) (s : State) : State :=
  let t := steerCycle s k
  if steers s k && decide (s.fld (fSteOp k) = op) then
    let s1 := steerReady (s.at t) k t
    let s2 := if (s1.steer k).jobs.isEmpty then start s1 else s1
    if (s2.steer k).jobs.isEmpty then s else applyBeat s2 k t
  else s

/-- The same for an operation that a token governs: with an empty register the data waits (R157). -/
def steerToken (op k : Nat) (start : State → Beat → State) (s : State) : State :=
  match (s.steer k).token with
  | none => s
  | some tok => steerBeat op k (fun x => start x tok) s

/-- MERGE (R156). -/
def execMerge (k : ClusterIx) (s : State) : Res := .next (steerBeat 0 k.val (fun x => startMerge x k.val) s)

/-- SPLIT (R156). -/
def execSplitRows (k : ClusterIx) (s : State) : Res := .next (steerBeat 1 k.val (fun x => startSplit x k.val) s)

/-- SELECT (R156). -/
def execSelect (k : ClusterIx) (s : State) : Res := .next (steerToken 2 k.val (fun x tok => startSelect x k.val tok) s)

/-- ROUTE (R156). -/
def execRoute (k : ClusterIx) (s : State) : Res := .next (steerToken 3 k.val (fun x tok => startRoute x k.val tok) s)

/-- MASK (R156). -/
def execMask (k : ClusterIx) (s : State) : Res := .next (steerToken 4 k.val (fun x tok => startMask x k.val tok) s)

/-- PACK (R156). -/
def execPack (k : ClusterIx) (s : State) : Res := .next (steerToken 5 k.val (fun x tok => startPack x k.val tok) s)

/-- UNPACK (R156). -/
def execUnpack (k : ClusterIx) (s : State) : Res := .next (steerToken 6 k.val (fun x tok => startUnpack x k.val tok) s)

/-- The steering unit of cluster k waits for credit to this queue. -/
def steerWaits (s : State) (q : QueueId) : Bool :=
  let k := qCluster q
  match (s.steer k).waitSince, (s.steer k).jobs with
  | some _, j :: _ => match jobBeat s k j with
    | some (_, last) => (jobQueues s k j last).contains q
    | none => false
  | _, _ => false

end Sys2Proof.Machine
end

