-- ==== Sys2Proof/Machine/Cells.lean ====
section
/-!
DEFINITION. Machine/Cells.lean: what a logic block computes: cells, wires, logic clock trees, the edge of the block, and the GPIO pads
(08_logic_fabric.md R192 to R203, R208). Which net a select takes is the Aelael device model's (notes/assumptions/15.md).
-/
namespace Sys2Proof.Machine

def logPortsLo (k : Nat) : Fld := ⟨logBase k + 0x14, 0, 32⟩
def logPortsHi (k : Nat) : Fld := ⟨logBase k + 0x18, 0, 32⟩
/-- LOG_CFG_STATUS.STATE: 0 unconfigured, 1 configuring, 2 configured, 3 done. -/
def fLogState (k : Nat) : Fld := ⟨logBase k + 4, 0, 2⟩

def State.logic (s : State) (k : Nat) : Logic := (s.cluster k).logic
def State.setLogic (s : State) (k : Nat) (v : Logic) : State := s.setCluster k { s.cluster k with logic := v }

/-- The port-binding word of a block. -/
def binding (s : State) (k : Nat) : Word64 := BitVec.ofNat 64 (s.fld (logPortsLo k) + 2 ^ 32 * s.fld (logPortsHi k))

/-- Boundary port j of a block (LR0 to LR3, LW0 to LW3) is enabled (R206). -/
def portEnabled (w : Word64) (j : Nat) : Bool := if j < 4 then w.getLsbD (16 + j) else w.getLsbD (44 + (j - 4))

/-- The queue that write port j of a block feeds (R206). -/
def writeTarget (s : State) (k j : Nat) : Option QueueId :=
  let w := binding s k
  let t := bits w.toNat (24 + 5 * j) 5
  if w.getLsbD (44 + j) then (if t < 16 then some (bankQ k t) else if t < 20 then some (steerIn k (t - 16)) else none) else none

/-- The queue that read port j of a block reads (R206). -/
def readTarget (s : State) (k j : Nat) : Option QueueId :=
  let w := binding s k
  if w.getLsbD (16 + j) then some (bankQ k (bits w.toNat (4 * j) 4)) else none

/-! ### Cells (R192, R193) -/

/-- A cell's two table outputs for its inputs i0 to i5 (R192). -/
def cellTable (table ctl : Word64) (i : BitVec 6) : Bool × Bool :=
  if ctl.getLsbD 0 then (table.getLsbD (i.toNat % 32), table.getLsbD (32 + i.toNat % 32))
  else (table.getLsbD i.toNat, table.getLsbD i.toNat)

/-- What one flip-flop of a cell loads at a clock edge: its initial value under SR, nothing without CE, else the table output (R192). -/
def flopNext (ctl : Word64) (b : Bool) (old d ce sr : Bool) : Bool :=
  let init := ctl.getLsbD (if b then 4 else 3)
  if ctl.getLsbD 8 && sr then init else if ctl.getLsbD 7 && !ce then old else d

/-- The flip-flops at their initial values as configured so far (R208): flip-flop A of cell c at 2c, B at 2c + 1. -/
def initFlops (cells : Store) : SMap Bool :=
  cells.words.flatMap (fun e =>
    if e.1 % 2 = 1 then (if e.2.getLsbD 3 then [(e.1 - 1, true)] else []) ++ (if e.2.getLsbD 4 then [(e.1, true)] else []) else [])

/-- The flip-flops are held, or start, at their initial values (R208, R209). -/
def holdFlops (v : Logic) : Logic := { v with flops := initFlops v.cells }

/-- The lengths and first rows of the runs of COMBINE cells in a column of 64 control words. -/
def combineRuns : List Bool → Nat → Nat → List (Nat × Nat)
  | [], row, n => if n = 0 then [] else [(row - n, n)]
  | b :: r, row, n => if b then combineRuns r (row + 1) (n + 1) else (if n = 0 then [] else [(row - n, n)]) ++ combineRuns r (row + 1) 0

/-- A run of COMBINE cells is a wide multiplexer (R193). -/
def runFits (p : Nat × Nat) : Bool := decide (p.2 ∈ [2, 4, 8, 16]) && decide (p.1 % p.2 = 0)

/-- The control word of the cell at (col, row). -/
def cellCtl (v : Logic) (col row : Nat) : Word64 := v.cells.acts (128 * col + 2 * row + 1)

/-- The first row and the length of the wide multiplexer whose result appears at the cell, where it is the last of one. -/
def combinedAt (v : Logic) (col row : Nat) : Option (Nat × Nat) :=
  if (cellCtl v col row).getLsbD 9 then
    (combineRuns ((List.range 64).map (fun r => (cellCtl v col r).getLsbD 9)) 0 0).find? (fun p => runFits p && decide (p.1 + p.2 = row + 1))
  else none

/-! ### Length-12 wires (R194, R195) -/

/-- The enable of the length-12 driver of the switch box at (col, row). -/
def driverOn (routing : Store) (vert : Bool) (col row : Nat) : Bool :=
  (routing.acts (128 * col + 2 * row)).getLsbD (if vert then 49 else 42)

/-- The other end of the wire that a switch box drives; none where the wire ends at no other box. -/
def otherEnd (vert : Bool) (i : Nat) : Option Nat :=
  let j := (Config.wireEnd vert i).toNat
  if j ≠ i ∧ (Config.wireEnd vert j).toNat = i ∧ j < (if vert then 64 else 96) then some j else none

/-- A wire by its west or north end: 128 × column + 2 × row + 1 where it is vertical. -/
def wireAt (vert : Bool) (col row : Nat) : Nat := 128 * col + 2 * row + bit vert

/-- The box at the other end of the wire that the box at (col, row) drives. -/
def farBox (vert : Bool) (col row : Nat) : Option (Nat × Nat) :=
  (otherEnd vert (if vert then row else col)).map (fun j => if vert then (col, j) else (j, row))

/-- The wire that the box at (col, row) drives. -/
def wireOf (vert : Bool) (col row : Nat) : Nat :=
  match farBox vert col row with
  | some b => wireAt vert (min col b.1) (min row b.2)
  | none => wireAt vert col row

/-- The box whose driver drives the wire that ends at (col, row): none where the contention guard has switched both off, or neither is enabled. -/
def drivingBox (v : Logic) (vert : Bool) (col row : Nat) : Option (Nat × Nat) :=
  if v.contended.contains (wireOf vert col row) then none
  else if driverOn v.routing vert col row then some (col, row)
  else (farBox vert col row).filter (fun b => driverOn v.routing vert b.1 b.2)

/-! ### Values (R192 to R195) -/

/-- The select of a multiplexer of the position (col, row), numbered as for `Config.candidate` (R206). -/
def muxSelect (v : Logic) (m col row : Nat) : Nat :=
  let box := (v.routing.acts (128 * col + 2 * row)).toNat
  if m < 6 then bits box (6 * m) 6
  else if m = 6 then bits box 36 6
  else if m = 7 then bits box 43 6
  else bits (v.routing.acts (128 * col + 2 * row + 1)).toNat (6 * (m - 8)) 6

/-- The value of a net: candidate 0 is constant 0, a contended wire reads 0, and an output of a cell is its flip-flop where that is enabled
(R192 to R195). `inp` gives the inputs of the block. A net past `fuel` steps depends on itself. -/
def netValue (v : Logic) (inp : Nat → Bool) : Nat → Config.Net → Bool
  | 0, n => Config.looped n
  | fuel + 1, n =>
    let mux (m col row : Nat) : Bool :=
      let sel := muxSelect v m col row
      decide (sel ≠ 0) && netValue v inp fuel (Config.candidate m col row sel)
    let table (col row : Nat) : Bool × Bool :=
      cellTable (v.cells.acts (128 * col + 2 * row)) (cellCtl v col row)
        (BitVec.ofNat 6 ((List.range 6).foldl (fun a i => a + 2 ^ i * bit (mux (8 + i) col row)) 0))
    match n with
    | .zero => false
    | .input i => inp i
    | .wire d col row =>
      if d < 6 then mux d col row
      else
        let vert := decide (d = 7)
        if v.contended.contains (wireOf vert col row) then false
        else match drivingBox v vert col row with
          | some b => mux d b.1 b.2
          | none => Config.undriven vert col row
    | .cell col row b =>
      if (cellCtl v col row).getLsbD (if b then 2 else 1) then mget false v.flops (2 * (64 * col + row) + bit b)
      else netValue v inp fuel (.table col row b)
    | .table col row b =>
      if b then (table col row).2
      else match combinedAt v col row with
        | none => (table col row).1
        | some p =>
          let sel := (Config.combineSelect col p.1 p.2).foldr (fun m a => 2 * a + bit (netValue v inp fuel m)) 0
          (table col (p.1 + sel % p.2)).1

/-- More steps than a block has nets. -/
def netFuel : Nat := 65536

/-- The value at a multiplexer of a position. -/
def muxValue (v : Logic) (inp : Nat → Bool) (m col row : Nat) : Bool :=
  let sel := muxSelect v m col row
  decide (sel ≠ 0) && netValue v inp netFuel (Config.candidate m col row sel)

/-- What flip-flop B, or A, of a cell takes in: the table output, at A of the last cell of a wide multiplexer its result. -/
def flopInput (v : Logic) (inp : Nat → Bool) (b : Bool) (col row : Nat) : Bool := netValue v inp netFuel (.table col row b)

/-- One edge of the trees `on`: every flip-flop on them loads at once (R192). -/
def edgeFlops (v : Logic) (inp : Nat → Bool) (on : List Nat) : SMap Bool :=
  let cells := ((v.cells.words.map (fun e => e.1 / 2)).eraseDups).filter (fun c => on.contains (bits (cellCtl v (c / 64) (c % 64)).toNat 5 2))
  cells.foldl (fun m c =>
    let col := c / 64
    let row := c % 64
    let ce := muxValue v inp 14 col row
    let sr := muxValue v inp 15 col row
    let next (b : Bool) := flopNext (cellCtl v col row) b (mget false v.flops (2 * c + bit b)) (flopInput v inp b col row) ce sr
    mset false (mset false m (2 * c) (next false)) (2 * c + 1) (next true)) v.flops

/-! ### Logic clock trees (R196 to R198) -/

def rgnClk (r : Nat) : Nat := regionBase r + 0x100C
def rgnPll (r i : Nat) : Nat := regionBase r + 0x1010 + 4 * i

/-- SRC and DIV of a tree (R196). -/
def treeSrc (s : State) (r i : Nat) : Nat := s.fld ⟨rgnClk r, 8 * i, 2⟩
def treeDiv (s : State) (r i : Nat) : Nat := s.fld ⟨rgnClk r, 8 * i + 2, 4⟩

/-- The tree is locked, the array clock runs, and cycle c carries an edge of it: one falls on c+0 of every crossing, and none during a switch
(R196 to R198). -/
def lockedEdge (s : State) (r i c : Nat) : Bool :=
  s.runs && decide (treeSrc s r i = 1) && decide (mget 0 (s.region r).treeHold i ≤ c) &&
    decide ((c - s.clock.xstart) % max 1 s.n % max 1 (treeDiv s r i) = 0)

/-- The tree runs on a free PLL that is locked (R196). -/
def freeTree (s : State) (r i : Nat) : Bool := decide (2 ≤ treeSrc s r i) && s.is ⟨rgnPll r (treeSrc s r i - 2), 17, 1⟩

/-- M and D of the free PLL that drives a tree (R196). -/
def treeM (s : State) (r i : Nat) : Nat := s.fld ⟨rgnPll r (treeSrc s r i - 2), 0, 7⟩
def treeD (s : State) (r i : Nat) : Nat := s.fld ⟨rgnPll r (treeSrc s r i - 2), 8, 6⟩

/-- The array clock in hertz. -/
def arrayHz (s : State) : Nat := max 1 (s.n * s.fld ⟨0x20008, 0, 32⟩)

/-- The edges of a free tree up to array cycle c: at 156.25 MHz × M / D, in a phase that nothing fixes (R196, notes/assumptions/15.md). -/
def freeTicks (s : State) (r i c : Nat) : Nat :=
  (c * (156250000 * treeM s r i) + Config.freePhase r i) / max 1 (treeD s r i * arrayHz s)

/-- The edges of a free tree in array cycle c; none during a switch (R198). -/
def freeEdgesIn (s : State) (r i c : Nat) : Nat :=
  if freeTree s r i && decide (mget 0 (s.region r).treeHold i ≤ c) then freeTicks s r i (c + 1) - freeTicks s r i c else 0

/-- The first array cycle from c on that carries an edge of a free tree. -/
def nextFreeEdge (s : State) (r i c : Nat) : Nat :=
  let c1 := max c (mget 0 (s.region r).treeHold i)
  let step := max 1 (156250000 * treeM s r i)
  let n := (freeTicks s r i c1 + 1) * max 1 (treeD s r i * arrayHz s)
  max c1 ((n - Config.freePhase r i + step - 1) / step - 1)

/-- The array cycles that one cycle of a tree lasts, rounded up (R198). -/
def treePeriod (s : State) (r i : Nat) : Nat :=
  match treeSrc s r i with
  | 0 => 0
  | 1 => treeDiv s r i
  | _ => (treeD s r i * arrayHz s + 156250000 * treeM s r i - 1) / max 1 (156250000 * treeM s r i)

/-- The first cycle from c on that carries an edge of a locked tree. -/
def nextEdge (s : State) (r i c : Nat) : Nat :=
  let c1 := max (max c (mget 0 (s.region r).treeHold i)) s.clock.xstart
  let n := max 1 s.n
  let d := max 1 (treeDiv s r i)
  let o := c1 - s.clock.xstart
  let m := (o % n + d - 1) / d * d
  s.clock.xstart + o / n * n + min m n

/-- The tree that serves boundary port j of a block. -/
def portTree (s : State) (k j : Nat) : Nat := (Config.portTree (binding s k) k j).toNat

/-- The cycle of the next edge at which boundary port j moves a beat: at most one an edge, none while its tree stays low (R196, R199). A free tree runs
on while the array clock is stopped. -/
def portEdge (s : State) (k j : Nat) : Option Nat :=
  let r := clusterRegion k
  let i := portTree s k j
  let c := max s.clock.now (mget 0 (s.logic k).portAt j)
  if freeTree s r i then some (if s.runs then nextFreeEdge s r i c else c)
  else if s.runs && decide (treeSrc s r i = 1) then some (nextEdge s r i c)
  else none

/-! ### The inputs of a block (R199, R201, R202) -/

/-- The inputs that every block receives in a crossing (R201). -/
structure BlockInputs where
  xstart : Bool
  xnum : BitVec 12
  xtag : BitVec 6
  empty : Bool
  tpulse : Bool
  tcode : Byte
  run : Bool
deriving DecidableEq, Repr

/-- The inputs in cycle c of the crossing (R201). -/
def blockInputs (s : State) (c : Nat) : BlockInputs :=
  { xstart := decide (c = s.clock.xstart), xnum := BitVec.ofNat 12 (s.fld fCurrent), xtag := BitVec.ofNat 6 (s.fld fCurrent % 64)
    empty := s.clock.empty, tpulse := s.clock.tpulse, tcode := if s.clock.tpulse then s.clock.tcode else 0, run := s.run.started }

def crossingBits (x : BlockInputs) : Nat :=
  bit x.xstart + 2 * x.xnum.toNat + 2 ^ 13 * x.xtag.toNat + 2 ^ 19 * bit x.empty + 2 ^ 20 * bit x.tpulse + 2 ^ 21 * x.tcode.toNat + 2 ^ 29 * bit x.run

def beatBits (b : Beat) : Nat :=
  b.mant.toNat + 2 ^ 192 * b.exp.toNat + 2 ^ 198 * b.tag.toNat + 2 ^ 204 * bit b.bad + 2 ^ 205 * bit b.late + 2 ^ 206 * bit b.first +
    2 ^ 207 * bit b.last

/-- The cycles that what port j carries takes through its dual-clock queue on a free tree, varying by up to one cycle of the slower clock: draw `n`
(R200, 02 R34). A port on a locked tree has none. -/
def portLag (s : State) (k j n : Nat) : Nat :=
  let r := clusterRegion k
  let i := portTree s k j
  if treeSrc s r i = 1 then 0 else Config.portCrossing k j + (Config.freeValue 16 n).toNat % (max 1 (treePeriod s r i) + 1)

/-- The bound queue of read port j shows a beat at an edge in cycle c (R199): between two takes its head does not change. -/
def shows (s : State) (k j c : Nat) (q : QueueId) : Bool := qReady s q && decide ((s.queue q).filledAt + portLag s k j (s.queue q).filledAt ≤ c)

/-- LR_DATA at an edge in cycle c: the head beat of the bound queue, or its last value when it is empty (R199). -/
def readData (s : State) (k j c : Nat) : Nat :=
  match readTarget s k j with
  | none => 0
  | some q => beatBits (if shows s k j c q then ((s.queue q).beats.head?).getD (s.queue q).last else (s.queue q).last)

/-- LR_VALID at an edge in cycle c (R199). -/
def readValid (s : State) (k j c : Nat) : Bool :=
  match readTarget s k j with
  | none => false
  | some q => shows s k j c q

/-- LW_READY at an edge in cycle c: always for a DROP queue, for a HOLD queue while the writer holds a credit (R199). -/
def writeReady (s : State) (k j c : Nat) : Bool :=
  match writeTarget s k j with
  | none => false
  | some q => maySend s q && (!qHold s q || decide ((s.queue q).creditAt ≤ c))

/-- The fuse area as a block whose fuse port is enabled reads it: the words, then each word's error flag (R202, R206). -/
def fuseInput (s : State) (k i : Nat) : Bool :=
  let w := mget {} s.fuses.user (1024 * (k / 32) + (if i < 65536 then i / 64 else i - 65536))
  (binding s k).getLsbD 50 && (if i < 65536 then w.value.getLsbD (i % 64) else decide (w.ecc = some .uncorrectable))

/-! ### GPIO pads (R203, R208) -/

def gpio (i lo w : Nat) : Fld := ⟨0x100 + 4 * i, lo, w⟩

/-- The block whose user signal a pin is assigned to. -/
def padBlock (s : State) (i : Nat) : Option Nat :=
  if s.fld (gpio i 0 2) = 1 then some (32 * s.fld (gpio i 3 4) + 8 * s.fld (gpio i 7 2) + s.fld (gpio i 9 3)) else none

/-- User signal j of block k from its pin: LEVEL once 80 ns have passed since it changed, and until then free, since the delay is not fixed (R203). -/
def padInput (s : State) (k n c j : Nat) : Bool :=
  match (List.range 8).find? (fun p => decide (padBlock s p = some k) && decide (s.fld (gpio p 12 3) = j)) with
  | none => false
  | some p =>
    match mget 0 s.pins.gpioAt p with
    | 0 => s.is (gpio p 16 1)
    | t + 1 => if 1000000000 * c < 1000000000 * t + 80 * arrayHz s then Config.edgeInput n c (64 + j) else s.is (gpio p 16 1)

/-- Input i of block k at an edge in cycle c, by the model's numbering: 0 to 29 the crossing inputs, 32 to 35 LR_VALID, 36 to 39 LW_READY, 40 the byte
port's done strobe, 48 to 55 its response, 64 to 71 the user signals from pads, 256 × (j + 1) + b LR_DATA, and from 4096 on the fuse area. -/
def inputBit (s : State) (k n c i : Nat) : Bool :=
  let v := s.logic k
  if i < 30 then (crossingBits (blockInputs s c)).testBit i
  else if 4096 ≤ i then fuseInput s k (i - 4096)
  else if i = 40 then v.done
  else if 48 ≤ i ∧ i < 56 then v.response.getLsbD (i - 48)
  else if 64 ≤ i ∧ i < 72 then padInput s k n c (i - 64)
  else if 32 ≤ i ∧ i < 36 then readValid s k (i - 32) c
  else if 36 ≤ i ∧ i < 40 then writeReady s k (i - 36) c
  else if 256 ≤ i ∧ i < 1280 then (readData s k (i / 256 - 1) c).testBit (i % 256)
  else false

/-- The same at an edge of a free tree, where the crossing inputs carry no timing guarantee (R201). -/
def freeInputBit (s : State) (k n c i : Nat) : Bool := if i < 30 then Config.edgeInput n c i else inputBit s k n c i

/-- What a GPIO pin carries: nothing, a user signal of a configured block, or a pin of a die's UART or I2C controller (R203, R208). -/
def padOf (s : State) (i : Nat) : Pad :=
  let d := s.fld (gpio i 3 4)
  let role := s.is (gpio i 2 1)
  match padBlock s i, s.fld (gpio i 0 2) with
  | some k, _ =>
    if s.fld (fLogState k) = 2 then
      .level (netValue (s.logic k) (inputBit s k s.freeNext s.clock.now) netFuel (Config.signalNet k (s.fld (gpio i 12 3))))
    else .highZ
  | none, 2 => .uart d role
  | none, 3 => .openDrain d role
  | none, _ => .highZ

/-- The pins that `p` names show what they carry, unless they have left the core (16 R409). -/
def showPads (s : State) (p : Nat → Bool) : State := if s.extest then s else ((List.range 8).filter p).foldl (fun t i => t.send (.pad i (padOf t i))) s

/-- The pins that carry the user signals of a block. -/
def padsOf (s : State) (k i : Nat) : Bool := decide (padBlock s i = some k)

/-! ### A block plays -/

/-- An edge of the trees `on` at block k: its flip-flops load, and the byte port's strobe has been seen (R192, R202). -/
def loadFlops (s : State) (k : Nat) (inp : Nat → Bool) (on : List Nat) : State :=
  let v := s.logic k
  if on.isEmpty then s else s.setLogic k { v with flops := edgeFlops v inp on, done := false }

/-- The edges of free trees in array cycle c (R196). -/
def playFree (s : State) (k n c : Nat) (trees : List Nat) : State :=
  trees.foldl (fun t i => (List.range (freeEdgesIn t (clusterRegion k) i c)).foldl (fun x _ => loadFlops x k (freeInputBit x k n c) [i]) t) s

/-- The edges that block k sees in cycle c; `n` numbers the free values. Which of two edges in one cycle comes first is open where one tree is
free. -/
def playEdge (s : State) (k n c : Nat) : State :=
  let r := clusterRegion k
  let first := (List.range 4).filter (fun i => Config.freeFirst r i c)
  let later := (List.range 4).filter (fun i => !Config.freeFirst r i c)
  let s1 := playFree s k n c first
  playFree (loadFlops s1 k (inputBit s1 k n c) ((List.range 4).filter (fun i => lockedEdge s r i c))) k n c later

/-- While the array clock is stopped the free trees go on, for a number of edges that nothing fixes (R196). -/
def playStopped (s : State) (k : Nat) : State :=
  let s1 := ((List.range 4).filter (freeTree s (clusterRegion k))).foldl (fun t i =>
    ((List.range (Config.freeEdges t.freeNext)).foldl (fun x _ => loadFlops x k (freeInputBit x k x.freeNext x.clock.now) [i]) t).drawn) s
  showPads s1 (padsOf s1 k)

/-- A configured block plays every edge before cycle t that it has not played (R192, R196, R208), with what had come to its queues by then. -/
def playLogic (s : State) (k t : Nat) : State :=
  let v := s.logic k
  if s.fld (fLogState k) ≠ 2 ∨ v.cells.words.isEmpty then s
  else if !s.runs then playStopped s k
  else if t ≤ v.playedTo then s
  else
    let from_ := max v.playedTo s.clock.xstart
    let s1 := ((List.range (t - from_)).foldl (fun x i => playEdge x k s.freeNext (from_ + i)) (settleAll s k (t - 1))).drawn
    showPads (s1.setLogic k { s1.logic k with playedTo := t }) (padsOf s1 k)

/-- Every block that `p` names plays to cycle t. -/
def playBlocks (s : State) (p : Nat → Bool) (t : Nat) : State :=
  ((s.clusters.map (·.1)).filter p).foldl (fun x k => playLogic x k t) s

/-- A boundary port acts in cycle t: the block has played the edge of that cycle with what its ports showed there (R199). -/
def portActs (s : State) (k j t : Nat) : State :=
  let s1 := playLogic (s.at t) k (t + 1)
  s1.setLogic k { s1.logic k with portAt := mset 0 (s1.logic k).portAt j (t + 1) }

end Sys2Proof.Machine
end

