-- ==== Sys2Proof/Machine/Play.lean ====
section
/-!
DEFINITION. Machine/Play.lean: how dot units and function units play their timetables: words fetched with their check
bits, words that act as NOP, anchors, SYNC, HOLD and MENU (04_dot_unit.md R93, R104 to R108; 05 R112 to R114, R134 to R138; 06
R140). The command of a word plays the words before it that act as NOP and then the word at the program counter, at the cycle it
issues; when that word is another one, the state stays (notes/assumptions/2.md).
-/
namespace Sys2Proof.Machine

/-! ### Fetching -/

/-- Opcodes the agent has no instruction for (05 R112, 06 R140, R146). -/
def reservedOp (a : Agent) (op : Nat) : Bool :=
  if isDot a then decide (0x0D ≤ op)
  else (decide (1 ≤ op) && decide (op ≤ 8)) || (decide (0x0D ≤ op) && decide (op ≤ 0x0F)) || decide (0x1D ≤ op)

/-- The bad flag of every bank of a dot unit, or the mark on every later row of a function unit (04 R104, 05 R113, 06 R140). A bank write of a
cycle before the word's own, t, has landed first; one of cycle t itself lands after it, so that a MACZ or CLR then clears the flag (the model's
choice, notes/assumptions/73.md). -/
def poisonAgent (s0 : State) (a : Agent) (t : Nat) : State :=
  match a with
  | .dot u =>
    let s := settleUnit s0 u.val (t - 1)
    let v := s.unit u.val
    s.setUnit u.val { v with gb := v.gb.map (fun b => { b with bad := true }), mb := v.mb.map (fun b => { b with bad := true }) }
  | .fn f => s0.setFun f.val { s0.fun_ f.val with poisoned := true }

/-- The word at the program counter acts as NOP for its cycle: NOP, SYNC elsewhere than at word 0, a reserved opcode, an uncorrectable word
(R104, R113, R135). -/
def actsAsNop (s : State) (a : Agent) : Bool :=
  let pc := (s.play a).pc
  let op := opcode ((s.tt a).word pc)
  (s.tt a).check pc == some .uncorrectable || decide (op = 0) || decide (op = 0x0A) || reservedOp a op

/-- A word read from the timetable is counted as its check bits say, and an uncorrectable one poisons the agent (R104, 06 R140, 15 R380). -/
def fetchWord (s : State) (a : Agent) (pc t : Nat) : State :=
  match a, (s.tt a).check pc with
  | .dot u, some .correctable => s.bump (fCe u.val)
  | .dot u, some .uncorrectable => poisonAgent (s.bump (fTtUe u.val)) a t
  | .fn f, some .uncorrectable => poisonAgent (s.bump (fTblUe f.val)) a t
  | _, _ => s

/-- What fetching the word at the program counter records; a reserved opcode poisons the agent (R104, R113). -/
def fetched (s : State) (a : Agent) : State :=
  let p := s.play a
  let s1 := fetchWord s a p.pc p.at_
  if (s.tt a).check p.pc != some .uncorrectable && reservedOp a (opcode ((s.tt a).word p.pc)) then poisonAgent s1 a p.at_ else s1

/-- The next word, `d` cycles after this one. -/
def nextWord (s : State) (a : Agent) (d : Nat) : State :=
  let p := s.play a
  (s.at p.at_).setPlay a ⟨p.pc + 1, p.at_ + d, .none⟩

/-- The word of a function unit before the next one makes its takes. -/
def catchUp (s : State) (a : Agent) : State :=
  match a with
  | .dot _ => s
  | .fn f => settleFuns s (f.val / 2) ((s.fun_ f.val).play.at_ - 1)

/-- The words that act as NOP are played, up to the first other word or the end of the pass. -/
def skipIdle (s : State) (a : Agent) : Nat → State
  | 0 => s
  | fuel + 1 =>
    let p := s.play a
    if p.wait = .none ∧ 1 ≤ p.pc ∧ p.pc < period s a ∧ actsAsNop s a = true then
      skipIdle (nextWord (fetched s a) a 1) a fuel
    else s

/-- The words that act as NOP and have ended before cycle t are played: what a reader of cycle t finds (R110). -/
def playIdle (s : State) (a : Agent) (t : Nat) : Nat → State
  | 0 => s
  | fuel + 1 =>
    let p := s.play a
    if p.wait = .none ∧ 1 ≤ p.pc ∧ p.pc < period s a ∧ p.at_ < t ∧ actsAsNop s a = true then
      playIdle ((fetched s a).setPlay a ⟨p.pc + 1, p.at_ + 1, .none⟩) a t fuel
    else s

/-- The same for every agent of cluster k that plays. -/
def playIdles (s : State) (k t : Nat) : State :=
  ((List.range 8).map (fun i => Agent.dot (Fin.ofNat 4096 (8 * k + i))) ++ (List.range 2).map (fun i => Agent.fn (Fin.ofNat 1024 (2 * k + i)))).foldl
    (fun x a => if plays x a then playIdle x a t 512 else x) s

/-- The word of this opcode issues next: the state with the words before it played and its own fetch recorded, the word, its cycle. -/
def issue (s : State) (a : Agent) (op : Nat) : Option (State × Word64 × Nat) :=
  if plays s a then
    let s1 := skipIdle (catchUp s a) a 512
    let p := s1.play a
    let w := (s1.tt a).word p.pc
    if p.wait = .none ∧ 1 ≤ p.pc ∧ p.pc < period s1 a ∧ opcode w = op then some ((fetched s1 a).at p.at_, w, p.at_) else none
  else none

/-! ### Anchors, SYNC, HOLD, MENU -/

/-- The pass has ended: its last word is complete, so SYNC issues next (R105). -/
def passEnded (s : State) (a : Agent) : Bool :=
  let p := s.play a
  decide (p.wait = .sync) || (decide (p.wait = .none) && decide (period s a ≤ p.pc))

/-- Word 1 issues at cycle t, and the agent runs (R107, R136). Word 0 occupies the cycle before it, where no SYNC has played it already (R105);
whatever it holds, it is read as any word is (R104, R135). -/
def startPass (s : State) (a : Agent) (t : Nat) : State :=
  let s1 := if (s.play a).wait = .sync then s else fetchWord s a 0 (t - 1)
  ((s1.at t).mark (fRunning a)).setPlay a ⟨1, t, .none⟩

/-- The agent stops; its banks keep their values (R107). -/
def stopAgent (s : State) (a : Agent) : State := (s.setFld (fRunning a) 0).setPlay a {}

/-- The anchor count of the current crossing (R106): crossings since the one at which the run, or the first of a chain of restarts, began. -/
def anchorCount (s : State) : Nat := s.clock.xseq - s.run.anchor0

/-- The current crossing is an anchor of the agent in locked mode (R106). -/
def isAnchor (s : State) (a : Agent) : Bool :=
  let n := anchorCount s
  (s.run.started || s.run.stop.isSome) && decide (s.run.anchor0 ≤ s.clock.xseq) && decide (s.fld (fLag a) ≤ n) &&
    decide ((n - s.fld (fLag a)) % (s.fld (fK a) + 1) = 0)

/-- RUN_STOP has taken effect and this anchor is the one at which the agent stops (R107). -/
def stopsAt (s : State) (a : Agent) : Bool :=
  match s.run.stop with
  | some p => decide (p - s.run.anchor0 + s.fld (fLag a) ≤ anchorCount s)
  | none => false

/-- The agent has a timetable to play (R110): a unit of an idle region has none (01 R21). -/
def enabledAgent (s : State) (a : Agent) : Bool :=
  s.is (fAgentEnable a) && decide (0 < period s a) && !s.idleRegion (clusterRegion (aCluster a))

/-- An anchor of locked mode (R105 to R107, R136). -/
def anchorLocked (s : State) (a : Agent) : State :=
  let t := s.clock.xstart
  if !isAnchor s a then s
  else if s.is (fRunning a) then
    let s1 := skipIdle (catchUp s a) a 512
    if stopsAt s1 a then stopAgent s1 a
    else if passEnded s1 a && decide ((s1.play a).at_ < t) then startPass s1 a t
    else hazard s1 5 ⟨aCluster a, aIndex a, issuing s1 a t⟩ 0 t
  else if enabledAgent s a && s.run.started && !stopsAt s a then startPass s a t
  else s

/-- The anchor of staged mode: the release of the region's barrier leaf (R108). -/
def anchorStaged (s : State) (a : Agent) : State :=
  let t := s.stage.releasedAt
  let s1 := skipIdle (catchUp s a) a 512
  if !s.stage.running then s
  else if s.is (fRunning a) then
    if passEnded s1 a && decide ((s1.play a).at_ < t) then startPass s1 a t else s
  else if enabledAgent s a && decide ((s.play a).at_ < t) then startPass s a t
  else s

/-- ANCHOR: at an anchor word 1 issues after SYNC, or the unit stops when the run has ended (R106, R107). -/
def execAnchor (a : Agent) (s : State) : Res :=
  .next (if !s.runs then s else if s.stagedImage then anchorStaged s a else anchorLocked s a)

/-- SYNC: the pass has ended, word 0 issues and waits for the next anchor (R105, R135). -/
def execSync (a : Agent) (s : State) : Res :=
  if plays s a then
    let s1 := skipIdle (catchUp s a) a 512
    let p := s1.play a
    if decide (p.wait = .none) && decide (period s1 a ≤ p.pc) then
      .next (((fetchWord s1 a 0 p.at_).at p.at_).setPlay a ⟨0, p.at_, .sync⟩)
    else .next s
  else .next s

/-- HOLD: the issue slot is taken for COUNT cycles, at least one (R134). -/
def execHold (a : Agent) (s : State) : Res :=
  match issue s a 0x09 with
  | none => .next s
  | some (s1, w, t) => .next (s1.setPlay a ⟨(s1.play a).pc, t, .hold (t + max 1 (wf w 42 16))⟩)

/-- HOLD_END: the count has run out, and the next word issues (R134). -/
def execHoldEnd (a : Agent) (s : State) : Res :=
  let p := s.play a
  match p.wait with
  | .hold u => if plays s a then .next ((s.at u).setPlay a ⟨p.pc + 1, u, .none⟩) else .next s
  | _ => .next s

/-- MENU: ACTIVE takes SCHED, or the word's own menu (R138). -/
def execMenu (a : Agent) (s : State) : Res :=
  match issue s a 0x0C with
  | none => .next s
  | some (s1, w, _) =>
    .next (nextWord (s1.setFld (fActive a) (if wf w 57 1 = 1 then wf w 53 4 else schedOf s1 a)) a 1)

end Sys2Proof.Machine
end

