-- ==== Sys2Proof/Machine/Timing.lean ====
section
/-!
DEFINITION. Machine/Timing.lean: crossings, the slots of the timing lane, the pending table and the scheduled commands
(02_crossing_time.md R36 to R45). A slot is judged by TIMING_SLOT (comma, number, parity, reserved codes); the row of the
command it carries then makes the checks of that command.
-/
namespace Sys2Proof.Machine

/-! ### The opening of a crossing -/

/-- The crossing counter and the turn number advance by one crossing (R38). -/
def stepCount (s : State) : State :=
  if s.fld fCurrent + 1 = s.fld fTurnLen then (s.setFld fCurrent 0).setFld fTurn ((s.fld fTurn + 1) % 2 ^ 32)
  else s.setFld fCurrent (s.fld fCurrent + 1)

/-- The run crossing count advances until RUN_STOP has taken effect (R43). -/
def stepRun (s : State) : State :=
  if s.run.started && s.run.stop.isNone then { s with run := { s.run with count := (s.run.count + 1) % 2 ^ 48 } } else s

/-- The crossing opens: its cycle, its sequence number, its menu, and the inputs of one crossing cleared (R93, 08 R201). -/
def openCrossing (s : State) : State :=
  { s with clock := { s.clock with
      now := max s.clock.now (s.clock.xstart + s.n), xstart := s.clock.xstart + s.n, xseq := s.clock.xseq + 1,
      menus := (s.clock.menus.headD 0 :: s.clock.menus).take 257, empty := false, tpulse := false, tcode := 0 } }

def fFenced (g : Nat) : Fld := ⟨unitBase g + 0x6C, 0, 1⟩

/-- DOT_FENCE.FENCED as written takes effect (15 R386). -/
def takeFences (s : State) : State :=
  { s.fencePend.foldl (fun t p => t.setFld (fFenced p.1) (bit p.2)) s with fencePend := [] }

def fHazEnable (r : Nat) : Fld := ⟨regionBase r + 0x1200, 0, 1⟩

/-- RGN_HAZ_CTRL.ENABLE as written takes effect (09 R239). -/
def takeHazards (s : State) : State :=
  s.regions.foldl (fun t e => match e.2.hazNext with
    | some b => { t with hazardsHeld := mset false t.hazardsHeld e.1 b }.setRegion e.1 { e.2 with hazNext := none }
    | none => t) s

def fTurnLeft : Fld := ⟨0x1000C, 0, 13⟩

/-- The fallback turn begins at the crossing start after the confirmation of a trip, and one crossing of it passes (15 R392). -/
def stepTurn (s : State) : State :=
  if s.thermal.fallbackNext then
    { s.setFld fTurnLeft (s.fld fTurnLen) with thermal := { s.thermal with fallbackNext := false, fallback := true } }
  else if s.thermal.fallback then s.setFld fTurnLeft (s.fld fTurnLeft - 1)
  else s

/-- The arrival measurement of a locked context ends 65,536 crossings after it began (12 R306, 11 R291). It needs LOCKED, and crossings that pass
while a run is armed are not among them. -/
def stepMeasures (s : State) : State :=
  s.ctxs.foldl (fun t e =>
    let c := e.2
    let b := ctxBase e.1
    if c.measuring && decide (s.fld fState ≠ 7) then t.setCtx e.1 { c with measured := 0, since := s.clock.xseq }
    else if c.measuring && s.armed then t.setCtx e.1 { c with since := c.since + 1 }
    else if c.measuring && decide (c.since + 65536 ≤ s.clock.xseq) then
      let t1 := t.setCtx e.1 { c with measuring := false }
      let t2 := if c.measured = 0 then t1 else (t1.setFld ⟨b + 0xC, 0, 13⟩ c.aMax).setFld ⟨b + 0xC, 16, 13⟩ c.aMin
      if 65000 ≤ c.measured then t2.mark ⟨b + 0x10, 0, 1⟩ else (t2.setFld ⟨b + 0x10, 0, 1⟩ 0).mark ⟨b + 0x10, 2, 1⟩
    else t) s

/-- CROSSING_START: N cycles after the crossing before, the device opens the next one by its own count (R38); the logic blocks have played the edges
of the crossing that ends (08 R196, R201). -/
def execCrossingStart (s : State) : Res :=
  if s.runs then
    .next (stepMeasures (takeHazards (takeFences (stepTurn (stepRun (stepCount (openCrossing
      (playBlocks s (fun _ => true) (s.clock.xstart + s.n)))))))))
  else .next s

/-! ### Slots -/

/-- The exclusive-or of the 56 bits of characters 1 to 7 is zero (R36). -/
def parityOk (chars : BitVec 56) : Bool := (List.range 56).foldl (fun p i => p ^^ chars.getLsbD i) false == false

/-- The comma check: a bad one counts, and three in a row lose the lane (R50); in HOLDOVER good ones are confirmed (R51). -/
def slotComma (c : Comma) (s : State) : State :=
  if c = .bad then
    { s.bump fCommaErr with clock := { s.clock with badCommas := s.clock.badCommas + 1, goodCommas := 0 } }
  else { s with clock := { s.clock with badCommas := 0, goodCommas := s.clock.goodCommas + 1 } }

/-- The number and the comma type received agree with the device's own count (R38). -/
def slotAgrees (c : Comma) (chars : BitVec 56) (s : State) : Bool :=
  decide (bits chars.toNat 8 12 = s.fld fCurrent) && (decide (c = .k281) == decide (s.fld fCurrent = 0))

/-- TIMING_SLOT: the comma (R50, R51), the number (R38), EMPTY (R36), and the slots that carry no command (R39, R40). The model's choices where
the spec is silent (notes/assumptions/65.md): a slot whose comma is bad has neither its number compared nor a reserved code counted, one that
only fails its parity has its number compared, and EMPTY is 0 in a slot with a bad comma, a failed parity or a code violation. -/
def execTimingSlot (c : Comma) (chars : BitVec 56) (violation : Bool) (s : State) : Res :=
  if ! s.runs then .next s
  else
    let s1 := slotComma c s
    let clean := parityOk chars && !violation
    let heard := decide (c ≠ .bad)
    let loads := s.clock.resync.isSome && decide (c = .k281)
    let s2 := if heard && !slotAgrees c chars s && !loads then s1.bump fNumErr else s1
    let s3 := { s2 with clock := { s2.clock with empty := heard && clean && chars.getLsbD 20 } }
    let refuse := !clean || (heard && decide (6 < bits chars.toNat 0 8))
    .next (if refuse then s3.bump fCmdErr else s3)

/-- NOP: no effect (R39). -/
def execNop (s : State) : Res := .next s

/-! ### The pending table -/

/-- How many crossings after the current one the crossing of a reference lies, turns taken mod 4,096 (R39). -/
def refDistance (s : State) (ref : BitVec 24) : Nat :=
  let t := s.fld fTurnLen
  let x := bits ref.toNat 0 12 + bits ref.toNat 12 12 * t
  let here := s.fld fCurrent + (s.fld fTurn % 4096) * t
  (x + 4096 * t - here) % (4096 * t)

/-- The conditions of R40 beyond the slot's own, with R45's on A3 of MENU_SELECT. A crossing number past the turn names no crossing
(notes/assumptions/6.md). -/
def accepts (s : State) (code : PendCode) (ref : BitVec 24) (a3 : Nat) : Bool :=
  let t := s.fld fTurnLen
  let d := refDistance s ref
  s.runs && decide (bits ref.toNat 0 12 < t) && decide (2 ≤ d) && decide (d < 2048 * t) &&
    (decide (code ≠ .frost) || decide (a3 < s.n)) && (decide (code ≠ .menuSelect) || decide (a3 < 16)) &&
    decide (s.pendTable.length < 16) &&
    s.pendTable.all (fun e => !(decide (e.code = code) && decide (e.x = s.clock.xseq + d)))

/-- A scheduled command arrives: it enters the pending table or it is discarded and counted (R40). -/
def schedule (s : State) (code : PendCode) (ref : BitVec 24) (a3 : Nat) (host : Bool) (disarm : Option Nat) : State :=
  if accepts s code ref a3 then
    { s with pendTable := s.pendTable ++ [⟨code, s.clock.xseq + refDistance s ref, a3, host, disarm⟩] }
  else s.bump fCmdErr

/-- A scheduled command of the timing lane. Below LOCKED the lane's slots carry no commands (notes/assumptions/6.md). -/
def laneCommand (code : PendCode) (ref : BitVec 24) (a3 : Byte) (s : State) : State :=
  if s.runs then schedule s code ref a3.toNat false none else s

/-- RUN_START arrives (R40). -/
def execRunStart (ref : BitVec 24) (a3 : Byte) (s : State) : Res := .next (laneCommand .runStart ref a3 s)

/-- RUN_STOP arrives (R40). -/
def execRunStop (ref : BitVec 24) (a3 : Byte) (s : State) : Res := .next (laneCommand .runStop ref a3 s)

/-- TEST_PULSE arrives (R39, R40). -/
def execTestPulse (ref : BitVec 24) (a3 : Byte) (s : State) : Res := .next (laneCommand .testPulse ref a3 s)

/-- MENU_SELECT arrives (R40, R45). -/
def execMenuSelect (ref : BitVec 24) (a3 : Byte) (s : State) : Res := .next (laneCommand .menuSelect ref a3 s)

/-- FROST arrives (R40, 16 R398). -/
def execFrost (ref : BitVec 24) (a3 : Byte) (s : State) : Res := .next (laneCommand .frost ref a3 s)

/-- RESYNC arrives: ignored and counted while a run is started, else held for the next K28.1 (R41). Below LOCKED it is ignored and not counted
(the model's choice, notes/assumptions/6.md). -/
def execResync (turn : Word32) (s : State) : Res :=
  if ! s.runs then .next s
  else if s.run.started then .next (s.bump fCmdErr)
  else .next { s with clock := { s.clock with resync := some turn } }

/-- RESYNC_LOAD: at the next K28.1 the counter is 0, the turn number is the one given, and the pending table is empty (R41). -/
def execResyncLoad (s : State) : Res :=
  match s.clock.resync with
  | none => .next s
  | some t =>
    .next { (s.setFld fCurrent 0).setFld fTurn t.toNat with
      pendTable := [], clock := { s.clock with resync := none } }

/-! ### The effects at the named crossing (R42) -/

/-- The order of application of R42, after EPOCH (12_elvaro_fabric.md R317). -/
def codeRank : PendCode → Nat
  | .epoch => 0 | .runStop => 1 | .runStart => 2 | .menuSelect => 3 | .testPulse => 4 | .frost => 5

/-- The pending command of this code that names the current crossing, once no command that R42 puts before it is pending for the same crossing. -/
def dueCmd (s : State) (code : PendCode) : Option PendCmd :=
  if s.pendTable.any (fun e => decide (e.x = s.clock.xseq) && decide (codeRank e.code < codeRank code)) then none
  else s.pendTable.find? (fun e => decide (e.code = code) && decide (e.x = s.clock.xseq))

def dropCmd (s : State) (code : PendCode) : State :=
  { s with pendTable := s.pendTable.filter (fun e => !(decide (e.code = code) && decide (e.x = s.clock.xseq))) }

def lanesOf (s : State) : List LaneBind :=
  match s.image with
  | some im => im.lanes
  | none => []

/-- A run begins at the current crossing: its first crossing, its count, its number, and where it began (R43, 14 R375, R377). -/
def beginRun (s : State) : State :=
  let r := s.run
  { s.setFld fRunNum ((s.fld fRunNum + 1) % 2 ^ 32) with
    run := { r with
      started := true, start := s.clock.xseq, stop := none, restart := false, count := 0,
      turn := BitVec.ofNat 32 (s.fld fTurn), crossing := s.fld fCurrent,
      anchor0 := if r.restart then r.anchor0 else s.clock.xseq
      starts := s.clock.xseq :: (if r.restart then r.starts else []) } }

/-- The run is over for a lane of the waystation: what it held goes, and a frame that is arriving ends as any frame does, without a count of 02 R57
(11 R281). -/
def stopWay (w : WayLane) : WayLane :=
  { w with held := [], leaving := none, incoming := w.incoming.map (fun i => { i with cls := .ignored }) }

/-- What is held or arriving of a crossing before x, which the run does not release (R43). -/
def dropEarlier (x : Nat) (w : WayLane) : WayLane :=
  { w with
    held := w.held.filter (fun h => decide (x ≤ h.xseq)), next := x
    incoming := w.incoming.map (fun i => match i.cls with
      | .accept y => if x ≤ y then i else { i with cls := .ignored }
      | _ => i) }

/-- The lanes of the map, the locked contexts and the assemblers wait for the run's first crossing, and frames of earlier crossings are
discarded without a count (R43, R57, 12 R304, 06 R159). -/
def armLanes (s : State) : State :=
  let s1 := (lanesOf s).foldl (fun t b => t.setWay b.lane (dropEarlier s.clock.xseq (t.wayLane b.lane))) s
  let s2 := (List.range 4).foldl (fun t v => t.setVa v { nextClose := s.clock.xseq }) s1
  match s.image with
  | some im => im.contexts.foldl (fun t x => t.setCtx x { t.ctx x with
      held := (t.ctx x).held.filter (fun h => decide (s.clock.xseq ≤ h.xseq)), next := s.clock.xseq }) s2
  | none => s2

/-- RUN_STOP_EFFECT: the started run stops releasing frames (R43), or is half of a restart (R44); with no run started it is ignored and
counted. A run that is already stopping ignores and counts a second stop (notes/assumptions/7.md). The RUN_STOP that a waiting DISARM has pending
is withdrawn (13 R346). -/
def execRunStopEffect (s : State) : Res :=
  match dueCmd s .runStop with
  | none => .next s
  | some _ =>
    let s1 := dropCmd s .runStop
    if s1.run.started && s1.run.stop.isNone then
      if s1.pendTable.any (fun e => decide (e.code = .runStart) && decide (e.x = s1.clock.xseq)) then
        .next { s1 with run := { s1.run with restart := true } }
      else .next { s1 with
        run := { s1.run with stop := some s1.clock.xseq }
        pendTable := s1.pendTable.filter (fun c => c.disarm.isNone) }
    else .next (s1.bump fCmdErr)

/-- The loaded image enables the menu (R45). -/
def menuEnabled (s : State) (m : Nat) : Bool :=
  match s.image with
  | some im => im.menus.getLsbD m
  | none => false

/-- MENU_SELECT_EFFECT: the menu is in force from this crossing on, or the command is ignored and counted (R45). One that SELECT_MENU entered is
also the menu of staged work (04 R108). -/
def execMenuSelectEffect (s : State) : Res :=
  match dueCmd s .menuSelect with
  | none => .next s
  | some e =>
    let s1 := dropCmd s .menuSelect
    if menuEnabled s1 e.a3 then
      .next { s1 with
        clock := { s1.clock with menus := e.a3 :: s1.clock.menus.drop 1 }
        stage := { s1.stage with inForce := if e.host then e.a3 else s1.stage.inForce } }
    else .next (s1.bump fCmdErr)

/-- TEST_PULSE_EFFECT: TPULSE and TCODE for this one crossing (08 R201). -/
def execTestPulseEffect (s : State) : Res :=
  match dueCmd s .testPulse with
  | none => .next s
  | some e =>
    .next { dropCmd s .testPulse with clock := { s.clock with tpulse := true, tcode := BitVec.ofNat 8 e.a3 } }

end Sys2Proof.Machine
end

