-- ==== Sys2Proof/Machine/DotWords.lean ====
section
/-!
DEFINITION. Machine/DotWords.lean: the words of a dot unit's timetable (05_unit_instructions.md R112 to R139): MAC, MACZ, GRP,
CLR, EMIT, ADDIN, PASS, DUP and DROPPKT, with what they wait for in staged mode.
-/
namespace Sys2Proof.Machine

/-! ### MAC and MACZ -/

def fMenuBase (g m : Nat) : Fld := ⟨unitBase g + 0x20 + 4 * (m / 2), 16 * (m % 2), 9⟩
def fBankQ (g b : Nat) : Fld := ⟨unitBase g + 0x40 + 4 * (b / 4), 8 * (b % 4), 6⟩

/-- PKG_STAGE_STATUS.HALF (10 R263). -/
def fHalf : Fld := ⟨0x200, 0, 1⟩

/-- In a staged image HALF moves scale sets by 64 and zero-point sets by 32 (10 R263). -/
def stagedHalf (s : State) : Nat := if s.stagedImage then s.fld fHalf else 0

/-- The effective row of a MAC (04 R91). -/
def effectiveRow (s : State) (g row : Nat) : Nat := (row + s.fld (fMenuBase g (s.fld (fActive (.dot (Fin.ofNat 4096 g)))))) % 512

def unitPort (g p : Nat) : QueueId := .port (Fin.ofNat 4096 g) (portOf p)

/-- A word of unit g reads the head of a port; a read that finds nothing counts as starved (04 R109). -/
def portRead (s : State) (g p : Nat) (pop : Bool) (t : Nat) : Beat × State :=
  let a : Agent := .dot (Fin.ofNat 4096 g)
  let r := readAt s (unitPort g p) pop (whoOf s a) t
  (r.1, if r.2.1 then r.2.2 else r.2.2.bump (fStarved a))

/-- The word waits at issue for credit to a queue, in staged mode, and its wait counts in every other queue that lacks credit too (04 R109,
07 R173). -/
def waitCredit (s : State) (a : Agent) (q : QueueId) (rest : List QueueId) (t : Nat) : State :=
  let s1 := rest.foldl (fun x r => noteWait x r t) (endWait s q t)
  s1.setPlay a ⟨(s1.play a).pc, t, .credit q t⟩

/-- In staged mode, the queues these ports end in whose writer has no credit. -/
def stagedLacking (s : State) (g : Nat) (ports : List Nat) : List QueueId := if s.stagedImage then lacking s g ports else []

/-- A MAC or MACZ word that issues at cycle t (R118 to R120, 04 R88 to R91, R100, R104). -/
def playMac (s : State) (u : UnitIx) (w : Word64) (t : Nat) (clear : Bool) : State :=
  let g := u.val
  let a : Agent := .dot u
  let fwd := decide (wf w 36 1 = 1)
  match stagedLacking s g (if fwd then [wf w 34 2] else []) with
  | q :: rest => waitCredit s a q rest t
  | [] =>
    let s0 := settleUnit s g (t - 1)
    let r := portRead s0 g (wf w 56 2) (decide (wf w 55 1 = 1)) t
    let b := r.1
    let s1 := r.2
    let v := s1.unit g
    let row := effectiveRow s1 g (wf w 37 9)
    let zp := (wf w 46 6 + 32 * stagedHalf s) % 64
    let wue := v.weight.broken (32 * row) 32
    let zue := v.zp.broken (4 * zp) 4
    let s2 := ((s1.bump (fCe g) (v.weight.corrected (32 * row) 32 + v.zp.corrected (4 * zp) 4)).bump (fWeightUe g) wue).bump (fScaleUe g) zue
    let sums := macSums v.weight v.zp (s1.fld (fFormat g)) (codebook s1 g) row zp (wf w 54 1) b
    let s3 := addFlight s2 a g ⟨t + 2, .mac (wf w 52 2) clear sums b.exp b.tag (b.bad || decide (0 < wue + zue)) b.late⟩
    let s4 := if fwd then wordSend s3 g (wf w 34 2) b t (s3.play a).pc else s3
    nextWord s4 a 1

/-- MAC (R118). -/
def execMac (u : UnitIx) (s : State) : Res :=
  match issue s (.dot u) 0x01 with
  | none => .next s
  | some (s1, w, t) => .next (playMac s1 u w t false)

/-- MACZ (R119). -/
def execMacz (u : UnitIx) (s : State) : Res :=
  match issue s (.dot u) 0x02 with
  | none => .next s
  | some (s1, w, t) => .next (playMac s1 u w t true)

/-! ### GRP and CLR -/

/-- A GRP word that issues at cycle t (R121 to R123, 04 R98, R102, R104). -/
def playGrp (s : State) (u : UnitIx) (w : Word64) (t : Nat) : State :=
  let g := u.val
  let a : Agent := .dot u
  let gb := wf w 56 2
  let mb := wf w 52 4
  let sx := (wf w 45 7 + 64 * stagedHalf s) % 128
  let s0 := settleUnit s g (t - 1)
  let v := s0.unit g
  let s1 := if openGroup v gb t then hazard s0 3 (whoOf s0 a) gb t
    else if openMain v mb (t + 3) then hazard s0 3 (whoOf s0 a) mb t else s0
  let b := v.gb.getD gb {}
  let scales := (List.range 32).map (scaleWord v.scale sx)
  let ue := v.scale.broken (8 * sx) 8
  let s2 := (s1.bump (fCe g) (v.scale.corrected (8 * sx) 8)).bump (fScaleUe g) ue
  let s3 := if grpActs b scales then
      let s' := addFlight s2 a g ⟨t + 3, .grp mb b scales (decide (0 < ue)) (s2.fld (fBankQ g mb))⟩
      if groupMismatch b scales then s'.bump (fResGroup g) else s'
    else s2
  nextWord s3 a 1

/-- GRP (R122). -/
def execGrp (u : UnitIx) (s : State) : Res :=
  match issue s (.dot u) 0x03 with
  | none => .next s
  | some (s1, w, t) => .next (playGrp s1 u w t)

/-- CLR (R124). -/
def execClr (u : UnitIx) (s : State) : Res :=
  match issue s (.dot u) 0x04 with
  | none => .next s
  | some (s1, w, t) =>
    .next (nextWord (addFlight (settleUnit s1 u.val (t - 1)) (.dot u) u.val ⟨t, .clr (BitVec.ofNat 16 (wf w 42 16))⟩) (.dot u) 1)

/-! ### EMIT and ADDIN -/

/-- The sum-bus row of a main bank (R126); a fenced unit's is bad (15 R386). -/
def bankRow (m : Bank 48) (fenced : Bool) (src dest due : Nat) : BusRow :=
  { vals := m.rows, exp := m.exp.getD 0, expValid := m.exp.isSome, bad := m.bad || emitMismatch m || fenced, late := m.late
    tag := m.tag, src := src, dest := dest, sender := src, due := due }

/-- An EMIT word that issues at cycle t (R125). -/
def emitAt (s : State) (u : UnitIx) (w : Word64) (t : Nat) : State :=
  let g := u.val
  let a : Agent := .dot u
  let mb := wf w 52 4
  let s0 := settleUnit s g (t - 1)
  let v := s0.unit g
  let s1 := if openMain v mb t then hazard s0 3 (whoOf s0 a) mb t else s0
  let m := v.mb.getD mb {}
  let s2 := if emitMismatch m then s1.bump (fResEmit g) else s1
  let s3 := placeRow s2 (g / 8) { bankRow m (s2.is (fFenced g)) (g % 8) (wf w 48 4) (t + 2) with pc := (s0.play a).pc }
  (s3.at t).setPlay a ⟨(s3.play a).pc + 1, t + 1, .none⟩

/-- The DEST of the EMIT that unit g issues in cycle t, or waits with (R129). -/
def emitsAt (s : State) (g t : Nat) : Option Nat :=
  let a : Agent := .dot (Fin.ofNat 4096 g)
  let p := (skipIdle s a 512).play a
  let w := (s.tt a).word p.pc
  let ready := plays s a && (match p.wait with
    | .emit since => decide (since ≤ t)
    | .none => decide (p.at_ = t) && decide (1 ≤ p.pc) && decide (p.pc < period s a) && decide (opcode w = 0x05)
    | _ => false)
  if ready then some (wf w 48 4) else none

/-- A unit of lower index in the cluster claims the bus cycle of an EMIT of unit g in cycle t (R129); one that a full buffer holds back claims
none (06 R152). -/
def claimedBelow (s : State) (g t : Nat) : Bool :=
  (List.range (g % 8)).any (fun i => match emitsAt s (8 * (g / 8) + i) t with
    | some dest => !busClaimed s (g / 8) dest (t + 2)
    | none => false)

/-- The first cycle from `t` on in which an EMIT of unit g may issue, `fuel` tried. -/
def freeEmit (s : State) (g dest : Nat) : Nat → Nat → Nat
  | t, 0 => t
  | t, fuel + 1 => if busClaimed s (g / 8) dest (t + 2) || claimedBelow s g t then freeEmit s g dest (t + 1) fuel else t

/-- EMIT: at issue in locked mode; in staged mode it waits when its bus cycle is taken, or a lower unit claims it in the same cycle (R125,
R129). -/
def execEmit (u : UnitIx) (s : State) : Res :=
  match issue s (.dot u) 0x05 with
  | none => .next s
  | some (s1, w, t) =>
    let s2 := settleBus (settleFuns s1 (u.val / 8) (t - 1)) (u.val / 8) (t - 1)
    if s2.stagedImage && (busClaimed s2 (u.val / 8) (wf w 48 4) (t + 2) || claimedBelow s2 u.val t) then
      .next (s2.setPlay (.dot u) ⟨(s2.play (.dot u)).pc, t, .emit t⟩)
    else .next (emitAt s2 u w t)

/-- EMIT_BUS_CYCLE_FREE: the waiting EMIT issues at the first cycle whose bus cycle is free (R129). -/
def execEmitBusCycleFree (u : UnitIx) (s : State) : Res :=
  let a : Agent := .dot u
  let p := s.play a
  match p.wait with
  | .emit since =>
    let w := (s.tt a).word p.pc
    let k := u.val / 8
    let t0 := max since s.clock.now
    let s1 := settleBus (settleFuns s k (t0 - 1)) k (t0 - 1)
    let t := freeEmit s1 u.val (wf w 48 4) t0 64
    if plays s a && !busClaimed s1 k (wf w 48 4) (t + 2) && !claimedBelow s1 u.val t then
      .next (emitAt (s1.bump (fBlocked a) (t - since)) u w t)
    else .next s
  | _ => .next s

/-- The rows on the bus that a waiting ADDIN of unit g may take, oldest first. -/
def rowsFor (s : State) (g since : Nat) : List BusRow :=
  ((s.cluster (g / 8)).bus.filter (fun r => decide (r.dest = g % 8) && decide (since ≤ r.due))).foldl (fun l r => insertRow r l) []

/-- The row on the bus at cycle t that is addressed to unit g. -/
def rowFor (s : State) (g t : Nat) : Option BusRow :=
  (s.cluster (g / 8)).bus.find? (fun r => decide (r.dest = g % 8) && decide (r.due = t))

/-- ADDIN takes a row at its bus cycle t (R127). -/
def takeRow (s : State) (u : UnitIx) (mb : Nat) (r : BusRow) (t : Nat) : State :=
  let g := u.val
  let a : Agent := .dot u
  let c := s.cluster (g / 8)
  let s1 := settleUnit (s.setCluster (g / 8) { c with bus := c.bus.erase r }) g (t - 1)
  let s2 := if openMain (s1.unit g) mb (t + 1) then hazard s1 3 (whoOf s1 a) mb t else s1
  let s3 := addFlight s2 a g ⟨t + 1, .addin mb r⟩
  (s3.at t).setPlay a ⟨(s3.play a).pc + 1, t + 1, .none⟩

/-- ADDIN: takes the row addressed to the unit; with none, locked mode counts and goes on, staged mode waits (R127, R128). -/
def execAddin (u : UnitIx) (s : State) : Res :=
  let a : Agent := .dot u
  match issue s a 0x06 with
  | none => .next s
  | some (s1, w, t) =>
    let s2 := settleBus (settleFuns s1 (u.val / 8) (t - 1)) (u.val / 8) (t - 1)
    match rowFor s2 u.val t with
    | some r => .next (takeRow s2 u (wf w 52 4) r t)
    | none =>
      if s2.stagedImage then .next (s2.setPlay a ⟨(s2.play a).pc, t, .addin t⟩)
      else .next (nextWord (hazard (s2.bump (fStarved a)) 1 (whoOf s2 a) (wf w 52 4) t) a 1)

/-- ADDIN_ROW_TAKEN: the waiting ADDIN takes the first row addressed to its unit, and the cycles waited count (R128). -/
def execAddinRowTaken (u : UnitIx) (s : State) : Res :=
  let a : Agent := .dot u
  let p := s.play a
  match p.wait with
  | .addin since =>
    let s1 := settleFuns s (u.val / 8) s.clock.now
    match rowsFor s1 u.val since with
    | r :: _ =>
      if plays s1 a then
        .next (takeRow (s1.bump (fStarved a) (r.due - since)) u (wf ((s1.tt a).word p.pc) 52 4) r r.due)
      else .next s
    | [] => .next s
  | _ => .next s

/-! ### PASS, DUP, DROPPKT -/

/-- A beat is taken from a port and sent out of others (R132, R133). -/
def playMove (s : State) (u : UnitIx) (inp : Nat) (outs : List Nat) (t : Nat) : State :=
  let a : Agent := .dot u
  match stagedLacking s u.val outs with
  | q :: rest => waitCredit s a q rest t
  | [] =>
    let r := portRead s u.val inp true t
    nextWord (outs.foldl (fun x o => wordSend x u.val o r.1 t (x.play a).pc) r.2) a 1

/-- PASS (R132). -/
def execPass (u : UnitIx) (s : State) : Res :=
  match issue s (.dot u) 0x07 with
  | none => .next s
  | some (s1, w, t) => .next (playMove s1 u (wf w 56 2) [wf w 54 2] t)

/-- DUP (R133). -/
def execDup (u : UnitIx) (s : State) : Res :=
  match issue s (.dot u) 0x08 with
  | none => .next s
  | some (s1, w, t) => .next (playMove s1 u (wf w 56 2) (maskPorts (wf w 52 4)) t)

/-- The queue that a DROPPKT word names: a unit's port, or a queue of a function unit's cluster (R137, 06 R140). -/
def dropTarget (a : Agent) (w : Word64) : Option QueueId :=
  match a with
  | .dot u => some (.port u (portOf (wf w 56 2)))
  | .fn f => if wf w 53 5 < 16 then some (.bank (Fin.ofNat 512 (f.val / 2)) (Fin.ofNat 16 (wf w 53 5))) else none

/-- DROPPKT (R137, 06 R140). -/
def execDropPkt (a : Agent) (s : State) : Res :=
  match issue s a 0x0B with
  | none => .next s
  | some (s1, w, t) =>
    match dropTarget a w with
    | some q => .next (nextWord (dropRest (settleQueue s1 q t) q t) a 1)
    | none => .next (nextWord s1 a 1)

end Sys2Proof.Machine
end

