-- ==== Sys2Proof/Machine/Memory.lean ====
section
/-!
DEFINITION. Machine/Memory.lean: memory tiles, cluster stores in the package address space, and the region caches
(00_scope.md R10; 10_staged_mode.md R243 to R255).
-/
namespace Sys2Proof.Machine

/-! ### Memory tiles (R243 to R250) -/

/-- The site of memory tile t. -/
def memSite (s : State) (t : Nat) : Nat := (s.sitesOf 2).getD t 0
def memExists (s : State) (t : Nat) : Bool := decide (t < (s.sitesOf 2).length)

/-- Usable bytes of a tile (R243, R245). -/
def tileBytes : Nat := 0x700000000

def fScrubEnM (s : State) (t : Nat) : Fld := ⟨siteBase (memSite s t), 0, 1⟩
def fScrubNowM (s : State) (t : Nat) : Fld := ⟨siteBase (memSite s t), 1, 1⟩
def fTrained (s : State) (t : Nat) : Fld := ⟨siteBase (memSite s t) + 4, 0, 1⟩
def fScrubbing (s : State) (t : Nat) : Fld := ⟨siteBase (memSite s t) + 4, 1, 1⟩
def fRate (s : State) (t : Nat) : Fld := ⟨siteBase (memSite s t) + 4, 2, 3⟩
def fHot (s : State) (t : Nat) : Fld := ⟨siteBase (memSite s t) + 4, 5, 1⟩
def fMemCe (s : State) (t : Nat) : Fld := ⟨siteBase (memSite s t) + 8, 0, 16⟩
def fMemUe (s : State) (t : Nat) : Fld := ⟨siteBase (memSite s t) + 8, 16, 8⟩
def fLinkCe (s : State) (t : Nat) : Fld := ⟨siteBase (memSite s t) + 8, 24, 8⟩
def fUeAddrLo (s : State) (t : Nat) : Fld := ⟨siteBase (memSite s t) + 0xC, 0, 32⟩
def fUeAddrHi (s : State) (t : Nat) : Fld := ⟨siteBase (memSite s t) + 0x10, 0, 3⟩
def fUeValid (s : State) (t : Nat) : Fld := ⟨siteBase (memSite s t) + 0x10, 31, 1⟩
def fScrubBlock (s : State) (t : Nat) : Fld := ⟨siteBase (memSite s t) + 0x14, 0, 26⟩
def fRefreshes (s : State) (t : Nat) : Fld := ⟨siteBase (memSite s t) + 0x18, 0, 32⟩

/-- The block of a tile address, its channel, the byte within the channel, and the byte of the word's check byte (R244). -/
def blockOf (a : Nat) : Nat := a / 448
def channelOf (a : Nat) : Nat := blockOf a % 4
def physOf (a : Nat) : Nat := 512 * (blockOf a / 4) + a % 448
def checkOf (a : Nat) : Nat := 512 * (blockOf a / 4) + 448 + a % 448 / 8

def State.memTile (s : State) (t : Nat) : Store := mget {} s.memTiles t
def State.setMemTile (s : State) (t : Nat) (m : Store) : State := { s with memTiles := mset {} s.memTiles t m }

/-- The controller touches a block: it holds the check bursts of the last 64 blocks of each channel (R246). -/
def touchBlock (s : State) (t blk : Nat) : State :=
  let key := 4 * t + blk % 4
  { s with memHeld := mset [] s.memHeld key ((blk :: (mget [] s.memHeld key).filter (fun b => decide (b ≠ blk))).take 64) }

/-- An uncorrectable word is counted, and the first address recorded (R246). -/
def noteUe (s : State) (t a : Nat) : State :=
  let s1 := s.bump (fMemUe s t)
  if s.is (fUeValid s t) then s1
  else ((s1.setFld (fUeAddrLo s t) (a % 2 ^ 32)).setFld (fUeAddrHi s t) (a / 2 ^ 32)).mark (fUeValid s t)

/-- What inline SECDED finds in a word whose stored copy has the state `e` and that crosses the link with an error which link ECC cannot correct; one
bit of each makes two (R246, R247). -/
def linkCheck (e : Option Ecc) (link : Option Bool) : Option Ecc :=
  match e, link with
  | _, none => e
  | none, some false => some .correctable
  | _, some _ => some .uncorrectable

/-- The error of word `i` of an access that link ECC cannot correct (R247). -/
def linkError (l : LinkEcc) (i : Nat) : Option Bool := (l.passed.find? (fun e => decide (e.1 = i))).map (·.2)

/-- One word read from a tile over a link with this error: the word, whether it is poisoned, and what the read counts (R246, R247). -/
def tileReadOver (s : State) (t w : Nat) (link : Option Bool) : Word64 × Bool × State :=
  let m := s.memTile t
  let s1 := touchBlock s t (blockOf (8 * w))
  match linkCheck (m.check w) link with
  | some .correctable => (m.word w, false, s1.bump (fMemCe s t))
  | some .uncorrectable => (m.word w, true, noteUe s1 t (8 * w))
  | none => (m.word w, false, s1)

/-- One word read from a tile (R246). -/
def tileRead (s : State) (t w : Nat) : Word64 × Bool × State := tileReadOver s t w none

/-- One word written to a tile, poisoned where it was (R246, R247). -/
def tileWrite (s : State) (t w : Nat) (v : Word64) (poison : Bool) : State :=
  let m := s.memTile t
  (touchBlock s t (blockOf (8 * w))).setMemTile t (if poison then m.putPoison w v else m.put w v)

/-- The `n` words just stored from `w` on hold the errors of the link that link ECC cannot correct, for inline SECDED to find (R247). -/
def spoilWords (s : State) (t w n : Nat) (link : LinkEcc) : State :=
  s.setMemTile t ((List.range n).foldl (fun m i => match linkError link i with
    | none => m
    | some e => { m with ecc := mset none m.ecc (w + i) (linkCheck (m.check (w + i)) (some e)) }) (s.memTile t))

/-- Words read from `w` on, the first of them word `i` of an access over the link. -/
def tileReads (s : State) (t : Nat) (link : LinkEcc) : Nat → Nat → Nat → List (Word64 × Bool) × State
  | _, _, 0 => ([], s)
  | w, i, n + 1 =>
    let x := tileReadOver s t w (linkError link i)
    let r := tileReads x.2.2 t link (w + 1) (i + 1) n
    ((x.1, x.2.1) :: r.1, r.2)

/-- REFRESH: refresh takes the port and holds it, and is counted (R248, 07 R184). -/
def execRefresh (t : MemIx) (s : State) : Res :=
  if !memExists s t.val then .next s
  else if (s.arb (.memory t)).emergency then .next s
  else .next ((preemptArb s (.memory t)).bump (fRefreshes s t.val))

/-- REFRESH_RATE_READ: RATE follows the stack's indication; above the stack's limit HOT is set (R248). -/
def execRefreshRateRead (t : MemIx) (rate : BitVec 3) (s : State) : Res :=
  if !memExists s t.val then .next s
  else
    let s1 := s.setFld (fRate s t.val) rate.toNat
    .next (if rate = 5 then s1.mark (fHot s t.val) else s1)

/-- An immediate pass of the patrol scrub begins (R249). -/
def scrubTile (s : State) (t : Nat) : State :=
  ((s.mark (fScrubNowM s t)).mark (fScrubbing s t)).setFld (fScrubBlock s t) 0

/-- SCRUB_NOW (R249). -/
def execScrubNow (t : MemIx) (s : State) : Res :=
  if s.recovery then .next s
  else if memExists s t.val then .next (scrubTile s t.val) else .next s

/-- The scrub corrects, counts or leaves word i of block b, read over a link with these errors (R247, R249). -/
def scrubMemWord (t b : Nat) (link : LinkEcc) (s0 : State) (i : Nat) : State :=
  let w := 56 * b + i
  let s := touchBlock s0 t b
  let m := s.memTile t
  match linkCheck (m.check w) (linkError link i) with
  | some .correctable => (s.setMemTile t (m.put w (m.word w))).bump (fMemCe s t)
  | some .uncorrectable => noteUe s t (8 * w)
  | none => s

/-- The port is idle: nobody holds, waits for or takes it (R249). -/
def portIdle (v : Arbiter) : Bool := !v.busy && !v.emergency && v.parked.isEmpty

/-- The patrol scrub may read a block: it is enabled or asked for, and the cycle is idle at the port (R249). -/
def patrols (s : State) (t : Nat) : Bool :=
  (s.is (fScrubEnM s t) || s.is (fScrubNowM s t)) && portIdle (s.arb (.memory (Fin.ofNat 8 t)))

/-- The patrol scrub reads its next block (R249). -/
def patrolBlock (s : State) (t : Nat) (link : LinkEcc) : State :=
  let b := s.fld (fScrubBlock s t)
  let s1 := (List.range 56).foldl (scrubMemWord t b link) s
  if b + 1 = 2 ^ 26 then ((s1.setFld (fScrubBlock s t) 0).setFld (fScrubNowM s t) 0).setFld (fScrubbing s t) 0
  else (s1.setFld (fScrubBlock s t) (b + 1)).mark (fScrubbing s t)

/-- PATROL_SCRUB_READ: the next block, in an idle cycle of the port (R249). -/
def execPatrolScrubRead (t : MemIx) (s : State) : Res :=
  if memExists s t.val && patrols s t.val then .next (patrolBlock s t.val ⟨0, []⟩) else .next s

/-! ### The package address space (00 R10, 10 R255, R257) -/

/-- Where a 64-bit word of the package address space lies. -/
inductive MemPlace
  | store (k w : Nat)
  | tile (t w : Nat)
  | cache (r i : Nat)
  | none
deriving DecidableEq, Repr

/-- The place of the word at a 48-bit address (00 R10, R255, R257). -/
def placeOf (s : State) (a : Nat) : MemPlace :=
  if a < 0x100000000 then .none
  else if a < 0x140000000 then
    let slot := (a - 0x100000000) / 0x100000
    if slot % 64 < 32 then .store (32 * (slot / 64) + slot % 64) (a % 0x100000 / 8) else .none
  else if a < 0x160000000 then .cache ((a - 0x140000000) / 0x800000) ((a - 0x140000000) % 0x800000 / 8)
  else if a < 0x10000000000 then .none
  else
    let t := (a - 0x10000000000) / 0x1000000000
    let o := a % 0x1000000000
    if memExists s t && decide (o < tileBytes) then .tile t (o / 8) else .none

/-- One word of a cluster store, and whether it reads uncorrectable (04 R104, 06 R146). -/
def storeRead (s : State) (k w : Nat) : Word64 × Bool :=
  let m := (s.cluster k).store
  (m.word w, decide (m.check w = some .uncorrectable))

def storeWrite (s : State) (k w : Nat) (v : Word64) (poison : Bool) : State :=
  let c := s.cluster k
  s.setCluster k { c with store := if poison then c.store.putPoison w v else c.store.put w v }

/-- A line of the cache lies at this set and way. -/
def lineAt (v : Region) (set way : Nat) : Option CacheLine :=
  v.lines.find? (fun l => decide (l.addr % 2048 = set) && decide (l.way = way))

/-- Word i of the data arrays of a region's cache: the word of the line that lies at its place. The layout of the arrays is stated nowhere, nor what
a place without a line holds (R255, notes/assumptions/3.md). -/
def cacheWord (s : State) (r i : Nat) : Word64 × Bool × State :=
  let c := (Config.cacheCell i).toNat
  match lineAt (s.region r) (bits c 9 11) (bits c 5 4) with
  | some l => (l.words.getD (bits c 0 5) 0, l.poison.contains (bits c 0 5), s)
  | none => (Config.freeValue 64 s.freeNext, false, s.drawn)

/-- A word read over the package address space, past the caches. None where nothing is mapped. -/
def busRead (s : State) (a : Nat) : Option (Word64 × Bool × State) :=
  match placeOf s a with
  | .store k w => some ((storeRead s k w).1, (storeRead s k w).2, s)
  | .tile t w => some (tileRead s t w)
  | .cache r i => some (cacheWord s r i)
  | .none => none

/-- A word written over the package address space; writes to the cache window are ignored (R255). -/
def busWrite (s : State) (a : Nat) (v : Word64) (poison : Bool) : Option State :=
  match placeOf s a with
  | .store k w => some (storeWrite s k w v poison)
  | .tile t w => some (tileWrite s t w v poison)
  | .cache _ _ => some s
  | .none => none

/-! ### Region caches (R251 to R255) -/

def fInvBusy (r : Nat) : Fld := ⟨regionBase r + 0x4100, 1, 1⟩
def fHits (r : Nat) : Fld := ⟨regionBase r + 0x4104, 0, 32⟩
def fMisses (r : Nat) : Fld := ⟨regionBase r + 0x4108, 0, 32⟩
def fCacheCe (r : Nat) : Fld := ⟨regionBase r + 0x410C, 0, 16⟩
def fCacheUe (r : Nat) : Fld := ⟨regionBase r + 0x410C, 16, 16⟩
def fPinWait (r : Nat) : Fld := ⟨regionBase r + 0x4110, 0, 16⟩

/-- The line address and the set of a package address (R251). -/
def lineAddr (a : Nat) : Nat := a / 256
def setOf (la : Nat) : Nat := la % 2048

def findLine (v : Region) (la : Nat) : Option CacheLine := v.lines.find? (fun l => decide (l.addr = la))

/-- The least recently used unpinned line of a set (R251). -/
def victim (v : Region) (set : Nat) : Option CacheLine :=
  (v.lines.filter (fun l => decide (setOf l.addr = set) && decide (l.pins = 0))).foldl (fun b l => match b with
    | none => some l
    | some x => if l.used < x.used then some l else some x) none

/-- The ways of a set that hold a line or are being filled. -/
def waysTaken (v : Region) (set : Nat) : List Nat :=
  (v.lines.filter (fun l => decide (setOf l.addr = set))).map (·.way) ++ (v.fills.filter (fun f => decide (setOf f.addr = set))).map (·.way)

/-- Room for a line in a set: a free way, or that of the least recently used unpinned line, which leaves; none when every way is pinned or being
filled (R251, R252). -/
def makeRoom (v : Region) (set : Nat) : Option (Nat × Region) :=
  match (List.range 16).find? (fun w => !(waysTaken v set).contains w) with
  | some w => some (w, v)
  | none => (victim v set).map (fun x => (x.way, { v with lines := v.lines.filter (fun l => decide (l.addr ≠ x.addr)) }))

/-- Indices of the elements that satisfy `p`. -/
def indicesOf {α : Type} (p : α → Bool) (l : List α) : List Nat := ((List.range l.length).zip l).filterMap (fun x => if p x.2 then some x.1 else none)

/-- The tile and the tile address of a line in memory-tile space. -/
def lineTile (la : Nat) : Nat := (256 * la - 0x10000000000) / 0x1000000000
def lineWord (la : Nat) : Nat := 256 * la % 0x1000000000 / 8

/-- The line at `la` is read from memory into the cache (R251, R252). -/
def loadLine (s : State) (r la way : Nat) (link : LinkEcc) : State :=
  let x := tileReads s (lineTile la) link (lineWord la) 0 32
  let v := x.2.region r
  x.2.setRegion r { v with
    lines := v.lines ++ [⟨la, way, x.1.map (·.1), indicesOf (·.2) x.1, [], 0, v.useCount + 1, false⟩]
    useCount := v.useCount + 1 }

def changeLine (v : Region) (la : Nat) (f : CacheLine → CacheLine) : Region :=
  { v with lines := v.lines.map (fun l => if l.addr = la then f l else l) }

/-- A line leaves the cache: at once, or when it unpins (R253). -/
def dropLine (v : Region) (la : Nat) : Region :=
  { v with lines := (v.lines.filter (fun l => !(decide (l.addr = la) && decide (l.pins = 0)))).map (fun l =>
      if l.addr = la then { l with dropOnUnpin := true } else l) }

/-- A line unpins once (R252, R253). -/
def unpinLine (v : Region) (la : Nat) : Region :=
  let v1 := changeLine v la (fun l => { l with pins := l.pins - 1 })
  { v1 with lines := v1.lines.filter (fun l => !(decide (l.addr = la) && decide (l.pins = 0) && l.dropOnUnpin)) }

/-- Words of a line are delivered: corrected ones are counted, and an uncorrectable one is counted and drops the line (R254). -/
def deliverWords (s : State) (r la : Nat) (ws : List Nat) : State :=
  match findLine (s.region r) la with
  | none => s
  | some l =>
    let ce := (ws.filter (fun w => l.weak.contains w)).length
    let ue := (ws.filter (fun w => l.poison.contains w)).length
    let s1 := (s.bump (fCacheCe r) ce).bump (fCacheUe r) ue
    if ue = 0 then s1 else s1.setRegion r (dropLine (s1.region r) la)

/-- A request is delivered from a line present, which is then pinned for its tile (R252). -/
def takeLine (s : State) (r la : Nat) (ws : List Nat) : State :=
  let v := s.region r
  deliverWords (s.setRegion r { changeLine v la (fun l => { l with used := v.useCount + 1, pins := l.pins + 1 }) with
    useCount := v.useCount + 1 }) r la ws

/-- An invalidation drops every unpinned line; a pinned one is dropped when it unpins (R253). -/
def invalidateCache (s : State) (r : Nat) : State :=
  let v := s.region r
  (s.setRegion r { v with lines := (v.lines.filter (fun l => decide (l.pins ≠ 0))).map (fun l => { l with dropOnUnpin := true }) }).mark (fInvBusy r)

/-- INVALIDATION_DONE (R255). -/
def execInvalidationDone (r : RegionIx) (s : State) : Res := .next (s.setFld (fInvBusy r.val) 0)

end Sys2Proof.Machine
end

