-- ==== Sys2Proof/Machine/Stream.lean ====
section
/-!
DEFINITION. Machine/Stream.lean: stream descriptors, buffers and handle queues (10_staged_mode.md R256 to R266). A tile of a transfer is
requested by TILE_REQUEST. Bytes that come from memory move as the region cache delivers them (Machine/CachePort.lean), the others when the tile
two after theirs is requested or by TRANSFER_COMPLETE; a line is pinned until the bytes it brings have moved (notes/assumptions/16.md).
-/
namespace Sys2Proof.Machine

/-! ### Fields -/

def fBusy (r i : Nat) : Fld := ⟨descBase r i + 0x34, 0, 1⟩
def fPending (r i : Nat) : Fld := ⟨descBase r i + 0x34, 1, 1⟩
def fOverwritten (r i : Nat) : Fld := ⟨descBase r i + 0x34, 2, 1⟩
def fDone (r i : Nat) : Fld := ⟨descBase r i + 0x34, 3, 1⟩
def fErr (r i : Nat) : Fld := ⟨descBase r i + 0x34, 4, 3⟩
def fIdxErr (r i : Nat) : Fld := ⟨descBase r i + 0x34, 16, 16⟩
def fMoved (r i : Nat) : Fld := ⟨descBase r i + 0x38, 0, 32⟩
def fBufBase (r b : Nat) : Fld := ⟨regionBase r + 0x9100 + 4 * b, 0, 17⟩
def fBufKib (r b : Nat) : Fld := ⟨regionBase r + 0x9100 + 4 * b, 17, 10⟩
def hqBase (r q : Nat) : Nat := regionBase r + 0x9200 + 0x10 * q
def fHqOverrun (r q : Nat) : Fld := ⟨hqBase r q, 7, 1⟩
def fHqMaxOcc (r q : Nat) : Fld := ⟨hqBase r q, 16, 5⟩

def State.desc (s : State) (r i : Nat) : Desc := mget {} (s.region r).descs i
def State.setDesc (s : State) (r i : Nat) (d : Desc) : State :=
  s.setRegion r { s.region r with descs := mset {} (s.region r).descs i d }
def State.hq (s : State) (r q : Nat) : List (BitVec 16) := mget [] (s.region r).hqs q
def State.setHq (s : State) (r q : Nat) (l : List (BitVec 16)) : State :=
  s.setRegion r { s.region r with hqs := mset [] (s.region r).hqs q l }

/-! ### A snapshot (R256, R261) -/

/-- The descriptor's 12 registers STR_SRC_LO to STR_CTRL. -/
def snapshot (s : State) (r i : Nat) : List Word32 := (List.range 12).map (fun j => s.raw (descBase r i + 4 * j))

def snapN (x : List Word32) (j : Nat) : Nat := (x.getD j 0).toNat
def snapSrc (x : List Word32) : Nat := snapN x 0 + 2 ^ 32 * snapN x 1
def snapDst (x : List Word32) : Nat := snapN x 2 + 2 ^ 32 * snapN x 3
def snapRow (x : List Word32) : Nat := snapN x 5 % 65536
def snapStride (x : List Word32) : Nat := snapN x 6
def snapIdx (x : List Word32) : Nat := snapN x 7 + 2 ^ 32 * snapN x 8
def snapCtl (x : List Word32) (lo w : Nat) : Nat := bits (snapN x 11) lo w
def snapSkind (x : List Word32) : Nat := snapCtl x 3 3
def snapDkind (x : List Word32) : Nat := snapCtl x 6 3
def snapIdxEn (x : List Word32) : Bool := snapCtl x 9 1 = 1
def snapScatter (x : List Word32) : Bool := snapCtl x 10 1 = 1
def snapOwner (x : List Word32) : Nat := snapCtl x 13 6
def snapInEn (x : List Word32) : Bool := snapCtl x 24 1 = 1
def snapOutEn (x : List Word32) : Bool := snapCtl x 29 1 = 1

/-- The bytes of a transfer (R256, R259). -/
def snapBytes (x : List Word32) : Nat := if snapIdxEn x then snapN x 9 * snapRow x * 8 else snapN x 4

/-- The unit of a kind's length (R257). -/
def kindUnit (k : Nat) : Nat := if k = 2 then 32 else 8

/-- The offset that an ADDR field gives within its kind (R257). -/
def kindOffset (k addr : Nat) : Nat :=
  match k with
  | 2 => 0
  | 6 => bits addr 12 20
  | _ => addr

/-- The error that a snapshot starts with (R262): a reserved or one-sided kind, a handle's buffer without a handle, or something that is no
multiple of its unit. -/
def snapError (x : List Word32) : Option Nat :=
  let sk := snapSkind x
  let dk := snapDkind x
  let whole (k addr : Nat) := decide (kindOffset k addr % 8 = 0)
  if sk = 7 ∨ dk = 7 ∨ (3 ≤ sk ∧ sk ≤ 5) ∨ ((sk = 1 ∨ dk = 1) ∧ !snapInEn x) then some 3
  else if whole sk (snapSrc x) && whole dk (snapDst x) && decide (snapStride x % 8 = 0) && decide (snapBytes x % kindUnit sk = 0) &&
      decide (snapBytes x % kindUnit dk = 0) && (!snapIdxEn x || decide (snapIdx x % 4 = 0)) then none
  else some 2

/-- The buffer that a kind 0b001 or 0b110 address names: buffer, cluster and half (R257, R264). -/
def bufferOf (d : Desc) (k addr : Nat) : Nat × Nat × Nat :=
  if k = 1 then
    let h := (d.handle.getD 0).toNat
    (bits h 4 6, bits h 1 3, bits h 0 1)
  else (bits addr 0 6, bits addr 6 3, if bits addr 9 1 = 1 then 1 - d.half else d.half)

/-- The cluster store word at an offset of a buffer's half; none past the half or past the store (R264). -/
def bufferWord (s : State) (r : Nat) (b : Nat × Nat × Nat) (off : Nat) : Option (Nat × Nat) :=
  let kib := s.fld (fBufKib r b.1)
  let w := s.fld (fBufBase r b.1) + b.2.2 * kib * 128 + off / 8
  if off < kib * 1024 ∧ w < 131072 then some (8 * r + b.2.1, w) else none

/-! ### Source and destination of a byte (R257, R259) -/

/-- Index k of the list: a 32-bit word of a cluster store; none where the list is not in one. -/
def indexAt (s : State) (x : List Word32) (k : Nat) : Option Nat :=
  let a := snapIdx x + 4 * k
  match placeOf s a with
  | .store c w => some (bits (storeRead s c w).1.toNat (8 * (a % 8)) 32)
  | _ => none

/-- Where byte `x` of the transfer goes from and to, as offsets from the two addresses. `ok` is false for a row whose index passes LIMIT. -/
structure Piece where
  src : Nat
  dst : Nat
  ok : Bool
deriving DecidableEq, Repr

def pieceAt (s : State) (x : List Word32) (b : Nat) : Option Piece :=
  let row := 8 * snapRow x
  if snapIdxEn x then
    (indexAt s x (b / row)).map (fun k =>
      let far := k * snapStride x + b % row
      let ok := decide (k ≤ snapN x 10)
      if snapScatter x then ⟨b, far, ok⟩ else ⟨far, b, ok⟩)
  else if snapRow x ≠ 0 then some ⟨b / row * snapStride x + b % row, b, true⟩
  else some ⟨b, b, true⟩

/-- The package address of a source byte that lies in memory-tile space. -/
def memSource (x : List Word32) (p : Piece) : Option Nat :=
  let a := snapSrc x + p.src
  if snapSkind x = 0 ∧ 0x10000000000 ≤ a ∧ p.ok then some a else none

/-- A source word: none outside its kind. A word of memory comes from the line pinned for its tile. -/
def readSource (s : State) (r : Nat) (d : Desc) (x : List Word32) (p : Piece) : Option (Word64 × Bool × State) :=
  let off := kindOffset (snapSkind x) (snapSrc x) + p.src
  match snapSkind x with
  | 0 =>
    match placeOf s off, findLine (s.region r) (lineAddr off) with
    | .tile _ _, some l =>
      let w := off % 256 / 8
      some (l.words.getD w 0, l.poison.contains w, s)
    | .tile t w, none => some (tileRead s t w)
    | .store k w, _ => some ((storeRead s k w).1, (storeRead s k w).2, s)
    | _, _ => none
  | k => (bufferWord s r (bufferOf d k (snapSrc x)) off).map (fun c => ((storeRead s c.1 c.2).1, (storeRead s c.1 c.2).2, s))

/-- A word of a unit store at an offset of the transfer half (R257, R263); none past the half. -/
def unitStoreWord (k half off : Nat) : Option Nat :=
  match k with
  | 3 => if off < 65536 then some (8192 * half + off / 8) else none
  | 4 => if off < 4096 then some (512 * half + off / 8) else none
  | _ => if off < 1024 then some (128 * half + off / 8) else none

def putUnit (s : State) (g k w : Nat) (v : Word64) (poison : Bool) : State :=
  let u := s.unit g
  let go (m : Store) : Store := if poison then m.putPoison w v else m.put w v
  s.setUnit g (match k with
    | 3 => { u with weight := go u.weight }
    | 4 => { u with scale := go u.scale }
    | _ => { u with zp := go u.zp })

/-- A destination word: none outside its kind. A write to memory drops the region's line that it hits (R253). -/
def writeDest (s : State) (r : Nat) (d : Desc) (x : List Word32) (p : Piece) (v : Word64) (poison : Bool) : Option State :=
  let off := kindOffset (snapDkind x) (snapDst x) + p.dst
  match snapDkind x with
  | 0 =>
    match placeOf s off with
    | .tile t w => some ((tileWrite s t w v poison).setRegion r (dropLine (s.region r) (lineAddr off)))
    | .store k w => some (storeWrite s k w v poison)
    | _ => none
  | 1 => (bufferWord s r (bufferOf d 1 (snapDst x)) off).map (fun c => storeWrite s c.1 c.2 v poison)
  | 6 => (bufferWord s r (bufferOf d 6 (snapDst x)) off).map (fun c => storeWrite s c.1 c.2 v poison)
  | k => (unitStoreWord k d.half off).map (fun w => putUnit s (64 * r + snapOwner x) k w v poison)

/-! ### Beats in stores (R257) -/

/-- A beat as its 208 bits (00_scope.md R12). -/
def beatFrom (v : Nat) : Beat :=
  { mant := BitVec.ofNat 192 v, exp := BitVec.ofNat 6 (v / 2 ^ 192), tag := BitVec.ofNat 6 (v / 2 ^ 198)
    bad := bits v 204 1 = 1, late := bits v 205 1 = 1, first := bits v 206 1 = 1, last := bits v 207 1 = 1 }

def streamQueue (r addr : Nat) : QueueId := bankQ (8 * r + bits addr 4 3) (bits addr 0 4)

/-- The next cycle in which the engine can read or write a queue. -/
def nextRead (s : State) (q : QueueId) : Nat := max s.clock.now (s.queue q).readCycle
def nextDue (s : State) (q : QueueId) : Nat :=
  (((s.cluster (qCluster q)).arrivals.filter (fun a => decide (a.q = q))).foldl (fun m a => max m a.due) s.clock.now) + 1

/-! ### Ends of a transfer (R261, R262, R265) -/

/-- Lines unpin. -/
def releasePins (s : State) (r : Nat) (las : List Nat) : State := s.setRegion r (las.foldl unpinLine (s.region r))

/-- A descriptor with nothing at work. -/
def Desc.idle (d : Desc) : Desc :=
  { d with
    running := none
    queued := none
    requested := 0
    written := 0
    reqs := []
    pins := []
    handle := none
    poisoned := false
    waitPop := false
    waitPush := false
    stopping := none }

/-- The fill of one line, as `passFills` has it for all of a descriptor's. -/
def passLine (v : Region) (i la : Nat) : Region :=
  { v with fills := v.fills.filterMap (fun f =>
      if f.desc ≠ i ∨ f.addr ≠ la then some f
      else (v.descs.find? (fun e => decide (e.1 ≠ i) && e.2.reqs.any (fun q => decide (q.line = la) && decide (q.status = .waitFill)))).map
        (fun e => { f with desc := e.1 })) }

/-- A fill whose request at the memory arbiter was descriptor i's goes on for another descriptor that waits for it, or is dropped (R252, R262). -/
def passFills (v : Region) (i : Nat) : Region :=
  { v with fills := v.fills.filterMap (fun f =>
      if f.desc ≠ i then some f
      else (v.descs.find? (fun e => decide (e.1 ≠ i) && e.2.reqs.any (fun q => decide (q.line = f.addr) && decide (q.status = .waitFill)))).map
        (fun e => { f with desc := e.1 })) }

/-- The name in which a descriptor presents its region-cache requests (R260). -/
def requesterOf (x : List Word32) : Requester := if snapCtl x 19 1 = 1 then .unit (Fin.ofNat 64 (snapOwner x)) else .engine

/-- Descriptor i presents requests in this name. -/
def presentsAs (s : State) (r : Nat) (q : Requester) (i : Nat) : Bool :=
  match (s.desc r i).running with
  | some x => decide (requesterOf x = q)
  | none => false

/-- A descriptor's requests are withdrawn (R262, 07 R183). A name that another descriptor presents by keeps its request at the region cache. -/
def withdrawDesc (s : State) (r i : Nat) (x : List Word32) : State :=
  let q := requesterOf x
  let others := (s.region r).descs.any (fun e => decide (e.1 ≠ i) && presentsAs s r q e.1)
  let s1 := if others then s else withdrawRequest s (.cache (Fin.ofNat 64 r)) q
  (List.range (s1.sitesOf 2).length).foldl (fun t m =>
    withdrawRequest t (.memory (Fin.ofNat 8 m)) (.desc (Fin.ofNat 64 r) (Fin.ofNat 64 i))) s1

/-- A transfer stops with an error, its requests withdrawn (R262). -/
def stopDesc (s0 : State) (r i code : Nat) : State :=
  let d := s0.desc r i
  let s := match d.running with
    | some x => withdrawDesc s0 r i x
    | none => s0
  let s1 := releasePins (s.setRegion r (passFills (s.region r) i)) r (d.pins.map (·.1))
  (((s1.setDesc r i d.idle).setFld (fBusy r i) 0).setFld (fPending r i) 0).setFld (fErr r i) code

/-- A transfer begins from a snapshot: it pops its handle, or waits for one (R261, R265). -/
def startDesc (s : State) (r i : Nat) (x : List Word32) : State :=
  let s1 := (s.mark (fBusy r i)).setFld (fMoved r i) 0
  let d1 : Desc := { (s.desc r i).idle with running := some x, half := 1 - s.fld fHalf, moved := 0 }
  let q := snapCtl x 20 4
  match snapError x with
  | some e => stopDesc (s1.setDesc r i d1) r i e
  | none =>
    if snapInEn x then
      match s.hq r q with
      | h :: rest => (s1.setHq r q rest).setDesc r i { d1 with handle := some h }
      | [] => s1.setDesc r i { d1 with waitPop := true }
    else s1.setDesc r i d1

/-- ARM of descriptor i: it starts, with DONE and ERR cleared, is queued, or replaces the queued one (R261). Without a started staged run it is ignored, with STATE, in every region. The engine
of an idle region is disabled, and an ARM there has no effect (01 R21, notes/assumptions/67.md). -/
def armDesc (s : State) (r i : Nat) : State :=
  let d := s.desc r i
  let x := snapshot s r i
  if !(s.stagedImage && s.run.started) then s.setFld (fErr r i) 5
  else if s.idleRegion r then s
  else if d.running.isNone then
    startDesc (((s.setDesc r i { d with armed := snapBytes x }).setFld (fDone r i) 0).setFld (fErr r i) 0) r i x
  else
    let s1 := (s.setDesc r i { d with queued := some x, armed := snapBytes x }).mark (fPending r i)
    if d.queued.isSome then s1.mark (fOverwritten r i) else s1

/-- ARM (R261). -/
def execArm (r : RegionIx) (i : Fin 64) (s : State) : Res := .next (if s.recovery then s else armDesc s r.val i.val)

/-- The handle that a completed transfer pushes: what it popped, with BAD as R265 gives. Without one the spec names no handle: a free value
(notes/assumptions/3.md). -/
def outHandle (s : State) (d : Desc) (x : List Word32) : BitVec 16 :=
  match d.handle with
  | none => Config.freeValue 16 s.freeNext
  | some h =>
    let read := decide (snapSkind x = 1)
    let wrote := decide (snapDkind x = 1) && d.poisoned
    if wrote then h ||| 0x8000 else if read then h &&& 0x7FFF else h

/-- The transfer is complete: DONE, and a queued snapshot starts in the next cycle and PENDING clears (R261, R262). -/
def finishDesc (s : State) (r i : Nat) : State :=
  let d := s.desc r i
  let s1 := ((s.setDesc r i d.idle).setFld (fBusy r i) 0).mark (fDone r i)
  match d.queued with
  | some x => startDesc (s1.setFld (fPending r i) 0) r i x
  | none => s1

/-- A handle enters a queue (R265, R266). -/
def pushHandle (s : State) (r q : Nat) (h : BitVec 16) : State :=
  let l := s.hq r q ++ [h]
  (s.setHq r q l).raise (fHqMaxOcc r q) l.length

/-! ### Moving bytes (R258, R259) -/

/-- The places of the `n` words from byte `b` on, each with whether it begins a row (R259); none where an index cannot be read. -/
def piecesAt (s : State) (x : List Word32) (b n : Nat) : Option (List (Piece × Bool)) :=
  (List.range n).foldl (fun acc j => match acc, pieceAt s x (b + 8 * j) with
    | some l, some p => some (l ++ [(p, decide ((b + 8 * j) % (8 * snapRow x) = 0))])
    | _, _ => none) (some [])

/-- One source word. A gather writes zero, poisoned, for a row whose index passes LIMIT; a scatter does not read one that it skips (R259). -/
def sourceWord (s : State) (r : Nat) (d : Desc) (x : List Word32) (p : Piece) : Option (Word64 × Bool × State) :=
  if p.ok then readSource s r d x p else some (0, !snapScatter x, s)

/-- The word is written: not in a row that a scatter skips. -/
def isKept (x : List Word32) (p : Piece) : Bool := p.ok || !snapScatter x

/-- The source words of one move, in order: those of the head beat of a queue-bank queue, or each from its place. None: out of range. A beat leaves
its queue also where a gather writes zero, poisoned, in its place (R259; notes/assumptions/16.md). -/
def moveSource (s : State) (r : Nat) (d : Desc) (x : List Word32) (ps : List Piece) : Option (List (Word64 × Bool) × State) :=
  if snapSkind x = 2 then
    let q := streamQueue r (snapSrc x)
    let y := readAt s q true ⟨qCluster q, 12, 0⟩ (nextRead s q)
    let word (j : Nat) (p : Piece) : Word64 × Bool := if isKept x p && !p.ok then (0, true) else (BitVec.ofNat 64 (bits (beatBits y.1) (64 * j) 64), false)
    some (((List.range 4).zip ps).map (fun e => word e.1 e.2), y.2.2)
  else ps.foldl (fun acc p => match acc with
    | none => none
    | some (l, t) => (sourceWord t r d x p).map (fun y => (l ++ [(y.1, y.2.1)], y.2.2))) (some ([], s))

/-- The words of one move are written, as a beat or one by one. None: out of range. -/
def moveDest (s : State) (r : Nat) (d : Desc) (x : List Word32) (ps : List Piece) (ws : List (Word64 × Bool)) : Option State :=
  if snapDkind x = 2 then
    let q := streamQueue r (snapDst x)
    let handleBad := decide (snapSkind x = 1) && (d.handle.getD 0).getLsbD 15
    let b := badIf (beatFrom (leNat (ws.flatMap (fun w => leBytes 8 w.1.toNat)))) (ws.any (·.2) || handleBad)
    some (if ps.any (isKept x) then sendArrival (spendCredit (endWait s q s.clock.now) q) (qCluster q) q (nextDue s q) 5 b else s)
  else (ps.zip ws).foldl (fun acc p => match acc with
    | none => none
    | some t => if isKept x p.1 then writeDest t r d x p.1 p.2.1 p.2.2 else some t) (some s)

/-- Words moved at once: a beat's four with a queue on either side. -/
def moveUnit (x : List Word32) : Nat := if snapSkind x = 2 ∨ snapDkind x = 2 then 4 else 1

/-- One word or one beat moves (R257, R259). Some false: it waits for a queue; none: it stopped with RANGE. -/
def movePiece (s : State) (r i : Nat) (x : List Word32) : Option (Bool × State) :=
  let d := s.desc r i
  let n := moveUnit x
  let srcQ := streamQueue r (snapSrc x)
  let dstQ := streamQueue r (snapDst x)
  let s0 := if snapSkind x = 2 then settleCluster s (qCluster srcQ) (nextRead s srcQ) else s
  if snapSkind x = 2 ∧ !qReady s0 srcQ then some (false, s)
  else if snapDkind x = 2 ∧ !maySend s0 dstQ then some (false, noteWait s dstQ s.clock.now)
  else match piecesAt s x d.written n with
    | none => none
    | some ps =>
      match moveSource s0 r d x (ps.map (·.1)) with
      | none => none
      | some (ws, s1) =>
        let missed := (ps.filter (fun p => !p.1.ok && p.2)).length
        match moveDest (s1.bump (fIdxErr r i) missed) r d x (ps.map (·.1)) ws with
        | none => none
        | some t =>
          let kept := (ps.zip ws).filter (fun p => isKept x p.1.1)
          let e := t.desc r i
          let m := e.moved + 8 * kept.length
          some (true, (t.setDesc r i { e with
            written := d.written + 8 * n
            moved := m
            poisoned := e.poisoned || kept.any (·.2.2) }).setFld (fMoved r i) (m % 2 ^ 32))

/-! ### Tiles and requests (R252, R258) -/

/-- The next end of a tile after `b` bytes. -/
def tileEnd (x : List Word32) (b : Nat) : Nat := min (snapBytes x) (32768 * (b / 32768 + 1))

/-- Requested tiles that are not yet written. -/
def tilesOpen (d : Desc) : Nat := (d.requested + 32767) / 32768 - d.written / 32768

/-- The bytes of the transfer whose source is at hand: up to the first request still open. -/
def delivered (d : Desc) : Nat := d.reqs.foldl (fun m q => min m q.lo) d.requested

/-- The memory tile that the next word is written to, if any. -/
def writesTile (s : State) (r i : Nat) (x : List Word32) : Option Nat :=
  let d := s.desc r i
  if snapDkind x = 0 ∧ d.written < delivered d then
    match pieceAt s x d.written with
    | some p => if isKept x p then (match placeOf s (snapDst x + p.dst) with
        | .tile t _ => some t
        | _ => none) else none
    | none => none
  else none

/-! ### Requests and what is in flight (R258, R260, R262) -/

/-- PRIO of a descriptor at work. -/
def prioOf (s : State) (r i : Nat) : Nat :=
  match (s.desc r i).running with
  | some x => snapCtl x 0 3
  | none => 7

/-- The first request of a descriptor that is still to be granted. A descriptor holds at most 64 KiB of pinned lines (R258). -/
def nextReq (s : State) (r i : Nat) : Option LineReq :=
  let d := s.desc r i
  if d.pins.length + (d.reqs.filter (fun q => decide (q.status ≠ .new))).length < 256 then d.reqs.find? (fun q => decide (q.status = .new)) else none

/-- A descriptor at work that is neither waiting for a handle nor ending. -/
def movesOn (d : Desc) : Bool := d.running.isSome && !d.waitPop && !d.waitPush && d.stopping.isNone

/-- The memory tile that a descriptor's next write goes to. -/
def nextWrite (s : State) (r i : Nat) : Option Nat :=
  match (s.desc r i).running with
  | some x => if snapSkind x ≠ 2 ∨ qReady s (streamQueue r (snapSrc x)) then writesTile s r i x else none
  | none => none

/-- The descriptors of a region that something is known of, in order. -/
def descsOf (s : State) (r : Nat) : List Nat := (s.region r).descs.map (·.1)

/-- The descriptor has a request for the region-cache port. -/
def asksCache (s : State) (r i : Nat) : Bool := movesOn (s.desc r i) && ((nextReq s r i).isSome || (nextWrite s r i).isSome)

/-- Of the descriptors that present in one name, the engine presents the request of lowest PRIO, with ties going to the lower index (R260). -/
def firstAsking (s : State) (r : Nat) (q : Requester) : Option Nat :=
  ((descsOf s r).filter (fun i => presentsAs s r q i && asksCache s r i)).foldl (fun b i => match b with
    | none => some i
    | some j => if prioOf s r i < prioOf s r j then some i else some j) none

/-- The descriptor whose access the present grant of the region cache carries: the one that ends after it, or the first that asks in that name. -/
def grantedDesc (s : State) (r : Nat) (q : Requester) : Option Nat :=
  ((descsOf s r).find? (fun i => presentsAs s r q i && (s.desc r i).stopping.isSome)).or (firstAsking s r q)

/-- The descriptor has a request in flight: a port is granted to it for an access still to be made, and not only in this cycle, or a line that it waits
for is being filled (R262). -/
def inFlight (s : State) (r i : Nat) : Bool :=
  let q : Requester := .desc (Fin.ofNat 64 r) (Fin.ofNat 64 i)
  let on (a : ArbId) : Bool := decide ((s.arb a).grantedAt < (s.arb a).decisions)
  let c : ArbId := .cache (Fin.ofNat 64 r)
  ((match grantee s c with
    | some o => decide (grantedDesc s r o = some i)
    | none => false) && on c) ||
    (s.desc r i).reqs.any (fun x => decide (x.status = .waitFill)) || (List.range (s.sitesOf 2).length).any (fun m => decide (grantee s (.memory (Fin.ofNat 8 m)) = some q) && on (.memory (Fin.ofNat 8 m)))

/-- A transfer that is to stop has no request in flight any more: it stops (R262). -/
def endStopping (s : State) (r i : Nat) : State :=
  match (s.desc r i).stopping with
  | some c => if inFlight s r i then s else stopDesc s r i c
  | none => s

/-- A transfer stops with an error or ABORTED: after the request in flight, its parked requests withdrawn at once (R262). -/
def haltDesc (s : State) (r i code : Nat) : State :=
  match (s.desc r i).running with
  | none => s
  | some x =>
    if inFlight s r i then
      let s1 := withdrawDesc s r i x
      s1.setDesc r i { s1.desc r i with stopping := some code }
    else stopDesc s r i code

/-- Lines whose bytes have been dealt with unpin. -/
def unpinDone (s : State) (r i : Nat) : State :=
  let d := s.desc r i
  releasePins (s.setDesc r i { d with pins := d.pins.filter (fun p => decide (d.written < p.2)) }) r
    ((d.pins.filter (fun p => decide (p.2 ≤ d.written))).map (·.1))

/-- Bytes up to `e` move, as far as queues allow. What goes to a memory tile goes by the region-cache port instead (R251). -/
def moveTo (s : State) (r i : Nat) (x : List Word32) (e : Nat) : Nat → State
  | 0 => s
  | fuel + 1 =>
    let d := s.desc r i
    if e < d.written + 8 * moveUnit x ∨ d.running.isNone ∨ (writesTile s r i x).isSome then s
    else match movePiece s r i x with
      | none => haltDesc s r i 1
      | some (true, t) => moveTo t r i x e fuel
      | some (false, t) => t

/-- What is at hand of the oldest tile moves, and the lines that brought it unpin (R258). -/
def moveOn (s : State) (r i : Nat) : State :=
  match (s.desc r i).running with
  | none => s
  | some x =>
    let d := s.desc r i
    unpinDone (moveTo s r i x (min (tileEnd x d.written) (delivered d)) 4097) r i

/-- The last piece's request is joined by the word at byte `b` of source address `a`: adjacent, in the same line, and of the same row or a row shorter
than 256 bytes (R258). -/
def joins (x : List Word32) (q : LineReq) (b a : Nat) : Bool :=
  decide (q.hi = b) && decide (a = 256 * q.line + 8 * q.w0 + (q.hi - q.lo)) && decide (lineAddr a = q.line) &&
    (decide (snapRow x = 0) || decide (b % (8 * snapRow x) ≠ 0) || decide (8 * snapRow x < 256))

/-- The merged requests for bytes `b` to `e` of a transfer from memory, last first; none where one is out of range (R245, R258). -/
def tileRequests (s : State) (x : List Word32) (b e : Nat) : Option (List LineReq) :=
  (List.range ((e - b) / 8)).foldl (fun acc j =>
    let c := b + 8 * j
    match acc, pieceAt s x c with
    | some l, some p =>
      match memSource x p with
      | none => some l
      | some a => match placeOf s a with
        | .tile _ _ => match l with
          | q :: rest => if joins x q c a then some ({ q with hi := c + 8 } :: rest) else some (⟨lineAddr a, a % 256 / 8, c, c + 8, .new⟩ :: l)
          | [] => some [⟨lineAddr a, a % 256 / 8, c, c + 8, .new⟩]
        | _ => none
    | _, _ => none) (some [])

/-- Every byte is written: the handle is pushed, or the push waits for room (R262, R265). -/
def completeDesc (s : State) (r i : Nat) (x : List Word32) : State :=
  let d := s.desc r i
  let q := snapCtl x 25 4
  if !snapOutEn x then finishDesc s r i
  else if 16 ≤ (s.hq r q).length then s.setDesc r i { d with waitPush := true }
  else finishDesc (pushHandle s.drawn r q (outHandle s d x)) r i

/-- HANDLE_POP_WAIT_END: a handle has come, and the transfer starts (R265). -/
def execHandlePopWaitEnd (r : RegionIx) (i : Fin 64) (s : State) : Res :=
  let d := s.desc r.val i.val
  match d.running, d.waitPop with
  | some x, true =>
    match s.hq r.val (snapCtl x 20 4) with
    | h :: rest => .next ((s.setHq r.val (snapCtl x 20 4) rest).setDesc r.val i.val { d with handle := some h, waitPop := false })
    | [] => .next s
  | _, _ => .next s

/-- HANDLE_PUSH_WAIT_END: there is room, and the push completes (R265). -/
def execHandlePushWaitEnd (r : RegionIx) (i : Fin 64) (s : State) : Res :=
  let d := s.desc r.val i.val
  match d.running, d.waitPush with
  | some x, true => .next (if (s.hq r.val (snapCtl x 25 4)).length < 16 then completeDesc s r.val i.val x else s)
  | _, _ => .next s

/-- STR_HQ_PUSH: a register push, ignored on a full queue (R266). -/
def hqPush (s : State) (r q : Nat) (v : Word32) : State :=
  if 16 ≤ (s.hq r q).length then s.mark (fHqOverrun r q) else pushHandle s r q (BitVec.ofNat 16 v.toNat)

/-- STR_HQ_PUSH (R266). -/
def execStrHqPush (r : RegionIx) (q : Fin 16) (v : Word32) (s : State) : Res := .next (if s.recovery then s else hqPush s r.val q.val v)

/-- A read of STR_HQ_POP: the head handle, or 0xFFFF (R266). -/
def hqPop (s : State) (r q : Nat) : Word32 × State :=
  match s.hq r q with
  | h :: rest => (BitVec.ofNat 32 h.toNat, s.setHq r q rest)
  | [] => (0xFFFF, s)

/-- STR_HQ_POP (R266). -/
def execStrHqPop (r : RegionIx) (q : Fin 16) (s : State) : Res :=
  let x := if s.recovery then (0, s) else hqPop s r.val q.val
  .next (x.2.send (.read (hqBase r.val q.val + 8) x.1))

end Sys2Proof.Machine
end

