-- ==== Sys2Proof/Machine/CachePort.lean ====
section
/-!
DEFINITION. Machine/CachePort.lean: the requests of the stream descriptors at the region caches and the memory controllers, the accesses that grants
carry, the fills, and ABORT (07_links_queues_arbiters.md R179, R181, R184; 10_staged_mode.md R251 to R254, R258, R260, R262).
-/
namespace Sys2Proof.Machine

/-! ### Who asks, and in which order (07 R179, 10 R260) -/

/-- The rank at a region cache: the region unit index, then the stream engine. -/
def cacheRank : Requester → Nat
  | .unit u => u.val
  | _ => 64

/-- The rank at a memory controller: PRIO, then the region, then the descriptor; host transfers after all descriptors of PRIO 7. -/
def memoryRank (s : State) : Requester → Nat
  | .desc r i => 4096 * prioOf s r.val i.val + 64 * r.val + i.val
  | _ => 8 * 4096

/-- The line that a descriptor's next write goes to. -/
def nextWriteLine (s : State) (r i : Nat) : Option Nat :=
  match (s.desc r i).running with
  | some x => (pieceAt s x (s.desc r i).written).map (fun p => lineAddr (snapDst x + p.dst))
  | none => none

/-- The descriptor has a request for the controller of tile t: a fill of its own, or a write. -/
def asksMemory (s : State) (t r i : Nat) : Bool :=
  (s.region r).fills.any (fun f => decide (f.desc = i) && decide (lineTile f.addr = t)) ||
    (movesOn (s.desc r i) && decide (nextWrite s r i = some t))

/-! ### The accesses of a descriptor (R251, R252, R254) -/

/-- The words of a line that a request brings. -/
def reqWords (q : LineReq) : List Nat := (List.range ((q.hi - q.lo) / 8)).map (q.w0 + ·)

def setStatus (s : State) (r i : Nat) (q : LineReq) (st : ReqStatus) : State :=
  let d := s.desc r i
  s.setDesc r i { d with reqs := d.reqs.map (fun p => if p = q then { p with status := st } else p) }

/-- A request is answered from the line, which stays pinned until its bytes have moved. -/
def deliverReq (s : State) (r i : Nat) (q : LineReq) : State :=
  let d := s.desc r i
  let s1 := s.setDesc r i { d with reqs := d.reqs.filter (fun p => decide (p ≠ q)), pins := d.pins ++ [(q.line, q.hi)] }
  takeLine s1 r q.line (reqWords q)

/-- The same, and its bytes move as far as they can. -/
def answerReq (s : State) (r i : Nat) (q : LineReq) : State := moveOn (deliverReq s r i q) r i

/-- A request misses: it joins the fill of its line, starts one in a way with room, or waits for a way that is not pinned (R251, R252). -/
def missLine (s : State) (r i : Nat) (q : LineReq) : State :=
  let v := s.region r
  if v.fills.any (fun f => decide (f.addr = q.line)) then setStatus s r i q .waitFill
  else match makeRoom v (setOf q.line) with
    | none => setStatus s r i q (match q.status with
      | .waitPin c => .waitPin c
      | _ => .waitPin s.clock.now)
    | some (w, v1) =>
      setStatus ((s.setRegion r { v1 with fills := v1.fills ++ [⟨q.line, w, i⟩], missed := some (i, q.line) }).bump (fMisses r)) r i q .waitFill

/-- The read that holds the port and has missed is abandoned with its fill, while that is outstanding: its request is to be granted again, and the
fill goes on only for another descriptor that waits for it (R184). -/
def abandonMiss (s : State) (r : Nat) : State :=
  let v := s.region r
  match v.missed, v.arb.busy && v.arb.served with
  | some (i, la), true =>
    if v.fills.any (fun f => decide (f.addr = la) && decide (f.desc = i)) then
      let d := s.desc r i
      let s1 := s.setDesc r i { d with reqs := d.reqs.map (fun q => if q.line = la ∧ q.status = .waitFill then { q with status := .new } else q) }
      let s2 := s1.setRegion r { passLine (s1.region r) i la with missed := none }
      let a := (s2.region r).arb
      s2.setRegion r { s2.region r with arb := { a with parked := parkAll a.parked a.owner.toList a.decisions } }
    else s
  | _, _ => s

/-- An access of the granted requester begins: none of the grants before it is in progress any more. -/
def beginAccess (s : State) (r : Nat) : State := s.setRegion r { s.region r with missed := none }

/-- A request's read at the region cache. One that ends with it asks the memory for nothing more (R262). -/
def readAccess (s : State) (r i : Nat) (q : LineReq) : State :=
  if (findLine (s.region r) q.line).isSome then endStopping (answerReq (s.bump (fHits r)) r i q) r i
  else if (s.desc r i).stopping.isSome then endStopping s r i
  else missLine s r i q

/-- The write of as many adjacent words of one line as are at hand: how many, and the state after (R253, R258). -/
def writeLine (s : State) (r i : Nat) (x : List Word32) : Nat → Nat × State
  | 0 => (0, s)
  | fuel + 1 =>
    let d := s.desc r i
    match pieceAt s x d.written, movePiece s r i x with
    | some p, some (true, t) =>
      let goOn := match pieceAt t x (t.desc r i).written with
        | some n => decide (n.dst = p.dst + 8 * moveUnit x) && decide (lineAddr (snapDst x + n.dst) = lineAddr (snapDst x + p.dst)) &&
            (writesTile t r i x).isSome
        | none => false
      let n := if isKept x p then moveUnit x else 0
      if goOn then
        let y := writeLine t r i x fuel
        (n + y.1, y.2)
      else (n, t)
    | some _, some (false, t) => (0, t)
    | _, _ => (0, haltDesc s r i 1)

/-- The address that a descriptor's next write goes to. -/
def nextWriteAddr (s : State) (r i : Nat) : Option Nat :=
  match (s.desc r i).running with
  | some x => (pieceAt s x (s.desc r i).written).map (fun p => snapDst x + p.dst)
  | none => none

/-- The words just written from an address on hold the errors of the link (R247). -/
def spoilAt (s : State) (a n : Nat) (link : LinkEcc) : State := match placeOf s a with
  | .tile t w => spoilWords s t w n link
  | _ => s

/-- A write at the region cache needs the controller of its tile as well: it is made when that port is the descriptor's too (07 R180). -/
def writeAccess (s : State) (r i t : Nat) (link : LinkEcc) : State :=
  match (s.desc r i).running with
  | none => s
  | some x =>
    let m : ArbId := .memory (Fin.ofNat 8 t)
    if grantee s m = some (.desc (Fin.ofNat 64 r) (Fin.ofNat 64 i)) then
      let y := writeLine (beginAccess (serveArb (serveArb s (.cache (Fin.ofNat 64 r))) m) r) r i x 32
      let s1 := spoilAt y.2 ((nextWriteAddr s r i).getD 0) y.1 link
      endStopping (unpinDone (s1.bump (fLinkCe s t) link.corrected) r i) r i
    else s

/-! ### Requests that wait at the cache (R252) -/

/-- The cycles up to now that a request has waited for an unpinned way count. -/
def chargePin (s : State) (r i : Nat) (q : LineReq) : State :=
  match q.status with
  | .waitPin c => setStatus (s.bump (fPinWait r) (s.clock.now - c)) r i q (.waitPin (max c s.clock.now))
  | _ => s

def chargePins (s : State) (r : Nat) : State :=
  (descsOf s r).foldl (fun t i => (t.desc r i).reqs.foldl (fun x q => chargePin x r i q) t) s

/-- A request that waits for a way tries again. -/
def retryPin (r i : Nat) (s : State) (q : LineReq) : State :=
  match q.status with
  | .waitPin _ => if (findLine (s.region r) q.line).isSome then answerReq (s.bump (fHits r)) r i q else missLine s r i q
  | _ => s

/-- The requests that wait for a way try again, in the order of their descriptors. -/
def retryPins (s : State) (r : Nat) : State :=
  let s1 := chargePins s r
  (descsOf s1 r).foldl (fun t i => ((t.desc r i).reqs).foldl (retryPin r i) t) s1

/-- CACHE_ACCESS: the granted read hits, joins a fill, starts one, or waits for an unpinned way; a write does not allocate, and drops a line it hits
(R251 to R254). An access that is not the one granted does not take place. -/
def execCacheAccess (rx : RegionIx) (addr : BitVec 48) (write : Bool) (s : State) : Res :=
  let r := rx.val
  match grantee s (.cache rx) with
  | none => .next s
  | some q =>
    match grantedDesc s r q with
    | none => .next s
    | some i =>
      match nextReq s r i, nextWrite s r i with
      | some l, _ =>
        if !write && decide (lineAddr addr.toNat = l.line) then .next (retryPins (readAccess (beginAccess (serveArb s (.cache rx)) r) r i l) r) else .next s
      | none, some t =>
        if write && decide (nextWriteLine s r i = some (lineAddr addr.toNat)) then .next (retryPins (writeAccess s r i t ⟨0, []⟩) r) else .next s
      | none, none => .next s

/-- Every request that waits for the line is delivered before the bytes of any move, so that an uncorrectable word, which drops the line when it
unpins, reaches each of them (R252, R254). A transfer that was to stop after it, stops. -/
def serveWaiters (s : State) (r la : Nat) : State :=
  let waits (q : LineReq) : Bool := decide (q.line = la) && decide (q.status = .waitFill)
  let is := (descsOf s r).filter (fun i => (s.desc r i).reqs.any waits)
  let s1 := is.foldl (fun t i => ((t.desc r i).reqs.filter waits).foldl (fun x q => deliverReq x r i q) t) s
  is.foldl (fun t i => endStopping (moveOn t r i) r i) s1

/-- CACHE_FILL: with the controller granted to the descriptor whose request it is, the line's fill completes, and the requests that wait for it are
served (R252, R254). -/
def execCacheFill (rx : RegionIx) (fill : FillRead) (s : State) : Res :=
  let r := rx.val
  let la := lineAddr fill.addr.toNat
  let v := s.region r
  match v.fills.find? (fun f => decide (f.addr = la)) with
  | none => .next s
  | some f =>
    let m : ArbId := .memory (Fin.ofNat 8 (lineTile la))
    if grantee s m = some (.desc rx (Fin.ofNat 64 f.desc)) then
      let s1 := (serveArb (s.setRegion r { v with fills := v.fills.filter (fun g => decide (g.addr ≠ la)) }) m).bump (fLinkCe s (lineTile la)) fill.link.corrected
      let s2 := loadLine s1 r la f.way fill.link
      .next (retryPins (serveWaiters s2 r la) r)
    else .next s

/-- TILE_REQUEST: with at most one tile before it unwritten, the next tile's bytes are requested (R258). -/
def execTileRequest (rx : RegionIx) (ix : Fin 64) (s : State) : Res :=
  let r := rx.val
  let i := ix.val
  match (s.desc r i).running with
  | none => .next s
  | some x =>
    let d0 := s.desc r i
    if !s.runs || d0.waitPop || d0.waitPush || d0.stopping.isSome || decide (snapBytes x ≤ d0.requested) then .next s
    else
      let s1 := if 2 ≤ tilesOpen d0 then moveOn s r i else s
      let d := s1.desc r i
      if d.running.isNone || decide (2 ≤ tilesOpen d) then .next (retryPins s1 r)
      else
        let e := tileEnd x d.requested
        match tileRequests s1 x d.requested e with
        | none => .next (retryPins (haltDesc s1 r i 1) r)
        | some qs => .next (retryPins (s1.setDesc r i { d with requested := e, reqs := d.reqs ++ qs.reverse }) r)

/-- TRANSFER_COMPLETE: the last byte is written; DONE is set, the handle pushed, and a queued snapshot starts (R261, R262, R265). -/
def execTransferComplete (rx : RegionIx) (ix : Fin 64) (s : State) : Res :=
  let r := rx.val
  let i := ix.val
  match (s.desc r i).running with
  | none => .next s
  | some x =>
    let d := s.desc r i
    if !s.runs || d.waitPop || d.waitPush || d.stopping.isSome || decide (d.requested < snapBytes x) then .next s
    else
      let s2 := retryPins (moveOn (moveOn s r i) r i) r
      let d2 := s2.desc r i
      if d2.running.isSome && decide (snapBytes x ≤ d2.written) then .next (completeDesc s2 r i x) else .next s2

/-- INVALIDATE (R253, R255). -/
def execInvalidate (r : RegionIx) (s : State) : Res := .next (if s.recovery then s else retryPins (invalidateCache s r.val) r.val)

/-! ### Abort (R262) -/

/-- ABORT stops a transfer after the request in flight, and withdraws the requests that are parked (R262). -/
def abortDesc (s : State) (r i : Nat) : State :=
  match (s.desc r i).running with
  | none => s
  | some _ => retryPins (haltDesc s r i 4) r

/-- ABORT (R262). -/
def execAbort (r : RegionIx) (i : Fin 64) (s : State) : Res := .next (if s.recovery then s else abortDesc s r.val i.val)

end Sys2Proof.Machine
end

