-- ==== Sys2Proof/Machine/Commit.lean ====
section
/-!
DEFINITION. Machine/Commit.lean: staged fields and their commit, set by set (08_logic_fabric.md R196, R198, R213 to R215; 07 R173, R174, R176,
R177, R190; 04 R97; 06 R155).
-/
namespace Sys2Proof.Machine

def fCommitPending (r : Nat) : Fld := ⟨regionBase r + 0x1008, 1, 1⟩
def fStageBusy (r : Nat) : Fld := ⟨regionBase r + 0x1008, 2, 1⟩
def fCommitRefused (r : Nat) : Fld := ⟨regionBase r + 0x1008, 3, 1⟩
def fCommitCrossing (r : Nat) : Fld := ⟨regionBase r + 0x1008, 16, 12⟩

/-! ### The staged bank -/

/-- The value staged at an address. -/
def stagedAt (s : State) (a : Nat) : Option Word32 := mget none s.staged a

/-- The value that would be in effect after the next commit. -/
def afterCommit (s : State) (a : Nat) : Word32 := (stagedAt s a).getD (s.raw a)

def unstage (s : State) (a : Nat) : State := { s with staged := mset none s.staged a none }

/-- The region that a staged register belongs to. -/
def regionOf (a : Nat) : Nat := 4 * ((a - 0x1000000) / 0x100000) + a % 0x100000 / 0x40000

/-- A write to a staged field: ignored while a commit of its region is pending (R213, R215). -/
def stageWrite (s : State) (a : Nat) (v : Word32) : State :=
  if s.is (fCommitPending (regionOf a)) then s.mark (fStageBusy (regionOf a))
  else { s with staged := mset none s.staged a (some v) }

/-- The bits of a register that are staged fields. -/
def stagedMask (s : State) (a : Nat) : Word32 := maskOf (regSpec s.fuses.variant a) (fun c => c == .staged)

/-- What is staged at an address takes effect. -/
def takeStaged (s : State) (a : Nat) : State :=
  match stagedAt s a with
  | none => s
  | some v => (unstage s a).setRaw a ((s.raw a &&& ~~~(stagedMask s a)) ||| (v &&& stagedMask s a))

def anyStaged (s : State) (as : List Nat) : Bool := as.any (fun a => (stagedAt s a).isSome)

/-- The boundaries at which staged configuration and releases take effect: a crossing start, or in a staged run a barrier release (R209, R211,
R214). The cycle of the latest one. -/
def lastBoundary (s : State) : Nat := if s.run.started && s.stagedImage then s.stage.releasedAt else s.clock.xstart

/-- A locked run is started. -/
def lockedRun (s : State) : Bool := s.run.started && s.lockedImage

/-! ### Dot units -/

def formatAddrs (g : Nat) : List Nat :=
  [unitBase g + 0x08, unitBase g + 0x10, unitBase g + 0x14, unitBase g + 0x18, unitBase g + 0x1C]

/-- The weight-format set: a reserved FORMAT refuses it whole (04 R97). -/
def commitFormat (s : State) (g : Nat) : State :=
  let as := formatAddrs g
  if !anyStaged s as then s
  else if 3 ≤ bits (afterCommit s (unitBase g + 0x08)).toNat 0 3 then (as.foldl unstage s).mark (fCommitRefused (unitRegion g))
  else as.foldl takeStaged s

/-- The writer's credits are loaded with depth − count (07 R173). -/
def loadCredits (s : State) (q : QueueId) : State :=
  let v := s.queue q
  s.setQueue q { v with taken := v.beats.length, returning := [] }

/-- MODE of a port or steering input queue: refused under 07 R174. -/
def commitMode (s : State) (q : QueueId) : State :=
  match stagedAt s (qBase q) with
  | none => s
  | some v =>
    if lockedRun s && v.getLsbD 0 then (unstage s (qBase q)).mark (fQCfgErr q)
    else loadCredits (takeStaged (settleQueue s q s.clock.now) (qBase q)) q

/-- The sets of one dot unit. -/
def commitUnit (s : State) (g : Nat) : State :=
  let s1 := takeStaged (commitFormat s g) (unitBase g + 0x64)
  (List.range 4).foldl (fun t p => commitMode t (.port (Fin.ofNat 4096 g) (portOf p))) s1

/-! ### Queue-bank queues -/

/-- A queue's set as it would stand: QUE_CFG, QUE_ROUTE, and whether it is a new one. -/
structure QSet where
  cfg : Nat
  route : Nat
  fresh : Bool
deriving DecidableEq, Repr

def qsBase (x : QSet) : Nat := bits x.cfg 0 10
def qsDepth (x : QSet) : Nat := bits x.cfg 16 11

/-- Two queues clash: their regions overlap, or they share an injection target or a capture source (07 R177). -/
def qClash (x y : QSet) : Bool :=
  (decide (0 < qsDepth x) && decide (0 < qsDepth y) && decide (qsBase x < qsBase y + qsDepth y) && decide (qsBase y < qsBase x + qsDepth x)) ||
    (decide (bits x.route 5 1 = 1) && decide (bits y.route 5 1 = 1) && decide (bits x.route 0 5 = bits y.route 0 5)) ||
    (decide (bits x.route 13 1 = 1) && decide (bits y.route 13 1 = 1) && decide (bits x.route 8 5 = bits y.route 8 5))

/-- A set is out of the bank, or clashes with another queue of its cluster. -/
def qBad (sets : List QSet) (i : Nat) : Bool :=
  let x := sets.getD i ⟨0, 0, false⟩
  decide (qsDepth x = 0) || decide (1024 < qsBase x + qsDepth x) ||
    (List.range 16).any (fun j => decide (j ≠ i) && qClash x (sets.getD j ⟨0, 0, false⟩))

def bankAddr (k q : Nat) : Nat := clusterBase k + 0xC00 + 0x20 * q

def oldSet (s : State) (k q : Nat) : QSet := ⟨(s.raw (bankAddr k q)).toNat, (s.raw (bankAddr k q + 0x18)).toNat, false⟩

def newSet (s : State) (k q : Nat) : QSet :=
  ⟨(afterCommit s (bankAddr k q)).toNat, (afterCommit s (bankAddr k q + 0x18)).toNat,
    anyStaged s [bankAddr k q, bankAddr k q + 0x18]⟩

/-- Refused sets go back to their old ones until no clash remains (07 R177). -/
def settleSets (s : State) (k : Nat) : Nat → List QSet → List QSet
  | 0, sets => sets
  | fuel + 1, sets =>
    let bad := (List.range 16).filter (fun i => (sets.getD i ⟨0, 0, false⟩).fresh && qBad sets i)
    if bad.isEmpty then sets
    else settleSets s k fuel ((List.range 16).map (fun i => if bad.contains i then oldSet s k i else sets.getD i ⟨0, 0, false⟩))

/-- The sets that take effect: HOLD in a started locked run is refused first (07 R174), then clashes. -/
def acceptedSets (s : State) (k : Nat) : List QSet :=
  settleSets s k 17 ((List.range 16).map (fun i =>
    let x := newSet s k i
    if x.fresh && lockedRun s && decide (bits x.cfg 27 1 = 1) then oldSet s k i else x))

/-- One queue takes its set, or keeps its old one and sets CFG_ERR; a new BASE or DEPTH purges it (07 R190). -/
def commitQueue (s : State) (k q : Nat) (x : QSet) : State :=
  let a := bankAddr k q
  let qid : QueueId := bankQ k q
  if !anyStaged s [a, a + 0x18] then s
  else if !x.fresh then (unstage (unstage s a) (a + 0x18)).mark (fQCfgErr qid)
  else
    let moved := decide (bits x.cfg 0 27 ≠ bits (s.raw a).toNat 0 27)
    let held := (s.queue qid).beats.length
    let s1 := takeStaged (takeStaged s a) (a + 0x18)
    if moved then (purgeQueue s1 qid).bump (fQDiscard qid) held else loadCredits s1 qid

/-- Every staged set of the queue bank of cluster k. -/
def commitBank (s : State) (k : Nat) : State :=
  let sets := acceptedSets s k
  (List.range 16).foldl (fun t q => commitQueue t k q (sets.getD q ⟨0, 0, false⟩)) s

/-! ### Steering and clocks -/

/-- The steering map: OP 7 refuses it whole (06 R163); it waits for a row in progress (R155). -/
def commitSteer (s : State) (k : Nat) : State :=
  let a := steBase k
  if !anyStaged s [a, a + 4] then s
  else
    let m0 := afterCommit s a
    let m1 := afterCommit s (a + 4)
    let s1 := unstage (unstage s a) (a + 4)
    if bits m0.toNat 0 3 = 7 then s1.mark (fCommitRefused (clusterRegion k)) else commitMap s1 k m0 m1

/-- The sets of one cluster. -/
def commitCluster (s : State) (k : Nat) : State :=
  let s0 := if anyStaged s ((List.range 16).map (fun q => bankAddr k q) ++ (List.range 16).map (fun q => bankAddr k q + 0x18)) then
    commitBank (settleAll s k s.clock.now) k else s
  let s1 := (List.range 8).foldl (fun t u => commitUnit t (8 * k + u)) s0
  commitSteer ((List.range 4).foldl (fun t i => commitMode t (steerIn k i)) s1) k

/-- Tree i clocks a boundary port of the region. -/
def treeServes (s : State) (r i : Nat) : Bool :=
  (List.range 8).any (fun c => (List.range 8).any (fun j =>
    portEnabled (binding s (8 * r + c)) j && decide (portTree s (8 * r + c) j = i)))

/-- A PLL setting that R196 leaves off: 156.25 MHz × M / D outside 10 to 600 MHz, or M or D outside its range. -/
def pllOut (v : Nat) : Bool :=
  let m := bits v 0 7
  let d := bits v 8 6
  decide (m < 8) || decide (96 < m) || decide (d = 0) || decide (15625 * m < 1000 * d) || decide (60000 * d < 15625 * m)

/-- A PLL's new setting: it relocks, or its ERR bit says that it stays off (R196). -/
def commitPll (s : State) (r i : Nat) : State :=
  let a := rgnPll r i
  if (stagedAt s a).isNone then s
  else
    let s1 := takeStaged s a
    let v := (s1.raw a).toNat
    if bits v 0 17 = bits (s.raw a).toNat 0 17 then s1
    else (s1.setFld ⟨a, 17, 1⟩ 0).setFld ⟨a, 18, 1⟩ (bit (decide (bits v 16 1 = 1) && pllOut v))

/-- A tree whose source has changed since `old` stays low for at least two cycles of the old source and two of the new one, how much longer is open
(R198, notes/assumptions/15.md). -/
def switchTrees (old s : State) (r : Nat) : State :=
  ((List.range 4).filter (fun i => decide (treeSrc s r i ≠ treeSrc old r i))).foldl (fun t i =>
    (t.setRegion r { t.region r with
      treeHold := mset 0 (t.region r).treeHold i
        (t.clock.now + 2 * treePeriod old r i + 2 * treePeriod s r i + (Config.freeValue 16 t.freeNext).toNat) }).drawn) s

/-- The clock set: refused while a locked run is started when a tree that clocks a boundary port would change (R198). -/
def commitClocks (s : State) (r : Nat) : State :=
  let as := [rgnClk r, rgnPll r 0, rgnPll r 1]
  if !anyStaged s as then s
  else
    let new := (afterCommit s (rgnClk r)).toNat
    let old := (s.raw (rgnClk r)).toNat
    if lockedRun s && (List.range 4).any (fun i => decide (bits new (8 * i) 6 ≠ bits old (8 * i) 6) && treeServes s r i) then
      (as.foldl unstage s).mark (fCommitRefused r)
    else
      let s1 := playBlocks s (fun k => decide (k / 8 = r)) s.clock.now
      switchTrees s1 (commitPll (commitPll (takeStaged s1 (rgnClk r)) r 0) r 1) r

/-! ### The commit -/

/-- Every staged field of the region's units, clusters and region resources, set by set (R214). -/
def commitRegion (s : State) (r : Nat) : State :=
  let s1 := (List.range 8).foldl (fun t c => commitCluster t (8 * r + c)) s
  (commitClocks s1 r).setFld (fCommitCrossing r) (s.fld fCurrent)

/-- A commit that was pending takes effect. -/
def finishCommit (s : State) (r : Nat) : State :=
  let s1 := commitRegion s r
  (s1.setFld (fCommitPending r) 0).setRegion r { s1.region r with requestAt := none }

/-- REQUEST (R214, R215): refused while the region is being reconfigured; a second one joins; with the array clock stopped it takes effect at
once. -/
def execCommitRequest (r : RegionIx) (s : State) : Res :=
  if s.recovery then .next s
  else if s.is (fRgnBusy r.val) then .next (s.mark (fCommitRefused r.val))
  else if s.is (fCommitPending r.val) then .next s
  else if !s.runs then .next (finishCommit s r.val)
  else .next ((s.mark (fCommitPending r.val)).setRegion r.val { s.region r.val with requestAt := some s.clock.now })

/-- COMMIT: at the first crossing start at least 4 cycles after the request, or at the next barrier release of a staged run (R214). -/
def execCommit (r : RegionIx) (s : State) : Res :=
  match (s.region r.val).requestAt with
  | none => .next s
  | some t =>
    let due := if s.run.started && s.stagedImage then decide (t < s.stage.releasedAt) else decide (t + 4 ≤ s.clock.xstart)
    if due || !s.runs then .next (finishCommit s r.val) else .next s

/-- FREE_PLL_LOCKED (R196). -/
def execFreePllLocked (r : RegionIx) (pll : Fin 2) (s : State) : Res :=
  let a := rgnPll r.val pll.val
  let v := (s.raw a).toNat
  if bits v 16 1 = 1 ∧ !pllOut v then .next ((playBlocks s (fun k => decide (k / 8 = r.val)) s.clock.now).mark ⟨a, 17, 1⟩) else .next s

end Sys2Proof.Machine
end

