-- ==== Sys2Proof/Machine/Crypto.lean ====
section
/-!
DEFINITION. Machine/Crypto.lean: the CRC-32 of IEEE 802.3 (08_logic_fabric.md R205) and SHA-256 of FIPS 180-4, which the spec names
(14_boot_and_trust.md R364).
-/
namespace Sys2Proof.Machine

/-- One bit of the reflected CRC-32. -/
def crcBit (c : BitVec 32) : BitVec 32 := if c.getLsbD 0 then (c >>> 1) ^^^ 0xEDB88320#32 else c >>> 1

/-- One byte of the CRC-32. -/
def crcByte (c : BitVec 32) (b : Byte) : BitVec 32 :=
  (List.range 8).foldl (fun x _ => crcBit x) (c ^^^ b.zeroExtend 32)

/-- CRC-32: reflected, initial value and final exclusive-or all ones (R205). -/
def crc32 (l : List Byte) : BitVec 32 := l.foldl crcByte 0xFFFFFFFF#32 ^^^ 0xFFFFFFFF#32

/-- The round constants of SHA-256. -/
def shaK : List Nat :=
  [0x428a2f98, 0x71374491, 0xb5c0fbcf, 0xe9b5dba5, 0x3956c25b, 0x59f111f1, 0x923f82a4, 0xab1c5ed5] ++
  [0xd807aa98, 0x12835b01, 0x243185be, 0x550c7dc3, 0x72be5d74, 0x80deb1fe, 0x9bdc06a7, 0xc19bf174] ++
  [0xe49b69c1, 0xefbe4786, 0x0fc19dc6, 0x240ca1cc, 0x2de92c6f, 0x4a7484aa, 0x5cb0a9dc, 0x76f988da] ++
  [0x983e5152, 0xa831c66d, 0xb00327c8, 0xbf597fc7, 0xc6e00bf3, 0xd5a79147, 0x06ca6351, 0x14292967] ++
  [0x27b70a85, 0x2e1b2138, 0x4d2c6dfc, 0x53380d13, 0x650a7354, 0x766a0abb, 0x81c2c92e, 0x92722c85] ++
  [0xa2bfe8a1, 0xa81a664b, 0xc24b8b70, 0xc76c51a3, 0xd192e819, 0xd6990624, 0xf40e3585, 0x106aa070] ++
  [0x19a4c116, 0x1e376c08, 0x2748774c, 0x34b0bcb5, 0x391c0cb3, 0x4ed8aa4a, 0x5b9cca4f, 0x682e6ff3] ++
  [0x748f82ee, 0x78a5636f, 0x84c87814, 0x8cc70208, 0x90befffa, 0xa4506ceb, 0xbef9a3f7, 0xc67178f2]

/-- The initial hash value of SHA-256. -/
def shaH : List (BitVec 32) := [0x6a09e667#32, 0xbb67ae85#32, 0x3c6ef372#32, 0xa54ff53a#32, 0x510e527f#32, 0x9b05688c#32, 0x1f83d9ab#32, 0x5be0cd19#32]

def shaSigma (a b c : Nat) (shift : Bool) (x : BitVec 32) : BitVec 32 :=
  x.rotateRight a ^^^ x.rotateRight b ^^^ (if shift then x >>> c else x.rotateRight c)

/-- The message schedule of a block, 64 words. -/
def shaSchedule (block : List (BitVec 32)) : List (BitVec 32) :=
  (List.range 48).foldl (fun w i =>
    w ++ [shaSigma 17 19 10 true (w.getD (i + 14) 0) + w.getD (i + 9) 0 + shaSigma 7 18 3 true (w.getD (i + 1) 0) + w.getD i 0]) block

/-- One round. -/
def shaRound (h : List (BitVec 32)) (kw : Nat × BitVec 32) : List (BitVec 32) :=
  let g (i : Nat) := h.getD i 0
  let t1 := g 7 + shaSigma 6 11 25 false (g 4) + ((g 4 &&& g 5) ^^^ (~~~(g 4) &&& g 6)) + BitVec.ofNat 32 kw.1 + kw.2
  let t2 := shaSigma 2 13 22 false (g 0) + ((g 0 &&& g 1) ^^^ (g 0 &&& g 2) ^^^ (g 1 &&& g 2))
  [t1 + t2, g 0, g 1, g 2, g 3 + t1, g 4, g 5, g 6]

/-- A big-endian word from four bytes. -/
def beWord (l : List Byte) : BitVec 32 := BitVec.ofNat 32 (leNat l.reverse)

/-- The 16 words of a block. -/
def shaWords : Nat → List Byte → List (BitVec 32)
  | 0, _ => []
  | n + 1, l => beWord (l.take 4) :: shaWords n (l.drop 4)

def shaBlock (h : List (BitVec 32)) (block : List Byte) : List (BitVec 32) :=
  List.zipWith (· + ·) h ((shaK.zip (shaSchedule (shaWords 16 block))).foldl shaRound h)

/-- The padded message. -/
def shaPad (l : List Byte) : List Byte :=
  l ++ [0x80#8] ++ List.replicate ((119 - l.length % 64) % 64) 0#8 ++ (leBytes 8 (8 * l.length)).reverse

def shaBlocks : Nat → List (BitVec 32) → List Byte → List (BitVec 32)
  | 0, h, _ => h
  | n + 1, h, l => shaBlocks n (shaBlock h (l.take 64)) (l.drop 64)

/-- SHA-256: 32 bytes. -/
def sha256 (l : List Byte) : List Byte :=
  (shaBlocks ((shaPad l).length / 64) shaH (shaPad l)).flatMap (fun w => (leBytes 4 w.toNat).reverse)

end Sys2Proof.Machine
end

