-- ==== Sys2Proof/Machine/Framing.lean ====
section
/-!
DEFINITION. Machine/Framing.lean: what the optical lanes carry: 64b/66b blocks and 8b/10b characters with the frames made of them
(11_optical_tiles.md R279, R280, R285, R286, R289), and the words of flits and codewords (12_elvaro_fabric.md R297 to R300). The 8b/10b
code and the parity symbols lie below what the model holds (notes/assumptions/72.md).
-/
namespace Sys2Proof.Machine

/-! ### Blocks (11 R279) -/

def idleBlock : Line := .block true 0x1E
def beatStart : Line := .block true 0x2D

/-- FRAME_START. -/
def frameStart (num seq bytesM1 : Nat) : Line := .block true (BitVec.ofNat 64 (0x33 + 2 ^ 8 * num + 2 ^ 20 * seq + 2 ^ 28 * bytesM1))

/-- TERMINATE; the verdict fields are zero outside verdict frames. -/
def terminate (va features : Nat) (crc : Word32) : Line :=
  .block true (BitVec.ofNat 64 (0xE1 + 2 ^ 8 * (va % 4) + 2 ^ 10 * (features % 8) + 2 ^ 16 * crc.toNat))

/-- The payload of a data block. -/
def dataWord : Line → Option Word64
  | .block false w => some w
  | _ => none

/-- A character that is no K character. -/
def dataChar : Line → Option Byte
  | .char false b => some b
  | _ => none

/-- The self-synchronising scrambler x^58 + x^39 + 1 over the 64 bits of a block, bit 0 first; `r` holds the last 58 bits sent, the latest in bit 0
(R279, IEEE 802.3 clause 49). -/
def scramble (r : BitVec 58) (w : Word64) : BitVec 58 × Word64 :=
  (List.range 64).foldl (fun p i =>
    let b := bit (w.getLsbD i ^^ p.1.getLsbD 38 ^^ p.1.getLsbD 57)
    (p.1 <<< 1 ||| BitVec.ofNat 58 b, p.2 ||| BitVec.ofNat 64 (b * 2 ^ i))) (r, 0)

/-- The blocks of a 64b/66b lane as they are sent, and the scrambler after them (R279). -/
def codeBlocks (r : BitVec 58) : List Line → BitVec 58 × List (BitVec 66)
  | [] => (r, [])
  | .block control w :: rest =>
    let p := scramble r w
    let q := codeBlocks p.1 rest
    (q.1, BitVec.ofNat 66 (p.2.toNat * 4 + (if control then 2 else 1)) :: q.2)
  | _ :: rest => codeBlocks r rest

def allSome {α : Type} : List (Option α) → Option (List α)
  | [] => some []
  | x :: r => match x, allSome r with
    | some a, some l => some (a :: l)
    | _, _ => none

/-- The CRC-32 over the little-endian payloads of data blocks (R285). -/
def blocksCrc (ws : List Word64) : Word32 := crc32 (ws.flatMap (fun w => leBytes 8 w.toNat))

/-- The bytes as data blocks; those of the last block that are not used are zero. -/
def dataBlocks : Nat → List Byte → List Line
  | 0, _ => []
  | n + 1, l => .block false (BitVec.ofNat 64 (leNat (l.take 8))) :: dataBlocks n (l.drop 8)

/-! ### Intake frames (11 R279, R280) -/

/-- Crossing number, lane sequence and payload bytes − 1 of a frame's start: the FRAME_START block of a 64b/66b lane (`coding`), or K27.7 and four
bytes on an 8b/10b lane. -/
def startFields (coding : Bool) (l : List Line) : Option (Nat × Nat × Nat) :=
  match coding, l with
  | true, [.block true b] =>
    if bits b.toNat 0 8 = 0x33 then some (bits b.toNat 8 12, bits b.toNat 20 8, bits b.toNat 28 8) else none
  | false, [.char true k, .char false n0, .char false n1, .char false q, .char false m] =>
    if k = 0xFB then some (n0.toNat + 256 * (n1.toNat % 16), q.toNat, m.toNat) else none
  | _, _ => none

/-- FRAME_START, or K27.7. -/
def beginsFrame : Line → Bool
  | .block true b => decide (bits b.toNat 0 8 = 0x33)
  | .char true k => decide (k = 0xFB)
  | _ => false

/-- What the blocks of a 64b/66b frame after its start give: ceil(n / 8) data blocks, then TERMINATE. -/
def blockFrame (n : Nat) (l : List Line) : Option (List Byte × Word32) :=
  let k := (n + 7) / 8
  match allSome ((l.take k).map dataWord), l.drop k with
  | some ws, [.block true t] =>
    if bits t.toNat 0 8 = 0xE1 then some ((ws.flatMap (fun w => leBytes 8 w.toNat)).take n, BitVec.ofNat 32 (bits t.toNat 16 32)) else none
  | _, _ => none

/-- What the characters of an 8b/10b frame after its start give: the payload, four bytes of CRC, then K29.7. -/
def charFrame (n : Nat) (l : List Line) : Option (List Byte × Word32) :=
  match allSome ((l.take (n + 4)).map dataChar), l.drop (n + 4) with
  | some cs, [.char true e] => if e = 0xFD then some (cs.take n, BitVec.ofNat 32 (leNat (cs.drop n))) else none
  | _, _ => none

/-- The payload of a frame of `bytesM1` + 1 bytes and the CRC that came with it; none where its format is not R279's or R280's. -/
def frameOf (coding : Bool) (bytesM1 : Nat) (l : List Line) : Option (List Byte × Word32) :=
  if 191 < bytesM1 then none else if coding then blockFrame (bytesM1 + 1) l else charFrame (bytesM1 + 1) l

/-- A whole intake frame after its start, as a detector sends it. -/
def intakeLines (coding : Bool) (payload : List Byte) : List Line :=
  let c := crc32 payload
  if coding then dataBlocks ((payload.length + 7) / 8) payload ++ [terminate 0 0 c]
  else payload.map (.char false) ++ (leBytes 4 c.toNat).map (.char false) ++ [.char true 0xFD]

/-! ### Egress frames (11 R285, R286, R289) -/

/-- A beat, and the bits above it, as the payloads of four data blocks. -/
def blocksOf (n : Nat) : List Word64 := (List.range 4).map (fun i => BitVec.ofNat 64 (n / 2 ^ (64 * i)))

/-- A feature record of R285: the beat, then the CID at [213:208]. -/
def featureWords (p : Nat × Beat) : List Word64 := blocksOf (beatBits p.2 + 2 ^ 208 * p.1)

/-- A verdict frame (R285). -/
def verdictFrame (va : Nat) (w : Word64) (features : List (Nat × Beat)) : List Line :=
  let ws := w :: features.flatMap featureWords
  ws.map (.block false) ++ [terminate va features.length (blocksCrc ws)]

/-- Block j of a frame on lane j mod g, in slot j div g; lanes with no block in a slot send IDLE (R286). -/
def slotsOf (g : Nat) (frame : List Line) : List (List Line) :=
  (List.range ((frame.length + g - 1) / g)).map (fun i => (List.range g).map (fun j => frame.getD (g * i + j) idleBlock))

/-- The blocks of a beat-egress frame (R289): `sent` holds the beats that the frame has already sent, none before it opens; `ends` says that it ends
here. -/
def beatLines (sent : Option (List Beat)) (row : List Beat) (ends : Bool) : List Line :=
  let words (l : List Beat) : List Word64 := l.flatMap (fun b => blocksOf (beatBits b))
  (if sent.isNone then [beatStart] else []) ++ (words row).map (.block false) ++
    (if ends then [terminate 0 0 (blocksCrc (words (sent.getD [] ++ row)))] else [])

/-! ### Flits (12 R297 to R299) -/

/-- TYPE of a flit by what it carries. -/
def typeOf : FlitBody → Nat
  | .null => 0
  | .beat _ => 1
  | .write _ _ => 2
  | .read _ _ _ => 3
  | .data _ _ _ _ => 4
  | .notice _ => 5
  | .credit _ => 8
  | .link _ _ => 9
  | .sys _ => 10

/-- The 256 payload bits (R299). -/
def payloadOf : FlitBody → Nat
  | .null => 0
  | .beat b => beatBits b
  | .write a l => a.toNat + 2 ^ 48 * (l.length - 1) + 2 ^ 64 * leNat l
  | .read a n tag => a.toNat + 2 ^ 48 * n.toNat + 2 ^ 60 * tag.toNat
  | .data tag o err l => tag.toNat + 2 ^ 8 * o.toNat + 2 ^ 20 * (l.length - 1) + 2 ^ 25 * bit err + 2 ^ 64 * leNat l
  | .notice p => p.toNat
  | .credit n => n.toNat
  | .link seq nak => seq.toNat + 2 ^ 8 * bit nak
  | .sys p => p.toNat

/-- The 32 header bits (R297). -/
def headerOfFlit (ty : Nat) (locked : Bool) (stream : BitVec 14) (seq : BitVec 8) (first last epoch : Bool) (spare : BitVec 2) : Nat :=
  bit locked + 2 * ty + 2 ^ 5 * stream.toNat + 2 ^ 19 * seq.toNat + 2 ^ 27 * bit first + 2 ^ 28 * bit last + 2 ^ 29 * bit epoch +
    2 ^ 30 * spare.toNat

/-- The check over the 36 header and payload bytes (R298). -/
def flitCheck (header payload : Nat) : Word32 := crc32 (leBytes 4 header ++ leBytes 32 payload)

/-- A flit's 320 bits (R297). -/
def flitBits (header payload : Nat) : BitVec 320 :=
  BitVec.ofNat 320 (header + 2 ^ 32 * payload + 2 ^ 288 * (flitCheck header payload).toNat)

/-- The word of a flit as this package sends it: reserved bits are zero (R320). -/
def sentWord (seq : BitVec 8) (f : Flit) : BitVec 320 :=
  flitBits (headerOfFlit (typeOf f.body) f.locked f.stream seq f.first f.last f.epoch 0) (payloadOf f.body)

/-- The word of a position with nothing to carry (R301). -/
def nullWord : BitVec 320 := flitBits 0 0

/-- The payload that came: the fields of the command, and the bits that no field names. -/
def payloadCame (h : FlitHdr) (b : FlitBody) : Nat := (BitVec.ofNat 256 (payloadOf b) ||| h.extra).toNat

/-- The check of a received flit of TYPE ty holds (R298). -/
def checkOk (h : FlitHdr) (ty : Nat) (b : FlitBody) : Bool :=
  h.check == flitCheck (headerOfFlit ty h.locked h.stream h.seq h.first h.last h.epoch h.spare) (payloadCame h b)

/-- The payload bits that R299 and 13 R333 give as zero; other bits without a name are ignored (R320). -/
def zeroBits (ty : Nat) : Nat :=
  match ty with
  | 0 => 2 ^ 256 - 1
  | 1 => 2 ^ 256 - 2 ^ 208
  | 2 => 2 ^ 64 - 2 ^ 53
  | 4 => 2 ^ 64 - 2 ^ 26
  | 5 => (2 ^ 12 - 2 ^ 6) + (2 ^ 64 - 2 ^ 40) + (2 ^ 256 - 2 ^ 96)
  | _ => 0

/-- A reserved field of a received flit is not zero (R299). -/
def reservedSet (h : FlitHdr) (ty : Nat) (b : FlitBody) : Bool :=
  h.spare != 0 || BitVec.ofNat 256 (payloadCame h b) &&& BitVec.ofNat 256 (zeroBits ty) != 0

/-! ### Codewords (12 R300) -/

/-- The data symbols of a codeword: the control symbol with the lane's codeword count, 32 symbols to a flit, and the reserved symbol of a long
one. -/
def codewordSymbols (count : BitVec 8) (long : Bool) (flits : List (BitVec 320)) : List (BitVec 10) :=
  count.zeroExtend 10 :: flits.flatMap (fun f => (List.range 32).map (fun i => BitVec.ofNat 10 (f.toNat / 2 ^ (10 * i)))) ++
    (if long then [0] else [])

/-- The whole codewords of a lane's flit slots, in order, from codeword `count` on (R300). -/
def codewordsFrom (long : Bool) : Nat → BitVec 8 → List (BitVec 320) → List (List (BitVec 10))
  | 0, _, _ => []
  | n + 1, count, l =>
    let k := if long then 16 else 8
    codewordSymbols count long (l.take k) :: codewordsFrom long n (count + 1) (l.drop k)

end Sys2Proof.Machine
end

