-- ==== Sys2Proof/Machine/Fabric.lean ====
section
/-!
DEFINITION. Machine/Fabric.lean: the sending side of the Elvaro fabric: groups, their positions, flits and their retry, credits, contexts'
buffers and egress (12_elvaro_fabric.md R297 to R313, R321).
-/
namespace Sys2Proof.Machine

/-! ### Fields -/

def fGrpLong (site lead : Nat) : Fld := ⟨grpBase site lead, 0, 1⟩
def fGrpReset (site lead : Nat) : Fld := ⟨grpBase site lead, 1, 1⟩
def fGrpUp (site lead : Nat) : Fld := ⟨grpBase site lead + 4, 0, 1⟩
def fGrpWidth (site lead : Nat) : Fld := ⟨grpBase site lead + 4, 1, 2⟩
def fRetryFail (site lead : Nat) : Fld := ⟨grpBase site lead + 4, 4, 1⟩
def fRestriped (site lead : Nat) : Fld := ⟨grpBase site lead + 4, 5, 1⟩
def fPeerHost (site lead : Nat) : Fld := ⟨grpBase site lead + 4, 6, 1⟩
def fGrpGen (site lead : Nat) : Fld := ⟨grpBase site lead + 4, 8, 8⟩
def fPeerNum (site lead : Nat) : Fld := ⟨grpBase site lead + 4, 16, 10⟩
def fGrpCap (site lead : Nat) : Fld := ⟨grpBase site lead + 4, 26, 5⟩
def fCorrected (site lead : Nat) : Fld := ⟨grpBase site lead + 8, 0, 12⟩
def fUncorr (site lead : Nat) : Fld := ⟨grpBase site lead + 8, 12, 12⟩
def fTypeErr (site lead : Nat) : Fld := ⟨grpBase site lead + 8, 24, 8⟩
def fHopNs (site lead : Nat) : Fld := ⟨grpBase site lead + 0xC, 0, 12⟩
def fRetries (site lead : Nat) : Fld := ⟨grpBase site lead + 0xC, 16, 8⟩
def fResets (site lead : Nat) : Fld := ⟨grpBase site lead + 0xC, 24, 8⟩
def fCtxKind (x : Nat) : Fld := ⟨ctxBase x, 0, 3⟩
def fCtxLocked (x : Nat) : Fld := ⟨ctxBase x, 3, 1⟩
def fCtxPrio (x : Nat) : Fld := ⟨ctxBase x, 4, 3⟩
def fCtxCredits (x : Nat) : Fld := ⟨ctxBase x, 8, 7⟩
def fCtxInit (x : Nat) : Fld := ⟨ctxBase x, 16, 8⟩
def fCtxTarget (x : Nat) : Fld := ⟨ctxBase x + 4, 0, 14⟩
def fCtxOut (x : Nat) : Fld := ⟨ctxBase x + 4, 16, 14⟩
def fRxW (x : Nat) : Fld := ⟨ctxBase x + 8, 0, 13⟩
def fCtxBeats (x : Nat) : Fld := ⟨ctxBase x + 8, 16, 3⟩
def fCtxAMax (x : Nat) : Fld := ⟨ctxBase x + 0xC, 0, 13⟩
def fCtxAMin (x : Nat) : Fld := ⟨ctxBase x + 0xC, 16, 13⟩
def fCtxTrained (x : Nat) : Fld := ⟨ctxBase x + 0x10, 0, 1⟩
def fCtxOverrun (x : Nat) : Fld := ⟨ctxBase x + 0x10, 1, 1⟩
def fCtxArrFail (x : Nat) : Fld := ⟨ctxBase x + 0x10, 2, 1⟩
def fOutCredit (x : Nat) : Fld := ⟨ctxBase x + 0x10, 8, 8⟩
def fBufUsed (x : Nat) : Fld := ⟨ctxBase x + 0x10, 16, 7⟩
def fCtxLate (x : Nat) : Fld := ⟨ctxBase x + 0x14, 0, 16⟩
def fCtxBad (x : Nat) : Fld := ⟨ctxBase x + 0x14, 16, 16⟩
def fCtxMisnum (x : Nat) : Fld := ⟨ctxBase x + 0x18, 0, 16⟩
def fCtxStale (x : Nat) : Fld := ⟨ctxBase x + 0x18, 16, 16⟩
def fCreditErr (x : Nat) : Fld := ⟨ctxBase x + 0x1C, 0, 16⟩
def fMcMembers (m : Nat) : Fld := ⟨mcBase m, 0, 8⟩
def fDetachUs (m : Nat) : Fld := ⟨mcBase m, 16, 16⟩
def fDetached (m i : Nat) : Fld := ⟨mcBase m + 4, i, 1⟩
def fDetaches (m : Nat) : Fld := ⟨mcBase m + 4, 16, 16⟩
def fMemSite (m i : Nat) : Fld := ⟨mcBase m + 8 + 4 * i, 0, 4⟩
def fMemLead (m i : Nat) : Fld := ⟨mcBase m + 8 + 4 * i, 4, 5⟩
def fMemLocal (m i : Nat) : Fld := ⟨mcBase m + 8 + 4 * i, 9, 1⟩
def fMemStream (m i : Nat) : Fld := ⟨mcBase m + 8 + 4 * i, 10, 14⟩
def fMemInit (m i : Nat) : Fld := ⟨mcBase m + 8 + 4 * i, 24, 8⟩
def fPkgNum : Fld := ⟨0x2000, 0, 10⟩
def fTkStrap : Fld := ⟨0x2000, 10, 1⟩
def fTkConfirm : Fld := ⟨0x2000, 11, 1⟩
def fTkActive : Fld := ⟨0x2000, 12, 1⟩
def fTkKnown : Fld := ⟨0x2000, 13, 1⟩
def fTkConflict : Fld := ⟨0x2000, 14, 1⟩
def fSysEpoch : Fld := ⟨0x2000, 15, 1⟩
def fTkNum : Fld := ⟨0x2000, 16, 10⟩
def fEpochErr : Fld := ⟨0x2000, 26, 1⟩
def fUpSite : Fld := ⟨0x2004, 0, 4⟩
def fUpLead : Fld := ⟨0x2004, 4, 5⟩
def fUpEn : Fld := ⟨0x2004, 9, 1⟩
def fDownMc : Fld := ⟨0x2004, 16, 10⟩
def fDownEn : Fld := ⟨0x2004, 26, 1⟩
def fDetachCount : Fld := ⟨0x2008, 0, 5⟩
def fDetachFull : Fld := ⟨0x2008, 5, 1⟩

def State.retry (s : State) (site lane : Nat) : Retry := mget {} s.retries (32 * site + lane)
def State.setRetry (s : State) (site lane : Nat) (v : Retry) : State := { s with retries := mset {} s.retries (32 * site + lane) v }
def State.mc (s : State) (m : Nat) : McSt := mget {} s.mcs m
def State.setMc (s : State) (m : Nat) (v : McSt) : State := { s with mcs := mset {} s.mcs m v }

/-! ### Lane states (11 R290) -/

def fLaneState (site lane : Nat) (tx : Bool) : Fld := if tx then fTxState site lane else ⟨rxBase site lane + 4, 0, 3⟩

/-- The lanes of the group that a lead lane leads. -/
def groupLanes (s : State) (site lead : Nat) : List Nat := (List.range (groupSize s site lead)).map (lead + ·)

/-- The lanes that carry a group's flits: the first 2^WIDTH of those that are UP (11 R295, 12 R313). -/
def workingLanes (s : State) (site lead : Nat) : List Nat :=
  ((groupLanes s site lead).filter (fun j => decide (s.fld (fLaneState site j false) = 2))).take (2 ^ s.fld (fGrpWidth site lead))

/-- The image's calendar of a group (12 R302). -/
def calendarOf (s : State) (site lead : Nat) : Option Calendar :=
  match s.image with
  | some im => im.calendars.find? (fun c => decide (c.site = site) && decide (c.lead = lead))
  | none => none

/-! ### Positions (R301) -/

/-- The lanes that a group's positions go round: all of them while a run holds the group's calendar, else those that work (11 R295). -/
def ways (s : State) (site lead : Nat) : List Nat :=
  if s.armed && (calendarOf s site lead).isSome then groupLanes s site lead else workingLanes s site lead

/-- The first position from `pos` on that lies on way i of g. -/
def nextPosition (pos g i : Nat) : Nat := pos + (i + g - pos % g) % g

/-- Short codewords: the calendar holds a slot, LONG is 0, or the peer lacks long codewords (R300, R320). -/
def shortCodes (s : State) (site lead : Nat) : Bool :=
  !s.is (fGrpLong site lead) || (decide (s.fld (fGrpGen site lead) ≠ 0) && decide (bits (s.fld (fGrpCap site lead)) 0 1 = 0)) ||
    (match calendarOf s site lead with
     | some c => !c.entries.isEmpty
     | none => false)

/-- The next flit slot of a lane carries a word; the last one of a codeword completes it. Whether a codeword is long is decided as it begins
(R300). -/
def fillSlot (s : State) (site lane : Nat) (w : BitVec 320) : State :=
  let r := s.retry site lane
  let long := if r.filling.isEmpty then !shortCodes s site (leadOf s site lane) else r.long
  let ws := r.filling ++ [w]
  s.setRetry site lane (if ws.length < (if long then 16 else 8) then { r with filling := ws, long := long }
    else { r with filling := [], long := long, sent := codewordSymbols (BitVec.ofNat 8 r.sent.length) long ws :: r.sent })

/-- The lane of position q. -/
def laneAt (w : List Nat) (lead q : Nat) : Nat := w.getD (q % max 1 w.length) lead

/-- The positions from p on up to q carry NULL (R301). -/
def fillNull (s : State) (site lead : Nat) (w : List Nat) (p q : Nat) : State :=
  (List.range (q - p)).foldl (fun t i => fillSlot t site (laneAt w lead (p + i)) nullWord) s

/-- A flit takes the next position of its lane; positions passed over carry NULL (R301). -/
def sendAt (s : State) (site lead lane : Nat) (seq : BitVec 8) (f : Flit) : State :=
  let w := ways s site lead
  let r := s.retry site lead
  let q := nextPosition r.pos (max 1 w.length) (w.idxOf lane)
  (fillSlot (fillNull (s.setRetry site lead { r with pos := q + 1, rested := r.rested || decide (r.pos < q) }) site lead w r.pos q) site lane (sentWord seq f)).send (.flit site lane q seq f)

/-! ### Sending loose flits (R301, R308) -/

/-- The package's fabric epoch (R318). -/
def sysEpoch (s : State) : Bool := s.is fSysEpoch

/-- A BEAT flit carries the package's epoch bit as it is sent (R318). -/
def stamped (s : State) (f : Flit) : Flit := match f.body with
  | .beat _ => { f with epoch := sysEpoch s }
  | _ => f

/-- Whether a position without a new loose flit has passed since the group's last new one (15 R391). -/
def noteRest (s : State) (site lead : Nat) (b : Bool) : State := s.setRetry site lead { s.retry site lead with rested := b }

/-- The first position that a new loose flit may take: in squall every second one that is not for locked slots or LINK flits (15 R391). -/
def firstFree (s : State) (site lead : Nat) : Nat :=
  let r := s.retry site lead
  if squallLimits s && !r.rested then r.pos + 1 else r.pos

/-- The position before a new loose flit is left to NULL where squall asks for it (15 R391). -/
def leaveOne (s : State) (site lead : Nat) : State :=
  let r := s.retry site lead
  let p := firstFree s site lead
  fillNull (s.setRetry site lead { r with pos := p }) site lead (ways s site lead) r.pos p

/-- A loose flit takes the lane's next SEQ and stays in the retry buffer until it is acknowledged. -/
def sendOn (s0 : State) (site lead lane : Nat) (f : Flit) : State :=
  let s := leaveOne s0 site lead
  let r := s.retry site lane
  let g := stamped s f
  noteRest (sendAt (s.setRetry site lane { r with nextSeq := r.nextSeq + 1, unacked := r.unacked ++ [(r.nextSeq, 0, g)] }) site lead lane r.nextSeq g)
    site lead false

/-- The lane is UP and holds fewer than 64 unacknowledged flits. -/
def laneHasRoom (s : State) (site lane : Nat) : Bool :=
  decide (s.fld (fLaneState site lane false) = 2) && decide ((s.retry site lane).unacked.length < 64)

/-- The lane of the first position from `pos` on whose lane has room (R301). -/
def nextLane (s : State) (site pos : Nat) (w : List Nat) : Option Nat :=
  ((List.range w.length).map (fun i => w.getD ((pos + i) % w.length) 0)).find? (laneHasRoom s site)

/-- SYS NEGO: what a group carries before it is UP (R320). -/
def isNego (f : Flit) : Bool := match f.body with
  | .sys p => decide (p.toNat % 256 = 1)
  | _ => false

/-- The place of the flit that goes out next: the first that waits, or the first NEGO of a group that is not UP (R320). -/
def nextWaiting (s : State) (site lead : Nat) : Option Nat :=
  (s.retry site lead).waiting.findIdx? (fun f => s.is (fGrpUp site lead) || isNego f)

/-- The group's new flits go out in order while a lane has room. -/
def pumpGroup (s : State) (site lead : Nat) : Nat → State
  | 0 => s
  | fuel + 1 =>
    let r := s.retry site lead
    match nextWaiting s site lead with
    | none => s
    | some i => match r.waiting[i]?, nextLane s site (firstFree s site lead) (ways s site lead) with
      | some f, some j => pumpGroup (sendOn (s.setRetry site lead { r with waiting := r.waiting.eraseIdx i }) site lead j f) site lead fuel
      | _, _ => s

/-- Every new flit of the group that can go out does. -/
def drainWaiting (s : State) (site lead : Nat) : State := pumpGroup s site lead (s.retry site lead).waiting.length

/-- A new loose flit of a group goes out behind those that wait (R301, R308). -/
def sendLoose (s : State) (site lead : Nat) (f : Flit) : State :=
  let r := s.retry site lead
  drainWaiting (s.setRetry site lead { r with waiting := r.waiting ++ [f] }) site lead

/-- The lane's unacknowledged flits go out again, in order, each counted (R308). -/
def resendFlits (s : State) (site lane : Nat) : State :=
  let r := s.retry site lane
  if r.unacked.isEmpty then s
  else
    let again := r.unacked.map (fun e => (e.1, e.2.1 + 1, e.2.2))
    again.foldl (fun t e => noteRest (sendAt t site (leadOf s site lane) lane e.1 e.2.2) site (leadOf s site lane) true)
      ((s.setRetry site lane { r with unacked := again }).bump (fRetries site (leadOf s site lane)))

/-- A LINK flit: never sequenced or retried (R299). -/
def sendLink (s : State) (site lane : Nat) (ackSeq : BitVec 8) (nak : Bool) : State :=
  sendAt s site (leadOf s site lane) lane 0 ⟨false, 0, true, true, false, .link ackSeq nak⟩

/-- A SYS flit (R321): stream 0, no credit. -/
def sendSys (s : State) (site lead : Nat) (fields : Nat) : State :=
  sendLoose s site lead ⟨false, 0, true, true, false, .sys (BitVec.ofNat 256 fields)⟩

/-- Payload fields of a SYS flit: (low bit, value) pairs over the subtype. -/
def sysFields (subtype : Nat) (fs : List (Nat × Nat)) : Nat := fs.foldl (fun a p => a + 2 ^ p.1 * p.2) subtype

/-- SYS DETACH (R321). -/
def sysDetach (m i x : Nat) : Nat := sysFields 0x07 [(8, m), (18, i), (21, x)]

/-! ### Credits of a receiving context (R307) -/

/-- A flit has left the context's buffer: a credit is due, and eight are returned in a CREDIT flit. -/
def creditDue (s : State) (x : Nat) : State :=
  let c := s.ctx x
  match c.via with
  | none => s
  | some (site, lead) =>
    if c.due + 1 < 8 then s.setCtx x { c with due := c.due + 1 }
    else sendLoose (s.setCtx x { c with due := 0 }) site lead ⟨false, BitVec.ofNat 14 x, true, true, false, .credit 8⟩

/-- BUF_USED follows the buffer. -/
def noteBuf (s : State) (x : Nat) : State := s.setFld (fBufUsed x) (s.ctx x).buf.length

/-- The head flit leaves the buffer. -/
def popBuf (s : State) (x : Nat) : State :=
  let c := s.ctx x
  creditDue (noteBuf (s.setCtx x { c with buf := c.buf.drop 1 }) x) x

/-- The queue that a deliver context names (R324). -/
def targetQueue (s : State) (x : Nat) : QueueId :=
  let t := s.fld (fCtxTarget x)
  .bank (Fin.ofNat 512 (32 * bits t 0 4 + 8 * bits t 4 2 + bits t 6 3)) (Fin.ofNat 16 (bits t 9 4))

/-- The beats of a deliver context's buffer go to its queue while it takes them: a HOLD queue waits for credit (R307, 07 R173). -/
def drainDeliver (s : State) (x : Nat) : Nat → State
  | 0 => s
  | fuel + 1 =>
    let q := targetQueue s x
    match (s.ctx x).buf with
    | [] => s
    | f :: _ =>
      if maySend s q then
        let s1 := match f.body with
          | .beat b => sendArrival (spendCredit (endWait s q s.clock.now) q) (qCluster q) q (s.clock.now + 1) 5 b
          | _ => s
        drainDeliver (popBuf s1 x) x fuel
      else noteWait s q s.clock.now

/-! ### Multicast (R311) -/

def mcMembers (s : State) (m : Nat) : List Nat := (List.range 8).filter (fun i => decide (bits (s.fld (fMcMembers m)) i 1 = 1))

/-- A member can take a flit: a hop with credit, or a local context with room. -/
def memberTakes (s : State) (m i : Nat) : Bool :=
  if s.is (fMemLocal m i) then
    let x := s.fld (fMemStream m i)
    decide ((s.ctx x).buf.length < s.fld (fCtxCredits x))
  else decide (0 < (s.mc m).credits.getD i 0)

/-- Members that the head flit must wait for. -/
def attached (s : State) (m : Nat) : List Nat := (mcMembers s m).filter (fun i => !s.is (fDetached m i))

/-- The attached members lacking credit now, which hold the group. -/
def holding (s : State) (m : Nat) : List Nat := (attached s m).filter (fun i => !memberTakes s m i)

/-- Members lacking credit now (R325). -/
def lackingMembers (s : State) (m : Nat) : List Nat := (mcMembers s m).filter (fun i => !memberTakes s m i)

/-- Replies and host transfers wait in the access context for the egress arbiter (R309, 13 R328). -/
def reply (s : State) (x : Nat) (l : List Flit) : State := s.setCtx x { s.ctx x with outq := (s.ctx x).outq ++ l }

/-- The WRITE flits for bytes of host memory, 24 to a flit (R299). -/
def writeFlits (addr : Nat) (bytes : List Byte) : List Flit :=
  (List.range ((bytes.length + 23) / 24)).map (fun i =>
    ⟨false, 0, true, true, false, .write (BitVec.ofNat 48 (addr + 24 * i)) (slice bytes (24 * i) 24)⟩)

/-! ### New loose flits of a group, as the egress arbiter grants them (R301, R309, R310) -/

/-- The edge link of a site whose transmit-map entry sends stream x on this group. -/
def linkOfStream (s : State) (site lead x : Nat) : Option Nat :=
  (List.range 16).find? (fun k => s.is (fTxmapEn site k) && decide (s.fld (fTxmapLead site k) = lead) &&
    decide (s.fld (fTxmapStream site k) = x) && !slotNames s site k && !(s.txLink site k).loose.isEmpty &&
    decide (0 < (s.txLink site k).credit))

/-- The group that a loose forward or access context sends on. -/
def ctxGroup (s : State) (x : Nat) : Nat × Nat := (bits (s.fld (fCtxTarget x)) 0 4, bits (s.fld (fCtxTarget x)) 4 5)

/-- A READ waits while a READ of its TAG is unanswered (13 R328). -/
def tagFree (s : State) (x : Nat) (f : Flit) : Bool := match f.body with
  | .read _ _ tag => !(s.ctx x).reads.any (fun h => h.sent && decide (h.tag = tag))
  | _ => true

/-- The context's own READ has left: its TAG is taken until it is answered (13 R328). -/
def noteSent (c : CtxSt) (f : Flit) : CtxSt := match f.body with
  | .read _ _ tag => match c.reads.findIdx? (fun h => !h.sent && decide (h.tag = tag)) with
    | some i => { c with reads := modAt c.reads i (fun h => { h with sent := true }) }
    | none => c
  | _ => c

/-- What a context has to send on. -/
def ctxOutgoing (s : State) (x : Nat) : List Flit :=
  if s.fld (fCtxKind x) = 2 ∧ s.fld (fCtxLocked x) = 0 then (s.ctx x).buf
  else if s.fld (fCtxKind x) = 4 then (s.ctx x).outq else []

/-- The stream that a context's flit leaves on: OUT_STREAM, or the NOTICE_STREAM that a notice carries (13 R333). -/
def outStream (s : State) (c : Nat) (f : Flit) : Nat := match f.body with
  | .notice _ => f.stream.toNat
  | _ => s.fld (fCtxOut c)

/-- The context whose next flit is stream x's on this group. A notice takes a credit of its context (notes/assumptions/17.md). -/
def ctxOfStream (s : State) (site lead x : Nat) : Option Nat :=
  (s.ctxs.find? (fun e => decide (ctxGroup s e.1 = (site, lead)) && decide (0 < s.fld (fOutCredit e.1)) &&
    (match ctxOutgoing s e.1 with
     | f :: _ => decide (outStream s e.1 f = x) && (decide (s.fld (fCtxKind e.1) = 2) || tagFree s e.1 f)
     | [] => false))).map (·.1)

/-- A member's hop goes by the group. -/
def hopUses (s : State) (site lead m i : Nat) : Bool :=
  !s.is (fMemLocal m i) && decide (s.fld (fMemSite m i) = site) && decide (s.fld (fMemLead m i) = lead)

/-- The multicast group, and the copy for a hop of it, that leaves next on stream x of this group of lanes (R311). -/
def mcOfStream (s : State) (site lead x : Nat) : Option (Nat × Nat × Flit) :=
  s.mcs.findSome? (fun e => (e.2.outq.find? (fun p => hopUses s site lead e.1 p.1 && decide (s.fld (fMemStream e.1 p.1) = x))).map (fun p => (e.1, p)))

/-- A multicast copy leaves for its hop. -/
def sendCopy (s : State) (site lead x : Nat) : State :=
  match mcOfStream s site lead x with
  | none => s
  | some (m, p) =>
    let v := s.mc m
    sendLoose (s.setMc m { v with outq := v.outq.erase p }) site lead { p.2 with stream := BitVec.ofNat 14 x }

/-- The next flit of stream x leaves by the group: a transmit-map entry's beat, a context's flit, or a multicast copy (R301, R307, R311). -/
def sendStream (s : State) (site lead x : Nat) : State :=
  match linkOfStream s site lead x with
  | some k =>
    let l := s.txLink site k
    match l.loose with
    | b :: rest =>
      sendLoose (s.setTxLink site k { l with loose := rest, credit := l.credit - 1 }) site lead
        ⟨false, BitVec.ofNat 14 x, b.first, b.last, false, .beat b⟩
    | [] => s
  | none =>
    match ctxOfStream s site lead x with
    | none => sendCopy s site lead x
    | some c =>
      match ctxOutgoing s c with
      | [] => s
      | f :: _ =>
        let s1 := s.setFld (fOutCredit c) (s.fld (fOutCredit c) - 1)
        let s2 := if s.fld (fCtxKind c) = 4 then s1.setCtx c { noteSent (s1.ctx c) f with outq := (s1.ctx c).outq.drop 1 } else popBuf s1 c
        sendLoose s2 site lead { f with stream := BitVec.ofNat 14 x }

/-- Stream x has a flit to send by the group. -/
def asksEgress (s : State) (site lead x : Nat) : Bool :=
  (linkOfStream s site lead x).isSome || (ctxOfStream s site lead x).isSome || (mcOfStream s site lead x).isSome

/-- The priority of stream x on the group: that of the transmit-map entry, forward or access context that sends it (R309, R310). The spec gives the
hop of a multicast member none: it ranks as priority 7 (the model's choice, notes/assumptions/12.md). -/
def egressPrio (s : State) (site lead x : Nat) : Nat :=
  match linkOfStream s site lead x, ctxOfStream s site lead x with
  | some k, _ => s.fld (fTxmapPrio site k)
  | none, some c => s.fld (fCtxPrio c)
  | none, none => 7

/-- The rank at a fabric egress: the stream's priority, then its number (07 R179). -/
def egressRank (s : State) (site lead : Nat) : Requester → Nat
  | .stream x => 16384 * egressPrio s site lead x.toNat + x.toNat
  | _ => 8 * 16384

/-- The transaction of a fabric egress is one flit of the granted stream (07 R179, R180). -/
def sendGranted (s : State) (a : ArbId) : State :=
  match a, grantee s a with
  | .egress site lead, some (.stream x) => sendStream (serveArb s a) site.val lead.val x.toNat
  | _, _ => s

/-! ### Link resets (R312) -/

/-- The contexts whose ELV_CTX_CFG is not at its reset value. -/
def contextsSet (s : State) : List Nat :=
  (s.regs.filter (fun e => decide (0x1000000 ≤ e.1) && decide (e.1 < 0x2000000) && decide (0x30000 ≤ e.1 % 0x100000) &&
    decide (e.1 % 0x100000 < 0x38000) && decide (e.1 % 0x20 = 0))).map
    (fun e => 1024 * ((e.1 - 0x1000000) / 0x100000) + (e.1 % 0x100000 - 0x30000) / 0x20)

/-- The multicast groups whose ELV_MC_CFG is not at its reset value. -/
def groupsSet (s : State) : List Nat :=
  (s.regs.filter (fun e => decide (0x1000000 ≤ e.1) && decide (e.1 < 0x2000000) && decide (0x70000 ≤ e.1 % 0x100000) &&
    decide (e.1 % 0x100000 < 0x71000) && decide (e.1 % 0x40 = 0))).map
    (fun e => 64 * ((e.1 - 0x1000000) / 0x100000) + (e.1 % 0x100000 - 0x70000) / 0x40)

/-- The context sends on a group: a loose forward, or an access context's replies. -/
def sendsOn (s : State) (x : Nat) : Bool := decide (s.fld (fCtxKind x) = 2 ∧ s.fld (fCtxLocked x) = 0 ∨ s.fld (fCtxKind x) = 4)

/-- Every sender-side entry whose hop uses the group reloads CREDIT_INIT. -/
def reloadCredits (s : State) (site lead : Nat) : State :=
  let s1 := (List.range 16).foldl (fun t k =>
    if decide (t.fld (fTxmapLead site k) = lead) then t.setTxLink site k { t.txLink site k with credit := t.fld (fTxmapInit site k) }
    else t) s
  let s2 := (contextsSet s1).foldl (fun t x =>
    if decide (ctxGroup t x = (site, lead)) && sendsOn t x then t.setFld (fOutCredit x) (t.fld (fCtxInit x)) else t) s1
  (groupsSet s2).foldl (fun t m => t.setMc m { t.mc m with
    credits := (List.range 8).map (fun i =>
      if hopUses t site lead m i then t.fld (fMemInit m i) else (t.mc m).credits.getD i 0) }) s2

def fHrgEnable (r : Nat) : Fld := ⟨ringBase r, 0, 1⟩
def fNoticeStream (r : Nat) : Fld := ⟨ringBase r, 16, 14⟩
def fHrgPath (r : Nat) : Fld := ⟨ringBase r + 4, 0, 14⟩
def fPathLost (r : Nat) : Fld := ⟨ringBase r + 0x1C, 2, 1⟩

def State.ring (s : State) (r : Nat) : Ring := mget {} s.rings r
def State.setRing (s : State) (r : Nat) (v : Ring) : State := { s with rings := mset {} s.rings r v }

/-- The loose flits of a group that are unacknowledged or wait. -/
def groupFlits (s : State) (site lead : Nat) : List Flit :=
  (groupLanes s site lead).flatMap (fun j => (s.retry site j).unacked.map (fun e => e.2.2) ++ (s.retry site j).waiting)

/-- A WRITE of stream x to an address of these bytes of host memory. -/
def writesHost (x addr : Nat) (f : Flit) : Bool := match f.body with
  | .write a _ => decide (f.stream.toNat = x) && decide (addr ≤ a.toNat) && decide (a.toNat < addr + 16)
  | _ => false

/-- The pair's last completion is among the flits that a reset discards: it is written once more, and the second time no more (13 R337). -/
def writeAgain (s : State) (r : Nat) (gone : List Flit) : State :=
  let v := s.ring r
  let x := s.fld (fHrgPath r)
  match v.compl with
  | some w =>
    if gone.any (writesHost (s.fld (fCtxOut x)) w.addr) then
      if w.again then s.setRing r { v with compl := none }
      else reply (s.setRing r { v with compl := some { w with again := true } }) x (writeFlits w.addr w.bytes)
    else s
  | none => s

/-- A link reset that discards flits of a pair's streams sets PATH_LOST (13 R337). A READ that it loses ends the command by
HOST_READ_TIMEOUT. -/
def losePath (gone : List Flit) (site lead : Nat) (s : State) (r : Nat) : State :=
  let x := s.fld (fHrgPath r)
  let mine (f : Flit) : Bool := decide (f.stream.toNat = s.fld (fCtxOut x)) || decide (f.stream.toNat = s.fld (fNoticeStream r))
  if s.is (fHrgEnable r) && decide (ctxGroup s x = (site, lead)) && gone.any mine then writeAgain (s.mark (fPathLost r)) r gone else s

/-- The group's retry buffers are emptied without resending (R312, 13 R337). -/
def clearRetry (s : State) (site lead : Nat) : State :=
  let s1 := (groupLanes s site lead).foldl (fun t j => t.setRetry site j { t.retry site j with unacked := [], waiting := [] }) s
  (List.range 64).foldl (losePath (groupFlits s site lead) site lead) s1

end Sys2Proof.Machine
end

