-- ==== Sys2Proof/Machine/FunWords.lean ====
section
/-!
DEFINITION. Machine/FunWords.lean: the operation words of a function unit issue (06_function_and_steering.md R141 to R158), with what they
wait for in staged mode (R145, R153).
-/
namespace Sys2Proof.Machine

/-- A word with a destination in HOLD mode goes on when its writer holds a credit for every beat, or as many as the queue is deep
(07 R173, notes/assumptions/11.md). -/
def creditFor (s : State) (q : QueueId) (n : Nat) : Bool := !qHold s q || decide (min n (qDepth s q) ≤ qCredits s q)

/-- A REDUCE that places its row on the sum bus (R153). -/
def reducesToBus (w : Word64) : Bool := decide (opcode w = 0x16) && decide (wDst w = 16)

/-- The word that function unit f issues in cycle t, or waits with for its output (R153). -/
def issuesFun (s : State) (f t : Nat) : Option Word64 :=
  let a : Agent := .fn (Fin.ofNat 1024 f)
  let p := (skipIdle s a 512).play a
  let w := (s.tt a).word p.pc
  if plays s a then match p.wait with
    | .output since => if since ≤ t then some w else none
    | .none => if p.at_ = t ∧ 1 ≤ p.pc ∧ p.pc < period s a then some w else none
    | _ => none
  else none

/-- Function unit 0 of the cluster claims, in the same cycle t, the bus cycle `due` that a REDUCE of function unit 1 asks for: unit 0 ranks before
unit 1 (R153, 05 R129). -/
def claimedByFirst (s : State) (f t due : Nat) : Bool :=
  decide (f % 2 = 1) && (match issuesFun s (f - 1) t with
    | some w => reducesToBus w && decide (t + latency w = due) && !busClaimed s (f / 2) (wBdest w) due
    | none => false)

/-- The output cycles of a word that issues at cycle t are free (R153, 05 R129). A REDUCE to a function unit whose buffer would be full waits as an
EMIT does (R152; the model's choice, notes/assumptions/24.md). -/
def outputFree (s : State) (f : Nat) (w : Word64) (t : Nat) : Bool :=
  let port := match outQueue f w with
    | some _ => (List.range (outBeats w)).all (fun j => !(s.fun_ f).outBusy.contains (t + latency w + j))
    | none => true
  port && !(reducesToBus w && (busClaimed s (f / 2) (wBdest w) (t + latency w) || claimedByFirst s f t (t + latency w)))

/-- The word issues at cycle t: it holds the issue slot for its duration, and its takes begin (R141). -/
def startOp (s : State) (f : Nat) (w : Word64) (t : Nat) : State :=
  let u := s.fun_ f
  let op : FunOp :=
    { w := w, at_ := t, next := 0, slip := 0, menu := s.fld (fActive (.fn (Fin.ofNat 1024 f))), a := [], b := [], formed := 0 }
  settleFuns ((s.at t).setFun f { u with
    play := ⟨u.play.pc + 1, t + duration w, .none⟩
    op := some op
    outBusy := u.outBusy.filter (fun c => decide (t ≤ c)) }) (f / 2) t

/-- An operation word reaches its issue cycle t. In staged mode it waits for credit (07 R173) and for its output cycles (R153). -/
def playFun (s : State) (f : FunIx) (w : Word64) (t : Nat) : State :=
  let a : Agent := .fn f
  let s1 := settleBus s (f.val / 2) (t - 1)
  let lacks := match outQueue f.val w with
    | some q => !creditFor s1 q (outBeats w)
    | none => false
  match s1.stagedImage, lacks, outQueue f.val w with
  | true, true, some q => waitCredit s1 a q [] t
  | st, _, _ =>
    if st && !outputFree s1 f.val w t then s1.setPlay a ⟨(s1.play a).pc, t, .output t⟩ else startOp s1 f.val w t

/-- The word of this opcode issues next in unit f. -/
def runFun (f : FunIx) (op : Nat) (s : State) : State :=
  match issue s (.fn f) op with
  | none => s
  | some (s1, w, t) => playFun s1 f w t

/-- ACT (R147): bias and a piecewise-linear table. -/
def execAct (f : FunIx) (s : State) : Res := .next (runFun f 0x10 s)

/-- ROWX (R146): plain transfer, measured. -/
def execRowx (f : FunIx) (s : State) : Res := .next (runFun f 0x11 s)

/-- PIN (R146): plain transfer, pinned. -/
def execPin (f : FunIx) (s : State) : Res := .next (runFun f 0x12 s)

/-- NORM (R148). -/
def execNorm (f : FunIx) (s : State) : Res := .next (runFun f 0x13 s)

/-- EXPT (R147). -/
def execExpt (f : FunIx) (s : State) : Res := .next (runFun f 0x14 s)

/-- RCP (R149). -/
def execRcp (f : FunIx) (s : State) : Res := .next (runFun f 0x15 s)

/-- REDUCE (R153, R154). -/
def execReduce (f : FunIx) (s : State) : Res := .next (runFun f 0x16 s)

/-- POOL (R146). -/
def execPool (f : FunIx) (s : State) : Res := .next (runFun f 0x17 s)

/-- SORT16 (R150). -/
def execSort16 (f : FunIx) (s : State) : Res := .next (runFun f 0x18 s)

/-- TOPK (R150). -/
def execTopk (f : FunIx) (s : State) : Res := .next (runFun f 0x19 s)

/-- GATHER (R151). -/
def execGather (f : FunIx) (s : State) : Res := .next (runFun f 0x1A s)

/-- SCATTER (R151). -/
def execScatter (f : FunIx) (s : State) : Res := .next (runFun f 0x1B s)

/-- THRESH (R158). -/
def execThresh (f : FunIx) (s : State) : Res := .next (runFun f 0x1C s)

/-- The cycle at which the source of a waiting word has an item: that of the first on its way, or the present one. -/
def arrivalCycle (s : State) (f : Nat) (src : Src) (since : Nat) : Nat :=
  let c := s.cluster (f / 2)
  let dues : List Nat := match src with
    | .queue q => (c.arrivals.filter (fun a => decide (a.q = .bank (Fin.ofNat 512 (f / 2)) (Fin.ofNat 16 q)) && decide (since ≤ a.due))).map (·.due)
    | _ => (c.bus.filter (fun r => decide (r.dest = 8 + f % 2) && decide (since ≤ r.due))).map (·.due)
  if hasItem s f src then max since s.clock.now else dues.foldl min (dues.headD (max since s.clock.now))

/-- FUN_SOURCE_WAIT_END: the waiting word takes the item that has come, and the cycles waited count as STARVED (R145). -/
def execFunSourceWaitEnd (f : FunIx) (s : State) : Res :=
  let a : Agent := .fn f
  let s1 := settleFuns s (f.val / 2) s.clock.now
  let u := s1.fun_ f.val
  match u.play.wait, u.op with
  | .source since, some o =>
    match (takePlan o.w)[o.next]? with
    | none => .next s
    | some t =>
      let r := arrivalCycle s1 f.val t.src since
      let s2 := readySource s1 f.val t.src r
      if plays s a && hasItem s2 f.val t.src then
        let v := s2.fun_ f.val
        let d := r - since
        .next (settleFuns (((s2.at r).setFun f.val { v with
          play := ⟨v.play.pc, v.play.at_ + d, .none⟩
          op := some { o with slip := o.slip + d } }).bump (fStarved a) d) (f.val / 2) r)
      else .next s
  | _, _ => .next s

/-- The first cycle from `t` on at which the word's output cycles are free, `fuel` tried. -/
def freeOutput (s : State) (f : Nat) (w : Word64) : Nat → Nat → Nat
  | t, 0 => t
  | t, fuel + 1 => if outputFree s f w t then t else freeOutput s f w (t + 1) fuel

/-- FUN_BLOCKED_WAIT_END: the waiting word issues when its output cycles are free, and the cycles waited count as BLOCKED (R153). -/
def execFunBlockedWaitEnd (f : FunIx) (s : State) : Res :=
  let a : Agent := .fn f
  let p := s.play a
  match p.wait with
  | .output since =>
    let w := (s.tt a).word p.pc
    let t := freeOutput s f.val w (max since s.clock.now) 256
    if plays s a && outputFree s f.val w t then .next (startOp (s.bump (fBlocked a) (t - since)) f.val w t) else .next s
  | _ => .next s

/-! ### Writes that waited for credit -/

/-- The agent waits for credit to this queue, since when. -/
def waitsCredit (s : State) (q : QueueId) (a : Agent) : Option Nat :=
  match (s.play a).wait with
  | .credit q' since => if q' = q then some since else none
  | _ => none

/-- The agent that waits for credit to this queue. -/
def creditWaiter (s : State) (q : QueueId) : Option (Agent × Nat) :=
  let as := s.units.map (fun e => Agent.dot (Fin.ofNat 4096 e.1)) ++ s.funs.map (fun e => Agent.fn (Fin.ofNat 1024 e.1))
  (as.filterMap (fun a => (waitsCredit s q a).map (fun c => (a, c)))).head?

/-! ### The cycles waited so far -/

/-- The cycles that an agent has waited up to now are counted, and its wait goes on from there: what a read of its counters, or the end of a wait by
a stop or a recovery, finds (04 R109, 05 R128, R129, 06 R145, R153, 07 R173). A wait whose end is known counts no further. -/
def chargeWait (s : State) (a : Agent) : State :=
  let now := s.clock.now
  match (s.play a).wait, a with
  | .addin since, .dot u =>
    let e := (((rowsFor s u.val since).head?).map (·.due)).getD (max since now)
    (s.bump (fStarved a) (min e now - since)).setPlay a { s.play a with wait := .addin (max since (min e now)) }
  | .emit since, _ => (s.bump (fBlocked a) (now - since)).setPlay a { s.play a with wait := .emit (max since now) }
  | .credit q since, _ =>
    ((s.bump (fBlocked a) (now - since)).bump (fQBlocked q) (now - since)).setPlay a { s.play a with wait := .credit q (max since now) }
  | .output since, _ => (s.bump (fBlocked a) (now - since)).setPlay a { s.play a with wait := .output (max since now) }
  | .source since, .fn f =>
    let u := s.fun_ f.val
    let t := match u.op with
      | some o => ((takePlan o.w)[o.next]?).map (fun (x : Take) => arrivalCycle s f.val x.src since)
      | none => none
    let d := min (t.getD now) now - since
    (s.bump (fStarved a) d).setFun f.val { u with
      play := ⟨u.play.pc, u.play.at_ + d, .source (since + d)⟩
      op := u.op.map (fun o => { o with slip := o.slip + d }) }
  | _, _ => s

/-- A word that waited at issue issues at cycle t. -/
def reissue (s : State) (a : Agent) (t : Nat) : State :=
  let w := (s.tt a).word (s.play a).pc
  let s1 := s.setPlay a ⟨(s.play a).pc, t, .none⟩
  match a with
  | .dot u =>
    match opcode w with
    | 0x01 => playMac s1 u w t false
    | 0x02 => playMac s1 u w t true
    | 0x07 => playMove s1 u (wf w 56 2) [wf w 54 2] t
    | _ => playMove s1 u (wf w 56 2) (maskPorts (wf w 52 4)) t
  | .fn f => playFun s1 f w t

end Sys2Proof.Machine
end

