-- ==== Sys2Proof/Machine/Logic.lean ====
section
/-!
DEFINITION. Machine/Logic.lean: queue commands, logic blocks, region reconfiguration, boundary ports and hard blocks
(07_links_queues_arbiters.md R173, R175, R177; 08_logic_fabric.md R192 to R219; 15 R384). What a port offers or takes is
the command's (notes/assumptions/15.md).
-/
namespace Sys2Proof.Machine

/-! ### Drop-rest and injection (07 R175, R177) -/

/-- What is due at a queue by this cycle has arrived, a function unit's beats included. -/
def settleAt (s : State) (q : QueueId) : State :=
  settleQueue (if isBank q then settleFuns s (qCluster q) s.clock.now else s) q s.clock.now

/-- DROP_REST: a write of 1 to a DROP_REST bit (07 R175, R187, R190). -/
def execDropRest (q : QueueId) (s : State) : Res := .next (if s.recovery then s else dropRest (settleAt s q) q s.clock.now)

/-- INJECTION: the head beat of the queue goes to the port it injects, when the port can take it (07 R177). One beat leaves the queue in a
cycle; an injection that finds the queue read in its cycle is counted and sends later (R178). -/
def execInjection (k : ClusterIx) (q : Fin 16) (s : State) : Res :=
  let r := (s.raw (clusterBase k.val + 0xC00 + 0x20 * q.val + 0x18)).toNat
  let t := max s.clock.now ((((s.cluster k.val).injected.find? (fun e => decide (e.1 = q.val))).map (·.2 + 1)).getD 0)
  let g := 8 * k.val + bits r 0 3
  let p := bits r 3 2
  let dst : QueueId := .port (Fin.ofNat 4096 g) (portOf p)
  let src : QueueId := .bank k q
  let s1 := settleQueue (settlePort (settleFuns (s.at t) k.val t) g p t) src t
  let waiting := (s1.links.filter (fun l => l.injected && decide (l.unit = g) && decide (l.port = p))).length
  let ready := s.runs && decide (bits r 5 1 = 1) && heldBefore (s.at t) k.val src t
  if !ready || decide (8 ≤ (s1.queue dst).beats.length + waiting) && maySend s1 dst then .next s
  else if !maySend s1 dst then .next (noteWait s dst t)
  else if decide ((s1.queue src).readCycle = t + 1) || readBefore s1 k.val q.val t then .next (hazard (s1.bump (fQCollide src)) 4 ⟨k.val, 12, 0⟩ q.val t)
  else
    let x := readQueue s1 src true ⟨k.val, 12, 0⟩ t
    let s2 := spendCredit (endWait x.2.2 dst t) dst
    let c2 := s2.cluster k.val
    .next { s2.setCluster k.val { c2 with injected := (q.val, t) :: c2.injected.filter (fun e => decide (e.1 ≠ q.val)) } with
      links := s2.links ++ [⟨g, p, t + 1, x.1, epochOf s2 g, true⟩] }

/-! ### Fields of a block and a region -/

def fContention (k : Nat) : Fld := ⟨logBase k + 4, 2, 1⟩
def fLogCrcErr (k : Nat) : Fld := ⟨logBase k + 4, 3, 1⟩
def fLogFrameErr (k : Nat) : Fld := ⟨logBase k + 4, 4, 1⟩
def fLogRefused (k : Nat) : Fld := ⟨logBase k + 4, 5, 1⟩
def fContColumn (k : Nat) : Fld := ⟨logBase k + 4, 16, 7⟩
def fContRow (k : Nat) : Fld := ⟨logBase k + 4, 23, 6⟩
def fContVert (k : Nat) : Fld := ⟨logBase k + 4, 29, 1⟩
def fApplied (k : Nat) : Fld := ⟨logBase k + 0x10, 0, 16⟩
def fRgnRefused (r : Nat) : Fld := ⟨regionBase r + 0x1000, 4, 1⟩

/-! ### The contention guard (R195) -/

/-- Both ends of the wire that the box at (col, row) drives are enabled: the wire. -/
def clashAt (routing : Store) (vert : Bool) (col row : Nat) : Option Nat :=
  match farBox vert col row with
  | none => none
  | some b => if driverOn routing vert col row && driverOn routing vert b.1 b.2 then some (wireOf vert col row) else none

/-- The contended wires that end in a column. -/
def clashesIn (routing : Store) (col : Nat) : List Nat :=
  (List.range 64).flatMap (fun row =>
    (clashAt routing false col row).toList ++ (clashAt routing true col row).toList)

/-- A wire is still contended. -/
def stillClashes (routing : Store) (w : Nat) : Bool :=
  clashAt routing (decide (w % 2 = 1)) (w / 128) (w % 128 / 2) = some w

/-- The guard acts after a routing column applies: contended wires switch off, the first is recorded while CONTENTION is 0 (R195). -/
def guardColumn (s : State) (k col : Nat) : State :=
  let v := s.logic k
  let kept := v.contended.filter (stillClashes v.routing)
  let new := ((clashesIn v.routing col).filter (fun w => !kept.contains w)).eraseDups
  let s1 := s.setLogic k { v with contended := kept ++ new }
  match new with
  | [] => s1
  | w :: _ =>
    if s1.is (fContention k) then s1
    else (((s1.mark (fContention k)).setFld (fContColumn k) (w / 128)).setFld (fContRow k) (w % 128 / 2)).setFld (fContVert k) (w % 2)

/-! ### Frames (R205 to R207) -/

def frameKind (h : Nat) : Nat := bits h 8 4
def frameColumn (h : Nat) : Nat := bits h 16 7
def frameLength (h : Nat) : Nat := bits h 40 12

/-- The payload length that a kind requires (R206). -/
def kindLength : Nat → Option Nat
  | 0 | 1 => some 128
  | 2 => some 3
  | 3 => some 1
  | _ => none

/-- The reserved bits of payload word i of a kind (R192, R206, R217). -/
def payloadReserved (kind i w : Nat) : Bool :=
  match kind, i % 2 with
  | 0, 1 => decide (bits w 10 54 ≠ 0)
  | 0, _ => false
  | 1, 0 => decide (bits w 50 14 ≠ 0)
  | 1, _ => decide (bits w 48 16 ≠ 0)
  | 2, _ =>
    if i = 0 then (List.range 4).any (fun t => decide (bits w (8 * t + 6) 2 ≠ 0))
    else decide (bits w 7 1 ≠ 0 ∨ bits w 14 2 ≠ 0 ∨ bits w 19 13 ≠ 0)
  | 3, _ => decide (bits w 51 13 ≠ 0)
  | _, _ => false

/-- GEN, KIND, LENGTH and the reserved fields of a frame are right (R205, R206). -/
def frameFormOk (words : List Word64) : Bool :=
  match words with
  | [] => false
  | h :: rest =>
    let n := h.toNat
    let kind := frameKind n
    let len := frameLength n
    let payload := rest.take len
    decide (bits n 0 8 = 1) && decide (kindLength kind = some len) && decide (bits n 12 4 = 0) && decide (bits n 23 1 = 0) &&
      decide (bits n 33 7 = 0) && decide (bits n 52 12 = 0) &&
      (if kind < 2 then decide (frameColumn n < 96) else decide (frameColumn n = 0)) &&
      (decide (kind ≠ 2) || decide (bits n 24 3 = 0)) &&
      ((List.range payload.length).zip payload).all (fun p => !payloadReserved kind p.1 p.2.toNat) &&
      decide (bits (rest.getD len 0).toNat 32 32 = 0)

/-- The check word agrees with header and payload (R205). -/
def frameCrcOk (words : List Word64) : Bool :=
  let body := words.dropLast
  decide ((crc32 (body.flatMap (fun w => leBytes 8 w.toNat))).toNat = bits (words.getLastD 0).toNat 0 32)

/-- A stored value of RGN_CLK: a DIV outside 2 to 8 stores 8 (R217). -/
def clkValue (v : Nat) : Nat :=
  (List.range 4).foldl (fun a i =>
    let d := bits v (8 * i + 2) 4
    a + 2 ^ (8 * i) * (bits v (8 * i) 2 + 4 * (if 2 ≤ d ∧ d ≤ 8 then d else 8))) 0

/-- A checked frame applies to a block (R206, R207). -/
def applyFrame (s : State) (k : Nat) (words : List Word64) : State :=
  let h := (words.headD 0).toNat
  let payload := slice words 1 (frameLength h)
  let r := clusterRegion k
  let v := s.logic k
  match frameKind h with
  | 0 => s.setLogic k (holdFlops { v with cells := v.cells.putAll (128 * frameColumn h) payload, framed := true })
  | 1 => guardColumn (s.setLogic k { v with routing := v.routing.putAll (128 * frameColumn h) payload, framed := true }) k (frameColumn h)
  | 2 =>
    let w (i : Nat) : Word32 := BitVec.ofNat 32 (payload.getD i 0).toNat
    stageWrite (stageWrite (stageWrite s (rgnClk r) (BitVec.ofNat 32 (clkValue (w 0).toNat))) (rgnPll r 0) (w 1)) (rgnPll r 1) (w 2)
  | _ =>
    let w := (payload.headD 0).toNat
    ((s.setLogic k { v with framed := true }).setFld (logPortsLo k) (bits w 0 32)).setFld (logPortsHi k) (bits w 32 32)

/-- The frame being applied finishes (R207). -/
def finishFrame (s : State) (k : Nat) : State :=
  let v := s.logic k
  match v.applying with
  | none => s
  | some ws => applyFrame ((s.setLogic k { v with applying := none }).bump (fApplied k)) k ws

/-- FRAME_APPLIED (R207). -/
def execFrameApplied (k : ClusterIx) (s : State) : Res := .next (finishFrame s k.val)

/-- LOG_FRAME_LO: completes a 64-bit word; with the check word the frame is checked whole (R207). A frame that follows at once finds the
one before it applied. -/
def writeFrameLo (s : State) (k : Nat) (lo : Word32) : State :=
  let v := s.logic k
  let w : Word64 := BitVec.ofNat 64 (lo.toNat + 2 ^ 32 * v.frameHi.toNat)
  let words := v.words ++ [w]
  if words.length < frameLength (words.headD 0).toNat + 2 then s.setLogic k { v with words := words }
  else
    let s1 := s.setLogic k { v with words := [] }
    let crc := frameCrcOk words
    let form := frameFormOk words && decide (s.fld (fLogState k) = 1)
    if crc && form then
      let s2 := finishFrame s1 k
      s2.setLogic k { s2.logic k with applying := some words }
    else
      let s2 := if crc then s1 else s1.mark (fLogCrcErr k)
      if form then s2 else s2.mark (fLogFrameErr k)

/-- LOG_FRAME_LO (R207, R216). -/
def execLogFrameLo (k : ClusterIx) (v : Word32) (s : State) : Res := .next (if s.recovery then s else writeFrameLo s k.val v)

/-! ### A block's configuration (R208 to R210) -/

/-- An agent of the region is not playing, or waits at SYNC (R210). -/
def atSync (s : State) (a : Agent) : Bool := !s.is (fRunning a) || decide ((s.play a).wait = .sync)

def regionAtSync (s : State) (r : Nat) : Bool :=
  (List.range 64).all (fun i => atSync s (.dot (Fin.ofNat 4096 (64 * r + i)))) &&
    (List.range 16).all (fun i => atSync s (.fn (Fin.ofNat 1024 (16 * r + i))))

/-- Configuring is refused (R210); so it is in an idle region, whose blocks stay unconfigured (01 R21, notes/assumptions/67.md). -/
def configRefused (s : State) (r : Nat) : Bool :=
  s.idleRegion r || (s.armed && s.lockedImage) || (s.run.started && s.stagedImage && !regionAtSync s r)

/-- The controller that the block owns is lent to it (R202, R218). -/
def ctlNat : ByteCtl → Nat
  | .uart => 0 | .i2c => 1
def fCtlLent (d : Nat) (c : Nat) : Fld := if c = 0 then ⟨hardBase d + 4, 21, 1⟩ else ⟨hardBase d + 8, 7, 1⟩
def fCtlOwner (d : Nat) (c : Nat) : Fld := if c = 0 then ⟨hardBase d + 4, 16, 5⟩ else ⟨hardBase d + 8, 2, 5⟩
def borrows (s : State) (k c : Nat) : Bool := s.is (fCtlLent (k / 32) c) && decide (s.fld (fCtlOwner (k / 32) c) = k % 32)

/-- A block enters CONFIGURING: an exchange of a controller it owns is abandoned at the byte boundary (R208), and what was assembled at its
frame port is dropped; its CFG_UE bit clears (15 R384), and the pads it owns go high-impedance (R208). -/
def enterConfig (s : State) (k : Nat) : State :=
  let s1 := ((s.setFld (fLogState k) 1).setFld (fApplied k) 0).setLogic k (holdFlops { s.logic k with words := [], done := false })
  let s2 := [0, 1].foldl (fun t c =>
    if borrows t k c then { t with byteCmds := mset none t.byteCmds (2 * (k / 32) + c) none } else t) s1
  let s3 := s2.setFld ⟨regionBase (clusterRegion k) + 0x1404, 8 + k % 8, 1⟩ 0
  showPads s3 (padsOf s3 k)

/-- BEGIN (R210). -/
def execLogBegin (k : ClusterIx) (s : State) : Res :=
  if s.recovery then .next s
  else if configRefused s (clusterRegion k.val) then .next (s.mark (fLogRefused k.val)) else .next (enterConfig s k.val)

/-- DONE: configuring ends; the block awaits its release (R209). -/
def execLogDone (k : ClusterIx) (s : State) : Res :=
  if s.recovery then .next s
  else if s.fld (fLogState k.val) = 1 then
    let s1 := finishFrame s k.val
    .next ((s1.setFld (fLogState k.val) 3).setLogic k.val { s1.logic k.val with doneAt := s.clock.now + bit s.runs })
  else .next s

/-- A block is released: its flip-flops start from their initial values and its ports act (R209); without a frame it behaves as unconfigured. -/
def releaseBlock (s : State) (k : Nat) : State :=
  let s1 := (s.setFld (fLogState k) (if (s.logic k).framed then 2 else 0)).setLogic k { holdFlops (s.logic k) with playedTo := s.clock.now }
  showPads s1 (padsOf s1 k)

/-- The queues that a block's write ports feed are purged (R209). -/
def purgeFed (s : State) (k : Nat) : State :=
  ((List.range 4).filterMap (writeTarget s k)).foldl purgeQueue (settleAll s k s.clock.now)

/-- BLOCK_RELEASE: at a crossing start, or in a staged run a barrier release, after DONE (R209). -/
def execBlockRelease (k : ClusterIx) (s : State) : Res :=
  if decide (s.fld (fLogState k.val) = 3) && s.runs && !s.is (fRgnBusy (clusterRegion k.val)) &&
      decide ((s.logic k.val).doneAt ≤ lastBoundary s) then
    .next (releaseBlock (purgeFed s k.val) k.val)
  else .next s

/-! ### Region reconfiguration (R211) -/

/-- Every queue of a region is purged (R176, R211). -/
def purgeRegion (s0 : State) (r : Nat) : State :=
  let s := noteQueues s0 (fun q => decide (qCluster q / 8 = r)) (s0.clock.now + 2)
  { s with
    portQ := s.portQ.filter (fun e => decide (e.1 / 256 ≠ r))
    bankQ := s.bankQ.filter (fun e => decide (e.1 / 128 ≠ r))
    steerQ := s.steerQ.filter (fun e => decide (e.1 / 32 ≠ r)) }

/-- START takes effect at cycle t: blocks CONFIGURING, queues purged at t + 1, the epoch toggles at t + 2 (R211). -/
def startRegion (s : State) (r : Nat) : State :=
  let t := s.clock.now
  let s1 := (List.range 8).foldl (fun x c => enterConfig x (8 * r + c)) s
  let s2 := (List.range 8).foldl (fun x c => settleAll x (8 * r + c) (t + 1)) (settleLinks s1 (t + 1) (129 * s1.links.length))
  let s3 := purgeRegion s2 r
  ((s3.setFld (fEpoch r) (1 - s3.fld (fEpoch r))).mark (fRgnBusy r)).setRegion r
    { s3.region r with toggledAt := some (t + 2), releaseAt := none }

/-- START (R210, R211). -/
def execRgnStart (r : RegionIx) (s : State) : Res :=
  if s.recovery then .next s
  else if configRefused s r.val then .next (s.mark (fRgnRefused r.val)) else .next (startRegion s r.val)

/-- RELEASE: refused while a block of the region is CONFIGURING (R211). -/
def execRgnRelease (r : RegionIx) (s : State) : Res :=
  if s.recovery then .next s
  else if (List.range 8).any (fun c => decide (s.fld (fLogState (8 * r.val + c)) = 1)) then .next (s.mark (fRgnRefused r.val))
  else if s.is (fRgnBusy r.val) then .next (s.setRegion r.val { s.region r.val with releaseAt := some (s.clock.now + bit s.runs) })
  else .next s

/-- The region is released: its queues are purged again, its staged fields commit, its blocks act (R211). -/
def releaseRegion (s : State) (r : Nat) : State :=
  let s0 := (List.range 8).foldl (fun x c => settleAll x (8 * r + c) x.clock.now) (settleLinks s s.clock.now (129 * s.links.length))
  let s1 := finishCommit (purgeRegion s0 r) r
  let s2 := (List.range 8).foldl (fun x c => releaseBlock x (8 * r + c)) s1
  (s2.setFld (fRgnBusy r) 0).setRegion r { s2.region r with releaseAt := none }

/-- RECONFIG_RELEASE: at the first crossing start or barrier release after RELEASE, at least 1,024 cycles after the epoch toggled, of the array clock
or, while that was stopped, of the management clock (R211). -/
def execReconfigRelease (r : RegionIx) (s : State) : Res :=
  let v := s.region r.val
  match v.releaseAt with
  | some a =>
    if s.is (fRgnBusy r.val) && s.runs && decide (a ≤ lastBoundary s) && v.toggledAt.all (fun t => decide (t + 1024 ≤ lastBoundary s)) then
      .next (releaseRegion s r.val)
    else .next s
  | none => .next s

/-! ### Boundary ports (R199, R208, 15 R384) -/

/-- A configuration word of the block is uncorrectable (15 R384). -/
def configUe (s : State) (k : Nat) : Bool := s.is ⟨regionBase (clusterRegion k) + 0x1404, 8 + k % 8, 1⟩

/-- The beat that write port j sends: while the block configures a bad zero beat with the crossing's tag and both row flags (R208); with an
uncorrectable configuration word, marked bad (15 R384). -/
def portBeat (s : State) (k : Nat) (b : Beat) : Beat :=
  let st := s.fld (fLogState k)
  if st = 1 ∨ st = 3 then ⟨0, 0, BitVec.ofNat 6 (s.fld fCurrent % 64), true, false, true, true⟩
  else badIf b (configUe s k)

/-- The cycle from which a beat that write port j sends now is present in its queue: the next, and through the dual-clock queue of a free tree a
later one, which 02 R34 does not fix, but after the beat before it (R199, R200; notes/assumptions/15.md). -/
def portDue (s : State) (k j : Nat) (q : QueueId) : Nat :=
  let before := (s.cluster k).arrivals.filter (fun a => decide (a.q = q) && decide (a.writer = 3))
  before.foldl (fun m a => max m (a.due + 1)) (s.clock.now + 1 + portLag s k j s.freeNext)

/-- A write completes: the beat is present in the queue from the next array cycle (R199), on a free tree once it has crossed (R200). -/
def portWrite (s : State) (k j : Nat) (q : QueueId) (b : Beat) : State :=
  let s0 := chargeQueue s q s.clock.now
  let s1 := (s0.setQueue q { s0.queue q with blocked := none }).setLogic k { s.logic k with portRegs := (s.logic k).portRegs.set (4 + j) b }
  sendArrival (spendCredit s1.drawn q) k q (portDue s k (4 + j) q) 3 b

/-- LOGIC_PORT_WRITE: the block offers a beat on LWj at the next edge of the tree that serves it; with the tree low there is none (R196, R199). To
a HOLD queue without credit the write waits (07 R173). While the block configures its port writes only where the queue takes the beat without
overrun (R208). -/
def execLogicPortWrite (k : ClusterIx) (j : Fin 4) (b : Beat) (s : State) : Res :=
  match writeTarget s k.val j.val, portEdge s k.val (4 + j.val) with
  | none, _ => .next s
  | _, none => .next s
  | some q, some e =>
    if decide (s.fld (fLogState k.val) = 0) then .next s
    else
      let s1 := settleAt (portActs s k.val (4 + j.val) e) q
      let c := portBeat s1 k.val b
      let held := decide (s1.fld (fLogState k.val) ≠ 2)
      let coming := ((s1.cluster k.val).arrivals.filter (fun a => decide (a.q = q))).length
      if held && !qHold s1 q && decide (qDepth s1 q ≤ (s1.queue q).beats.length + coming) then .next s1
      else if maySend s1 q then .next (portWrite s1 k.val j.val q c)
      else if held then .next s1
      else .next (s1.setQueue q { s1.queue q with blocked := some (c, ((s1.queue q).blocked.map (·.2)).getD s.clock.now) })

/-- LOGIC_PORT_TAKE: at the next edge of the tree that serves the port LR_TAKE removes the head beat, or reads an empty queue (R199, 07 R171). While
the block is not configured TAKE is held at 0 (R208). -/
def execLogicPortTake (k : ClusterIx) (j : Fin 4) (s : State) : Res :=
  match readTarget s k.val j.val, portEdge s k.val j.val with
  | none, _ => .next s
  | _, none => .next s
  | some q, some e =>
    if decide (s.fld (fLogState k.val) ≠ 2) then .next s
    else
      let s1 := portActs s k.val j.val e
      let s2 := settleFuns s1 k.val s1.clock.now
      let r := readRanked s2 q (readBefore s2 k.val (qObject q) s2.clock.now) ⟨k.val, 11, 0⟩ s2.clock.now
      .next (r.2.2.setLogic k.val { r.2.2.logic k.val with portRegs := (r.2.2.logic k.val).portRegs.set j.val r.1 })

/-! ### Writes that waited for credit (07 R173) -/

/-- A deliver context whose queue waits for credit. -/
def contextWaiting (s : State) (q : QueueId) : Option Nat :=
  (s.ctxs.find? (fun e => decide (s.fld (fCtxKind e.1) = 1) && decide (targetQueue s e.1 = q) && !e.2.buf.isEmpty)).map (·.1)

/-- The port of the block that feeds a queue. -/
def portFeeding (s : State) (q : QueueId) : Nat := ((List.range 4).find? (fun j => decide (writeTarget s (qCluster q) j = some q))).getD 0

/-- WRITE_CREDIT_WAIT_END: credit has come back, and the write that waited for it takes place; the cycles it waited count (07 R173, 05 R109). -/
def execWriteCreditWaitEnd (q : QueueId) (s : State) : Res :=
  if !maySend s q then .next s
  else
    match creditWaiter s q, (s.queue q).blocked with
    | some (a, since), _ =>
      let t := max since s.clock.now
      if plays s a then .next (reissue ((s.bump (fBlocked a) (t - since)).bump (fQBlocked q) (t - since)) a t) else .next s
    | none, some (b, _) => .next (portWrite s (qCluster q) (portFeeding s q) q (badIf b (configUe s (qCluster q))))
    | none, none =>
      if steerWaits s q then .next (applyBeat s (qCluster q) (steerCycle s (qCluster q)))
      else match contextWaiting s q with
        | some x => .next (drainDeliver s x (s.ctx x).buf.length)
        | none => .next s

/-! ### Hard blocks (R202, R218, R219) -/

/-- The block drives the controller through its byte port: lent to it, owned in its port binding, and not configuring (R202, R206, R208). -/
def drives (s : State) (k c : Nat) : Bool :=
  borrows s k c && (binding s k).getLsbD (48 + c) && decide (s.fld (fLogState k) = 2)

/-- A byte-port command begins, once the one before it is done (R202): 0 start, 1 write, 2 read (with the acknowledge bit), 3 stop. -/
def bytePort (s : State) (k : Nat) (c : ByteCtl) (op : Nat) (b : Byte) : State :=
  let key := 2 * (k / 32) + ctlNat c
  if drives s k (ctlNat c) && (mget none s.byteCmds key).isNone then
    let s0 := playLogic s k s.clock.now
    let s1 := s0.setLogic k { s0.logic k with done := false }
    ({ s1 with byteCmds := mset none s1.byteCmds key (some (k, op, b)) }).send (.bytePort (k / 32) (decide (ctlNat c = 1)) op b)
  else s

/-- BYTE_PORT_START (R202). -/
def execBytePortStart (k : ClusterIx) (c : ByteCtl) (s : State) : Res := .next (bytePort s k.val c 0 0)

/-- BYTE_PORT_WRITE_BYTE (R202). -/
def execBytePortWriteByte (k : ClusterIx) (c : ByteCtl) (b : Byte) (s : State) : Res := .next (bytePort s k.val c 1 b)

/-- BYTE_PORT_READ_BYTE (R202). -/
def execBytePortReadByte (k : ClusterIx) (c : ByteCtl) (ack : Bool) (s : State) : Res := .next (bytePort s k.val c 2 (BitVec.ofNat 8 (bit ack)))

/-- BYTE_PORT_STOP (R202). -/
def execBytePortStop (k : ClusterIx) (c : ByteCtl) (s : State) : Res := .next (bytePort s k.val c 3 0)

/-- BYTE_PORT_DONE: the response byte and its done strobe, which the block's next edge sees (R202, notes/assumptions/15.md). -/
def execBytePortDone (d : DieIx) (c : ByteCtl) (resp : Byte) (s : State) : Res :=
  let key := 2 * d.val + ctlNat c
  match mget none s.byteCmds key with
  | none => .next s
  | some (k, _, _) =>
    let s0 := playLogic s k s.clock.now
    let s1 := { s0 with byteCmds := mset none s0.byteCmds key none }
    .next (s1.setLogic k { s1.logic k with response := resp, done := true })

def fFuseWord (d : Nat) : Fld := ⟨hardBase d + 0x10, 0, 10⟩
def fFuseLo (d : Nat) : Fld := ⟨hardBase d + 0x14, 0, 32⟩
def fFuseBusy (d : Nat) : Fld := ⟨hardBase d + 0x1C, 2, 1⟩
def fFuseErr (d : Nat) : Fld := ⟨hardBase d + 0x1C, 3, 1⟩

/-- The fuse word that LOG_UFUSE_ADDR names. -/
def fuseKey (s : State) (d : Nat) : Nat := 1024 * d + s.fld (fFuseWord d)
def fuseAt (s : State) (k : Nat) : FuseWord := mget {} s.fuses.user k

/-- READ: the word enters the data registers; an uncorrectable one is read raw with ERR (R202, R218). -/
def execUfuseRead (d : DieIx) (s : State) : Res :=
  if s.recovery then .next s
  else if s.is (fFuseBusy d.val) then .next s
  else
    let w := fuseAt s (fuseKey s d.val)
    let s1 := (s.setFld (fFuseLo d.val) (bits w.value.toNat 0 32)).latch (fFuseLo d.val).addr (BitVec.ofNat 32 (bits w.value.toNat 32 32))
    .next (if w.ecc = some .uncorrectable then s1.mark (fFuseErr d.val) else s1)

/-- PROGRAM: refused with ERR when the word is programmed; else it begins, from the data registers: what a READ or a write put there last, whether or
not a read of LOG_UFUSE_LO has shown the high half (R202, R218). -/
def execUfuseProgram (d : DieIx) (s : State) : Res :=
  if s.recovery then .next s
  else if s.is (fFuseBusy d.val) then .next s
  else if (fuseAt s (fuseKey s d.val)).programmed then .next (s.mark (fFuseErr d.val))
  else
    let v : Word64 := BitVec.ofNat 64 (s.fld (fFuseLo d.val) + 2 ^ 32 * (mget 0 s.latchHi (fFuseLo d.val).addr).toNat)
    .next { s.mark (fFuseBusy d.val) with fusePend := mset none s.fusePend d.val (some (fuseKey s d.val, v)) }

/-- FUSE_PROGRAM_DONE (R202). -/
def execFuseProgramDone (d : DieIx) (s : State) : Res :=
  match mget none s.fusePend d.val with
  | none => .next s
  | some (key, v) =>
    .next { s.setFld (fFuseBusy d.val) 0 with
      fusePend := mset none s.fusePend d.val none
      fuses := { s.fuses with user := mset {} s.fuses.user key ⟨true, v, none⟩ } }

/-- GPIO_LEVEL_CHANGE: LEVEL follows the pin (R219), and the user signal after up to 80 ns (R203); under EXTEST the pin has left the core
(16 R409). -/
def execGpioLevelChange (i : Fin 8) (level : Bool) (s : State) : Res :=
  if s.extest then .next s
  else
    let s1 := match padBlock s i.val with
      | some k => playLogic s k s.clock.now
      | none => s
    let s2 := { s1 with pins := { s1.pins with gpioAt := mset 0 s1.pins.gpioAt i.val (s1.clock.now + 1) } }
    .next (s2.setFld ⟨0x100 + 4 * i.val, 16, 1⟩ (bit level))

end Sys2Proof.Machine
end

