-- ==== Sys2Proof/Machine/Locking.lean ====
section
/-!
DEFINITION. Machine/Locking.lean: the locking sequence of the array, loss, holdover and relock, and TIM_CTRL
(02_crossing_time.md R37, R46 to R52, R60). STATE: 0 DARK, 1 SEARCH, 2 CONFIRM, 3 MEASURE, 4 PLL, 5 PHASE, 6 NUMBER,
7 LOCKED, 8 HOLDOVER. A step that is not the current one's leaves the state as it is (notes/assumptions/2.md).
-/
namespace Sys2Proof.Machine

/-- The largest array clock of the grade, in hertz (00_scope.md R5). -/
def gradeHz (s : State) : Nat := if s.fuses.grade13 then 1350000000 else 1200000000

/-- A step of the locking sequence is entered; N_ACTIVE reads N from step 4 on (R65). -/
def enterStep (s : State) (st : Nat) : State := (s.setFld fState st).setFld fNActive (if 4 ≤ st then s.n else 0)

/-- Arrival measurements restart when LOCKED is lost (11 R291). -/
def restartMeasures (s : State) : State :=
  { s with
    way := mmap {} (fun w => if w.measuring then { w with measured := 0 } else w) s.way
    ctxs := mmap {} (fun c => if c.measuring then { c with measured := 0, since := s.clock.xseq } else c) s.ctxs }

/-- While the array clock is stopped every die holds its default voltage (15 R388). -/
def holdVoltage (s : State) : State :=
  let s1 := (List.range 16).foldl (fun t d =>
    (t.setFld ⟨avsBase d, 0, 10⟩ s.fuses.vdefault).setFld ⟨avsBase d, 24, 1⟩ (bit (decide (s.fuses.vdefault = s.fuses.vmax)))) s
  { s1 with avs := [] }

/-- The device leaves its count: commas and turn starts seen are forgotten, the inputs of the crossing end with it (R36, R39), and pending
commands name crossings of a count that has ended; FROST stays, to be missed (16 R400, notes/assumptions/6.md). The logic blocks have played to the
present cycle (08 R197). -/
def leaveCount (s0 : State) : State :=
  let s := playBlocks s0 (fun _ => true) s0.clock.now
  { s with
    pendTable := s.pendTable.filter (fun e => decide (e.code = .frost))
    clock := { s.clock with
      resync := none, badCommas := 0, goodCommas := 0, firstTurnStart := false, empty := false, tpulse := false, tcode := 0 } }

/-- SEARCH is entered: LANE takes effect (R49). A lane that its own ENABLE holds DARK stays DARK (11 R290, R296). -/
def toSearch (s : State) : State :=
  let s1 := holdVoltage (restartMeasures (leaveCount s))
  withAlert s (enterStep { s1 with clock := { s1.clock with lane := s.fld fLane } } (bit (s.is (fRxEnable 0 (s.fld fLane)))))

/-- DARK is entered. -/
def toDark (s : State) : State := withAlert s (enterStep (holdVoltage (restartMeasures (leaveCount s))) 0)

/-- PLL is entered. -/
def toPll (s : State) : State := withAlert s (enterStep (holdVoltage (restartMeasures (leaveCount s))) 4)

/-- From step `a`, step `b`. -/
def advance (a b : Nat) (s : State) : State := if s.fld fState = a then enterStep s b else s

/-- TIMING_SIGNAL_PRESENT: DARK to SEARCH, unless an ENABLE, of TIM_CTRL or of the lane, holds the sequence in DARK (R46, R65, 11 R296). -/
def execTimingSignalPresent (s : State) : Res :=
  .next (if s.fld fState = 0 && s.is fEnable && !s.recovery then toSearch s else s)

/-- COMMA_FOUND: SEARCH to CONFIRM. -/
def execCommaFound (s : State) : Res := .next (advance 1 2 s)

/-- CONFIRM_COMPLETE: CONFIRM to MEASURE. -/
def execConfirmComplete (s : State) : Res := .next (advance 2 3 s)

/-- TIMING_CODE_VIOLATION: any step before LOCKED returns to SEARCH; CONFIRM restarts itself (R46). -/
def execTimingCodeViolation (s : State) : Res :=
  .next (if s.fld fState ∈ [3, 4, 5, 6] then toSearch s else s)

/-- FREQUENCY_MEASUREMENT: HZ from MEASURE onward; in MEASURE the two checks, which pass to PLL or set their flags (R46). -/
def execFrequencyMeasurement (hz : Word32) (s : State) : Res :=
  if s.fld fState < 3 then .next s
  else
    let s1 := s.setFld fHz hz.toNat
    if s.fld fState ≠ 3 then .next s1
    else
      let range := decide (hz.toNat < 30000000) || decide (45000000 < hz.toNat)
      let ratio := decide (gradeHz s < s.n * hz.toNat)
      let s2 := (s1.setFld fFreqRange (bit range)).setFld fRatioErr (bit ratio)
      .next (if range || ratio then s2 else enterStep s2 4)

/-- PLL_LOCK: PLL to PHASE. -/
def execPllLock (s : State) : Res := .next (advance 4 5 s)

/-- PLL_LOCK_TIMEOUT: PLL back to SEARCH. -/
def execPllLockTimeout (s : State) : Res := .next (if s.fld fState = 4 then toSearch s else s)

/-- PHASE_ALIGNED: PHASE to NUMBER, with no turn start seen. -/
def execPhaseAligned (s : State) : Res :=
  .next (if s.fld fState = 5 then
    enterStep { s with clock := { s.clock with firstTurnStart := false } } 6 else s)

/-- PHASE_TIMEOUT: PHASE back to PLL. -/
def execPhaseTimeout (s : State) : Res := .next (if s.fld fState = 5 then toPll s else s)

/-- Scheduled captures of the count that was lost: their crossings fell while the array clock was stopped (16 R400, notes/assumptions/6.md). -/
def missFrost (s : State) : State :=
  if s.pendTable.any (fun e => decide (e.code = PendCode.frost)) then
    ({ s with pendTable := s.pendTable.filter (fun e => decide (e.code ≠ PendCode.frost)) }).mark ⟨0x50004, 2, 1⟩
  else s

/-- LOCKED is entered at the second K28.1: T is measured, the crossing is 0, and the turn is 0 on the first lock and the held turn plus
one on a later one (R37). While the array clock stood, the 1,024 cycles of a reconfiguration have passed (08 R211, notes/assumptions/15.md). -/
def lockAt (s : State) (t : Nat) : State :=
  let turn := if s.clock.everLocked then (s.fld fTurn + 1) % 2 ^ 32 else 0
  let s0 := missFrost { s with regions := mmap {} (fun v => { v with toggledAt := none }) s.regions }
  let s1 := enterStep (((s0.setFld fTurnLen t).setFld fCurrent 0).setFld fTurn turn) 7
  { s1 with clock := { s1.clock with
      everLocked := true, firstTurnStart := false, badCommas := 0, goodCommas := 0, empty := false, tpulse := false, tcode := 0,
      xstart := s1.clock.now, xseq := s1.clock.xseq + 1, menus := s1.clock.menus.headD 0 :: s1.clock.menus } }

/-- TURN_START_SEEN in NUMBER: the first is remembered, the second locks (R37). A gap outside 1 to 4,096 opens no turn; the K28.1
is then a first turn start (R37 drops the one before by NUMBER_TIMEOUT). -/
def execTurnStartSeen (gap : Nat) (s : State) : Res :=
  if s.fld fState ≠ 6 then .next s
  else if s.clock.firstTurnStart && decide (1 ≤ gap) && decide (gap ≤ 4096) then .next (lockAt s gap)
  else .next { s with clock := { s.clock with firstTurnStart := true } }

/-- NUMBER_TIMEOUT: the lone first turn start is dropped and counted (R37). -/
def execNumberTimeout (s : State) : Res :=
  if s.fld fState = 6 && s.clock.firstTurnStart then
    .next ({ s with clock := { s.clock with firstTurnStart := false } }.bump fNumErr)
  else .next s

/-- TIMING_LANE_LOSS: after the third bad comma in a row LOSS is set and counted and HOLDOVER begins (R50). -/
def execTimingLaneLoss (s : State) : Res :=
  if s.fld fState = 7 && decide (3 ≤ s.clock.badCommas) then
    let s1 := restartMeasures (enterStep ((s.mark fLoss).bump fLossCnt) 8)
    .next { s1 with clock := { s1.clock with goodCommas := 0, holdStart := s1.clock.xseq } }
  else .next s

/-! ### TIM_CTRL -/

/-- The value a write of TIM_CTRL stores: N_DEFAULT outside 24 to 40 stores 30, WEATHER below 16 stores 16 (R60, R65); LANE, ENABLE and
N_DEFAULT keep their values while a run is armed (R49). -/
def timCtrlValue (s : State) (v : Word32) : Word32 :=
  let w := v.toNat
  let nd := bits w 8 6
  let keep := s.armed
  let lane := if keep then s.fld fLane else bits w 0 6
  let en := if keep then s.fld fEnable else bits w 6 1
  let n := if keep then s.fld fNDefault else if 24 ≤ nd ∧ nd ≤ 40 then nd else 30
  let weather := max 16 (bits w 16 8)
  BitVec.ofNat 32 (lane + 2 ^ 6 * en + 2 ^ 8 * n + 2 ^ 16 * weather)

/-- A write of TIM_CTRL (R49, R60). CFG_IGNORED is set when a protected field would have changed, and a write that leaves N_DEFAULT at the
value it has changes no N and does not return the device to PLL (the model's choices, notes/assumptions/8.md). -/
def writeTimCtrl (v : Word32) (s : State) : State :=
  let s1 := s.setRaw fTimCtrl (timCtrlValue s v)
  let changes := decide (bits v.toNat 0 7 ≠ bits (s.raw fTimCtrl).toNat 0 7) || decide (bits v.toNat 8 6 ≠ s.fld fNDefault)
  if s.armed then (if changes then s1.mark fTimIgnored else s1)
  else if !s1.is fEnable then (if s1.fld fState = 0 then s1 else toDark s1)
  else if decide (s1.fld fNDefault ≠ s.fld fNDefault) && s.image.isNone && decide (4 ≤ s.fld fState) then toPll s1
  else s1

/-- TIM_CTRL_WRITE (R49). -/
def execTimCtrlWrite (v : Word32) (s : State) : Res := .next (if s.recovery then s else writeTimCtrl v s)

end Sys2Proof.Machine
end

