-- ==== Sys2Proof/Machine/Lanes.lean ====
section
/-!
DEFINITION. Machine/Lanes.lean: the lanes of the optical tiles: training, margins, loss of lock, bonding, re-striping, laser power and beat
egress (11_optical_tiles.md R274 to R296; 12 R312, R313).
-/
namespace Sys2Proof.Machine

/-! ### Fields -/

def fRxRate (site lane : Nat) : Fld := ⟨rxBase site lane, 0, 15⟩
def fRxCoding (site lane : Nat) : Fld := ⟨rxBase site lane, 15, 1⟩
def fLos (site lane : Nat) : Fld := ⟨rxBase site lane + 4, 4, 1⟩
def fLowMargin (site lane : Nat) : Fld := ⟨rxBase site lane + 4, 5, 1⟩
def fRxCfgErr (site lane : Nat) : Fld := ⟨rxBase site lane + 4, 6, 1⟩
def fRxIgnored (site lane : Nat) : Fld := ⟨rxBase site lane + 4, 7, 1⟩
def fArrFail (site lane : Nat) : Fld := ⟨rxBase site lane + 4, 8, 1⟩
def fRetrains (site lane : Nat) : Fld := ⟨rxBase site lane + 4, 16, 8⟩
def fMarginH (site lane : Nat) : Fld := ⟨rxBase site lane + 8, 0, 6⟩
def fMarginV (site lane : Nat) : Fld := ⟨rxBase site lane + 8, 8, 6⟩
def fHLow (site lane : Nat) : Fld := ⟨rxBase site lane + 8, 16, 6⟩
def fVLow (site lane : Nat) : Fld := ⟨rxBase site lane + 8, 24, 6⟩
def fCrcErr (site lane : Nat) : Fld := ⟨rxBase site lane + 0xC, 0, 16⟩
def fFrameErr (site lane : Nat) : Fld := ⟨rxBase site lane + 0xC, 16, 8⟩
def fSeqGap (site lane : Nat) : Fld := ⟨rxBase site lane + 0xC, 24, 8⟩
def fRetrainH (site : Nat) : Fld := ⟨siteBase site + 0xE04, 0, 6⟩
def fRetrainV (site : Nat) : Fld := ⟨siteBase site + 0xE04, 8, 6⟩
def fAutoRetrain (site : Nat) : Fld := ⟨siteBase site + 0xE04, 16, 1⟩
def fWayAMax (n : Nat) : Fld := ⟨wayBase n, 0, 13⟩
def fWayAMin (n : Nat) : Fld := ⟨wayBase n, 16, 13⟩
def fWayTrained (n : Nat) : Fld := ⟨wayBase n + 0xC, 2, 1⟩

/-! ### Which lanes -/

def laneIgnored (site lane : Nat) (tx : Bool) : Fld := if tx then fTxIgnored site lane else fRxIgnored site lane
def laneCfgErr (site lane : Nat) (tx : Bool) : Fld := if tx then fTxCfgErr site lane else fRxCfgErr site lane
def laneEnabled (s : State) (site lane : Nat) (tx : Bool) : Bool := s.is (if tx then fTxEnable site lane else fRxEnable site lane)

/-- The receive lanes of a tile (R274). -/
def rxLanes (s : State) (site : Nat) : Nat :=
  match s.tile site with
  | 0 => 48
  | 1 => 32
  | _ => 0

/-- The tile has the lane (R274, R278). -/
def laneExists (s : State) (l : LaneId) : Bool :=
  decide (l.lane.val < (if l.tx then txLanes s l.site.val else rxLanes s l.site.val))

/-- The timing lane (R278): the receive lane of site 0 in use. -/
def isTiming (s : State) (site lane : Nat) (tx : Bool) : Bool := decide (site = 0) && !tx && decide (lane = s.clock.lane)

/-- The package-wide number of an intake receive lane (02 R53). -/
def intakeNumber (s : State) (site lane : Nat) : Nat := 48 * ((s.sitesOf 0).idxOf site) + lane

/-- The site and lane of intake lane n. -/
def intakeLane (s : State) (n : Nat) : Option (Nat × Nat) := ((s.sitesOf 0)[n / 48]?).map (fun site => (site, n % 48))

/-- A light-tile lane that carries the fabric: its receive and transmit sides are a pair (R284, R290). -/
def isPair (s : State) (site lane : Nat) : Bool := decide (s.tile site = 1) && decide (funcOf s site (leadOf s site lane) = 3)

def fVaEnable (v : Nat) : Fld := ⟨vaBase v, 0, 1⟩

/-- The group of a transmit lane carries VERDICT for an enabled assembler. -/
def carriesVerdict (s : State) (site lane : Nat) : Bool :=
  let lead := leadOf s site lane
  decide (funcOf s site lead = 1) && s.is (fVaEnable (s.fld (fTxVa site lead)))

/-- The lane is one that a run of a locked image locks (R292). -/
def wouldLock (s : State) (site lane : Nat) (tx : Bool) : Bool :=
  isTiming s site lane tx ||
    (!tx && decide (s.tile site = 0) && (lanesOf s).any (fun b => decide (b.lane = intakeNumber s site lane))) ||
    ((tx || isPair s site lane) && carriesVerdict s site lane) ||
    (isPair s site lane && (match calendarOf s site (leadOf s site lane) with
      | some c => decide (0 < c.slots)
      | none => false))

/-- The lane is locked: from ARM_RUN of a locked image until DISARM or the run's stop (R292). -/
def laneLocked (s : State) (site lane : Nat) (tx : Bool) : Bool := s.armed && s.lockedImage && wouldLock s site lane tx

/-- Every lane of a tile, with its side. -/
def tileLanes (s : State) (site : Nat) : List (Nat × Bool) :=
  (List.range (rxLanes s site)).map (fun j => (j, false)) ++ (List.range (txLanes s site)).map (fun j => (j, true))

/-- Every lane of the package. -/
def allLanes (s : State) : List (Nat × Nat × Bool) :=
  (List.range 16).flatMap (fun site => (tileLanes s site).map (fun p => (site, p.1, p.2)))

/-! ### States -/

/-- The state of a lane (R290). The timing lane follows the locking sequence: DARK, TRAINING up to LOCKED, then UP
(notes/assumptions/43.md), and is DARK while its ENABLE is 0; the receive lanes of a light group without the fabric are DARK (R284). -/
def laneState (s : State) (site lane : Nat) (tx : Bool) : Nat :=
  if isTiming s site lane tx then (if s.fld fState = 0 ∨ !s.is (fRxEnable site lane) then 0 else if s.fld fState < 7 then 1 else 2)
  else if !tx && decide (s.tile site = 1) && !isPair s site lane then 0
  else s.fld (fLaneState site lane tx)

/-- A lane, or both sides of a light-tile pair, enters a state (R290). -/
def setLaneState (s : State) (site lane : Nat) (tx : Bool) (v : Nat) : State :=
  let s1 := s.setFld (fLaneState site lane tx) v
  if isPair s site lane then s1.setFld (fLaneState site lane !tx) v else s1

/-- The setting of an enabled lane keeps to R274. -/
def settingOk (s : State) (site lane : Nat) (tx : Bool) : Bool :=
  match s.tile site, tx with
  | 0, false =>
    let r := s.fld (fRxRate site lane)
    if s.is (fRxCoding site lane) then decide (9600 ≤ r) && decide (r ≤ 28100) else decide (2400 ≤ r) && decide (r ≤ 6400)
  | 0, true => decide (9600 ≤ s.fld (fTxRate site lane)) && decide (s.fld (fTxRate site lane) ≤ 28100)
  | _, _ => true

/-- The side that holds what a lane's states need: the receive side of a pair (R290). -/
def sideOf (s : State) (site lane : Nat) (tx : Bool) : Bool := tx && !isPair s site lane

/-- ENABLE of the lane, or of both sides of a pair (R290, R296). -/
def sidesEnabled (s : State) (site lane : Nat) (tx : Bool) : Bool :=
  laneEnabled s site lane tx && (!isPair s site lane || laneEnabled s site lane !tx)

def isLit (s : State) (site lane : Nat) : Bool := decide (s.tile site ≠ 1) || s.fld (fTxNoLight site lane) = 0

/-- The lane needs the tile's laser: a transmit lane of a light tile, or a pair (R276, R290). -/
def hasLight (s : State) (site lane : Nat) (tx : Bool) : Bool := isLit s site lane || (!tx && !isPair s site lane)

/-- Training begins (R290). A disabled lane, one without light, and every lane in recovery (14 R369) stays DARK; a setting that breaks R274 keeps the lane DARK and sets CFG_ERR. -/
def beginTraining (s : State) (site lane : Nat) (tx : Bool) : State :=
  let s1 := s.setLane site lane tx { s.lane site lane tx with attempts := 0, low := 0, dropped := false }
  if s.recovery || !sidesEnabled s site lane tx || !hasLight s site lane tx then setLaneState s1 site lane tx 0
  else if settingOk s site lane tx then setLaneState s1 site lane tx 1
  else (setLaneState s1 site lane tx 0).mark (laneCfgErr site lane tx)

/-- A DARK transmit lane or pair trains when it is enabled and lit: at power-up, on ENABLE, when its light returns, or as its group takes up the
fabric (R284, R290). A receive lane of an intake tile trains when its signal is there. -/
def startLane (s : State) (site lane : Nat) (tx0 : Bool) : State :=
  let tx := sideOf s site lane tx0
  if (tx || isPair s site lane) && decide (laneState s site lane tx = 0) && !(s.lane site lane tx).dropped then beginTraining s site lane tx
  else s

/-- The measurement of arrivals of a lane that leaves UP is void (R291). -/
def voidMeasure (s : State) (site lane : Nat) : State :=
  if s.tile site = 0 then
    let n := intakeNumber s site lane
    (s.setFld (fWayTrained n) 0).setWay n { s.wayLane n with measuring := false, measured := 0 }
  else s

/-- A group with no lane UP carries nothing. -/
def noteGroup (s : State) (site lane : Nat) : State :=
  let lead := leadOf s site lane
  if isPair s site lane && (groupLanes s site lead).all (fun j => decide (laneState s site j false ≠ 2)) then s.setFld (fGrpUp site lead) 0
  else s

/-- A frame that has not ended when its lane loses lock is discarded and counted (R281). -/
def breakFrame (s : State) (site lane : Nat) : State :=
  let n := intakeNumber s site lane
  let w := s.wayLane n
  if decide (s.tile site = 0) && w.incoming.isSome then (s.setWay n { w with incoming := none }).bump (fFrameErr site lane) else s

/-- What an intake receive lane carried is lost: the frame that was arriving, and its measurement (R281, R291). -/
def cutLane (s : State) (site lane : Nat) (tx : Bool) : State :=
  if tx then s else voidMeasure (breakFrame s site lane) site lane

/-- A lane goes DARK: what it carried is lost (R290). -/
def darken (s : State) (site lane : Nat) (tx : Bool) : State :=
  noteGroup (cutLane (setLaneState s site lane tx 0) site lane tx) site lane

/-- A lane of a group that has just taken up the fabric: it trains as a pair, from DARK (R284, R290). -/
def startPair (site : Nat) (s : State) (j : Nat) : State :=
  startLane (setLaneState (s.setLane site j false { s.lane site j false with dropped := false }) site j false 0) site j false

/-- A light group whose FUNC has changed from or to the fabric: the receive lanes of the one are DARK, the pairs of the other train (R284). -/
def notePair (old s : State) (site lane : Nat) : State :=
  let lead := leadOf s site lane
  let s1 := (s.setFld (fGrpUp site lead) 0).setLane site lead true { s.lane site lead true with stripe := none }
  if isPair old site lane = isPair s site lane then s
  else if isPair s site lane then (groupLanes s site lead).foldl (startPair site) s1
  else (groupLanes s site lead).foldl (fun t j => t.setFld (fLaneState site j false) 0) s1

/-- The lanes of the group that a re-striping left DARK (R295). -/
def droppedLanes (s : State) (site lead : Nat) : List Nat :=
  (groupLanes s site lead).filter (fun j => (s.lane site j (sideOf s site lead true)).dropped)

/-- The lanes that the group's re-striping left DARK train, so that it comes back at the widest width (R295; notes/assumptions/72.md). -/
def bringDropped (s : State) (site lane : Nat) : State :=
  (droppedLanes s site (leadOf s site lane)).foldl (fun t j => beginTraining t site j (sideOf s site lane true)) s

/-- A lane retrains (R290, R294): from UP, on request after FAILED, or after a re-striping has left it DARK (R295). The timing lane follows 02 R46
and R50 instead. -/
def retrain (s : State) (site lane : Nat) (tx0 : Bool) : State :=
  let tx := sideOf s site lane tx0
  let st := laneState s site lane tx
  if isTiming s site lane tx then s
  else if st = 2 then
    let s1 := setLaneState (s.setLane site lane tx { s.lane site lane tx with attempts := 0, low := 0, lost := false }) site lane tx 3
    noteGroup (cutLane (if tx then s1 else s1.bump (fRetrains site lane)) site lane tx) site lane
  else if st = 4 ∨ (st = 0 ∧ (s.lane site lane tx).dropped) then beginTraining s site lane tx
  else s

/-- LANE_SIGNAL_PRESENT: a DARK enabled lane begins to train (R290), unless a re-striping has left it DARK (R295). The timing lane follows 02 R46
instead; the receive lanes of a light group without the fabric carry nothing (R284). -/
def execLaneSignalPresent (l : LaneId) (s : State) : Res :=
  let site := l.site.val
  let lane := l.lane.val
  let tx := sideOf s site lane l.tx
  if !laneExists s l then .next s
  else if decide (laneState s site lane tx = 0) && sidesEnabled s site lane tx && !isTiming s site lane tx && !(s.lane site lane tx).dropped &&
      (decide (s.tile site = 0) || tx || isPair s site lane) then
    .next (beginTraining s site lane tx)
  else .next s

/-! ### Groups -/

/-- The width code of the largest group of 1, 2, 4 or 8 lanes within `n`. -/
def widthCode (n : Nat) : Nat := if 8 ≤ n then 3 else if 4 ≤ n then 2 else if 2 ≤ n then 1 else 0

/-- SYS NEGO of this package (12 R320, R321). -/
def negoFields (s : State) (site lead : Nat) : Nat :=
  sysFields 0x01 [(8, 1), (16, 0x1F), (48, s.fld fPkgNum), (59, s.fld fTkActive), (60, s.fld fTkNum), (70, s.fld (fBondWidth site (lead / 8)))]

/-- The group's lanes that are UP carry the widest width they allow (R295). -/
def setWidth (s : State) (site lead : Nat) : State :=
  let up := (groupLanes s site lead).filter (fun j => decide (laneState s site j false = 2))
  s.setFld (fGrpWidth site lead) (widthCode up.length)

/-- The flits that lanes leave unacknowledged go to the front of the group's waiting ones, each lane's from its oldest (12 R313). -/
def handOver (s : State) (site lead : Nat) (lanes : List Nat) : State :=
  let flits := lanes.flatMap (fun j => (s.retry site j).unacked.map (fun e => e.2.2))
  let s1 := lanes.foldl (fun t j => t.setRetry site j { t.retry site j with unacked := [] }) s
  let r := s1.retry site lead
  s1.setRetry site lead { r with waiting := flits ++ r.waiting }

/-- A re-striping leaves the lane DARK (R295). -/
def dropLane (site : Nat) (s : State) (lane : Nat) : State :=
  setLaneState (s.setLane site lane false { s.lane site lane false with dropped := true }) site lane false 0

/-- The group goes on at width code w (R295, 12 R313): lanes that work beyond the width go DARK, once no lane of the group trains any more; each
remaining lane's unacknowledged flits are resent on it, those of the other lanes on the remaining ones; the peer is told. -/
def goOnAt (s : State) (site lead w : Nat) : State :=
  let ls := groupLanes s site lead
  let working := ls.filter (fun j => decide (laneState s site j false = 2))
  let trains := ls.any (fun j => decide (laneState s site j false = 1 ∨ laneState s site j false = 3))
  let kept := working.take (2 ^ w)
  let s1 := (s.setFld (fGrpWidth site lead) w).mark (fRestriped site lead)
  let s2 := (if trains then [] else working.drop (2 ^ w)).foldl (dropLane site) s1
  let s3 := handOver (kept.foldl (fun t j => resendFlits t site j) s2) site lead (ls.filter (fun j => !kept.contains j))
  sendSys s3 site lead (sysFields 0x08 [(8, w)])

/-- A loose group with a FAILED lane continues on its working lanes, at the widest width that they allow (R295). -/
def restripeGroup (s : State) (site lead : Nat) : State :=
  goOnAt s site lead (widthCode ((groupLanes s site lead).filter (fun j => decide (laneState s site j false = 2))).length)

/-- A link reset (12 R312): retry buffers emptied, credits reloaded, the group retrains. -/
def resetGroup (s : State) (site lead : Nat) : State :=
  let s0 := reloadCredits (clearRetry s site lead) site lead
  let k := 32 * site + lead
  let s1 := { s0 with heldFlits := mset [] s0.heldFlits k ((mget [] s0.heldFlits k).filter (fun h => h.got.isSome)) }
  let s2 := (groupLanes s1 site lead).foldl (fun t j => retrain t site j false) s1
  ((s2.setFld (fGrpUp site lead) 0).bump (fResets site lead)).setFld (fGrpReset site lead) 1

/-- The lanes of a light group that do not carry the fabric and are UP (R290). -/
def upSenders (s : State) (site lead : Nat) : List Nat := (groupLanes s site lead).filter (fun j => decide (laneState s site j true = 2))

/-- A loose light group without the fabric continues on the first of its working transmit lanes, at the widest width that they allow; lanes beyond
it go DARK, once no lane of the group trains any more (R295). -/
def narrowSenders (s : State) (site lead : Nat) : State :=
  let working := upSenders s site lead
  let w := 2 ^ widthCode working.length
  let trains := (groupLanes s site lead).any (fun j => decide (laneState s site j true = 1 ∨ laneState s site j true = 3))
  let s1 := s.setLane site lead true { s.lane site lead true with stripe := some (working.take w) }
  (if trains then [] else working.drop w).foldl (fun t j =>
    setLaneState (t.setLane site j true { t.lane site j true with dropped := true }) site j true 0) s1

/-- A lane of a re-striped group is UP: the group takes the widest width of the lanes that work, all of them where every one is UP (R295). -/
def widenSenders (s : State) (site lane : Nat) : State :=
  let lead := leadOf s site lane
  let v := s.lane site lead true
  let working := upSenders s site lead
  if v.stripe.isNone then s
  else s.setLane site lead true { v with
    stripe := if working.length = groupSize s site lead then none else some (working.take (2 ^ widthCode working.length)) }

/-- The lanes that a group's frames go round (R286, R295). -/
def frameLanes (s : State) (site lead : Nat) : List Nat := ((s.lane site lead true).stripe).getD (groupLanes s site lead)

/-- Some lane of the group is FAILED. -/
def hasFailed (s : State) (site lead : Nat) : Bool := (groupLanes s site lead).any (fun j => decide (laneState s site j false = 4))

/-- A group none of whose lanes can work any more (12 R312). -/
def groupFailed (s : State) (site lead : Nat) : Bool :=
  (groupLanes s site lead).all (fun j => decide (laneState s site j false = 4) || (s.lane site j false).dropped)

/-- What a FAILED lane does to its group (R295, 12 R312): a group none of whose lanes can work any more is reset, but trains again only on request
(R290; notes/assumptions/72.md); a loose group with working lanes re-stripes. -/
def laneFailed (s : State) (site lane : Nat) : State :=
  let lead := leadOf s site lane
  let ls := groupLanes s site lead
  if !isPair s site lane then
    (if decide (s.tile site = 1) && !laneLocked s site lane true && ls.any (fun j => decide (laneState s site j true = 2)) then
      narrowSenders s site lead else s)
  else if groupFailed s site lead then
    (reloadCredits (clearRetry s site lead) site lead).bump (fResets site lead)
  else if !laneLocked s site lane false && ls.any (fun j => decide (laneState s site j false = 2)) then restripeGroup s site lead
  else s

/-- The lanes of a group share a codeword boundary from training on: a lane that comes UP has filled as much of its codeword as the others, with
NULL, and its group begins a codeword with its first lane (12 R300). -/
def alignLane (s : State) (site lead lane : Nat) : State :=
  let others := (groupLanes s site lead).filter (fun j => decide (j ≠ lane) && decide (laneState s site j false = 2))
  let n := match others with
    | j :: _ => (s.retry site j).filling.length
    | [] => 0
  s.setRetry site lane { s.retry site lane with
    filling := List.replicate n nullWord
    long := match others with
      | j :: _ => (s.retry site j).long
      | [] => false }

/-- A lane of a fabric group is UP: the group takes the width that its lanes allow, and negotiates unless it has (R295, 12 R320). -/
def pairUp (s0 : State) (site lane : Nat) : State :=
  let lead := leadOf s0 site lane
  let s := alignLane s0 site lead lane
  let s1 := if hasFailed s site lead && !laneLocked s site lane false then restripeGroup s site lead else setWidth s site lead
  let s2 := s1.setFld (fGrpReset site lead) 0
  if s2.is (fGrpUp site lead) then drainWaiting s2 site lead else sendSys s2 site lead (negoFields s2 site lead)

/-- LANE_UP: training completes. An intake receive lane begins its arrival measurement (R291), a fabric group whose lanes are UP negotiates
(12 R320). -/
def execLaneUp (l : LaneId) (s : State) : Res :=
  let site := l.site.val
  let lane := l.lane.val
  let tx := sideOf s site lane l.tx
  if !laneExists s l then .next s
  else if !isTiming s site lane tx && decide (laneState s site lane tx = 1 ∨ laneState s site lane tx = 3) then
    let s1 := setLaneState s site lane tx 2
    if isPair s site lane then .next (pairUp s1 site lane)
    else if decide (s.tile site = 0) && !tx then
      let n := intakeNumber s site lane
      .next ((s1.setFld (fWayTrained n) 0).setWay n { s1.wayLane n with measuring := true, measured := 0, aMin := 0, aMax := 0 })
    else .next (if tx then widenSenders s1 site lane else s1)
  else .next s

/-- TRAINING_ATTEMPT_FAILED: after three attempts the lane is FAILED (R290). -/
def execTrainingAttemptFailed (l : LaneId) (s : State) : Res :=
  let site := l.site.val
  let lane := l.lane.val
  let tx := sideOf s site lane l.tx
  if !laneExists s l then .next s
  else if !isTiming s site lane tx && decide (laneState s site lane tx = 1 ∨ laneState s site lane tx = 3) then
    let v := s.lane site lane tx
    let s1 := s.setLane site lane tx { v with attempts := v.attempts + 1 }
    if v.attempts + 1 < 3 then .next s1 else .next (laneFailed (setLaneState s1 site lane tx 4) site lane)
  else .next s

/-- MARGIN_MEASUREMENT: the margin of an UP lane; low on three in a row sets LOW_MARGIN, and a loose lane retrains when AUTO_RETRAIN is 1
(R293, R294). -/
def execMarginMeasurement (l : LaneId) (h v : BitVec 6) (s : State) : Res :=
  let site := l.site.val
  let lane := l.lane.val
  if !laneExists s l then .next s
  else if l.tx || decide (laneState s site lane false ≠ 2) then .next s
  else
    let s1 := (((s.setFld (fMarginH site lane) h.toNat).setFld (fMarginV site lane) v.toNat).lower (fHLow site lane) h.toNat).lower
      (fVLow site lane) v.toNat
    let c := s1.lane site lane false
    let isLow := decide (h.toNat < s.fld (fRetrainH site)) || decide (v.toNat < s.fld (fRetrainV site))
    let count := if isLow then min 3 (c.low + 1) else 0
    let locked := laneLocked s site lane false
    let s2 := s1.setLane site lane false { c with low := count, hurt := c.hurt || (locked && decide (3 ≤ count)) }
    if count < 3 then .next s2
    else
      let s3 := s2.mark (fLowMargin site lane)
      .next (if !locked && s.is (fAutoRetrain site) then retrain s3 site lane false else s3)

/-- LOSS_OF_LOCK: LOS is set; a loose lane retrains, a locked one tries to recover (R294). -/
def execLossOfLock (l : LaneId) (s : State) : Res :=
  let site := l.site.val
  let lane := l.lane.val
  if !laneExists s l then .next s
  else if l.tx || decide (laneState s site lane false ≠ 2) then .next s
  else
    let s1 := breakFrame (s.mark (fLos site lane)) site lane
    if laneLocked s site lane false then .next (s1.setLane site lane false { s1.lane site lane false with lost := true, hurt := true })
    else .next (retrain s1 site lane false)

/-- LOCK_RECOVERED: a locked lane carries traffic again (R294). -/
def execLockRecovered (l : LaneId) (s : State) : Res :=
  if !laneExists s l then .next s
  else .next (s.setLane l.site.val l.lane.val l.tx { s.lane l.site.val l.lane.val l.tx with lost := false })

/-- A request to retrain: refused on a locked lane (R294). The lanes that a re-striping of its group left DARK train with it (R295), and a fabric
group that is FAILED retrains whole, which ends its link reset (12 R312; notes/assumptions/72.md). -/
def requestTrain (s : State) (site lane : Nat) (tx : Bool) : State :=
  let lead := leadOf s site lane
  if laneLocked s site lane tx then s.mark (laneIgnored site lane tx)
  else if isPair s site lane && groupFailed s site lead then (groupLanes s site lead).foldl (fun t j => retrain t site j false) s
  else bringDropped (retrain s site lane tx) site lane

/-- TRAIN (R294). -/
def execTrain (l : LaneId) (s : State) : Res :=
  if s.recovery then .next s
  else if laneExists s l then .next (requestTrain s l.site.val l.lane.val l.tx) else .next s

/-- At DISARM or the run's stop the lanes become loose, and those that were hurt in the run retrain at once (R294). `before` is the state in
which they were locked. -/
def loosenLanes (before s : State) : State :=
  (allLanes before).foldl (fun t p =>
    let v := t.lane p.1 p.2.1 p.2.2
    if v.hurt then retrain (t.setLane p.1 p.2.1 p.2.2 { v with hurt := false, lost := false }) p.1 p.2.1 p.2.2 else t) s

/-! ### Bonding, laser power -/

/-- The lanes of octet o retrain. -/
def retrainOctet (s : State) (site o : Nat) : State :=
  (List.range 8).foldl (fun t i => retrain (retrain t site (8 * o + i) true) site (8 * o + i) false) s

/-- A lead lane of an octet after LNK_BOND has changed it: a FUNC that R284 no longer allows sets CFG_ERR and leaves its group idle, and the
receive lanes of a group that gains or loses the fabric are DARK. -/
def noteLead (old : State) (site : Nat) (s : State) (lane : Nat) : State :=
  if isLead s site lane then
    let s1 := notePair old (s.setLane site lane true { s.lane site lane true with stripe := none }) site lane
    if funcValid s1 site lane then s1 else s1.mark (laneCfgErr site lane true)
  else s

/-- A write of LNK_BOND: ignored whole while any lane of the tile is locked; groups whose width changed retrain (R283, R284, R292). -/
def writeBond (s : State) (site : Nat) (v : Word32) : State :=
  let locked := (tileLanes s site).filter (fun p => laneLocked s site p.1 p.2)
  if locked.isEmpty then
    let mask := maskOf (regSpec s.fuses.variant (siteBase site + 0xE0C)) (fun _ => true)
    let s1 := s.setRaw (siteBase site + 0xE0C) (v &&& mask)
    let octets := (List.range (txLanes s site / 8)).filter (fun o => decide (s1.fld (fBondWidth site o) ≠ s.fld (fBondWidth site o)))
    let touched := (List.range (txLanes s site)).filter (fun j => octets.contains (j / 8) ||
      decide (s1.fld (fBondNrz site (j / 8)) ≠ s.fld (fBondNrz site (j / 8))))
    octets.foldl (fun t o =>
      if s.tile site = 1 then retrainOctet t site o else (List.range 8).foldl (fun x i => retrain x site (8 * o + i) true) t)
      (touched.foldl (noteLead s site) s1)
  else locked.foldl (fun t p => t.mark (laneIgnored site p.1 p.2)) s

/-- LNK_BOND_WRITE (R283, R292). -/
def execLnkBondWrite (site : SiteIx) (v : Word32) (s : State) : Res :=
  if s.recovery then .next s
  else if s.tile site.val = 2 then .next s else .next (writeBond s site.val v)

/-- LASER_POWER_CHANGE: the power of a fibre and its limits; lanes without light report NO_LIGHT and are DARK, and lit ones train (R276,
R290). -/
def execLaserPowerChange (site : SiteIx) (fibre2 : Bool) (power : Option (BitVec 9)) (s : State) : Res :=
  if s.tile site.val ≠ 1 then .next s
  else
    let b := siteBase site.val + 0xE08
    let o := bit fibre2
    let p := match power with
      | some x => x.toNat
      | none => 0
    let s1 := s.setFld ⟨b, 16 * o, 9⟩ p
    let s2 := if p < 160 then s1.mark ⟨b, 25 + o, 1⟩ else s1
    let s3 := if 200 < p then s2.mark ⟨b, 27 + o, 1⟩ else s2
    .next ((List.range 16).foldl (fun t i =>
      let j := 16 * o + i
      let t1 := t.setFld (fTxNoLight site.val j) (bit power.isNone)
      if power.isNone then noteGroup (setLaneState t1 site.val j true 0) site.val j else startLane t1 site.val j true) s3)

/-! ### Blocks on a lane (R279) -/

/-- The lane has sent IDLE blocks since its last frame, as many as time has let it: its scrambler holds a free value (notes/assumptions/72.md). -/
def afterIdle (s : State) (site lane : Nat) : State :=
  s.drawn.setLane site lane true { s.lane site lane true with scrambler := Config.freeValue 58 s.freeNext }

/-- Blocks leave a transmit lane, scrambled (R279). -/
def sendBlocks (s : State) (site lane : Nat) (lines : List Line) : State :=
  let v := s.lane site lane true
  let p := codeBlocks v.scrambler lines
  (s.setLane site lane true { v with scrambler := p.1 }).send (.coded site lane p.2)

/-- What each lane of a group sends of a frame, as blocks of its own (R279, R286). -/
def scrambleGroup (s : State) (g : Nat × Nat × List (List (Option Line))) : State :=
  let lanes := frameLanes s g.1 g.2.1
  (lanes.zip (List.range lanes.length)).foldl (fun t p =>
    let lines := g.2.2.filterMap (fun slot => (slot[p.2]?).join)
    if lines.isEmpty then t else sendBlocks (afterIdle t g.1 p.1) g.1 p.1 lines) s

/-! ### Beat egress (R289) -/

/-- The unit of edge link k at a site. -/
def edgeUnit (site k : Nat) : Nat :=
  let d := dieOf site
  let x := 16 * (d % 4)
  let y := 16 * (d / 4)
  match site / 4 with
  | 0 => unitAt (x + k) y
  | 1 => unitAt (x + 15) (y + k)
  | 2 => unitAt (x + k) (y + 15)
  | _ => unitAt x (y + k)

/-- The beats of the frame that begins, or goes on, at the head of the egress queue, and whether they end it. -/
def frameBeats (open_ : Bool) (l : List Beat) : List Beat × Bool :=
  match l with
  | [] => ([], false)
  | b :: r =>
    if b.last then ([b], true)
    else if open_ || b.first then
      let p := frameBeats true r
      (b :: p.1, p.2)
    else ([b], true)

/-- The beats that leave unit g by port o come, through pass-throughs, from a queue that is injected there and that a write port of an unconfigured or
configuring block feeds (07 R167, R177, 08 R208). -/
def fedUnready (s : State) : Nat → Nat → Nat → Bool
  | 0, _, _ => false
  | fuel + 1, g, o =>
    (passInputs s g o).any (fun p => match injector s g p, neighbour g p with
      | some q, _ => decide (s.fld (fLogState (g / 8)) ≠ 2) &&
          (List.range 4).any (fun j => decide (writeTarget s (g / 8) j = some (.bank (Fin.ofNat 512 (g / 8)) (Fin.ofNat 16 q))))
      | none, some h => fedUnready s fuel h ((p + 2) % 4)
      | none, none => false)

/-- BEAT_FRAME_SEND: a BEAT lane that is UP sends the beats of a row from its egress queue as the blocks of a frame; with LOOP they return to the
inward link (R289). A row that has not ended stays open for the next send. A lane that a block fed sends idle characters until the block is
configured (08 R208). -/
def execBeatFrameSend (site : SiteIx) (lane : Fin 32) (s : State) : Res :=
  if txLanes s site.val ≤ lane.val then .next s
  else if funcOf s site.val lane.val = 2 ∧ laneState s site.val lane.val true = 2 then
    let v := s.lane site.val lane.val true
    let p := frameBeats v.inRow.isSome v.egress
    let k := s.fld (fTxLink site.val lane.val)
    let g := edgeUnit site.val k
    if p.1.isEmpty || fedUnready s 128 g (site.val / 4) then .next s
    else
      let lines := beatLines v.inRow p.1 p.2
      let s0 := (s.setLane site.val lane.val true { v with
          egress := v.egress.drop p.1.length, inRow := if p.2 then none else some (v.inRow.getD [] ++ p.1) }).send
        (.beats site.val lane.val lines)
      let s1 := sendBlocks (if v.inRow.isNone then afterIdle s0 site.val lane.val else s0) site.val lane.val lines
      let s2 := if p.2 then s1.bump (fTxFrames site.val lane.val) else s1
      let looped := (p.1.zip (List.range p.1.length)).map (fun e => ⟨g, site.val / 4, s.clock.now + 1 + e.2, e.1, epochOf s g, false⟩)
      .next (if s.is (fTxLoop site.val lane.val) then { s2 with links := s2.links ++ looped } else s2)
  else .next s

/-- ARRIVAL_MEASUREMENT_END: 65,000 frames or more set TRAINED and the arrivals, fewer set ARR_FAIL (R291). -/
def execArrivalMeasurementEnd (n : IntakeLane) (s : State) : Res :=
  match intakeLane s n.val with
  | none => .next s
  | some (site, lane) =>
    let w := s.wayLane n.val
    if w.measuring && decide (s.fld fState = 7) && !s.armed then
      let s1 := s.setWay n.val { w with measuring := false }
      let s2 := if w.measured = 0 then s1 else (s1.setFld (fWayAMax n.val) w.aMax).setFld (fWayAMin n.val) w.aMin
      if 65000 ≤ w.measured then .next (s2.mark (fWayTrained n.val))
      else .next ((s2.setFld (fWayTrained n.val) 0).mark (fArrFail site lane))
    else .next s

end Sys2Proof.Machine
end

