-- ==== Sys2Proof/Machine/Waystation.lean ====
section
/-!
DEFINITION. Machine/Waystation.lean: intake frames and their release (02_crossing_time.md R53 to R61; 11_optical_tiles.md R279 to R282).
-/
namespace Sys2Proof.Machine

def fWayLast (n : Nat) : Fld := ⟨wayBase n + 4, 0, 13⟩
def fWayLow (n : Nat) : Fld := ⟨wayBase n + 4, 16, 13⟩
def fWayLate (n : Nat) : Fld := ⟨wayBase n + 8, 0, 16⟩
def fWayMisnum (n : Nat) : Fld := ⟨wayBase n + 8, 16, 16⟩
def fWayOverrun (n : Nat) : Fld := ⟨wayBase n + 0xC, 0, 1⟩
def fWayInMap (n : Nat) : Fld := ⟨wayBase n + 0xC, 1, 1⟩
def fWayMaxOcc (n : Nat) : Fld := ⟨wayBase n + 0xC, 8, 7⟩

/-- F and W of the image (R55). -/
def frameBeatsF (s : State) : Nat :=
  match s.image with
  | some im => im.f
  | none => 0
def releaseOffset (s : State) : Nat :=
  match s.image with
  | some im => im.w
  | none => 0

/-- The lane's entry of the lane map. -/
def bindOf (s : State) (n : Nat) : Option LaneBind := (lanesOf s).find? (fun b => decide (b.lane = n))

/-- s of R57, the crossing of a pending RUN_START; of several the earliest (the model's choice, notes/assumptions/29.md). -/
def pendingStart (s : State) : Option Nat :=
  (s.pendTable.filter (fun e => decide (e.code = .runStart))).foldl (fun b e => match b with
    | none => some e.x
    | some x => some (min x e.x)) none

/-- The next crossing that the lane has yet to release, r of R57: before a run, the crossing of a pending RUN_START. -/
def nextRelease (s : State) (next : Nat) : Option Nat :=
  if s.run.started then some next else if s.armed then pendingStart s else none

/-- R57: how the device takes a frame whose crossing number lies δ after r. `held` says that a frame of that crossing is held. -/
def judge (started : Bool) (δ t : Nat) (held : Bool) (x : Nat) : FrameClass :=
  if δ ≤ 7 && !held then .accept x
  else if !started then .ignored
  else if 8 ≤ δ && t ≤ δ + 64 then .late
  else .misnumbered

/-- R57 and R58 for a frame of crossing number f on lane n. -/
def classify (s : State) (n f : Nat) : FrameClass :=
  let w := s.wayLane n
  match nextRelease s w.next, bindOf s n with
  | some r, some _ =>
    let t := s.fld fTurnLen
    let d := (f + t - s.numOf r % t) % t
    let c := judge s.run.started d t (w.held.any (fun h => decide (h.xseq = r + d))) (r + d)
    match c with
    | .accept x => if 64 < (w.held.length + 1) * frameBeatsF s then .overrun else .accept x
    | other => other
  | _, _ => .ignored

/-- A frame begins to arrive and is classified (R57, R58). -/
def beginFrame (s : State) (n num seq bytesM1 : Nat) : State :=
  let c := classify s n num
  let s1 := s.setWay n { s.wayLane n with incoming := some ⟨num, seq, bytesM1, c⟩ }
  match c with
  | .misnumbered => s1.bump (fWayMisnum n)
  | .overrun => s1.mark (fWayOverrun n)
  | _ => s1

/-- The lane receives frames now (R290, R294); below LOCKED frames are discarded and nothing is counted (15 R387). -/
def takesFrames (s : State) (site lane : Nat) : Bool :=
  decide (laneState s site lane false = 2) && !(s.lane site lane false).lost && s.runs

/-- INTAKE_FRAME_START: a frame's start as the lane's coding gives it (11 R279 to R281). A start inside a frame breaks that frame, as does what is
no start; a start whose number, sequence or length does not follow is FRAME_ERR. -/
def execIntakeFrameStart (n : IntakeLane) (head : Line) (number rest : List Line) (s : State) : Res :=
  match intakeLane s n.val with
  | none => .next s
  | some (site, lane) =>
    if !takesFrames s site lane then .next s
    else match startFields (s.is (fRxCoding site lane)) (head :: (number ++ rest)) with
      | some (num, seq, bytesM1) => .next (beginFrame (breakFrame s site lane) n.val num seq bytesM1)
      | none =>
        let s1 := breakFrame s site lane
        .next (if beginsFrame head then s1.bump (fFrameErr site lane) else s1)

/-- The beats of a present frame (11 R282): payload bytes in order, zero beyond, with the tag and row flags of R55. -/
def frameRow (payload : List Byte) (f tag : Nat) : List Beat :=
  (List.range f).map (fun j =>
    { mant := BitVec.ofNat 192 (leNat (slice payload (24 * j) 24)), exp := 0, tag := BitVec.ofNat 6 tag, bad := false, late := false
      first := decide (j = 0), last := decide (j + 1 = f) })

/-- A clean frame's arrival is measured while the lane's measurement runs (11 R291). -/
def measureArrival (w : WayLane) (on : Bool) (a : Nat) : WayLane :=
  if on && w.measuring then
    { w with
      measured := w.measured + 1
      aMin := if w.measured = 0 then a else min w.aMin a
      aMax := if w.measured = 0 then a else max w.aMax a }
  else w

/-- A frame with a good CRC and format: its sequence is compared, its arrival measured, and an accepted one becomes present (11 R281, R282, 02
R54). -/
def endFrame (s : State) (site lane n : Nat) (i : Incoming) (payload : List Byte) (a : Nat) : State :=
  let f := frameBeatsF s
  let gap := match (s.wayLane n).lastSeq with
    | some q => decide (i.seq ≠ (q + 1) % 256)
    | none => false
  let s1 := if gap then s.bump (fSeqGap site lane) else s
  let v := measureArrival { s1.wayLane n with lastSeq := some i.seq } (decide (s.fld fState = 7) && !s.armed) a
  match i.cls with
  | .accept x =>
    let held := v.held ++ [⟨x, i.num, frameRow payload f (s.numOf x % 64), a⟩]
    (s1.setWay n { v with held := held }).raise (fWayMaxOcc n) (held.length * f)
  | _ => s1.setWay n v

/-- INTAKE_FRAME_ARRIVAL: what followed the frame's start is checked for format, length and CRC (11 R279 to R282). Below LOCKED the frame is
discarded and nothing is counted (15 R387). -/
def execIntakeFrameArrival (n : IntakeLane) (data sum : List Line) (close : Line) (a : Nat) (s : State) : Res :=
  match intakeLane s n.val with
  | none => .next s
  | some (site, lane) =>
    let w := s.wayLane n.val
    match w.incoming with
    | none => .next s
    | some i =>
      let s1 := s.setWay n.val { w with incoming := none }
      if !takesFrames s site lane then .next s1
      else match frameOf (s.is (fRxCoding site lane)) i.bytesM1 (data ++ (sum ++ [close])) with
        | none => .next (s1.bump (fFrameErr site lane))
        | some (payload, crc) =>
          if decide (0 < frameBeatsF s) && decide (24 * frameBeatsF s < payload.length) then .next (s1.bump (fFrameErr site lane))
          else if crc32 payload ≠ crc then .next (s1.bump (fCrcErr site lane))
          else .next (endFrame s1 site lane n.val i payload a)

/-- Zero beats with a mark in place of a crossing that is absent (R56, 12 R305). -/
def absentRow (f tag : Nat) (late : Bool) : List Beat :=
  (List.range f).map (fun j =>
    { mant := 0, exp := 0, tag := BitVec.ofNat 6 tag, bad := !late, late := late, first := decide (j = 0), last := decide (j + 1 = f) })

/-- Beats enter a queue on consecutive cycles from t (R55). -/
def releaseInto (s : State) (q : QueueId) (t : Nat) (row : List Beat) : State :=
  ((List.range row.length).zip row).foldl (fun x p => sendArrival (spendCredit x q) (qCluster q) q (t + p.1) 5 p.2) s

/-- A frame of a crossing already released is late, should it still be arriving (R56). -/
def outdate (w : WayLane) (x : Nat) : WayLane :=
  match w.incoming with
  | some i => if i.cls = .accept x then { w with incoming := some { i with cls := .late } } else w
  | none => w

/-- The margin of a released frame (R54, R61). -/
def noteMargin (s : State) (n m : Nat) : State := (s.setFld (fWayLast n) m).lower (fWayLow n) m

/-- One lane releases the crossing x at cycle t (R55, R56, R61). A frame whose last beat is written at cycle c + W itself, with margin 0, counts
as present there (the model's choice, notes/assumptions/29.md). -/
def releaseLane (x t : Nat) (s : State) (b : LaneBind) : State :=
  let w := s.wayLane b.lane
  let f := frameBeatsF s
  let q : QueueId := .bank (Fin.ofNat 512 b.cluster) (Fin.ofNat 16 b.queue)
  match w.held.find? (fun h => decide (h.xseq = x) && decide (h.arrival ≤ releaseOffset s)) with
  | some h =>
    let s1 := releaseInto s q t h.beats
    noteMargin (s1.setWay b.lane { outdate w x with
      held := w.held.filter (fun g => decide (g.xseq ≠ x)), leaving := some ⟨t, h⟩, next := x + 1 }) b.lane (releaseOffset s - h.arrival)
  | none =>
    let s1 := releaseInto s q t (absentRow f (s.numOf x % 64) true)
    noteMargin ((s1.setWay b.lane { outdate w x with held := w.held.filter (fun g => decide (g.xseq ≠ x)), next := x + 1 }).bump
      (fWayLate b.lane)) b.lane 0

/-- The crossing that the mapped lanes release next. -/
def wayNext (s : State) : Nat :=
  match lanesOf s with
  | b :: _ => (s.wayLane b.lane).next
  | [] => s.clock.xseq

/-- WAYSTATION_RELEASE: at cycle c + W every mapped lane releases the beats of crossing c, for the crossings of the run (R43, R55). -/
def execWaystationRelease (s : State) : Res :=
  let x := wayNext s
  if s.runs && s.lockedImage && s.inRun x && decide (x ≤ s.clock.xseq) then
    let t := s.openAt x + releaseOffset s
    .next ((lanesOf s).foldl (releaseLane x t) (s.at t))
  else .next s

/-- STAGED_WAYSTATION_RELEASE: a complete frame leaves in crossing order (R61); a HOLD queue takes it when it has credit for its beats. -/
def execStagedWaystationRelease (n : IntakeLane) (s : State) : Res :=
  match intakeLane s n.val with
  | none => .next s
  | some _ =>
    let w := s.wayLane n.val
    match bindOf s n.val, w.held.find? (fun h => decide (h.xseq = w.next)) with
    | some b, some h =>
      let q : QueueId := .bank (Fin.ofNat 512 b.cluster) (Fin.ofNat 16 b.queue)
      let room := !qHold s q || decide (min h.beats.length (qDepth s q) ≤ qCredits s q)
      if s.runs && s.stagedImage && s.inRun w.next && room then
        let s1 := releaseInto (endWait s q s.clock.now) q s.clock.now h.beats
        .next (noteMargin (s1.setWay n.val { w with
          held := w.held.filter (fun g => decide (g.xseq ≠ w.next)), leaving := some ⟨s.clock.now, h⟩, next := w.next + 1 }) n.val
          (releaseOffset s - h.arrival))
      else .next (if s.runs && s.stagedImage && s.inRun w.next then noteWait s q s.clock.now else s)
    | _, _ => .next s

end Sys2Proof.Machine
end

