-- ==== Sys2Proof/Machine/Verdict.lean ====
section
/-!
DEFINITION. Machine/Verdict.lean: contributions, the closing of records, verdicts and spy records (06_function_and_steering.md R158 to R161;
11_optical_tiles.md R285 to R288; 13_host_control.md R347 to R349; 15 R381, R392).
-/
namespace Sys2Proof.Machine

def fVaFeatures (v : Nat) : Fld := ⟨vaBase v, 1, 3⟩
def fVaAccept (v : Nat) : Fld := ⟨vaBase v + 4, 0, 32⟩
def fVaPolicyLo (v : Nat) : Fld := ⟨vaBase v + 8, 0, 32⟩
def fVaPolicyHi (v : Nat) : Fld := ⟨vaBase v + 0xC, 0, 32⟩
def fVaExpectLo (v : Nat) : Fld := ⟨vaBase v + 0x10, 0, 32⟩
def fVaExpectHi (v : Nat) : Fld := ⟨vaBase v + 0x14, 0, 32⟩
def fVaMissing (v : Nat) : Fld := ⟨vaBase v + 0x18, 0, 16⟩
def fVaDup (v : Nat) : Fld := ⟨vaBase v + 0x18, 16, 16⟩
def fVaLastLo (v : Nat) : Fld := ⟨vaBase v + 0x1C, 0, 32⟩
def fVaLastHi (v : Nat) : Fld := ⟨vaBase v + 0x20, 0, 32⟩

/-- Trigger bits 0 to 31 by a test. -/
def bitsWhere (p : Nat → Bool) : Word32 := BitVec.ofNat 32 ((List.range 32).foldl (fun a i => a + (if p i then 2 ^ i else 0)) 0)

/-! ### Contributions (R158, R159) -/

/-- A feature record enters in ascending order of CID. Two of one CID, which a duplicate contribution brings, are both kept, the later one last (the
model's choice, notes/assumptions/62.md). -/
def insertFeature (c : Nat) (b : Beat) : List (Nat × Beat) → List (Nat × Beat)
  | [] => [(c, b)]
  | x :: r => if c < x.1 then (c, b) :: x :: r else x :: insertFeature c b r

/-- A contribution enters a record (R159): of the feature records the lowest CIDs are kept. -/
def addContribution (r : VaRecord) (c : Contribution) (features : Nat) : VaRecord :=
  { bits := r.bits ||| c.bits
    badMask := if c.bad then r.badMask ||| c.mask else r.badMask
    lateMask := if c.late then r.lateMask ||| c.mask else r.lateMask
    cids := r.cids ||| (1#64 <<< c.cid)
    dup := r.dup || r.cids.getLsbD c.cid
    features := match c.feature with
      | some b => (insertFeature c.cid b r.features).take features
      | none => r.features }

/-- A contribution reaches its assembler's record: the earliest crossing of its tag that is still open (R159). -/
def takeContribution (s : State) (c : Contribution) : State :=
  let a := s.va c.va
  if s.is (fVaEnable c.va) then
    let r := mget {} a.records c.tag.toNat
    let s1 := s.setVa c.va { a with records := mset {} a.records c.tag.toNat (addContribution r c (s.fld (fVaFeatures c.va))) }
    if r.cids.getLsbD c.cid then s1.bump (fVaDup c.va) else s1
  else s

/-- The contribution to assembler v that arrives next. -/
def nextContribution (s : State) (v bound : Nat) : Option Contribution :=
  (s.contribs.filter (fun c => decide (c.va = v) && decide (c.due ≤ bound))).foldl (fun b c => match b with
    | none => some c
    | some x => if c.due < x.due then some c else some x) none

/-- Contributions to assembler v that are due by a cycle arrive. -/
def settleContribs (s : State) (v bound : Nat) : Nat → State
  | 0 => s
  | fuel + 1 =>
    match nextContribution s v bound with
    | none => s
    | some c => settleContribs (takeContribution { s with contribs := s.contribs.erase c } c) v bound fuel

/-- A THRESH at work in function unit f: its assembler, the cycle at which its contribution arrives there, and that of its last take. -/
def threshAtWork (s : State) (f : Nat) : Option (Nat × Nat × Nat) :=
  let u := s.fun_ f
  match u.op with
  | some o =>
    if opcode o.w = 0x1C ∧ u.play.wait = .none then
      some (wBdest o.w % 4, o.at_ + latency o.w + o.slip + 24, o.at_ + o.slip + duration o.w)
    else none
  | none => none

/-- The contributions to assembler v that arrive by a cycle have been formed: the takes of their words are made (R146, R158). -/
def formContribs (s : State) (v bound : Nat) : State :=
  s.funs.foldl (fun x e => match threshAtWork x e.1 with
    | some (va, due, last) => if va = v ∧ due ≤ bound then settleFuns x (e.1 / 2) last else x
    | none => x) s

/-! ### Closing (R159, R160) -/

/-- The cycle at which crossing x closes (R159, R63). -/
def closeCycle (s : State) (x : Nat) : Nat :=
  match s.image with
  | some im => s.openAt x + im.l * im.n - im.e
  | none => s.openAt x

/-- The record that a contribution would enter closes in the cycle of its arrival, or should have closed: it belongs to a later crossing (R159). -/
def comesTooLate (s : State) (c : Contribution) : Bool :=
  let x := (s.va c.va).nextClose
  s.lockedImage && s.inRun x && decide (s.numOf x % 64 = c.tag.toNat) && decide (closeCycle s x ≤ c.due)

/-- CONTRIBUTION_ARRIVAL: the next contribution on its way to assembler v arrives (R158, R159). One that comes in the cycle in which the record of its
tag closes waits for that close. -/
def execContributionArrival (v : VaIx) (s : State) : Res :=
  let dues := (s.contribs.filter (fun c => decide (c.va = v.val))).map (·.due) ++
    (s.funs.filterMap (fun e => threshAtWork s e.1)).filterMap (fun x => if x.1 = v.val then some x.2.1 else none)
  match dues with
  | [] => .next s
  | d :: r =>
    let t := r.foldl min d
    let s1 := formContribs s v.val t
    match nextContribution s1 v.val t with
    | none => .next s
    | some c => .next (if comesTooLate s1 c then s1 else takeContribution { s1.at t with contribs := s1.contribs.erase c } c)

def expected (s : State) (v : Nat) : Word64 := BitVec.ofNat 64 (s.fld (fVaExpectLo v) + 2 ^ 32 * s.fld (fVaExpectHi v))

/-- An expected CID has not contributed. -/
def isMissing (s : State) (v : Nat) (r : VaRecord) : Bool := decide (expected s v &&& ~~~r.cids ≠ 0)

/-- What the assembler holds of a record that closes for crossing x (R160): mb is all ones when the record is bad. -/
def closeRecord (s : State) (v x : Nat) (r : VaRecord) : Verdict :=
  { xseq := x, num := s.numOf x, turn := BitVec.ofNat 32 (s.turnOf x), rawBits := r.bits
    mb := if r.dup || isMissing s v r then BitVec.allOnes 32 else r.badMask
    ml := r.lateMask, menu := s.menuAt x, features := r.features }

/-- The record of crossing x closes and is cleared (R160). -/
def closeNow (s : State) (v x : Nat) : State :=
  let a := s.va v
  let r := mget {} a.records (s.numOf x % 64)
  let s1 := s.setVa v { a with records := mset {} a.records (s.numOf x % 64) {}, closed := a.closed ++ [closeRecord s v x r], nextClose := x + 1 }
  if isMissing s v r then s1.bump (fVaMissing v) else s1

/-- RECORD_CLOSE: in locked mode at c + L × N − E; in staged mode once every expected CID has contributed and every earlier verdict has left
(R159, R160). Only crossings of the run close: a contribution with the tag of a crossing before it stays for the crossing 64 later (the
model's choice, notes/assumptions/62.md). -/
def execRecordClose (v : VaIx) (s : State) : Res :=
  let x := (s.va v.val).nextClose
  if s.runs && s.is (fVaEnable v.val) && s.inRun x then
    if s.lockedImage then
      let t := closeCycle s x
      let s0 := formContribs (s.at t) v.val t
      let s1 := closeNow (settleContribs s0 v.val (t - 1) s0.contribs.length) v.val x
      .next (settleContribs s1 v.val t s1.contribs.length)
    else
      let s0 := formContribs s v.val s.clock.now
      let s1 := settleContribs s0 v.val s0.clock.now s0.contribs.length
      let r := mget {} (s1.va v.val).records (s1.numOf x % 64)
      if s1.stagedImage && (s1.va v.val).closed.isEmpty && !isMissing s1 v.val r then .next (closeNow s1 v.val x) else .next s
  else .next s

/-! ### The verdict (R160, R161, 15 R381, R392) -/

def fDegrading (d : Nat) : Fld := ⟨avsBase d, 26, 1⟩

/-- A verdict that leaves now carries degraded (15 R381). -/
def isDegraded (s : State) : Bool :=
  decide (s.fld fState = 8) || decide (s.fld fThermState ≠ 0) || (List.range 16).any (fun d => s.is (fDegrading d))

/-- Policy of trigger bit i (06 R164). -/
def policyOf (lo hi i : Nat) : Nat := if i < 16 then bits lo (2 * i) 2 else bits hi (2 * (i - 16)) 2

/-- The trigger bits after the policy, and whether one was forced (R160). -/
def forceBits (raw marked : Word32) (lo hi : Nat) : Word32 × Bool :=
  (bitsWhere (fun i =>
      let p := policyOf lo hi i
      if marked.getLsbD i then (if p = 1 then true else if p = 2 then false else raw.getLsbD i) else raw.getLsbD i),
   (List.range 32).any (fun i => marked.getLsbD i && decide (policyOf lo hi i = 1 ∨ policyOf lo hi i = 2)))

/-- The verdict word (R161). -/
def verdictWord (bs : Word32) (num : Nat) (accept bad late degraded fallback : Bool) (menu : Nat) : Word64 :=
  BitVec.ofNat 64 (bs.toNat + 2 ^ 32 * (num % 4096) + 2 ^ 44 * bit accept + 2 ^ 45 * bit bad + 2 ^ 46 * bit late + 2 ^ 47 * bit degraded +
    2 ^ 48 * bit fallback + 2 ^ 49 * (menu % 16))

/-- The verdict of assembler v as it leaves now: in the fallback turn every bit counts as marked (R160, 15 R392). -/
def formVerdict (s : State) (v : Nat) (c : Verdict) : Word64 :=
  let marked := if s.thermal.fallback then BitVec.allOnes 32 else c.mb ||| c.ml
  let f := forceBits c.rawBits marked (s.fld (fVaPolicyLo v)) (s.fld (fVaPolicyHi v))
  verdictWord f.1 c.num (decide (f.1 &&& BitVec.ofNat 32 (s.fld (fVaAccept v)) ≠ 0)) (decide (c.mb ≠ 0)) (decide (c.ml ≠ 0)) (isDegraded s)
    f.2 c.menu

/-! ### Spy queues (13 R347 to R349) -/

def fSpyEnable (q : Nat) : Fld := ⟨spyBase q, 0, 1⟩
def fSpyVa (q : Nat) : Fld := ⟨spyBase q, 1, 2⟩
def fSpySel (q : Nat) : Fld := ⟨spyBase q, 3, 2⟩
def fSpyFeat (q : Nat) : Fld := ⟨spyBase q, 5, 1⟩
def fSpyPeriod (q : Nat) : Fld := ⟨spyBase q, 16, 16⟩
def fSpyOverrun (q : Nat) : Fld := ⟨spyBase q + 4, 15, 1⟩
def fSpyOver (q : Nat) : Fld := ⟨spyBase q + 8, 0, 16⟩
def fSpyDiscard (q : Nat) : Fld := ⟨spyBase q + 8, 16, 16⟩
def fSpyMaxOcc (q : Nat) : Fld := ⟨spyBase q + 0xC, 0, 13⟩

def State.spy (s : State) (q : Nat) : Spy := mget {} s.spies q
def State.setSpy (s : State) (q : Nat) (v : Spy) : State := { s with spies := mset {} s.spies q v }

/-- Words held by a spy queue. -/
def spyWords (v : Spy) : Nat := (v.records.map List.length).foldl (· + ·) 0 + v.rest.length

/-- The queue copies this verdict (R347); `count` is the run crossing count of its crossing. -/
def spySelects (sel period count : Nat) (w : Word64) : Bool :=
  match sel with
  | 0 => true
  | 1 => w.getLsbD 44
  | 2 => w.getLsbD 45 || w.getLsbD 46 || w.getLsbD 47 || w.getLsbD 48
  | _ => decide (count % (period + 1) = 0)

/-- A record is written whole, or discarded and counted (R348, R349). -/
def spyWrite (v count : Nat) (turn : Word32) (w : Word64) (features : List (Nat × Beat)) (s : State) (q : Nat) : State :=
  if s.is (fSpyEnable q) && decide (s.fld (fSpyVa q) = v) && spySelects (s.fld (fSpySel q)) (s.fld (fSpyPeriod q)) count w then
    let fs := if s.is (fSpyFeat q) then features else []
    let record := BitVec.ofNat 64 (turn.toNat + 2 ^ 32 * v + 2 ^ 34 * fs.length) :: w :: fs.flatMap featureWords
    let p := s.spy q
    if spyWords p + record.length ≤ 4096 then
      (s.setSpy q { p with records := p.records ++ [record] }).raise (fSpyMaxOcc q) (spyWords p + record.length)
    else (s.mark (fSpyOverrun q)).bump (fSpyOver q)
  else s

/-- The VERDICT groups that carry assembler v and have a lane UP, by site and lead lane (11 R284). -/
def verdictGroups (s : State) (v : Nat) : List (Nat × Nat) :=
  (List.range 16).flatMap (fun site => ((List.range (txLanes s site)).filter (fun j =>
    decide (funcOf s site j = 1) && decide (s.fld (fTxVa site j) = v) &&
      (groupLanes s site j).any (fun i => decide (laneState s site i true = 2)))).map (fun j => (site, j)))

/-- What a group sends of a frame, slot by slot: the block of each of its lanes that is UP (11 R286, R290). -/
def groupSlots (s : State) (frame : List Line) (g : Nat × Nat) : Nat × Nat × List (List (Option Line)) :=
  (g.1, g.2, (slotsOf (frameLanes s g.1 g.2).length frame).map (fun slot =>
    (slot.zip (frameLanes s g.1 g.2)).map (fun e => if laneState s g.1 e.2 true = 2 then some e.1 else none)))

/-- The run crossing count that crossing x had in its run. -/
def runCountOf (s : State) (x : Nat) : Nat := x - ((s.run.starts.find? (fun a => decide (a ≤ x))).getD s.run.start)

/-- The verdict leaves: on its groups, into the last-verdict registers and the spy queues (11 R285, R286, 06 R161, 13 R348). -/
def launchVerdict (s : State) (v : Nat) (c : Verdict) : State :=
  let w := formVerdict s v c
  let gs := verdictGroups s v
  let a := s.va v
  let s1 := (s.setVa v { a with closed := a.closed.drop 1 }).send
    (.verdict v w c.features (gs.map (groupSlots s (verdictFrame v w c.features))))
  let s2 := gs.foldl (fun t g => scrambleGroup (t.bump (fTxFrames g.1 g.2)) (groupSlots s (verdictFrame v w c.features) g)) s1
  let s3 := (s2.setFld (fVaLastLo v) (w.toNat % 2 ^ 32)).latch (vaBase v + 0x1C) (BitVec.ofNat 32 (w.toNat / 2 ^ 32))
  (List.range 8).foldl (spyWrite v (runCountOf s c.xseq) c.turn w c.features) s3

/-- The crossing latency L of the image. -/
def latencyL (s : State) : Nat :=
  match s.image with
  | some im => im.l
  | none => 0

/-- VERDICT_LAUNCH: in locked mode at the opening of crossing c + L; in staged mode once complete (11 R286, 06 R160). -/
def execVerdictLaunch (v : VaIx) (s : State) : Res :=
  match (s.va v.val).closed with
  | [] => .next s
  | c :: _ =>
    if s.stagedImage || (s.runs && decide (c.xseq + latencyL s ≤ s.clock.xseq)) then .next (launchVerdict s v.val c) else .next s

end Sys2Proof.Machine
end

