-- ==== Sys2Proof/Machine/RunEnd.lean ====
section
/-!
DEFINITION. Machine/RunEnd.lean: how a run ends: after its last verdict, or at once with its data in flight discarded
(02_crossing_time.md R43, R51, R52; 04 R107; 11 R292, R294; 13 R346).
-/
namespace Sys2Proof.Machine

/-- What was due by a cycle has happened: takes of function units, arrivals, bus rows, bank writes. -/
def landDue (s : State) (t : Nat) : State :=
  let s1 := settleLinks s t (129 * s.links.length)
  let s2 := s1.funs.foldl (fun x e => settleFuns x (e.1 / 2) t) s1
  let s3 := s2.clusters.foldl (fun x e => settleBus (settleCluster x e.1 t) e.1 t) s2
  s3.units.foldl (fun x e => settleUnit x e.1 t) s3

/-- The waits of every agent are counted up to now (04 R109, 05 R128, R129). -/
def chargeWaits (s : State) : State :=
  let s1 := s.units.foldl (fun x e => chargeWait x (.dot (Fin.ofNat 4096 e.1))) s
  s1.funs.foldl (fun x e => chargeWait x (.fn (Fin.ofNat 1024 e.1))) s1

/-- Every unit and function unit stops at once (04 R107, R52): what it wrote before this cycle stands, what it has in flight is gone. -/
def haltAgents (s : State) : State :=
  let s0 := chargeWaits (landDue s (s.clock.now - 1))
  let s1 := s0.units.foldl (fun t e =>
    (t.setFld (fRunning (.dot (Fin.ofNat 4096 e.1))) 0).setUnit e.1 { e.2 with play := {}, flight := [], outLink := [] }) s0
  s1.funs.foldl (fun t e =>
    (t.setFld (fRunning (.fn (Fin.ofNat 1024 e.1))) 0).setFun e.1 { e.2 with
      play := {}
      op := none
      buf := []
      lastRow := {}
      outBusy := [] }) s1

/-- The rows, tokens and beats of the clusters are discarded; a steering map that waited for its row applies. -/
def haltClusters (s : State) : State :=
  s.clusters.foldl (fun t e =>
    let c := t.cluster e.1
    let v := c.steer
    let t1 := t.setCluster e.1 { c with
      bus := []
      arrivals := []
      injected := []
      steer := { v with token := none, jobs := [], splitCount := 0, splitTag := none, slot := 0, packed := 0, waitSince := none } }
    match v.nextMap with
    | some (m0, m1) => takeMap t1 e.1 m0 m1
    | none => t1) s

/-- All data in flight is discarded (R52): links, queues, bus, contributions, records, waystation and locked receive queues
(notes/assumptions/13.md). -/
def discardFlight (s : State) : State :=
  let s1 := haltClusters (haltAgents (noteQueues s (fun _ => true) (s.clock.now + 1)))
  { s1 with
    links := []
    portQ := []
    bankQ := []
    steerQ := []
    contribs := []
    vas := []
    way := mmap {} stopWay s1.way
    txLinks := s1.txLinks.foldl (fun m e => mset {} m e.1 { e.2 with buffer := [] }) []
    ctxs := s1.ctxs.foldl (fun m e => mset {} m e.1 { e.2 with held := [], leaving := none, arriving := [], arrivingClass := none }) [] }

/-- The waystation keeps its canonical form. -/
def tidyWay (s : State) : State := { s with way := s.way.foldl (fun m e => mset {} m e.1 e.2) [] }

/-- At the end of a staged run the units stop where they wait (04 R107, R108). -/
def stopStaged (s : State) : State :=
  if s.stagedImage then
    let s0 := chargeWaits s
    let s1 := s0.units.foldl (fun t e => stopAgent t (.dot (Fin.ofNat 4096 e.1))) s0
    s1.funs.foldl (fun t e => stopAgent t (.fn (Fin.ofNat 1024 e.1))) s1
  else s

/-- A DISARM that waits for the run to stop is done: the crossing of the stop, and that a run was started (13 R346). -/
def finishDisarm (s : State) : State :=
  let p := match s.run.stop with
    | some x => s.numOf x
    | none => s.fld fCurrent
  { s with rings := mmap {} (fun v => match v.cur with
      | some c => if c.phase = .waitStop then { v with cur := some { c with phase := .done 0 (BitVec.ofNat 64 (p + 4096)) } } else v
      | none => v) s.rings }

/-- The run is over: not started, not armed; its lanes become loose, and a RUN_STOP that a DISARM has pending is withdrawn (13 R346). -/
def endRun (s : State) : State :=
  let s0 := stopStaged (finishDisarm s)
  let s1 := { s0.setFld fArmed 0 with
    run := { s0.run with started := false, forced := none, restart := false, step0Stop := none }
    stage := { s0.stage with running := false, sysWait := false }
    pendTable := s0.pendTable.filter (fun e => e.disarm.isNone) }
  loosenLanes s0 s1

/-- A run stops as R52 gives: no final verdicts, and the count of the run is kept. -/
def stopAtOnce (s : State) : State :=
  let s1 := tidyWay (discardFlight s)
  endRun { s1 with run := { s1.run with stop := none } }

/-! ### A failed relock (R51, R52) -/

/-- A relock failed: the started run is to stop at the next crossing start, with its data in flight; where no run is started, what is in flight
is discarded and locking resumes from SEARCH at once (R52). -/
def failLock (why : ForcedStop) (f : Fld) (s : State) : State :=
  let s1 := s.mark f
  if s1.run.started then { s1 with run := { s1.run with forced := some why, forcedAt := s1.clock.xseq } }
  else toSearch (tidyWay (discardFlight s1))

/-- HOLDOVER_RETURN: after 16 good commas the phase (hundredths of a cycle) and the number are compared (R51, R52). -/
def execHoldoverReturn (phase : Int) (num : BitVec 12) (s : State) : Res :=
  if s.fld fState = 8 && decide (16 ≤ s.clock.goodCommas) && s.run.forced.isNone then
    if decide (phase.natAbs ≤ 25) && decide (num.toNat = s.fld fCurrent) then
      let s1 := enterStep s 7
      .next { s1 with clock := { s1.clock with badCommas := 0, goodCommas := 0 } }
    else .next (failLock .relockFail fRelockFail s)
  else .next s

/-- HOLDOVER_EXPIRED: HOLDOVER has lasted 4,096 crossings (R52). -/
def execHoldoverExpired (s : State) : Res :=
  if s.fld fState = 8 && decide (s.clock.holdStart + 4096 ≤ s.clock.xseq) && s.run.forced.isNone then
    .next (failLock .holdoverExpired fHoldExpired s)
  else .next s

/-- FORCED_RUN_STOP: at the next crossing start after a failed relock or an expired holdover (R52). Locking resumes from SEARCH. -/
def execForcedRunStop (s : State) : Res :=
  if s.run.forced.isSome && decide (s.run.forcedAt < s.clock.xseq) then .next (toSearch (stopAtOnce s)) else .next s

/-- Every verdict of the crossings before p has left. -/
def verdictsSent (s : State) (p : Nat) : Bool :=
  (List.range 4).all (fun v => !s.is (fVaEnable v) || (decide (p ≤ (s.va v).nextClose) && (s.va v).closed.all (fun c => decide (p ≤ c.xseq))))

/-- RUN_STOPPED_LAST_VERDICT: after the last verdict of a stopping run the run is stopped (R43). -/
def execRunStoppedLastVerdict (s : State) : Res :=
  match s.run.stop with
  | some p =>
    if s.run.started && decide (p + latencyL s ≤ s.clock.xseq + 1) && verdictsSent s p then
      .next (endRun (tidyWay { s with way := mmap {} stopWay s.way }))
    else .next s
  | none => .next s

end Sys2Proof.Machine
end

