-- ==== Sys2Proof/Machine/Barrier.lean ====
section
/-!
DEFINITION. Machine/Barrier.lean: the steps of a staged run, barriers, system barriers, the start of a run, and the recovery of a hung region
(10_staged_mode.md R263, R267 to R273; 12 R315, R319; 02 R43, R44; 15 R391).
-/
namespace Sys2Proof.Machine

def fStageTimeout : Fld := ⟨0x200, 1, 1⟩
def fStageMissing : Fld := ⟨0x200, 2, 6⟩
def fStageStep : Fld := ⟨0x200, 8, 10⟩
def fStageCycles : Fld := ⟨0x204, 0, 32⟩
def fStageBarriers : Fld := ⟨0x208, 0, 32⟩
def fTkLead : Fld := ⟨0x2108, 0, 16⟩
def fTkBarrierN : Fld := ⟨0x2108, 16, 11⟩
def fTkNacks : Fld := ⟨0x210C, 0, 16⟩
def fTkBarrierSeq : Fld := ⟨0x210C, 16, 16⟩

/-! ### Opening a step (R263, R268, R269) -/

def stepsOf (s : State) : List StageStep :=
  match s.image with
  | some im => im.steps
  | none => []

def stepAt (s : State) (i : Nat) : StageStep := (stepsOf s).getD i ⟨0, false, false, false, true, 0⟩

/-- The commits that wait for the release take effect (R214, R268). -/
def commitWaiting (s : State) : State :=
  s.regions.foldl (fun t e => if e.2.requestAt.isSome then finishCommit t e.1 else t) s

/-- SWAP: HALF toggles, and bit 8 of every menu base inverts (R263). -/
def swapHalves (s : State) : State := { s.setFld fHalf (1 - s.fld fHalf) with baseSwap := !s.baseSwap }

/-- The address of one side advances by the bytes of the previous arming in the crossing (R268). -/
def advanceSide (s : State) (r i : Nat) (dst : Bool) : State :=
  let a := descBase r i + (if dst then 8 else 0)
  let k := s.fld ⟨descBase r i + 0x2C, if dst then 6 else 3, 3⟩
  let n := (s.desc r i).armed
  let v := s.fld ⟨a, 0, 32⟩ + 2 ^ 32 * s.fld ⟨a + 4, 0, 16⟩
  let w := match k with
    | 2 => v
    | 6 => v + 4096 * n
    | _ => v + n
  (s.setFld ⟨a, 0, 32⟩ (w % 2 ^ 32)).setFld ⟨a + 4, 0, 16⟩ (w / 2 ^ 32)

/-- One descriptor of the ARM mask is armed (R268). -/
def armStep (s : State) (r i : Nat) : State :=
  let c := (s.raw (descBase r i + 0x2C)).toNat
  let s1 := if bits c 11 1 = 1 then advanceSide s r i false else s
  armDesc (if bits c 12 1 = 1 then advanceSide s1 r i true else s1) r i

/-- The ARM mask of a step over the regions that a channel occupies (R268). -/
def armMask (s : State) (m : Word64) : State :=
  ((List.range 64).filter (fun r => !s.idleRegion r)).foldl (fun t r =>
    ((List.range 64).filter (fun i => m.getLsbD i)).foldl (fun x i => armStep x r i) t) s

/-- A crossing's first arming advances by nothing: no descriptor has been armed in it (R268). -/
def forgetArmed (s : State) : State :=
  { s with regions := mmap {} (fun v => { v with descs := mmap {} (fun d => { d with armed := 0 }) v.descs }) s.regions }

/-- When step 0 opens every descriptor's addresses reload from the image (R268). -/
def reloadDescs (s : State) : State :=
  match s.image with
  | none => forgetArmed s
  | some im => im.descInit.foldl (fun t e =>
      [0, 1, 2, 3, 7, 8].foldl (fun x j => x.setRaw (descBase e.1 e.2.1 + 4 * j) (e.2.2.getD j 0)) t) (forgetArmed s)

/-- The menu that SELECT_MENU named in a staged run takes force (04 R108, 13 R343). -/
def takeMenu (s : State) : State :=
  match s.stage.menu with
  | none => s
  | some m => { s with clock := { s.clock with menus := m :: s.clock.menus.drop 1 }, stage := { s.stage with menu := none, inForce := m } }

/-- A step opens at cycle t (R268): commits, SWAP, CACHE_INV and arming, in this order; word 1 of every timetable issues by ANCHOR. -/
def openStep (s : State) (i left t : Nat) : State :=
  let x := stepAt s i
  let s1 := { s.at t with
    stage := { s.stage with
      running := true
      step := i
      left := left
      releasedAt := t
      firstArrival := none
      lastArrival := none
      sysWait := false }
    regions := mmap {} (fun v => { v with arrived := false }) s.regions }
  let s2 := commitWaiting ((if i = 0 then reloadDescs s1 else s1).setFld fStageStep i)
  let s3 := if x.swap then swapHalves s2 else s2
  let s4 := if x.cacheInv then (List.range 64).foldl invalidateCache s3 else s3
  armMask (if i = 0 then takeMenu s4 else s4) x.armMask

/-- The step that the next release opens, with the runs it then has left (R269). -/
def nextStep (s : State) : Nat × Nat :=
  let st := s.stage
  if 0 < st.left then (st.step, st.left - 1)
  else
    let n := if (stepAt s st.step).last then 0 else st.step + 1
    (n, (stepAt s n).rpt)

/-- The barrier is released at cycle t: the next step opens, or a run that DISARM stops ends at the opening of step 0 (R268, R269, 13 R346). -/
def releaseBarrier (s : State) (t : Nat) : State :=
  let n := nextStep s
  let s1 := s.bump fStageBarriers
  if decide (n.1 = 0) && decide (s.stage.left = 0) && s.run.step0Stop.isSome then
    endRun (tidyWay { s1.at t with way := mmap {} stopWay s1.way })
  else openStep s1 n.1 n.2 t

/-! ### The start of a run (02 R43, R44) -/

/-- RUN_START_EFFECT: on an armed package with no run started the run starts, and a staged run opens its first step (02 R43, R269); with a
RUN_STOP just taken at the same crossing it restarts (R44); otherwise it is ignored and counted (R43, R44). -/
def execRunStartEffect (s : State) : Res :=
  match dueCmd s .runStart with
  | none => .next s
  | some _ =>
    let s1 := dropCmd s .runStart
    if s1.armed && s1.run.restart then .next (beginRun s1)
    else if s1.armed && !s1.run.started then
      let s2 := armLanes (beginRun s1)
      .next (if s2.stagedImage then openStep s2 0 (stepAt s2 0).rpt s2.clock.xstart else s2)
    else .next (s1.bump fCmdErr)

/-! ### Leaves (R267) -/

/-- What a region's leaf waits for: an enabled agent that is not at SYNC, a descriptor at work (R267, R273). -/
def waitsUnits (s : State) (r : Nat) : Bool := !regionAtSync s r
def waitsDescs (s : State) (r : Nat) : Bool := (s.region r).descs.any (fun e => e.2.running.isSome || e.2.queued.isSome)

/-- The leaf has arrived; that of an idle region always has (R267). -/
def leafIn (s : State) (r : Nat) : Bool := s.idleRegion r || (s.region r).arrived
def allIn (s : State) : Bool := (List.range 64).all (leafIn s)

/-- A SYS flit on the groups of DOWN (12 R315). -/
def sendDown (s : State) (fields : Nat) : State :=
  if s.is fDownEn then
    let m := s.fld fDownMc
    ((mcMembers s m).filter (fun i => !s.is (fMemLocal m i))).foldl (fun t i => sendSys t (t.fld (fMemSite m i)) (t.fld (fMemLead m i)) fields) s
  else s

/-- A SYS flit toward the timekeeper (12 R315). -/
def sendUp (s : State) (fields : Nat) : State := if s.is fUpEn then sendSys s (s.fld fUpSite) (s.fld fUpLead) fields else s

/-- In squall a release of a staged run is later by the cycles that passed from the release before to the arrival of the last leaf (15 R391). -/
def squallDelay (s : State) : Nat :=
  match s.stage.lastArrival with
  | some a => if squallLimits s then a - s.stage.releasedAt else 0
  | none => 0

/-- The timekeeper has released the package's system barrier: a SYSTEM step, or one of BARRIER_TEST (12 R319, 13 R346). -/
def releaseSystem (s : State) (seq : Nat) : State :=
  if s.stage.sysWait && decide (s.stage.barrierSeq % 65536 = seq) then
    let s1 := { s with stage := { s.stage with barrierSeq := s.stage.barrierSeq + 1, sysWait := false } }
    if s1.stage.running then releaseBarrier s1 (s1.clock.now + squallDelay s1) else s1.bump fStageBarriers
  else s

/-- The timekeeper counts an arrival; at BARRIER_N distinct senders it sends RELEASE down and releases its own barrier (12 R319). A sequence
number stays known for the next 64, so that a second ARRIVE is ignored. -/
def countArrival (s : State) (sender : Nat) (seq : BitVec 16) : State :=
  let old := ((s.sys.arrivals.find? (fun e => decide (e.1 = seq))).map (·.2)).getD []
  let need := max 1 (s.fld fTkBarrierN)
  if old.contains sender || decide (need ≤ old.length) then s
  else
    let new := old ++ [sender]
    let s1 := { s with sys := { s.sys with
      arrivals := ((seq, new) :: s.sys.arrivals.filter (fun e => decide (e.1 ≠ seq))).take 64 } }
    if new.length < need then s1
    else
      releaseSystem (sendDown (s1.setFld fTkBarrierSeq seq.toNat) (sysFields 0x06 [(8, seq.toNat)])) seq.toNat

/-- All 64 leaves have arrived at a SYSTEM step: ARRIVE goes to the timekeeper (12 R319). -/
def arriveSystem (s : State) : State :=
  let seq := s.stage.barrierSeq % 65536
  let s1 := { s with stage := { s.stage with sysWait := true } }
  if s.is fTkActive then countArrival s1 (s.fld fPkgNum) (BitVec.ofNat 16 seq)
  else sendUp s1 (sysFields 0x05 [(16, s.fld fPkgNum), (26, seq)])

/-- LEAF_ARRIVE (R267, 12 R319). -/
def execLeafArrive (r : RegionIx) (s : State) : Res :=
  if s.runs && s.stage.running && !leafIn s r.val && !waitsUnits s r.val && !waitsDescs s r.val then
    let s1 := s.setRegion r.val { s.region r.val with arrived := true }
    let s2 := { s1 with stage := { s1.stage with firstArrival := some (s1.stage.firstArrival.getD s.clock.now) } }
    if allIn s2 then
      let s3 := { s2 with stage := { s2.stage with lastArrival := some s.clock.now } }
      .next (if (stepAt s3 s3.stage.step).system then arriveSystem s3 else s3)
    else .next s2
  else .next s

/-- BARRIER_RELEASE: 40 cycles after the last leaf arrived; in squall later by the time that passed from the release before to the last arrival
(R267, R268, 15 R391). A SYSTEM step is released by its timekeeper instead. -/
def execBarrierRelease (s : State) : Res :=
  match s.stage.lastArrival with
  | none => .next s
  | some a =>
    if !(s.runs && s.stage.running && allIn s) || (stepAt s s.stage.step).system then .next s
    else .next (releaseBarrier s (a + 40 + squallDelay s))

/-- BARRIER_TIMEOUT: PKG_STAGE_TIMEOUT cycles after the first leaf arrived the barrier has not released (R270). -/
def execBarrierTimeout (s : State) : Res :=
  match s.stage.firstArrival with
  | none => .next s
  | some a =>
    let n := s.fld fStageCycles
    if !s.stage.running || decide (n = 0) then .next s
    else
      let s1 := (s.at (a + n)).mark fStageTimeout
      .next (match (List.range 64).find? (fun r => !leafIn s r) with
        | some r => s1.setFld fStageMissing r
        | none => s1)

/-! ### Recovery (R272) -/

/-- A named unit stops: its banks are cleared with the bad flag set, its port queues purged, and it waits at SYNC (R272). -/
def recoverUnit (s0 : State) (g : Nat) : State :=
  let s := chargeWait s0 (.dot (Fin.ofNat 4096 g))
  let u := s.unit g
  let s1 := s.setUnit g { u with
    play := ⟨0, s.clock.now, .sync⟩
    gb := List.replicate 4 { bad := true }
    mb := List.replicate 16 { bad := true }
    flight := [] }
  [Port.north, .east, .south, .west].foldl (fun t p => purgeQueue t (.port (Fin.ofNat 4096 g) p)) s1

/-- GO: the named units and the descriptors they own are recovered (R272, R273). -/
def recoverRegion (s : State) (r : Nat) (v : Word32) : State :=
  let units := (List.range 8).filter (fun i => v.getLsbD i)
  let c := bits v.toNat 8 3
  let arb : ArbId := .cache (Fin.ofNat 64 r)
  let s1 := preemptArb (abandonMiss ((s.setFld ⟨regionBase r + 0x1304, 0, 8⟩ (bits v.toNat 0 8)).setFld ⟨regionBase r + 0x1304, 8, 3⟩ c) r) arb
  let owned := (s1.region r).descs.filter (fun e => match e.2.running with
    | some x => decide (snapOwner x / 8 = c) && units.contains (snapOwner x % 8)
    | none => false)
  let s2 := owned.foldl (fun t e => abortDesc t r e.1) s1
  let s3 := units.foldl (fun t u => withdrawRequest t arb (.unit (Fin.ofNat 64 (8 * c + u)))) s2
  let s4 := units.foldl (fun t u => recoverUnit t (64 * r + 8 * c + u)) s3
  endTransaction s4 arb

/-- GO (R272). -/
def execRecoverGo (r : RegionIx) (v : Word32) (s : State) : Res := .next (if s.recovery then s else recoverRegion s r.val v)

end Sys2Proof.Machine
end

