-- ==== Sys2Proof/Machine/Ecdsa.lean ====
section
/-!
DEFINITION. Machine/Ecdsa.lean: ECDSA over P-256 with SHA-256, which the spec names by standard (14_boot_and_trust.md R363, R364: "the
ECDSA of FIPS 186-5"; R375: "the per-signature value k is derived as RFC 6979 gives"). The curve's constants and the two algorithms are
those of the named standards (PRESUMED, notes/assumptions/4.md).
-/
namespace Sys2Proof.Machine

/-- The prime of the field of P-256. -/
def ecPrime : Nat := 0xFFFFFFFF00000001000000000000000000000000FFFFFFFFFFFFFFFFFFFFFFFF

/-- The order of the group of P-256. -/
def ecOrder : Nat := 0xFFFFFFFF00000000FFFFFFFFFFFFFFFFBCE6FAADA7179E84F3B9CAC2FC632551

/-- The constant b of the curve y² = x³ - 3x + b. -/
def ecB : Nat := 0x5AC635D8AA3A93E7B3EBBD55769886BC651D06B0CC53B0F63BCE3C3E27D2604B

/-- The generator of P-256. -/
def ecGenerator : Nat × Nat :=
  (0x6B17D1F2E12C4247F8BCE6E563A440F277037D812DEB33A0F4A13945D898C296, 0x4FE342E2FE1A7F9B8EE7EB4A7C0F9E162BCE33576B315ECECBB6406837BF51F5)

/-- A point (X, Y, Z) stands for (X / Z², Y / Z³); Z = 0 is the point at infinity. -/
abbrev EcPoint : Type := Nat × Nat × Nat

def ecInfinity : EcPoint := (1, 1, 0)

/-- Difference of two residues. -/
def subMod (m a b : Nat) : Nat := (a + m - b % m) % m

/-- Twice a point. -/
def ecDouble (a : EcPoint) : EcPoint :=
  let (x, y, z) := a
  let m := 3 * subMod ecPrime x (z * z) * (x + z * z) % ecPrime
  let q := 4 * x * (y * y) % ecPrime
  let x3 := subMod ecPrime (m * m) (2 * q)
  (x3, subMod ecPrime (m * subMod ecPrime q x3) (8 * (y * y * (y * y))), 2 * y * z % ecPrime)

/-- The sum of two points. -/
def ecAdd (a b : EcPoint) : EcPoint :=
  let (x1, y1, z1) := a
  let (x2, y2, z2) := b
  if z1 = 0 then b
  else if z2 = 0 then a
  else
    let u1 := x1 * (z2 * z2) % ecPrime
    let s1 := y1 * (z2 * z2 * z2) % ecPrime
    let h := subMod ecPrime (x2 * (z1 * z1)) u1
    let r := subMod ecPrime (y2 * (z1 * z1 * z1)) s1
    if h = 0 then (if r = 0 then ecDouble a else ecInfinity)
    else
      let hh := h * h % ecPrime
      let x3 := subMod ecPrime (r * r) (hh * h + 2 * u1 * hh)
      (x3, subMod ecPrime (r * subMod ecPrime (u1 * hh) x3) (s1 * hh * h), h * z1 * z2 % ecPrime)

/-- k times a point, k below 2^256. -/
def ecMul (k : Nat) (a : EcPoint) : EcPoint :=
  (List.range 256).foldl (fun acc i => if k.testBit (255 - i) then ecAdd (ecDouble acc) a else ecDouble acc) ecInfinity

/-- x to the power e modulo m, e below 2^256. -/
def powMod (m x e : Nat) : Nat :=
  (List.range 256).foldl (fun acc i => if e.testBit (255 - i) then acc * acc % m * x % m else acc * acc % m) (1 % m)

/-- The inverse modulo a prime. -/
def invMod (m x : Nat) : Nat := powMod m x (m - 2)

/-- The x coordinate of a point that is not at infinity. -/
def ecX (a : EcPoint) : Nat := a.1 * invMod ecPrime (a.2.2 * a.2.2) % ecPrime

/-- A big-endian number. -/
def beNat (l : List Byte) : Nat := leNat l.reverse

/-- The big-endian bytes of a number. -/
def beBytes (n v : Nat) : List Byte := (leBytes n v).reverse

/-- A public key is a point of the curve, X then Y (R363). -/
def ecOnCurve (x y : Nat) : Bool :=
  decide (x < ecPrime) && decide (y < ecPrime) && decide (y * y % ecPrime = (x * x * x + 3 * (ecPrime - x) + ecB) % ecPrime)

/-- Does a signature (r then s, each 32 bytes big-endian) over a digest verify with a key (X then Y, each 32 bytes big-endian)? -/
def ecdsaVerify (key digest signature : List Byte) : Bool :=
  let x := beNat (key.take 32)
  let y := beNat (key.drop 32)
  let r := beNat (signature.take 32)
  let s := beNat (signature.drop 32)
  if key.length = 64 ∧ signature.length = 64 ∧ ecOnCurve x y = true ∧ 1 ≤ r ∧ r < ecOrder ∧ 1 ≤ s ∧ s < ecOrder then
    let w := invMod ecOrder s
    let p := ecAdd (ecMul (beNat digest * w % ecOrder) (ecGenerator.1, ecGenerator.2, 1)) (ecMul (r * w % ecOrder) (x, y, 1))
    decide (p.2.2 ≠ 0) && decide (ecX p % ecOrder = r)
  else false

/-- HMAC with SHA-256, for keys of at most 64 bytes. -/
def hmac (key msg : List Byte) : List Byte :=
  let k := key ++ List.replicate (64 - key.length) 0#8
  sha256 (k.map (· ^^^ 0x5C#8) ++ sha256 (k.map (· ^^^ 0x36#8) ++ msg))

/-- The signature that the per-signature value k gives: r and s, none where FIPS 186-5 asks for another k. -/
def ecdsaWith (d e k : Nat) : Option (Nat × Nat) :=
  if 1 ≤ k ∧ k < ecOrder then
    let r := ecX (ecMul k (ecGenerator.1, ecGenerator.2, 1)) % ecOrder
    let s := invMod ecOrder k * (e + r * d) % ecOrder
    if r = 0 ∨ s = 0 then none else some (r, s)
  else none

/-- RFC 6979, 3.2 step h: candidates for k until one serves, at most fuel of them. -/
def rfcSearch (d e : Nat) : Nat → List Byte → List Byte → Option (Nat × Nat)
  | 0, _, _ => none
  | fuel + 1, key, v =>
    let v1 := hmac key v
    match ecdsaWith d e (beNat v1) with
    | some g => some g
    | none =>
      let key2 := hmac key (v1 ++ [0#8])
      rfcSearch d e fuel key2 (hmac key2 v1)

/-- RFC 6979, 3.2 steps b to h, with HMAC of SHA-256. -/
def rfcSignature (d : Nat) (digest : List Byte) (fuel : Nat) : Option (Nat × Nat) :=
  let seed := beBytes 32 d ++ beBytes 32 (beNat digest % ecOrder)
  let v0 := List.replicate 32 1#8
  let k1 := hmac (List.replicate 32 0#8) (v0 ++ [0#8] ++ seed)
  let v1 := hmac k1 v0
  let k2 := hmac k1 (v1 ++ [1#8] ++ seed)
  rfcSearch d (beNat digest % ecOrder) fuel k2 (hmac k2 v1)

/-- The signature over a digest with a private key: r then s, each 32 bytes big-endian (14_boot_and_trust.md R375). After 64 candidates
for k in a row that do not serve the value is free (notes/assumptions/4.md). -/
def ecdsaSign (privateKey : Nat) (digest : List Byte) : List Byte :=
  match rfcSignature privateKey digest 64 with
  | some (r, s) => beBytes 32 r ++ beBytes 32 s
  | none => Config.ecdsaLate privateKey digest

end Sys2Proof.Machine
end

