-- ==== Sys2Proof/Machine/Thermal.lean ====
section
/-!
DEFINITION. Machine/Thermal.lean: temperatures, squall and trip, adaptive voltage, scrubbing and fenced units
(15_faults_and_self_management.md R382 to R397).
-/
namespace Sys2Proof.Machine

/-! ### Temperatures (R390 to R393) -/

def fSquallSeen : Fld := ⟨0x10000, 2, 1⟩
def fEmergency : Fld := ⟨0x10000, 4, 1⟩
def fHotRegion : Fld := ⟨0x10000, 16, 6⟩
def fHottest : Fld := ⟨0x10004, 0, 11⟩
def fMaxSeen : Fld := ⟨0x10004, 16, 11⟩
def fSqualls : Fld := ⟨0x10008, 0, 16⟩
def fSquallMs : Fld := ⟨0x10008, 16, 16⟩
def fTemp (r : Nat) : Fld := ⟨regionBase r + 0x1400, 0, 11⟩

/-- The hottest of the latest readings, and its region, the lowest of several (notes/assumptions/14.md). -/
def hottest (l : List Int) : Int × Nat :=
  (l.zip (List.range l.length)).foldl (fun b e => if b.1 < e.1 then e else b) (l.headD 0, 0)

/-- The package stops at once, or at the end of the fallback turn (R392). -/
def tripNow (s : State) : State :=
  { s with thermal := { s.thermal with stopNow := true, fallbackNext := false, fallback := false } }

/-- TRIP by emergency: 120.0 °C or more (R390, R392). -/
def emergencyTrip (s : State) : State := tripNow (((s.setFld fThermState 2).mark fTripped).mark fEmergency)

/-- TRIP by confirmation: the fallback turn is to begin, unless no locked run is started or T is 0 (R392). -/
def confirmedTrip (s : State) : State :=
  let s1 := (s.setFld fThermState 2).mark fTripped
  let s2 := { s1 with thermal := { s1.thermal with tripConfirmed := true, second := [] } }
  if s.run.started && s.lockedImage && decide (s.fld fTurnLen ≠ 0) then
    { s2 with thermal := { s2.thermal with fallbackNext := true } }
  else tripNow s2

/-- NORMAL and SQUALL at a conversion (R390). -/
def squallStep (s : State) (hot : Int) : State :=
  if s.fld fThermState = 0 then
    if 392 ≤ hot then
      let s1 := ((s.setFld fThermState 1).mark fSquallSeen).bump fSqualls
      { s1 with thermal := { s1.thermal with below := 0 } }
    else s
  else if s.fld fThermState = 1 then
    let n := if hot < 380 then s.thermal.below + 1 else 0
    if 100 ≤ n then { s.setFld fThermState 0 with thermal := { s.thermal with below := 0 } }
    else { s with thermal := { s.thermal with below := n } }
  else s

/-- New readings: the hottest one, and the state that follows from it (R390). -/
def takeReadings (s : State) (latest : List Int) : State :=
  let h := hottest latest
  let s1 := { (s.setFld fHottest (low 11 h.1)).setFld fHotRegion h.2 with thermal := { s.thermal with latest := latest } }
  let s2 := if s.thermal.maxFresh || decide (sext 11 (s.fld fMaxSeen) < h.1) then
      { s1.setFld fMaxSeen (low 11 h.1) with thermal := { s1.thermal with maxFresh := false } }
    else s1
  withAlert s (if 480 ≤ h.1 then emergencyTrip s2 else squallStep s2 h.1)

/-- A regular conversion counts toward the milliseconds in squall: 100 conversions of 10 µs (R395). -/
def squallTime (s : State) : State :=
  if s.fld fThermState = 1 then
    if s.thermal.squallTenths + 1 = 100 then { s.bump fSquallMs with thermal := { s.thermal with squallTenths := 0 } }
    else { s with thermal := { s.thermal with squallTenths := s.thermal.squallTenths + 1 } }
  else s

/-- TEMPERATURE_CONVERSION: every sensor converts; those at 110.0 °C or more are to convert again (R390). -/
def execTemperatureConversion (temps : List Int) (s : State) : Res :=
  let l := (List.range 64).map (fun r => temps.getD r 0)
  let s1 := (List.range 64).foldl (fun t r => t.setFld (fTemp r) (low 11 (l.getD r 0))) s
  let s2 := takeReadings (squallTime s1) l
  if s2.fld fThermState = 2 then .next s2
  else .next { s2 with thermal := { s2.thermal with second := (List.range 64).filter (fun r => decide (440 ≤ l.getD r 0)) } }

/-- SECOND_CONVERSION: the sensor converts again; 110.0 °C or more confirms TRIP (R390). -/
def execSecondConversion (r : RegionIx) (temp : Int) (s : State) : Res :=
  if s.thermal.second.contains r.val then
    let s1 := { s.setFld (fTemp r.val) (low 11 temp) with thermal := { s.thermal with second := s.thermal.second.erase r.val } }
    let s2 := takeReadings s1 (s1.thermal.latest.set r.val temp)
    if decide (440 ≤ temp) && decide (s2.fld fThermState ≠ 2) then .next (withAlert s (confirmedTrip s2)) else .next s2
  else .next s

/-- TRIP_STOP: at the crossing start after the fallback turn, or at once, the run stops, the array clock stops, the core regulators of every
die but die 0 are off, and THERMTRIP_N is low (R392). Where the count of crossings has been lost in the turn, no crossing start counts it down, and
the command itself says that it has ended (R393; notes/assumptions/74.md). -/
def execTripStop (s : State) : Res :=
  if s.thermal.stopNow || (s.thermal.fallback && decide (s.fld fTurnLeft = 0)) || ((s.thermal.fallback || s.thermal.fallbackNext) && !s.runs) then
    let s1 := holdVoltage (stopAtOnce s)
    .next { s1.setFld fTurnLeft 0 with
      clock := { s1.clock with stopped := true }
      thermal := { s1.thermal with stopNow := false, fallback := false, fallbackNext := false, stopped := true, coresOff := true }
      pins := { s1.pins with thermtripLow := true } }
  else .next s

/-! ### Adaptive voltage (R388, R389) -/

def fMv (d : Nat) : Fld := ⟨avsBase d, 0, 10⟩
def fSlack (d : Nat) : Fld := ⟨avsBase d, 16, 8⟩
def fAtCeiling (d : Nat) : Fld := ⟨avsBase d, 24, 1⟩
def fLimit (d : Nat) : Fld := ⟨avsBase d, 25, 1⟩
def fAvsSteps (d : Nat) : Fld := ⟨avsBase d + 4, 0, 16⟩
def fLimits (d : Nat) : Fld := ⟨avsBase d + 4, 16, 16⟩

def State.avsOf (s : State) (d : Nat) : Avs := mget {} s.avs d
def State.setAvs (s : State) (d : Nat) (v : Avs) : State := { s with avs := mset {} s.avs d v }

/-- The voltage moves to `mv`: one step, which has to settle. -/
def stepVoltage (s : State) (d mv : Nat) : State :=
  if mv = s.fld (fMv d) then s
  else (((s.setFld (fMv d) mv).setFld (fAtCeiling d) (bit (decide (mv = s.fuses.vmax)))).bump (fAvsSteps d)).setAvs d
    { s.avsOf d with settling := true, high := 0 }

/-- The voltage limit condition at a reading of slack `x` ps (R389). -/
def limitStep (s : State) (d : Nat) (x : Int) : State :=
  let v := s.avsOf d
  let n := if s.fld (fMv d) = s.fuses.vmax ∧ x < 20 then v.lowAtMax + 1 else 0
  if s.is (fDegrading d) then
    let g := if 20 ≤ x then v.good + 1 else 0
    if 100 ≤ g then (s.setFld (fDegrading d) 0).setAvs d { v with good := 0, lowAtMax := 0 }
    else s.setAvs d { v with good := g }
  else if 10 ≤ n then (((s.mark (fLimit d)).mark (fDegrading d)).bump (fLimits d)).setAvs d { v with lowAtMax := 0, good := 0 }
  else s.setAvs d { v with lowAtMax := n }

/-- AVS_READING: the worst slack steps the voltage by 5 mV within its range (R388). -/
def execAvsReading (d : DieIx) (slack : BitVec 8) (s : State) : Res :=
  if !s.runs || (s.avsOf d.val).settling || decide (s.fld fThermState = 2) then .next s
  else
    let x := slack.toInt
    let s1 := limitStep (s.setFld (fSlack d.val) slack.toNat) d.val x
    let mv := s.fld (fMv d.val)
    let n := if 40 < x then (s.avsOf d.val).high + 1 else 0
    let s2 := s1.setAvs d.val { s1.avsOf d.val with high := n }
    if x < 20 then .next (stepVoltage s2 d.val (min (mv + 5) (max mv s.fuses.vmax)))
    else if 100 ≤ n then .next (stepVoltage (s2.setAvs d.val { s2.avsOf d.val with high := 0 }) d.val (max (mv - 5) (min mv s.fuses.vmin)))
    else .next s2

/-- AVS_STEP_SETTLED (R388). -/
def execAvsStepSettled (d : DieIx) (s : State) : Res := .next (s.setAvs d.val { s.avsOf d.val with settling := false })

/-! ### Scrubbing (R382 to R385) -/

def fScrubNow (r : Nat) : Fld := ⟨regionBase r + 0x1404, 0, 1⟩
def fScrubEn (r : Nat) : Fld := ⟨regionBase r + 0x1404, 1, 1⟩
def fCfgUe (r c : Nat) : Fld := ⟨regionBase r + 0x1404, 8 + c, 1⟩
def fPasses (r : Nat) : Fld := ⟨regionBase r + 0x1404, 16, 16⟩
def fScrubCe (r : Nat) : Fld := ⟨regionBase r + 0x1408, 0, 16⟩
def fScrubUe (r : Nat) : Fld := ⟨regionBase r + 0x1408, 16, 16⟩

/-- The record of the first uncorrectable word (R396). -/
def recordUe (s : State) (r kind c agent word : Nat) : State :=
  let a := regionBase r + 0x140C
  let s1 := s.bump (fScrubUe r)
  if s1.is ⟨a, 31, 1⟩ then s1
  else ((((s1.setFld ⟨a, 0, 3⟩ kind).setFld ⟨a, 3, 3⟩ c).setFld ⟨a, 6, 4⟩ agent).setFld ⟨a, 10, 18⟩ word).mark ⟨a, 31, 1⟩

/-- What a scrubber makes of word i of a store: the store, and whether it was corrected or found uncorrectable (R383). -/
def scrubWord (m : Store) (i : Nat) : Store × Bool × Bool :=
  match m.check i with
  | none => (m, false, false)
  | some .correctable => (m.put i (m.word i), true, false)
  | some .uncorrectable => (m, false, true)

/-- The memory of a unit that word `p` of its pass lies in: kind and word (R382). -/
def unitPlace (p : Nat) : Nat × Nat :=
  if p < 16384 then (0, p) else if p < 17408 then (1, p - 16384) else if p < 17664 then (2, p - 17408) else (3, p - 17664)

def unitStore (u : DotUnit) (kind : Nat) : Store :=
  match kind with
  | 0 => u.weight
  | 1 => u.scale
  | 2 => u.zp
  | _ => u.tt

def setUnitStore (u : DotUnit) (kind : Nat) (m : Store) : DotUnit :=
  match kind with
  | 0 => { u with weight := m }
  | 1 => { u with scale := m }
  | 2 => { u with zp := m }
  | _ => { u with tt := m }

/-- NOW reads 1 until every pass that it started has ended (R385). -/
def noteNow (s : State) (r : Nat) : State :=
  let v := s.region r
  if s.is (fScrubNow r) && v.nowUnits.isEmpty && !v.nowRegion then s.setFld (fScrubNow r) 0 else s

/-- UNIT_SCRUB_READ: a unit scrubber reads its next word (R382, R383). -/
def execUnitScrubRead (u : UnitIx) (s : State) : Res :=
  let g := u.val
  let r := g / 64
  if !s.is (fScrubEn r) && !(s.region r).nowUnits.contains (g % 64) then .next s
  else
    let v := s.unit g
    let p := unitPlace v.scrubPos
    let x := scrubWord (unitStore v p.1) p.2
    let last := decide (v.scrubPos + 1 = 18176)
    let s1 := s.setUnit g { setUnitStore v p.1 x.1 with scrubPos := if last then 0 else v.scrubPos + 1 }
    let s2 := if x.2.1 then s1.bump (fScrubCe r) else if x.2.2 then recordUe s1 r p.1 (g / 8 % 8) (g % 8) p.2 else s1
    .next (if last then
        noteNow (s2.setRegion r { s2.region r with nowUnits := (s2.region r).nowUnits.filter (fun i => decide (i ≠ g % 64)) }) r
      else s2)

/-- The memory that word `p` of a region's pass lies in: kind, cluster, function unit and word (R382). -/
def regionPlace (p : Nat) : Nat × Nat × Nat × Nat :=
  if p < 1048576 then (5, p / 131072, 0, p % 131072)
  else if p < 1052672 then
    let q := p - 1048576
    (4, q / 512, q / 256 % 2, q % 256)
  else
    let q := p - 1052672
    (6, q / 24576, 0, q % 24576)

/-- REGION_SCRUB_READ: the region scrubber reads its next word; an uncorrectable configuration word marks its block, which has
acted on an upset one up to now (R382 to R384). -/
def execRegionScrubRead (rx : RegionIx) (s0 : State) : Res :=
  let r := rx.val
  let v := s0.region r
  if !s0.is (fScrubEn r) && !v.nowRegion then .next s0
  else
    let p := regionPlace v.scrubPos
    let k := 8 * r + p.2.1
    let s := if p.1 = 6 then playLogic s0 k s0.clock.now else s0
    let c := s.cluster k
    let w := p.2.2.2
    let x := match p.1 with
      | 5 => scrubWord c.store w
      | 4 => scrubWord (s.fun_ (2 * k + p.2.2.1)).tt w
      | _ => if w < 12288 then scrubWord c.logic.cells w else scrubWord c.logic.routing (w - 12288)
    let s1 := match p.1 with
      | 5 => s.setCluster k { c with store := x.1 }
      | 4 => s.setFun (2 * k + p.2.2.1) { s.fun_ (2 * k + p.2.2.1) with tt := x.1 }
      | _ => s.setCluster k { c with logic := if w < 12288 then { c.logic with cells := x.1 } else { c.logic with routing := x.1 } }
    let agent := if p.1 = 4 then 8 + p.2.2.1 else 0
    let s2 := if x.2.1 then s1.bump (fScrubCe r)
      else if x.2.2 then
        let t := recordUe s1 r p.1 p.2.1 agent w
        if p.1 = 6 then t.mark (fCfgUe r p.2.1) else t
      else s1
    let last := decide (v.scrubPos + 1 = 1249280)
    let s3 := s2.setRegion r { s2.region r with
      scrubPos := if last then 0 else v.scrubPos + 1
      nowRegion := (s2.region r).nowRegion && !last }
    .next (if last then noteNow (s3.bump (fPasses r)) r else s3)

/-- An immediate pass of the region's scrubber and of its 64 unit scrubbers begins (R385). -/
def startScrub (s : State) (r : Nat) : State :=
  let s1 := (List.range 64).foldl (fun t i => t.setUnit (64 * r + i) { t.unit (64 * r + i) with scrubPos := 0 }) s
  (s1.setRegion r { s1.region r with scrubPos := 0, nowUnits := List.range 64, nowRegion := true }).mark (fScrubNow r)

/-- NOW (R385). -/
def execScrubNowRegion (r : RegionIx) (s : State) : Res := .next (if s.recovery then s else startScrub s r.val)

/-! ### Fenced units (R386) -/

/-- A write of FENCED takes effect at the next crossing start, or at once while the array clock is stopped. -/
def writeFence (s : State) (g : Nat) (f : Bool) : State :=
  if s.runs then { s with fencePend := s.fencePend.filter (fun p => decide (p.1 ≠ g)) ++ [(g, f)] } else s.setFld (fFenced g) (bit f)

/-- FENCED_WRITE (R386). -/
def execFencedWrite (u : UnitIx) (fenced : Bool) (s : State) : Res := .next (if s.recovery then s else writeFence s u.val fenced)

end Sys2Proof.Machine
end

