-- ==== Sys2Proof/Machine/Timekeeper.lean ====
section
/-!
DEFINITION. Machine/Timekeeper.lean: system control, negotiation, echoes, the detach log, and the timers of the loose class
(12_elvaro_fabric.md R306 to R308, R311 to R313, R315 to R321, R327; 13 R337).
-/
namespace Sys2Proof.Machine

/-! ### The timekeeper's claim (R316) -/

/-- The package becomes the timekeeper when its strap and TK_CONFIRM are 1 and it has heard no other claim. -/
def claimTk (s : State) : State :=
  if s.is fTkStrap && s.is fTkConfirm && !s.sys.heardClaim && !s.is fTkActive then (s.mark fTkActive).setFld fTkNum (s.fld fPkgNum) else s

/-- The group leads toward the timekeeper, or away from it (R315). -/
def fromUp (s : State) (site lead : Nat) : Bool := s.is fUpEn && decide (s.fld fUpSite = site) && decide (s.fld fUpLead = lead)
def fromDown (s : State) (site lead : Nat) : Bool :=
  let m := s.fld fDownMc
  s.is fDownEn && (mcMembers s m).any (fun i => !s.is (fMemLocal m i) && decide (s.fld (fMemSite m i) = site) && decide (s.fld (fMemLead m i) = lead))

/-- A SYS flit received from UP goes on to DOWN, and one from DOWN to UP (R315). -/
def passSys (s : State) (site lead fields : Nat) : State :=
  if fromUp s site lead then sendDown s fields else if fromDown s site lead then sendUp s fields else s

/-! ### Received SYS flits (R316 to R321), from their payload fields -/

/-- ANNOUNCE (R316). -/
def takeAnnounce (s : State) (site lead p : Nat) : State :=
  let num := bits p 8 10
  let s1 := passSys s site lead p
  let other := decide (num ≠ s.fld fPkgNum)
  let s2 := if other then { s1 with sys := { s1.sys with heardClaim := true } } else s1
  if s2.is fTkActive then (if other then s2.mark fTkConflict else s2)
  else if s2.is fTkKnown && decide (s2.fld fTkNum ≠ num) then s2.mark fTkConflict
  else (s2.setFld fTkNum num).mark fTkKnown

/-- The pending-table code of a system command (R317). -/
def sysCode (c : Nat) : Option PendCode :=
  match c with
  | 0x01 => some .runStart
  | 0x02 => some .runStop
  | 0x05 => some .menuSelect
  | 0x80 => some .epoch
  | _ => none

/-- SCHED: the command enters the pending table under R40, is passed on, and is acknowledged (R317). -/
def takeSched (s : State) (site lead p : Nat) : State :=
  let ref := BitVec.ofNat 24 (bits p 16 24)
  let a3 := bits p 40 8
  let ok := match sysCode (bits p 8 8) with
    | some c => accepts s c ref a3
    | none => false
  let s1 := passSys s site lead p
  let s2 := match sysCode (bits p 8 8) with
    | some c => schedule s1 c ref a3 false none
    | none => s1.bump fCmdErr
  sendUp s2 (sysFields 0x04 [(8, bit (!ok)), (16, s2.fld fPkgNum), (26, bits p 48 16)])

/-- SCHED_ACK: the timekeeper counts refusals; others pass it on (R317). -/
def takeSchedAck (s : State) (site lead p : Nat) : State :=
  if s.is fTkActive then (if bits p 8 1 = 1 then s.bump fTkNacks else s) else passSys s site lead p

/-- ARRIVE (R319). -/
def takeArrive (s : State) (site lead p : Nat) : State :=
  if s.is fTkActive then countArrival s (bits p 16 10) (BitVec.ofNat 16 (bits p 26 16)) else passSys s site lead p

/-- RELEASE: the package's system barrier is released on receipt (R319). -/
def takeRelease (s : State) (site lead p : Nat) : State :=
  releaseSystem (passSys s site lead p) (bits p 8 16)

/-- A training attempt of the group fails: those of its lanes that train or are UP begin another, or are FAILED after the third (R320, 11 R290). -/
def failAttempt (s : State) (site lead : Nat) : State :=
  (groupLanes s site lead).foldl (fun t j =>
    let v := t.lane site j false
    let st := laneState t site j false
    let t1 := t.setLane site j false { v with attempts := v.attempts + 1 }
    if st = 0 ∨ st = 4 then t
    else if v.attempts + 1 < 3 then setLaneState t1 site j false 1 else laneFailed (setLaneState t1 site j false 4) site j) s

/-- The arrival measurement of a locked context begins (R306, 11 R291). -/
def startMeasure (s : State) (x : Nat) : State :=
  (s.setFld (fCtxTrained x) 0).setCtx x { s.ctx x with measuring := true, measured := 0, aMin := 0, aMax := 0, since := s.clock.xseq }

/-- A group that is UP again measures its hop and the arrivals of its contexts anew (R306). -/
def groupUp (s : State) (site lead : Nat) : State :=
  let s1 := (s.mark (fGrpUp site lead)).setFld (fHopNs site lead) 0
  let s2 := s1.ctxs.foldl (fun t e => if e.2.via = some (site, lead) ∧ t.is (fCtxLocked e.1) then startMeasure t e.1 else t) s1
  sendSys s2 site lead (sysFields 0x09 [(16, (Config.freeValue 32 s.freeNext).toNat)])

/-- NEGO: the agreed generation and capabilities, the peer, and its claim; the group is UP once its lanes are (R316, R320). -/
def takeNego (s : State) (site lead p : Nat) : State :=
  let gen := bits p 8 8
  if gen = 0 then failAttempt s site lead
  else
    let claim := decide (bits p 59 1 = 1) && decide (bits p 60 10 ≠ s.fld fPkgNum)
    let s1 := ((((s.setFld (fGrpGen site lead) (min 1 gen)).setFld (fGrpCap site lead) (bits p 16 5)).setFld (fPeerNum site lead) (bits p 48 10)).setFld
      (fPeerHost site lead) (bits p 58 1))
    let s2 := if claim then { s1 with sys := { s1.sys with heardClaim := true } } else s1
    if !s2.is (fGrpUp site lead) && (groupLanes s2 site lead).any (fun j => decide (laneState s2 site j false = 2)) then
      groupUp s2.drawn site lead
    else s2

/-- RESTRIPE: the group narrows to the peer's width (R313). -/
def takeRestripe (s : State) (site lead p : Nat) : State :=
  let w := bits p 8 2
  if w < s.fld (fGrpWidth site lead) ∧ !laneLocked s site lead false then goOnAt s site lead w else s

/-- ECHO: a request is answered with its timestamp; the first reply since the group is UP gives the hop latency, 88 ns and 5 ns for each metre of
its fibre, whose length the model leaves free (R306; notes/assumptions/3.md). -/
def takeEcho (s : State) (site lead p : Nat) : State :=
  if bits p 8 1 = 0 then sendSys s site lead (sysFields 0x09 [(8, 1), (16, bits p 16 32)])
  else if s.fld (fHopNs site lead) = 0 then
    s.drawn.setFld (fHopNs site lead) (min 4095 (88 + 5 * (Config.freeValue 12 s.freeNext).toNat))
  else s

/-- A SYS flit by its subtype (R321). DETACH only tells the far end. -/
def takeSys (s : State) (site lead p : Nat) : State :=
  match p % 256 with
  | 0x01 => takeNego s site lead p
  | 0x02 => takeAnnounce s site lead p
  | 0x03 => takeSched s site lead p
  | 0x04 => takeSchedAck s site lead p
  | 0x05 => takeArrive s site lead p
  | 0x06 => takeRelease s site lead p
  | 0x08 => takeRestripe s site lead p
  | 0x09 => takeEcho s site lead p
  | _ => s

/-! ### Commands of the timekeeper (R316 to R318) -/

/-- ANNOUNCE_TIMER (R316). -/
def execAnnounceTimer (s : State) : Res :=
  if s.is fTkActive then
    .next (sendDown { s with sys := { s.sys with annSeq := s.sys.annSeq + 1 } }
      (sysFields 0x02 [(8, s.fld fPkgNum), (18, s.sys.annSeq.toNat)]))
  else .next s

/-- TK_KNOWN_TIMEOUT (R316). -/
def execTkKnownTimeout (s : State) : Res := .next (s.setFld fTkKnown 0)

def fTkRef : Fld := ⟨0x2100, 0, 24⟩
def fTkA3 : Fld := ⟨0x2100, 24, 8⟩
def fTkCode : Fld := ⟨0x2104, 0, 8⟩
def fTkErr : Fld := ⟨0x2104, 9, 1⟩

/-- The timekeeper refuses the command: not the timekeeper, no such code, too near or past (R40's half of the turns), or an EPOCH too close to the one before (R317, R318,
R327). -/
def sendRefused (s : State) : Bool :=
  let d := refDistance s (BitVec.ofNat 24 (s.fld fTkRef))
  match s.is fTkActive && s.runs, sysCode (s.fld fTkCode) with
  | true, some c =>
    decide (d < s.fld fTkLead) || decide (2048 * s.fld fTurnLen ≤ d) ||
      (decide (c = .epoch) && (match s.sys.lastEpoch with
        | some e => decide ((((s.clock.xseq + d : Nat) : Int) - (e : Int)).natAbs ≤ 4096)
        | none => false))
  | _, _ => true

/-- A write of SEND (R317). -/
def tkSend (s : State) : State :=
  let ref : BitVec 24 := BitVec.ofNat 24 (s.fld fTkRef)
  if sendRefused s then s.mark fTkErr
  else match sysCode (s.fld fTkCode) with
    | none => s.mark fTkErr
    | some c =>
      let s1 := schedule s c ref (s.fld fTkA3) false none
      let epoch := if c = .epoch then some (s.clock.xseq + refDistance s ref) else s1.sys.lastEpoch
      sendDown { s1 with sys := { s1.sys with cmdSeq := s1.sys.cmdSeq + 1, lastEpoch := epoch } }
        (sysFields 0x03 [(8, s.fld fTkCode), (16, s.fld fTkRef), (40, s.fld fTkA3), (48, s.sys.cmdSeq.toNat)])

/-- SEND (R317). -/
def execTkSend (s : State) : Res := .next (if s.recovery then s else tkSend s)

/-- EPOCH_EFFECT: EPOCH toggles at its crossing, unless a run is started (R318). -/
def execEpochEffect (s : State) : Res :=
  match dueCmd s .epoch with
  | none => .next s
  | some _ =>
    let s1 := dropCmd s .epoch
    .next (if s1.run.started then s1.mark fEpochErr else s1.setFld fSysEpoch (1 - s1.fld fSysEpoch))

/-! ### Detachment (R311, R327) -/

def detachRec (i : Nat) : Nat := 0x2040 + 8 * i

/-- A record enters the detach log, or is discarded when it is full (R327). -/
def logDetach (s : State) (m i : Nat) : State :=
  let n := s.fld fDetachCount
  if 16 ≤ n then s.mark fDetachFull
  else
    let lo := m + 2 ^ 10 * i + 2 ^ 16 * s.fld fCurrent + 2 ^ 31
    ((s.setRaw (detachRec n) (BitVec.ofNat 32 lo)).setRaw (detachRec n + 4) (BitVec.ofNat 32 (s.fld fTurn))).setFld fDetachCount (n + 1)

/-- One member is detached: its far end is told and the log written (R311). -/
def detachMember (m : Nat) (s : State) (i : Nat) : State :=
  let s1 := (logDetach s m i).mark (fDetached m i)
  let s2 := s1.bump (fDetaches m)
  let v := s2.mc m
  let s3 := s2.setMc m { v with lastPassed := v.lastPassed.set i false }
  if s3.is (fMemLocal m i) then s3
  else sendSys s3 (s3.fld (fMemSite m i)) (s3.fld (fMemLead m i)) (sysDetach m i (s3.fld (fMemStream m i)))

/-- The detach log is empty (R327). -/
def clearDetach (s : State) : State :=
  ((List.range 16).foldl (fun t i => (t.setRaw (detachRec i) 0).setRaw (detachRec i + 4) 0) s).setFld fDetachCount 0

/-- CLEAR (R327). -/
def execDetachClear (s : State) : Res := .next (if s.recovery then s else clearDetach s)

/-! ### Timers and acknowledgements of a lane (R307, R308) -/

/-- The lane is a fabric lane that is UP; a locked one whose lock is lost still gets what arrives for codewords (11 R294). -/
def laneListens (s : State) (site lane : Nat) : Bool :=
  decide (lane < txLanes s site) && isPair s site lane && decide (laneState s site lane false = 2)

/-- The lane carries a group's flits now. -/
def laneCarries (s : State) (site lane : Nat) : Bool := laneListens s site lane && !(s.lane site lane false).lost

def State.heldAt (s : State) (site lead : Nat) : List HeldFlit := mget [] s.heldFlits (32 * site + lead)

/-- CREDIT_TIMER: the credits due go back (R307). -/
def execCreditTimer (x : BitVec 14) (s : State) : Res :=
  let c := s.ctx x.toNat
  match c.via with
  | none => .next s
  | some (site, lead) =>
    if c.due = 0 then .next s
    else .next (sendLoose (s.setCtx x.toNat { c with due := 0 }) site lead ⟨false, x, true, true, false, .credit (BitVec.ofNat 16 c.due)⟩)

/-- The last accepted SEQ goes back (R308). -/
def acknowledge (s : State) (site lane : Nat) : State :=
  let r := s.retry site lane
  sendLink (s.setRetry site lane { r with sinceAck := 0 }) site lane (r.expect - 1) false

/-- ACK_TIMER (R308). -/
def execAckTimer (site : SiteIx) (lane : Fin 32) (s : State) : Res :=
  if s.tile site.val ≠ 1 then .next s
  else .next (if laneCarries s site.val lane.val then acknowledge s site.val lane.val else s)

/-- A NAK names the expected SEQ (R308). -/
def sendNak (s : State) (site lane : Nat) : State := sendLink s site lane (s.retry site lane).expect true

/-- How far a lane lies behind flits that it has seen and not accepted. -/
def behind (r : Retry) : Bool := decide (1 ≤ (r.seen - r.expect).toNat) && decide ((r.seen - r.expect).toNat < 128)

/-- The lane has lost its flits up to `far`: those not known before take their places in the group's position order (R308). -/
def noteLost (s : State) (site lane : Nat) (far : BitVec 8) : State :=
  let r := s.retry site lane
  let k := 32 * site + leadOf s site lane
  let first := if behind r then r.seen else r.expect
  let n := (far - first).toNat
  let new : List HeldFlit := (List.range (if n < 128 then n else 0)).map (fun i => ⟨lane, first + BitVec.ofNat 8 i, none⟩)
  { s with heldFlits := mset [] s.heldFlits k (mget [] s.heldFlits k ++ new) }

/-- The lane's flits are discarded from the expected one, and the sender is told (R308). -/
def beginNak (s0 : State) (site lane : Nat) (seen : BitVec 8) : State :=
  let r := s0.retry site lane
  let far := if (r.seen - r.expect).toNat < 128 && decide ((seen - r.expect).toNat < (r.seen - r.expect).toNat) then r.seen else seen
  let s := noteLost s0 site lane far
  if r.nak then s.setRetry site lane { r with seen := far }
  else sendNak (s.setRetry site lane { r with nak := true, seen := seen }) site lane

/-- NAK_REPEAT (R308). -/
def execNakRepeat (site : SiteIx) (lane : Fin 32) (s : State) : Res :=
  if s.tile site.val ≠ 1 then .next s
  else .next (if laneCarries s site.val lane.val && (s.retry site.val lane.val).nak then sendNak s site.val lane.val else s)

/-- The lane resends its unacknowledged flits; 16 resends of one SEQ set RETRY_FAIL and retrain a loose lane (R308). -/
def resendAll (s : State) (site lane : Nat) : State :=
  let s1 := resendFlits s site lane
  if (s1.retry site lane).unacked.any (fun e => decide (16 ≤ e.2.1)) then
    let s2 := s1.mark (fRetryFail site (leadOf s site lane))
    if laneLocked s site lane false then s2 else retrain s2 site lane false
  else s1

/-- RESEND_TIMEOUT (R308). -/
def execResendTimeout (site : SiteIx) (lane : Fin 32) (s : State) : Res :=
  if s.tile site.val ≠ 1 then .next s
  else .next (if laneCarries s site.val lane.val then resendAll s site.val lane.val else s)

/-- A LINK flit: everything before its SEQ is acknowledged, with the named one where it is no NAK; a NAK resends the rest (R308). -/
def takeLink12 (s : State) (site lane : Nat) (ackSeq : BitVec 8) (nak : Bool) : State :=
  let r := s.retry site lane
  let upTo := if nak then ackSeq - 1 else ackSeq
  let s1 := s.setRetry site lane { r with unacked := r.unacked.filter (fun e => decide (128 ≤ (upTo - e.1).toNat)) }
  drainWaiting (if nak then resendAll s1 site lane else s1) site (leadOf s site lane)

/-! ### Codewords (R300, R302, R305) -/

/-- An uncorrectable codeword or a failed locked check: the group's locked contexts release bad beats in place of late ones (R305). -/
def spoilContexts (s : State) (site lead : Nat) : State :=
  { s with ctxs := mmap {} (fun c => if c.via = some (site, lead) then { c with uncorrSeen := true } else c) s.ctxs }

/-- A codeword that cannot be corrected (R300, R305). -/
def spoiled (s : State) (site lane : Nat) : State :=
  let lead := leadOf s site lane
  spoilContexts (s.bump (fUncorr site lead)) site lead

/-- CODEWORD_RECEIVED: corrected up to 7 symbol errors, or 15 in a long one (R300). An uncorrectable one loses the loose flits it held: `past` is
one past the last one's SEQ (R308). -/
def execCodewordReceived (site : SiteIx) (lane : Fin 32) (errors : Nat) (past : Option (BitVec 8)) (s : State) : Res :=
  if s.tile site.val ≠ 1 then .next s
  else if !laneListens s site.val lane.val then .next s
  else
    let lead := leadOf s site.val lane.val
    let r := s.retry site.val lane.val
    let s1 := s.setRetry site.val lane.val { r with codewords := r.codewords + 1 }
    if errors = 0 then .next s1
    else if errors ≤ (if shortCodes s site.val lead then 7 else 15) then .next (s1.bump (fCorrected site.val lead))
    else .next (beginNak (spoiled s1 site.val lane.val) site.val lane.val (past.getD r.expect))

/-! ### Locked windows (R302) -/

def State.window (s : State) (site lead : Nat) : Nat := mget 0 s.windows (32 * site + lead)

/-- The b-th beat with a tag in a transmit buffer. -/
def taggedBeat (l : TxLink) (tag b : Nat) : Option Beat := (l.buffer.filter (fun x => decide (x.tag.toNat = tag)))[b]?

/-- The slots of a calendar by their number (R302). -/
def slotAt (c : Calendar) (i : Nat) : Option CalSlot := c.entries.find? (fun e => decide (e.slot = i))

/-- The slot numbers of a stream in the window, ascending. -/
def slotsOfStream (c : Calendar) (stream : Nat) : List Nat :=
  (List.range c.slots).filter (fun i => match slotAt c i with
    | some e => decide (e.stream = stream)
    | none => false)

/-- The flit of slot i, which names the beat b: FIRST on the first slot of its stream in the window, LAST on the last (R302). -/
def slotFlit (s : State) (c : Calendar) (i stream : Nat) (b : Beat) : Flit :=
  let mine := slotsOfStream c stream
  ⟨true, BitVec.ofNat 14 stream, decide (mine.head? = some i), decide (mine.getLast? = some i), sysEpoch s, .beat b⟩

/-- Slot i of the window that begins in position `start`: its beat, or a zero beat with the late mark, in position `start` + i. A lane that is not
UP, or whose group is not, sends nothing (R302, R320, 11 R276, R290). -/
def sendSlot (c : Calendar) (tag start : Nat) (s : State) (i : Nat) : State :=
  match slotAt c i with
  | none => fillNull s c.site c.lead (ways s c.site c.lead) (start + i) (start + i + 1)
  | some e =>
    let lane := laneAt (ways s c.site c.lead) c.lead (start + i)
    let go (t : State) (b : Beat) : State :=
      if laneState s c.site lane true = 2 ∧ s.is (fGrpUp c.site c.lead) then
        (fillSlot t c.site lane (sentWord 0 (slotFlit s c i e.stream b))).send (.flit c.site lane (start + i) 0 (slotFlit s c i e.stream b))
      else t
    match taggedBeat (s.txLink c.site e.link) tag e.beat with
    | some b => go s b
    | none => go (s.bump (fTxLate c.site e.link)) { zeroBeat with tag := BitVec.ofNat 6 tag, late := true }

/-- A window: S positions from the group's next one on (R302). -/
def sendWindow (s : State) (c : Calendar) (tag : Nat) : State :=
  let start := (s.retry c.site c.lead).pos
  (List.range c.slots).foldl (sendSlot c tag start)
    (s.setRetry c.site c.lead { s.retry c.site c.lead with pos := start + c.slots })

/-- The calendars that name edge link k of a site. -/
def namingCalendars (s : State) (site k : Nat) : List Calendar :=
  match s.image with
  | some im => im.calendars.filter (fun c => decide (c.site = site) && c.entries.any (fun e => decide (e.link = k)))
  | none => []

/-- Beats of a crossing whose windows have all passed leave the buffer: those that a slot named silently, others as stale (R302). -/
def purgeBuffer (site : Nat) (s : State) (k : Nat) : State :=
  let cs := namingCalendars s site k
  let done := cs.foldl (fun m c => min m (s.window site c.lead)) (s.clock.xseq + 1)
  if cs.isEmpty || decide (done = 0) then s
  else
    let l := s.txLink site k
    let tag := s.numOf (done - 1) % 64
    let age (b : Beat) : Nat := (tag + 64 - b.tag.toNat) % 64
    let named (i : Nat) : Bool := cs.any (fun c => c.entries.any (fun e => decide (e.link = k) && decide (e.beat = i)))
    let rank (i : Nat) (b : Beat) : Nat := ((l.buffer.take i).filter (fun x => decide (x.tag = b.tag))).length
    let ix := (List.range l.buffer.length).zip l.buffer
    let stale := ix.filter (fun p => decide (age p.2 < 32) && !(decide (age p.2 = 0) && named (rank p.1 p.2)))
    (s.setTxLink site k { l with buffer := l.buffer.filter (fun b => decide (32 ≤ age b)) }).bump (fTxStale site k) stale.length

/-- LOCKED_WINDOW: the slots of the current crossing's window, while the package holds a locked image and is LOCKED or in HOLDOVER (R302, 15
R387). -/
def execLockedWindow (site : SiteIx) (lead : Fin 32) (s : State) : Res :=
  match calendarOf s site.val lead.val with
  | none => .next s
  | some c =>
    if !(s.runs && s.lockedImage) || decide (s.clock.xseq < s.window site.val lead.val) then .next s
    else
      let s1 := s.at (s.clock.xstart + c.opens)
      let tag := s.fld fCurrent % 64
      let s2 := sendWindow s1 c tag
      let s3 := { s2 with windows := mset 0 s2.windows (32 * site.val + lead.val) (s.clock.xseq + 1) }
      .next ((List.range 16).foldl (purgeBuffer site.val) s3)

/-! ### Link resets (R312) -/

/-- RESET: a link reset of the group; a locked group's configuration keeps (R312, 11 R292). -/
def execLinkReset (site : SiteIx) (lead : Fin 32) (s : State) : Res :=
  if s.recovery then .next s
  else if s.tile site.val ≠ 1 then .next s
  else if laneLocked s site.val lead.val false then .next (s.mark (laneIgnored site.val lead.val true))
  else .next (resetGroup s site.val lead.val)

end Sys2Proof.Machine
end

