-- ==== Sys2Proof/Machine/Live.lean ====
section
/-!
DEFINITION. Machine/Live.lean: the register fields whose value the part computes as they are read: identity and fuses, queue states,
commits that wait, program counters, lanes, streams (00_scope.md R7; 04 R110; 06 R162, R163; 07 R187 to R190; 08 R218; 10 R255, R266, R273;
11 R296; 12 R325, R326; 13 R360, R361; 14 R378; 15 R397).
-/
namespace Sys2Proof.Machine

/-- PKG_PART (00 R7). -/
def pkgPart (s : State) : Nat :=
  0x01 + 2 ^ 8 * (s.fuses.variant % 16) + 2 ^ 12 * (if s.fuses.grade13 then 0xD else 0xC) + 2 ^ 16 * 0x10

/-- The index of the word issuing now (04 R110). -/
def pcOf (s : State) (a : Agent) : Nat := issuing s a s.clock.now

/-- A word of a byte string register bank: bytes 4i to 4i + 3 (14 R378). -/
def bytesWord (l : List Byte) (i : Nat) : Nat := leNat (slice l (4 * i) 4)

/-- The live bits of a port queue or a steering input queue (07 R187, R188). -/
def livePortQueue (s : State) (q : QueueId) (injected : Bool) : Nat :=
  let v := s.queue q
  2 ^ 4 * v.beats.length + 2 ^ 8 * bit v.beats.isEmpty + 2 ^ 9 * bit (decide (8 ≤ v.beats.length)) + 2 ^ 12 * bit v.discarding +
    2 ^ 13 * bit v.pkt + 2 ^ 14 * bit injected + 2 ^ 15 * bit (stagedAt s (qBase q)).isSome

/-- The live bits of a queue-bank queue's QUE_STATUS (07 R190). -/
def liveBankQueue (s : State) (k q : Nat) : Nat :=
  let v := s.queue (bankQ k q)
  v.beats.length + 2 ^ 11 * bit v.beats.isEmpty + 2 ^ 12 * bit (qFull s (bankQ k q)) + 2 ^ 15 * bit v.discarding + 2 ^ 16 * bit v.pkt +
    2 ^ 17 * bit (anyStaged s [bankAddr k q, bankAddr k q + 0x18])

/-- The live bits of a dot unit's register (04 R93, R110, 07 R187, R189). -/
def liveDot (s : State) (g o : Nat) : Nat :=
  let a : Agent := .dot (Fin.ofNat 4096 g)
  if o = 0x04 then 2 ^ 3 * bit (anyStaged s (formatAddrs g)) + 2 ^ 16 * pcOf s a
  else if o = 0x50 then 2 ^ 4 * schedOf s a
  else if o = 0x64 then 2 ^ 12 * bit (stagedAt s (unitBase g + 0x64)).isSome
  else if 0x80 ≤ o ∧ o < 0xC0 ∧ o % 0x10 = 0 then
    livePortQueue s (.port (Fin.ofNat 4096 g) (portOf (o / 0x10))) (injector s g ((o - 0x80) / 0x10)).isSome
  else 0

/-- The live bits of a register of a cluster's block. -/
def liveCluster (s : State) (k o : Nat) : Nat :=
  if o < 0x800 then liveDot s (8 * k + o / 0x100) (o % 0x100)
  else if 0x900 ≤ o ∧ o < 0xA00 then
    let a : Agent := .fn (Fin.ofNat 1024 (2 * k + (o - 0x900) / 0x80))
    if o % 0x80 = 0x04 then 2 ^ 16 * pcOf s a else if o % 0x80 = 0x08 then 2 ^ 4 * schedOf s a else 0
  else if o = 0xA08 then
    let v := s.steer k
    let pend := bit (anyStaged s [steBase k, steBase k + 4] || v.nextMap.isSome)
    match v.token with
    | some b => 1 + 2 * pend + 2 ^ 8 * b.tag.toNat + 2 ^ 16 * tokenValue b
    | none => 2 * pend
  else if 0xA40 ≤ o ∧ o < 0xA80 ∧ o % 0x10 = 0 then livePortQueue s (steerIn k ((o - 0xA40) / 0x10)) false
  else if 0xC00 ≤ o ∧ o < 0xE00 ∧ o % 0x20 = 0x04 then liveBankQueue s k ((o - 0xC00) / 0x20)
  else 0

/-- RGN_SENSE.VOLT: the core voltage at the region, which is what the region's die is regulated to (15 R388, R396; notes/assumptions/66.md). -/
def voltAt (s : State) (r : Nat) : Nat := if s.is fRailsGood then s.fld (fMv (r / 4)) else 0

/-- The live bits of a region's register. -/
def liveRegion (s : State) (r o : Nat) : Nat :=
  if o = 0x1400 then 2 ^ 16 * voltAt s r
  else if o = 0x1300 then bit (leafIn s r) + 2 * bit (waitsUnits s r) + 4 * bit (waitsDescs s r)
  else if o = 0x4110 then 2 ^ 16 * ((s.region r).lines.filter (fun l => decide (l.pins ≠ 0))).length
  else if 0x9200 ≤ o ∧ o < 0x9300 then
    let h := s.hq r ((o - 0x9200) / 0x10)
    if o % 0x10 = 0 then h.length + 2 ^ 5 * bit h.isEmpty + 2 ^ 6 * bit (decide (16 ≤ h.length))
    else if o % 0x10 = 8 then (h.headD 0).toNat else 0
  else 0

/-- The live bits of a tile site's register (11 R296, 12 R326, 07 R191). -/
def liveSite (s : State) (site o : Nat) : Nat :=
  if 0x100 ≤ o ∧ o < 0x700 ∧ o % 0x20 = 0x04 then
    laneState s site ((o - 0x100) / 0x20) false + 2 ^ 3 * bit (laneLocked s site ((o - 0x100) / 0x20) false)
  else if 0x700 ≤ o ∧ o < 0xB00 ∧ o % 0x20 = 0x04 then 2 ^ 3 * bit (laneLocked s site ((o - 0x700) / 0x20) true)
  else if 0xB00 ≤ o ∧ o < 0xD00 ∧ o % 0x10 = 0x04 then
    let lead := (o - 0xB00) / 0x10
    2 ^ 3 * bit (shortCodes s site lead)
  else if 0xD00 ≤ o ∧ o < 0xD80 ∧ o % 8 = 4 then (s.txLink site ((o - 0xD00) / 8)).credit
  else if o = 0xE00 then s.tile site + 2 ^ 8 * ((s.sitesOf (s.tile site)).filter (fun i => decide (i < site))).length
  else 0

/-- The live bits of a register of die d's own blocks. The frequency of a ring oscillator is a free value of its range of 85 to 115 MHz,
measured against REFCLK (08 R202, R218; notes/assumptions/3.md). -/
def liveDie (s : State) (d block o : Nat) : Nat :=
  if block = 0 ∧ o = 0x38000 then
    if s.pins.refclk then
      let x := (Config.freeValue 32 s.freeNext).toNat
      (850 + x % 301) + 2 ^ 16 * (850 + x / 65536 % 301)
    else 0
  else if block = 0 ∧ o = 0x3801C then 2 ^ 4 * bit (fuseAt s (fuseKey s d)).programmed
  else if block = 1 ∧ 0x30000 ≤ o ∧ o < 0x31000 ∧ o % 0x40 = 4 then
    2 ^ 8 * (lackingMembers s (64 * d + (o - 0x30000) / 0x40)).foldl (fun a i => a + 2 ^ i) 0
  else if block = 1 ∧ o = 0x38008 then s.fuses.vmin + 2 ^ 16 * s.fuses.vmax
  else 0

/-- The live bits of a package block's register. -/
def livePackage (s : State) (a : Nat) : Nat :=
  if a = 0 then pkgPart s
  else if a = 0x32004 then s.posted.length
  else if 0x33000 ≤ a ∧ a < 0x33100 ∧ a % 0x20 = 4 then
    let v := s.spy ((a - 0x33000) / 0x20)
    let n := spyWords v
    let open_ := !v.rest.isEmpty
    n + 2 ^ 13 * bit (decide (n = 0)) + 2 ^ 14 * bit (decide (4096 ≤ n)) + 2 ^ 16 * (v.records.length + bit open_) + 2 ^ 28 * bit open_
  else if a = 0x40200 then bit s.fuses.ownerSet
  else if a = 0x40208 then s.fuses.serial.toNat % 2 ^ 32
  else if a = 0x4020C then s.fuses.serial.toNat / 2 ^ 32
  else if 0x40220 ≤ a ∧ a < 0x40240 then bytesWord s.fuses.vendorHash ((a - 0x40220) / 4)
  else if 0x40240 ≤ a ∧ a < 0x40260 then (if s.fuses.ownerSet then bytesWord s.fuses.ownerHash ((a - 0x40240) / 4) else 0)
  else if 0x40300 ≤ a ∧ a < 0x40340 then bytesWord s.fuses.idKey ((a - 0x40300) / 4)
  else 0

/-- The live bits of the register at a steward address. -/
def liveBits (s : State) (a : Nat) : Nat :=
  if a < 0x80000 then livePackage s a
  else if a < 0x90000 then liveSite s ((a - 0x80000) / 0x1000) (a % 0x1000)
  else if 0x1000000 ≤ a ∧ a < 0x2000000 then
    let d := (a - 0x1000000) / 0x100000
    let block := a % 0x100000 / 0x40000
    let o := a % 0x40000
    if o < 0x20000 then liveRegion s (4 * d + block) o
    else if o < 0x30000 then liveCluster s (32 * d + 8 * block + (o - 0x20000) / 0x2000) (o % 0x2000)
    else liveDie s d block o
  else 0

/-- What is due by now in cluster k has happened: bank writes, takes, arrivals, bus rows. -/
def settleHere (s : State) (k : Nat) : State :=
  let t := s.clock.now
  let s0 := (queuesOf s (fun q => decide (qCluster q = k))).foldl (fun x q => chargeQueue x q t) (chargeSteer (playIdles (settleAll s k t) k t) k t)
  let s1 := [Agent.fn (Fin.ofNat 1024 (2 * k)), .fn (Fin.ofNat 1024 (2 * k + 1))].foldl chargeWait s0
  let s2 := (List.range 8).foldl (fun x u =>
    (List.range 4).foldl (fun y p => settlePort y (8 * k + u) p t)
      (chargeWait (settleUnit x (8 * k + u) (t - 1)) (.dot (Fin.ofNat 4096 (8 * k + u))))) s1
  (queuesOf s2 (fun q => decide (qCluster q = k))).foldl (fun x q => noteOver (noteOcc x q (t + 1)) q t) s2

/-- What a read of the register at this address must find done. -/
def settleFor (s : State) (a : Nat) : State :=
  if 0x1000000 ≤ a ∧ a < 0x2000000 then
    let r := regionOf a
    let o := a % 0x40000
    if 0x20000 ≤ o ∧ o < 0x30000 then settleHere s (8 * r + (o - 0x20000) / 0x2000)
    else if o = 0x4110 then chargePins s r
    else if o < 0x2000 then (List.range 8).foldl (fun t c => settleHere t (8 * r + c)) s
    else s
  else s

end Sys2Proof.Machine
end

