-- ==== Sys2Proof/Machine/Frost.lean ====
section
/-!
DEFINITION. Machine/Frost.lean: frost captures, their release, and the shadow's layout (16_observation.md R398 to R407, R411).
-/
namespace Sys2Proof.Machine

def fFrsCycle : Fld := ⟨0x50000, 0, 6⟩
def fFrsArm : Fld := ⟨0x50000, 8, 1⟩
def fHeld : Fld := ⟨0x50004, 0, 1⟩
def fRefused : Fld := ⟨0x50004, 1, 1⟩
def fMissed : Fld := ⟨0x50004, 2, 1⟩
def fFrsErr : Fld := ⟨0x50004, 3, 1⟩
def fRefusedCnt : Fld := ⟨0x50004, 16, 16⟩
def fFrsCrossing : Fld := ⟨0x50008, 0, 12⟩
def fFrsAt : Fld := ⟨0x50008, 16, 6⟩
def fFrsSource : Fld := ⟨0x50008, 24, 3⟩
def fFrsStopped : Fld := ⟨0x50008, 27, 1⟩
def fFrsTurn : Fld := ⟨0x5000C, 0, 32⟩

/-! ### Capturing (R398 to R401) -/

/-- Everything due before cycle t, and what that cycle's opening edge writes, has happened: the state that the capture copies (R399). The beats that
are due at t are in their queues, and those that pass through a port have left it; what the words and takes of cycle t read and write comes after
its edge. -/
def frostState (s : State) (t : Nat) : State :=
  let s0 := s.clusters.foldl (fun x e => settleCluster (playIdles (settleAll x e.1 (t - 1)) e.1 t) e.1 t)
    { s with clock := { s.clock with now := t } }
  let s1 := s0.units.foldl (fun x e => settleUnit x e.1 (t - 1)) s0
  settleLinks s1 t (129 * s1.links.length)

/-- The covered state, without the stores that R403 leaves out; `s` has the frost registers of this capture. -/
def snapshotOf (s f : State) : Snapshot where
  units := f.units.foldl (fun m e => mset {} m e.1 { e.2 with weight := {}, scale := {}, zp := {}, tt := {}, scrubPos := 0, winHi := 0 }) []
  funs := f.funs.foldl (fun m e => mset {} m e.1 { e.2 with tt := {}, winHi := 0 }) []
  clusters := f.clusters.foldl (fun m e => mset {} m e.1 { e.2 with store := {} }) []
  portQ := f.portQ
  bankQ := f.bankQ
  steerQ := f.steerQ
  way := f.way
  ctx := f.ctxs
  vas := f.vas
  regs := s.regs
  baseSwap := s.baseSwap
  clock := f.clock
  stage := f.stage
  image := f.image
  free := s.freeNext

/-- A capture, after the flip-flops that load at its edge (R399), fills the shadow, or is refused while one is held (R401). `src` is FRS_WHERE.SOURCE. -/
def capture (s0 : State) (t src : Nat) (stopped : Bool) : State :=
  let s := if stopped then s0 else playBlocks s0 (fun _ => true) (t + 1)
  if s.is fHeld then (s.mark fRefused).bump fRefusedCnt
  else
    let f := frostState s t
    let w (x : State) := ((x.setFld fFrsSource src).setFld fFrsStopped (bit stopped)).mark fHeld
    let s1 := if stopped then w (((s.setFld fFrsCrossing 0).setFld fFrsAt 0).setFld fFrsTurn (s.fld fTurn))
      else w (((s.setFld fFrsCrossing (s.fld fCurrent)).setFld fFrsAt (t - s.clock.xstart)).setFld fFrsTurn (s.fld fTurn))
    { s1.drawn with frost := some (snapshotOf s1 f) }

/-- The register trigger is no longer set (R411). -/
def disarmFrost (s : State) : State := { s.setFld fFrsArm 0 with frostArmed := none }

/-- FROST_CAPTURE: the edge that a scheduled or a register trigger names arrives; both on one edge make one capture. A scheduled capture whose
crossing falls while the array clock is stopped is discarded and missed (R398 to R401). -/
def execFrostCapture (s : State) : Res :=
  if !s.runs then
    match s.pendTable.find? (fun e => decide (e.code = .frost)) with
    | none => .next s
    | some e => .next ({ s with pendTable := s.pendTable.erase e }.mark fMissed)
  else
    match s.pendTable.find? (fun e => decide (e.code = .frost) && decide (e.x < s.clock.xseq)) with
    | some e => .next ({ s with pendTable := s.pendTable.erase e }.mark fMissed)
    | none =>
      let reg := match s.frostArmed with
        | some p => if p.1 ≤ s.clock.xseq then some p.2 else none
        | none => none
      match dueCmd s .frost, reg with
      | none, none => .next s
      | some e, none => .next (capture ((dropCmd s .frost).at (s.clock.xstart + e.a3)) (s.clock.xstart + e.a3) (if e.host then 2 else 1) false)
      | none, some a => .next (capture ((disarmFrost s).at (s.clock.xstart + a)) (s.clock.xstart + a) 4 false)
      | some e, some a =>
        if a < e.a3 then .next (capture ((disarmFrost s).at (s.clock.xstart + a)) (s.clock.xstart + a) 4 false)
        else
          let src := if e.host then 2 else 1
          let t := s.clock.xstart + e.a3
          if a = e.a3 then .next (capture ((disarmFrost (dropCmd s .frost)).at t) t (src + 4) false)
          else .next (capture ((dropCmd s .frost).at t) t src false)

/-- FRS_CTRL.ARM: the register trigger names the first crossing that starts after the write, or captures at once while the array clock is
stopped; a CYCLE of N or more is ignored (R398, R400). In recovery no capture can take place (R408). -/
def armFrost (s : State) : State :=
  if s.recovery then s
  else if s.n ≤ s.fld fFrsCycle then s.mark fFrsErr
  else if s.runs then { s.mark fFrsArm with frostArmed := some (s.clock.xseq + 1, s.fld fFrsCycle) }
  else capture s s.clock.now 4 true

/-- FRS_ARM (R398, R400). -/
def execFrsArm (s : State) : Res := .next (armFrost s)

/-- A FROST_READ in progress returns zero from the release of its shadow on (R402). -/
def zeroRead (r : Ring) : Ring :=
  match r.cur with
  | some c => match c.phase with
    | .moving moved given held bad =>
      if leNat (c.bytes.take 2) = 0x31 then { r with cur := some { c with phase := .moving moved given (held.map (fun _ => (0, false))) bad } } else r
    | _ => r
  | none => r

/-- FRS_RELEASE: the shadow is free again (R401, R402). -/
def releaseFrost (s : State) : State := { s.setFld fHeld 0 with frost := none, rings := s.rings.map (fun e => (e.1, zeroRead e.2)) }

/-- FRS_RELEASE (R401). -/
def execFrsRelease (s : State) : Res := .next (if s.recovery then s else releaseFrost s)

/-! ### The shadow (R404 to R407) -/

/-- The state whose covered parts are the capture's. -/
def frostView (s : State) (f : Snapshot) : State :=
  { s with units := f.units, funs := f.funs, clusters := f.clusters, portQ := f.portQ, bankQ := f.bankQ, steerQ := f.steerQ,
           way := f.way, ctxs := f.ctx, vas := f.vas, regs := f.regs, baseSwap := f.baseSwap, clock := f.clock, stage := f.stage, image := f.image }

/-- A beat as 208 bits (00_scope.md R12). -/
def wordOfBits (v i : Nat) : Word64 := BitVec.ofNat 64 (v / 2 ^ (64 * i))

def beatWord (b : Beat) (i : Nat) : Word64 := wordOfBits (beatBits b) i

/-- The word of a list of beats, 32 bytes each, that holds byte offset `o`; zero past the list's end. -/
def beatsWord (l : List Beat) (o : Nat) : Word64 :=
  match l[o / 32]? with
  | some b => beatWord b (o % 32 / 8)
  | none => 0

/-- A bank's state word (R405). -/
def bankState {w : Nat} (b : Bank w) : Nat :=
  (b.exp.getD 0).toNat + 2 ^ 6 * bit b.exp.isSome + 2 ^ 7 * bit b.bad + 2 ^ 8 * bit b.late + 2 ^ 9 * b.tag.toNat

/-- The 32-bit word at a byte offset of a unit segment below 0x400 (R405). -/
def unitLow (s : State) (g o : Nat) : Nat :=
  let u := s.unit g
  let a : Agent := .dot (Fin.ofNat 4096 g)
  if o < 0x200 then
    let b := u.gb.getD (o / 128) {}
    let r := o % 128 / 4
    (b.rows.getD r 0).toNat + 2 ^ 28 * b.res.getD r 0
  else if o < 0x210 then bankState (u.gb.getD ((o - 0x200) / 4) {})
  else if o < 0x250 then bankState (u.mb.getD ((o - 0x210) / 4) {})
  else if o = 0x260 then
    pcOf s a + 2 ^ 9 * s.fld (fActive a) + 2 ^ 13 * schedOf s a + 2 ^ 17 * s.fld (fRunning a) + 2 ^ 18 * bit (decide (u.play.wait = .sync))
  else if o = 0x264 then
    match u.play.wait with
    | .hold e => (e - s.clock.now) % 65536
    | _ => 0
  else if 0x280 ≤ o ∧ o < 0x2A0 ∧ o % 8 = 0 then
    let q := s.queue (.port (Fin.ofNat 4096 g) (portOf (o / 8 % 4)))
    q.beats.length + 2 ^ 4 * bit q.discarding + 2 ^ 5 * bit q.pkt
  else 0

/-- The outgoing link register of a port (R404, R405). -/
def outLinkBits (u : DotUnit) (p t : Nat) : Nat :=
  match u.outLink.find? (fun r => decide (r.port = p)) with
  | some r => beatBits r.beat + 2 ^ 208 * bit r.epoch + 2 ^ 209 * bit (decide (r.cycle = t))
  | none => 0

/-- The word at a byte offset of unit g's segment (R405). -/
def unitSegment (s : State) (g o : Nat) : Word64 :=
  let u := s.unit g
  let q (p : Nat) := s.queue (.port (Fin.ofNat 4096 g) (portOf p))
  if o < 0x2A0 then BitVec.ofNat 64 (unitLow s g o + 2 ^ 32 * unitLow s g (o + 4))
  else if o < 0x320 then wordOfBits (outLinkBits u ((o - 0x2A0) / 32) s.clock.now) (o % 32 / 8)
  else if o < 0x400 then 0
  else if o < 0x480 then beatWord (q ((o - 0x400) / 32)).last (o % 32 / 8)
  else if o < 0x800 then 0
  else if o < 0xC00 then beatsWord (q ((o - 0x800) / 256)).beats (o % 256)
  else if o < 0x1000 then 0
  else
    let b := u.mb.getD ((o - 0x1000) / 256) {}
    let r := o % 256 / 8
    BitVec.ofNat 64 ((b.rows.getD r 0).toNat + 2 ^ 48 * b.res.getD r 0)

/-- A sum-bus row as 32 values of 8 bytes and its header (05 R126, R406). -/
def rowWord (r : BusRow) (o : Nat) : Word64 :=
  if o < 256 then BitVec.ofNat 64 (r.vals.getD (o / 8) 0).toNat
  else BitVec.ofNat 64 (r.exp.toNat + 2 ^ 6 * bit r.expValid + 2 ^ 7 * bit r.bad + 2 ^ 8 * bit r.late + 2 ^ 9 * r.tag.toNat + 2 ^ 15 * r.src + 2 ^ 18 * r.dest)

def rowsWord (l : List BusRow) (o : Nat) : Word64 :=
  match l[o / 264]? with
  | some r => rowWord r (o % 264)
  | none => 0

/-- The beat at a position of a cluster's queue bank, where a queue holds one (R406, 07 R177). -/
def bankPosition (s : State) (k i : Nat) : Option Beat :=
  (List.range 16).findSome? (fun q =>
    let v := s.queue (bankQ k q)
    let c := (s.raw (bankAddr k q)).toNat
    let d := max 1 (bits c 16 11)
    let j := (i + d - bits c 0 10 - v.head % d) % d
    if bits c 0 10 ≤ i ∧ i < bits c 0 10 + d then v.beats[j]? else none)

/-- Flip-flop number n of a block: zero on a free tree (R403, R406, 08 R192, R196). -/
def flopBit (s : State) (k n : Nat) : Bool :=
  let v := s.logic k
  let tree := bits (v.cells.acts (n / 2 * 2 + 1)).toNat 5 2
  bits (s.raw (rgnClk (clusterRegion k))).toNat (8 * tree) 2 < 2 && mget false v.flops n

/-- The row in flight on the sum bus: of those whose bus cycle is to come, the one of the nearest (R406). -/
def rowInFlight (c : Cluster) (now : Nat) : Option BusRow :=
  (c.bus.filter (fun r => decide (now ≤ r.due))).foldl (fun best r => match best with
    | some x => if r.due < x.due then some r else best
    | none => some r) none

/-- The word at a byte offset of cluster k's segment (R406). `base` is the segment's offset in the shadow, `free` the capture's counter. -/
def clusterSegment (s : State) (free k o base : Nat) : Word64 :=
  let c := s.cluster k
  if o < 0x8000 then
    match bankPosition s k (o / 32) with
    | some b => beatWord b (o % 32 / 8)
    | none => if o % 32 = 24 then Config.frostWord free ((base + o) / 8) &&& 0xFFFF else Config.frostWord free ((base + o) / 8)
  else if o < 0x8100 then
    let q := (o - 0x8000) / 16
    let v := s.queue (bankQ k q)
    if o % 16 = 0 then
      BitVec.ofNat 64 ((bits (s.raw (bankAddr k q)).toNat 0 10 + v.head) % 1024 + 2 ^ 10 * v.beats.length + 2 ^ 21 * bit v.discarding + 2 ^ 22 * bit v.pkt)
    else 0
  else if o < 0x8200 then 0
  else if o < 0x8400 then beatWord (s.queue (bankQ k ((o - 0x8200) / 32))).last (o % 32 / 8)
  else if o < 0x8800 then beatsWord (s.queue (steerIn k ((o - 0x8400) / 256))).beats (o % 256)
  else if o < 0x8820 then
    match c.steer.token with
    | some b => wordOfBits (beatBits b + 2 ^ 208) (o % 32 / 8)
    | none => beatWord c.steer.lastToken (o % 32 / 8)
  else if o < 0x9000 then 0
  else if o < 0xB000 then
    if o % 0x1000 < 0x800 then rowsWord (s.fun_ (2 * k + (o - 0x9000) / 0x1000)).buf (o % 0x1000)
    else Config.frostWord free ((base + o) / 8)
  else if o < 0xB108 then
    match rowInFlight c s.clock.now with
    | some r => rowWord r (o - 0xB000)
    | none => 0
  else if o < 0xC000 then 0
  else if o < 0xC800 then
    BitVec.ofNat 64 ((List.range 64).foldl (fun a i => a + 2 ^ i * bit (flopBit s k (8 * (o - 0xC000) + i))) 0)
  else if o < 0xC900 then beatWord (c.logic.portRegs.getD ((o - 0xC800) / 32) zeroBeat) (o % 32 / 8)
  else 0

/-- Held frames in the order of their crossings. -/
def insertHeld (h : HeldFrame) : List HeldFrame → List HeldFrame
  | [] => [h]
  | x :: r => if h.xseq < x.xseq then h :: x :: r else x :: insertHeld h r

def heldOrder (l : List HeldFrame) : List HeldFrame := l.foldl (fun m h => insertHeld h m) []

/-- What a frame under release still holds in cycle t: beat j has left from cycle `start` + j on (02 R55). -/
def stillHeld (t : Nat) (v : Option Leaving) : List HeldFrame :=
  match v with
  | some l =>
    let rest := l.frame.beats.drop (t + 1 - l.start)
    if rest.isEmpty then [] else [{ l.frame with beats := rest }]
  | none => []
def heldBeats (l : List HeldFrame) : List Beat := (heldOrder l).flatMap (·.beats)

/-- The state word of a waystation lane or a locked receive queue: beats present, and the head frame's crossing number (R407). -/
def heldState (l : List HeldFrame) : Nat :=
  (heldBeats l).length + 2 ^ 7 * (((heldOrder l).head?).map (·.num)).getD 0

/-- What waystation lane n holds. -/
def laneHeld (s : State) (n : Nat) : List HeldFrame := stillHeld s.clock.now (s.wayLane n).leaving ++ (s.wayLane n).held

/-- What the contexts that name locked receive queue q hold (12 R304). -/
def rxqHeld (s : State) (q : Nat) : List HeldFrame :=
  (s.ctxs.filter (fun e => s.is (fCtxLocked e.1) && decide (s.fld ⟨ctxBase e.1 + 8, 24, 8⟩ = q))).flatMap
    (fun e => stillHeld s.clock.now e.2.leaving ++ e.2.held)

/-- The word at a byte offset of the package segment (R407). -/
def packageSegment (s : State) (o : Nat) : Word64 :=
  if o < 0xC0000 then beatsWord (heldBeats (laneHeld s (o / 0x800))) (o % 0x800)
  else if o < 0xC1800 then (if o % 16 = 0 then BitVec.ofNat 64 (heldState (laneHeld s ((o - 0xC0000) / 16))) else 0)
  else if o < 0x100000 then 0
  else if o < 0x180000 then beatsWord (heldBeats (rxqHeld s ((o - 0x100000) / 0x800))) (o % 0x800)
  else if o < 0x181000 then (if o % 16 = 0 then BitVec.ofNat 64 (heldState (rxqHeld s ((o - 0x180000) / 16))) else 0)
  else if o < 0x190000 then 0
  else if o < 0x1A0000 then
    let r := mget {} (s.va ((o - 0x190000) / 0x4000)).records (o % 0x4000 / 256)
    let b := o % 256
    if b = 0 then BitVec.ofNat 64 (r.bits.toNat + 2 ^ 32 * r.badMask.toNat)
    else if b = 8 then BitVec.ofNat 64 (r.lateMask.toNat + 2 ^ 32 * (r.cids.toNat % 2 ^ 32))
    else if b = 16 then BitVec.ofNat 64 (r.cids.toNat / 2 ^ 32)
    else if b < 32 then 0
    else
      match r.features[(b - 32) / 32]? with
      | some p => (featureWords p).getD (b % 32 / 8) 0
      | none => 0
  else if o = 0x1F0000 then BitVec.ofNat 64 ((s.raw 0x50008).toNat + 2 ^ 32 * (s.raw 0x5000C).toNat)
  else 0

/-- The 64-bit word of the shadow at a byte offset; zero while nothing is held and beyond its end (R402, R404, R408). -/
def shadowWord (s : State) (o : Nat) : Word64 :=
  match s.frost with
  | none => 0
  | some f =>
    let v := frostView s f
    if o < 0x2000000 then unitSegment v (o / 0x2000) (o % 0x2000)
    else if o < 0x4000000 then clusterSegment v f.free ((o - 0x2000000) / 0x10000) (o % 0x10000) (o / 0x10000 * 0x10000)
    else if o < 0x4200000 then packageSegment v (o - 0x4000000)
    else 0

end Sys2Proof.Machine
end

