-- ==== Sys2Proof/Machine/Power.lean ====
section
/-!
DEFINITION. Machine/Power.lean: supplies and their stops, power averages, the status outputs, SMBus and JTAG (15 R394; 16 R408, R409; 17 R412
to R432).
-/
namespace Sys2Proof.Machine

def fOv : Fld := ⟨0x10100, 2, 1⟩
def fOc : Fld := ⟨0x10100, 3, 1⟩
def fRegFault : Fld := ⟨0x10100, 4, 1⟩
def fRefclkLoss : Fld := ⟨0x10100, 5, 1⟩
def fOverLimit : Fld := ⟨0x10100, 7, 1⟩
def fRegDie : Fld := ⟨0x10100, 9, 4⟩
def fStraps : Fld := ⟨0x10100, 13, 4⟩
def fVin : Fld := ⟨0x10104, 0, 16⟩
def fIin : Fld := ⟨0x10104, 16, 16⟩
def fPin : Fld := ⟨0x10108, 0, 16⟩
def fPeak : Fld := ⟨0x10108, 16, 16⟩
def fWatts : Fld := ⟨0x1010C, 0, 11⟩
def fSmbAddr : Fld := ⟨0x10110, 0, 7⟩
def fThrottleMs : Fld := ⟨0x10114, 0, 16⟩

/-! ### Reset and loss of power (R413, R419, R420) -/

/-- The straps are sampled from the levels of their pins (R420). -/
def sampleStraps (s : State) (v : BitVec 4) : State :=
  let s1 := ((s.setFld fStraps v.toNat).setFld fTkStrap (bit (v.getLsbD 0))).setFld fSmbAddr (if v.getLsbD 1 then 0x59 else 0x58)
  { s1 with pins := { s1.pins with straps := v } }

/-- A flash command that is cut off leaves what it was writing open (14 R373, R419; notes/assumptions/3.md). -/
def tornFlash (s : State) : SMap Byte × Nat :=
  match s.flashCmd with
  | none => (s.flash, s.freeNext)
  | some (op, a, len, _) =>
    let n := if op = 2 then 65536 else if op = 1 then len + 1 else 0
    let b := if op = 2 then a / 65536 * 65536 else a
    ((List.range n).foldl (fun m i => mset 0xFF m (b + i) (Config.freeValue 8 (s.freeNext + i))) s.flash, s.freeNext + n)

/-- Every die, tile and register is reset; fuses and flash keep, and so do the pins, the TAP and the commands that wait (R419). BROWNOUT is held by
the power controller (R413); the fields that the straps give hold what the strap pins say (R420). -/
def resetPackage (s : State) : State :=
  let f := tornFlash s
  let s1 : State := { State.reset with
    fuses := s.fuses, flash := f.1, flashDead := s.flashDead, freeNext := f.2, tap := s.tap, out := s.out, pending := s.pending
    pins := { s.pins with thermtripLow := false, alert := false } }
  sampleStraps ((s1.setFld fRailsGood (s.fld fRailsGood)).setFld fBrownout (s.fld fBrownout)) s.pins.straps

/-- PORST_N_FALL: the package is held in reset (R419). -/
def execPorstFall (s : State) : Res :=
  let s1 := resetPackage s
  .next { s1 with pins := { s1.pins with porst := false } }

/-- Every die loses power: all state is lost (R413). -/
def losePower (s : State) : State :=
  let s1 := resetPackage s
  { s1.setFld fRailsGood 0 with tap := {}, pins := { s1.pins with vin := false } }

/-- BROWNOUT: VIN falls below the falling lockout (R413). -/
def execBrownout (s : State) : Res := .next (if s.pins.vin then (losePower s).mark fBrownout else s)

/-- VIN_BELOW_10_V: the power controller loses BROWNOUT (R413). -/
def execVinBelow10V (s : State) : Res := .next ((losePower s).setFld fBrownout 0)

/-- VIN_RISE: past the rising lockout the power controller starts (R414, R421). -/
def execVinRise (s : State) : Res := .next { s with pins := { s.pins with vin := true } }

/-! ### Supply stops (R418) -/

/-- The power controller watches the supply of a package that is out of reset and has not lost die 0. -/
def supplied (s : State) : Bool := s.pins.vin && s.pins.porst && !s.thermal.die0Off

/-- A supply stop: its sticky bit, the run stopped at once, the array clock stopped and the core regulators of dies 1 to 15 off; a trip drives
THERMTRIP_N low with it (R418, 15 R392). -/
def supplyStop (s : State) (f : Fld) : State :=
  let s1 := stopAtOnce (((playBlocks s (fun _ => true) s.clock.now).mark f).mark fSupplyStop)
  let s2 := holdVoltage (s1.setFld fTurnLeft 0)
  withAlert s { s2 with
    clock := { s2.clock with stopped := true }
    thermal := { s2.thermal with stopNow := false, fallback := false, fallbackNext := false, stopped := true, coresOff := true }
    pins := { s2.pins with thermtripLow := s2.pins.thermtripLow || s2.is fTripped } }

/-- OV (R418). -/
def execOv (s : State) : Res := .next (if supplied s then supplyStop s fOv else s)

/-- OC (R418). -/
def execOc (s : State) : Res := .next (if supplied s then supplyStop s fOc else s)

/-- REG_FAULT: the die is recorded; with die 0 only the SMBus target remains (R418). -/
def execRegFault (d : DieIx) (s : State) : Res :=
  if supplied s then
    let s1 := (supplyStop s fRegFault).setFld fRegDie d.val
    .next (if d.val = 0 then { s1 with thermal := { s1.thermal with die0Off := true } } else s1)
  else .next s

/-- REFCLK_LOSS: a supply stop after READY has risen (boot DONE); die 0 runs on ring oscillator 0 (R418). -/
def execRefclkLoss (s : State) : Res :=
  let s1 := { s with pins := { s.pins with refclk := false } }
  .next (if supplied s && decide (s.fld fBootState = 5) then supplyStop s1 fRefclkLoss else s1)

/-- POWER_AVERAGE: the 1 ms average against PWR_LIMIT; THROTTLE clears after 10 averages at or below it (R417, R429, R432). -/
def execPowerAverage (vin iin pin : BitVec 16) (s : State) : Res :=
  if !s.pins.vin then .next s
  else
    let s1 := (((s.setFld fVin vin.toNat).setFld fIin iin.toNat).setFld fPin pin.toNat).raise fPeak pin.toNat
    let s2 := if s.is fThrottle then s1.bump fThrottleMs else s1
    if 10 * s.fld fWatts < pin.toNat then
      let s3 := (s2.mark fOverLimit).mark fThrottle
      .next (withAlert s { s3 with thermal := { s3.thermal with underLimit := 0 } })
    else
      let n := s.thermal.underLimit + 1
      if s.is fThrottle && decide (n < 10) then .next { s2 with thermal := { s2.thermal with underLimit := n } }
      else .next { s2.setFld fThrottle 0 with thermal := { s2.thermal with underLimit := 0 } }

/-! ### Status outputs (R422, 15 R394) -/

/-- The core drives FAULT_N low (15 R394); it is released during PORST_N and with VIN absent (R422), and the boundary cells drive it under EXTEST
(16 R409). -/
def faultLow (s : State) : Bool :=
  s.pins.vin && s.pins.porst && !s.extest &&
    (s.recovery || s.is fTripped || s.is fHoldExpired || s.is fRelockFail || (List.range 16).any (fun d => s.is (fLimit d)) || s.is fSupplyStop)

/-! ### SMBus (R428 to R430) -/

/-- The target answers: the power controller serves it while VIN is above the lockout (R428), unless EXTEST holds its pins (16 R409). -/
def smbUp (s : State) : Bool := s.pins.vin && !s.extest

/-- The packet error code: the CRC-8 x^8 + x^2 + x + 1 of SMBus over the bytes of the transaction. -/
def packetCode (l : List Byte) : Byte :=
  l.foldl (fun c b => (List.range 8).foldl (fun r _ => if r.getLsbD 7 then (r <<< 1) ^^^ 0x07#8 else r <<< 1) (c ^^^ b)) 0

/-- The target's address (R428, R432). -/
def smbAddress (s : State) : BitVec 7 := BitVec.ofNat 7 (s.fld fSmbAddr)

/-- The target answers a read of command `code` with these bytes; a block read sends their number first, which its packet error code covers. -/
def smbReply (s : State) (code : Byte) (count l : List Byte) : State :=
  let a := (smbAddress s).toNat
  if smbUp s then
    s.send (.smbus (smbAddress s) l (packetCode ([BitVec.ofNat 8 (2 * a), code, BitVec.ofNat 8 (2 * a + 1)] ++ count ++ l)))
  else s

/-- A value that comes from the dies: 0 while they are in reset or off (R429). -/
def fromDies (s : State) (v : Nat) : Nat := if dieAlive s then v else 0

/-- SMBUS_READ_IDENTITY: PKG_PART, then PKG_SHAPE. -/
def execSmbusReadIdentity (s : State) : Res :=
  .next (smbReply s 0x00 [8] (leBytes 4 (fromDies s (pkgPart s)) ++ leBytes 4 (fromDies s (s.raw 0x4).toNat)))

/-- SMBUS_READ_STATUS: the bits of the dies and those of the power controller. -/
def execSmbusReadStatus (s : State) : Res :=
  .next (smbReply s 0x01 [] (leBytes 2 s.reported))

/-- SMBUS_READ_VIN. -/
def execSmbusReadVin (s : State) : Res := .next (smbReply s 0x02 [] (leBytes 2 (s.fld fVin)))

/-- SMBUS_READ_CURRENT. -/
def execSmbusReadCurrent (s : State) : Res := .next (smbReply s 0x03 [] (leBytes 2 (s.fld fIin)))

/-- SMBUS_READ_POWER. -/
def execSmbusReadPower (s : State) : Res := .next (smbReply s 0x04 [] (leBytes 2 (s.fld fPin)))

/-- SMBUS_READ_PEAK: the read clears it. -/
def execSmbusReadPeak (s : State) : Res :=
  .next (if smbUp s then (smbReply s 0x05 [] (leBytes 2 (s.fld fPeak))).setFld fPeak 0 else s)

/-- SMBUS_READ_TEMPERATURE: signed, in 16 bits. -/
def execSmbusReadTemperature (s : State) : Res :=
  .next (smbReply s 0x06 [] (leBytes 2 (fromDies s (low 16 (sext 11 (s.fld fHottest))))))

/-- SMBUS_READ_BOOT_STATUS. -/
def execSmbusReadBootStatus (s : State) : Res := .next (smbReply s 0x07 [] (leBytes 2 (fromDies s ((s.raw 0x40000).toNat % 2 ^ 16))))

/-- SMBUS_ALERT_MASK: a write of the mask, or a read of it. -/
def execSmbusAlertMask (write : Option (BitVec 16)) (s : State) : Res :=
  match write with
  | some v => .next (if smbUp s then s.setFld fAlertMask (v.toNat % 256) else s)
  | none => .next (smbReply s 0x08 [] (leBytes 2 (s.fld fAlertMask)))

/-- ALERT_RESPONSE: the target that holds an alert answers its address and releases the latch (R430). -/
def execAlertResponse (s : State) : Res :=
  let b := BitVec.ofNat 8 (s.fld fSmbAddr)
  if smbUp s && s.pins.alert then
    .next { s.send (.smbus (smbAddress s) [b] (packetCode [0x19, b])) with pins := { s.pins with alert := false } }
  else .next s

/-! ### JTAG (16 R408, R409) -/

/-- The core drives its ports: not in reset, and not in boot steps 0 to 2 (R423, R426). -/
def portsUp (s : State) : Bool := dieAlive s && decide (3 ≤ s.fld fBootState)

/-- The pins come back to the core as EXTEST leaves the instruction register (16 R409). -/
def pinsBack (before s : State) : State := if before.extest then showPads s (fun _ => true) else s

/-- The TAP takes an instruction and its data register; without power it takes none. -/
def tapLoad (s : State) (code : BitVec 8) (dr : BitVec 102) : State :=
  if s.pins.vin then pinsBack s { s with tap := { s.tap with ir := code, dr := dr } } else s

/-- The TAP runs an instruction: its code and data register, and what shifts out of TDO, which is high-impedance in reset and in boot steps 0 to 2
(R423, R426). -/
def tapRun (s : State) (code : BitVec 8) (dr : BitVec 102) (width : Nat) (out : BitVec 102) : State :=
  let s1 := tapLoad s code dr
  if portsUp s then s1.send (.tdo width out) else s1

/-- The boundary cells capture the pins, which shift out as new values shift in and are held (R409). -/
def boundaryScan (s : State) (code : BitVec 8) (pins shifted : BitVec 102) : State :=
  let s1 := tapRun s code shifted 102 pins
  if s.pins.vin then { s1 with tap := { s1.tap with boundary := shifted } } else s1

/-- EXTEST: the pins leave the core and follow the boundary cells (R409). -/
def execExtest (pins shifted : BitVec 102) (s : State) : Res :=
  let s1 := boundaryScan s 0x00 pins shifted
  .next (if s.pins.vin then s1.send (.cells shifted) else s1)

/-- SAMPLE/PRELOAD. -/
def execSamplePreload (pins shifted : BitVec 102) (s : State) : Res := .next (boundaryScan s 0x01 pins shifted)

/-- IDCODE. -/
def execIdcode (s : State) : Res := .next (tapRun s 0x02 0x1A7165B7 32 0x1A7165B7)

/-- FRS_ADDR: the shadow byte offset, [2:0] ignored. The value captured is stated nowhere, and none is sent. -/
def execFrsAddr (offset : Word32) (s : State) : Res :=
  let s1 := tapLoad s 0x20 (offset.zeroExtend 102)
  .next (if s.pins.vin then { s1 with tap := { s1.tap with offset := offset &&& 0xFFFFFFF8 } } else s1)

/-- FRS_DATA: the 8 bytes at the offset, zero while nothing is held, and the offset moves on by 8. -/
def execFrsData (s : State) : Res :=
  let w := if s.is fHeld then shadowWord s s.tap.offset.toNat else 0
  let s1 := tapRun s 0x21 (w.zeroExtend 102) 64 (w.zeroExtend 102)
  .next (if s.pins.vin then { s1 with tap := { s1.tap with offset := s1.tap.offset + 8 } } else s1)

/-- BYPASS: one bit, which captures zero. -/
def execBypass (code : Byte) (s : State) : Res := .next (tapRun s code 0 1 0)

/-- TRST_N low resets the TAP. -/
def execTrst (s : State) : Res := .next (pinsBack s { s with tap := {} })

end Sys2Proof.Machine
end

