-- ==== Sys2Proof/Machine/Flash.lean ====
section
/-!
DEFINITION. Machine/Flash.lean: the flash window and the owner key slot (14_boot_and_trust.md R372, R373, R378).
-/
namespace Sys2Proof.Machine

def fFlAddr : Fld := ⟨0x40010, 0, 32⟩
def fFlOp : Fld := ⟨0x40014, 0, 2⟩
def fFlLen : Fld := ⟨0x40014, 2, 8⟩
def fFlGo : Fld := ⟨0x40014, 16, 1⟩
def fFlBusy : Fld := ⟨0x40014, 17, 1⟩
def fFlErr : Fld := ⟨0x40014, 18, 1⟩
def flBuf (i : Nat) : Nat := 0x40100 + 4 * i
def fOwnerGo : Fld := ⟨0x40280, 8, 1⟩
def fOwnerBusy : Fld := ⟨0x40280, 9, 1⟩
def fOwnerErr : Fld := ⟨0x40280, 10, 1⟩

/-! ### The flash window (R373) -/

/-- The bytes of the buffer registers. -/
def flashBuffer (s : State) : List Byte := (List.range 64).flatMap (fun i => leBytes 4 (s.raw (flBuf i)).toNat)

/-- What the boot port sends for a command: opcode and extension, the address, and the bytes to program; a program or an erase comes after write-enable
and is polled (R362). -/
def bootBytes (op a : Nat) (bytes : List Byte) : List Byte :=
  let addr := (leBytes 4 a).reverse
  if op = 0 then [0xEE, 0x11] ++ addr
  else [0x06, 0xF9] ++ (if op = 1 then [0x12, 0xED] ++ addr ++ bytes else [0xDC, 0x23] ++ addr) ++ [0x05, 0xFA]

/-- GO: refused while a run is armed, with the reserved OP, or while a command is in progress. GO reads 1 while its command is in progress
(notes/assumptions/64.md). -/
def flashGo (s : State) : State :=
  let op := s.fld fFlOp
  if s.armed || decide (op = 3) || s.flashCmd.isSome then s.mark fFlErr
  else
    let bytes := (flashBuffer s).take (s.fld fFlLen + 1)
    let s1 := if s.extest then s else s.send (.bootPort (bootBytes op (s.fld fFlAddr) bytes))
    { (s1.mark fFlGo).mark fFlBusy with flashCmd := some (op, s.fld fFlAddr, s.fld fFlLen, bytes) }

/-- FLASH_READ: GO with OP 0b00. -/
def execFlashRead (s : State) : Res := .next (flashGo (s.setFld fFlOp 0))

/-- FLASH_PROGRAM: GO with OP 0b01. -/
def execFlashProgram (s : State) : Res := .next (flashGo (s.setFld fFlOp 1))

/-- FLASH_ERASE: GO with OP 0b10. -/
def execFlashErase (s : State) : Res := .next (flashGo (s.setFld fFlOp 2))

/-- One byte of the flash; an erased byte reads 0xFF. -/
def flashByte (s : State) (a : Nat) : Byte := mget 0xFF s.flash a

/-- Bytes read into the buffer registers. -/
def fillBuffer (s : State) (bytes : List Byte) : State :=
  (List.range ((bytes.length + 3) / 4)).foldl (fun t i =>
    let part := slice bytes (4 * i) 4
    let old := (leBytes 4 (t.raw (flBuf i)).toNat).drop part.length
    t.setRaw (flBuf i) (BitVec.ofNat 32 (leNat (part ++ old)))) s

/-- Bytes stored in the flash from an address on. -/
def storeFlash (s : State) (a : Nat) (bytes : List Byte) : State :=
  { s with flash := ((List.range bytes.length).zip bytes).foldl (fun m p => mset 0xFF m (a + p.1) p.2) s.flash }

/-- The 64 KiB sector of an address is erased. -/
def eraseSector (s : State) (a : Nat) : State :=
  { s with flash := s.flash.filter (fun e => decide (e.1 / 65536 ≠ a / 65536)) }

/-- FLASH_COMMAND_DONE (R373). Under EXTEST the flash is cut off, and the command ends with ERR (R362, 16 R409). -/
def execFlashCommandDone (s : State) : Res :=
  match s.flashCmd with
  | none => .next s
  | some (op, a, len, bytes) =>
    let s1 : State := { (s.setFld fFlGo 0).setFld fFlBusy 0 with flashCmd := none }
    if s.extest then .next (s1.mark fFlErr)
    else match op with
      | 0 => .next (fillBuffer s1 ((List.range (len + 1)).map (fun i => flashByte s (a + i))))
      | 1 => .next (storeFlash s1 a bytes)
      | _ => .next (eraseSector s1 a)

/-! ### The owner slot (R372) -/

/-- The hash staged in TRU_OWNER_STAGE0 to 7. -/
def stagedOwner (s : State) : List Byte := (List.range 8).flatMap (fun i => leBytes 4 (s.raw (0x40260 + 4 * i)).toNat)

/-- PROGRAM: refused with ERR in the cases of R372, and while programming is in progress. PROGRAM reads 1 until the slot is programmed
(notes/assumptions/64.md). -/
def programOwner (s : State) (confirm : Byte) : State :=
  if s.fuses.ownerSet || decide (confirm ≠ 0xA5) || s.armed || (stagedOwner s).all (fun b => decide (b = 0)) || s.trust.ownerNew.isSome then
    s.mark fOwnerErr
  else { (s.mark fOwnerGo).mark fOwnerBusy with trust := { s.trust with ownerNew := some (stagedOwner s) } }

/-- OWNER_PROGRAM (R372). -/
def execOwnerProgram (confirm : Byte) (s : State) : Res := .next (programOwner s confirm)

/-- OWNER_PROGRAM_DONE: the slot is programmed; boot uses it from the next boot on, which alone reads the fuses (R372). -/
def execOwnerProgramDone (s : State) : Res :=
  match s.trust.ownerNew with
  | none => .next s
  | some h =>
    .next { (s.setFld fOwnerGo 0).setFld fOwnerBusy 0 with
      trust := { s.trust with ownerNew := none }
      fuses := { s.fuses with ownerSet := true, ownerHash := h } }

end Sys2Proof.Machine
end

