-- ==== Sys2Proof/Machine/Registers.lean ====
section
/-!
DEFINITION. Machine/Registers.lean: reads and writes of the register map with their effects, and the windows to the unit memories (00_scope.md R8
to R10; 04 R110, R111; 06 R162; 08 R213, R215; 13 R332, R334, R356; 14 R369; 17 R416).
-/
namespace Sys2Proof.Machine

/-- The state after a step of the model that cannot stop. -/
def after (s : State) (r : Res) : State :=
  match r with
  | .next t => t
  | _ => s

/-! ### Windows to unit memories (04 R111, 06 R162) -/

def winAddr (a : Agent) : Nat := aBase a + (if isDot a then 0x70 else 0x20)
def fWinWord (a : Agent) : Fld := ⟨winAddr a, 0, if isDot a then 14 else 8⟩
def fWinMem (a : Agent) : Fld := ⟨winAddr a, 16, 2⟩
def fWinAuto (a : Agent) : Fld := ⟨winAddr a, 31, 1⟩
def fWinLo (a : Agent) : Fld := ⟨winAddr a + 4, 0, 32⟩
def fWinHi (a : Agent) : Fld := ⟨winAddr a + 8, 0, 32⟩

/-- The memory that the window selects: 0 weights, 1 scales, 2 zero points, 3 the timetable, the only one of a function unit. -/
def winKind (s : State) (a : Agent) : Nat := if isDot a then s.fld (fWinMem a) else 3

/-- Words of a memory. -/
def winSize (a : Agent) (kind : Nat) : Nat :=
  match a, kind with
  | .fn _, _ => 256
  | _, 0 => 16384
  | _, 1 => 1024
  | _, 2 => 256
  | _, _ => 512

def memOf (s : State) (a : Agent) (kind : Nat) : Store :=
  match a with
  | .fn f => (s.fun_ f.val).tt
  | .dot u => match kind with
    | 0 => (s.unit u.val).weight
    | 1 => (s.unit u.val).scale
    | 2 => (s.unit u.val).zp
    | _ => (s.unit u.val).tt

def setMem (s : State) (a : Agent) (kind : Nat) (m : Store) : State :=
  match a with
  | .fn f => s.setFun f.val { s.fun_ f.val with tt := m }
  | .dot u =>
    let v := s.unit u.val
    s.setUnit u.val (match kind with
      | 0 => { v with weight := m }
      | 1 => { v with scale := m }
      | 2 => { v with zp := m }
      | _ => { v with tt := m })

def winHiOf (s : State) (a : Agent) : Word32 :=
  match a with
  | .fn f => (s.fun_ f.val).winHi
  | .dot u => (s.unit u.val).winHi

def setWinHi (s : State) (a : Agent) (v : Word32) : State :=
  match a with
  | .fn f => s.setFun f.val { s.fun_ f.val with winHi := v }
  | .dot u => s.setUnit u.val { s.unit u.val with winHi := v }

/-- The window takes no access: its unit plays, or WORD is out of range. -/
def winRefused (s : State) (a : Agent) : Bool :=
  s.is (fRunning a) || decide (winSize a (winKind s a) ≤ s.fld (fWinWord a))

/-- WORD increments after an access when AUTOINC is 1. -/
def winNext (s : State) (a : Agent) : State :=
  if s.is (fWinAuto a) then s.setFld (fWinWord a) (s.fld (fWinWord a) + 1) else s

/-- A write of DATA_LO writes the word formed with the last value written to DATA_HI. -/
def writeWindow (s : State) (a : Agent) (v : Word32) : State :=
  if winRefused s a then winNext (s.mark (fWinErr a)) a
  else
    let k := winKind s a
    let w : Word64 := BitVec.ofNat 64 (v.toNat + 2 ^ 32 * (winHiOf s a).toNat)
    winNext ((setMem s a k ((memOf s a k).put (s.fld (fWinWord a)) w)).setFld (fWinLo a) v.toNat) a

/-- What a window read counts (04 R104): a dot unit's corrected and uncorrectable words by memory. -/
def countWindow (s : State) (a : Agent) (k w : Nat) : State :=
  match a with
  | .fn _ => s
  | .dot u =>
    let ce := s.bump (fCe u.val) ((memOf s a k).corrected w 1)
    ce.bump (match k with
      | 0 => fWeightUe u.val
      | 3 => fTtUe u.val
      | _ => fScaleUe u.val) ((memOf s a k).broken w 1)

/-- A read of DATA_LO: the low half, and the high half latched into DATA_HI; zero where the access is refused. -/
def readWindow (s : State) (a : Agent) : Word32 × State :=
  if winRefused s a then (0, winNext (s.mark (fWinErr a)) a)
  else
    let k := winKind s a
    let i := s.fld (fWinWord a)
    let w := ((memOf s a k).word i).toNat
    let s1 := countWindow ((s.setFld (fWinLo a) (bits w 0 32)).setFld (fWinHi a) (bits w 32 32)) a k i
    (BitVec.ofNat 32 (bits w 0 32), winNext s1 a)

/-- The agent whose window the DATA_LO register at an address is. -/
def windowAt (a : Nat) : Option Agent :=
  if 0x1000000 ≤ a ∧ a < 0x2000000 then
    let o := a % 0x40000
    let k := 8 * regionOf a + (o - 0x20000) / 0x2000
    let c := o % 0x2000
    if o < 0x20000 ∨ 0x30000 ≤ o then none
    else if c < 0x800 ∧ c % 0x100 = 0x74 then some (.dot (Fin.ofNat 4096 (8 * k + c / 0x100)))
    else if 0x900 ≤ c ∧ c < 0xA00 ∧ c % 0x80 = 0x24 then some (.fn (Fin.ofNat 1024 (2 * k + (c - 0x900) / 0x80)))
    else none
  else none

/-! ### Which registers answer (14 R369) -/

/-- In recovery only the package, power and thermal, and boot and trust blocks answer. -/
def answers (s : State) (a : Nat) : Bool :=
  !s.recovery || decide (a < 0x20000) || (decide (0x40000 ≤ a) && decide (a < 0x50000))

/-- The address lies in the egress block of a lane that leads no ELVARO group (07 R191). -/
def deadEgress (s : State) (a : Nat) : Bool :=
  let o := a % 0x1000
  let x := (a - 0x80000) / 0x1000
  if a < 0x80000 ∨ 0x90100 ≤ a then false
  else if 0xF00 ≤ o then decide (s.tile x = 1) && decide (funcOf s x ((o - 0xF00) / 0x10) ≠ 3)
  else if o < 0x100 ∧ 0 < x then
    decide (s.tile (x - 1) = 1) && (decide (x = 16) || (tileRegs (s.tile x) o).isEmpty) && decide (funcOf s (x - 1) (16 + o / 0x10) ≠ 3)
  else false

/-- The fields of the register at an address. -/
def specAt (s : State) (a : Nat) : List FieldSpec :=
  let fs := regSpec s.fuses.variant a
  if deadEgress s a && !fs.isEmpty then blank else fs

/-- A register is mapped at the address. -/
def mapped (s : State) (a : Nat) : Bool := !(specAt s a).isEmpty

/-! ### Reads -/

/-- The level from which a field that keeps the highest level restarts at a read (R9). -/
def levelAt (s : State) (a : Nat) : Nat :=
  if 0x21000 ≤ a ∧ a < 0x30000 then ((s.wayLane ((a - 0x21000) / 0x10)).held.map (fun h => h.beats.length)).foldl (· + ·) 0
  else if a < 0x80000 then spyWords (s.spy ((a - 0x33000) / 0x20))
  else
    let o := a % 0x40000
    let k := 8 * regionOf a + (o - 0x20000) / 0x2000
    let c := o % 0x2000
    if o < 0x20000 then (s.hq (regionOf a) ((o - 0x9200) / 0x10)).length
    else if c < 0x800 then (s.queue (.port (Fin.ofNat 4096 (8 * k + c / 0x100)) (portOf ((c % 0x100 - 0x80) / 0x10)))).beats.length
    else if c < 0xC00 then (s.queue (steerIn k ((c - 0xA40) / 0x10))).beats.length
    else (s.queue (bankQ k ((c - 0xC00) / 0x20))).beats.length

/-- The value that a register reads (R8, R9): write-only and reserved bits read as zero; a staged field reads as in effect (08 R213). -/
def readValue (s : State) (a : Nat) : Word32 :=
  let fs := specAt s a
  (s.raw a &&& maskOf fs (fun c => c != .wo && c != .live)) ||| (BitVec.ofNat 32 (liveBits s a) &&& maskOf fs (· == .live))

/-- What clears or restarts when a register is read (R9). -/
def clearRead (s : State) (a : Nat) : State :=
  (specAt s a).foldl (fun t f => match f.acc with
    | .rc => t.setFld ⟨a, f.lo, f.w⟩ f.reset
    | .rcExt => t.setFld ⟨a, f.lo, f.w⟩ f.reset
    | .rcLevel => t.setFld ⟨a, f.lo, f.w⟩ (levelAt t a)
    | _ => t) s

/-- The low registers whose read latches the register above them: PKG_VA_LAST_LO and LOG_UFUSE_LO (06 R164, 08 R218). -/
def latches (a : Nat) : Option Nat :=
  if 0x1000 ≤ a ∧ a < 0x1400 ∧ a % 0x100 = 0x1C then some (a + 4)
  else if 0x1000000 ≤ a ∧ a < 0x2000000 ∧ a % 0x100000 = 0x38014 then some (a + 4)
  else none

/-- What else a read does: the latches (02 R65), a fresh temperature maximum (R9, 15 R395), and the free value that a ring oscillator's frequency
is. -/
def readSide (s : State) (a : Nat) : State :=
  if a = 0x20014 then s.setFld fRunHi (s.run.count / 2 ^ 32)
  else if a = 0x10004 then { s with thermal := { s.thermal with maxFresh := true } }
  else if 0x1000000 ≤ a ∧ a < 0x2000000 ∧ a % 0x100000 = 0x38000 then s.drawn
  else match latches a with
    | some h => s.setRaw h (mget 0 s.latchHi a)
    | none => s

/-- A read of the register at an address, live: its value and what the read does. -/
def regRead (s : State) (a : Nat) : Word32 × State :=
  if !answers s a then (0, s)
  else match windowAt a with
    | some g => readWindow s g
    | none =>
      let s1 := settleFor s a
      if 0x1000000 ≤ a ∧ a < 0x2000000 ∧ a % 0x40000 / 0x100 = 0x92 ∧ a % 0x10 = 0x8 then hqPop s1 (regionOf a) ((a % 0x40000 - 0x9200) / 0x10)
      else if a = 0x20014 then (BitVec.ofNat 32 s1.run.count, readSide s1 a)
      else (readValue s1 a, readSide (clearRead s1 a) a)

/-! ### Plain writes -/

/-- A write by the access codes alone (R9, 08 R213). A W1S bit starts the action of its own rule and reads 1 while that action goes on, and 0
again at once where the action is whole in the write (notes/assumptions/64.md); the definitions of those actions set it. -/
def plainWrite (s : State) (a : Nat) (v : Word32) : State :=
  let fs := specAt s a
  let m := maskOf fs (· == .rw)
  let c := maskOf fs (· == .w1c)
  let g := maskOf fs (· == .staged)
  let s1 := if m ||| c = 0 then s else s.setRaw a (((s.raw a &&& ~~~m) ||| (v &&& m)) &&& ~~~(v &&& c))
  if g = 0 then s1 else stageWrite s1 a ((afterCommit s1 a &&& ~~~g) ||| (v &&& g))

/-- A write of a MODE bit is staged only where it differs from what would be in effect (07 R187). -/
def modeWrite (s : State) (a : Nat) (q : QueueId) (v : Word32) : State :=
  let c := maskOf (specAt s a) (· == .w1c)
  let s1 := s.setRaw a (s.raw a &&& ~~~(v &&& c))
  let s2 := if (afterCommit s1 a).getLsbD 0 = v.getLsbD 0 then s1
    else stageWrite s1 a ((afterCommit s1 a &&& ~~~1#32) ||| (v &&& 1#32))
  if v.getLsbD 1 then after s2 (execDropRest q s2) else s2

/-! ### Units and clusters -/

/-- A write of DOT_CTRL or FUN_CTRL of a stopped agent: SCHED of the current crossing keeps the old LAG (04 R93). -/
def agentCtrl (s : State) (g : Agent) (v : Word32) : State :=
  let old := schedOf s g
  let s1 := plainWrite s (aBase g) v
  if s1.fld (fLag g) = s.fld (fLag g) then s1
  else match g with
    | .dot u => s1.setUnit u.val { s1.unit u.val with schedHeld := some (s.clock.xseq, old) }
    | .fn f => s1.setFun f.val { s1.fun_ f.val with schedHeld := some (s.clock.xseq, old) }

/-- A configuration register of an agent: ignored while it plays (04 R110, 06 R162). -/
def whileStopped (s : State) (g : Agent) (t : State) : State := if s.is (fRunning g) then s.mark (fAgentIgnored g) else t

/-- DOT_BANK_Q: a fraction point of 48 to 63 stores 47 (04 R110). -/
def bankQValue (v : Word32) : Word32 :=
  BitVec.ofNat 32 ((List.range 4).foldl (fun a i => a + 2 ^ (8 * i) * min 47 (bits v.toNat (8 * i) 6)) 0)

/-- A dot unit's registers. -/
def writeDot (s : State) (g o a : Nat) (v : Word32) : State :=
  let ag : Agent := .dot (Fin.ofNat 4096 g)
  if o = 0x00 then whileStopped s ag (agentCtrl s ag v)
  else if 0x20 ≤ o ∧ o < 0x40 then whileStopped s ag (plainWrite s a v)
  else if 0x40 ≤ o ∧ o < 0x50 then whileStopped s ag (plainWrite s a (bankQValue v))
  else if o = 0x6C then writeFence s g (v.getLsbD 0)
  else if o = 0x74 then writeWindow s ag v
  else if o = 0x78 then setWinHi (plainWrite s a v) ag v
  else if 0x80 ≤ o ∧ o < 0xC0 ∧ o % 0x10 = 0 then modeWrite s a (.port (Fin.ofNat 4096 g) (portOf ((o - 0x80) / 0x10))) v
  else plainWrite s a v

/-- The registers of a cluster's block. -/
def writeCluster (s : State) (k o a : Nat) (v : Word32) : State :=
  if o < 0x800 then writeDot s (8 * k + o / 0x100) (o % 0x100) a v
  else if 0x900 ≤ o ∧ o < 0xA00 then
    let ag : Agent := .fn (Fin.ofNat 1024 (2 * k + (o - 0x900) / 0x80))
    if o % 0x80 = 0 then whileStopped s ag (agentCtrl s ag v)
    else if o % 0x80 = 0x24 then writeWindow s ag v
    else if o % 0x80 = 0x28 then setWinHi (plainWrite s a v) ag v
    else plainWrite s a v
  else if 0xA40 ≤ o ∧ o < 0xA80 ∧ o % 0x10 = 0 then modeWrite s a (steerIn k ((o - 0xA40) / 0x10)) v
  else if 0xC00 ≤ o ∧ o < 0xE00 ∧ o % 0x20 = 8 then
    (if v.getLsbD 0 then after s (execDropRest (bankQ k ((o - 0xC00) / 0x20)) s) else s)
  else if o = 0x1000 then
    let kx : ClusterIx := Fin.ofNat 512 k
    let s1 := if v.getLsbD 0 then after s (execLogBegin kx s) else s
    if v.getLsbD 1 then after s1 (execLogDone kx s1) else s1
  else if o = 0x1008 then writeFrameLo s k v
  else if o = 0x100C then s.setLogic k { s.logic k with frameHi := v }
  else plainWrite s a v

/-! ### Regions and dies -/

/-- RGN_HAZ_CTRL.ENABLE takes effect at the next crossing start, at once with the array clock stopped (09 R239). -/
def writeHazards (s : State) (r a : Nat) (v : Word32) : State :=
  let s1 := plainWrite s a v
  if s.runs then s1.setRegion r { s1.region r with hazNext := some (v.getLsbD 0) }
  else { s1 with hazardsHeld := mset false s1.hazardsHeld r (v.getLsbD 0) }

/-- The registers of a region below its clusters. -/
def writeRegion (s : State) (r o a : Nat) (v : Word32) : State :=
  let rx : RegionIx := Fin.ofNat 64 r
  if o = 0x1000 then
    let s1 := plainWrite s a v
    let s2 := if v.getLsbD 0 then after s1 (execRgnStart rx s1) else s1
    if v.getLsbD 1 then after s2 (execRgnRelease rx s2) else s2
  else if o = 0x1008 then
    let s1 := plainWrite s a v
    if v.getLsbD 0 then after s1 (execCommitRequest rx s1) else s1
  else if o = 0x100C then plainWrite s a (BitVec.ofNat 32 (clkValue v.toNat))
  else if o = 0x1200 then writeHazards s r a v
  else if o = 0x1204 then (if v.getLsbD 3 then (plainWrite s a v).setFld (fHazKind r) 0 else plainWrite s a v)
  else if o = 0x1304 then (if v.getLsbD 31 then recoverRegion s r v else plainWrite s a v)
  else if o = 0x1404 then
    let s1 := plainWrite s a v
    if v.getLsbD 0 then startScrub s1 r else s1
  else if o = 0x4100 then (if v.getLsbD 0 then invalidateCache s r else s)
  else if 0x8000 ≤ o ∧ o < 0x9000 ∧ o % 0x40 = 0x30 then
    let i := (o - 0x8000) / 0x40
    let s1 := if v.getLsbD 1 then abortDesc s r i else s
    if v.getLsbD 0 then armDesc s1 r i else s1
  else if 0x9200 ≤ o ∧ o < 0x9300 ∧ o % 0x10 = 4 then hqPush s r ((o - 0x9200) / 0x10) v
  else plainWrite s a v

/-- The registers of a die's own blocks: contexts and multicast groups keep their configuration while a run is armed (12 R324, R325); context 0 of
die 0 cannot be configured (R309). -/
def writeDie (s : State) (d block o a : Nat) (v : Word32) : State :=
  if block = 0 ∧ o < 0x38000 then
    (if (s.armed ∨ d = 0 ∧ o < 0x30020) ∧ o % 0x20 < 0x0C then s else plainWrite s a v)
  else if block = 1 ∧ o < 0x31000 then (if s.armed ∧ (o % 0x40 = 0 ∨ 8 ≤ o % 0x40) then s else plainWrite s a v)
  else if block = 0 ∧ o = 0x38018 then (plainWrite s a v).latch (a - 4) v
  else if block = 0 ∧ o = 0x3801C then
    let dx : DieIx := Fin.ofNat 16 d
    let s1 := plainWrite s a v
    let s2 := if v.getLsbD 0 then after s1 (execUfuseRead dx s1) else s1
    if v.getLsbD 1 then after s2 (execUfuseProgram dx s2) else s2
  else plainWrite s a v

/-! ### Tile sites -/

/-- A lane's configuration: ignored while the lane is locked (11 R292); ENABLE 0 holds it DARK, an invalid function or rate sets CFG_ERR (R284,
R290), TRAIN requests retraining (R294). -/
def writeLane (s : State) (site lane a : Nat) (tx : Bool) (v : Word32) : State :=
  if laneLocked s site lane tx then s.mark (laneIgnored site lane tx)
  else
    let s1 := notePair s (plainWrite s a v) site lane
    let s2 := if tx && isLead s1 site lane && !funcValid s1 site lane then s1.mark (laneCfgErr site lane true) else s1
    if isTiming s2 site lane tx then (if !laneEnabled s2 site lane tx && decide (s2.fld fState < 7) then toDark s2 else s2)
    else if !laneEnabled s2 site lane tx then darken s2 site lane tx
    else if !settingOk s2 site lane tx then (darken s2 site lane tx).mark (laneCfgErr site lane tx)
    else if !tx && v.getLsbD 17 then requestTrain s2 site lane false
    else startLane s2 site lane tx

/-- The registers of a tile site. -/
def writeSite (s : State) (site o a : Nat) (v : Word32) : State :=
  if o = 0 ∧ s.tile site = 2 then
    let s0 := plainWrite s a v
    let s1 := if bits v.toNat 16 8 = 0 then s0.setFld ⟨a, 16, 8⟩ 1 else s0
    if v.getLsbD 1 then scrubTile s1 ((s.sitesOf 2).idxOf site) else s1
  else if 0x100 ≤ o ∧ o < 0x700 ∧ o % 0x20 = 0 then writeLane s site ((o - 0x100) / 0x20) a false v
  else if 0x700 ≤ o ∧ o < 0xB00 ∧ o % 0x20 = 0 then writeLane s site ((o - 0x700) / 0x20) a true v
  else if 0xB00 ≤ o ∧ o < 0xD00 ∧ o % 0x10 = 0 then
    let lead := (o - 0xB00) / 0x10
    if laneLocked s site lead false then s.mark (laneIgnored site lead true)
    else
      let s1 := plainWrite s a v
      if v.getLsbD 1 then resetGroup s1 site lead else s1
  else if 0xD00 ≤ o ∧ o < 0xD80 ∧ o % 8 = 0 then
    (if s.armed then s else plainWrite s a v)
  else if o = 0xE0C then writeBond s site v
  else plainWrite s a v

/-! ### Package blocks -/

def fHead (r : Nat) : Fld := ⟨ringBase r + 0x18, 0, 12⟩
def fTail (r : Nat) : Fld := ⟨ringBase r + 0x18, 16, 12⟩
def fRingActive (r : Nat) : Fld := ⟨ringBase r + 0x1C, 0, 1⟩
def fDbErr (r : Nat) : Fld := ⟨ringBase r + 0x1C, 1, 1⟩
def fRingCfgErr (r : Nat) : Fld := ⟨ringBase r + 0x1C, 3, 1⟩
def fPhase (r : Nat) : Fld := ⟨ringBase r + 0x1C, 4, 1⟩
def fLastStatus (r : Nat) : Fld := ⟨ringBase r + 0x1C, 16, 16⟩
def fRingDone (r : Nat) : Fld := ⟨ringBase r + 0x20, 0, 32⟩
def fSizeLog (r : Nat) : Fld := ⟨ringBase r, 1, 4⟩


/-- Entries of a pair's rings (13 R329). -/
def ringSize (s : State) (r : Nat) : Nat := 2 ^ s.fld (fSizeLog r)

/-- A doorbell (13 R332). -/
def doorbell (s : State) (r tail : Nat) : State :=
  if !s.is (fHrgEnable r) || decide (ringSize s r ≤ tail) then s.mark (fDbErr r) else s.setFld (fTail r) tail

/-- The descriptors read ahead are dropped, and HEAD goes back to the first of them (13 R334). -/
def dropAhead (s : State) (r : Nat) : State :=
  let v := s.ring r
  match v.ahead with
  | [] => s
  | d :: _ => (s.setFld (fHead r) d.1).setRing r { v with ahead := [] }

/-- A stop of a pair: a command that waits, or that another step is to go on with, ends with ABORTED, a move with the bytes it has moved; LOAD_IMAGE and
QUANTISE run to their end (13 R334). -/
def stopPair (s : State) (r : Nat) : State :=
  let s1 := dropAhead s r
  let v := s1.ring r
  match v.cur with
  | none => s1
  | some c =>
    let op := leNat (c.bytes.take 2)
    match c.phase with
    | .done _ _ => s1
    | .moving n _ _ _ => s1.setRing r { v with cur := some { c with phase := .done 0x0008 (BitVec.ofNat 64 n) } }
    | _ => if op = 1 ∨ op = 3 then s1 else s1.setRing r { v with cur := some { c with phase := .done 0x0008 0 } }

/-- SIZE_LOG2 outside 4 to 12 stores 4 (13 R359). -/
def ctrlValue (v : Word32) : Word32 :=
  if bits v.toNat 1 4 < 4 ∨ 12 < bits v.toNat 1 4 then (v &&& ~~~0x1E#32) ||| 8#32 else v

/-- HRG_CTRL: while the pair is ACTIVE only ENABLE is taken (13 R334); PHASE is 1 on the first pass after enabling (R331). -/
def writeRingCtrl (s : State) (r a : Nat) (v : Word32) : State :=
  let old := s.raw a
  let new := ctrlValue v &&& maskOf (specAt s a) (· == .rw)
  let s1 := if s.is (fRingActive r) then
      let t := if (old ^^^ new) &&& ~~~1#32 = 0 then s else s.mark (fRingCfgErr r)
      t.setFld (fHrgEnable r) (bit (v.getLsbD 0))
    else s.setRaw a new
  if old.getLsbD 0 && !v.getLsbD 0 then stopPair s1 r
  else if !old.getLsbD 0 && v.getLsbD 0 then s1.setFld (fPhase r) 1
  else s1

def fIndAddr : Fld := ⟨0x32010, 0, 32⟩
def fIndBusy : Fld := ⟨0x32014, 2, 1⟩
def fIndRead : Fld := ⟨0x32014, 0, 1⟩
def fIndWrite : Fld := ⟨0x32014, 1, 1⟩
def fIndErr : Fld := ⟨0x32014, 3, 1⟩
def fIndData : Fld := ⟨0x32018, 0, 32⟩

/-- HRG_IND_CTRL: an access begins; READ and WRITE together, or an unmapped address, set ERR (13 R356). The bit written reads 1 until the access
is done (notes/assumptions/64.md). -/
def writeIndirect (s : State) (a : Nat) (v : Word32) : State :=
  let s1 := plainWrite s a v
  match v.getLsbD 0, v.getLsbD 1 with
  | false, false => s1
  | true, true => s1.mark fIndErr
  | rd, _ =>
    if mapped s (4 * (s.fld fIndAddr / 4)) then
      { (((s1.setFld fIndRead (bit rd)).setFld fIndWrite (bit (!rd))).mark fIndBusy) with indirect := some (!rd) }
    else s1.mark fIndErr

/-- PWR_LIMIT keeps to 200 W and its reset value (17 R416). -/
def limitValue (s : State) (v : Word32) : Word32 :=
  BitVec.ofNat 32 (max 200 (min (regReset s 0x1010C).toNat (bits v.toNat 0 11)))

/-- The registers of the package blocks. REBOOT is the boot's (Machine/Boot.lean). -/
def writePackage (s : State) (a : Nat) (v : Word32) : State :=
  if a = 0x2000 then claimTk (plainWrite s a v)
  else if a = 0x2008 then
    let s1 := plainWrite s a v
    if v.getLsbD 6 then clearDetach s1 else s1
  else if a = 0x2104 then
    let s1 := plainWrite s a v
    if v.getLsbD 8 then tkSend s1 else s1
  else if 0x100 ≤ a ∧ a < 0x120 then showPads (plainWrite s a v) (fun i => decide (0x100 + 4 * i = a))
  else if a = 0x1010C then s.setRaw a (limitValue s v)
  else if a = 0x20000 then writeTimCtrl v s
  else if 0x30000 ≤ a ∧ a < 0x31000 then
    let r := (a - 0x30000) / 0x40
    let o := a % 0x40
    if o = 0 then writeRingCtrl s r a v
    else if o ≤ 0x14 ∧ s.is (fRingActive r) then s.mark (fRingCfgErr r)
    else plainWrite s a v
  else if 0x31000 ≤ a ∧ a < 0x31100 then doorbell s ((a - 0x31000) / 4) (bits v.toNat 0 12)
  else if a = 0x32014 then writeIndirect s a v
  else if a = 0x40014 then
    let s1 := plainWrite s a v
    if v.getLsbD 16 then flashGo s1 else s1
  else if a = 0x40280 then
    let s1 := plainWrite s a v
    if v.getLsbD 8 then programOwner s1 (BitVec.ofNat 8 v.toNat) else s1
  else if a = 0x50000 then
    let s1 := plainWrite s a v
    let s2 := if v.getLsbD 9 then releaseFrost s1 else s1
    if v.getLsbD 8 then armFrost s2 else s2
  else plainWrite s a v

/-- A write of the register at an address with all its effects but REBOOT (R8 to R10). -/
def writeCore (s : State) (a : Nat) (v : Word32) : State :=
  if !answers s a || !mapped s a then s
  else if a < 0x80000 then writePackage s a v
  else if a < 0x90000 then writeSite s ((a - 0x80000) / 0x1000) (a % 0x1000) a v
  else
    let d := (a - 0x1000000) / 0x100000
    let block := a % 0x100000 / 0x40000
    let o := a % 0x40000
    if o < 0x20000 then writeRegion s (4 * d + block) o a v
    else if o < 0x30000 then writeCluster s (32 * d + 8 * block + (o - 0x20000) / 0x2000) (o % 0x2000) a v
    else writeDie s d block o a v

/-! ### Commands -/

/-- WINDOW_WRITE (04 R111). -/
def execWindowWrite (a : Agent) (v : Word32) (s : State) : Res := .next (if s.recovery then s else writeWindow s a v)

/-- A register value read over the fabric or inside the package. -/
def readOut (s : State) (a : Nat) : State :=
  let x := regRead s a
  x.2.send (.read a x.1)

/-- WINDOW_READ (04 R111). -/
def execWindowRead (a : Agent) (s : State) : Res := .next (readOut s (fWinLo a).addr)

/-- The address of a low register that latches. -/
def loAddr : LoReg → Nat
  | .timRun => 0x20014
  | .vaLast v => vaBase v.val + 0x1C
  | .ufuse d => hardBase d.val + 0x14

/-- LO_READ_LATCH (02 R65, 06 R164, 08 R218). -/
def execLoReadLatch (r : LoReg) (s : State) : Res := .next (readOut s (loAddr r))

/-- RC_READ: a read of a register, with what it clears (R9). -/
def execRcRead (addr : Word32) (s : State) : Res := .next (readOut s (4 * (addr.toNat / 4)))

/-- HRG_DB (13 R332). -/
def execHrgDb (r : RingIx) (v : Word32) (s : State) : Res := .next (if s.recovery then s else doorbell s r.val (bits v.toNat 0 12))

/-- ENABLE: a write to HRG_CTRL (13 R334). -/
def execHrgEnable (r : RingIx) (v : Word32) (s : State) : Res := .next (writeCore s (ringBase r.val) v)

end Sys2Proof.Machine
end

