-- ==== Sys2Proof/Machine/Image.lean ====
section
/-!
DEFINITION. Machine/Image.lean: the bytes of an image: header, section table, sections, the placement of channels and the relabelling of mirrored
copies (09_timetable_contract.md R223 to R232; 10 R269; 12 R322; 13 R345).
-/
namespace Sys2Proof.Machine

/-! ### Header and section table (R223 to R227) -/

/-- A little-endian field of `n` bytes at offset `o`. -/
def nAt (b : List Byte) (o n : Nat) : Nat := leNat (slice b o n)

/-- An entry of the section table with its payload. -/
structure Sect where
  ix : Nat
  typ : Nat
  treg : Nat
  cluster : Nat
  unit : Nat
  item : Nat
  rsvd : Nat
  off : Nat
  len : Nat
  data : List Byte
deriving DecidableEq, Repr

/-- The header of R224. -/
structure Hdr where
  gen : Nat
  regime : Nat
  cap : Nat
  n : Nat
  k : Nat
  l : Nat
  w : Nat
  f : Nat
  r : Nat
  d : Nat
  menus : Nat
  shapeW : Nat
  shapeH : Nat
  mirror : Nat
  stride : Nat
  map : Nat
  powerBase : Nat
  powerCh : Nat
  count : Nat
  off : Nat
  len : Nat
  va : Nat
deriving DecidableEq, Repr

def headerOf (b : List Byte) : Hdr where
  gen := nAt b 0x04 1
  regime := nAt b 0x05 1
  cap := nAt b 0x08 4
  n := nAt b 0x0C 1
  k := nAt b 0x0D 1
  l := nAt b 0x0E 2
  w := nAt b 0x10 2
  f := nAt b 0x12 1
  r := nAt b 0x13 1
  d := nAt b 0x14 2
  menus := nAt b 0x16 2
  shapeW := nAt b 0x18 1
  shapeH := nAt b 0x19 1
  mirror := nAt b 0x1A 1
  stride := nAt b 0x1B 1
  map := nAt b 0x1C 8
  powerBase := nAt b 0x24 2
  powerCh := nAt b 0x26 2
  count := nAt b 0x28 4
  off := nAt b 0x2C 4
  len := nAt b 0x30 4
  va := nAt b 0x34 1

def Hdr.locked (h : Hdr) : Bool := decide (h.regime = 1)

/-- Entry i of the section table. -/
def sectAt (b : List Byte) (h : Hdr) (i : Nat) : Sect :=
  let o := h.off + 16 * i
  { ix := i, typ := nAt b o 2, treg := nAt b (o + 2) 1, cluster := nAt b (o + 3) 1, unit := nAt b (o + 4) 1, item := nAt b (o + 5) 1
    rsvd := nAt b (o + 6) 2, off := nAt b (o + 8) 4, len := nAt b (o + 12) 4, data := slice b (nAt b (o + 8) 4) (nAt b (o + 12) 4) }

/-- The sections of an image whose table lies inside it. -/
def sectsOf (b : List Byte) (h : Hdr) : List Sect :=
  if h.off + 16 * h.count ≤ b.length then (List.range h.count).map (sectAt b h) else []

/-- The words of a payload. -/
def w32s (l : List Byte) : List Nat := (List.range (l.length / 4)).map (fun i => nAt l (4 * i) 4)
def w64s (l : List Byte) : List Word64 := (List.range (l.length / 8)).map (fun i => BitVec.ofNat 64 (nAt l (8 * i) 8))

def ofType (ss : List Sect) (t : Nat) : List Sect := ss.filter (fun x => decide (x.typ = t))

/-- The section of a type for one unit, cluster or region of the template. -/
def sectFor (ss : List Sect) (t tr c u : Nat) : Option Sect :=
  ss.find? (fun x => decide (x.typ = t) && decide (x.treg = tr) && decide (x.cluster = c) && decide (x.unit = u))

/-! ### Logic frames of a section (R205, R227) -/

/-- The frames of a payload, each with its header and check word; a last piece that is cut short is a frame by itself. -/
def framesOf : Nat → List Word64 → List (List Word64)
  | 0, _ => []
  | fuel + 1, ws => match ws with
    | [] => []
    | h :: _ => ws.take (frameLength h.toNat + 2) :: framesOf fuel (ws.drop (frameLength h.toNat + 2))

def sectFrames (x : Sect) : List (List Word64) := framesOf (x.data.length / 8) (w64s x.data)

/-! ### Package sections -/

/-- A lane-map entry (R227). -/
structure LaneEntry where
  sect : Nat
  channel : Nat
  treg : Nat
  cluster : Nat
  queue : Nat
  lane : Nat
deriving DecidableEq, Repr

def laneEntries (ss : List Sect) : List LaneEntry :=
  (ofType ss 0x10).flatMap (fun x => (List.range (x.data.length / 8)).map (fun i =>
    let o := 8 * i
    ⟨x.ix, nAt x.data o 1, nAt x.data (o + 1) 1, nAt x.data (o + 2) 1, nAt x.data (o + 3) 1, nAt x.data (o + 4) 2⟩))

/-- A port source: section, unit x and y in the shape, port, source template region (R227). -/
structure PortSource where
  sect : Nat
  x : Nat
  y : Nat
  port : Nat
  treg : Nat
deriving DecidableEq, Repr

def portSources (ss : List Sect) : List PortSource :=
  (ofType ss 0x0C).flatMap (fun x => (List.range (x.data.length / 4)).map (fun i =>
    ⟨x.ix, nAt x.data (4 * i) 1, nAt x.data (4 * i + 1) 1, nAt x.data (4 * i + 2) 1, nAt x.data (4 * i + 3) 1⟩))

/-- The layers of a Layers section (13 R345) from offset `o`: the layers, and the offset after them. -/
def layersFrom (b : List Byte) : Nat → Nat → List Layer × Nat
  | 0, o => ([], o)
  | n + 1, o =>
    let np := nAt b (o + 6) 2
    let nq := nAt b (o + 8) 2
    let places := (List.range np).map (fun i =>
      let p := o + 16 + 16 * i
      (⟨nAt b p 1, nAt b (p + 1) 1, nAt b (p + 2) 1, nAt b (p + 3) 1, nAt b (p + 4) 2, nAt b (p + 6) 2, nAt b (p + 8) 2, nAt b (p + 10) 2,
        nAt b (p + 12) 1, nAt b (p + 13) 1⟩ : LayerPlace))
    let q0 := o + 16 + 16 * np
    let pins := (List.range nq).map (fun i =>
      let p := q0 + 8 * i
      (⟨nAt b p 2, nAt b (p + 2) 2, BitVec.ofNat 16 (nAt b (p + 4) 2), sext 8 (nAt b (p + 6) 1)⟩ : LayerPin))
    let rest := layersFrom b n (q0 + 8 * nq)
    (⟨nAt b o 1, nAt b (o + 1) 1, nAt b (o + 2) 2, nAt b (o + 4) 2, places, pins, false⟩ :: rest.1, rest.2)

/-- A zero-point section of the image reaches the zero-point sets of a placement (03 R70, 09 R227). -/
def suppliesZeros (ss : List Sect) (g : Nat) (p : LayerPlace) : Bool :=
  (ofType ss 5).any (fun x => decide (x.treg = p.tregion) && decide (x.cluster = p.cluster) && decide (x.unit = p.unit) &&
    decide (nAt x.data 0 4 < 4 * (p.zp + p.ni / g)) && decide (4 * p.zp < nAt x.data 0 4 + (x.data.length - 8) / 8))

def layersOf (ss : List Sect) : List Layer :=
  ((ofType ss 0x13).flatMap (fun x => (layersFrom x.data (nAt x.data 0 4) 8).1)).map (fun l =>
    { l with zeroGiven := l.places.any (suppliesZeros ss l.g) })

/-! #### Stages (10 R269) -/

structure StageHead where
  steps : Nat
  stride : Nat
  descs : Nat
  bufs : Nat
  hqs : Nat
deriving DecidableEq, Repr

def stageHead (b : List Byte) : StageHead := ⟨nAt b 0 2, nAt b 4 6, nAt b 12 2, nAt b 14 2, nAt b 16 2⟩

/-- The lengths of the parts of a Stages section. -/
def stageDescOff (h : StageHead) : Nat := 0x18 + 16 * h.steps
def stageBufOff (h : StageHead) : Nat := stageDescOff h + 56 * h.descs
def stageHqOff (h : StageHead) : Nat := stageBufOff h + 8 * h.bufs
def stageLen (h : StageHead) : Nat := stageHqOff h + 4 * h.hqs

def stageStepAt (b : List Byte) (i : Nat) : StageStep :=
  let v := nAt b (0x18 + 16 * i) 16
  ⟨BitVec.ofNat 64 v, decide (bits v 64 1 = 1), decide (bits v 65 1 = 1), decide (bits v 66 1 = 1), decide (bits v 67 1 = 1), bits v 80 16⟩

/-- A descriptor entry: template region, descriptor, and its 12 registers. -/
def stageDescAt (b : List Byte) (h : StageHead) (i : Nat) : Nat × Nat × List Word32 :=
  let o := stageDescOff h + 56 * i
  (nAt b o 1, nAt b (o + 1) 1, (List.range 12).map (fun j => BitVec.ofNat 32 (nAt b (o + 8 + 4 * j) 4)))

def stageDescs (ss : List Sect) : List (Nat × Nat × List Word32) :=
  (ofType ss 0x20).flatMap (fun x => (List.range (stageHead x.data).descs).map (stageDescAt x.data (stageHead x.data)))

/-- The image references memory tiles: a descriptor side of kind 0b000 lies in their address range (10 R257, 00 R10). -/
def usesMemory (ss : List Sect) : Bool :=
  (stageDescs ss).any (fun e =>
    (decide (snapSkind e.2.2 = 0) && decide (0x10000000000 ≤ snapSrc e.2.2)) ||
      (decide (snapDkind e.2.2 = 0) && decide (0x10000000000 ≤ snapDst e.2.2)))

/-! #### Fabric (12 R322) -/

def calGroups (b : List Byte) : List (Nat × Nat × Nat × Nat) :=
  (List.range (nAt b 0 2)).map (fun i => (nAt b (8 + 8 * i) 1, nAt b (9 + 8 * i) 1, nAt b (10 + 8 * i) 1, nAt b (11 + 8 * i) 1))

/-- A slot entry: site, lead, slot, link, beat, stream. -/
def calSlots (b : List Byte) : List (Nat × Nat × CalSlot) :=
  let o := 8 + 8 * nAt b 0 2
  (List.range (nAt b 2 2)).map (fun i =>
    let p := o + 8 * i
    (nAt b p 1, nAt b (p + 1) 1, ⟨nAt b (p + 2) 1, bits (nAt b (p + 3) 1) 0 4, bits (nAt b (p + 3) 1) 4 3, nAt b (p + 4) 2⟩))

/-- The tables of a Stream contexts section: where each begins after its count. -/
def ctxCount (b : List Byte) : Nat := nAt b 0 4
def txmapOff (b : List Byte) : Nat := 4 + 16 * ctxCount b
def txmapCount (b : List Byte) : Nat := nAt b (txmapOff b) 4
def mcOff (b : List Byte) : Nat := txmapOff b + 4 + 8 * txmapCount b
def mcCount (b : List Byte) : Nat := nAt b (mcOff b) 4
def fabricLen (b : List Byte) : Nat := mcOff b + 4 + 40 * mcCount b

/-- Context entries: number, CFG, TARGET, LOCK. -/
def ctxEntries (b : List Byte) : List (Nat × List Nat) :=
  (List.range (ctxCount b)).map (fun i => (nAt b (4 + 16 * i) 2, (List.range 3).map (fun j => nAt b (8 + 16 * i + 4 * j) 4)))
def txmapEntries (b : List Byte) : List (Nat × Nat × Nat) :=
  (List.range (txmapCount b)).map (fun i =>
    let o := txmapOff b + 4 + 8 * i
    (nAt b o 1, nAt b (o + 1) 1, nAt b (o + 4) 4))
def mcEntries (b : List Byte) : List (Nat × List Nat) :=
  (List.range (mcCount b)).map (fun i =>
    let o := mcOff b + 4 + 40 * i
    (nAt b o 2, (List.range 9).map (fun j => nAt b (o + 4 + 4 * j) 4)))

/-! ### Placement (R229, R230) -/

/-- The positions of the template's regions in ascending bit order (R229). -/
def shapeCells (h : Hdr) : List (Nat × Nat) := ((List.range 64).filter (fun i => decide (bits h.map i 1 = 1))).map (fun i => (i % 8, i / 8))

/-- Region (X, Y) of the grid, as 4 × die + region. -/
def gridRegion (x y : Nat) : Nat := 4 * (4 * (y / 2) + x / 2) + 2 * (y % 2) + x % 2

/-- The regions of a copy with its north-west corner at (ax, ay); none where it leaves the grid. -/
def copyAt (h : Hdr) (ax ay : Nat) (mx my : Bool) : Option (List Nat) :=
  if 8 < ax + h.shapeW ∨ 8 < ay + h.shapeH then none
  else some ((shapeCells h).map (fun p =>
    gridRegion (ax + (if mx then h.shapeW - 1 - p.1 else p.1)) (ay + (if my then h.shapeH - 1 - p.2 else p.2))))

/-- The orientations in the order of R230. -/
def orientations (h : Hdr) : List (Bool × Bool) :=
  [(false, false), (true, false), (false, true), (true, true)].filter (fun o =>
    (!o.1 || decide (bits h.mirror 0 1 = 1)) && (!o.2 || decide (bits h.mirror 1 1 = 1)))

/-- One anchor: the first orientation that fits on free regions. -/
def placeAt (h : Hdr) (got : List Placement) (a : Nat) : List Placement :=
  if 64 / h.r ≤ got.length then got
  else
    let used := got.flatMap (fun p => p.regions)
    match (orientations h).findSome? (fun o => match copyAt h (a % 8) (a / 8) o.1 o.2 with
      | some rs => if rs.any used.contains then none else some (⟨rs, o.1, o.2⟩ : Placement)
      | none => none) with
    | some p => got ++ [p]
    | none => got

/-- The copies placed. -/
def placements (h : Hdr) : List Placement := (List.range 64).foldl (placeAt h) []

/-! ### Relabelling (R231) -/

def mPort (p : Placement) (q : Nat) : Nat :=
  if p.mirrorX ∧ q % 2 = 1 then (q + 2) % 4 else if p.mirrorY ∧ q % 2 = 0 then (q + 2) % 4 else q
def mMask (p : Placement) (m : Nat) : Nat := (List.range 4).foldl (fun a i => a + (if bits m i 1 = 1 then 2 ^ mPort p i else 0)) 0
def mUnit (p : Placement) (u : Nat) : Nat :=
  if 8 ≤ u then u else (u ^^^ (if p.mirrorX then 3 else 0)) ^^^ (if p.mirrorY then 4 else 0)
def mCluster (p : Placement) (c : Nat) : Nat := (c ^^^ (if p.mirrorX then 1 else 0)) ^^^ (if p.mirrorY then 6 else 0)

/-- The cluster, and the unit, of the package that a template's stand at. -/
def placedCluster (p : Placement) (tr c : Nat) : Nat := 8 * p.regions.getD tr 0 + mCluster p c
def placedUnit (p : Placement) (tr c u : Nat) : Nat := 8 * placedCluster p tr c + mUnit p u

/-- A word with a field replaced. -/
def putW (w : Word64) (lo n v : Nat) : Word64 :=
  (w &&& ~~~(BitVec.ofNat 64 (2 ^ n - 1) <<< lo)) ||| (BitVec.ofNat 64 (v % 2 ^ n) <<< lo)

/-- A dot unit's word. -/
def relabelDot (p : Placement) (w : Word64) : Word64 :=
  let w1 := if opcode w ∈ [0x01, 0x02, 0x07, 0x08, 0x0B] then putW w 56 2 (mPort p (wf w 56 2)) else w
  match opcode w with
  | 0x01 | 0x02 => putW w1 34 2 (mPort p (wf w 34 2))
  | 0x05 => putW w1 48 4 (mUnit p (wf w 48 4))
  | 0x07 => putW w1 54 2 (mPort p (wf w 54 2))
  | 0x08 => putW w1 52 4 (mMask p (wf w 52 4))
  | _ => w1

/-- A function unit's word in channel i: its CID (R232) and its sum-bus destination. -/
def relabelFun (p : Placement) (i stride : Nat) (w : Word64) : Word64 :=
  if opcode w = 0x1C then putW w 37 6 (wEout w + i * stride)
  else if opcode w = 0x16 ∧ wDst w = 16 then putW w 44 4 (mUnit p (wBdest w))
  else w

/-- DOT_LINK: input p's output and enable move with the port. -/
def relabelLink (p : Placement) (v : Nat) : Nat :=
  (List.range 4).foldl (fun a q =>
    let f := bits v (3 * q) 3
    a + 2 ^ (3 * mPort p q) * (mPort p (f % 4) + f / 4 * 4)) 0

/-- QUE_ROUTE. -/
def relabelRoute (p : Placement) (v : Nat) : Nat :=
  mUnit p (bits v 0 3) + 2 ^ 3 * mPort p (bits v 3 2) + 2 ^ 5 * bits v 5 1 + 2 ^ 8 * mUnit p (bits v 8 3) + 2 ^ 11 * mPort p (bits v 11 2) +
    2 ^ 13 * bits v 13 1

end Sys2Proof.Machine
end

