-- ==== Sys2Proof/Machine/ImageCheck.lean ====
section
/-!
DEFINITION. Machine/ImageCheck.lean: the loader's checks in code order, each answering the section-table entry that fails
(09_timetable_contract.md R225, R228, R236 and the rules that its table names).
-/
namespace Sys2Proof.Machine

/-- The section index of the header, or of a check over the whole image (R238). -/
def wholeImage : Nat := 0xFFFF

/-- The first section that a test refuses. -/
def badSect (ss : List Sect) (p : Sect → Bool) : Option Nat := (ss.find? p).map (·.ix)

def whole (b : Bool) : Option Nat := if b then some wholeImage else none

/-! ### FORMAT, GENERATION, CAPABILITY (R223 to R225) -/

/-- Two byte ranges overlap. -/
def overlaps (a n b m : Nat) : Bool := decide (0 < n) && decide (0 < m) && decide (a < b + m) && decide (b < a + n)

def headerWrong (b : List Byte) (h : Hdr) : Bool :=
  decide (b.length < 64) || decide (nAt b 0 4 ≠ 0x4D495754) || decide (nAt b 6 2 ≠ 0x40) || decide (h.len ≠ b.length) || decide (4 ≤ h.mirror) ||
    decide (16 ≤ h.va) || decide (nAt b 0x35 11 ≠ 0) || decide (b.length < h.off + 16 * h.count) || overlaps 0 64 h.off (16 * h.count)

def sectBounds (b : List Byte) (h : Hdr) (ss : List Sect) (x : Sect) : Bool :=
  decide (x.off % 8 ≠ 0) || decide (b.length < x.off + x.len) || overlaps x.off x.len 0 64 || overlaps x.off x.len h.off (16 * h.count) ||
    ss.any (fun y => decide (y.ix < x.ix) && overlaps x.off x.len y.off y.len)

def checkFormat (b : List Byte) (h : Hdr) (ss : List Sect) : Option Nat :=
  if headerWrong b h then some wholeImage else badSect ss (sectBounds b h ss)

/-- GEN = 1, or higher with COMPATIBLE. -/
def checkGeneration (h : Hdr) : Option Nat :=
  whole (!(decide (h.gen = 1) || (decide (1 < h.gen) && decide (bits h.cap 0 1 = 1))))

/-- A weight format of a register section or a layer. -/
def sectFormats (x : Sect) : List Nat :=
  if x.typ = 0x02 then [bits (nAt x.data 4 4) 0 3]
  else if x.typ = 0x13 then ((layersFrom x.data (nAt x.data 0 4) 8).1).map (fun l => l.format) else []

def checkCapability (h : Hdr) (ss : List Sect) : Option Nat :=
  if bits h.cap 5 11 ≠ 0 then some wholeImage
  else badSect ss (fun x =>
    (decide (x.typ = 0x30 ∨ x.typ = 0x31) && decide (bits h.cap 1 1 = 0)) ||
    (decide (x.typ = 0x20) && usesMemory [x] && decide (bits h.cap 2 1 = 0)) ||
    (decide (x.typ = 0x0B) && decide (bits h.cap 3 1 = 0)) ||
    ((sectFormats x).contains 2 && decide (bits h.cap 4 1 = 0)))

/-! ### SECTION (R226 to R228, 10 R269, 12 R323) -/

/-- The steward addresses of the words of a register section, for a unit's layout. -/
def dotRegOffsets : List Nat :=
  [0x00, 0x08, 0x10, 0x14, 0x18, 0x1C, 0x20, 0x24, 0x28, 0x2C, 0x30, 0x34, 0x38, 0x3C, 0x40, 0x44, 0x48, 0x4C, 0x64, 0x80, 0x90, 0xA0, 0xB0]

/-- A word sets only bits that can be written. -/
def writableOnly (fs : List FieldSpec) (v : Nat) : Bool :=
  (BitVec.ofNat 32 v) &&& ~~~(maskOf fs (fun c => c != .ro && c != .live)) = 0

/-- The scope of a type: whether it names a template region, a cluster, and which units. -/
def scopeOk (h : Hdr) (x : Sect) : Bool :=
  let inTemplate := decide (x.treg < h.r)
  let package := decide (x.treg = 0xFF) && decide (x.cluster = 0xFF) && decide (x.unit = 0xFF)
  let plain := decide (x.item = 0)
  match x.typ with
  | 0x01 | 0x02 | 0x03 | 0x04 | 0x05 => inTemplate && decide (x.cluster < 8) && decide (x.unit < 8) && plain
  | 0x06 | 0x07 => inTemplate && decide (x.cluster < 8) && decide (x.unit = 8 ∨ x.unit = 9) && plain
  | 0x08 | 0x09 | 0x0A | 0x0B => inTemplate && decide (x.cluster < 8) && decide (x.unit = 0xFF) && plain
  | 0x0C => inTemplate && decide (x.cluster = 0xFF) && decide (x.unit = 0xFF) && plain
  | 0x11 => package && decide (x.item < 4)
  | 0x10 | 0x12 | 0x13 | 0x20 | 0x30 | 0x31 => package && plain
  | t => decide (0x8000 ≤ t)

/-- PERIOD of the register section of the same unit; the reset value with none. -/
def periodOf (ss : List Sect) (x : Sect) : Nat :=
  match sectFor ss (x.typ + 1) x.treg x.cluster x.unit with
  | some y => bits (nAt y.data 0 4) 0 (if x.typ = 0x01 then 10 else 9)
  | none => 0

/-- Words from a start word fit a memory. -/
def startFits (x : Sect) (size : Nat) : Bool :=
  decide (8 ≤ x.len) && decide (x.len % 8 = 0) && decide (nAt x.data 4 4 = 0) && decide (nAt x.data 0 4 + (x.len / 8 - 1) ≤ size)

/-- STR_BUFb of a buffer: HALF_KIB is 1 to 512, and both halves lie in the cluster store of 1 MiB (10 R264). The code that refuses a staged image by
R263 or R264 is the model's choice (notes/assumptions/71.md). -/
def bufferOk (v : Nat) : Bool :=
  decide (1 ≤ bits v 17 10) && decide (bits v 17 10 ≤ 512) && decide (8 * bits v 0 17 + 2 * 1024 * bits v 17 10 ≤ 0x100000)

def stagesOk (h : Hdr) (b : List Byte) : Bool :=
  let s := stageHead b
  let descs := (List.range s.descs).map (stageDescAt b s)
  decide (1 ≤ s.steps) && decide (s.steps ≤ 1024) && decide (b.length = stageLen s) &&
    ((List.range s.steps).map (stageStepAt b)).any (fun x => x.last) &&
    descs.all (fun e => decide (e.1 < h.r) && decide (e.2.1 < 64)) &&
    (List.range s.bufs).all (fun i => decide (nAt b (stageBufOff s + 8 * i) 1 < h.r) && decide (nAt b (stageBufOff s + 8 * i + 1) 1 < 64) &&
      bufferOk (nAt b (stageBufOff s + 8 * i + 4) 4)) &&
    (List.range s.hqs).all (fun i => decide (nAt b (stageHqOff s + 4 * i) 1 % 16 < h.r))

/-- The lead of a group of a light tile. -/
def leadOk (s : State) (site lead : Nat) : Bool :=
  decide (site < 16) && decide (s.tile site = 1) && decide (lead < 32) && isLead s site lead

def calendarOk (s : State) (b : List Byte) : Bool :=
  let gs := calGroups b
  decide (b.length = 8 + 8 * nAt b 0 2 + 8 * nAt b 2 2) && gs.all (fun g => leadOk s g.1 g.2.1) &&
    (calSlots b).all (fun e => match gs.find? (fun g => decide (g.1 = e.1) && decide (g.2.1 = e.2.1)) with
      | some g => decide (e.2.2.slot < g.2.2.2)
      | none => false)

def contextsOk (s : State) (h : Hdr) (b : List Byte) : Bool :=
  let cs := ctxEntries b
  let field (e : Nat × List Nat) (i lo w : Nat) := bits (e.2.getD i 0) lo w
  decide (b.length = fabricLen b) &&
    cs.all (fun e =>
      let locked := decide (field e 0 3 1 = 1)
      let kind := field e 0 0 3
      decide (e.1 < 16384) && decide (e.1 ≠ 0) && !(locked && !h.locked) && !(locked && decide (kind = 3 ∨ kind = 4)) &&
        (!locked || (decide (16 ≤ field e 2 0 13) && decide (field e 2 0 13 ≤ 8191))) &&
        (if kind = 2 ∧ locked then decide (s.tile (field e 1 0 4) = 1)
         else decide (kind ≠ 2 ∧ kind ≠ 4) || leadOk s (field e 1 0 4) (field e 1 4 5))) &&
    (List.range 16).all (fun d => decide (((cs.filter (fun e => decide (e.1 / 1024 = d))).map (fun e => field e 0 8 7)).foldl (· + ·) 0 ≤ 8192)) &&
    (txmapEntries b).all (fun e => decide (e.2.1 < 16) && leadOk s e.1 (bits e.2.2 19 5)) &&
    (mcEntries b).all (fun e => decide (e.1 < 1024) && (List.range 8).all (fun i =>
      let m := e.2.getD (i + 1) 0
      decide (bits (e.2.getD 0 0) i 1 = 0) || decide (bits m 9 1 = 1) || leadOk s (bits m 0 4) (bits m 4 5)))

/-- The length and the content of a section suit its type. -/
def lengthOk (s : State) (h : Hdr) (ss : List Sect) (x : Sect) : Bool :=
  match x.typ with
  | 0x01 => decide (x.len % 8 = 0) && decide (x.len ≤ 4096) && decide (x.len / 8 = periodOf ss x)
  | 0x06 => decide (x.len % 8 = 0) && decide (x.len ≤ 2048) && decide (x.len / 8 = periodOf ss x)
  | 0x02 => decide (x.len = 92) && (dotRegOffsets.zip (w32s x.data)).all (fun p => writableOnly (dotRegs p.1) p.2)
  | 0x07 => decide (x.len = 4) && writableOnly (funRegs 0) (nAt x.data 0 4)
  | 0x03 => startFits x 16384
  | 0x04 => startFits x 1024
  | 0x05 => startFits x 256
  | 0x08 => decide (8 ≤ x.len) && decide (nAt x.data 4 4 = 0) && decide (nAt x.data 0 4 + (x.len - 8) ≤ 0x100000)
  | 0x09 => decide (x.len = 144) && (List.range 16).all (fun q =>
      writableOnly (bankQRegs q 0) (nAt x.data (8 * q) 4) && writableOnly (bankQRegs q 0x18) (nAt x.data (8 * q + 4) 4)) &&
      (List.range 4).all (fun i => writableOnly (portQRegs 0) (nAt x.data (128 + 4 * i) 4))
  | 0x0A => decide (x.len = 8) && writableOnly (clusterRegs 0xA00) (nAt x.data 0 4) && writableOnly (clusterRegs 0xA04) (nAt x.data 4 4)
  | 0x0B => decide (x.len % 8 = 0)
  | 0x0C => decide (x.len % 4 = 0)
  | 0x10 => decide (x.len % 8 = 0)
  | 0x11 => decide (x.len = 16)
  | 0x12 => decide (x.len = 32) && (w32s x.data).all (fun v => writableOnly (pkgRegs 0x100) v)
  | 0x13 => decide (8 ≤ x.len) && decide ((layersFrom x.data (nAt x.data 0 4) 8).2 = x.len)
  | 0x20 => stagesOk h x.data
  | 0x30 => calendarOk s x.data
  | 0x31 => contextsOk s h x.data
  | _ => true

/-- A register section enables a unit that has no timetable section (R228). -/
def loneEnable (ss : List Sect) (x : Sect) : Bool :=
  decide (x.typ = 0x02 ∨ x.typ = 0x07) && decide (bits (nAt x.data 0 4) 31 1 = 1) && (sectFor ss (x.typ - 1) x.treg x.cluster x.unit).isNone

def checkSection (s : State) (h : Hdr) (ss : List Sect) : Option Nat :=
  badSect ss (fun x => decide (x.rsvd ≠ 0) || !scopeOk h x || !lengthOk s h ss x || loneEnable ss x)

/-! ### REGIME to MEMORY -/

def within (a b v : Nat) : Bool := decide (a ≤ v) && decide (v ≤ b)

def checkRegime (h : Hdr) : Option Nat :=
  whole (!(decide (h.regime = 1 ∨ h.regime = 2) && within 1 8 h.f && decide (1 ≤ h.r) && within 1 8 h.shapeW && within 1 8 h.shapeH &&
    decide (h.stride < 64) && decide (bits h.menus 0 1 = 1) &&
    (if h.locked then within 1 16 h.k && within 1 160 h.l && within 16 8191 h.w
     else decide (h.l = 0) && decide (h.w = 0) && decide (h.d = 0))))

/-- RATIO: against the measured crossing clock from PLL on. -/
def checkRatio (s : State) (h : Hdr) : Option Nat :=
  whole (!within 24 40 h.n || (decide (4 ≤ s.fld fState) && decide (gradeHz s < h.n * s.fld fHz)))

/-- E: ceil(30 ns × array clock) (02 R63). -/
def egressCycles (s : State) (n : Nat) : Nat :=
  let hz := if s.fld fHz = 0 then 40000000 else s.fld fHz
  (30 * n * hz + 999999999) / 1000000000

def checkBudget (s : State) (h : Hdr) : Option Nat := whole (h.locked && decide (h.w + h.d + egressCycles s h.n ≠ h.l * h.n))

def checkShape (h : Hdr) : Option Nat :=
  whole (decide (64 < h.r) || decide ((shapeCells h).length ≠ h.r) ||
    (shapeCells h).any (fun p => decide (h.shapeW ≤ p.1) || decide (h.shapeH ≤ p.2)) || decide ((placements h).length < 64 / h.r))

/-- POWER, in units of 0.1 W against PWR_LIMIT (17 R416). -/
def checkPower (s : State) (h : Hdr) (channels : Nat) : Option Nat :=
  whole (decide (10 * s.fld fWatts < h.powerBase + channels * h.powerCh))

def checkMemory (h : Hdr) (ss : List Sect) : Option Nat :=
  if !h.locked then none
  else match badSect ss (fun x => decide (x.typ = 0x20)) with
    | some i => some i
    | none => whole (decide (bits h.cap 2 1 = 1))

/-- HOLD: a queue of a locked image (07 R174). -/
def checkHold (h : Hdr) (ss : List Sect) : Option Nat :=
  if !h.locked then none
  else badSect ss (fun x =>
    (decide (x.typ = 0x02) && (List.range 4).any (fun p => decide (bits (nAt x.data (76 + 4 * p) 4) 0 1 = 1))) ||
    (decide (x.typ = 0x09) && ((List.range 16).any (fun q => decide (bits (nAt x.data (8 * q) 4) 27 1 = 1)) ||
      (List.range 4).any (fun i => decide (bits (nAt x.data (128 + 4 * i) 4) 0 1 = 1)))))

/-! ### DRIVER, WORD, PASS, MENU_ROW, FIELD -/

/-- The routing words that a section's frames configure. -/
def sectRouting (x : Sect) : Store :=
  (sectFrames x).foldl (fun m f =>
    let hd := (f.headD 0).toNat
    if frameKind hd = 1 then m.putAll (128 * frameColumn hd) (slice f 1 (frameLength hd)) else m) {}

/-- DRIVER: both ends of a length-12 wire are enabled (08 R195). -/
def checkDriver (ss : List Sect) : Option Nat :=
  badSect (ofType ss 0x0B) (fun x => (List.range 96).any (fun c => !(clashesIn (sectRouting x) c).isEmpty))

/-- The reserved bits below the opcode of a dot unit's word, by opcode (05 R117 to R138): the number of low bits, and further ones. -/
def dotReserved (op : Nat) : Nat :=
  match op with
  | 0x01 | 0x02 => 2 ^ 34 - 1
  | 0x03 => 2 ^ 45 - 1
  | 0x04 => 2 ^ 42 - 1
  | 0x05 => 2 ^ 48 - 1 + 3 * 2 ^ 56
  | 0x06 => 2 ^ 52 - 1 + 3 * 2 ^ 56
  | 0x07 => 2 ^ 54 - 1
  | 0x08 => 2 ^ 52 - 1
  | 0x09 => 2 ^ 42 - 1
  | 0x0B => 2 ^ 56 - 1
  | 0x0C => 2 ^ 53 - 1
  | _ => 2 ^ 58 - 1

/-- The reserved bits of a function unit's word (06 R140, R146). -/
def funReserved (op : Nat) : Nat :=
  match op with
  | 0x09 => 2 ^ 42 - 1
  | 0x0B => 2 ^ 53 - 1
  | 0x0C => 2 ^ 53 - 1
  | 0x10 => 63 * 2 ^ 15
  | 0x13 => 3 * 2 ^ 19
  | 0x14 => 2 ^ 21 - 2 ^ 14
  | 0x16 => 2 ^ 21 - 2 ^ 14
  | 0x17 => 2 ^ 21 - 2 ^ 7
  | 0x18 => 2 ^ 21 - 2 ^ 2
  | 0x19 => 2 ^ 21 - 2 ^ 5
  | 0x1A | 0x1B => 2 ^ 21 - 2 ^ 15
  | 0x1C => 2 ^ 20
  | 0x11 | 0x12 | 0x15 => 2 ^ 21 - 1
  | _ => 2 ^ 58 - 1

def isOpWord (op : Nat) : Bool := decide (0x10 ≤ op) && decide (op ≤ 0x1C)

/-- A word that WORD refuses (05 R113, 06 R140). A SYNC that stands elsewhere than at word 0, or a word 0 that is another word, is not refused: 05 R135
says how they play. -/
def wordBad (dot : Bool) (w : Word64) : Bool :=
  let op := opcode w
  let known := if dot then decide (op ≤ 0x0C) else decide (op ∈ [0x00, 0x09, 0x0A, 0x0B, 0x0C]) || isOpWord op
  let mask : Word64 := BitVec.ofNat 64 (if dot then dotReserved op else funReserved op)
  !known || decide (w &&& mask ≠ 0) || (dot && decide (op = 0x05) && decide (9 < wf w 48 4)) ||
    (!dot && decide (op = 0x0B) && decide (16 ≤ wf w 53 5))

/-- A word of a dot unit whose index lies outside a half of a staged image: a scale index above 63, a zero-point index above 31 (10 R263). -/
def halfBad (w : Word64) : Bool :=
  (decide (opcode w = 0x01 ∨ opcode w = 0x02) && decide (31 < wf w 46 6)) || (decide (opcode w = 0x03) && decide (63 < wf w 45 7))

def timetables (ss : List Sect) : List Sect := ss.filter (fun x => decide (x.typ = 0x01 ∨ x.typ = 0x06))

def checkWord (h : Hdr) (ss : List Sect) : Option Nat :=
  badSect (timetables ss) (fun x =>
    (w64s x.data).any (fun w => wordBad (decide (x.typ = 0x01)) w || (!h.locked && decide (x.typ = 0x01) && halfBad w)))

/-- The words of a timetable as they play: word 0 as SYNC (05 R135). -/
def playedWords (x : Sect) : List Word64 :=
  match w64s x.data with
  | [] => []
  | _ :: r => 0x2800000000000000 :: r

/-- Cycles of a word that does not wait (05 R114, 06 R146). -/
def wordCycles (dot : Bool) (w : Word64) : Nat :=
  if opcode w = 0x09 then max 1 (wf w 42 16) else if !dot && isOpWord (opcode w) then duration w else 1

/-- The register section of a timetable's unit enables it. -/
def enabledTt (ss : List Sect) (x : Sect) : Option Nat :=
  match sectFor ss (x.typ + 1) x.treg x.cluster x.unit with
  | some y => if bits (nAt y.data 0 4) 31 1 = 1 then some (nAt y.data 0 4) else none
  | none => none

/-- PASS: a locked pass lasts k × N cycles, k that of the unit's own control register (04 R106). -/
def checkPass (h : Hdr) (ss : List Sect) : Option Nat :=
  if !h.locked then none
  else badSect (timetables ss) (fun x => match enabledTt ss x with
    | some v => decide (((playedWords x).map (wordCycles (decide (x.typ = 0x01)))).foldl (· + ·) 0 ≠ (bits v 24 4 + 1) * h.n)
    | none => false)

def enabledMenus (h : Hdr) : List Nat := (List.range 16).filter (fun m => decide (bits h.menus m 1 = 1))

/-- The base of menu m in a register section. -/
def menuBase (y : Sect) (m : Nat) : Nat := bits (nAt y.data (24 + 4 * (m / 2)) 4) (16 * (m % 2)) 9

/-- MENU_ROW (04 R91). In a staged image a row field plus a base is at most 255, and every base lies below 256 (10 R263). -/
def checkMenuRow (h : Hdr) (ss : List Sect) : Option Nat :=
  let last := if h.locked then 511 else 255
  match badSect (ofType ss 0x01) (fun x => match sectFor ss 0x02 x.treg x.cluster x.unit with
    | none => false
    | some y =>
      let top := ((if h.locked then enabledMenus h else List.range 16).map (menuBase y)).foldl max 0
      (playedWords x).any (fun w => decide (opcode w = 0x01 ∨ opcode w = 0x02) && decide (last < wf w 37 9 + top))) with
  | some i => some i
  | none => if h.locked then none else badSect (ofType ss 0x02) (fun y => (List.range 16).any (fun m => decide (255 < menuBase y m)))

/-- Words of the table that an operation reads (06 R147, R148, R158): THRESH reads up to the highest enabled menu. -/
def tableWords (top : Nat) (w : Word64) : Nat :=
  match opcode w with
  | 0x10 => 129 + (if wf w 14 1 = 1 then (wLen w + 3) / 4 else 0)
  | 0x14 => 129
  | 0x13 => 2 * ((wLen w + 3) / 4)
  | 0x1C => 16 * top + (wLen w + 1) / 2
  | _ => 0

/-- An operation word with a field out of range (06 R142, R146, R150, R151, R153, R154, R158). AWIDE and BWIDE name a wide row whatever the source code
is, so that BWIDE limits LEN with SRC2 31 too (the model's choice, notes/assumptions/24.md). -/
def opFieldBad (top : Nat) (w : Word64) : Bool :=
  let op := opcode w
  let copy := copies op
  let short := decide (wSrc w = 16) || (decide (op = 0x16) && (decide (wf w 5 1 = 1) || decide (wf w 6 1 = 1) || decide (wf w 7 1 = 1) || decide (wDst w = 16)))
  isOpWord op &&
    (decide (16 < wSrc w) || (decide (op ≠ 0x1C) && decide (20 < wDst w)) || (decide (op = 0x16) && decide (wDst w = 16) && decide (9 < wBdest w)) ||
      (short && decide (32 < wLen w)) || decide (47 < wQin w) || (decide (op = 0x16) && decide (47 < wf w 8 6)) ||
      (copy && decide (wSrc w = 16)) || (decide (op = 0x18) && decide (16 < wLen w)) ||
      (decide (op = 0x16) && decide (15 < wSrc2 w) && decide (wSrc2 w ≠ 31)) || (decide (op = 0x1A ∨ op = 0x1B) && decide (15 < wSrc2 w)) ||
      (decide (op ≠ 0x16) && decide (op ≠ 0x1C) && decide (wDst w = 16)) ||
      (decide (op = 0x1C) && decide (32 < wf w 14 5 + wLen w)) ||
      (decide (tableWords top w ≠ 0) && decide (0x20000 < 8 * wTbase w + tableWords top w)))

def ctrlBad (h : Hdr) (top : Nat) (v period : Nat) : Bool :=
  decide (bits v 31 1 = 1) && (!within 1 top period || (h.locked && decide (bits v 24 4 ≠ h.k - 1)))

/-- FIELD. -/
def checkField (h : Hdr) (ss : List Sect) : Option Nat :=
  let top := (enabledMenus h).foldl max 0
  badSect ss (fun x => match x.typ with
    | 0x02 =>
      let v := nAt x.data 0 4
      ctrlBad h 512 v (bits v 0 10) || (sectFormats x).any (fun f => decide (2 < f)) ||
        (List.range 4).any (fun i => (List.range 4).any (fun j => decide (47 < bits (nAt x.data (56 + 4 * i) 4) (8 * j) 6)))
    | 0x07 => ctrlBad h 256 (nAt x.data 0 4) (bits (nAt x.data 0 4) 0 9)
    | 0x06 => (w64s x.data).any (opFieldBad top)
    | 0x13 => (sectFormats x).any (fun f => decide (2 < f))
    | _ => false)

/-! ### COLLIDE, PATH, QUEUE -/

/-- The ports that a dot unit's word sends beats out of. -/
def wordOuts (w : Word64) : List Nat :=
  match opcode w with
  | 0x01 | 0x02 => if wf w 36 1 = 1 then [wf w 34 2] else []
  | 0x07 => [wf w 54 2]
  | 0x08 => maskPorts (wf w 52 4)
  | _ => []

/-- DOT_LINK of a template unit. -/
def linkOf (ss : List Sect) (tr c u : Nat) : Nat :=
  match sectFor ss 0x02 tr c u with
  | some x => nAt x.data 72 4
  | none => 0

def passOuts (link : Nat) : List Nat := ((List.range 4).filter (fun p => decide (bits link (3 * p + 2) 1 = 1))).map (fun p => bits link (3 * p) 2)

/-- The ports that the timetable of a template unit sends out of. -/
def ttOuts (ss : List Sect) (tr c u : Nat) : List Nat :=
  match sectFor ss 0x01 tr c u with
  | some x => ((playedWords x).flatMap wordOuts).eraseDups
  | none => []

/-- QUE_ROUTE of a queue of a template cluster. -/
def routeOf (ss : List Sect) (tr c q : Nat) : Nat :=
  match sectFor ss 0x09 tr c 0xFF with
  | some x => nAt x.data (8 * q + 4) 4
  | none => 0

/-- A queue captures this port. -/
def capturedPort (ss : List Sect) (tr c u p : Nat) : Bool :=
  (List.range 16).any (fun q =>
    let v := routeOf ss tr c q
    decide (bits v 13 1 = 1) && decide (bits v 8 3 = u) && decide (bits v 11 2 = p))

/-- The cycles of its pass at which the timetable of an enabled template unit sends out of a port, from the pass's first (04 R106, 05 R114). -/
def sendOffsets (ss : List Sect) (tr c u p : Nat) : List Nat :=
  match sectFor ss 0x01 tr c u with
  | none => []
  | some x =>
    if (enabledTt ss x).isNone then []
    else ((playedWords x).foldl (fun (acc : Nat × List Nat) w =>
      (acc.1 + wordCycles true w, if (wordOuts w).contains p then acc.1 :: acc.2 else acc.2)) (0, [])).2

/-- LAG of a template unit, in crossings. -/
def lagOf (ss : List Sect) (tr c u : Nat) : Nat :=
  match sectFor ss 0x02 tr c u with
  | some y => bits (nAt y.data 0 4) 16 8
  | none => 0

/-- The template unit that stands at unit g in a copy. -/
def unplacedUnit (q : Placement) (g : Nat) : Option (Nat × Nat × Nat) :=
  if q.regions.contains (unitRegion g) then
    some (q.regions.idxOf (unitRegion g), mCluster q (g / 8 % 8), mUnit q (g % 8))
  else none

/-- A queue injects into this input port, whose link is then disconnected (07 R177). -/
def injectedPort (ss : List Sect) (tr c u p : Nat) : Bool :=
  (List.range 16).any (fun q =>
    let v := routeOf ss tr c q
    decide (bits v 5 1 = 1) && decide (bits v 0 3 = u) && decide (bits v 3 2 = p))

/-- What a link from a tile brings: nothing from a memory tile; from another tile the frames of a BEAT lane that LOOP may return at any time (07 R168,
11 R289; notes/assumptions/49.md). -/
def tileTimes (s : State) (g p : Nat) : Option (List Nat) := if s.tile (siteOf (g / 256) p) = 2 then some [] else none

/-- When beats can leave unit g of a copy by a port, modulo the pass of `period` cycles: some list, or none where they come from a tile or by injection, at
any time. A pass-through beat leaves in the cycle in which it is present (07 R166, R167); what a queue captures does not go on (R177). -/
def leaveTimes (s : State) (h : Hdr) (ss : List Sect) (q : Placement) (period : Nat) : Nat → Nat → Nat → Option (List Nat)
  | 0, _, _ => some []
  | fuel + 1, g, o =>
    match unplacedUnit q g with
    | none => some []
    | some (tr, c, u) =>
      let link := linkOf ss tr c u
      let own := (sendOffsets ss tr c u (mPort q o)).map (fun t => (t + lagOf ss tr c u * h.n) % period)
      let ins := (List.range 4).filter (fun p => decide (bits link (3 * mPort q p + 2) 1 = 1) && decide (bits link (3 * mPort q p) 2 = mPort q o))
      if capturedPort ss tr c u (mPort q o) then some []
      else ins.foldl (fun acc p =>
        let from_ := if injectedPort ss tr c u (mPort q p) then none else match neighbour g p with
          | some n => (leaveTimes s h ss q period fuel n ((p + 2) % 4)).map (fun m => m.map (fun t => (t + linkCycles n g) % period))
          | none => tileTimes s g p
        match acc, from_ with
        | some l, some m => some (l ++ m)
        | _, _ => none) (some own)

/-- Two beats can leave a unit of a copy by one reserved port in one cycle. Where the times are not static, in a staged image, from a tile and by injection,
any two can meet. -/
def collides (s : State) (h : Hdr) (ss : List Sect) (q : Placement) (tr c u o : Nat) : Bool :=
  let g := placedUnit q tr c u
  let period := max 1 (h.k * h.n)
  let ins := (List.range 4).filter (fun p => decide (bits (linkOf ss tr c u) (3 * p + 2) 1 = 1) && decide (bits (linkOf ss tr c u) (3 * p) 2 = o))
  let own := (sendOffsets ss tr c u o).map (fun t => (t + lagOf ss tr c u * h.n) % period)
  let from_ (p : Nat) : Option (List Nat) :=
    if injectedPort ss tr c u p then none
    else match neighbour g (mPort q p) with
      | some n => (leaveTimes s h ss q period 128 n ((mPort q p + 2) % 4)).map (fun l => l.map (fun t => (t + linkCycles n g) % period))
      | none => tileTimes s g (mPort q p)
  let all := some own :: ins.map from_
  let used := all.filter (fun l => decide (l ≠ some []))
  decide (2 ≤ used.length) && (!h.locked || used.contains none ||
    (let l := used.flatMap (fun x => (x.getD []).eraseDups)
     decide (l.eraseDups.length < l.length)))

/-- COLLIDE: a word's beat and a pass-through beat, or two pass-through beats, can meet at an output (07 R167). -/
def checkCollide (s : State) (h : Hdr) (ss : List Sect) (ps : List Placement) : Option Nat :=
  badSect (ofType ss 0x02) (fun x =>
    ((passOuts (nAt x.data 72 4)).eraseDups).any (fun o => ps.any (fun q => collides s h ss q x.treg x.cluster x.unit o)))

/-- The links of a template unit that carry beats. -/
def linksOut (ss : List Sect) (tr c u : Nat) : List Nat :=
  ((ttOuts ss tr c u ++ passOuts (linkOf ss tr c u)).eraseDups).filter (fun p => !capturedPort ss tr c u p)

/-- Where a template unit stands in the shape (R227). -/
def templateXY (h : Hdr) (tr c u : Nat) : Nat × Nat :=
  let t := (shapeCells h).getD tr (0, 0)
  (8 * t.1 + 4 * (c % 2) + u % 4, 8 * t.2 + 2 * (c / 2) + u / 4)

/-- The template unit at a place of the shape. -/
def templateUnit (h : Hdr) (x y : Nat) : Option (Nat × Nat × Nat) :=
  ((List.range (shapeCells h).length).find? (fun j => decide ((shapeCells h).getD j (0, 0) = (x / 8, y / 8)))).map (fun j =>
    (j, 2 * (y % 8 / 2) + x % 8 / 4, 4 * (y % 2) + x % 4))

/-- The place that a link of a template unit leads to; `(0, 0)` of the shape is at (1, 1) here, so that no place is negative. -/
def linkTo (xy : Nat × Nat) (p : Nat) : Nat × Nat :=
  match p with
  | 0 => (xy.1 + 1, xy.2)
  | 1 => (xy.1 + 2, xy.2 + 1)
  | 2 => (xy.1 + 1, xy.2 + 2)
  | _ => (xy.1, xy.2 + 1)

/-- One link breaks PATH: in a copy it enters a region that is not the channel's (07 R168). -/
def linkBad (ps : List Placement) (tr c u p : Nat) : Bool :=
  ps.any (fun q => match neighbour (placedUnit q tr c u) (mPort q p) with
    | some g => !q.regions.contains (unitRegion g)
    | none => false)

/-- A path that leaves a template unit by port p ends, through its pass-throughs, at an input port of another region for which the image gives no
source of region `from_` (07 R167, 08 R211). A path that a queue captures ends at no port. -/
def sourceless (h : Hdr) (ss : List Sect) (from_ : Nat) : Nat → Nat → Nat → Nat → Nat → Bool
  | 0, _, _, _, _ => false
  | fuel + 1, tr, c, u, p =>
    let dest := linkTo (templateXY h tr c u) p
    if capturedPort ss tr c u p || decide (dest.1 = 0 ∨ dest.2 = 0) then false
    else match templateUnit h (dest.1 - 1) (dest.2 - 1) with
      | none => false
      | some (tr2, c2, u2) =>
        let ip := (p + 2) % 4
        let link := linkOf ss tr2 c2 u2
        if bits link (3 * ip + 2) 1 = 1 then sourceless h ss from_ fuel tr2 c2 u2 (bits link (3 * ip) 2)
        else decide (tr2 ≠ from_) && !(portSources ss).any (fun e =>
          decide (e.x = dest.1 - 1) && decide (e.y = dest.2 - 1) && decide (e.port = ip) && decide (e.treg = from_))

/-- The outputs of a template unit that beats leave by whose path begins there: those of its words, and those of pass-throughs that a queue injects into
or, in some copy, a tile feeds (07 R168, R177). -/
def pathStarts (s : State) (ss : List Sect) (ps : List Placement) (tr c u : Nat) : List Nat :=
  let link := linkOf ss tr c u
  let fed (p : Nat) : Bool := injectedPort ss tr c u p || ps.any (fun q =>
    let g := placedUnit q tr c u
    (neighbour g (mPort q p)).isNone && decide (tileTimes s g (mPort q p) = none))
  (ttOuts ss tr c u ++ ((List.range 4).filter (fun p => decide (bits link (3 * p + 2) 1 = 1) && fed p)).map (fun p => bits link (3 * p) 2)).eraseDups

/-- PATH (07 R168). -/
def checkPath (s : State) (h : Hdr) (ss : List Sect) (ps : List Placement) : Option Nat :=
  badSect (ss.filter (fun x => decide (x.typ = 0x01 ∨ x.typ = 0x02))) (fun x =>
    (linksOut ss x.treg x.cluster x.unit).any (linkBad ps x.treg x.cluster x.unit) ||
      ((pathStarts s ss ps x.treg x.cluster x.unit).any (sourceless h ss x.treg 128 x.treg x.cluster x.unit)))

/-- A use of a queue: template region, cluster, queue (16 to 19 for the steering inputs), and who. -/
abbrev QUse := (Nat × Nat × Nat) × Nat

/-- Readers and writers named by the operation words of a function unit: `who` is 0 or 1. -/
def funUses (x : Sect) : List QUse × List QUse :=
  let ops := (playedWords x).filter (fun w => isOpWord (opcode w))
  let at_ (q : Nat) : QUse := ((x.treg, x.cluster, q), x.unit - 8)
  (ops.flatMap (fun w =>
      (if wSrc w < 16 then [at_ (wSrc w)] else []) ++
        (if (opcode w = 0x16 ∨ opcode w = 0x1A ∨ opcode w = 0x1B) ∧ wSrc2 w < 16 then [at_ (wSrc2 w)] else [])),
   ops.flatMap (fun w =>
      if opcode w = 0x1C then [] else if wDst w < 16 then [at_ (wDst w)] else if 17 ≤ wDst w ∧ wDst w ≤ 20 then [at_ (wDst w - 1)] else []))

/-- Those of a steering unit (06 R156): the token register and the inputs read, each output and CNTQ writes for itself (07 R169). -/
def steerUses (x : Sect) : List QUse × List QUse :=
  let m0 := nAt x.data 0 4
  let m1 := nAt x.data 4 4
  let op := bits m0 0 3
  let at_ (q : Nat) : QUse := ((x.treg, x.cluster, q), 2)
  let from_ (q j : Nat) : QUse := ((x.treg, x.cluster, q), 2048 + j)
  if bits m0 31 1 = 0 then ([], [])
  else
    ((List.range (if op = 0 ∨ op = 2 then bits m0 3 2 + 1 else 1)).map (fun i => at_ (16 + i)) ++
       (if 2 ≤ op then [at_ (bits m0 8 4)] else []),
     (List.range (if op = 1 ∨ op = 3 then bits m0 5 2 + 1 else 1)).map (fun j => from_ (bits m1 (4 * j) 4) j) ++
       (if op = 5 then [from_ (bits m0 12 4) 4] else []))

/-- Those of a block's ports, each for itself (07 R169). -/
def logicUses (x : Sect) : List QUse × List QUse :=
  let bs := ((sectFrames x).filter (fun f => decide (frameKind (f.headD 0).toNat = 3))).map (fun f => (f.getD 1 0).toNat)
  let at_ (q j : Nat) : QUse := ((x.treg, x.cluster, q), 3072 + j)
  (bs.flatMap (fun w => ((List.range 4).filter (fun j => decide (bits w (16 + j) 1 = 1))).map (fun j => at_ (bits w (4 * j) 4) j)),
   bs.flatMap (fun w => ((List.range 4).filter (fun j => decide (bits w (44 + j) 1 = 1))).map (fun j => at_ (bits w (24 + 5 * j) 5) j)))

/-- Those of injections and captures. -/
def routeUses (x : Sect) : List QUse × List QUse :=
  let r (q : Nat) := nAt x.data (8 * q + 4) 4
  (((List.range 16).filter (fun q => decide (bits (r q) 5 1 = 1))).map (fun q => ((x.treg, x.cluster, q), 4)),
   ((List.range 16).filter (fun q => decide (bits (r q) 13 1 = 1))).map (fun q => ((x.treg, x.cluster, q), 4)))

/-- The template cluster that stands at cluster k in a copy. -/
def unplaced (ps : List Placement) (k : Nat) : Option (Nat × Nat) :=
  ps.findSome? (fun p => if p.regions.contains (k / 8) then some (p.regions.idxOf (k / 8), mCluster p (k % 8)) else none)

/-- Deliveries: the lanes of placed channels together (R236), and each deliver context, each with the copy whose queue it feeds. -/
def deliverUses (ss : List Sect) (ps : List Placement) : List (Nat × QUse) :=
  ((laneEntries ss).filter (fun e => decide (e.channel < ps.length))).map (fun e => (e.channel, ((e.treg, e.cluster, e.queue), 5))) ++
    (ofType ss 0x31).flatMap (fun x => (ctxEntries x.data).filterMap (fun e =>
      let t := e.2.getD 1 0
      let k := 32 * bits t 0 4 + 8 * bits t 4 2 + bits t 6 3
      if bits (e.2.getD 0 0) 0 3 = 1 then
        (unplaced ps k).map (fun p => (ps.findIdx (fun q => q.regions.contains (k / 8)), ((p.1, p.2, bits t 9 4), 6 + e.1)))
      else none))

/-- A queue of one copy that two deliveries feed, or one that a delivery and a writer of the template feed. -/
def deliverClash (ws : List QUse) (ds : List (Nat × QUse)) : Option (Nat × Nat × Nat) :=
  (ds.find? (fun a => ds.any (fun b => decide (b.1 = a.1) && decide (b.2.1 = a.2.1) && decide (b.2.2 ≠ a.2.2)) ||
    ws.any (fun w => decide (w.1 = a.2.1)))).map (·.2.1)

/-- The readers and writers of a section. -/
def sectUses (ss : List Sect) (x : Sect) : List QUse × List QUse :=
  match x.typ with
  | 0x06 => if (enabledTt ss x).isSome then funUses x else ([], [])
  | 0x09 => routeUses x
  | 0x0A => steerUses x
  | 0x0B => logicUses x
  | _ => ([], [])

/-- A queue that two of them use. -/
def shared (l : List QUse) : Option (Nat × Nat × Nat) :=
  (l.find? (fun a => l.any (fun b => decide (b.1 = a.1) && decide (b.2 ≠ a.2)))).map (·.1)

/-- The queue sets of a section clash (07 R177). -/
def queueSetsBad (x : Sect) : Bool :=
  let sets := (List.range 16).map (fun q => (⟨nAt x.data (8 * q) 4, nAt x.data (8 * q + 4) 4, true⟩ : QSet))
  (List.range 16).any (qBad sets)

/-- QUEUE (07 R177, R178). -/
def checkQueue (ss : List Sect) (ps : List Placement) : Option Nat :=
  match badSect (ofType ss 0x09) queueSetsBad with
  | some i => some i
  | none =>
    let uses := ss.map (sectUses ss)
    let ws := uses.flatMap (·.2)
    match shared (uses.flatMap (·.1)), (shared ws).or (deliverClash ws (deliverUses ss ps)) with
    | none, none => none
    | some k, _ | none, some k => some (((sectFor ss 0x09 k.1 k.2.1 0xFF).map (·.ix)).getD wholeImage)

/-! ### LOGIC, CLOCK, LANE, VERDICT -/

def combineBad (f : List Word64) : Bool :=
  let hd := (f.headD 0).toNat
  decide (frameKind hd = 0) &&
    (combineRuns ((List.range 64).map (fun r => (f.getD (2 + 2 * r) 0).getLsbD 9)) 0 0).any (fun p => !runFits p)

/-- LOGIC (08 R193, R205 to R207). -/
def checkLogic (ss : List Sect) : Option Nat :=
  badSect (ofType ss 0x0B) (fun x => (sectFrames x).any (fun f =>
    let hd := (f.headD 0).toNat
    decide (f.length ≠ frameLength hd + 2) || !frameFormOk f || !frameCrcOk f || decide (bits hd 27 6 ≠ x.treg) ||
      (decide (frameKind hd ≠ 2) && decide (bits hd 24 3 ≠ x.cluster)) || combineBad f))

/-- A locked tree breaks R197, or a PLL is above 600 MHz. -/
def clocksBad (s : State) (n : Nat) (f : List Word64) : Bool :=
  decide (frameKind (f.headD 0).toNat = 2) &&
    let v := clkValue (f.getD 1 0).toNat
    let hz := if s.fld fHz = 0 then 40000000 else s.fld fHz
    (List.range 4).any (fun i =>
      let div := bits v (8 * i + 2) 4
      decide (bits v (8 * i) 2 = 1) && (decide (n % div ≠ 0) || decide (600000000 * div < n * hz))) ||
    [2, 3].any (fun j =>
      let p := (f.getD j 0).toNat
      decide (60000 * bits p 8 6 < 15625 * bits p 0 7))

/-- RGN_CLK of a template region as its frames set it. -/
def regionClk (ss : List Sect) (tr : Nat) : Nat :=
  let fs := (ofType ss 0x0B).flatMap (fun x => if x.treg = tr then (sectFrames x).filter (fun f => decide (frameKind (f.headD 0).toNat = 2)) else [])
  match fs.getLast? with
  | some f => clkValue (f.getD 1 0).toNat
  | none => 0

/-- A port of a locked image is served by a free tree (08 R200). -/
def freePort (ss : List Sect) (ps : List Placement) (x : Sect) (f : List Word64) : Bool :=
  decide (frameKind (f.headD 0).toNat = 3) &&
    let w := f.getD 1 0
    (List.range 8).any (fun j => portEnabled w j && ps.any (fun p =>
      decide (2 ≤ bits (regionClk ss x.treg) (8 * (Config.portTree w (placedCluster p x.treg x.cluster) j).toNat) 2)))

/-- CLOCK (08 R197, R200). -/
def checkClock (s : State) (h : Hdr) (ss : List Sect) (ps : List Placement) : Option Nat :=
  badSect (ofType ss 0x0B) (fun x => (sectFrames x).any (fun f => clocksBad s h.n f || (h.locked && freePort ss ps x f)))

/-- LANE (R233). The timing lane that an image may not use is the one last written to TIM_CTRL.LANE, in use yet or not (the model's choice,
notes/assumptions/8.md). -/
def checkLane (s : State) (h : Hdr) (ss : List Sect) (ps : List Placement) : Option Nat :=
  let es := (laneEntries ss).filter (fun e => decide (e.channel < ps.length))
  let ixs := (List.range es.length).zip es
  (ixs.find? (fun p =>
    let e := p.2
    decide (48 * (s.sitesOf 0).length ≤ e.lane) || decide (e.lane = s.fld fLane) || decide (h.r ≤ e.treg) || decide (7 < e.cluster) ||
      decide (15 < e.queue) ||
      (ixs.take p.1).any (fun q => decide (q.2.lane = e.lane) ||
        decide ((q.2.channel, q.2.treg, q.2.cluster, q.2.queue) = (e.channel, e.treg, e.cluster, e.queue))))).map (fun p => p.2.sect)

/-- The THRESH words of the image: section, assembler, CID. -/
def threshes (ss : List Sect) : List (Nat × Nat × Nat) :=
  (ofType ss 0x06).flatMap (fun x => ((playedWords x).filter (fun w => decide (opcode w = 0x1C))).map (fun w => (x.ix, wBdest w % 4, wEout w)))

/-- Those placed: channel by channel (R232). -/
def placedThreshes (h : Hdr) (ss : List Sect) (channels : Nat) : List (Nat × Nat × Nat) :=
  (List.range channels).flatMap (fun i => (threshes ss).map (fun e => (e.1, e.2.1, (e.2.2 + i * h.stride) % 64)))

/-- VERDICT (R232, 06 R164). -/
def checkVerdict (h : Hdr) (ss : List Sect) (channels : Nat) : Option Nat :=
  let l := placedThreshes h ss channels
  let ixs := (List.range l.length).zip l
  match (ixs.find? (fun p => decide (bits h.va p.2.2.1 1 = 0) || (ixs.take p.1).any (fun q => decide (q.2.2 = p.2.2)))).map (fun p => p.2.1) with
  | some i => some i
  | none => badSect (ofType ss 0x11) (fun x => decide (4 < bits (nAt x.data 12 4) 0 3))

/-! ### All of them (R236, R237) -/

/-- The first check that fails: its code and section. `load` is false for VERIFY_IMAGE, which leaves out ARMED and POWER. -/
def imageError (s : State) (b : List Byte) (load : Bool) : Option (Nat × Nat) :=
  let h := headerOf b
  let ss := sectsOf b h
  let ps := placements h
  let found : List (Nat × Option Nat) :=
    [(0x0100, whole (load && s.armed)), (0x0101, checkFormat b h ss), (0x0102, checkGeneration h), (0x0103, checkCapability h ss),
     (0x0104, checkSection s h ss), (0x0105, checkRegime h), (0x0106, checkRatio s h), (0x0107, checkBudget s h), (0x0108, checkShape h),
     (0x0109, if load then checkPower s h ps.length else none), (0x010A, checkMemory h ss), (0x010B, checkHold h ss), (0x010C, checkDriver ss),
     (0x010D, checkWord h ss), (0x010E, checkPass h ss), (0x010F, checkMenuRow h ss), (0x0110, checkField h ss), (0x0111, checkCollide s h ss ps),
     (0x0112, checkPath s h ss ps), (0x0113, checkQueue ss ps), (0x0114, checkLogic ss), (0x0115, checkClock s h ss ps),
     (0x0116, checkLane s h ss ps), (0x0117, checkVerdict h ss ps.length)]
  found.findSome? (fun p => p.2.map (fun i => (p.1, i)))

end Sys2Proof.Machine
end

