-- ==== Sys2Proof/Machine/Loader.lean ====
section
/-!
DEFINITION. Machine/Loader.lean: what a load does to the package (09_timetable_contract.md R227, R228, R231 to R233, R235; 10 R263, R268, R269;
12 R307, R322, R328; 13 R328).
-/
namespace Sys2Proof.Machine

/-! ### Step 3: the old image leaves -/

/-- The configuration registers that an image sets, back at their reset values: what no section names stays so (R228). Contexts of enabled ring
pairs (13 R328) and context 0 of die 0 (12 R309) keep. -/
def keepsOverLoad (s : State) (a : Nat) : Bool :=
  if 0x1000 ≤ a ∧ a < 0x1400 then decide (a % 0x100 = 0x18) || decide (a % 0x100 = 0x1C) || decide (a % 0x100 = 0x20)
  else if 0x80000 ≤ a ∧ a < 0x90000 then !(decide (0xD00 ≤ a % 0x1000) && decide (a % 0x1000 < 0xD80) && decide (a % 8 = 0))
  else if a < 0x1000000 then true
  else
    let o := a % 0x40000
    let c := o % 0x2000
    if o < 0x20000 then
      !(decide (0x100C ≤ o ∧ o < 0x1018) || (decide (0x8000 ≤ o ∧ o < 0x9000) && decide (o % 0x40 < 0x30)) || decide (0x9100 ≤ o ∧ o < 0x9200))
    else if o < 0x30000 then
      if c < 0x800 then
        let u := c % 0x100
        !(decide (u = 0x00) || (decide (0x08 ≤ u) && decide (u < 0x54)) || decide (u = 0x64))
      else if 0x900 ≤ c ∧ c < 0xA00 then !(decide (c % 0x80 = 0) || decide (c % 0x80 = 0x08))
      else if c = 0xA00 ∨ c = 0xA04 then false
      else if 0xC00 ≤ c ∧ c < 0xE00 then !(decide (c % 0x20 = 0) || decide (c % 0x20 = 0x18))
      else if 0x1000 ≤ c then !(decide (c = 0x1014) || decide (c = 0x1018))
      else true
    else if a % 0x100000 < 0x40000 then
      let x := 1024 * ((a - 0x1000000) / 0x100000) + (o - 0x30000) / 0x20
      decide (0x38000 ≤ o) || decide (x = 0) || (List.range 64).any (fun r => s.is (fHrgEnable r) && decide (s.fld (fHrgPath r) = x))
    else decide (0x31000 ≤ o) || !(decide (o % 0x40 = 0) || decide (8 ≤ o % 0x40))

/-- Port and steering queue modes are DROP, as at reset. -/
def resetModes (s : State) : State :=
  { s with regs := (s.regs.map (fun e =>
      let c := e.1 % 0x40000 % 0x2000
      let inCluster := decide (0x1000000 ≤ e.1) && decide (0x20000 ≤ e.1 % 0x40000) && decide (e.1 % 0x40000 < 0x30000)
      let ctl := (decide (c < 0x800) && decide (0x80 ≤ c % 0x100) && decide (c % 0x100 < 0xC0) && decide (c % 0x10 = 0)) ||
        (decide (0xA40 ≤ c) && decide (c < 0xA80) && decide (c % 0x10 = 0))
      if inCluster && ctl then (e.1, e.2 &&& ~~~1#32) else e)).filter (fun e => decide (e.2 ≠ regReset s e.1)) }

/-- Banks cleared, queues empty, nothing at work, no source regions, blocks unconfigured, the stage at its reset (04 R116, 08 R211, 10 R263). -/
def clearArray (s : State) : State :=
  let s0 := haltClusters (haltAgents s)
  { s0 with
    units := s0.units.foldl (fun m e => mset {} m e.1 { e.2 with
      gb := List.replicate 4 {}
      mb := List.replicate 16 {}
      flight := []
      schedHeld := none
      outLink := []
      src := [none, none, none, none] }) []
    funs := s0.funs.foldl (fun m e => mset {} m e.1 { e.2 with poisoned := false, schedHeld := none }) []
    clusters := s0.clusters.foldl (fun m e => mset {} m e.1 { e.2 with steer := {}, logic := {} }) []
    portQ := []
    bankQ := []
    steerQ := []
    links := []
    contribs := []
    vas := []
    stage := {}
    baseSwap := false
    regions := s0.regions.foldl (fun m e => mset {} m e.1 { e.2 with
      descs := []
      hqs := []
      arrived := false
      requestAt := none
      lines := []
      fills := [] }) []
    way := s0.way.foldl (fun m e => mset {} m e.1 (stopWay e.2)) []
    ctxs := s0.ctxs.foldl (fun m e => if keepsOverLoad s (ctxBase e.1) then mset {} m e.1 e.2 else m) []
    mcs := []
    txLinks := []
    windows := [] }

/-- No transfer is at work or queued any more, and no request of one waits or holds a port (10 R256, 07 R183). -/
def dropTransfers (s : State) : State :=
  let s1 := s.regions.foldl (fun t e => withdrawAll
    (e.2.descs.foldl (fun x d => (x.setFld (fBusy e.1 d.1) 0).setFld (fPending e.1 d.1) 0) t) (.cache (Fin.ofNat 64 e.1)) (fun _ => true)) s
  s1.memArb.foldl (fun t e => withdrawAll t (.memory (Fin.ofNat 8 e.1)) (fun q => decide (q ≠ .host))) s1

/-- Step 3 with the clearing of step 4: the assemblers idle, every region starts reconfiguring, and what the old image set is gone.
PKG_MODE shows no image from here to step 7 (01 R31). -/
def unloadImage (s : State) : State :=
  let s1 := (List.range 64).foldl (fun t r => startRegion (t.setFld (fCommitPending r) 0) r) ((s.mark fLoading).setFld fRegime 0)
  let s2 := clearArray (dropTransfers s1)
  let s3 := resetModes { s2 with regs := s2.regs.filter (fun e => keepsOverLoad s e.1) }
  let s4 := (List.range 384).foldl (fun t n => if t.is (fWayInMap n) then t.setFld (fWayInMap n) 0 else t) s3
  { (((((s4.setFld fHalf 0).setFld fRegionsPer 0).setFld fChannels 0).setFld fIdle 0).setFld fWinW 0).setFld fWinF 0 with image := none }

/-- A load that drops the image and writes no other: N is N_DEFAULT again, and a change of N sends the array back to PLL (02 R47); the QUANTISE chain begins
again (14 R376). -/
def dropImage (s : State) : State :=
  let u := unloadImage s
  let t := { u with trust := { u.trust with quantDigest := List.replicate 32 0, quantCount := 0 } }
  if t.n ≠ s.n ∧ 4 ≤ s.fld fState then toPll t else t

/-! ### Step 4: sections -/

/-- Register words written at addresses, in order. -/
def writeWords (s : State) (l : List (Nat × Nat)) : State := l.foldl (fun t p => plainWrite t p.1 (BitVec.ofNat 32 p.2)) s

/-- Words put into a memory of an agent from a start word on (04 R111). -/
def putWords (s : State) (a : Agent) (kind start : Nat) (ws : List Word64) : State := setMem s a kind ((memOf s a kind).putAll start ws)

/-- Bytes put into a cluster store from a byte offset on. -/
def putBytes (m : Store) (o : Nat) (bs : List Byte) : Store :=
  let first := o / 8
  let count := (o % 8 + bs.length + 7) / 8
  (List.range count).foldl (fun t i =>
    let w := first + i
    let old := leBytes 8 (t.word w).toNat
    t.put w (BitVec.ofNat 64 (leNat ((List.range 8).map (fun j =>
      let p := 8 * w + j
      if o ≤ p then (bs[p - o]?).getD (old.getD j 0) else old.getD j 0))))) m

/-- The units of a placement, one of each channel (R231). -/
def unitsOf (im : Image) (p : LayerPlace) : List Nat :=
  if p.tregion < im.regions ∧ p.cluster ≤ 7 ∧ p.unit ≤ 7 then im.placements.map (fun q => placedUnit q p.tregion p.cluster p.unit) else []

/-- The units of a region that no channel occupies hold no timetable (01 R21). -/
def clearIdle (s : State) : State :=
  { s with
    units := s.units.foldl (fun m e => mset {} m e.1 (if s.idleRegion (unitRegion e.1) then { e.2 with tt := {} } else e.2)) []
    funs := s.funs.foldl (fun m e => mset {} m e.1 (if s.idleRegion (clusterRegion (e.1 / 2)) then { e.2 with tt := {} } else e.2)) [] }

/-- The registers of a dot unit, relabelled. -/
def dotSection (p : Placement) (x : Sect) (g : Nat) : List (Nat × Nat) :=
  (dotRegOffsets.zip (w32s x.data)).map (fun e =>
    if e.1 = 0x64 then (unitBase g + 0x64, relabelLink p e.2)
    else if 0x80 ≤ e.1 then (unitBase g + 0x80 + 0x10 * mPort p ((e.1 - 0x80) / 0x10), e.2)
    else (unitBase g + e.1, e.2))

/-- The queues of a cluster, relabelled. -/
def queueSection (p : Placement) (x : Sect) (k : Nat) : List (Nat × Nat) :=
  (List.range 16).flatMap (fun q => [(bankAddr k q, nAt x.data (8 * q) 4), (bankAddr k q + 0x18, relabelRoute p (nAt x.data (8 * q + 4) 4))]) ++
    (List.range 4).map (fun i => (clusterBase k + 0xA40 + 0x10 * i, nAt x.data (128 + 4 * i) 4))

/-- One section of the template in channel i. -/
def placeSection (h : Hdr) (i : Nat) (p : Placement) (s : State) (x : Sect) : State :=
  let k := placedCluster p x.treg x.cluster
  let g := placedUnit p x.treg x.cluster x.unit
  let dot : Agent := .dot (Fin.ofNat 4096 g)
  let fn : Agent := .fn (Fin.ofNat 1024 (2 * k + (x.unit - 8)))
  match x.typ with
  | 0x01 => putWords s dot 3 0 ((w64s x.data).map (relabelDot p))
  | 0x02 => writeWords s (dotSection p x g)
  | 0x03 => putWords s dot 0 (nAt x.data 0 4) (w64s (x.data.drop 8))
  | 0x04 => putWords s dot 1 (nAt x.data 0 4) (w64s (x.data.drop 8))
  | 0x05 => putWords s dot 2 (nAt x.data 0 4) (w64s (x.data.drop 8))
  | 0x06 => putWords s fn 3 0 ((w64s x.data).map (relabelFun p i h.stride))
  | 0x07 => writeWords s [(aBase fn, nAt x.data 0 4)]
  | 0x08 => s.setCluster k { s.cluster k with store := putBytes (s.cluster k).store (nAt x.data 0 4) (x.data.drop 8) }
  | 0x09 => writeWords s (queueSection p x k)
  | 0x0A => writeWords s [(steBase k, nAt x.data 0 4), (steBase k + 4, nAt x.data 4 4)]
  | 0x0B => (sectFrames x).foldl (fun t f => (applyFrame t k f).bump (fApplied k)) s
  | _ => s

/-- Every section of the template in every copy. -/
def placeAll (h : Hdr) (ss : List Sect) (ps : List Placement) (s : State) : State :=
  ((List.range ps.length).zip ps).foldl (fun t e => ss.foldl (placeSection h e.1 e.2) t) s

/-- Word i of a payload that begins at byte `off` of the image holds a byte of a poisoned word of the source. -/
def brokenWord (bad : List Nat) (off i : Nat) : Bool := bad.contains ((off + 8 * i) / 8) || bad.contains ((off + 8 * i + 7) / 8)

/-- A store whose words of a payload are poisoned where the source was (10 R246). -/
def poisonStore (m : Store) (start off n : Nat) (bad : List Nat) : Store :=
  ((List.range n).filter (brokenWord bad off)).foldl (fun t i => t.putPoison (start + i) (t.word (start + i))) m

def poisonWords (s : State) (a : Agent) (kind start off n : Nat) (bad : List Nat) : State :=
  setMem s a kind (poisonStore (memOf s a kind) start off n bad)

/-- The same for bytes of a cluster store from a byte offset on. -/
def poisonBytes (m : Store) (o off n : Nat) (bad : List Nat) : Store :=
  ((List.range ((o % 8 + n + 7) / 8)).filter (fun i => (List.range 8).any (fun j =>
    let p := 8 * (o / 8 + i) + j
    decide (o ≤ p) && decide (p < o + n) && bad.contains ((off + (p - o)) / 8)))).foldl
      (fun t i => t.putPoison (o / 8 + i) (t.word (o / 8 + i))) m

/-- A section of the template in one copy keeps the poison of its source in the unit stores and the cluster stores (10 R246). -/
def poisonSection (bad : List Nat) (p : Placement) (s : State) (x : Sect) : State :=
  let k := placedCluster p x.treg x.cluster
  let dot : Agent := .dot (Fin.ofNat 4096 (placedUnit p x.treg x.cluster x.unit))
  let n := (x.len - 8) / 8
  match x.typ with
  | 0x01 => poisonWords s dot 3 0 x.off (x.len / 8) bad
  | 0x03 => poisonWords s dot 0 (nAt x.data 0 4) (x.off + 8) n bad
  | 0x04 => poisonWords s dot 1 (nAt x.data 0 4) (x.off + 8) n bad
  | 0x05 => poisonWords s dot 2 (nAt x.data 0 4) (x.off + 8) n bad
  | 0x06 => poisonWords s (.fn (Fin.ofNat 1024 (2 * k + (x.unit - 8)))) 3 0 x.off (x.len / 8) bad
  | 0x08 => s.setCluster k { s.cluster k with store := poisonBytes (s.cluster k).store (nAt x.data 0 4) (x.off + 8) (x.len - 8) bad }
  | _ => s

/-- The same for every section in every copy. -/
def poisonAll (bad : List Nat) (ss : List Sect) (ps : List Placement) (s : State) : State :=
  if bad.isEmpty then s else ps.foldl (fun t p => ss.foldl (poisonSection bad p) t) s

/-! ### Step 5: sources, lanes, assemblers, fabric, stages -/

/-- The source region of each port fed across a region boundary, in one copy (08 R211). -/
def placeSources (h : Hdr) (ss : List Sect) (s : State) (p : Placement) : State :=
  (portSources ss).foldl (fun t e => match templateUnit h e.x e.y with
    | some (tr, c, u) =>
      let g := placedUnit p tr c u
      let v := t.unit g
      t.setUnit g { v with src := v.src.set (mPort p (e.port % 4)) (p.regions[e.treg]?) }
    | none => t) s

/-- The lane map of the placed channels (R233). -/
def boundLanes (ss : List Sect) (ps : List Placement) : List LaneBind :=
  (laneEntries ss).filterMap (fun e => (ps[e.channel]?).map (fun p => ⟨e.lane, placedCluster p e.treg e.cluster, e.queue⟩))

/-- The assemblers: enables, fields, and EXPECT (R227, R232). -/
def placeVas (h : Hdr) (ss : List Sect) (channels : Nat) (s : State) : State :=
  let s1 := (List.range 4).foldl (fun t v =>
    let cids := (placedThreshes h ss channels).filter (fun e => decide (e.2.1 = v))
    let mask := cids.foldl (fun a e => a ||| 2 ^ e.2.2) 0
    let t1 := t.setFld (fVaEnable v) (bits h.va v 1)
    if bits h.va v 1 = 1 then (t1.setFld (fVaExpectLo v) (bits mask 0 32)).setFld (fVaExpectHi v) (bits mask 32 32) else t1) s
  (ofType ss 0x11).foldl (fun t x =>
    (((t.setFld (fVaAccept x.item) (nAt x.data 0 4)).setFld (fVaPolicyLo x.item) (nAt x.data 4 4)).setFld (fVaPolicyHi x.item) (nAt x.data 8 4)).setFld
      (fVaFeatures x.item) (bits (nAt x.data 12 4) 0 3)) s1

/-- The fabric sections: contexts, transmit maps and multicast groups, whose senders' credits are loaded (12 R307, R322). -/
def placeFabric (ss : List Sect) (s : State) : State :=
  (ofType ss 0x31).foldl (fun t x =>
    let s1 := (ctxEntries x.data).foldl (fun u e =>
      if keepsOverLoad s (ctxBase e.1) then u
      else
        let u1 := writeWords u [(ctxBase e.1, e.2.getD 0 0), (ctxBase e.1 + 4, e.2.getD 1 0), (ctxBase e.1 + 8, e.2.getD 2 0)]
        u1.setFld (fOutCredit e.1) (u1.fld (fCtxInit e.1))) t
    let s2 := (txmapEntries x.data).foldl (fun u e =>
      let u1 := writeWords u [(txmapBase e.1 e.2.1, e.2.2)]
      u1.setTxLink e.1 e.2.1 { u1.txLink e.1 e.2.1 with credit := u1.fld (fTxmapInit e.1 e.2.1) }) s1
    (mcEntries x.data).foldl (fun u e =>
      let u1 := writeWords u (((List.range 9).map (fun j => (mcBase e.1 + (if j = 0 then 0 else 4 + 4 * j), e.2.getD j 0))))
      u1.setMc e.1 { u1.mc e.1 with credits := (List.range 8).map (fun i => u1.fld (fMemInit e.1 i)) }) s2) s

/-- The calendars (12 R302, R322). -/
def calendarsOf (ss : List Sect) : List Calendar :=
  (ofType ss 0x30).flatMap (fun x => (calGroups x.data).map (fun g =>
    ⟨g.1, g.2.1, g.2.2.1, g.2.2.2, ((calSlots x.data).filter (fun e => decide (e.1 = g.1) && decide (e.2.1 = g.2.1))).map (·.2.2)⟩))

/-- The locked contexts of the image (12 R304). -/
def lockedContexts (ss : List Sect) : List Nat :=
  (ofType ss 0x31).flatMap (fun x => ((ctxEntries x.data).filter (fun e => decide (bits (e.2.getD 0 0) 3 1 = 1))).map (·.1))

/-- An address of kind 0b000 in memory-tile space moves by channel × CH_STRIDE (10 R268). -/
def offsetSide (regs : List Word32) (lo kindLo shift : Nat) : List Word32 :=
  let a := snapN regs lo + 2 ^ 32 * (snapN regs (lo + 1) % 65536)
  if bits (snapN regs 11) kindLo 3 = 0 ∧ 0x10000000000 ≤ a then
    (regs.set lo (BitVec.ofNat 32 (a + shift))).set (lo + 1) (BitVec.ofNat 32 ((a + shift) / 2 ^ 32 % 65536))
  else regs

/-- The descriptors of every copy (10 R269). -/
def placedDescs (ss : List Sect) (ps : List Placement) (stride : Nat) : List (Nat × Nat × List Word32) :=
  ((List.range ps.length).zip ps).flatMap (fun p => (stageDescs ss).map (fun e =>
    (p.2.regions.getD e.1 0, e.2.1, offsetSide (offsetSide e.2.2 0 3 (p.1 * stride)) 2 6 (p.1 * stride))))

/-- Descriptors, buffers and preloaded handles (10 R269). -/
def placeStages (ss : List Sect) (ps : List Placement) (s : State) : State :=
  (ofType ss 0x20).foldl (fun t x =>
    let h := stageHead x.data
    let s1 := (placedDescs [x] ps h.stride).foldl (fun u e =>
      writeWords u ((List.range 12).map (fun j => (descBase e.1 e.2.1 + 4 * j, snapN e.2.2 j)))) t
    ps.foldl (fun u p =>
      let u1 := (List.range h.bufs).foldl (fun y i =>
        let o := stageBufOff h + 8 * i
        writeWords y [(regionBase (p.regions.getD (nAt x.data o 1) 0) + 0x9100 + 4 * nAt x.data (o + 1) 1, nAt x.data (o + 4) 4)]) u
      (List.range h.hqs).foldl (fun y i =>
        let o := stageHqOff h + 4 * i
        let b := nAt x.data o 1
        hqPush y (p.regions.getD (b % 16) 0) (b / 16) (BitVec.ofNat 32 (nAt x.data (o + 2) 2))) u1) s1) s

/-- The image as the package keeps it. -/
def imageOf (s : State) (b : List Byte) : Image :=
  let h := headerOf b
  let ss := sectsOf b h
  let ps := placements h
  let st := (ofType ss 0x20).head?
  let stride := match st with
    | some x => (stageHead x.data).stride
    | none => 0
  { locked := h.locked, cap := BitVec.ofNat 32 h.cap, n := h.n, k := h.k, l := h.l, w := h.w, f := h.f, d := h.d, e := egressCycles s h.n
    regions := h.r, channels := ps.length, menus := BitVec.ofNat 16 h.menus, placements := ps
    lanes := boundLanes ss ps, layers := layersOf ss
    steps := match st with
      | some x => (List.range (stageHead x.data).steps).map (stageStepAt x.data)
      | none => []
    descInit := placedDescs ss ps stride, calendars := calendarsOf ss, contexts := lockedContexts ss, digest := sha256 b }

/-- Step 5. The menus in force of crossings before the load are forgotten: SCHED of a unit whose x − LAG names one of them is 0 (the model's choice,
notes/assumptions/20.md). -/
def placePackage (b : List Byte) (s : State) : State :=
  let h := headerOf b
  let ss := sectsOf b h
  let ps := placements h
  let s1 := ps.foldl (placeSources h ss) s
  let s2 := (boundLanes ss ps).foldl (fun t l => t.mark (fWayInMap l.lane)) s1
  let s3 := placeStages ss ps (placeFabric ss (placeVas h ss ps.length s2))
  let s4 := showPads ((ofType ss 0x12).foldl (fun t x => writeWords t ((List.range 8).map (fun i => (0x100 + 4 * i, nAt x.data (4 * i) 4)))) s3)
    (fun _ => !(ofType ss 0x12).isEmpty)
  (({ s4 with clock := { s4.clock with menus := [0] } }).setFld fWinW h.w).setFld fWinF h.f

/-! ### The load (R235) -/

/-- Steps 3 to 6 of a load whose checks have passed; `bad` are the poisoned words of its source. A change of N sends the array back to PLL
(02 R47). -/
def writeImage (s : State) (b : List Byte) (bad : List Nat) : State :=
  let h := headerOf b
  let ss := sectsOf b h
  let ps := placements h
  let im := imageOf s b
  let s1 := placePackage b (poisonAll bad ss ps (placeAll h ss ps (unloadImage s)))
  let s2 := (List.range 64).foldl (fun t r => if t.is (fRgnBusy r) then releaseRegion t r else t) (clearIdle { s1 with image := some im })
  let s3 := { s2 with trust := { s2.trust with quantDigest := List.replicate 32 0, quantCount := 0 } }
  if h.n ≠ s.n ∧ 4 ≤ s.fld fState then toPll s3 else s3

/-- PKG_MODE as step 7 sets it, or with no image held (01 R31, 13 R342). IDLE_REGIONS with no image is its reset value 0 and not 64, which
64 − CHANNELS × REGIONS_PER_CHANNEL gives (the model's choice, notes/assumptions/67.md). -/
def setMode (s : State) : State :=
  let s1 := s.setFld fLoading 0
  match s.image with
  | none => (((s1.setFld fRegime 0).setFld fRegionsPer 0).setFld fChannels 0).setFld fIdle 0
  | some im =>
    (((s1.setFld fRegime (if im.locked then 1 else 2)).setFld fRegionsPer im.regions).setFld fChannels im.channels).setFld fIdle
      (64 - im.channels * im.regions)

/-- A load that waits for nothing. -/
def applyImage (s : State) (b : List Byte) : State := setMode (writeImage s b [])

/-- The outcome of a check, recorded in PKG_LOAD (R238). No SECTION is stated for a success (notes/assumptions/3.md). -/
def recordLoad (s : State) (r : Option (Nat × Nat)) : State :=
  match r with
  | some v => s.setRaw 0x000C (BitVec.ofNat 32 (v.1 + 2 ^ 16 * v.2))
  | none => s.drawn.setRaw 0x000C (BitVec.ofNat 32 (2 ^ 16 * (Config.freeValue 16 s.freeNext).toNat))

end Sys2Proof.Machine
end

