-- ==== Sys2Proof/Machine/Boot.lean ====
section
/-!
DEFINITION. Machine/Boot.lean: the flash manifest, its checks and the boot sequence, REBOOT, and a register write with every effect
(14_boot_and_trust.md R362 to R370; 17_package_power.md R414, R419 to R421).
-/
namespace Sys2Proof.Machine

def fErrA : Fld := ⟨0x40000, 4, 4⟩
def fErrB : Fld := ⟨0x40000, 8, 4⟩
def fCopyB : Fld := ⟨0x40000, 12, 1⟩
def fDefaultImage : Fld := ⟨0x40000, 13, 1⟩
def fBootEntry : Fld := ⟨0x40000, 16, 4⟩
def fRebootRefused : Fld := ⟨0x40004, 1, 1⟩
def fOwnerKeyUsed : Fld := ⟨0x40200, 1, 1⟩
def fBootIdLo : Fld := ⟨0x40210, 0, 32⟩
def fBootIdHi : Fld := ⟨0x40214, 0, 32⟩

/-! ### The manifest (R363, R364) -/

/-- Bytes of the flash (R362). -/
def flashBytes : Nat := 0x2000000

/-- Bytes of the flash from an address on. -/
def flashRange (s : State) (a n : Nat) : List Byte := (List.range n).map (fun i => flashByte s (a + i))

/-- A little-endian number in the flash. -/
def flashNat (s : State) (a n : Nat) : Nat := leNat (flashRange s a n)

/-- The flash address of a manifest copy: A, then B. -/
def manifestAt (b : Bool) : Nat := if b then 0x10000 else 0

/-- An entry of a manifest. -/
structure MfEntry where
  typ : Nat
  offset : Nat
  length : Nat
  digest : List Byte
  reserved : Bool
deriving DecidableEq, Repr

def entryCount (s : State) (b : Bool) : Nat := flashNat s (manifestAt b + 8) 1

/-- Entry i of a copy. -/
def entryOf (s : State) (b : Bool) (i : Nat) : MfEntry :=
  let o := manifestAt b + 0x90 + 48 * i
  { typ := flashNat s o 2, offset := flashNat s (o + 4) 4, length := flashNat s (o + 8) 4, digest := flashRange s (o + 16) 32
    reserved := decide (flashNat s (o + 2) 2 = 0) && decide (flashNat s (o + 12) 4 = 0) }

def entriesOf (s : State) (b : Bool) : List MfEntry := (List.range (entryCount s b)).map (entryOf s b)

def entryFor (s : State) (b : Bool) (typ : Nat) : Option MfEntry := (entriesOf s b).find? (fun e => decide (e.typ = typ))

/-- The bytes of an entry. -/
def entryBytes (s : State) (e : MfEntry) : List Byte := flashRange s e.offset e.length

def vendorKey (s : State) (b : Bool) : List Byte := flashRange s (manifestAt b + 0x10) 64
def ownerKey (s : State) (b : Bool) : List Byte := flashRange s (manifestAt b + 0x50) 64
def manifestKey (s : State) (b : Bool) : Nat := flashNat s (manifestAt b + 5) 1
def manifestBytes (s : State) (b : Bool) : List Byte := flashRange s (manifestAt b) (flashNat s (manifestAt b + 6) 2)

/-! ### The checks (R365) -/

/-- FORMAT: the fixed fields, the reserved ones, entries inside the flash, and types as R364 gives. -/
def manifestFormatOk (s : State) (b : Bool) : Bool :=
  let o := manifestAt b
  let n := entryCount s b
  if flashNat s o 4 = 0x464E4D54 ∧ flashNat s (o + 4) 1 = 1 ∧ 1 ≤ n ∧ n ≤ 16 ∧ flashNat s (o + 6) 2 = 0x90 + 48 * n + 64 ∧
      flashNat s (o + 9) 7 = 0 then
    let es := entriesOf s b
    es.all (fun e => e.reserved && decide (e.offset + e.length ≤ flashBytes) && decide (1 ≤ e.typ) && decide (e.typ ≤ 5) &&
      (decide (e.typ ≠ 1) || decide (e.length ≤ 0x800000))) &&
    decide (es.map (·.typ)).Nodup && es.any (fun e => decide (e.typ = 1)) && es.any (fun e => decide (e.typ = 2))
  else false

/-- OWNER. -/
def ownerOk (s : State) (b : Bool) : Bool :=
  if s.fuses.ownerSet then decide (manifestKey s b = 1) && decide (sha256 (ownerKey s b) = s.fuses.ownerHash)
  else decide (manifestKey s b = 0)

/-- SIGNATURE: over every byte before it. -/
def signatureOk (s : State) (b : Bool) : Bool :=
  let m := manifestBytes s b
  ecdsaVerify (if manifestKey s b = 1 then ownerKey s b else vendorKey s b) (sha256 (m.take (m.length - 64))) (m.drop (m.length - 64))

/-- The first entry whose bytes do not hash to its DIGEST. -/
def badDigest (s : State) (b : Bool) : Option Nat :=
  (List.range (entryCount s b)).find? (fun i => decide (sha256 (entryBytes s (entryOf s b i)) ≠ (entryOf s b i).digest))

/-- The first firmware or trims entry whose own signature does not verify with VENDOR_KEY. -/
def badVendorSig (s : State) (b : Bool) : Option Nat :=
  (List.range (entryCount s b)).find? (fun i =>
    let e := entryOf s b i
    if e.typ = 1 ∨ e.typ = 2 then
      let d := entryBytes s e
      decide (d.length < 64) || !ecdsaVerify (vendorKey s b) (sha256 (d.take (d.length - 64))) (d.drop (d.length - 64))
    else false)

/-- The reading of a copy and its entries finds a flash that does not answer: one of the commands given as unanswered falls to each copy that is
read, and under EXTEST the boot pins have left the core (R362, R365, 16 R409; notes/assumptions/41.md). -/
def flashFails (s : State) (b : Bool) : Bool := decide (bit b < s.flashDead) || s.extest

/-- The error of a copy, 0 when it is accepted, and the entry that failed DIGEST or VENDOR_SIG. -/
def manifestError (s : State) (b : Bool) : Nat × Nat :=
  if flashFails s b then (1, 0)
  else if !manifestFormatOk s b then (2, 0)
  else if sha256 (vendorKey s b) ≠ s.fuses.vendorHash then (3, 0)
  else if !ownerOk s b then (4, 0)
  else if !signatureOk s b then (5, 0)
  else match badDigest s b with
    | some i => (6, i)
    | none => match badVendorSig s b with
      | some i => (7, i)
      | none => if s.fuses.bankBad then (8, 0) else (0, 0)

/-! ### Boot (R366 to R369) -/

/-- Recovery: no array clock, nothing lit (R369). -/
def enterRecovery (s : State) : State :=
  let s1 := s.setFld fBootState 6
  { s1 with clock := { s1.clock with stopped := true } }

/-- The standing settings, in order, through the path of steward-port writes, which ignores address bits [1:0] (R364, R368, 13 R352). A REBOOT among them comes at another time than R370 accepts. -/
def applySettings (s : State) (l : List Byte) : State :=
  (List.range (l.length / 8)).foldl (fun t i =>
    let a := 4 * (leNat (slice l (8 * i) 4) / 4)
    let v : Word32 := BitVec.ofNat 32 (leNat (slice l (8 * i + 4) 4))
    if a = 0x40004 ∧ v.getLsbD 0 then (writeCore t a v).mark fRebootRefused else writeCore t a v) s

/-- The default image is loaded, or its refusal recorded (R368). -/
def loadDefault (s : State) (l : List Byte) : State :=
  match imageError s l true with
  | some e => recordLoad s (some e)
  | none => (recordLoad (applyImage s l) none).mark fDefaultImage

/-- BRINGUP trains the memory tiles, and the optical lanes that need no signal (R367, 11 R290). Receive lanes of intake tiles train as
LANE_SIGNAL_PRESENT finds them. -/
def trainAll (s : State) : State :=
  let s1 := (List.range (s.sitesOf 2).length).foldl (fun t i => t.mark (fTrained s i)) s
  ((allLanes s).filter (fun l => l.2.2)).foldl (fun t l => startLane t l.1 l.2.1 true) s1

/-- The boot with an accepted copy (R367). -/
def bootWith (s : State) (b : Bool) : State :=
  let s1 := (s.setFld fCopyB (bit b)).setFld fOwnerKeyUsed (if manifestKey s b = 1 then 1 else 0)
  let s2 : State := { s1 with trust := { s1.trust with
    manifestDigest := sha256 (manifestBytes s b)
    firmwareDigest := ((entryFor s b 1).map (·.digest)).getD [] } }
  let s3 := s2.setFld fBootState 3
  let s4 := match entryFor s b 3 with
    | some e => applySettings s3 (entryBytes s e)
    | none => s3
  let s5 := trainAll (s4.setFld fBootState 4)
  let s6 := match entryFor s b 4 with
    | some e => loadDefault s5 (entryBytes s e)
    | none => s5
  s6.setFld fBootState 5

/-- The manifest copies, A first (R366). ENTRY is that of the last copy that failed DIGEST or VENDOR_SIG (R378). -/
def readManifests (s0 : State) : State :=
  let a := manifestError s0 false
  let s : State := { s0 with flashDead := 0 }
  let s1 := (s.setFld fErrA a.1).setFld fBootEntry a.2
  if a.1 = 0 then bootWith s1 false
  else
    let b := manifestError s0 true
    let s2 := (s1.setFld fErrB b.1).setFld fBootEntry (if b.1 = 6 ∨ b.1 = 7 then b.2 else a.2)
    if b.1 = 0 then bootWith s2 true else enterRecovery s2

/-- Step 0 FUSES: BOOT_ID is drawn (R375); BOOT_HOLD leads to recovery (R420), else the manifests are read. -/
def bootFrom (s : State) : State :=
  let id : Word64 := Config.freeValue 64 s.freeNext
  let s1 := ((s.drawn).setFld fBootIdLo (bits id.toNat 0 32)).setFld fBootIdHi (bits id.toNat 32 32)
  withAlert s (if (s.fld fStraps).testBit 2 then enterRecovery s1 else readManifests s1)

/-- What the boot waits for is there: VIN, RAILS_GOOD, PORST_N high and REFCLK (R367, R421). -/
def bootReady (s : State) : Bool :=
  s.pins.vin && s.is fRailsGood && s.pins.porst && s.pins.refclk && decide (s.fld fBootState = 0)

def tryBoot (s : State) : State := if bootReady s then bootFrom s else s

/-- PORST_N_RISE (R367, R420). -/
def execPorstRise (straps : BitVec 4) (s : State) : Res :=
  if s.pins.porst then .next s
  else
    let s1 := sampleStraps s straps
    .next (withAlert s (tryBoot { s1 with pins := { s1.pins with porst := true } }))

/-- REFCLK_PRESENT: die 0 leaves its wait in FUSES (R421). -/
def execRefclkPresent (s : State) : Res := .next (tryBoot { s with pins := { s.pins with refclk := true } })

/-- RAILS_GOOD: soft start completes (R414). -/
def execRailsGood (s : State) : Res := .next (if s.pins.vin then withAlert s (tryBoot (s.mark fRailsGood)) else s)

/-- FLASH_TIMEOUT: a flash command in progress ends with ERR; else the flash will not answer a command of the boot to come, which fails the copy
that it reads with FLASH (R362, R365, R366, R373; notes/assumptions/41.md). -/
def execFlashTimeout (s : State) : Res :=
  match s.flashCmd with
  | some _ => .next { ((s.setFld fFlGo 0).setFld fFlBusy 0).mark fFlErr with flashCmd := none }
  | none => .next { s with flashDead := s.flashDead + 1 }

/-- An accepted REBOOT: as though PORST_N had been cycled, except that the steward port keeps running (R370). -/
def rebootPackage (s : State) (straps : BitVec 4) : State :=
  let s1 := resetPackage s
  let s2 := sampleStraps { s1 with posted := s.posted, shadow := s.shadow } straps  -- the levels of the strap pins now
  tryBoot (s2.setRaw 0x32004 (s.raw 0x32004))

/-- REBOOT is accepted in RECOVERY, and in DONE while no run is armed (R370). -/
def rebootOr (s : State) (straps : BitVec 4) : State :=
  if s.recovery || (decide (s.fld fBootState = 5) && !s.armed) then rebootPackage s straps else s.mark fRebootRefused

/-- REBOOT: BOOT_CTRL.REBOOT is written. -/
def execReboot (straps : BitVec 4) (s : State) : Res := .next (rebootOr s straps)

/-! ### A register write -/

/-- A write of the register at an address with all its effects (R8 to R10, R370); a REBOOT samples the strap pins, whose levels are those that were last
given (17 R420, notes/assumptions/42.md). -/
def regWrite (s : State) (a : Nat) (v : Word32) : State :=
  let s1 := writeCore s a v
  if a = 0x40004 ∧ v.getLsbD 0 then rebootOr s1 s1.pins.straps else s1

/-- REGISTER_WRITE: a whole aligned word (R8). -/
def execRegisterWrite (addr v : Word32) (s : State) : Res := .next (regWrite s (4 * (addr.toNat / 4)) v)

end Sys2Proof.Machine
end

