-- ==== Sys2Proof/Machine/Quantise.lean ====
section
/-!
DEFINITION. Machine/Quantise.lean: the conversion of weights to codes, scales and zero points (03_number_formats.md R83 to R86; 13_host_control.md
R344, R345). A weight is held exactly, in units of 2^-149.
-/
namespace Sys2Proof.Machine

/-- A binary32 pattern as a multiple of 2^-149; none for an infinity or a NaN. -/
def floatUnits (v : Nat) : Option Int :=
  let e := bits v 23 8
  let f := bits v 0 23
  let m : Int := if e = 0 then (f : Int) else ((2 ^ 23 + f) * 2 ^ (e - 1) : Nat)
  if e = 255 then none else some (if bits v 31 1 = 1 then -m else m)

/-- Bytes of one weight by INFMT (13 R338). -/
def inWidth (fmt : Nat) : Nat := match fmt with
  | 0 => 2
  | 1 => 4
  | _ => 1

/-- Weight i of the source. -/
def sourceWeight (fmt : Nat) (b : List Byte) (i : Nat) : Option Int :=
  let v := leNat (slice b (inWidth fmt * i) (inWidth fmt))
  match fmt with
  | 0 => floatUnits (65536 * v)
  | 1 => floatUnits v
  | _ => some (sext 8 v * (2 ^ 149 : Nat))

/-- The levels of a format by code (R66, R67). -/
def levelsOf (fmt : Nat) (cb : List Int) : List Int := (List.range (if fmt = 2 then 256 else 16)).map (level fmt cb)

def least (l : List Int) : Int := l.foldl min (l.headD 0)
def greatest (l : List Int) : Int := l.foldl max (l.headD 0)

/-- A scale (m, x) covers the weights of a group (R84): m × 2^(x - 31) × hi reaches the largest positive one, and × lo the most negative. -/
def scaleFits (m x : Nat) (hi lo pos neg : Int) : Bool :=
  decide (pos ≤ (m * 2 ^ (x + 118) : Nat) * hi) && decide (neg ≤ (m * 2 ^ (x + 118) : Nat) * lo)

/-- The scale that R84 chooses. -/
def chooseScale (ws : List Int) (hi lo : Int) : Nat × Nat :=
  let pos := ws.foldl max 0
  let neg := ws.foldl (fun a w => max a (-w)) 0
  if pos = 0 ∧ neg = 0 then (0, 0)
  else
    let x := ((List.range 64).find? (fun x => scaleFits 255 x hi lo pos neg)).getD 63
    let m := ((List.range 256).find? (fun m => decide (1 ≤ m) && scaleFits m x hi lo pos neg)).getD 255
    (m, x)

/-- The code whose level is nearest to num / den + z; of two as near, the even one (R86). -/
def nearestCode (ls : List Int) (num den z : Int) : Nat :=
  let dist (k : Nat) : Nat := (num + (z - ls.getD k 0) * den).natAbs
  (List.range ls.length).foldl (fun best k => if dist k < dist best ∨ (dist k = dist best ∧ k % 2 = 0) then k else best) 0

/-- The denominator of w / s in units of 2^-149. -/
def scaleUnits (s : Nat × Nat) : Int := (s.1 * 2 ^ (s.2 + 118) : Nat)

/-- The code of one weight (R86). -/
def codeFor (ls : List Int) (s : Nat × Nat) (z w : Int) : Nat := if s.1 = 0 then nearestCode ls 0 1 z else nearestCode ls w (scaleUnits s) z

/-- The weight of a pinned group is beyond an end level (R86). -/
def clips (ls : List Int) (s : Nat × Nat) (z w : Int) : Bool :=
  decide (s.1 ≠ 0) && (decide (greatest ls * scaleUnits s < w + z * scaleUnits s) || decide (w + z * scaleUnits s < least ls * scaleUnits s))

/-! ### Layers (13 R345) -/

/-- Inputs in one weight-store row of an output. -/
def perRow (fmt : Nat) : Nat := if fmt = 2 then 8 else 16

def placeOk (im : Image) (l : Layer) (p : LayerPlace) : Bool :=
  let groups := p.ni / l.g
  decide (p.tregion < im.regions) && decide (p.cluster ≤ 7) && decide (p.unit ≤ 7) && decide (p.menu ≤ 15) && decide (p.o0 % 32 = 0) &&
    decide (p.o0 < l.out) && decide (p.i0 % l.g = 0) && decide (p.ni % l.g = 0) && decide (l.g ≤ p.ni) && decide (p.i0 + p.ni ≤ l.inp) &&
    decide (p.row + p.ni / perRow l.format - 1 ≤ 511) && decide (p.set + groups - 1 ≤ 127) && decide (p.zp + groups - 1 ≤ 63)

/-- No placement or pinned entry breaks the limits, and neither does G. -/
def layerOk (im : Image) (l : Layer) : Bool :=
  (decide (l.g = 32) || decide (l.g = 64) || decide (l.g = 128)) && l.places.all (placeOk im l) &&
    l.pins.all (fun p => decide (p.o < l.out) && decide (p.group < l.inp / l.g))

/-- A placed unit's format disagrees with the layer's, or its W4B codebook with that of the layer's first unit (04 R97). -/
def formatsDiffer (s : State) (im : Image) (l : Layer) : Bool :=
  let us := l.places.flatMap (unitsOf im)
  us.any (fun g => decide (s.fld (fFormat g) ≠ l.format) || (decide (l.format = 0) && decide (codebook s g ≠ codebook s (us.headD 0))))

def layerLevels (s : State) (im : Image) (l : Layer) : List Int :=
  levelsOf l.format (codebook s ((l.places.flatMap (unitsOf im)).headD 0))

/-- The pinned entry of a group of an output. -/
def pinOf (l : Layer) (o j : Nat) : Option LayerPin := l.pins.find? (fun p => decide (p.o = o) && decide (p.group = j))

/-- The zero point of local group j of output row o of a placement: pinned, or as loaded; 0 for a layer to which the image supplies none (R70). -/
def groupZero (s : State) (im : Image) (l : Layer) (p : LayerPlace) (o j : Nat) : Int :=
  match pinOf l (p.o0 + o) (p.i0 / l.g + j) with
  | some q => q.zp
  | none => if l.zeroGiven = false then 0 else zeroPoint (s.unit ((unitsOf im p).headD 0)).zp (p.zp + j) o

/-- A zero point lies outside the levels, or at an end (R83). -/
def zeroBad (ls : List Int) (z : Int) : Bool := decide (z ≤ least ls) || decide (greatest ls ≤ z)

/-- R83 refuses the layer before a weight is read. -/
def layerRefused (s : State) (im : Image) (l : Layer) : Bool :=
  let ls := layerLevels s im l
  decide (2 < l.format) ||
    (decide (l.format = 0) && (List.range 15).any (fun k => decide (ls.getD (k + 1) 0 ≤ ls.getD k 0))) ||
    decide (l.out * (l.inp / l.g) / 16 < ((l.pins.map (fun p => (p.o, p.group))).eraseDups).length) ||
    l.places.any (fun p => (List.range 32).any (fun o => decide (p.o0 + o < l.out) && (List.range (p.ni / l.g)).any (fun j => zeroBad ls (groupZero s im l p o j)))) ||
    l.pins.any (fun p => zeroBad ls p.zp)

/-- R83 refuses a weight. -/
def weightRefused (w : Option Int) : Bool :=
  match w with
  | none => true
  | some v => decide ((2 ^ 188 : Nat) ≤ v) || decide (v ≤ -((2 ^ 188 : Nat) : Int))

/-! ### Conversion of a placement -/

/-- The weights of local group j of output row o; zeros where the row holds no output of the layer. -/
def groupWeights (ws : Nat → Int) (l : Layer) (p : LayerPlace) (o j : Nat) : List Int :=
  (List.range l.g).map (fun i => if p.o0 + o < l.out then ws ((p.o0 + o) * l.inp + p.i0 + l.g * j + i) else 0)

/-- The scale of the group: pinned, chosen, or disabled where the row holds no output. -/
def groupScale (s : State) (im : Image) (ws : Nat → Int) (ls : List Int) (l : Layer) (p : LayerPlace) (o j : Nat) : Nat × Nat :=
  match pinOf l (p.o0 + o) (p.i0 / l.g + j) with
  | some q => (bits q.scale.toNat 0 8, bits q.scale.toNat 8 6)
  | none =>
    let z := groupZero s im l p o j
    chooseScale (groupWeights ws l p o j) (greatest ls - z) (z - least ls)

/-- The scale word written. -/
def scaleWordFor (s : State) (im : Image) (ws : Nat → Int) (ls : List Int) (l : Layer) (p : LayerPlace) (o j : Nat) : Nat :=
  match pinOf l (p.o0 + o) (p.i0 / l.g + j) with
  | some q => q.scale.toNat
  | none =>
    let c := groupScale s im ws ls l p o j
    c.1 + 256 * c.2

def groupCodes (s : State) (im : Image) (ws : Nat → Int) (ls : List Int) (l : Layer) (p : LayerPlace) (o j : Nat) : List Nat :=
  let sc := groupScale s im ws ls l p o j
  let z := groupZero s im l p o j
  (groupWeights ws l p o j).map (codeFor ls sc z)

/-- One group written into a unit: its codes, its scale word, and its zero point where QUANTISE supplies it (R70, R94, R95; 09 R228). -/
def writeGroup (base fmt : Nat) (p : LayerPlace) (codes : List Nat) (scale : Nat) (zero : Option Int) (g o j : Nat) (u : DotUnit) : DotUnit :=
  let n := perRow fmt
  let rows := g / n
  let weight := (List.range rows).foldl (fun (m : Store) k =>
    let w := (slice codes (n * k) n).reverse.foldl (fun a c => a * 2 ^ (64 / n) + c) 0
    m.put (32 * ((p.row + j * rows + k + base) % 512) + o) (BitVec.ofNat 64 w)) u.weight
  let x := 8 * (p.set + j) + o / 4
  let y := 4 * (p.zp + j) + o / 8
  { u with
    weight := weight
    scale := u.scale.put x (putW (u.scale.word x) (16 * (o % 4)) 16 scale)
    zp := match zero with
      | some z => u.zp.put y (putW (u.zp.word y) (8 * (o % 8)) 8 (low 8 z))
      | none => u.zp }

/-- The zero point that QUANTISE writes for a group: the pinned one, or 0 for a layer to which the image supplies none; the others stand as loaded. -/
def zeroWritten (l : Layer) (o j : Nat) : Option Int :=
  match pinOf l o j with
  | some q => some q.zp
  | none => if l.zeroGiven then none else some 0

/-- A placement written into every channel's copy. -/
def writePlace (s0 : State) (im : Image) (ws : Nat → Int) (ls : List Int) (l : Layer) (acc : State) (p : LayerPlace) : State :=
  let us := unitsOf im p
  let base := s0.fld (fMenuBase (us.headD 0) p.menu)
  (List.range 32).foldl (fun a o => (List.range (p.ni / l.g)).foldl (fun (b : State) j =>
    let codes := groupCodes s0 im ws ls l p o j
    let sw := scaleWordFor s0 im ws ls l p o j
    let zero := zeroWritten l (p.o0 + o) (p.i0 / l.g + j)
    us.foldl (fun (x : State) g => x.setUnit g (writeGroup base l.format p codes sw zero l.g o j (x.unit g))) b) a) acc

/-- The weights of a pinned group that are clipped (R86). -/
def pinClips (ws : Nat → Int) (ls : List Int) (l : Layer) (q : LayerPin) : Nat :=
  ((List.range l.g).filter (fun i => clips ls (bits q.scale.toNat 0 8, bits q.scale.toNat 8 6) q.zp (ws (q.o * l.inp + l.g * q.group + i)))).length

/-- The clipped weights of a layer, each group's once (R86). -/
def layerClips (ws : Nat → Int) (ls : List Int) (l : Layer) : Nat :=
  ((((l.pins.map (fun q => (q.o, q.group))).eraseDups.filterMap (fun e => pinOf l e.1 e.2))).map (pinClips ws ls l)).foldl (· + ·) 0

/-- The whole layer, and its clipped weights. -/
def writeLayer (s : State) (im : Image) (ws : Nat → Int) (l : Layer) : State × Nat :=
  let ls := layerLevels s im l
  (l.places.foldl (writePlace s im ws ls l) s, layerClips ws ls l)

end Sys2Proof.Machine
end

