-- ==== Sys2Proof/Machine/HostRing.lean ====
section
/-!
DEFINITION. Machine/HostRing.lean: the ring engine: descriptors, the configuration lock, completions and notices
(13_host_control.md R328 to R339). The READ and WRITE flits of a ring path wait in its access context for the egress arbiter; what the host
answers to the READs comes with the command, or in DATA flits (notes/assumptions/17.md).
-/
namespace Sys2Proof.Machine

def fEngineRing : Fld := ⟨0x32000, 0, 6⟩
def fEngineBusy : Fld := ⟨0x32000, 6, 1⟩
def fEngineLocked : Fld := ⟨0x32000, 7, 1⟩
def fEngineLockRing : Fld := ⟨0x32000, 8, 6⟩

/-! ### Statuses (R339) -/

def stOpcode : Nat := 0x0001
def stRange : Nat := 0x0002
def stHostErr : Nat := 0x0003
def stBusy : Nat := 0x0004
def stState : Nat := 0x0005
def stSched : Nat := 0x0006
def stPoison : Nat := 0x0007
def stImageChanged : Nat := 0x0009
def stQuantRefused : Nat := 0x000A
def stLockPending : Nat := 0x000B

/-! ### Descriptors (R330, R338) -/

/-- A little-endian field of a descriptor: `n` bytes from offset `o`. -/
def opn (b : List Byte) (o n : Nat) : Nat := leNat (slice b o n)

def opcodeOf (b : List Byte) : Nat := opn b 0 2
def refOf (b : List Byte) : BitVec 24 := BitVec.ofNat 24 (opn b 8 3)
def a3Of (b : List Byte) : Nat := opn b 11 1

/-- The operand bits that a command names, as (byte offset, width in bits); none for an unknown opcode (R338). -/
def operandBits (op : Nat) : Option (List (Nat × Nat)) :=
  match op with
  | 0x0001 | 0x0002 => some [(0x10, 48), (0x16, 1), (0x18, 32), (0x20, 48)]
  | 0x0003 => some [(0x10, 48), (0x16, 3), (0x18, 32), (0x1C, 16)]
  | 0x0010 | 0x0011 | 0x0012 => some [(0x10, 48), (0x18, 48), (0x20, 32)]
  | 0x0020 | 0x0021 => some []
  | 0x0022 | 0x0030 => some [(0x08, 32)]
  | 0x0031 => some [(0x10, 48), (0x18, 32), (0x20, 32)]
  | 0x0032 => some [(0x10, 48), (0x18, 32), (0x1C, 4)]
  | 0x0040 => some [(0x10, 256), (0x30, 48)]
  | 0x0041 => some [(0x10, 8), (0x11, 1)]
  | 0x0050 => some [(0x10, 8), (0x11, 1), (0x18, 64)]
  | 0x0051 => some [(0x10, 4)]
  | 0x0052 => some [(0x10, 16), (0x12, 1)]
  | _ => none

/-- The bits of the words (offset, width) of a descriptor. -/
def descMask (l : List (Nat × Nat)) : BitVec 512 :=
  l.foldl (fun a e => a ||| (BitVec.ofNat 512 (2 ^ e.2 - 1) <<< (8 * e.1))) 0

/-- Opcode known, every reserved bit zero, and no reserved operand value: INFMT 0b11 (R344), or a COUNT of 0 barriers. -/
def validDesc (b : List Byte) : Bool :=
  match operandBits (opcodeOf b) with
  | none => false
  | some l =>
    let m := descMask ([(0, 17), (4, 32)] ++ l)
    decide (BitVec.ofNat 512 (leNat b) &&& ~~~m = 0) &&
      !(decide (opcodeOf b = 3) && decide (bits (opn b 0x16 1) 1 2 = 3)) && !(decide (opcodeOf b = 0x52) && decide (opn b 0x10 2 = 0))

/-- LOAD_IMAGE, QUANTISE, ARM_RUN, DISARM, BIST and BARRIER_TEST (R336). -/
def exclusive (op : Nat) : Bool := [0x0001, 0x0003, 0x0020, 0x0021, 0x0051, 0x0052].contains op

/-! ### Pairs and the engine (R335, R336) -/

/-- The ring path has a group: an access context whose SITE and LEAD name a fabric group (R328, R341). -/
def pathHasGroup (s : State) (r : Nat) : Bool :=
  let x := s.fld (fHrgPath r)
  let g := ctxGroup s x
  decide (s.fld (fCtxKind x) = 4) && isPair s g.1 g.2 && isLead s g.1 g.2

/-- The READs for a range of host memory, 4,096 bytes to a flit, their TAGs going round (R328, 12 R299; notes/assumptions/17.md). -/
def readsFor (r : Nat) (cmd : Option Nat) (second : Bool) (tag : Byte) (n : Nat) : List HostRead :=
  (List.range ((n + 4095) / 4096)).map (fun i => { tag := tag + BitVec.ofNat 8 i, pair := r, cmd, second, base := 4096 * i, len := min 4096 (n - 4096 * i) })

/-- The READ flit of a READ. -/
def readFlit (addr : Nat) (h : HostRead) : Flit :=
  ⟨false, 0, true, true, false, .read (BitVec.ofNat 48 (addr + h.base)) (BitVec.ofNat 12 (h.len - 1)) h.tag⟩

/-- A range of host memory is read by the ring path, for the command with this index or for the fetch of one (R328). -/
def askHost (s : State) (r addr n : Nat) (cmd : Option Nat) (second : Bool) : State :=
  let x := s.fld (fHrgPath r)
  let c := s.ctx x
  let l := readsFor r cmd second c.nextTag n
  reply (s.setCtx x { c with reads := c.reads ++ l, nextTag := c.nextTag + BitVec.ofNat 8 l.length }) x (l.map (readFlit addr))

/-- Bytes are written into host memory by the ring path (R328, R333). -/
def hostWrite (s : State) (r addr : Nat) (bytes : List Byte) : State := reply s (s.fld (fHrgPath r)) (writeFlits addr bytes)

def ringAddr (s : State) (r o : Nat) : Nat := s.fld ⟨ringBase r + o, 0, 32⟩ + 2 ^ 32 * s.fld ⟨ringBase r + o + 4, 0, 16⟩

/-- Descriptors that the engine holds, read and not yet completed, of every pair (R335). -/
def heldDescs (s : State) : Nat :=
  ((List.range 64).map (fun r => (s.ring r).ahead.length + bit (s.ring r).cur.isSome)).sum

/-- DESCRIPTOR_FETCH: the engine reads a pair's next descriptor while HEAD ≠ TAIL, of all pairs at most 64 (R335). -/
def execDescriptorFetch (rx : RingIx) (bytes : List Byte) (s : State) : Res :=
  let r := rx.val
  let v := s.ring r
  let h := s.fld (fHead r)
  if s.is (fHrgEnable r) && pathHasGroup s r && decide (h ≠ s.fld (fTail r)) && decide (bytes.length = 64) && decide (heldDescs s < 64) then
    let s1 := askHost s r (ringAddr s r 0x08 / 64 * 64 + 64 * h) 64 none false
    .next ((s1.setRing r { v with ahead := v.ahead ++ [(h, bytes)] }).setFld (fHead r) ((h + 1) % ringSize s r))
  else .next s

/-- LOAD_IMAGE, VERIFY_IMAGE or QUANTISE takes its source from the package's space: SRC_PKG (R338). -/
def fromPackage (b : List Byte) : Bool := decide (bits (opn b 0x16 1) 0 1 = 1)

/-- The command reads from the host: LOAD_IMAGE, VERIFY_IMAGE and QUANTISE without SRC_PKG, and WRITE_MEM. -/
def readsHost (b : List Byte) : Bool :=
  let op := opcodeOf b
  decide (op = 0x10) || ([1, 2, 3].contains op && !fromPackage b)

/-- The command waits for what the host answers to its READs. -/
def awaitsHost (c : RingCmd) : Bool :=
  match c.phase with
  | .reading given _ _ _ _ => given.isEmpty && !fromPackage c.bytes
  | .moving _ given held _ => decide (opcodeOf c.bytes = 0x10) && held.isEmpty && decide (given.length < 8)
  | _ => false

/-- The pair has work for the engine: a command to begin, a step of a move, or a completion to write. -/
def hasWork (s : State) (r : Nat) : Bool :=
  let v := s.ring r
  match v.cur with
  | none => !v.ahead.isEmpty
  | some c => match c.phase with
    | .done _ _ => true
    | .moving _ _ _ _ => !awaitsHost c
    | .reading _ _ _ _ _ => !awaitsHost c
    | .testing _ _ => true
    | _ => false

/-- The engine gives the next step to the lowest-numbered pair that has work, once no step runs (R335). -/
def engineServes (s : State) (r : Nat) : Bool := !s.is fEngineBusy && (List.range r).all (fun q => !hasWork s q)

/-- The descriptor that pair r is to begin, when the engine serves it and its opcode is `op`. -/
def headDesc (s : State) (r op : Nat) : Option (List Byte) :=
  match (s.ring r).cur, (s.ring r).ahead with
  | none, (_, b) :: _ => if engineServes s r && decide (opcodeOf b = op) then some b else none
  | _, _ => none

/-- A step of pair r runs (R335, R360). -/
def runStep (s : State) (r : Nat) : State := (s.mark fEngineBusy).setFld fEngineRing r

/-- The head descriptor becomes the command at work, and its first step runs. -/
def takeHead (s : State) (r : Nat) : State :=
  let v := s.ring r
  match v.ahead with
  | [] => s
  | (i, b) :: rest => runStep ((s.setRing r { v with ahead := rest, cur := some ⟨i, b, .done 0 0⟩ }).mark (fRingActive r)) r

/-- What the pair's command waits for, or how it ended. -/
def setPhase (s : State) (r : Nat) (p : CmdPhase) : State :=
  let v := s.ring r
  s.setRing r { v with cur := v.cur.map (fun c => { c with phase := p }) }

/-- The command waits for an event: its step ends (R335). -/
def waitPhase (s : State) (r : Nat) (p : CmdPhase) : State := (setPhase s r p).setFld fEngineBusy 0

/-- The command ends with a status and a RESULT; ENGINE_STEP writes its completion. -/
def endCmd (s : State) (r status result : Nat) : State := setPhase s r (.done status (BitVec.ofNat 64 result))

def lockedByOther (s : State) (r : Nat) : Bool := s.is fEngineLocked && decide (s.fld fEngineLockRing ≠ r)
def takeLock (s : State) (r : Nat) : State := (s.mark fEngineLocked).setFld fEngineLockRing r

/-- A command of opcode `op` runs on pair r (R330, R335, R336): `run` gets the descriptor. -/
def serve (s : State) (r op : Nat) (run : State → List Byte → State) : Res :=
  match headDesc s r op with
  | none => .next s
  | some b =>
    let s1 := takeHead s r
    if !validDesc b then .next (endCmd s1 r stOpcode 0)
    else if exclusive op && lockedByOther s r then .next (endCmd s1 r stBusy 0)
    else .next (run (if exclusive op then takeLock s1 r else s1) b)

/-! ### Completions (R331, R333) -/

/-- The 16 bytes of a completion. -/
def completionBytes (c : RingCmd) (phase status : Nat) (result : Word64) : List Byte :=
  leBytes 2 status ++ leBytes 2 (c.index + 2 ^ 15 * phase) ++ slice c.bytes 4 4 ++ leBytes 8 result.toNat

/-- The payload of a notice flit. -/
def noticePayload (r : Nat) (c : RingCmd) (status : Nat) : BitVec 256 :=
  BitVec.ofNat 256 (r + 2 ^ 12 * c.index + 2 ^ 24 * status + 2 ^ 64 * opn c.bytes 4 4)

/-- The completion is written, with its notice; PHASE inverts at a wrap, the lock is released, and the pair goes on or stops. -/
def complete (s : State) (r : Nat) (c : RingCmd) (status : Nat) (result : Word64) : State :=
  let phase := s.fld (fPhase r)
  let base := ringAddr s r 0x10 / 16 * 16
  let s1 := hostWrite s r (base + 16 * c.index) (completionBytes c phase status result)
  let s2 := if bits (opn c.bytes 2 2) 0 1 = 1 then
      reply s1 (s1.fld (fHrgPath r)) [⟨false, BitVec.ofNat 14 (s1.fld (fNoticeStream r)), true, true, false, .notice (noticePayload r c status)⟩]
    else s1
  let s3 := ((s2.setFld (fLastStatus r) status).bump (fRingDone r)).setFld (fRingActive r) 0
  let s4 := if c.index + 1 = ringSize s r then s3.setFld (fPhase r) (1 - phase) else s3
  let s5 := if s4.is fEngineLocked && decide (s4.fld fEngineLockRing = r) then (s4.setFld fEngineLocked 0).setFld fEngineLockRing 0 else s4
  ((s5.setRing r { s5.ring r with cur := none, compl := some { addr := base + 16 * c.index, bytes := completionBytes c phase status result } }).setFld
    fEngineRing r).setFld fEngineBusy 0

/-! ### What a command waits for -/

/-- The phase of the pair's command. -/
def phaseOf (s : State) (r : Nat) : Option CmdPhase := (s.ring r).cur.map (fun c => c.phase)

/-- The lanes of a site that a mask names. -/
def maskLanes (s : State) (site : Nat) (tx : Bool) (mask : Word64) : List Nat :=
  if site < 16 then (List.range (if tx then txLanes s site else rxLanes s site)).filter (fun j => mask.getLsbD j) else []

/-- The named lanes that are UP. -/
def lanesUp (s : State) (site : Nat) (tx : Bool) (mask : Word64) : Nat :=
  ((maskLanes s site tx mask).filter (fun j => decide (laneState s site j tx = 2))).foldl (fun a j => a + 2 ^ j) 0

/-- A wait that is over ends the command: no named lane trains (LINK_TRAIN), or every barrier is released (BARRIER_TEST, R346). -/
def settleWait (s : State) (r : Nat) : State :=
  match phaseOf s r with
  | some (.waitTrain site tx mask) =>
    if (maskLanes s site tx mask).any (fun j => decide (laneState s site j tx = 1 ∨ laneState s site j tx = 3)) then s
    else endCmd s r 0 (lanesUp s site tx mask)
  | some (.waitBarriers sys left count longest) =>
    if !s.runs then s
    else if !sys then endCmd (s.bump fStageBarriers count) r 0 (count + 2 ^ 16 * (longest % 2 ^ 32))
    else if s.stage.sysWait then s
    else if left ≤ 1 then endCmd s r 0 (count + 2 ^ 16 * (longest % 2 ^ 32))
    else setPhase (arriveSystem s) r (.waitBarriers true (left - 1) count longest)
  | _ => s

/-- An unknown opcode, or a reserved field that is not zero, is found at the first step (R330). -/
def settleHead (s : State) (r : Nat) : State :=
  match (s.ring r).cur, (s.ring r).ahead with
  | none, (_, b) :: _ => if validDesc b || !engineServes s r then s else endCmd (takeHead s r) r stOpcode 0
  | _, _ => s

/-- What one step of the engine does for pair r: ends a wait that is over, or a command that names no operation. -/
def settlePair (s : State) (r : Nat) : State := settleHead (settleWait s r) r

/-- The pair's command has ended. -/
def ended (s : State) (r : Nat) : Option (RingCmd × Nat × Word64) :=
  match (s.ring r).cur with
  | some c => match c.phase with
    | .done st res => some (c, st, res)
    | _ => none
  | none => none

/-- The pair's READs are given up: those not sent are not sent any more. -/
def dropReads (s : State) (r : Nat) : State :=
  let x := s.fld (fHrgPath r)
  let c := s.ctx x
  let unsent (f : Flit) : Bool := match f.body with
    | .read _ _ tag => c.reads.any (fun h => decide (h.pair = r) && !h.sent && decide (h.tag = tag))
    | _ => false
  s.setCtx x { c with reads := c.reads.filter (fun h => decide (h.pair ≠ r)), outq := c.outq.filter (fun f => !unsent f) }

/-- The command at work stops because the host's answer fails: RESULT holds the bytes that a move has moved (R337). -/
def hostFails (s : State) (r : Nat) : State :=
  match (s.ring r).cur with
  | some c =>
    if !readsHost c.bytes then s
    else match c.phase with
      | .moving n _ _ _ => endCmd (dropReads s r) r stHostErr n
      | .reading _ _ _ _ _ => endCmd (dropReads s r) r stHostErr 0
      | _ => s
  | none => s

/-- HOST_READ_TIMEOUT: the command that reads from the host, at its start or while it reads, ends with HOST_ERR (R337). -/
def execHostReadTimeout (rx : RingIx) (s : State) : Res :=
  match (s.ring rx.val).cur, (s.ring rx.val).ahead with
  | some _, _ => .next (hostFails s rx.val)
  | none, (_, b) :: _ =>
    if readsHost b then serve s rx.val (opcodeOf b) (fun t _ => endCmd t rx.val stHostErr 0) else .next s
  | none, [] => .next s

end Sys2Proof.Machine
end

