-- ==== Sys2Proof/Machine/HostCmds.lean ====
section
/-!
DEFINITION. Machine/HostCmds.lean: what each host command does (13_host_control.md R338, R340 to R346, R350, R351; 14 R374 to R376; 15 R385, R386;
16 R402).
-/
namespace Sys2Proof.Machine

/-! ### Package memory (R341) -/

/-- A range of the package address space lies wholly in one cluster store or one memory tile, or, as a source, in the region-cache arrays. -/
def rangeOk (s : State) (a n : Nat) (source : Bool) : Bool :=
  decide (0 < n) && match placeOf s a, placeOf s (a + n - 1) with
    | .store k _, .store j _ => decide (k = j)
    | .tile t _, .tile u _ => decide (t = u)
    | .cache _ _, .cache _ _ => source
    | _, _ => false

/-- Words read from the package address space, and whether each is poisoned. -/
def pkgWords : Nat → State → Nat → List (Word64 × Bool) × State
  | 0, s, _ => ([], s)
  | n + 1, s, a => match busRead s a with
    | some (w, p, t) =>
      let r := pkgWords n t (a + 8)
      ((w, p) :: r.1, r.2)
    | none => ([], s)

/-- Words written to the package address space. -/
def pkgWrite : List (Word64 × Bool) → State → Nat → State
  | [], s, _ => s
  | (w, p) :: rest, s, a => pkgWrite rest ((busWrite s a w p).getD s) (a + 8)

def wordBytes (l : List (Word64 × Bool)) : List Byte := l.flatMap (fun e => leBytes 8 e.1.toNat)

/-! ### The memory port of a host transfer (07 R179, R180; 10 R244, R247) -/

/-- The memory tile that an address of the package's space lies in, and the word there. -/
def tileOf (s : State) (a : Nat) : Option (Nat × Nat) := match placeOf s a with
  | .tile t w => some (t, w)
  | _ => none

/-- What one access takes of `n` bytes from an address: of a memory tile up to the end of a burst (10 R244), of anything else all. -/
def burstLen (s : State) (a n : Nat) : Nat := if (tileOf s a).isSome then min n (64 - a % 64) else n

/-- The port of an address is the host transfer's: a memory tile's controller has granted it a burst. -/
def hostMay (s : State) (a : Nat) : Bool := match tileOf s a with
  | some (t, _) => decide (grantee s (.memory (Fin.ofNat 8 t)) = some .host)
  | none => true

/-- The burst is used. -/
def usePort (s : State) (a : Nat) : State := match tileOf s a with
  | some (t, _) => serveArb s (.memory (Fin.ofNat 8 t))
  | none => s

/-- The words of one access read, over a link with these errors. -/
def readPart (s : State) (a words : Nat) (link : LinkEcc) : List (Word64 × Bool) × State :=
  match tileOf s a with
  | some (t, w) => tileReads (usePort s a) t link w 0 words
  | none => pkgWords words s a

/-- The words of one access written, over a link with these errors. -/
def putPart (s : State) (a : Nat) (l : List (Word64 × Bool)) (link : LinkEcc) : State :=
  match tileOf s a with
  | some (t, w) => spoilWords (pkgWrite l (usePort s a) a) t w l.length link
  | none => pkgWrite l s a

/-! ### Steps (R335) -/

/-- The bytes left of a transfer of `n`, within the step, when `p` have been moved of it and `q` of the steps. -/
def stepLeft (p q n : Nat) : Nat := min (n - p) (262144 - q % 262144)

/-- The bytes that LOAD_IMAGE and VERIFY_IMAGE read, and those of QUANTISE's weights. -/
def sourceLen (b : List Byte) : Nat :=
  if opcodeOf b = 3 then opn b 0x18 4 * inWidth (bits (opn b 0x16 1) 1 2) else opn b 0x18 4

/-- The source is within the limits of R341. -/
def sourceOk (s : State) (r : Nat) (b : List Byte) : Bool :=
  let n := sourceLen b
  if fromPackage b then decide (opn b 0x10 6 % 8 = 0) && rangeOk s (opn b 0x10 6) n true else decide (0 < n) && pathHasGroup s r

/-- A read of the source begins; of host memory by READs, which `given` answers (R328, R342). -/
def openSource (s : State) (r : Nat) (c : RingCmd) (given later prior : List Byte) : State :=
  let s1 := if fromPackage c.bytes then s
    else askHost s r (opn c.bytes 0x10 6) (sourceLen c.bytes) (some c.index) (!prior.isEmpty)
  setPhase s1 r (.reading given later prior [] [])

def fLoadSection : Fld := ⟨0x000C, 16, 16⟩

/-- The digest goes to DIGEST, where it is not 0. -/
def writeDigest (s : State) (r : Nat) (b digest : List Byte) : State :=
  let a := opn b 0x20 6
  if a = 0 then s else hostWrite s r a digest

/-- DIGEST names host memory that the ring path reaches (R341). -/
def digestOk (s : State) (r : Nat) (b : List Byte) : Bool := decide (opn b 0x20 6 = 0) || pathHasGroup s r

/-- From the confirmation of a trip, and after a supply stop, LOAD_IMAGE and ARM_RUN are refused (15 R393, 17 R418). -/
def stopsRuns (s : State) : Bool := s.is fSupplyStop || s.thermal.tripConfirmed

/-- The status of a command that has moved words, some of them poisoned (R339). -/
def movedStatus (bad : List Nat) : Nat := if bad.isEmpty then 0 else stPoison

/-! ### LOAD_IMAGE and VERIFY_IMAGE (R342, 09 R235 to R238) -/

/-- LOAD_IMAGE has read the image once: its digest is written, and it is checked; then it is read again. -/
def loadChecked (s : State) (r : Nat) (c : RingCmd) (later x : List Byte) : State :=
  let s1 := writeDigest s r c.bytes (sha256 x)
  match imageError s1 x true with
  | some e => endCmd (recordLoad s1 (some e)) r e.1 e.2
  | none => openSource s1 r c later [] x

/-- LOAD_IMAGE has read the image `x` again: it is loaded, unless the reads differ. -/
def loadRead (s : State) (r : Nat) (x y : List Byte) (bad : List Nat) : State :=
  if sha256 y ≠ sha256 x then endCmd (setMode (dropImage s)) r stImageChanged 0
  else
    let s1 := recordLoad (writeImage s y bad) none
    if (headerOf y).n = s.n then endCmd (setMode s1) r (movedStatus bad) (s1.fld fLoadSection)
    else if s.fld fState = 0 then endCmd (setMode s1) r stLockPending (s1.fld fLoadSection)
    else waitPhase ((s1.mark fLoading).setFld fRegime 0) r (.waitLock (!bad.isEmpty))

/-- VERIFY_IMAGE has read the image (09 R237). -/
def verifyRead (s : State) (r : Nat) (c : RingCmd) (x : List Byte) : State :=
  let s1 := writeDigest s r c.bytes (sha256 x)
  let e := imageError s1 x false
  let s2 := recordLoad s1 e
  endCmd s2 r ((e.map (·.1)).getD 0) (s2.fld fLoadSection)

/-! ### QUANTISE (R344) -/

/-- QUANT_DIGEST and QUANT_COUNT (14 R376). -/
def chainQuant (s : State) (b source : List Byte) : State :=
  let t := s.trust
  { s with trust := { t with
    quantDigest := sha256 (t.quantDigest ++ slice b 0x1C 2 ++ leBytes 1 (bits (opn b 0x16 1) 1 2) ++ source)
    quantCount := min 65535 (t.quantCount + 1) } }

def refuseQuant (s : State) (r reason : Nat) : State := endCmd s r stQuantRefused (2 ^ 48 * reason)

/-- The layer that a QUANTISE names. -/
def quantLayer (s : State) (b : List Byte) : Option (Image × Layer) :=
  match s.image with
  | some im => (im.layers[opn b 0x1C 2]?).map (fun l => (im, l))
  | none => none

/-- QUANTISE has read its weights: those of R83 judged as they are read, then the layer written (03 R83 to R86). -/
def quantRead (s : State) (r : Nat) (c : RingCmd) (x : List Byte) (bad : List Nat) : State :=
  match quantLayer s c.bytes with
  | none => endCmd s r stState 0
  | some (im, l) =>
    let w (i : Nat) : Option Int := sourceWeight (bits (opn c.bytes 0x16 1) 1 2) x i
    if (List.range (l.out * l.inp)).any (fun i => weightRefused (w i)) then refuseQuant s r 1
    else
      let y := writeLayer s im (fun i => (w i).getD 0) l
      endCmd (chainQuant y.1 c.bytes x) r (movedStatus bad) (min (2 ^ 32 - 1) y.2 + 2 ^ 32 * (l.pins.length % 65536))

/-! ### WRITE_MEM, READ_MEM, COPY (R341) -/

/-- SRC, DST and LEN are multiples of 8, and LEN is not 0. -/
def wholeWords (b : List Byte) : Bool :=
  decide (opn b 0x10 6 % 8 = 0) && decide (opn b 0x18 6 % 8 = 0) && decide (opn b 0x20 4 % 8 = 0) && decide (0 < opn b 0x20 4)

/-- The end of a move: bytes moved, and for what reads the package the offset of the first poisoned word (R338, R339). -/
def endMove (s : State) (r n : Nat) (bad : Option Nat) : State :=
  endCmd s r (if bad.isSome then stPoison else 0) (n + 2 ^ 32 * bad.getD 0)

/-- A COPY whose source and destination share words. -/
def copyOverlaps (b : List Byte) : Bool :=
  decide (opcodeOf b = 0x12) && decide (opn b 0x10 6 < opn b 0x18 6 + opn b 0x20 4) && decide (opn b 0x18 6 < opn b 0x10 6 + opn b 0x20 4)

/-- The move reads its source before it can write on: it holds nothing, or it is a COPY that overlaps, of which the whole source is read first
(R341). -/
def readsNext (b : List Byte) (moved : Nat) (held : List (Word64 × Bool)) : Bool :=
  held.isEmpty || (copyOverlaps b && decide (moved + 8 * held.length < opn b 0x20 4))

/-- The bytes that the steps of a move have moved: of a COPY that overlaps into the engine, and then out of it. -/
def stepDone (b : List Byte) (moved : Nat) (held : List (Word64 × Bool)) : Nat :=
  if readsNext b moved held then moved + 8 * held.length else if copyOverlaps b then opn b 0x20 4 + moved else moved

/-- The next read of a move: words from the package, or what the host has answered of WRITE_MEM's data. Nothing while the memory port or the answer
is waited for. -/
def moveIn (s : State) (b : List Byte) (moved : Nat) (given : List Byte) (held : List (Word64 × Bool)) (link : LinkEcc) :
    Option (List (Word64 × Bool) × List Byte × State) :=
  let p := moved + 8 * held.length
  if opcodeOf b = 0x10 then
    let k := min (stepLeft p p (opn b 0x20 4)) (given.length / 8 * 8)
    if k = 0 then none else some ((wordsOf (k / 8) given).map (fun w => (w, false)), given.drop k, s)
  else
    let a := opn b 0x18 6 + p
    if hostMay s a then
      let x := readPart s a (burstLen s a (stepLeft p p (opn b 0x20 4)) / 8) link
      some (x.1, given, x.2)
    else none

/-- The words of a part go to the package, where the memory port may have to be waited for, or to the host: how many, and the state after. -/
def moveOut (s : State) (r : Nat) (b : List Byte) (moved : Nat) (held : List (Word64 × Bool)) (link : LinkEcc) : Option (Nat × State) :=
  let a := opn b 0x10 6 + moved
  let k := min (8 * held.length) (stepLeft moved (stepDone b moved held) (opn b 0x20 4))
  if opcodeOf b = 0x10 ∨ opcodeOf b = 0x12 then
    if hostMay s a then
      let n := burstLen s a k / 8
      some (n, putPart s a (held.take n) link)
    else none
  else some (k / 8, hostWrite s r a (wordBytes (held.take (k / 8))))

/-- One part of a move. -/
def movePart (s : State) (r : Nat) (c : RingCmd) (moved : Nat) (given : List Byte) (held : List (Word64 × Bool)) (bad : Option Nat)
    (link : LinkEcc) : Option State :=
  let b := c.bytes
  if readsNext b moved held then
    (moveIn s b moved given held link).map (fun x =>
      let first := (x.1.findIdx? (fun e => e.2)).map (fun i => moved + 8 * held.length + 8 * i)
      setPhase x.2.2 r (.moving moved x.2.1 (held ++ x.1) (bad.or first)))
  else
    (moveOut s r b moved held link).map (fun x =>
      let m := moved + 8 * x.1
      if opn b 0x20 4 ≤ m then endMove x.2 r m (if opcodeOf b = 0x10 then none else bad)
      else setPhase x.2 r (.moving m given (held.drop x.1) bad))

/-- The next bytes of a source: from the package, or what the host has answered. -/
def sourcePart (s : State) (b : List Byte) (done p : Nat) (given : List Byte) (link : LinkEcc) : Option (List Byte × List Nat × List Byte × State) :=
  let k := stepLeft p (done + p) (sourceLen b)
  if fromPackage b then
    let a := opn b 0x10 6 + p
    if hostMay s a then
      let n := burstLen s a k
      let x := readPart s a ((n + 7) / 8) link
      some ((wordBytes x.1).take n, (indicesOf (·.2) x.1).map (p / 8 + ·), given, x.2)
    else none
  else if given.isEmpty then none
  else some (given.take k, [], given.drop k, s)

/-- The source of a command is read in full. -/
def sourceRead (s : State) (r : Nat) (c : RingCmd) (later prior x : List Byte) (bad : List Nat) : State :=
  match opcodeOf c.bytes with
  | 1 => if prior.isEmpty then loadChecked s r c later x else loadRead s r prior x bad
  | 2 => verifyRead s r c x
  | _ => quantRead s r c x bad

/-- One part of reading a source. -/
def readingPart (s : State) (r : Nat) (c : RingCmd) (given later prior got : List Byte) (bad : List Nat) (link : LinkEcc) : Option State :=
  (sourcePart s c.bytes prior.length got.length given link).map (fun x =>
    let y := got ++ x.1
    if sourceLen c.bytes ≤ y.length then sourceRead x.2.2.2 r c later prior y (bad ++ x.2.1)
    else setPhase x.2.2.2 r (.reading x.2.2.1 later prior y (bad ++ x.2.1)))

/-! ### BIST (R346, 15 R386) -/

def fBistFail (g : Nat) : Fld := ⟨unitBase g + 0x6C, 1, 1⟩
def fBistRun (g : Nat) : Fld := ⟨unitBase g + 0x6C, 2, 1⟩

/-- A store that a BIST has overwritten; with what is stated nowhere (notes/assumptions/3.md). -/
def tested (n : Nat) : Store := { fill := some n }

/-- The stores of one unit are tested: it is fenced where they fail, unfenced where all pass (15 R386). -/
def bistUnit (found : BistResult) (s : State) (g : Nat) : State :=
  let n := s.freeNext
  let u := s.unit g
  let bad := found.units.contains (Fin.ofNat 4096 g)
  let s1 := s.setUnit g { u with weight := tested n, scale := tested (n + 1), zp := tested (n + 2), tt := tested (n + 3) }
  let s2 := ((s1.setFld (fFenced g) (bit bad)).setFld (fBistFail g) (bit bad)).mark (fBistRun g)
  { s2 with freeNext := n + 4, fencePend := s2.fencePend.filter (fun p => decide (p.1 ≠ g)) }

def bistCluster (s : State) (k : Nat) : State :=
  ({ s with freeNext := s.freeNext + 1 }).setCluster k { s.cluster k with store := tested s.freeNext }

def bistTile (s : State) (t : Nat) : State := ({ s with freeNext := s.freeNext + 1 }).setMemTile t (tested s.freeNext)

/-- The numbers from `n` × i on, `n` of them. -/
def nth (n i : Nat) : List Nat := (List.range n).map (n * i + ·)

/-- One part of a BIST, a step of its own: the unit stores, cluster stores or region caches of a die, or a memory tile (notes/assumptions/17.md). -/
def bistPart (found : BistResult) (s : State) (p : Nat × Nat) : State :=
  match p.1 with
  | 0 => (nth 256 p.2).foldl (bistUnit found) s
  | 1 => (nth 32 p.2).foldl bistCluster s
  | 2 => (nth 4 p.2).foldl (fun t g => t.setRegion g { t.region g with lines := [] }) s
  | _ => bistTile s p.2

/-- The parts of the BIST that a mask selects. -/
def bistParts (s : State) (m : Nat) : List (Nat × Nat) :=
  (List.range 4).flatMap (fun k =>
    if m.testBit k then ((List.range (if k = 3 then 8 else 16)).filter (fun i => decide (k ≠ 3) || memExists s i)).map (fun i => (k, i)) else [])

/-- The dies of the units found failing, as a mask. -/
def unitDies (found : BistResult) : Nat :=
  (List.range 16).foldl (fun a d => a + (if found.dies.getLsbD d || found.units.any (fun u => decide (u.val / 256 = d)) then 2 ^ d else 0)) 0

/-- RESULT of a BIST (R338). -/
def bistResult (s : State) (found : BistResult) (m : Nat) : Nat :=
  let dies := if m % 8 = 0 then 0 else if m.testBit 0 then unitDies found else found.dies.toNat
  let bad := if m.testBit 3 then (((List.range 8).filter (memExists s)).filter (fun t => found.tiles.getLsbD t)).foldl (fun a t => a + 2 ^ t) 0 else 0
  dies + 2 ^ 16 * bad

def testingPart (s : State) (r : Nat) (c : RingCmd) (found : BistResult) (left : List (Nat × Nat)) : State :=
  match left with
  | p :: q :: rest => setPhase (bistPart found s p) r (.testing found (q :: rest))
  | _ => endCmd (left.foldl (bistPart found) s) r 0 (bistResult s found (opn c.bytes 0x10 1))

/-! ### The engine at work (R335) -/

/-- One part of the pair's command; nothing while it waits for a memory port or for the host's answer. -/
def workPart (s : State) (r : Nat) (link : LinkEcc) : Option State :=
  match (s.ring r).cur with
  | none => none
  | some c => match c.phase with
    | .reading given later prior got bad => readingPart s r c given later prior got bad link
    | .moving moved given held bad => movePart s r c moved given held bad link
    | .testing found left => some (testingPart s r c found left)
    | _ => none

/-- The command is in the middle of a step: it is not over, and the step has not moved 256 KiB. -/
def midStep (s : State) (r : Nat) : Bool :=
  match phaseOf s r, (s.ring r).cur with
  | some (.reading _ _ prior got _), _ => decide ((prior.length + got.length) % 262144 ≠ 0)
  | some (.moving moved _ held _), some c =>
    decide (stepDone c.bytes moved held % 262144 ≠ 0) ||
      (!readsNext c.bytes moved held && !copyOverlaps c.bytes && decide (opcodeOf c.bytes ≠ 0x31))
  | _, _ => false

/-- A step ends with 256 KiB moved (R335); the completion of a command that has ended is still to be written. -/
def noteStep (s : State) (r : Nat) : State :=
  match phaseOf s r with
  | some (.done _ _) => s
  | _ => if midStep s r then s else s.setFld fEngineBusy 0

/-- The command goes on, part by part, to the end of the step or to where it waits. -/
def workStep (s : State) (r : Nat) : Nat → State
  | 0 => noteStep s r
  | fuel + 1 =>
    match workPart s r ⟨0, []⟩ with
    | none => if hasWork s r then s else s.setFld fEngineBusy 0
    | some t => if midStep t r then workStep t r fuel else noteStep t r

/-- A command that reads its source begins (R341). -/
def beginRead (s : State) (r : Nat) (b given later : List Byte) : State :=
  match (s.ring r).cur with
  | some c => if sourceOk s r b then workStep (openSource s r c given later []) r 4 else endCmd s r stRange 0
  | none => s

/-- LOAD_IMAGE: what the host answers to its two reads. -/
def runLoad (r : Nat) (first second : List Byte) (s : State) (b : List Byte) : State :=
  if stopsRuns s then endCmd s r stState 0
  else if digestOk s r b then beginRead s r b first second else endCmd s r stRange 0

/-- LOAD_IMAGE. -/
def execLoadImage (rx : RingIx) (first second : List Byte) (s : State) : Res := serve s rx.val 0x0001 (runLoad rx.val first second)

/-- LOAD_LOCK_WAIT_END: LOCKED is reached, or 100 ms have passed (09 R235). -/
def execLoadLockWaitEnd (rx : RingIx) (s : State) : Res :=
  match phaseOf s rx.val with
  | some (.waitLock bad) =>
    .next (endCmd (setMode s) rx.val (if 7 ≤ s.fld fState then (if bad then stPoison else 0) else stLockPending) (s.fld fLoadSection))
  | _ => .next s

/-- VERIFY_IMAGE (09 R237). -/
def runVerify (r : Nat) (image : List Byte) (s : State) (b : List Byte) : State :=
  if digestOk s r b then beginRead s r b image [] else endCmd s r stRange 0

/-- VERIFY_IMAGE. -/
def execVerifyImage (rx : RingIx) (image : List Byte) (s : State) : Res := serve s rx.val 0x0002 (runVerify rx.val image)

/-- QUANTISE: STATE, then the reasons in the order 2, 4, 3, 1; those of R83 that need no weight before any is read. -/
def runQuantise (r : Nat) (data : List Byte) (s : State) (b : List Byte) : State :=
  match s.image with
  | none => endCmd s r stState 0
  | some im =>
    let layer := im.layers[opn b 0x1C 2]?
    let plays := match layer with
      | some l => l.places.any (fun p => (unitsOf im p).any (fun g => s.is (fRunning (.dot (Fin.ofNat 4096 g)))))
      | none => false
    if !im.locked || s.armed || plays then endCmd s r stState 0
    else match layer with
      | none => refuseQuant s r 2
      | some l =>
        if opn b 0x18 4 ≠ l.out * l.inp then refuseQuant s r 2
        else if !layerOk im l then refuseQuant s r 4
        else if formatsDiffer s im l then refuseQuant s r 3
        else if layerRefused s im l then refuseQuant s r 1
        else beginRead s r b data []

/-- QUANTISE. -/
def execQuantise (rx : RingIx) (weights : List Byte) (s : State) : Res := serve s rx.val 0x0003 (runQuantise rx.val weights)

/-- A move begins with its first step. -/
def beginMove (s : State) (r : Nat) (given : List Byte) (held : List (Word64 × Bool)) : State :=
  workStep (setPhase s r (.moving 0 given held none)) r 4

/-- The index of the pair's command. -/
def cmdIndex (s : State) (r : Nat) : Option Nat := (s.ring r).cur.map (·.index)

/-- WRITE_MEM. -/
def runWriteMem (r : Nat) (data : List Byte) (s : State) (b : List Byte) : State :=
  let n := opn b 0x20 4
  if !wholeWords b || !rangeOk s (opn b 0x10 6) n false || !pathHasGroup s r then endCmd s r stRange 0
  else beginMove (askHost s r (opn b 0x18 6) n (cmdIndex s r) false) r (data.take n) []

/-- WRITE_MEM. -/
def execWriteMem (rx : RingIx) (data : List Byte) (s : State) : Res := serve s rx.val 0x0010 (runWriteMem rx.val data)

/-- READ_MEM. -/
def runReadMem (r : Nat) (s : State) (b : List Byte) : State :=
  if !wholeWords b || !rangeOk s (opn b 0x18 6) (opn b 0x20 4) true || !pathHasGroup s r then endCmd s r stRange 0
  else beginMove s r [] []

/-- READ_MEM. -/
def execReadMem (rx : RingIx) (s : State) : Res := serve s rx.val 0x0011 (runReadMem rx.val)

/-- COPY: overlapping, as though the source were read whole first; poison moves with its word (10 R246). -/
def runCopy (r : Nat) (s : State) (b : List Byte) : State :=
  let n := opn b 0x20 4
  if !wholeWords b || !rangeOk s (opn b 0x10 6) n false || !rangeOk s (opn b 0x18 6) n true then endCmd s r stRange 0
  else beginMove s r [] []

/-- COPY. -/
def execCopy (rx : RingIx) (s : State) : Res := serve s rx.val 0x0012 (runCopy rx.val)

/-- The engine gives a step to pair r: the next of its command, or the completion of one that waited (R331, R335). A command that is to begin takes
its first step by its own row. -/
def giveStep (s : State) (r : Nat) : State :=
  match (s.ring r).cur with
  | none => s
  | some c => match c.phase with
    | .done st res => complete s r c st res
    | _ => workStep (runStep s r) r 4

/-- The pair whose step runs has ended its command: the completion ends the step. -/
def endingPair (s : State) : Option (Nat × RingCmd × Nat × Word64) :=
  if s.is fEngineBusy then (ended s (s.fld fEngineRing)).map (fun x => (s.fld fEngineRing, x)) else none

/-- ENGINE_STEP: a step ends, and the engine gives the next to the lowest-numbered pair that has work (R335). The step of a command that has ended,
ends with its completion (R331). -/
def execEngineStep (s : State) : Res :=
  let s1 := (List.range 64).foldl settlePair s
  match endingPair s1 with
  | some (r, c, st, res) => .next (complete s1 r c st res)
  | none =>
    let s2 := s1.setFld fEngineBusy 0
    match (List.range 64).find? (hasWork s2) with
    | none => .next s2
    | some r => .next (giveStep s2 r)

/-! ### ARM_RUN (R340) -/

/-- The loaded image, with its N. -/
def armState (s : State) : Option (Nat × Nat) :=
  match s.image with
  | none => some (0x0200, 0)
  | some im =>
    if s.armed || decide (s.fld fState ≠ 7) || (im.locked && decide (im.e < egressCycles s im.n)) then some (0x0200, 0) else none

/-- The lanes of the map, in ascending order. -/
def mappedLanes (s : State) : List Nat := (List.range 384).filter (fun n => (lanesOf s).any (fun b => decide (b.lane = n)))

/-- The inequalities of 02 R59 fail. -/
def windowFails (s : State) (aMax aMin w n : Nat) : Bool := decide (w < aMax + s.fld fWeather) || decide (6 * n + aMin < w)

/-- The locked contexts in use (12 R306): every one that the image configures has BEATS, which counts from one. -/
def usedContexts (s : State) (im : Image) : List Nat := im.contexts.filter (fun x => decide (s.fld (fCtxKind x) ≠ 0))

/-- A lane's rate in kb/s: as set on an intake tile, where 25,781 selects 25.78125 Gb/s, by its octet's modulation on a light tile (11 R274,
R296). -/
def laneRate (s : State) (site lane : Nat) : Nat :=
  if s.tile site = 1 then (if s.is (fBondNrz site (lane / 8)) then 25781250 else 106250000)
  else if s.fld (fTxRate site lane) = 25781 then 25781250 else 1000 * s.fld (fTxRate site lane)

/-- floor(R × g / (bits × f × 1.01)) − 1 (11 R287, 12 R303). -/
def slotsPer (s : State) (rate g width : Nat) : Nat := rate * 1000 * g * 100 / (width * s.fld fHz * 101) - 1

/-- A VERDICT group fails 11 R287. -/
def egressFails (s : State) (v : Nat) (g : Nat × Nat) : Bool :=
  let size := groupSize s g.1 g.2
  decide (slotsPer s (laneRate s g.1 g.2) 1 66 < (2 + 4 * s.fld (fVaFeatures v) + size - 1) / size)

/-- 0x0205: an enabled assembler without a VERDICT group, or with one that fails 11 R287. -/
def armVerdict (s : State) : Option Nat :=
  ((List.range 4).filter (fun v => s.is (fVaEnable v))).findSome? (fun v =>
    let gs := (List.range 16).flatMap (fun site => ((List.range (txLanes s site)).filter (fun j =>
      isLead s site j && decide (funcOf s site j = 1) && decide (s.fld (fTxVa site j) = v))).map (fun j => (site, j)))
    if gs.isEmpty then some (0xFF00 + v) else (gs.find? (egressFails s v)).map (fun g => 256 * g.1 + g.2))

/-- A calendar fails 12 R303, or its peer lacks the locked class (12 R320). -/
def calendarFails (s : State) (c : Calendar) : Bool :=
  decide (slotsPer s (laneRate s c.site c.lead) (groupSize s c.site c.lead) 340 < c.slots) || decide (bits (s.fld (fGrpCap c.site c.lead)) 1 1 = 0)

/-- A region's locked clock tree runs above 600 MHz, or its DIV does not divide N (08 R197). -/
def treesFail (s : State) (n r : Nat) : Bool :=
  let v := (s.raw (rgnClk r)).toNat
  (List.range 4).any (fun i =>
    let d := bits v (8 * i + 2) 4
    decide (bits v (8 * i) 2 = 1) && (decide (n % d ≠ 0) || decide (600000000 * d < n * s.fld fHz)))

/-- The checks of ARM_RUN in code order: the first failure and its item (R340). -/
def armError (s : State) : Option (Nat × Nat) :=
  match armState s, s.image with
  | some e, _ => some e
  | none, none => none
  | none, some im =>
    let lockedOnly (o : Option Nat) : Option Nat := if im.locked then o else none
    let trained (n : Nat) : Bool := s.is (fWayTrained n)
    let found : List (Nat × Option Nat) :=
      [(0x0201, lockedOnly (if s.fld fTurnLen < 72 then some (s.fld fTurnLen) else none)),
       (0x0202, lockedOnly ((mappedLanes s).find? (fun n => trained n && windowFails s (s.fld (fWayAMax n)) (s.fld (fWayAMin n)) im.w im.n))),
       (0x0203, lockedOnly (((mappedLanes s).find? (fun n => !trained n)).or ((usedContexts s im).find? (fun x => !s.is (fCtxTrained x))))),
       (0x0204, lockedOnly (((allLanes s).find? (fun l => wouldLock s l.1 l.2.1 l.2.2 &&
         (decide (laneState s l.1 l.2.1 l.2.2 ≠ 2) ||
           (isPair s l.1 l.2.1 && !s.is (fGrpUp l.1 (leadOf s l.1 l.2.1)))))).map (fun l => 256 * l.1 + l.2.1))),
       (0x0205, lockedOnly (armVerdict s)),
       (0x0206, lockedOnly ((im.calendars.find? (calendarFails s)).map (fun c => 256 * c.site + c.lead))),
       (0x0207, lockedOnly ((usedContexts s im).find? (fun x => windowFails s (s.fld (fCtxAMax x)) (s.fld (fCtxAMin x)) (s.fld (fRxW x)) im.n))),
       (0x0208, ((List.range 64).find? (treesFail s im.n))),
       (0x0209, if im.cap.getLsbD 1 && (s.is fTkConflict || (!s.is fTkActive && !s.is fTkKnown)) then some 0 else none),
       (0x020A, if im.locked then none else (List.range (s.sitesOf 2).length).find? (fun t => !s.is (fTrained s t)))]
    found.findSome? (fun p => p.2.map (fun i => (p.1, i)))

/-- The package is armed: LOW_MARGIN and LOS count for the run from here (11 R294). -/
def armPackage (s : State) : State :=
  { s.mark fArmed with lanes := s.lanes.foldl (fun m e => mset {} m e.1 { e.2 with hurt := false }) [] }

def runArm (r : Nat) (s : State) (_ : List Byte) : State :=
  if stopsRuns s then endCmd s r stState 0
  else match armError s with
    | some e => endCmd s r e.1 e.2
    | none => endCmd (armPackage s) r 0 0

/-- ARM_RUN. -/
def execArmRun (rx : RingIx) (s : State) : Res := serve s rx.val 0x0020 (runArm rx.val)

/-! ### DISARM (R346) -/

def runDisarm (r : Nat) (s : State) (_ : List Byte) : State :=
  if !s.armed then endCmd s r 0 0
  else if !s.run.started then endCmd (endRun s) r 0 0
  else if s.stagedImage then waitPhase { s with run := { s.run with step0Stop := some s.clock.xseq } } r .waitStop
  else if s.run.stop.isSome then waitPhase s r .waitStop
  else if 16 ≤ s.pendTable.length ∨ s.pendTable.any (fun e => decide (e.code = .runStop) && decide (e.x = s.clock.xseq + 2)) then
    endCmd (s.bump fCmdErr) r stSched 0
  else waitPhase { s with pendTable := s.pendTable ++ [⟨.runStop, s.clock.xseq + 2, 0, true, some r⟩] } r .waitStop

/-- DISARM. -/
def execDisarm (rx : RingIx) (s : State) : Res := serve s rx.val 0x0021 (runDisarm rx.val)

/-! ### SELECT_MENU and FROST (R343) -/

/-- A command for the pending table: SCHED when R40 refuses it. -/
def hostSchedule (r : Nat) (code : PendCode) (s : State) (b : List Byte) : State :=
  let t := schedule s code (refOf b) (a3Of b) true none
  endCmd t r (if accepts s code (refOf b) (a3Of b) then 0 else stSched) 0

/-- SELECT_MENU: in a staged run the menu waits for the next opening of step 0. -/
def runSelectMenu (r : Nat) (s : State) (b : List Byte) : State :=
  if !menuEnabled s (a3Of b) || decide (16 ≤ a3Of b) then endCmd s r stState 0
  else if s.stagedImage && s.run.started then endCmd { s with stage := { s.stage with menu := some (a3Of b) } } r 0 0
  else hostSchedule r .menuSelect s b

/-- SELECT_MENU. -/
def execSelectMenu (rx : RingIx) (s : State) : Res := serve s rx.val 0x0022 (runSelectMenu rx.val)

/-- FROST. -/
def execFrostHostCommand (rx : RingIx) (s : State) : Res := serve s rx.val 0x0030 (fun t b => hostSchedule rx.val .frost t b)

/-! ### FROST_READ, SPY_DRAIN, ATTEST -/

/-- FROST_READ: the words of the shadow as it stands (16 R402). -/
def runFrostRead (r : Nat) (s : State) (b : List Byte) : State :=
  let o := opn b 0x18 4
  let n := opn b 0x20 4
  if !s.is fHeld then endCmd s r stState 0
  else if o % 8 ≠ 0 ∨ n % 8 ≠ 0 ∨ n = 0 ∨ 0x4200000 < o + n ∨ !pathHasGroup s r then endCmd s r stRange 0
  else beginMove s r [] ((List.range (n / 8)).map (fun i => (shadowWord s (o + 8 * i), false)))

/-- FROST_READ. -/
def execFrostRead (rx : RingIx) (s : State) : Res := serve s rx.val 0x0031 (runFrostRead rx.val)

/-- Records drained into at most `room` words: the words, how many records they complete, what is left of a record in progress, and the records
that stay (R350). `used` words have been copied. -/
def drainRecords (room used : Nat) : List (List Word64) → List Word64 × Nat × List Word64 × List (List Word64)
  | [] => ([], 0, [], [])
  | rec :: rest =>
    if used + rec.length ≤ room then
      let x := drainRecords room (used + rec.length) rest
      (rec ++ x.1, x.2.1 + 1, x.2.2.1, x.2.2.2)
    else if used = 0 ∧ 0 < room then (rec.take room, 0, rec.drop room, rest)
    else ([], 0, [], rec :: rest)

/-- SPY_DRAIN (R350, R351). -/
def runSpyDrain (r : Nat) (s : State) (b : List Byte) : State :=
  let q := bits (opn b 0x1C 1) 0 3
  if !pathHasGroup s r then endCmd s r stRange 0
  else
    let v := s.spy q
    let drop := decide (bits (opn b 0x1C 1) 3 1 = 1)
    let s1 := if drop then (s.bump (fSpyDiscard q) v.rest.length).setSpy q { v with rest := [] } else s
    let v1 := s1.spy q
    let cont := !v1.rest.isEmpty
    let room := opn b 0x18 4 / 8
    let x := drainRecords room 0 (if cont then v1.rest :: v1.records else v1.records)
    -- With no room at all a record in progress stays in progress.
    let stays := cont && decide (x.1 = [])
    let v2 : Spy := if stays then v1 else { records := x.2.2.2, rest := x.2.2.1 }
    let s2 := s1.setSpy q v2
    let n := 8 * x.1.length
    let s3 := if n = 0 then s2 else hostWrite s2 r (opn b 0x10 6) (x.1.flatMap (fun w => leBytes 8 w.toNat))
    endCmd s3 r 0 (n + 2 ^ 32 * (x.2.1 % 65536) + 2 ^ 48 * bit (cont && !stays) + 2 ^ 49 * bit (!v2.rest.isEmpty))

/-- SPY_DRAIN. -/
def execSpyDrain (rx : RingIx) (s : State) : Res := serve s rx.val 0x0032 (runSpyDrain rx.val)

/-- FLAGS of the report. -/
def reportFlags (s : State) : Nat :=
  bit s.image.isSome + 2 * bit s.lockedImage + 4 * bit s.armed + 8 * bit s.run.started + 16 * bit s.fuses.ownerSet +
    32 * s.fld fOwnerKeyUsed + 64 * s.fld fLoading + 128 * s.fld fCopyB

/-- The report up to its signature: 320 bytes (14 R375). -/
def reportBody (s : State) (nonce : List Byte) : List Byte :=
  leBytes 4 0x52575441 ++ leBytes 2 1 ++ leBytes 2 0x180 ++ leBytes 4 (pkgPart s) ++ leBytes 4 (reportFlags s) ++
    leBytes 8 s.fuses.serial.toNat ++ leBytes 4 (s.fld fBootIdLo) ++ leBytes 4 (s.fld fBootIdHi) ++ s.fuses.idKey ++ s.trust.manifestDigest ++
    s.trust.firmwareDigest ++ ((s.image.map (fun im => im.digest)).getD (List.replicate 32 0)) ++ s.trust.quantDigest ++
    (if s.fuses.ownerSet then s.fuses.ownerHash else List.replicate 32 0) ++ nonce ++ leBytes 4 (s.fld fRunNum) ++ leBytes 4 s.run.turn.toNat ++
    leBytes 2 s.run.crossing ++ leBytes 2 s.trust.quantCount ++ leBytes 6 s.run.count ++ List.replicate 14 0

/-- The signed report: 384 bytes. -/
def report (s : State) (nonce : List Byte) : List Byte :=
  let b := reportBody s nonce
  b ++ ecdsaSign s.fuses.idPrivate (sha256 b)

/-- ATTEST (14 R374). -/
def runAttest (r : Nat) (s : State) (b : List Byte) : State :=
  if !pathHasGroup s r then endCmd s r stRange 0
  else endCmd (hostWrite s r (opn b 0x30 6) (report s (slice b 0x10 32))) r 0 0x180

/-- ATTEST. -/
def execAttest (rx : RingIx) (s : State) : Res := serve s rx.val 0x0040 (runAttest rx.val)

/-! ### SCRUB, LINK_TRAIN, BIST, BARRIER_TEST (R346) -/

/-- SCRUB: the named tiles, and with CONFIG every region (10 R249, 15 R385). -/
def runScrub (r : Nat) (s : State) (b : List Byte) : State :=
  let mask := opn b 0x10 1
  let s1 := ((List.range 8).filter (fun t => mask.testBit t && memExists s t)).foldl scrubTile s
  let s2 := if opn b 0x11 1 = 1 then (List.range 64).foldl startScrub s1 else s1
  endCmd s2 r 0 0

/-- SCRUB. -/
def execScrub (rx : RingIx) (s : State) : Res := serve s rx.val 0x0041 (runScrub rx.val)

/-- LINK_TRAIN: each named lane is asked to retrain; the command waits until none trains. -/
def runLinkTrain (r : Nat) (s : State) (b : List Byte) : State :=
  let site := opn b 0x10 1
  let tx := decide (opn b 0x11 1 = 1)
  let mask : Word64 := BitVec.ofNat 64 (opn b 0x18 8)
  let s1 := (maskLanes s site tx mask).foldl (fun t j => requestTrain t site j tx) s
  waitPhase s1 r (.waitTrain site tx mask)

/-- LINK_TRAIN. -/
def execLinkTrain (rx : RingIx) (s : State) : Res := serve s rx.val 0x0050 (runLinkTrain rx.val)

/-- BIST, which the first of its parts begins. -/
def runBist (r : Nat) (found : BistResult) (s : State) (b : List Byte) : State :=
  if s.fld fRegime ≠ 0 then endCmd s r stState 0
  else workStep (setPhase s r (.testing found (bistParts s (opn b 0x10 1)))) r 1

/-- BIST. -/
def execBist (rx : RingIx) (found : BistResult) (s : State) : Res := serve s rx.val 0x0051 (runBist rx.val found)

/-- BARRIER_TEST: COUNT barriers, which ENGINE_STEP sees released; of the system ones, the first ARRIVE goes out now. -/
def runBarrierTest (r longest : Nat) (s : State) (b : List Byte) : State :=
  let count := opn b 0x10 2
  let sys := decide (opn b 0x12 1 = 1)
  if s.image.isSome || s.armed then endCmd s r stState 0
  else waitPhase (if sys then arriveSystem s else s) r (.waitBarriers sys count count longest)

/-- BARRIER_TEST. -/
def execBarrierTest (rx : RingIx) (longest : Nat) (s : State) : Res := serve s rx.val 0x0052 (runBarrierTest rx.val longest)

end Sys2Proof.Machine
end

