-- ==== Sys2Proof/Machine/Steward.lean ====
section
/-!
DEFINITION. Machine/Steward.lean: the steward port: reads, posted writes, the shadow, and the indirect registers
(13_host_control.md R352 to R357).
-/
namespace Sys2Proof.Machine

def fWrOvf : Fld := ⟨0x32004, 7, 1⟩
def fWrErr : Fld := ⟨0x32004, 8, 1⟩
def fSideRead : Fld := ⟨0x32004, 9, 1⟩
def fCmdErrStw : Fld := ⟨0x32004, 10, 1⟩

/-! ### The shadow (R355, R356) -/

/-- The package blocks, die 0, and tile sites 0 and 15 are live (R355). -/
def isLive (a : Nat) : Bool :=
  decide (a < 0x60000) || (decide (0x1000000 ≤ a) && decide (a < 0x1100000)) || (decide (0x80000 ≤ a) && decide (a < 0x81000)) ||
    (decide (0x8F000 ≤ a) && decide (a < 0x90000))

def viewOf (s : State) : RegView :=
  { regs := s.regs, staged := s.staged, baseSwap := s.baseSwap, clock := s.clock, units := s.units, funs := s.funs, clusters := s.clusters
    portQ := s.portQ, bankQ := s.bankQ, steerQ := s.steerQ, links := s.links, regions := s.regions, image := s.image, ctxs := s.ctxs
    mcs := s.mcs, txLinks := s.txLinks, run := s.run, contribs := s.contribs, memArb := s.memArb, stage := s.stage, lanes := s.lanes
    fuses := s.fuses, fusePend := s.fusePend, pins := s.pins, freeNext := s.freeNext }

/-- The package as the shadow holds it; before the first refresh, as after a reset. -/
def shadowState (s : State) : State :=
  let v := s.shadow.getD (viewOf { State.reset with fuses := s.fuses })
  { s with
    regs := v.regs, staged := v.staged, baseSwap := v.baseSwap, clock := v.clock, units := v.units, funs := v.funs, clusters := v.clusters
    portQ := v.portQ, bankQ := v.bankQ, steerQ := v.steerQ, links := v.links, regions := v.regions, image := v.image, ctxs := v.ctxs
    mcs := v.mcs, txLinks := v.txLinks, run := v.run, contribs := v.contribs, memArb := v.memArb, stage := v.stage, lanes := v.lanes
    fuses := v.fuses, fusePend := v.fusePend, pins := v.pins, freeNext := v.freeNext }

/-- The registers whose read does more than clear RC fields (R356): window DATA_LO, STR_HQ_POP, and low registers that latch. -/
def readActs (a : Nat) : Bool :=
  (windowAt a).isSome || (latches a).isSome ||
    (decide (0x1000000 ≤ a) && decide (a % 0x40000 / 0x100 = 0x92) && decide (a % 0x10 = 8))

/-- What the read of a shadowed register clears: the value read is subtracted from a live counter (R355), and an extreme restarts at its reset
value unless one seen since the refresh has replaced it, which is not lost (R9, R355). -/
def subtractRead (s shadow : State) (a : Nat) : State :=
  (specAt s a).foldl (fun t f => match f.acc with
    | .rc => t.setFld ⟨a, f.lo, f.w⟩ (t.fld ⟨a, f.lo, f.w⟩ - shadow.fld ⟨a, f.lo, f.w⟩)
    | .rcExt => if t.fld ⟨a, f.lo, f.w⟩ = shadow.fld ⟨a, f.lo, f.w⟩ then t.setFld ⟨a, f.lo, f.w⟩ f.reset else t
    | .rcLevel => t.setFld ⟨a, f.lo, f.w⟩ (levelAt t a)
    | _ => t) s

/-- A register read through the steward port (R352, R355, R356). -/
def stewardRead (s : State) (a : Nat) : Word32 × State :=
  if isLive a then regRead s a
  else if !answers s a || !mapped s a then (0, s)
  else if readActs a then (0, s.mark fSideRead)
  else
    let o := settleFor (shadowState s) a
    let t := subtractRead (settleFor s a) o a
    (readValue o a, { t with shadow := some (viewOf (clearRead o a)) })

/-- The port answers: die 0 is powered and out of reset, the boot is past step 2 (17 R418, R423), and EXTEST does not hold its pins (16 R409). -/
def stewardUp (s : State) : Bool := portsUp s && !s.extest

/-- Registers at ascending addresses. -/
def readMany : Nat → State → Nat → List Word32 × State
  | 0, s, _ => ([], s)
  | n + 1, s, a =>
    let x := stewardRead s (a % 2 ^ 32)
    let r := readMany n x.2 (a + 4)
    (x.1 :: r.1, r.2)

/-- READ_REGISTERS (R353): address bits [1:0] are ignored. -/
def execReadRegisters (addr : Word32) (count : Nat) (s : State) : Res :=
  if stewardUp s then
    let x := readMany count s (4 * (addr.toNat / 4))
    .next (x.2.send (.steward x.1))
  else .next s

/-- SHADOW_REFRESH (R355). -/
def execShadowRefresh (s : State) : Res := .next (if stewardUp s then { s with shadow := some (viewOf s) } else s)

/-- READ_IDENTITY: PKG_PART, then PKG_SHAPE (R352). -/
def execReadIdentity (s : State) : Res :=
  .next (if stewardUp s then s.send (.steward [readValue s 0x0, readValue s 0x4]) else s)

/-- READ_PORT_STATUS: HRG_STW_STATUS (R352). -/
def execReadPortStatus (s : State) : Res := .next (if stewardUp s then s.send (.steward [readValue s 0x32004]) else s)

/-- The commands of R352, as opcode and extension. -/
def xspiKnown (opcode ext : Byte) : Bool := [(0xEE#8, 0x11#8), (0xDE#8, 0x21#8), (0x9F#8, 0x60#8), (0x05#8, 0xFA#8)].contains (opcode, ext)

/-- XSPI_OTHER_COMMAND: sets CMD_ERR, and the device drives nothing (R352). -/
def execXspiOtherCommand (opcode ext : Byte) (s : State) : Res :=
  .next (if stewardUp s && !xspiKnown opcode ext then s.mark fCmdErrStw else s)

/-! ### Posted writes (R354) -/

/-- One write is posted, or discarded when the buffer is full. -/
def postWrite (s : State) (a : Nat) (v : Word32) : State :=
  if s.posted.length < 64 then { s with posted := s.posted ++ [(a, v)] } else s.mark fWrOvf

/-- Whole words posted at ascending addresses. -/
def postMany : Nat → State → Nat → List Byte → State
  | 0, s, _, _ => s
  | n + 1, s, a, b => postMany n (postWrite s (a % 2 ^ 32) (BitVec.ofNat 32 (leNat (b.take 4)))) (a + 4) (b.drop 4)

/-- WRITE_REGISTERS: the whole words are posted, and a word cut short is discarded. -/
def execWriteRegisters (addr : Word32) (bytes : List Byte) (s : State) : Res :=
  if stewardUp s then
    let s1 := postMany (bytes.length / 4) s (4 * (addr.toNat / 4)) bytes
    .next (if bytes.length % 4 = 0 then s1 else s1.mark fWrErr)
  else .next s

/-- POSTED_WRITE: the oldest posted write takes effect. -/
def execPostedWrite (s : State) : Res :=
  match s.posted with
  | [] => .next s
  | (a, v) :: rest => .next (if stewardUp s then regWrite { s with posted := rest } a v else s)

/-! ### Indirect access (R356) -/

/-- INDIRECT_READ: READ is written to HRG_IND_CTRL. -/
def execIndirectRead (s : State) : Res := .next (regWrite s 0x32014 1)

/-- INDIRECT_WRITE: WRITE is written to HRG_IND_CTRL. -/
def execIndirectWrite (s : State) : Res := .next (regWrite s 0x32014 2)

/-- INDIRECT_ACCESS_DONE: the register at HRG_IND_ADDR is read, live, or written; BUSY, READ and WRITE clear. -/
def execIndirectAccessDone (s : State) : Res :=
  let a := 4 * (s.fld fIndAddr / 4)
  let s1 : State := { ((s.setFld fIndBusy 0).setFld fIndRead 0).setFld fIndWrite 0 with indirect := none }
  match s.indirect with
  | none => .next s
  | some true => .next (regWrite s1 a (s.raw fIndData.addr))
  | some false =>
    let x := regRead s1 a
    .next (x.2.setFld fIndData x.1.toNat)

end Sys2Proof.Machine
end

