-- ==== Sys2Proof/Machine/Flits.lean ====
section
/-!
DEFINITION. Machine/Flits.lean: the receiving side of the Elvaro fabric: acceptance in order, contexts by kind, locked receive queues, and the
system control flits (12_elvaro_fabric.md R297 to R309, R315 to R321; 13 R328, R337).
-/
namespace Sys2Proof.Machine

/-! ### Counting what is discarded (R299, R309) -/

def typeErr (s : State) (site lead : Nat) : State := s.bump (fTypeErr site lead)

/-- The group that a context's flits come by. -/
def cameBy (s : State) (x site lead : Nat) : State := s.setCtx x { s.ctx x with via := some (site, lead) }

/-! ### Access contexts (R309) -/

/-- A memory word with the bytes of a WRITE in their places. -/
def mergeWord (old : Word64) (base addr : Nat) (bytes : List Byte) : Word64 :=
  BitVec.ofNat 64 (leNat (((List.range 8).zip (leBytes 8 old.toNat)).map (fun p =>
    if addr ≤ base + p.1 then bytes.getD (base + p.1 - addr) p.2 else p.2)))

/-- The bytes of a WRITE cover the whole word. -/
def coversWord (base addr len : Nat) : Bool := decide (addr ≤ base) && decide (base + 8 ≤ addr + len)

/-- One word of a WRITE; a word covered in part keeps its other bytes and its poison. -/
def writePart (addr : Nat) (bytes : List Byte) (s : State) (base : Nat) : State :=
  if coversWord base addr bytes.length then (busWrite s base (mergeWord 0 base addr bytes) false).getD s
  else match busRead s base with
    | some (w, p, t) => (busWrite t base (mergeWord w base addr bytes) p).getD t
    | none => s

/-- The addresses of the words of `size` bytes that a range touches. -/
def wordsAt (size addr n : Nat) : List Nat :=
  (List.range ((addr % size + n + size - 1) / size)).map (fun i => addr / size * size + size * i)

/-- A place of the memory part of the address space. -/
def hasPlace (s : State) (a : Nat) : Bool := match placeOf s a with
  | .none => false
  | _ => true

/-- WRITE: whole aligned words of register space, or bytes of memory; an unmapped address ignores it. -/
def accessWrite (s : State) (addr : Nat) (bytes : List Byte) : State :=
  if addr < 2 ^ 32 then
    let ws := wordsAt 4 addr bytes.length
    if addr % 4 = 0 ∧ bytes.length % 4 = 0 ∧ ws.all (mapped s) then
      ws.foldl (fun t a => regWrite t a (BitVec.ofNat 32 (leNat (slice bytes (a - addr) 4)))) s
    else s
  else if (wordsAt 8 addr bytes.length).all (hasPlace s) then (wordsAt 8 addr bytes.length).foldl (writePart addr bytes) s
  else s

/-- Registers read in order of their addresses. -/
def regWords : State → List Nat → List Byte × State
  | s, [] => ([], s)
  | s, a :: r =>
    let x := regRead s a
    let y := regWords x.2 r
    (leBytes 4 x.1.toNat ++ y.1, y.2)

/-- The bytes of a READ; none where the address is unmapped. -/
def accessBytes (s : State) (addr n : Nat) : Option (List Byte × State) :=
  if addr < 2 ^ 32 then
    if (wordsAt 4 addr n).all (mapped s) then
      let x := regWords s (wordsAt 4 addr n)
      some (slice x.1 (addr % 4) n, x.2)
    else none
  else
    let x := pkgWords (wordsAt 8 addr n).length s (addr / 8 * 8)
    if (wordsAt 8 addr n).all (hasPlace s) then some (slice (wordBytes x.1) (addr % 8) n, x.2) else none

/-- DATA flits in offset order, 24 bytes to a flit (R299). -/
def dataFlits (tag : Byte) (bytes : List Byte) : List Flit :=
  let n := (bytes.length + 23) / 24
  (List.range n).map (fun i =>
    ⟨false, 0, decide (i = 0), decide (i + 1 = n), false, .data tag (BitVec.ofNat 12 (24 * i)) false (slice bytes (24 * i) 24)⟩)

/-- READ: DATA flits, or one with ERR, whose data byte the spec leaves open (notes/assumptions/3.md). -/
def accessRead (s : State) (x addr n : Nat) (tag : Byte) : State :=
  match accessBytes s addr n with
  | some (b, t) => reply t x (dataFlits tag b)
  | none => reply s.drawn x [⟨false, 0, true, true, false, .data tag 0 true [Config.freeValue 8 s.freeNext]⟩]

/-- What the host answers at place `o` of what the pair's command reads joins what has been answered before it; what the command was given already
changes nothing (notes/assumptions/17.md). -/
def giveBytes (s : State) (r : Nat) (second : Bool) (o : Nat) (bytes : List Byte) : State :=
  match phaseOf s r with
  | some (.reading given later prior got bad) =>
    if second != prior.isEmpty && decide (o = got.length + given.length) then setPhase s r (.reading (given ++ bytes) later prior got bad) else s
  | some (.moving moved given held bad) =>
    if o = moved + 8 * held.length + given.length then setPhase s r (.moving moved (given ++ bytes) held bad) else s
  | _ => s

/-- A READ that was sent is answered by a DATA flit of its TAG: the next of its bytes, or ERR, with which the command stops (13 R328, R337). -/
def takeData (s : State) (x : Nat) (tag : Byte) (offset : Nat) (err : Bool) (bytes : List Byte) : State :=
  let c := s.ctx x
  match c.reads.findIdx? (fun h => h.sent && decide (h.tag = tag)) with
  | none => s
  | some i =>
    match c.reads[i]? with
    | none => s
    | some h =>
      let mine := h.cmd.isSome && decide (cmdIndex s h.pair = h.cmd)
      let s1 := s.setCtx x { c with reads := c.reads.eraseIdx i }
      if err then (if mine then hostFails s1 h.pair else s1)
      else if offset ≠ h.got then s
      else
        let n := h.got + bytes.length
        let s2 := if h.len ≤ n then s1 else s.setCtx x { c with reads := modAt c.reads i (fun h => { h with got := n }) }
        if mine then giveBytes s2 h.pair h.second (h.base + h.got) bytes else s2

/-- What an access context does with a flit. -/
def accessFlit (s : State) (x : Nat) (f : Flit) : State :=
  match f.body with
  | .write addr bytes => accessWrite s addr.toNat bytes
  | .read addr n tag => accessRead s x addr.toNat (n.toNat + 1) tag
  | .data tag offset err bytes => takeData s x tag offset.toNat err bytes
  | _ => s

/-- The address of a flit that an access context reads or writes memory for. -/
def accessAddr (f : Flit) : Option (Nat × Nat) := match f.body with
  | .write addr bytes => some (addr.toNat, bytes.length)
  | .read addr n _ => some (addr.toNat, n.toNat + 1)
  | _ => none

/-- The memory words that a flit of an access context reads or writes in a memory tile: it needs the controller's port (07 R179, R180). -/
def accessTile (s : State) (f : Flit) : Option (Nat × List Nat) :=
  match accessAddr f with
  | some (a, n) =>
    let ws := wordsAt 8 a n
    if ws.all (hasPlace s) then (tileOf s a).map (fun t => (t.1, ws)) else none
  | none => none

/-- The flits of an access context are performed in arrival order, up to one that waits for a memory port. -/
def drainAccess (s : State) (x : Nat) : Nat → State
  | 0 => s
  | fuel + 1 =>
    match (s.ctx x).buf with
    | [] => s
    | f :: _ => if (accessTile s f).isSome then s else drainAccess (popBuf (accessFlit s x f) x) x fuel

/-! ### The host transfers at a memory controller (07 R179, R180) -/

/-- What a host transfer has to do at a memory tile: the pair whose step runs, or an access context with the flit at its head. -/
inductive HostJob
  | pair (r : Nat)
  | context (x : Nat)
deriving DecidableEq, Repr

/-- The access that the pair's command makes next, as its address in the package and whether it writes. -/
def pairAccess (s : State) (r : Nat) : Option (Nat × Bool) :=
  match (s.ring r).cur with
  | none => none
  | some c =>
    let b := c.bytes
    match c.phase with
    | .reading _ _ _ got _ => if fromPackage b then some (opn b 0x10 6 + got.length, false) else none
    | .moving moved _ held _ =>
      if readsNext b moved held then (if opcodeOf b = 0x11 ∨ opcodeOf b = 0x12 then some (opn b 0x18 6 + moved + 8 * held.length, false) else none)
      else if opcodeOf b = 0x10 ∨ opcodeOf b = 0x12 then some (opn b 0x10 6 + moved, true) else none
    | _ => none

/-- The next access of an access context whose head flit waits for a memory port. -/
def contextAccess (s : State) (x : Nat) : Option (Nat × Bool) :=
  match s.fld (fCtxKind x), (s.ctx x).buf with
  | 4, f :: _ => match accessTile s f with
    | some (_, ws) => (ws[(s.ctx x).words.length]?).map (fun a => (a, match f.body with
      | .write _ _ => true
      | _ => false))
    | none => none
  | _, _ => none

/-- The access is one at tile t. -/
def atTile (s : State) (t : Nat) (a : Option (Nat × Bool)) : Bool := a.any (fun p => (tileOf s p.1).any (fun q => decide (q.1 = t)))

/-- The host transfer that asks for, or uses, the controller of tile t: the pair whose step runs before the contexts, in their order
(notes/assumptions/17.md). -/
def hostJob (s : State) (t : Nat) : Option HostJob :=
  if s.is fEngineBusy && atTile s t (pairAccess s (s.fld fEngineRing)) then some (.pair (s.fld fEngineRing))
  else (s.ctxs.find? (fun e => atTile s t (contextAccess s e.1))).map (fun e => .context e.1)

/-! ### Loose flits of a stream (R307, R309, R318) -/

/-- The flit carries a beat of another fabric epoch (R318). -/
def wrongEpoch (s : State) (f : Flit) : Bool := match f.body with
  | .beat _ => f.epoch != sysEpoch s
  | _ => false

/-- A context of this kind takes the flit: beats are delivered, accesses performed, and any flit of a stream goes on (R309). -/
def kindTakes (kind : Nat) (b : FlitBody) : Bool :=
  match kind, b with
  | 1, .beat _ => true
  | 2, _ => true
  | 3, _ => true
  | 4, .write _ _ => true
  | 4, .read _ _ _ => true
  | 4, .data _ _ _ _ => true
  | 4, .notice _ => true
  | _, _ => false

/-- A loose flit enters its context's buffer and goes where the context says; what it lets leave a multicast group is settled after it. -/
def enterContext (s : State) (x : Nat) (f : Flit) : State :=
  let c := s.ctx x
  let held := noteBuf (s.setCtx x { c with buf := c.buf ++ [f] }) x
  match s.fld (fCtxKind x) with
  | 1 => drainDeliver held x (c.buf.length + 1)
  | 3 =>
    let m := bits (s.fld (fCtxTarget x)) 0 10
    held.setMc m { held.mc m with queue := (held.mc m).queue ++ [{ f with stream := BitVec.ofNat 14 x }] }
  | 4 => if c.buf.isEmpty then drainAccess held x 1 else held
  | _ => held

/-- A context does not take this loose flit (R309). -/
def notTaken (s : State) (x : Nat) (f : Flit) : Bool :=
  decide (x = 0) || s.is (fCtxLocked x) || !kindTakes (s.fld (fCtxKind x)) f.body

/-! ### Multicast (R311) -/

/-- One member takes a copy of the head flit: a hop, whose copy goes out as the egress arbiter grants its stream (07 R179), or a context of the
package, which does with it what it does with any loose flit. -/
def giveMember (m : Nat) (f : Flit) (s : State) (i : Nat) : State :=
  let x := s.fld (fMemStream m i)
  let g : Flit := { f with stream := BitVec.ofNat 14 x }
  if s.is (fMemLocal m i) then
    if notTaken s x g then
      match (s.ctx f.stream.toNat).via with
      | some (site, lead) => typeErr s site lead
      | none => s
    else enterContext s x g
  else
    let v := s.mc m
    s.setMc m { v with credits := modAt v.credits i (· - 1), outq := v.outq ++ [(i, g)] }

/-- Detached members that have seen a LAST pass rejoin at a flit with FIRST. -/
def rejoin (s : State) (m : Nat) : State :=
  let v := s.mc m
  ((List.range 8).filter (fun i => v.lastPassed.getD i false)).foldl (fun t i => t.setFld (fDetached m i) 0)
    (s.setMc m { v with lastPassed := List.replicate 8 false })

/-- The head flit leaves the group for every attached member, and the buffer of the context that it came by. -/
def passHead (s : State) (m : Nat) (f : Flit) : State :=
  let s1 := s.setMc m { s.mc m with queue := (s.mc m).queue.drop 1, waiting := false }
  let s2 := (attached s1 m).foldl (giveMember m f) s1
  let v := s2.mc m
  let passed := if f.last then (List.range 8).map (fun i => v.lastPassed.getD i false || s2.is (fDetached m i)) else v.lastPassed
  popBuf (s2.setMc m { v with lastPassed := passed }) f.stream.toNat

/-- Flits leave the group's head while every attached member can take them. -/
def pumpMc (s : State) (m : Nat) : Nat → State
  | 0 => s
  | fuel + 1 =>
    match (s.mc m).queue with
    | [] => s
    | f :: _ =>
      let s1 := if f.first then rejoin s m else s
      if (holding s1 m).isEmpty then pumpMc (passHead s1 m f) m fuel else s1.setMc m { s1.mc m with waiting := true }

/-- Every flit that can leave the group does. -/
def runGroup (s : State) (m : Nat) : State := pumpMc s m ((s.mc m).queue.length + 1)

/-- One pass over the groups. -/
def settleOnce (s : State) : State := s.mcs.foldl (fun t e => if (t.mc e.1).queue.isEmpty then t else runGroup t e.1) s

/-- Groups whose head flit can now leave, along chains of groups (notes/assumptions/12.md). -/
def settleGroups (s : State) : State := (List.range s.mcs.length).foldl (fun t _ => settleOnce t) s

/-- DETACH_TIMEOUT: the head flit has waited DETACH_US, and every member lacking credit is detached (R311). -/
def execDetachTimeout (mx : BitVec 10) (s : State) : Res :=
  let m := mx.toNat
  if s.fld (fDetachUs m) = 0 ∨ !(s.mc m).waiting then .next s
  else .next (settleGroups ((holding s m).foldl (detachMember m) s))

/-- A loose flit of stream x, by its context (R309). -/
def takeLoose (s : State) (site lead : Nat) (f : Flit) : State :=
  let x := f.stream.toNat
  if notTaken s x f then typeErr s site lead
  else if wrongEpoch s f then s.bump (fCtxStale x)
  else if s.fld (fCtxCredits x) ≤ (s.ctx x).buf.length then s.bump (fCreditErr x)
  else settleGroups (enterContext (cameBy s x site lead) x f)

/-! ### Waits and arbiters (07 R173, R179 to R182) -/

/-- Deliver contexts that waited for a queue's credit go on. -/
def wakeDeliver (s : State) (q : QueueId) : State :=
  s.ctxs.foldl (fun t e =>
    if decide (t.fld (fCtxKind e.1) = 1) && !t.is (fCtxLocked e.1) && decide (targetQueue t e.1 = q) then
      drainDeliver t e.1 e.2.buf.length
    else t) s

/-- CREDIT_RETURN: the oldest credit on its way reaches the writer (07 R173). -/
def execCreditReturn (q : QueueId) (s : State) : Res := .next (settleGroups (wakeDeliver (returnCredit s q) q))

/-- The rank of a requester at an arbiter (07 R179). -/
def rankAt (s : State) : ArbId → Requester → Nat
  | .cache _ => cacheRank
  | .memory _ => memoryRank s
  | .egress site lead => egressRank s site.val lead.val

/-- The requester has a request for the arbiter's port: of the requesters of its kind one that has something to move (07 R179). -/
def asks (s : State) (a : ArbId) (q : Requester) : Bool :=
  match a, q with
  | .cache r, .unit u => (firstAsking s r.val (.unit u)).isSome
  | .cache r, .engine => (firstAsking s r.val .engine).isSome
  | .memory t, .desc r i => asksMemory s t.val r.val i.val
  | .memory t, .host => (hostJob s t.val).isSome
  | .egress site lead, .stream x => asksEgress s site.val lead.val x.toNat
  | _, _ => false

/-- ARBITER_DECISION: one cycle of an arbiter (07 R180). -/
def execArbiterDecision (a : ArbId) (presented : List Requester) (s : State) : Res :=
  if arbExists s a then .next (decideArb s a (rankAt s a) (presented.filter (asks s a))) else .next s

/-- TRANSACTION_END: the transaction's access is complete, and the grant passes on or parks on its owner (07 R182). -/
def execTransactionEnd (a : ArbId) (s : State) : Res :=
  if arbExists s a then .next (settleGroups (endTransaction (sendGranted s a) a)) else .next s

/-! ### CREDIT (R307) -/

/-- The stream is one that the context sends on: OUT_STREAM, or the NOTICE_STREAM of an enabled pair whose ring path it is (13 R333). -/
def sendsStream (s : State) (c x : Nat) : Bool :=
  decide (s.fld (fCtxOut c) = x) ||
    (List.range 64).any (fun r => s.is (fHrgEnable r) && decide (s.fld (fHrgPath r) = c) && decide (s.fld (fNoticeStream r) = x))

/-- Credits return to the sender-side entries of a stream on a group. -/
def takeCredit (s : State) (site lead x n : Nat) : State :=
  let s1 := (List.range 16).foldl (fun t k =>
    if t.is (fTxmapEn site k) && decide (t.fld (fTxmapLead site k) = lead) && decide (t.fld (fTxmapStream site k) = x) then
      t.setTxLink site k { t.txLink site k with credit := min 255 ((t.txLink site k).credit + n) }
    else t) s
  let s2 := (contextsSet s1).foldl (fun t c =>
    if sendsOn t c && decide (ctxGroup t c = (site, lead)) && sendsStream t c x then
      t.setFld (fOutCredit c) (min 255 (t.fld (fOutCredit c) + n))
    else t) s1
  let s3 := (groupsSet s2).foldl (fun t m => t.setMc m { t.mc m with
    credits := (List.range 8).map (fun i =>
      let v := (t.mc m).credits.getD i 0
      if hopUses t site lead m i && decide (t.fld (fMemStream m i) = x) then min 255 (v + n) else v) }) s2
  settleGroups s3

/-- An accepted loose flit of a group (R299, R309, R321). -/
def takeFlit (s : State) (site lead : Nat) (reserved : Bool) (f : Flit) : State :=
  if reserved then typeErr s site lead
  else match f.body with
    | .null => typeErr s site lead
    | .sys p => takeSys s site lead p.toNat
    | .credit n => takeCredit s site lead f.stream.toNat n.toNat
    | .link _ _ => s
    | _ => takeLoose s site lead f

/-! ### Acceptance in order (R308) -/

def State.setHeld (s : State) (site lead : Nat) (l : List HeldFlit) : State := { s with heldFlits := mset [] s.heldFlits (32 * site + lead) l }

/-- The lost flit will not come on its lane: the lane has left the group's working ones (11 R295, R313). -/
def givenUp (s : State) (site : Nat) (h : HeldFlit) : Bool :=
  h.got.isNone && decide (laneState s site h.lane false ≠ 2) && decide (laneState s site h.lane false ≠ 3)

/-- Held flits go on, in position order, while nothing before them is missing and the group is UP (R308, R320). -/
def releaseHeld (s : State) (site lead : Nat) : Nat → State
  | 0 => s
  | fuel + 1 =>
    match s.heldAt site lead with
    | [] => s
    | h :: rest => match h.got with
      | some (reserved, f) =>
        if s.is (fGrpUp site lead) then releaseHeld (takeFlit (s.setHeld site lead rest) site lead reserved f) site lead fuel else s
      | none => if givenUp s site h then releaseHeld (s.setHeld site lead rest) site lead fuel else s

/-- An accepted flit in the position order of its group: in the place of the one that was lost, or behind all others (R308). -/
def putInOrder (l : List HeldFlit) (lane : Nat) (seq : BitVec 8) (x : Bool × Flit) : List HeldFlit :=
  match l.findIdx? (fun h => decide (h.lane = lane) && decide (h.seq = seq) && h.got.isNone) with
  | some i => modAt l i (fun h => { h with got := some x })
  | none => l ++ [⟨lane, seq, some x⟩]

/-- The expected flit of a lane is accepted and waits while a flit before it is missing (R308); the NEGO of a group that is not UP does not wait
(R320). -/
def acceptFlit (s : State) (site lane : Nat) (reserved : Bool) (f : Flit) : State :=
  let lead := leadOf s site lane
  let r := s.retry site lane
  let r1 : Retry := { r with expect := r.expect + 1, nak := false, sinceAck := r.sinceAck + 1, seen := if behind r then r.seen else r.expect + 1 }
  let s1 := s.setRetry site lane r1
  let s2 := if 32 ≤ r1.sinceAck then acknowledge s1 site lane else s1
  let held := s2.heldAt site lead
  let s3 :=
    if !s2.is (fGrpUp site lead) && isNego f then
      takeFlit (s2.setHeld site lead (held.filter (fun h => !(decide (h.lane = lane) && decide (h.seq = r.expect))))) site lead reserved f
    else s2.setHeld site lead (putInOrder held lane r.expect (reserved, f))
  releaseHeld s3 site lead (held.length + 1)

/-- A loose flit by its SEQ: expected, seen before, or past a gap (R308). -/
def sequenced (s : State) (site lane : Nat) (seq : BitVec 8) (reserved : Bool) (f : Flit) : State :=
  let d := (seq - (s.retry site lane).expect).toNat
  if d = 0 then acceptFlit s site lane reserved f
  else if 128 ≤ d then s
  else beginNak s site lane (seq + 1)

/-! ### Locked flits (R302 to R306) -/

/-- The crossing that a tag names: the latest of the receiver's own crossings with it. -/
def ownCrossing (s : State) (tag : Nat) : Nat :=
  s.clock.xseq - ((List.range 64).find? (fun δ => decide (s.numOf (s.clock.xseq - δ) % 64 = tag))).getD 0

/-- A set of beats that was accepted and has not ended (R58). -/
def accepting (c : CtxSt) : Nat := match c.arrivingClass with
  | some (.accept _) => 1
  | _ => 0

/-- The beats that frames, held or accepted and still arriving by another context, take of a context's locked receive queue (R304, R58). -/
def queueBeats (s : State) (x : Nat) : Nat :=
  let q := bits (s.raw (ctxBase x + 8)).toNat 24 8
  (s.ctxs.filter (fun e => s.is (fCtxLocked e.1) && decide (bits (s.raw (ctxBase e.1 + 8)).toNat 24 8 = q))).foldl
    (fun a e => a + (e.2.held.length + if e.1 = x then 0 else accepting e.2) * (s.fld (fCtxBeats e.1) + 1)) 0

/-- R57 and R58 for the set of beats with a tag (R304). -/
def classifyTag (s : State) (x tag : Nat) : FrameClass :=
  let c := s.ctx x
  match nextRelease s c.next with
  | none => .ignored
  | some r =>
    let d := (tag + 64 - s.numOf r % 64) % 64
    match judge s.run.started d 64 (c.held.any (fun h => decide (h.xseq = r + d))) (r + d) with
    | .accept q => if 64 < queueBeats s x + s.fld (fCtxBeats x) + 1 then .overrun else .accept q
    | other => other

/-- A set of beats begins to arrive. -/
def beginSet (s : State) (x : Nat) (b : Beat) : State :=
  let k := classifyTag s x b.tag.toNat
  let s1 := s.setCtx x { s.ctx x with arriving := [], arrivingTag := b.tag, arrivingClass := some k }
  match k with
  | .misnumbered => s1.bump (fCtxMisnum x)
  | .overrun => s1.mark (fCtxOverrun x)
  | _ => s1

/-- The arrival of a whole set is measured, outside a run and in LOCKED (R306, 11 R291). -/
def measureSet (s : State) (c : CtxSt) : CtxSt :=
  let a := s.clock.now - s.openAt (ownCrossing s c.arrivingTag.toNat)
  if decide (s.fld fState = 7) && !s.armed && c.measuring then
    { c with
      measured := c.measured + 1
      aMin := if c.measured = 0 then a else min c.aMin a
      aMax := if c.measured = 0 then a else max c.aMax a }
  else c

/-- The last beat of a set is written: a whole set that was accepted is held for its release. -/
def endSet (s : State) (x : Nat) : State :=
  let c := s.ctx x
  let done : CtxSt := { c with arriving := [], arrivingClass := none }
  if c.arriving.length ≠ s.fld (fCtxBeats x) + 1 then s.setCtx x done
  else
    let c1 := measureSet s { done with arrivingTag := c.arrivingTag }
    match c.arrivingClass with
    | some (.accept q) => s.setCtx x { c1 with held := c1.held ++ [⟨q, s.numOf q, c.arriving, s.clock.now - s.openAt q⟩] }
    | _ => s.setCtx x c1

/-- A beat joins the set that is arriving. -/
def addToSet (s : State) (x : Nat) (b : Beat) : State :=
  let c := s.ctx x
  if c.arrivingClass.isSome then s.setCtx x { c with arriving := c.arriving ++ [b] } else s

/-- The first flit by a group starts the context's arrival measurement (R306). -/
def meetGroup (s : State) (x site lead : Nat) : State :=
  if (s.ctx x).via = some (site, lead) then s else startMeasure (cameBy s x site lead) x

/-- A locked BEAT flit (R302, R304, R309, R318). -/
def takeLocked (s : State) (site lead : Nat) (f : Flit) (b : Beat) : State :=
  let x := f.stream.toNat
  if decide (x = 0) || !s.is (fCtxLocked x) || !(decide (s.fld (fCtxKind x) = 1) || decide (s.fld (fCtxKind x) = 2)) then typeErr s site lead
  else if f.epoch != sysEpoch s then s.bump (fCtxStale x)
  else if !s.runs || !s.is (fGrpUp site lead) then s
  else
    let s1 := meetGroup s x site lead
    let s2 := if f.first then beginSet s1 x b else s1
    let s3 := addToSet s2 x b
    if f.last then endSet s3 x else s3

/-- A released beat enters the transmit buffer that a locked forward names (R304, R302). -/
def forwardBeat (site k : Nat) (s : State) (b : Beat) : State :=
  let l := s.txLink site k
  if l.buffer.length < 16 then s.setTxLink site k { l with buffer := l.buffer ++ [b] } else s.bump (fTxDropBuf site k)

/-- The row flags of a release: FIRST on its first beat, LAST on its last (R304, 02 R55). -/
def flagRow (l : List Beat) : List Beat :=
  ((List.range l.length).zip l).map (fun p => { p.2 with first := decide (p.1 = 0), last := decide (p.1 + 1 = l.length) })

/-- The row of a crossing goes to the context's target (R304, R309). -/
def releaseRow (s : State) (x t : Nat) (beats : List Beat) : State :=
  let g := s.fld (fCtxTarget x)
  let row := flagRow beats
  if s.fld (fCtxKind x) = 2 then row.foldl (forwardBeat (bits g 0 4) (bits g 4 4)) s
  else releaseInto s (targetQueue s x) t row

/-- The context goes on to its next crossing; a set still arriving for the one released is late. -/
def afterRelease (c : CtxSt) (q : Nat) : CtxSt :=
  { c with
    held := c.held.filter (fun h => decide (h.xseq ≠ q))
    next := q + 1
    uncorrSeen := false
    arrivingClass := if c.arrivingClass = some (.accept q) then some .late else c.arrivingClass }

/-- LOCKED_RECEIVE_RELEASE: the crossing's beats, or late or bad ones in their place, at RX_W cycles into it (R304, R305). -/
def execLockedReceiveRelease (x : BitVec 14) (s : State) : Res :=
  let i := x.toNat
  let c := s.ctx i
  let q := c.next
  let kind := s.fld (fCtxKind i)
  if s.runs && s.lockedImage && s.is (fCtxLocked i) && (decide (kind = 1) || decide (kind = 2)) && s.inRun q && decide (q ≤ s.clock.xseq) then
    let t := s.openAt q + s.fld (fRxW i)
    let s1 := (s.at t).setCtx i (afterRelease c q)
    match c.held.find? (fun h => decide (h.xseq = q) && decide (h.arrival ≤ s.fld (fRxW i))) with
    | some h => .next ((releaseRow s1 i t h.beats).setCtx i { (releaseRow s1 i t h.beats).ctx i with leaving := some ⟨t, h⟩ })
    | none =>
      let s2 := s1.bump (if c.uncorrSeen then fCtxBad i else fCtxLate i)
      .next (releaseRow s2 i t (absentRow (s.fld (fCtxBeats i) + 1) (s.numOf q % 64) !c.uncorrSeen))
  else .next s

/-! ### Received flits -/

/-- A flit whose check fails is taken as an uncorrectable codeword: a locked one spoils its crossing (R298, R305), a loose one is asked for again
(R308). -/
def badCheck (s : State) (h : FlitHdr) : State :=
  if h.locked then spoiled s h.site.val h.lane.val
  else
    let s1 := s.bump (fUncorr h.site.val (leadOf s h.site.val h.lane.val))
    beginNak s1 h.site.val h.lane.val ((s1.retry h.site.val h.lane.val).expect + 1)

/-- The flit of a header and a body. -/
def flitOf (h : FlitHdr) (b : FlitBody) : Flit := ⟨h.locked, h.stream, h.first, h.last, h.epoch, b⟩

/-- A flit of TYPE ty reaches a lane: `run` is what a flit does whose check holds (R298). -/
def receive (h : FlitHdr) (ty : Nat) (b : FlitBody) (s : State) (run : State → State) : Res :=
  if s.tile h.site.val ≠ 1 then .next s
  else if !laneCarries s h.site.val h.lane.val then .next s
  else if !checkOk h ty b then .next (badCheck s h)
  else .next (run s)

def leadH (s : State) (h : FlitHdr) : Nat := leadOf s h.site.val h.lane.val

/-- A flit of a loose type: one that names the locked class is discarded (R299). `bad` says that a field is out of range. -/
def receiveLoose (h : FlitHdr) (b : FlitBody) (bad : Bool) (s : State) : Res :=
  receive h (typeOf b) b s (fun t =>
    if h.locked then typeErr t h.site.val (leadH t h)
    else sequenced t h.site.val h.lane.val h.seq (reservedSet h (typeOf b) b || bad) (flitOf h b))

def receiveSys (h : FlitHdr) (subtype : Nat) (fs : List (Nat × Nat)) (s : State) : Res :=
  receiveLoose h (.sys (BitVec.ofNat 256 (sysFields subtype fs))) false s

/-- The types that R299 names. -/
def knownType (ty : Nat) : Bool := [0, 1, 2, 3, 4, 5, 8, 9, 10].contains ty

/-- NULL carries nothing; a flit of a reserved type is discarded and counted, and a loose one takes its place in the sequence (R299). -/
def execNullFlit (h : FlitHdr) (ty : BitVec 4) (s : State) : Res :=
  receive h ty.toNat .null s (fun t =>
    let lead := leadH t h
    if ty = 0 then (if reservedSet h 0 .null then typeErr t h.site.val lead else t)
    else if knownType ty.toNat then t
    else if h.locked then typeErr t h.site.val lead
    else sequenced t h.site.val h.lane.val h.seq true (flitOf h .null))

/-- BEAT (R302, R304, R307). -/
def execBeatFlit (h : FlitHdr) (b : Beat) (s : State) : Res :=
  receive h 1 (.beat b) s (fun t =>
    if h.locked then
      (if reservedSet h 1 (.beat b) then typeErr t h.site.val (leadH t h) else takeLocked t h.site.val (leadH t h) (flitOf h (.beat b)) b)
    else sequenced t h.site.val h.lane.val h.seq (reservedSet h 1 (.beat b)) (flitOf h (.beat b)))

/-- WRITE (R309): 1 to 24 bytes. -/
def execWriteFlit (h : FlitHdr) (addr : BitVec 48) (bytes : List Byte) (s : State) : Res :=
  receiveLoose h (.write addr bytes) (bytes.isEmpty || decide (24 < bytes.length)) s

/-- READ (R309). -/
def execReadFlit (h : FlitHdr) (addr : BitVec 48) (bytesM1 : BitVec 12) (tag : Byte) (s : State) : Res :=
  receiveLoose h (.read addr bytesM1 tag) false s

/-- DATA (13 R328): 1 to 24 bytes. -/
def execDataFlit (h : FlitHdr) (tag : Byte) (offset : BitVec 12) (err : Bool) (bytes : List Byte) (s : State) : Res :=
  receiveLoose h (.data tag offset err bytes) (bytes.isEmpty || decide (24 < bytes.length)) s

/-- NOTICE (13 R333): it enters its context and leaves it, returning its credit. -/
def execNoticeFlit (h : FlitHdr) (payload : BitVec 256) (s : State) : Res := receiveLoose h (.notice payload) false s

/-- CREDIT (R307). -/
def execCreditFlit (h : FlitHdr) (credits : BitVec 16) (s : State) : Res := receiveLoose h (.credit credits) false s

/-- LINK (R308): neither sequenced nor retried. -/
def execLinkFlit (h : FlitHdr) (ackSeq : BitVec 8) (nak : Bool) (s : State) : Res :=
  receive h 9 (.link ackSeq nak) s (fun t =>
    if h.locked || reservedSet h 9 (.link ackSeq nak) then typeErr t h.site.val (leadH t h) else takeLink12 t h.site.val h.lane.val ackSeq nak)

/-- NEGO (R316, R320). -/
def execNego (h : FlitHdr) (gen : Byte) (cap : Word32) (endpoint : BitVec 10) (host tkClaim : Bool) (tkNum : BitVec 10) (width : BitVec 2)
    (s : State) : Res :=
  receiveSys h 0x01 [(8, gen.toNat), (16, cap.toNat), (48, endpoint.toNat), (58, bit host), (59, bit tkClaim), (60, tkNum.toNat),
    (70, width.toNat)] s

/-- ANNOUNCE (R316). -/
def execAnnounce (h : FlitHdr) (tkNum : BitVec 10) (seq : BitVec 16) (s : State) : Res :=
  receiveSys h 0x02 [(8, tkNum.toNat), (18, seq.toNat)] s

/-- SCHED (R317). -/
def execSched (h : FlitHdr) (code : Byte) (ref : BitVec 24) (a3 : Byte) (seq : BitVec 16) (s : State) : Res :=
  receiveSys h 0x03 [(8, code.toNat), (16, ref.toNat), (40, a3.toNat), (48, seq.toNat)] s

/-- SCHED_ACK (R317). -/
def execSchedAck (h : FlitHdr) (refused : Bool) (sender : BitVec 10) (seq : BitVec 16) (s : State) : Res :=
  receiveSys h 0x04 [(8, bit refused), (16, sender.toNat), (26, seq.toNat)] s

/-- ARRIVE (R319). -/
def execArrive (h : FlitHdr) (sender : BitVec 10) (seq : BitVec 16) (s : State) : Res :=
  receiveSys h 0x05 [(16, sender.toNat), (26, seq.toNat)] s

/-- SYS RELEASE (R319). -/
def execSysRelease (h : FlitHdr) (seq : BitVec 16) (s : State) : Res := receiveSys h 0x06 [(8, seq.toNat)] s

/-- DETACH (R321): it tells this end that the sender's group has detached the stream. -/
def execDetach (h : FlitHdr) (group : BitVec 10) (member : BitVec 3) (stream : BitVec 14) (s : State) : Res :=
  receiveSys h 0x07 [(8, group.toNat), (18, member.toNat), (21, stream.toNat)] s

/-- RESTRIPE (R313). -/
def execRestripe (h : FlitHdr) (width : BitVec 2) (s : State) : Res := receiveSys h 0x08 [(8, width.toNat)] s

/-- ECHO (R306). -/
def execEcho (h : FlitHdr) (isReply : Bool) (stamp : Word32) (s : State) : Res := receiveSys h 0x09 [(8, bit isReply), (16, stamp.toNat)] s

end Sys2Proof.Machine
end

