-- ==== Sys2Proof/Machine/MemoryPort.lean ====
section
/-!
DEFINITION. Machine/MemoryPort.lean: the reads and writes that a memory controller's port carries, with what link ECC makes of them: those of host
transfers, of descriptors and of the patrol scrub (07_links_queues_arbiters.md R179, R180; 10_staged_mode.md R244 to R249).
-/
namespace Sys2Proof.Machine

/-! ### Access flits (12 R309) -/

/-- One burst of the READ or WRITE at the head of an access context; with its last word the flit is done. -/
def contextPart (s : State) (x : Nat) (link : LinkEcc) : State :=
  match (s.ctx x).buf with
  | [] => s
  | f :: _ =>
    match accessTile s f, contextAccess s x with
    | some (_, ws), some (a, write) =>
      let c := s.ctx x
      let n := burstLen s a (8 * (ws.length - c.words.length)) / 8
      let s1 := match f.body with
        | .write addr bytes =>
          spoilAt ((slice ws c.words.length n).foldl (Sys2Proof.Machine.writePart addr.toNat bytes) (usePort s a)) a n link
        | _ => s
      let got := if write then (pkgWords n s1 a).1 else (readPart s a n link).1
      let s2 := if write then s1 else (readPart s a n link).2
      let words := c.words ++ got
      if words.length < ws.length then s2.setCtx x { s2.ctx x with words := words }
      else
        let s3 := s2.setCtx x { s2.ctx x with words := [] }
        let s4 := match f.body with
          | .read addr m tag => reply s3 x (dataFlits tag (slice (wordBytes words) (addr.toNat % 8) (m.toNat + 1)))
          | _ => s3
        let s5 := popBuf s4 x
        settleGroups (drainAccess s5 x (s5.ctx x).buf.length)
    | _, _ => s

/-! ### What the port carries -/

/-- The host transfer's access, with these errors on the link, if it is one at this tile address of this direction. -/
def hostAccess (s : State) (t addr : Nat) (write : Bool) (link : LinkEcc) : State :=
  let here (a : Option (Nat × Bool)) : Bool := a.any (fun p => p.2 == write && decide (tileOf s p.1 = some (t, addr / 8)))
  match hostJob s t with
  | some (.pair r) =>
    if here (pairAccess s r) then
      let s1 := (workPart s r link).getD s
      noteStep (s1.bump (fLinkCe s t) link.corrected) r
    else s
  | some (.context x) => if here (contextAccess s x) then (contextPart s x link).bump (fLinkCe s t) link.corrected else s
  | none => s

/-- MEMORY_READ: a burst of the host transfer that holds the port, or in an idle cycle the block that the patrol scrub reads next, with what link ECC
made of it (R246, R247, R249, 07 R180). A read that nobody makes does not take place. The reads of descriptors are those of CACHE_FILL. -/
def execMemoryRead (t : MemIx) (addr _words : Nat) (link : LinkEcc) (s : State) : Res :=
  if !memExists s t.val then .next s
  else if grantee s (.memory t) = some .host then .next (hostAccess s t.val addr false link)
  else if patrols s t.val && decide (addr = 448 * s.fld (fScrubBlock s t.val)) then
    .next ((patrolBlock s t.val link).bump (fLinkCe s t.val) link.corrected)
  else .next s

/-- The write that a descriptor makes at this tile address, both ports granted to it, as CACHE_ACCESS makes it. -/
def descAccess (s : State) (r i : Nat) (t addr : Nat) (link : LinkEcc) : State :=
  let c : ArbId := .cache (Fin.ofNat 64 r)
  let mine := match grantee s c with
    | some q => decide (grantedDesc s r q = some i)
    | none => false
  if mine && (nextReq s r i).isNone && decide (nextWrite s r i = some t) &&
      (nextWriteAddr s r i).any (fun a => decide (tileOf s a = some (t, addr / 8))) then
    retryPins (writeAccess s r i t link) r
  else s

/-- MEMORY_WRITE: a burst of the host transfer that holds the port, or the write of the descriptor that holds it and its region's cache port, with what
link ECC made of it; the words are the transfer's own (R247, 07 R180). A write that nobody makes does not take place. -/
def execMemoryWrite (t : MemIx) (addr : Nat) (_data : List Word64) (link : LinkEcc) (s : State) : Res :=
  if !memExists s t.val then .next s
  else match grantee s (.memory t) with
    | some .host => .next (hostAccess s t.val addr true link)
    | some (.desc r i) => .next (descAccess s r.val i.val t.val addr link)
    | _ => .next s

end Sys2Proof.Machine
end

