-- ==== Sys2Proof/Machine/Dispatch.lean ====
section
/-!
DEFINITION. Machine/Dispatch.lean: one arm per command of Instr, each one call of its meaning.
-/
namespace Sys2Proof.Machine

open Sys2Proof

def exec (i : Instr) (s : State) : Host.Outcome State Fault Refusal :=
  match i with
  | .crossingStart => Sys2Proof.Machine.execCrossingStart s
  | .timingSlot comma chars violation => Sys2Proof.Machine.execTimingSlot comma chars violation s
  | .nop => Sys2Proof.Machine.execNop s
  | .runStart ref a3 => Sys2Proof.Machine.execRunStart ref a3 s
  | .runStop ref a3 => Sys2Proof.Machine.execRunStop ref a3 s
  | .resync turn => Sys2Proof.Machine.execResync turn s
  | .resyncLoad => Sys2Proof.Machine.execResyncLoad s
  | .testPulse ref a3 => Sys2Proof.Machine.execTestPulse ref a3 s
  | .menuSelect ref a3 => Sys2Proof.Machine.execMenuSelect ref a3 s
  | .frost ref a3 => Sys2Proof.Machine.execFrost ref a3 s
  | .runStartEffect => Sys2Proof.Machine.execRunStartEffect s
  | .runStopEffect => Sys2Proof.Machine.execRunStopEffect s
  | .menuSelectEffect => Sys2Proof.Machine.execMenuSelectEffect s
  | .testPulseEffect => Sys2Proof.Machine.execTestPulseEffect s
  | .epochEffect => Sys2Proof.Machine.execEpochEffect s
  | .runStoppedLastVerdict => Sys2Proof.Machine.execRunStoppedLastVerdict s
  | .timingSignalPresent => Sys2Proof.Machine.execTimingSignalPresent s
  | .commaFound => Sys2Proof.Machine.execCommaFound s
  | .confirmComplete => Sys2Proof.Machine.execConfirmComplete s
  | .timingCodeViolation => Sys2Proof.Machine.execTimingCodeViolation s
  | .frequencyMeasurement hz => Sys2Proof.Machine.execFrequencyMeasurement hz s
  | .pllLock => Sys2Proof.Machine.execPllLock s
  | .pllLockTimeout => Sys2Proof.Machine.execPllLockTimeout s
  | .phaseAligned => Sys2Proof.Machine.execPhaseAligned s
  | .phaseTimeout => Sys2Proof.Machine.execPhaseTimeout s
  | .turnStartSeen gap => Sys2Proof.Machine.execTurnStartSeen gap s
  | .numberTimeout => Sys2Proof.Machine.execNumberTimeout s
  | .timingLaneLoss => Sys2Proof.Machine.execTimingLaneLoss s
  | .holdoverReturn phase num => Sys2Proof.Machine.execHoldoverReturn phase num s
  | .holdoverExpired => Sys2Proof.Machine.execHoldoverExpired s
  | .forcedRunStop => Sys2Proof.Machine.execForcedRunStop s
  | .timCtrlWrite v => Sys2Proof.Machine.execTimCtrlWrite v s
  | .intakeFrameStart n head number rest => Sys2Proof.Machine.execIntakeFrameStart n head number rest s
  | .intakeFrameArrival n data sum close a => Sys2Proof.Machine.execIntakeFrameArrival n data sum close a s
  | .waystationRelease => Sys2Proof.Machine.execWaystationRelease s
  | .stagedWaystationRelease n => Sys2Proof.Machine.execStagedWaystationRelease n s
  | .arrivalMeasurementEnd n => Sys2Proof.Machine.execArrivalMeasurementEnd n s
  | .contributionArrival v => Sys2Proof.Machine.execContributionArrival v s
  | .recordClose v => Sys2Proof.Machine.execRecordClose v s
  | .verdictLaunch v => Sys2Proof.Machine.execVerdictLaunch v s
  | .anchor a => Sys2Proof.Machine.execAnchor a s
  | .mac u => Sys2Proof.Machine.execMac u s
  | .macz u => Sys2Proof.Machine.execMacz u s
  | .grp u => Sys2Proof.Machine.execGrp u s
  | .clr u => Sys2Proof.Machine.execClr u s
  | .emit u => Sys2Proof.Machine.execEmit u s
  | .addin u => Sys2Proof.Machine.execAddin u s
  | .addinRowTaken u => Sys2Proof.Machine.execAddinRowTaken u s
  | .emitBusCycleFree u => Sys2Proof.Machine.execEmitBusCycleFree u s
  | .pass u => Sys2Proof.Machine.execPass u s
  | .dup u => Sys2Proof.Machine.execDup u s
  | .hold a => Sys2Proof.Machine.execHold a s
  | .holdEnd a => Sys2Proof.Machine.execHoldEnd a s
  | .sync a => Sys2Proof.Machine.execSync a s
  | .dropPkt a => Sys2Proof.Machine.execDropPkt a s
  | .menu a => Sys2Proof.Machine.execMenu a s
  | .act f => Sys2Proof.Machine.execAct f s
  | .rowx f => Sys2Proof.Machine.execRowx f s
  | .pin f => Sys2Proof.Machine.execPin f s
  | .norm f => Sys2Proof.Machine.execNorm f s
  | .expt f => Sys2Proof.Machine.execExpt f s
  | .rcp f => Sys2Proof.Machine.execRcp f s
  | .reduce f => Sys2Proof.Machine.execReduce f s
  | .pool f => Sys2Proof.Machine.execPool f s
  | .sort16 f => Sys2Proof.Machine.execSort16 f s
  | .topk f => Sys2Proof.Machine.execTopk f s
  | .gather f => Sys2Proof.Machine.execGather f s
  | .scatter f => Sys2Proof.Machine.execScatter f s
  | .thresh f => Sys2Proof.Machine.execThresh f s
  | .funSourceWaitEnd f => Sys2Proof.Machine.execFunSourceWaitEnd f s
  | .funBlockedWaitEnd f => Sys2Proof.Machine.execFunBlockedWaitEnd f s
  | .tokenLoad k => Sys2Proof.Machine.execTokenLoad k s
  | .merge k => Sys2Proof.Machine.execMerge k s
  | .splitRows k => Sys2Proof.Machine.execSplitRows k s
  | .select k => Sys2Proof.Machine.execSelect k s
  | .route k => Sys2Proof.Machine.execRoute k s
  | .mask k => Sys2Proof.Machine.execMask k s
  | .pack k => Sys2Proof.Machine.execPack k s
  | .unpack k => Sys2Proof.Machine.execUnpack k s
  | .beatArrival u p => Sys2Proof.Machine.execBeatArrival u p s
  | .dropRest q => Sys2Proof.Machine.execDropRest q s
  | .injection k q => Sys2Proof.Machine.execInjection k q s
  | .creditReturn q => Sys2Proof.Machine.execCreditReturn q s
  | .writeCreditWaitEnd q => Sys2Proof.Machine.execWriteCreditWaitEnd q s
  | .arbiterDecision a presented => Sys2Proof.Machine.execArbiterDecision a presented s
  | .transactionEnd a => Sys2Proof.Machine.execTransactionEnd a s
  | .logFrameLo k v => Sys2Proof.Machine.execLogFrameLo k v s
  | .frameApplied k => Sys2Proof.Machine.execFrameApplied k s
  | .logBegin k => Sys2Proof.Machine.execLogBegin k s
  | .logDone k => Sys2Proof.Machine.execLogDone k s
  | .blockRelease k => Sys2Proof.Machine.execBlockRelease k s
  | .rgnStart r => Sys2Proof.Machine.execRgnStart r s
  | .rgnRelease r => Sys2Proof.Machine.execRgnRelease r s
  | .reconfigRelease r => Sys2Proof.Machine.execReconfigRelease r s
  | .commitRequest r => Sys2Proof.Machine.execCommitRequest r s
  | .commit r => Sys2Proof.Machine.execCommit r s
  | .freePllLocked r pll => Sys2Proof.Machine.execFreePllLocked r pll s
  | .logicPortWrite k j b => Sys2Proof.Machine.execLogicPortWrite k j b s
  | .logicPortTake k j => Sys2Proof.Machine.execLogicPortTake k j s
  | .bytePortStart k c => Sys2Proof.Machine.execBytePortStart k c s
  | .bytePortWriteByte k c b => Sys2Proof.Machine.execBytePortWriteByte k c b s
  | .bytePortReadByte k c ack => Sys2Proof.Machine.execBytePortReadByte k c ack s
  | .bytePortStop k c => Sys2Proof.Machine.execBytePortStop k c s
  | .bytePortDone d c resp => Sys2Proof.Machine.execBytePortDone d c resp s
  | .ufuseRead d => Sys2Proof.Machine.execUfuseRead d s
  | .ufuseProgram d => Sys2Proof.Machine.execUfuseProgram d s
  | .fuseProgramDone d => Sys2Proof.Machine.execFuseProgramDone d s
  | .windowWrite a v => Sys2Proof.Machine.execWindowWrite a v s
  | .windowRead a => Sys2Proof.Machine.execWindowRead a s
  | .loReadLatch r => Sys2Proof.Machine.execLoReadLatch r s
  | .rcRead addr => Sys2Proof.Machine.execRcRead addr s
  | .registerWrite addr v => Sys2Proof.Machine.execRegisterWrite addr v s
  | .loadImage r first second => Sys2Proof.Machine.execLoadImage r first second s
  | .loadLockWaitEnd r => Sys2Proof.Machine.execLoadLockWaitEnd r s
  | .verifyImage r image => Sys2Proof.Machine.execVerifyImage r image s
  | .quantise r weights => Sys2Proof.Machine.execQuantise r weights s
  | .writeMem r data => Sys2Proof.Machine.execWriteMem r data s
  | .readMem r => Sys2Proof.Machine.execReadMem r s
  | .copy r => Sys2Proof.Machine.execCopy r s
  | .armRun r => Sys2Proof.Machine.execArmRun r s
  | .disarm r => Sys2Proof.Machine.execDisarm r s
  | .selectMenu r => Sys2Proof.Machine.execSelectMenu r s
  | .frostHostCommand r => Sys2Proof.Machine.execFrostHostCommand r s
  | .frostRead r => Sys2Proof.Machine.execFrostRead r s
  | .spyDrain r => Sys2Proof.Machine.execSpyDrain r s
  | .attest r => Sys2Proof.Machine.execAttest r s
  | .scrub r => Sys2Proof.Machine.execScrub r s
  | .linkTrain r => Sys2Proof.Machine.execLinkTrain r s
  | .bist r found => Sys2Proof.Machine.execBist r found s
  | .barrierTest r longest => Sys2Proof.Machine.execBarrierTest r longest s
  | .hrgDb r v => Sys2Proof.Machine.execHrgDb r v s
  | .hrgEnable r v => Sys2Proof.Machine.execHrgEnable r v s
  | .descriptorFetch r bytes => Sys2Proof.Machine.execDescriptorFetch r bytes s
  | .engineStep => Sys2Proof.Machine.execEngineStep s
  | .hostReadTimeout r => Sys2Proof.Machine.execHostReadTimeout r s
  | .readRegisters addr count => Sys2Proof.Machine.execReadRegisters addr count s
  | .writeRegisters addr bytes => Sys2Proof.Machine.execWriteRegisters addr bytes s
  | .readIdentity => Sys2Proof.Machine.execReadIdentity s
  | .readPortStatus => Sys2Proof.Machine.execReadPortStatus s
  | .postedWrite => Sys2Proof.Machine.execPostedWrite s
  | .shadowRefresh => Sys2Proof.Machine.execShadowRefresh s
  | .indirectRead => Sys2Proof.Machine.execIndirectRead s
  | .indirectWrite => Sys2Proof.Machine.execIndirectWrite s
  | .indirectAccessDone => Sys2Proof.Machine.execIndirectAccessDone s
  | .refresh t => Sys2Proof.Machine.execRefresh t s
  | .refreshRateRead t rate => Sys2Proof.Machine.execRefreshRateRead t rate s
  | .scrubNow t => Sys2Proof.Machine.execScrubNow t s
  | .patrolScrubRead t => Sys2Proof.Machine.execPatrolScrubRead t s
  | .memoryRead t addr words link => Sys2Proof.Machine.execMemoryRead t addr words link s
  | .memoryWrite t addr data link => Sys2Proof.Machine.execMemoryWrite t addr data link s
  | .cacheAccess r addr write => Sys2Proof.Machine.execCacheAccess r addr write s
  | .cacheFill r fill => Sys2Proof.Machine.execCacheFill r fill s
  | .invalidate r => Sys2Proof.Machine.execInvalidate r s
  | .invalidationDone r => Sys2Proof.Machine.execInvalidationDone r s
  | .arm r ix => Sys2Proof.Machine.execArm r ix s
  | .abort r ix => Sys2Proof.Machine.execAbort r ix s
  | .tileRequest r ix => Sys2Proof.Machine.execTileRequest r ix s
  | .transferComplete r ix => Sys2Proof.Machine.execTransferComplete r ix s
  | .handlePopWaitEnd r ix => Sys2Proof.Machine.execHandlePopWaitEnd r ix s
  | .handlePushWaitEnd r ix => Sys2Proof.Machine.execHandlePushWaitEnd r ix s
  | .strHqPush r q v => Sys2Proof.Machine.execStrHqPush r q v s
  | .strHqPop r q => Sys2Proof.Machine.execStrHqPop r q s
  | .leafArrive r => Sys2Proof.Machine.execLeafArrive r s
  | .barrierRelease => Sys2Proof.Machine.execBarrierRelease s
  | .barrierTimeout => Sys2Proof.Machine.execBarrierTimeout s
  | .recoverGo r v => Sys2Proof.Machine.execRecoverGo r v s
  | .laneUp l => Sys2Proof.Machine.execLaneUp l s
  | .trainingAttemptFailed l => Sys2Proof.Machine.execTrainingAttemptFailed l s
  | .marginMeasurement l h v => Sys2Proof.Machine.execMarginMeasurement l h v s
  | .lossOfLock l => Sys2Proof.Machine.execLossOfLock l s
  | .train l => Sys2Proof.Machine.execTrain l s
  | .lnkBondWrite site v => Sys2Proof.Machine.execLnkBondWrite site v s
  | .laserPowerChange site fibre2 power => Sys2Proof.Machine.execLaserPowerChange site fibre2 power s
  | .beatFrameSend site lane => Sys2Proof.Machine.execBeatFrameSend site lane s
  | .codewordReceived site lane errors past => Sys2Proof.Machine.execCodewordReceived site lane errors past s
  | .nullFlit h ty => Sys2Proof.Machine.execNullFlit h ty s
  | .beatFlit h b => Sys2Proof.Machine.execBeatFlit h b s
  | .writeFlit h addr bytes => Sys2Proof.Machine.execWriteFlit h addr bytes s
  | .readFlit h addr bytesM1 tag => Sys2Proof.Machine.execReadFlit h addr bytesM1 tag s
  | .dataFlit h tag offset err bytes => Sys2Proof.Machine.execDataFlit h tag offset err bytes s
  | .noticeFlit h payload => Sys2Proof.Machine.execNoticeFlit h payload s
  | .creditFlit h credits => Sys2Proof.Machine.execCreditFlit h credits s
  | .linkFlit h ackSeq nak => Sys2Proof.Machine.execLinkFlit h ackSeq nak s
  | .nego h gen cap endpoint host tkClaim tkNum width => Sys2Proof.Machine.execNego h gen cap endpoint host tkClaim tkNum width s
  | .announce h tkNum seq => Sys2Proof.Machine.execAnnounce h tkNum seq s
  | .sched h code ref a3 seq => Sys2Proof.Machine.execSched h code ref a3 seq s
  | .schedAck h refused sender seq => Sys2Proof.Machine.execSchedAck h refused sender seq s
  | .arrive h sender seq => Sys2Proof.Machine.execArrive h sender seq s
  | .sysRelease h seq => Sys2Proof.Machine.execSysRelease h seq s
  | .detach h group member stream => Sys2Proof.Machine.execDetach h group member stream s
  | .restripe h width => Sys2Proof.Machine.execRestripe h width s
  | .echo h reply stamp => Sys2Proof.Machine.execEcho h reply stamp s
  | .lockedWindow site lead => Sys2Proof.Machine.execLockedWindow site lead s
  | .lockedReceiveRelease x => Sys2Proof.Machine.execLockedReceiveRelease x s
  | .creditTimer x => Sys2Proof.Machine.execCreditTimer x s
  | .ackTimer site lane => Sys2Proof.Machine.execAckTimer site lane s
  | .nakRepeat site lane => Sys2Proof.Machine.execNakRepeat site lane s
  | .resendTimeout site lane => Sys2Proof.Machine.execResendTimeout site lane s
  | .detachTimeout m => Sys2Proof.Machine.execDetachTimeout m s
  | .linkReset site lead => Sys2Proof.Machine.execLinkReset site lead s
  | .announceTimer => Sys2Proof.Machine.execAnnounceTimer s
  | .tkKnownTimeout => Sys2Proof.Machine.execTkKnownTimeout s
  | .tkSend => Sys2Proof.Machine.execTkSend s
  | .detachClear => Sys2Proof.Machine.execDetachClear s
  | .porstRise straps => Sys2Proof.Machine.execPorstRise straps s
  | .porstFall => Sys2Proof.Machine.execPorstFall s
  | .refclkPresent => Sys2Proof.Machine.execRefclkPresent s
  | .flashTimeout => Sys2Proof.Machine.execFlashTimeout s
  | .reboot straps => Sys2Proof.Machine.execReboot straps s
  | .flashRead => Sys2Proof.Machine.execFlashRead s
  | .flashProgram => Sys2Proof.Machine.execFlashProgram s
  | .flashErase => Sys2Proof.Machine.execFlashErase s
  | .flashCommandDone => Sys2Proof.Machine.execFlashCommandDone s
  | .ownerProgram confirm => Sys2Proof.Machine.execOwnerProgram confirm s
  | .ownerProgramDone => Sys2Proof.Machine.execOwnerProgramDone s
  | .unitScrubRead u => Sys2Proof.Machine.execUnitScrubRead u s
  | .regionScrubRead r => Sys2Proof.Machine.execRegionScrubRead r s
  | .scrubNowRegion r => Sys2Proof.Machine.execScrubNowRegion r s
  | .fencedWrite u fenced => Sys2Proof.Machine.execFencedWrite u fenced s
  | .avsReading d slack => Sys2Proof.Machine.execAvsReading d slack s
  | .avsStepSettled d => Sys2Proof.Machine.execAvsStepSettled d s
  | .temperatureConversion temps => Sys2Proof.Machine.execTemperatureConversion temps s
  | .secondConversion r temp => Sys2Proof.Machine.execSecondConversion r temp s
  | .tripStop => Sys2Proof.Machine.execTripStop s
  | .brownout => Sys2Proof.Machine.execBrownout s
  | .vinRise => Sys2Proof.Machine.execVinRise s
  | .railsGood => Sys2Proof.Machine.execRailsGood s
  | .powerAverage vin iin pin => Sys2Proof.Machine.execPowerAverage vin iin pin s
  | .ov => Sys2Proof.Machine.execOv s
  | .oc => Sys2Proof.Machine.execOc s
  | .regFault d => Sys2Proof.Machine.execRegFault d s
  | .refclkLoss => Sys2Proof.Machine.execRefclkLoss s
  | .smbusReadIdentity => Sys2Proof.Machine.execSmbusReadIdentity s
  | .smbusReadStatus => Sys2Proof.Machine.execSmbusReadStatus s
  | .smbusReadVin => Sys2Proof.Machine.execSmbusReadVin s
  | .smbusReadCurrent => Sys2Proof.Machine.execSmbusReadCurrent s
  | .smbusReadPower => Sys2Proof.Machine.execSmbusReadPower s
  | .smbusReadPeak => Sys2Proof.Machine.execSmbusReadPeak s
  | .smbusReadTemperature => Sys2Proof.Machine.execSmbusReadTemperature s
  | .smbusReadBootStatus => Sys2Proof.Machine.execSmbusReadBootStatus s
  | .smbusAlertMask write => Sys2Proof.Machine.execSmbusAlertMask write s
  | .alertResponse => Sys2Proof.Machine.execAlertResponse s
  | .extest pins shifted => Sys2Proof.Machine.execExtest pins shifted s
  | .samplePreload pins shifted => Sys2Proof.Machine.execSamplePreload pins shifted s
  | .idcode => Sys2Proof.Machine.execIdcode s
  | .frsAddr offset => Sys2Proof.Machine.execFrsAddr offset s
  | .frsData => Sys2Proof.Machine.execFrsData s
  | .bypass code => Sys2Proof.Machine.execBypass code s
  | .trst => Sys2Proof.Machine.execTrst s
  | .frsArm => Sys2Proof.Machine.execFrsArm s
  | .frsRelease => Sys2Proof.Machine.execFrsRelease s
  | .frostCapture => Sys2Proof.Machine.execFrostCapture s
  | .laneSignalPresent l => Sys2Proof.Machine.execLaneSignalPresent l s
  | .lockRecovered l => Sys2Proof.Machine.execLockRecovered l s
  | .gpioLevelChange ix level => Sys2Proof.Machine.execGpioLevelChange ix level s
  | .xspiOtherCommand opcode ext => Sys2Proof.Machine.execXspiOtherCommand opcode ext s
  | .vinBelow10V => Sys2Proof.Machine.execVinBelow10V s

end Sys2Proof.Machine
end

