-- ==== Sys2Proof/Safety.lean ====
section
/-!
DEFINITION. Safety.lean: what claims mean by a state in canonical form, by the identity of a package, by registers that
read alike, by the word that issues next, and by a run that does not stop.
-/
namespace Sys2Proof.Machine

/-- Keys strictly rising. -/
def risingKeys {α : Type} : SMap α → Bool
  | [] => true
  | [_] => true
  | e :: f :: r => decide (e.1 < f.1) && risingKeys (f :: r)

/-- A store in canonical form: words that differ from what an unlisted word reads as, and check states that are not clean. -/
def Store.wf (m : Store) : Bool := risingKeys m.words && m.words.all (fun e => decide (e.2 ≠ m.blank e.1)) && mwf none m.ecc

/-- The registers and the memory tiles in canonical form. -/
def State.wf (s : State) : Bool :=
  risingKeys s.regs && s.regs.all (fun e => decide (e.2 ≠ regReset s e.1)) && mwf {} s.memTiles && s.memTiles.all (fun e => e.2.wf)

/-- What the fuses fix at manufacture and nothing changes later (00_scope.md R7, 14 R371, 15 R397). -/
def Fuses.identity (f : Fuses) : Fuses := { f with ownerSet := false, ownerHash := [], user := [] }

/-- From `s` to `t` every register reads alike, but for those at these addresses. -/
def regsSame (s t : State) (l : List Nat) : Prop := ∀ a : Nat, a ∉ l → t.raw a = s.raw a

/-- The word `w`, of this opcode, is the one that agent `a` issues next, at cycle t, and it reads clean. -/
def issuesNext (s : State) (a : Agent) (op : Nat) (w : Word64) (t : Nat) : Prop :=
  plays s a = true ∧ (s.play a).wait = .none ∧ (s.play a).at_ = t ∧ 1 ≤ (s.play a).pc ∧ (s.play a).pc < period s a ∧
    w = (s.tt a).word (s.play a).pc ∧ opcode w = op ∧ (s.tt a).check (s.play a).pc = none

/-- No operation word is at work in cluster k's function units. -/
def funsIdle (s : State) (k : Nat) : Prop := (s.fun_ (2 * k)).op = none ∧ (s.fun_ (2 * k + 1)).op = none

/-- Queue q holds b at its head and r behind it, and nothing is on its way to it that a read in cycle t would have to wait for. -/
def headIs (s : State) (q : QueueId) (b : Beat) (r : List Beat) (t : Nat) : Prop :=
  (s.queue q).beats = b :: r ∧ (s.queue q).discarding = false ∧ (s.queue q).wrote = none ∧ (s.queue q).readCycle ≤ t ∧
    s.links = [] ∧ (s.cluster (qCluster q)).arrivals = [] ∧ passPort s q = false

/-- From `s` to `t` the clusters differ at most in the flip-flops of their logic blocks and in how far these have played. -/
def clustersPlayed (s t : State) : Prop :=
  ∀ k : Nat, t.cluster k = { s.cluster k with
    logic := { s.logic k with flops := (t.logic k).flops, playedTo := (t.logic k).playedTo } }

/-- Nobody has waited for credit of queue q. -/
def noWaiter (s : State) (q : QueueId) : Prop := (s.queue q).waitSince = none ∧ (s.queue q).blocked = none

/-- Descriptor `b`, of this opcode and sound, is the next of pair r, and the engine serves the pair now. -/
def headCommand (s : State) (r op : Nat) (b : List Byte) : Prop :=
  (s.ring r).cur = none ∧ ((s.ring r).ahead.head?).map (fun e => e.2) = some b ∧ opcodeOf b = op ∧ engineServes s r = true ∧
    validDesc b = true ∧ (exclusive op = true → lockedByOther s r = false)

/-- The command of pair r has ended with this status and RESULT. -/
def endsWith (s : State) (r status result : Nat) : Prop := phaseOf s r = some (.done status (BitVec.ofNat 64 result))

/-- The READ flits by which a pair's ring path asks for n bytes of host memory: 4,096 bytes to a flit, each with the next TAG (13 R328, 12 R299). -/
def readsOut (s : State) (r addr n : Nat) : List Flit := (readsFor r none false (s.ctx (s.fld (fHrgPath r))).nextTag n).map (readFlit addr)

/-- The pair's command has asked the host for its source (13 R328, R342), which the answers `x`, and at a second read `y`, give. -/
def sourceBegun (s : State) (r : Nat) (b x y : List Byte) : State :=
  setPhase (askHost s r (opn b 0x10 6) (sourceLen b) (cmdIndex s r) false) r (.reading x y [] [] [])

/-- What waits in the access context of the pair's ring path to be sent. -/
def pathOut (s : State) (r : Nat) : List Flit := (s.ctx (s.fld (fHrgPath r))).outq

/-- No request of the region waits for an unpinned way. -/
def noPinWaits (s : State) (r : Nat) : Prop := ∀ e ∈ (s.region r).descs, ∀ p ∈ e.2.reqs, ∀ c : Nat, p.status ≠ .waitPin c

/-- The check state that a word written over a link with this error has. -/
def writtenCheck : Option Bool → Option Ecc
  | none => none
  | some false => some .correctable
  | some true => some .uncorrectable

/-- Only pair r has anything for the engine. -/
def onlyPair (s : State) (r : Nat) : Prop := ∀ q : Nat, q < 64 → q ≠ r → (s.ring q).cur = none ∧ (s.ring q).ahead = []

/-- The flit's check holds and no reserved field of it is set (12 R298, R299). -/
def soundFlit (h : FlitHdr) (b : FlitBody) : Prop := checkOk h (typeOf b) b = true ∧ reservedSet h (typeOf b) b = false

/-- The header's lane carries flits (12 R297). -/
def onLane (s : State) (h : FlitHdr) : Prop := s.tile h.site.val = 1 ∧ laneCarries s h.site.val h.lane.val = true

/-- A loose flit with this header reaches its lane with the expected SEQ, and no flit of its group waits for another (12 R308). -/
def inSequence (s : State) (h : FlitHdr) : Prop :=
  onLane s h ∧ h.locked = false ∧ h.seq = (s.retry h.site.val h.lane.val).expect ∧ (s.retry h.site.val h.lane.val).sinceAck < 31 ∧
    behind (s.retry h.site.val h.lane.val) = false ∧ ∀ e ∈ s.heldFlits, e.1 ≠ 32 * h.site.val + leadH s h

/-- The same on a group that is UP, and so carries every loose flit (12 R308, R320). -/
def inTurn (s : State) (h : FlitHdr) : Prop := inSequence s h ∧ s.is (fGrpUp h.site.val (leadH s h)) = true

/-- A sound loose flit with this header and payload reaches its lane in its turn (12 R298, R308). -/
def inOrder (s : State) (h : FlitHdr) (b : FlitBody) : Prop := inTurn s h ∧ soundFlit h b

/-- The payload of a SYS flit of a subtype, from (low bit, value) pairs (12 R321). -/
def sysBody (subtype : Nat) (fs : List (Nat × Nat)) : FlitBody := .sys (BitVec.ofNat 256 (sysFields subtype fs))

/-- The position that the lane's next flit takes in its group (12 R301). -/
def laneSpot (s : State) (site lead lane : Nat) : Nat :=
  nextPosition (s.retry site lead).pos (max 1 (ways s site lead).length) ((ways s site lead).idxOf lane)

/-- The group's next new loose flit goes out at once, on lane j (12 R301, R320). -/
def goesOut (s : State) (site lead j : Nat) : Prop :=
  s.is (fGrpUp site lead) = true ∧ (s.retry site lead).waiting = [] ∧ nextLane s site (s.retry site lead).pos (ways s site lead) = some j

/-- A new loose flit as lane j sends it next (12 R301, R308). -/
def sentOut (s : State) (site lead j : Nat) (f : Flit) : Out := .flit site j (laneSpot s site lead j) (s.retry site j).nextSeq f

/-- A LINK flit as the lane sends it next (12 R308). -/
def linkOut (s : State) (site lane : Nat) (seq : BitVec 8) (nak : Bool) : Out :=
  .flit site lane (laneSpot s site (leadOf s site lane) lane) 0 ⟨false, 0, true, true, false, .link seq nak⟩

/-- The resends of these unacknowledged flits by a lane, the last first: each in the lane's next position (12 R301, R308). -/
def resentOut (s : State) (site lane : Nat) (l : List (BitVec 8 × Nat × Flit)) : List Out :=
  (((List.range l.length).zip l).map (fun p =>
    .flit site lane (laneSpot s site (leadOf s site lane) lane + max 1 (ways s site (leadOf s site lane)).length * p.1) p.2.1 p.2.2.2)).reverse

/-- No flit waits in a multicast group. -/
def groupsEmpty (s : State) : Prop := ∀ m : Nat, (s.mc m).queue = []

/-- The lane has accepted the flit: it expects the next SEQ. -/
def acceptedOn (s : State) (h : FlitHdr) : State :=
  s.setRetry h.site.val h.lane.val { s.retry h.site.val h.lane.val with
    expect := (s.retry h.site.val h.lane.val).expect + 1
    nak := false
    sinceAck := (s.retry h.site.val h.lane.val).sinceAck + 1
    seen := (s.retry h.site.val h.lane.val).expect + 1 }

/-- Stream x is an open loose context of this kind with room in its empty buffer, and it owes its peer fewer than seven credits. -/
def openContext (s : State) (x kind : Nat) : Prop :=
  0 < x ∧ s.fld (fCtxKind x) = kind ∧ s.is (fCtxLocked x) = false ∧ (s.ctx x).buf = [] ∧ 0 < s.fld (fCtxCredits x) ∧ (s.ctx x).due < 7

/-- What boot waits for is there but for PORST_N and REFCLK (14 R367, 17 R421). -/
def bootWaits (s : State) : Prop := s.pins.vin = true ∧ s.is fRailsGood = true ∧ s.fld fBootState = 0

/-- The elements x, in units of 2^u, that an operation word reads from these items: a beat row, or a sum-bus row (06 R143). -/
def readsRow (w : Word64) (l : List TakenItem) (x : Nat → Int) (u : Int) : Prop :=
  (∃ bs : List Beat, l = bs.map .beat ∧ bs.length = beatsFor (wLen w) ∧ u = ((bs.headD zeroBeat).exp.toNat : Int) - 32 ∧
    ∀ n : Nat, n < wLen w → x n = mantissa (bs.getD (n / 16) zeroBeat) (n % 16)) ∨
  (∃ r : BusRow, l = [.row r] ∧ r.expValid = true ∧ wLen w ≤ 32 ∧ u = (r.exp.toNat : Int) - 32 - wQin w ∧
    ∀ n : Nat, n < wLen w → x n = (r.vals.getD n 0).toInt) ∨
  (∃ r : BusRow, l = [.row r] ∧ r.expValid = false ∧ u = -32 - (wQin w : Int) ∧ ∀ n : Nat, n < wLen w → x n = 0)

/-- These beats are the emission of `len` elements x in units of 2^u: one exponent, EOUT or the smallest at which no element is limited, and each
element scaled to it and limited to ±2,047, with zeros behind (03 R78, R80 to R82). -/
def emitsRow (ys : List Beat) (measured : Bool) (eout len : Nat) (x : Nat → Int) (u : Int) : Prop :=
  ys.length = beatsFor len ∧ ∃ e : Nat, e < 64 ∧ (∀ y ∈ ys, y.exp.toNat = e) ∧ (measured = false → e = eout) ∧
    (measured = true → (∀ f : Nat, f < e → ∃ n : Nat, n < len ∧ 2047 < (scaleBy (x n) (u + 32 - f)).natAbs) ∧
      (e < 63 → ∀ n : Nat, n < len → (scaleBy (x n) (u + 32 - e)).natAbs ≤ 2047)) ∧
    (∀ j : Nat, j < 16 * ys.length → mantissa (ys.getD (j / 16) zeroBeat) (j % 16) =
      (if j < len then max (-2047) (min 2047 (scaleBy (x j) (u + 32 - e))) else 0)) ∧
    ∀ j : Nat, j < ys.length → (ys.getD j zeroBeat).first = decide (j = 0) ∧ (ys.getD j zeroBeat).last = decide (j + 1 = ys.length)

/-- The items are a row of n elements x in beats of this exponent. -/
def beatRow (l : List TakenItem) (n : Nat) (x : Nat → Int) (e : BitVec 6) : Prop :=
  ∃ bs : List Beat, l = bs.map .beat ∧ bs.length = beatsFor n ∧ (bs.headD zeroBeat).exp = e ∧
    ∀ j : Nat, j < n → x j = mantissa (bs.getD (j / 16) zeroBeat) (j % 16)

/-- Word k of an operation's table in the cluster store (06 R146). -/
def tableAt (i : FIn) (k : Nat) : Nat := (i.store.word ((8 * wTbase i.w + k) % 131072)).toNat

/-- The piecewise-linear function of a table at z, in units of 2^(EY - 40) (06 R147). -/
def pieceAtZ (i : FIn) (z : Int) : Int :=
  let s := ((z + 32768) / 256).toNat
  sext 16 (bits (tableAt i (1 + s / 2)) (32 * (s % 2)) 16) * 256 + sext 16 (bits (tableAt i (1 + s / 2)) (32 * (s % 2) + 16) 16) * ((z + 32768) % 256)

/-- A status bit that the mask admits and that has risen from `s` to `t` has latched an alert; nothing else has (17 R430). -/
def alertFollows (s t : State) : Prop :=
  t.pins.alert = true ↔ (s.pins.alert = true ∨
    ∃ i : Nat, i < 8 ∧ bits (t.fld fAlertMask) i 1 = 1 ∧ bits s.reported i 1 = 0 ∧ bits t.reported i 1 = 1)

/-- The state of the whole package at the opening edge of cycle t, which a capture of a running array copies: flip-flops that load at the edge have
loaded (16 R399). -/
def capturedAt (s : State) (t : Nat) : State := frostState (playBlocks (s.at t) (fun _ => true) (t + 1)) t

/-- A capture holds this state: every queue, context, waystation lane and verdict record, and each unit, function unit and cluster but for its stores
and its scrubber (16 R403). -/
def holdsImage (f : Snapshot) (g : State) : Prop :=
  f.portQ = g.portQ ∧ f.bankQ = g.bankQ ∧ f.steerQ = g.steerQ ∧ f.way = g.way ∧ f.ctx = g.ctxs ∧ f.vas = g.vas ∧ f.clock = g.clock ∧
    f.stage = g.stage ∧ f.image = g.image ∧
    (∀ u : Nat, mget {} f.units u = { g.unit u with weight := {}, scale := {}, zp := {}, tt := {}, scrubPos := 0, winHi := 0 }) ∧
    (∀ i : Nat, mget {} f.funs i = { g.fun_ i with tt := {}, winHi := 0 }) ∧
    (∀ k : Nat, mget {} f.clusters k = { g.cluster k with store := {} })

/-- The package does not stop within k steps. -/
def runsFor (k : Nat) (s : State) : Bool :=
  match k with
  | 0 => true
  | k + 1 =>
    match step s with
    | .next t => runsFor k t
    | _ => false

end Sys2Proof.Machine
end

