-- ==== Sys2Proof/Certificates/Slice0/Obligations.lean ====
section
/-!
DEFINITION. Certificates/Slice0/Obligations.lean: the statements about this model, family by family. Each says in its docstring which rules of
the spec it rests on, and which of the model's own choices (DEDUCED, PRESUMED or DESIGN CHOICE rows of notes/assumptions).
-/
open Sys2Proof Sys2Proof.Machine

/-! ### The machine -/

/-- The machine takes the command at the front of its queue and runs it on the state with the queue's rest.
It rests also on the model's choices in notes/assumptions/19.md. -/
def Obligations.StepRunsFrontCommand : Prop :=
  ∀ (c : Instr) (r : List Instr) (s : State), s.pending = c :: r → step s = exec c { s with pending := r }

/-- Every step takes exactly the command at the front off the queue, whatever the command does, and none changes what the fuses hold from
manufacture. -/
def Obligations.StepTakesFrontKeepsFuses : Prop :=
  (∀ s t : State, step s = .next t → t.pending = s.pending.tail) ∧
  (∀ s t : State, step s = .next t → t.fuses.identity = s.fuses.identity)

/-- Every step keeps the canonical form of the registers and of the memory tiles. -/
def Obligations.StepKeepsCanonicalForm : Prop := ∀ s t : State, s.wf = true → step s = .next t → t.wf = true

/-- Reset: the canonical form, no command waiting, DARK, no run, no image, and registers at the values that the spec gives (01 R31, 02 R46, R65,
17 R419, R432). That the pending table and the image are empty at reset is the model's choice.
It rests also on the model's choices in notes/assumptions/20.md. -/
def Obligations.ResetState : Prop :=
  State.reset.wf = true ∧ State.reset.pending = [] ∧ State.reset.fld fState = 0 ∧ State.reset.run.started = false ∧ State.reset.image = none ∧
    State.reset.pendTable = [] ∧ State.reset.is fEnable = true ∧ State.reset.fld fNDefault = 30 ∧ State.reset.fld fWeather = 16 ∧
    State.reset.fld fAlertMask = 0x1E ∧ State.reset.fld fRegime = 0 ∧ State.reset.is fArmed = false

/-! ### Crossing time -/

/-- CROSSING_START: the count of the device (R38), the run's count (R43), and the inputs of one crossing cleared; the configured logic blocks have
played every edge of the crossing that ends (08 R192, R196): that they are played edge by edge up to each crossing start is the model's choice.
It rests also on the model's choices in notes/assumptions/15.md. -/
def Obligations.CrossingStartCounts : Prop :=
  ∀ s : State, s.runs = true →
    ∃ t, exec .crossingStart s = .next t ∧ t.clock.xseq = s.clock.xseq + 1 ∧ t.clock.xstart = s.clock.xstart + s.n ∧
      (s.fld fCurrent + 1 = s.fld fTurnLen → t.fld fCurrent = 0 ∧ t.fld fTurn = (s.fld fTurn + 1) % 2 ^ 32) ∧
      (s.fld fCurrent + 1 ≠ s.fld fTurnLen → t.fld fCurrent = (s.fld fCurrent + 1) % 2 ^ 12 ∧ t.fld fTurn = s.fld fTurn) ∧
      t.run = (if s.run.started = true ∧ s.run.stop = none then { s.run with count := (s.run.count + 1) % 2 ^ 48 } else s.run) ∧
      t.clock.tpulse = false ∧ t.clock.tcode = 0 ∧ t.clock.empty = false ∧ clustersPlayed s t ∧
      (∀ k : Nat, k ∈ s.clusters.map (·.1) → s.fld (fLogState k) = 2 → (s.logic k).cells.words ≠ [] →
        (s.logic k).playedTo ≤ s.clock.xstart + s.n → (t.logic k).playedTo = s.clock.xstart + s.n) ∧
      { t with regs := s.regs, clock := s.clock, run := s.run, thermal := s.thermal, ctxs := s.ctxs, fencePend := s.fencePend
               regions := s.regions, hazardsHeld := s.hazardsHeld, clusters := s.clusters, out := s.out, freeNext := s.freeNext } = s

/-- TIMING_SLOT: the comma, the number and the slot's own checks (R36, R38, R40, R50).
It rests also on the model's choices in notes/assumptions/65.md. -/
def Obligations.TimingSlotChecks : Prop :=
  ∀ (c : Comma) (chars : BitVec 56) (violation : Bool) (s : State), s.runs = true →
    ∃ t, exec (.timingSlot c chars violation) s = .next t ∧
      (c = .bad → t.clock.badCommas = s.clock.badCommas + 1 ∧ t.clock.goodCommas = 0 ∧ t.fld fCommaErr = min 255 (s.fld fCommaErr + 1)) ∧
      (c ≠ .bad → t.clock.badCommas = 0 ∧ t.clock.goodCommas = s.clock.goodCommas + 1 ∧ t.fld fCommaErr = s.fld fCommaErr) ∧
      t.fld fNumErr = (if c ≠ .bad ∧ ¬ (s.clock.resync.isSome = true ∧ c = .k281) ∧
          ¬ (bits chars.toNat 8 12 = s.fld fCurrent ∧ (c = .k281 ↔ s.fld fCurrent = 0))
        then min 255 (s.fld fNumErr + 1) else s.fld fNumErr) ∧
      t.fld fCmdErr = (if parityOk chars = false ∨ violation = true ∨ (c ≠ .bad ∧ 6 < bits chars.toNat 0 8)
        then min 255 (s.fld fCmdErr + 1) else s.fld fCmdErr) ∧
      t.clock.empty = (decide (c ≠ .bad) && parityOk chars && !violation && chars.getLsbD 20) ∧
      t.fld fLossCnt = s.fld fLossCnt ∧ regsSame s t [0x2001C] ∧ { t with regs := s.regs, clock := s.clock } = s

/-- NOP and the five scheduled commands of the timing lane: an accepted one enters the pending table and does nothing else,
and one that fails a condition of R40 is discarded and changes nothing but CMD_ERR (R39, R40).
It rests also on the model's choices in notes/assumptions/6.md. -/
def Obligations.ScheduledCommandsEnterTable : Prop :=
  (∀ s : State, exec .nop s = .next s) ∧
  (∀ (ref : BitVec 24) (a3 : Byte) (s : State) (c : Instr) (code : PendCode) (d : Nat), s.runs = true → d = refDistance s ref →
    (c, code) ∈ [(Instr.runStart ref a3, PendCode.runStart), (.runStop ref a3, .runStop), (.testPulse ref a3, .testPulse),
      (.menuSelect ref a3, .menuSelect), (.frost ref a3, .frost)] →
    bits ref.toNat 0 12 < s.fld fTurnLen → 2 ≤ d → d < 2048 * s.fld fTurnLen → s.pendTable.length < 16 → (code = .menuSelect → a3.toNat < 16) →
    (code = .frost → a3.toNat < s.n) → (∀ e ∈ s.pendTable, e.code = code → e.x ≠ s.clock.xseq + d) →
      exec c s = .next { s with pendTable := s.pendTable ++ [⟨code, s.clock.xseq + d, a3.toNat, false, none⟩] }) ∧
  (∀ (ref : BitVec 24) (a3 : Byte) (s : State) (c : Instr) (code : PendCode), s.runs = true →
    (c, code) ∈ [(Instr.runStart ref a3, PendCode.runStart), (.runStop ref a3, .runStop), (.testPulse ref a3, .testPulse),
      (.menuSelect ref a3, .menuSelect), (.frost ref a3, .frost)] →
    (refDistance s ref < 2 ∨ 2048 * s.fld fTurnLen ≤ refDistance s ref ∨ 16 ≤ s.pendTable.length ∨ (code = .frost ∧ s.n ≤ a3.toNat) ∨
      (code = .menuSelect ∧ 16 ≤ a3.toNat) ∨ (∃ e ∈ s.pendTable, e.code = code ∧ e.x = s.clock.xseq + refDistance s ref)) →
      ∃ t, exec c s = .next t ∧ t.fld fCmdErr = min 255 (s.fld fCmdErr + 1) ∧ t.fld fNumErr = s.fld fNumErr ∧
        regsSame s t [0x2001C] ∧ { t with regs := s.regs } = s)

/-- RESYNC and RESYNC_LOAD (R41). -/
def Obligations.ResyncLoadsTheTurn : Prop :=
  (∀ (turn : Word32) (s : State), s.runs = true → s.run.started = false →
    exec (.resync turn) s = .next { s with clock := { s.clock with resync := some turn } }) ∧
  (∀ (turn : Word32) (s : State), s.runs = true → s.run.started = true →
    ∃ t, exec (.resync turn) s = .next t ∧ t.fld fCmdErr = min 255 (s.fld fCmdErr + 1) ∧ { t with regs := s.regs } = s ∧ regsSame s t [0x2001C]) ∧
  (∀ (turn : Word32) (s : State), s.clock.resync = some turn →
    ∃ t, exec .resyncLoad s = .next t ∧ t.fld fCurrent = 0 ∧ t.fld fTurn = turn.toNat ∧ t.pendTable = [] ∧ t.clock.resync = none ∧
      t.fld fTurnLen = s.fld fTurnLen ∧ regsSame s t [0x2000C, 0x20010] ∧
      { t with regs := s.regs, pendTable := s.pendTable, clock := s.clock } = s)

/-- RUN_START_EFFECT and RUN_STOP_EFFECT at their crossing: the run starts or stops, a pair on one crossing restarts it, and the other cases are
counted; RUN_STOPPED_LAST_VERDICT: a run ends after its last verdict, not started and not armed (R43, R44).
It rests also on the model's choices in notes/assumptions/7.md, notes/assumptions/62.md. -/
def Obligations.RunStartsAndStops : Prop :=
  (∀ (e : PendCmd) (s : State), dueCmd s .runStart = some e → s.is fArmed = true → s.run.started = false → s.stagedImage = false →
    s.run.restart = false →
    ∃ t, exec .runStartEffect s = .next t ∧ t.run.started = true ∧ t.run.start = s.clock.xseq ∧ t.run.count = 0 ∧ t.run.stop = none ∧
      t.fld fRunNum = (s.fld fRunNum + 1) % 2 ^ 32 ∧ dueCmd t .runStart = none ∧ regsSame s t [0x40218] ∧
      { t with regs := s.regs, run := s.run, pendTable := s.pendTable, way := s.way, vas := s.vas, ctxs := s.ctxs } = s) ∧
  (∀ (e : PendCmd) (s : State), dueCmd s .runStart = some e → s.is fArmed = true → s.run.started = false → s.stagedImage = true →
    s.run.restart = false →
    ∃ t, exec .runStartEffect s = .next t ∧ t.run.started = true ∧ t.run.start = s.clock.xseq ∧ t.run.count = 0 ∧ t.run.stop = none ∧
      t.stage.running = true ∧ t.stage.step = 0 ∧ dueCmd t .runStart = none) ∧
  (∀ (e : PendCmd) (s : State), dueCmd s .runStart = some e → s.is fArmed = false ∨ (s.run.started = true ∧ s.run.restart = false) →
    ∃ t, exec .runStartEffect s = .next t ∧ t.fld fCmdErr = min 255 (s.fld fCmdErr + 1) ∧ regsSame s t [0x2001C] ∧
      { t with regs := s.regs, pendTable := s.pendTable } = s) ∧
  (∀ (e : PendCmd) (s : State), dueCmd s .runStop = some e → s.run.started = true → s.run.stop = none →
    (∀ c ∈ s.pendTable, c.code = .runStart → c.x ≠ s.clock.xseq) →
    ∃ t, exec .runStopEffect s = .next t ∧ t.run = { s.run with stop := some s.clock.xseq } ∧ dueCmd t .runStop = none ∧
      { t with run := s.run, pendTable := s.pendTable } = s) ∧
  (∀ (e c : PendCmd) (s : State), dueCmd s .runStop = some e → s.run.started = true → s.run.stop = none → c ∈ s.pendTable →
    c.code = .runStart → c.x = s.clock.xseq →
    ∃ t, exec .runStopEffect s = .next t ∧ t.run = { s.run with restart := true } ∧ { t with run := s.run, pendTable := s.pendTable } = s) ∧
  (∀ (e : PendCmd) (s : State), dueCmd s .runStart = some e → s.is fArmed = true → s.run.restart = true →
    ∃ t, exec .runStartEffect s = .next t ∧ t.run.started = true ∧ t.run.start = s.clock.xseq ∧ t.run.count = 0 ∧ t.run.restart = false ∧
      t.run.anchor0 = s.run.anchor0 ∧ t.fld fRunNum = (s.fld fRunNum + 1) % 2 ^ 32 ∧ regsSame s t [0x40218] ∧
      { t with regs := s.regs, run := s.run, pendTable := s.pendTable } = s) ∧
  (∀ (e : PendCmd) (s : State), dueCmd s .runStop = some e → s.run.started = false →
    ∃ t, exec .runStopEffect s = .next t ∧ t.fld fCmdErr = min 255 (s.fld fCmdErr + 1) ∧ regsSame s t [0x2001C] ∧
      { t with regs := s.regs, pendTable := s.pendTable } = s) ∧
  (∀ (p : Nat) (s : State), s.run.started = true → s.run.stop = some p → p + latencyL s ≤ s.clock.xseq + 1 → verdictsSent s p = true →
    ∃ t, exec .runStoppedLastVerdict s = .next t ∧ t.run.started = false ∧ t.is fArmed = false ∧ t.run.count = s.run.count ∧
      t.fld fState = s.fld fState ∧ t.stage.running = false ∧ t.memTiles = s.memTiles ∧ t.clock = s.clock ∧
      t.portQ = s.portQ ∧ t.bankQ = s.bankQ)

/-- MENU_SELECT (R45): at its crossing the menu it names comes in force when the loaded image enables it; with no image, or a menu that is not
enabled, it is ignored and counted; one that arrives with A3[7:4] not zero is discarded and counted (02 R39, 04 R93). Only one that SELECT_MENU entered is the menu of staged
work from then on (04 R108). -/
def Obligations.MenuSelectTakesEffect : Prop :=
  (∀ (ref : BitVec 24) (a3 : Byte) (s : State), s.runs = true → 16 ≤ a3.toNat →
    ∃ t, exec (.menuSelect ref a3) s = .next t ∧ t.fld fCmdErr = min 255 (s.fld fCmdErr + 1) ∧ t.pendTable = s.pendTable ∧
      regsSame s t [0x2001C] ∧ { t with regs := s.regs } = s) ∧
  (∀ (e : PendCmd) (im : Image) (s : State), dueCmd s .menuSelect = some e → s.image = some im → im.menus.getLsbD e.a3 = true →
    ∃ t, exec .menuSelectEffect s = .next t ∧ t.clock = { s.clock with menus := e.a3 :: s.clock.menus.drop 1 } ∧
      t.stage = { s.stage with inForce := if e.host = true then e.a3 else s.stage.inForce } ∧ dueCmd t .menuSelect = none ∧
      { t with clock := s.clock, pendTable := s.pendTable, stage := s.stage } = s) ∧
  (∀ (e : PendCmd) (s : State), dueCmd s .menuSelect = some e → (∀ im, s.image = some im → im.menus.getLsbD e.a3 = false) →
    ∃ t, exec .menuSelectEffect s = .next t ∧ t.fld fCmdErr = min 255 (s.fld fCmdErr + 1) ∧ t.clock = s.clock ∧ regsSame s t [0x2001C] ∧
      { t with regs := s.regs, pendTable := s.pendTable } = s)

/-- TEST_PULSE and EPOCH at their crossing (R39, 12 R317), and the order of R42: while a command that applies earlier is pending for this crossing,
a later one has no effect yet (the model's choice, notes/assumptions/2.md). -/
def Obligations.EffectsApplyInOrder : Prop :=
  (∀ (e : PendCmd) (s : State), dueCmd s .testPulse = some e →
    ∃ t, exec .testPulseEffect s = .next t ∧ t.clock = { s.clock with tpulse := true, tcode := BitVec.ofNat 8 e.a3 } ∧
      dueCmd t .testPulse = none ∧ { t with clock := s.clock, pendTable := s.pendTable } = s) ∧
  (∀ (e : PendCmd) (s : State), dueCmd s .epoch = some e → s.run.started = false →
    ∃ t, exec .epochEffect s = .next t ∧ t.fld fSysEpoch = 1 - s.fld fSysEpoch ∧ regsSame s t [fSysEpoch.addr] ∧
      { t with regs := s.regs, pendTable := s.pendTable } = s) ∧
  (∀ (e : PendCmd) (s : State), dueCmd s .epoch = some e → s.run.started = true →
    ∃ t, exec .epochEffect s = .next t ∧ t.is fEpochErr = true ∧ t.fld fSysEpoch = s.fld fSysEpoch ∧ regsSame s t [fEpochErr.addr] ∧
      { t with regs := s.regs, pendTable := s.pendTable } = s) ∧
  (∀ (s : State) (e : PendCmd), e ∈ s.pendTable → e.x = s.clock.xseq →
    (e.code = .epoch → exec .runStopEffect s = .next s) ∧
    (e.code = .runStop → exec .runStartEffect s = .next s) ∧
    (e.code = .runStart → exec .menuSelectEffect s = .next s) ∧
    (e.code = .menuSelect → exec .testPulseEffect s = .next s) ∧
    (e.code = .runStop → exec .menuSelectEffect s = .next s ∧ exec .testPulseEffect s = .next s))

/-! ### Locking, loss and holdover -/

/-- The locking sequence (R46): its steps up to NUMBER with N_ACTIVE from step 4 on (R65), and its returns, to SEARCH after a code violation or
a PLL timeout and to PLL after a phase timeout; LANE takes effect at SEARCH (R49), where a lane whose own ENABLE is 0 holds the sequence in DARK
(11 R296), and every die holds its default voltage while the array clock is stopped (15 R388). In NUMBER (R37) the first K28.1 is remembered, the
second measures T and locks with the turn number of R37, and a lone one is dropped and counted. -/
def Obligations.LockingFollowsItsEvents : Prop :=
  (∀ s : State, s.fld fState = 0 → s.is fEnable = true →
    ∃ t, exec .timingSignalPresent s = .next t ∧ t.fld fState = bit (s.is (fRxEnable 0 (s.fld fLane))) ∧ t.fld fNActive = 0 ∧
      t.clock.lane = s.fld fLane) ∧
  (∀ s : State, s.fld fState = 1 → ∃ t, exec .commaFound s = .next t ∧ t.fld fState = 2 ∧ regsSame s t [0x20004] ∧ { t with regs := s.regs } = s) ∧
  (∀ s : State, s.fld fState = 2 →
    ∃ t, exec .confirmComplete s = .next t ∧ t.fld fState = 3 ∧ regsSame s t [0x20004] ∧ { t with regs := s.regs } = s) ∧
  (∀ (hz : Word32) (s : State), s.fld fState = 3 → 30000000 ≤ hz.toNat → hz.toNat ≤ 45000000 → s.n * hz.toNat ≤ gradeHz s →
    ∃ t, exec (.frequencyMeasurement hz) s = .next t ∧ t.fld fState = 4 ∧ t.fld fHz = hz.toNat ∧ t.fld fNActive = s.n % 64 ∧
      t.is fFreqRange = false ∧ t.is fRatioErr = false ∧ regsSame s t [0x20004, 0x20008] ∧ { t with regs := s.regs } = s) ∧
  (∀ (hz : Word32) (s : State), s.fld fState = 3 → (hz.toNat < 30000000 ∨ 45000000 < hz.toNat ∨ gradeHz s < s.n * hz.toNat) →
    ∃ t, exec (.frequencyMeasurement hz) s = .next t ∧ t.fld fState = 3 ∧ t.fld fHz = hz.toNat ∧
      t.is fFreqRange = (decide (hz.toNat < 30000000) || decide (45000000 < hz.toNat)) ∧
      t.is fRatioErr = decide (gradeHz s < s.n * hz.toNat) ∧ regsSame s t [0x20004, 0x20008] ∧ { t with regs := s.regs } = s) ∧
  (∀ s : State, s.fld fState = 4 →
    ∃ t, exec .pllLock s = .next t ∧ t.fld fState = 5 ∧ t.fld fNActive = s.n % 64 ∧ regsSame s t [0x20004] ∧ { t with regs := s.regs } = s) ∧
  (∀ s : State, s.fld fState = 5 →
    ∃ t, exec .phaseAligned s = .next t ∧ t.fld fState = 6 ∧ t.clock.firstTurnStart = false ∧ regsSame s t [0x20004] ∧
      { t with regs := s.regs, clock := s.clock } = s) ∧
  (∀ s : State, s.fld fState ∈ [3, 4, 5, 6] →
    ∃ t, exec .timingCodeViolation s = .next t ∧ t.fld fState = bit (s.is (fRxEnable 0 (s.fld fLane))) ∧ t.clock.lane = s.fld fLane ∧
      t.units = s.units ∧ t.clusters = s.clusters ∧ t.run = s.run ∧ t.memTiles = s.memTiles) ∧
  (∀ s : State, s.fld fState = 4 →
    ∃ t, exec .pllLockTimeout s = .next t ∧ t.fld fState = bit (s.is (fRxEnable 0 (s.fld fLane))) ∧ t.clock.lane = s.fld fLane ∧
      (∀ d : Nat, d < 16 → t.fld ⟨avsBase d, 0, 10⟩ = s.fuses.vdefault % 2 ^ 10) ∧
      t.units = s.units ∧ t.clusters = s.clusters ∧ t.run = s.run ∧ t.memTiles = s.memTiles) ∧
  (∀ s : State, s.fld fState = 5 →
    ∃ t, exec .phaseTimeout s = .next t ∧ t.fld fState = 4 ∧ t.fld fNActive = s.n % 64 ∧
      t.units = s.units ∧ t.clusters = s.clusters ∧ t.run = s.run ∧ t.memTiles = s.memTiles) ∧
  (∀ (gap : Nat) (s : State), s.fld fState = 6 → s.clock.firstTurnStart = false →
    exec (.turnStartSeen gap) s = .next { s with clock := { s.clock with firstTurnStart := true } }) ∧
  (∀ (gap : Nat) (s : State), s.fld fState = 6 → s.clock.firstTurnStart = true → 1 ≤ gap → gap ≤ 4096 →
    ∃ t, exec (.turnStartSeen gap) s = .next t ∧ t.fld fState = 7 ∧ t.fld fTurnLen = gap ∧ t.fld fCurrent = 0 ∧
      t.fld fTurn = (if s.clock.everLocked = true then (s.fld fTurn + 1) % 2 ^ 32 else 0) ∧ t.clock.everLocked = true ∧
      t.is fMissed = (s.is fMissed || s.pendTable.any (fun e => decide (e.code = .frost))) ∧
      t.pendTable = s.pendTable.filter (fun e => decide (e.code ≠ .frost)) ∧
      (∀ r : Nat, t.region r = { s.region r with toggledAt := none }) ∧ regsSame s t [0x20004, 0x2000C, 0x20010, fMissed.addr] ∧
      { t with regs := s.regs, clock := s.clock, pendTable := s.pendTable, regions := s.regions } = s) ∧
  (∀ s : State, s.fld fState = 6 → s.clock.firstTurnStart = true →
    ∃ t, exec .numberTimeout s = .next t ∧ t.fld fNumErr = min 255 (s.fld fNumErr + 1) ∧ t.fld fState = 6 ∧
      t.clock = { s.clock with firstTurnStart := false } ∧ regsSame s t [0x2001C] ∧ { t with regs := s.regs, clock := s.clock } = s)

/-- The lane is lost after the third bad slot in a row, and HOLDOVER begins; a good slot in between starts the
count anew (R50). -/
def Obligations.LossBeginsHoldover : Prop :=
  (∀ (c : Comma) (chars : BitVec 56) (violation : Bool) (s : State), s.runs = true →
    ∃ t, exec (.timingSlot c chars violation) s = .next t ∧
      t.clock.badCommas = (if c = .bad then s.clock.badCommas + 1 else 0)) ∧
  (∀ s : State, s.fld fState = 7 → 3 ≤ s.clock.badCommas →
    ∃ t, exec .timingLaneLoss s = .next t ∧ t.fld fState = 8 ∧ t.is fLoss = true ∧ t.fld fLossCnt = min 255 (s.fld fLossCnt + 1) ∧
      t.clock = { s.clock with goodCommas := 0, holdStart := s.clock.xseq } ∧ regsSame s t [0x20004, 0x2001C] ∧
      t.run = s.run ∧ t.pendTable = s.pendTable ∧ t.units = s.units ∧ t.clusters = s.clusters ∧ t.portQ = s.portQ ∧ t.bankQ = s.bankQ)

/-- HOLDOVER ends in LOCKED when phase and number agree (R51); otherwise, or after 4,096 crossings, a started run is to stop at the next crossing
start, with RELOCK_FAIL or HOLDOVER_EXPIRED set, or else SEARCH is entered at once with nothing left in flight. The run so stopped is not started, not
armed, leaves nothing in flight, and SEARCH follows (R52), or DARK where the lane's own ENABLE holds it (11 R296).
It rests also on the model's choices in notes/assumptions/13.md. -/
def Obligations.HoldoverEndsOrStops : Prop :=
  (∀ (phase : Int) (num : BitVec 12) (s : State), s.fld fState = 8 → 16 ≤ s.clock.goodCommas → s.run.forced = none → phase.natAbs ≤ 25 →
    num.toNat = s.fld fCurrent →
    ∃ t, exec (.holdoverReturn phase num) s = .next t ∧ t.fld fState = 7 ∧ t.clock = { s.clock with badCommas := 0, goodCommas := 0 } ∧
      regsSame s t [0x20004] ∧ { t with regs := s.regs, clock := s.clock } = s) ∧
  (∀ (phase : Int) (num : BitVec 12) (s : State), s.fld fState = 8 → 16 ≤ s.clock.goodCommas → s.run.forced = none →
    (25 < phase.natAbs ∨ num.toNat ≠ s.fld fCurrent) → s.run.started = true →
    ∃ t, exec (.holdoverReturn phase num) s = .next t ∧ t.is fRelockFail = true ∧
      t.run = { s.run with forced := some .relockFail, forcedAt := s.clock.xseq } ∧ t.fld fState = 8 ∧ regsSame s t [0x20004] ∧
      { t with regs := s.regs, run := s.run } = s) ∧
  (∀ s : State, s.fld fState = 8 → s.clock.holdStart + 4096 ≤ s.clock.xseq → s.run.forced = none → s.run.started = true →
    ∃ t, exec .holdoverExpired s = .next t ∧ t.is fHoldExpired = true ∧
      t.run = { s.run with forced := some .holdoverExpired, forcedAt := s.clock.xseq } ∧ t.fld fState = 8 ∧ regsSame s t [0x20004] ∧
      { t with regs := s.regs, run := s.run } = s) ∧
  (∀ s : State, s.fld fState = 8 → s.clock.holdStart + 4096 ≤ s.clock.xseq → s.run.forced = none → s.run.started = false →
    ∃ t, exec .holdoverExpired s = .next t ∧ t.is fHoldExpired = true ∧ t.fld fState = bit (t.is (fRxEnable 0 (t.fld fLane))) ∧ t.links = [] ∧
      t.portQ = [] ∧ t.bankQ = [] ∧ t.steerQ = [] ∧ t.contribs = []) ∧
  (∀ s : State, s.run.forced ≠ none → s.run.forcedAt < s.clock.xseq →
    ∃ t, exec .forcedRunStop s = .next t ∧ t.run.started = false ∧ t.run.forced = none ∧ t.is fArmed = false ∧
      t.fld fState = bit (t.is (fRxEnable 0 (t.fld fLane))) ∧
      t.run.count = s.run.count ∧ t.links = [] ∧ t.portQ = [] ∧ t.bankQ = [] ∧ t.steerQ = [] ∧ t.contribs = [] ∧ t.vas = [] ∧
      t.memTiles = s.memTiles ∧ t.image = s.image ∧ t.fuses = s.fuses)

/-- TIM_CTRL (R49, R60, R65): what a write stores, and what it does while no run is armed.
It rests also on the model's choices in notes/assumptions/8.md. -/
def Obligations.TimCtrlWrites : Prop :=
  (∀ (v : Word32) (s : State), s.is fArmed = true →
    ∃ t, exec (.timCtrlWrite v) s = .next t ∧ t.fld fLane = s.fld fLane ∧ t.fld fEnable = s.fld fEnable ∧ t.fld fNDefault = s.fld fNDefault ∧
      t.fld fWeather = max 16 (bits v.toNat 16 8) ∧ t.fld fState = s.fld fState ∧
      ((bits v.toNat 0 6 ≠ s.fld fLane ∨ bits v.toNat 6 1 ≠ s.fld fEnable ∨ bits v.toNat 8 6 ≠ s.fld fNDefault) → t.is fTimIgnored = true) ∧
      regsSame s t [0x20000, 0x20004] ∧ { t with regs := s.regs } = s) ∧
  (∀ (v : Word32) (s : State), s.is fArmed = false → bits v.toNat 6 1 = 0 →
    ∃ t, exec (.timCtrlWrite v) s = .next t ∧ t.fld fLane = bits v.toNat 0 6 ∧ t.is fEnable = false ∧ t.fld fState = 0) ∧
  (∀ (v : Word32) (s : State), s.is fArmed = false → bits v.toNat 6 1 = 1 → (s.fld fState < 4 ∨ s.image ≠ none) →
    ∃ t, exec (.timCtrlWrite v) s = .next t ∧ t.fld fLane = bits v.toNat 0 6 ∧ t.is fEnable = true ∧ t.fld fState = s.fld fState ∧
      t.fld fNDefault = (if 24 ≤ bits v.toNat 8 6 ∧ bits v.toNat 8 6 ≤ 40 then bits v.toNat 8 6 else 30) ∧
      t.fld fWeather = max 16 (bits v.toNat 16 8) ∧ regsSame s t [0x20000] ∧ { t with regs := s.regs } = s) ∧
  (∀ (v : Word32) (s : State), s.is fArmed = false → bits v.toNat 6 1 = 1 → 4 ≤ s.fld fState → s.image = none →
    24 ≤ bits v.toNat 8 6 → bits v.toNat 8 6 ≤ 40 → bits v.toNat 8 6 ≠ s.fld fNDefault →
    ∃ t, exec (.timCtrlWrite v) s = .next t ∧ t.fld fNDefault = bits v.toNat 8 6 ∧ t.fld fState = 4 ∧ t.fld fNActive = bits v.toNat 8 6)

/-! ### Intake, waystation and verdicts -/

/-- Intake frames: INTAKE_FRAME_START holds the frame as arriving with the class that R57 and R58 give it, and what is no start begins none;
INTAKE_FRAME_ARRIVAL makes a clean accepted frame present with its beats, and discards and counts one with a bad CRC or format (11 R281). A frame laid
out as 11 R279 or R280 says is read as the payload and CRC-32 it was made of.
It rests also on the model's choices in notes/assumptions/29.md, notes/assumptions/72.md. -/
def Obligations.IntakeFramesArrive : Prop :=
  (∀ (n : IntakeLane) (head : Line) (number rest : List Line) (num seq bytesM1 : Nat) (s : State) (site lane : Nat), intakeLane s n.val = some (site, lane) →
    laneState s site lane false = 2 → (s.lane site lane false).lost = false → s.runs = true → (s.wayLane n.val).incoming = none →
    startFields (s.is (fRxCoding site lane)) (head :: (number ++ rest)) = some (num, seq, bytesM1) →
    ∃ t i, exec (.intakeFrameStart n head number rest) s = .next t ∧
      t.wayLane n.val = { s.wayLane n.val with incoming := some i } ∧ i.num = num ∧ i.seq = seq ∧ i.bytesM1 = bytesM1 ∧
      (∀ r d : Nat, ∀ b : LaneBind, nextRelease s (s.wayLane n.val).next = some r → bindOf s n.val = some b →
        d = (num + s.fld fTurnLen - s.numOf r % s.fld fTurnLen) % s.fld fTurnLen →
        (d ≤ 7 → (∀ h ∈ (s.wayLane n.val).held, h.xseq ≠ r + d) → ((s.wayLane n.val).held.length + 1) * frameBeatsF s ≤ 64 →
          i.cls = .accept (r + d)) ∧
        (d ≤ 7 → (∀ h ∈ (s.wayLane n.val).held, h.xseq ≠ r + d) → 64 < ((s.wayLane n.val).held.length + 1) * frameBeatsF s →
          i.cls = .overrun ∧ t.is (fWayOverrun n.val) = true) ∧
        (d ≤ 7 → (∃ h ∈ (s.wayLane n.val).held, h.xseq = r + d) → s.run.started = true → i.cls = .misnumbered ∧
          t.fld (fWayMisnum n.val) = min 65535 (s.fld (fWayMisnum n.val) + 1)) ∧
        (d ≤ 7 → (∃ h ∈ (s.wayLane n.val).held, h.xseq = r + d) → s.run.started = false → i.cls = .ignored) ∧
        (8 ≤ d → s.fld fTurnLen ≤ d + 64 → s.run.started = true → i.cls = .late) ∧
        (8 ≤ d → d + 64 < s.fld fTurnLen → s.run.started = true → i.cls = .misnumbered ∧
          t.fld (fWayMisnum n.val) = min 65535 (s.fld (fWayMisnum n.val) + 1)) ∧
        (8 ≤ d → s.run.started = false → i.cls = .ignored)) ∧
      t.fld (fWayLate n.val) = s.fld (fWayLate n.val) ∧ regsSame s t [wayBase n.val + 8, wayBase n.val + 0xC] ∧
      { t with regs := s.regs, way := s.way } = s) ∧
  (∀ (n : IntakeLane) (head : Line) (number rest : List Line) (s : State) (site lane : Nat), intakeLane s n.val = some (site, lane) →
    (s.runs = false ∨ (s.wayLane n.val).incoming = none ∧ startFields (s.is (fRxCoding site lane)) (head :: (number ++ rest)) = none ∧
      beginsFrame head = false → exec (.intakeFrameStart n head number rest) s = .next s) ∧
    (s.runs = true → laneState s site lane false = 2 → (s.lane site lane false).lost = false → (s.wayLane n.val).incoming = none →
      startFields (s.is (fRxCoding site lane)) (head :: (number ++ rest)) = none → beginsFrame head = true →
      ∃ t, exec (.intakeFrameStart n head number rest) s = .next t ∧ t.fld (fFrameErr site lane) = min 255 (s.fld (fFrameErr site lane) + 1) ∧
        regsSame s t [(fFrameErr site lane).addr] ∧ { t with regs := s.regs } = s)) ∧
  (∀ (n : IntakeLane) (data sum : List Line) (close : Line) (payload : List Byte) (crc : Word32) (a : Nat) (s : State) (site lane : Nat) (i : Incoming),
    intakeLane s n.val = some (site, lane) → (s.wayLane n.val).incoming = some i → laneState s site lane false = 2 →
    (s.lane site lane false).lost = false → s.runs = true →
    (∀ x : Nat, i.cls = .accept x → frameOf (s.is (fRxCoding site lane)) i.bytesM1 (data ++ (sum ++ [close])) = some (payload, crc) →
      (frameBeatsF s = 0 ∨ payload.length ≤ 24 * frameBeatsF s) → crc32 payload = crc →
      ∃ t, exec (.intakeFrameArrival n data sum close a) s = .next t ∧ (t.wayLane n.val).incoming = none ∧
        (t.wayLane n.val).held = (s.wayLane n.val).held ++ [⟨x, i.num, frameRow payload (frameBeatsF s) (s.numOf x % 64), a⟩] ∧
        (t.wayLane n.val).lastSeq = some i.seq ∧
        t.fld (fSeqGap site lane) = (match (s.wayLane n.val).lastSeq with
          | some q => if i.seq = (q + 1) % 256 then s.fld (fSeqGap site lane) else min 255 (s.fld (fSeqGap site lane) + 1)
          | none => s.fld (fSeqGap site lane)) ∧
        { t with regs := s.regs, way := s.way } = s) ∧
    (frameOf (s.is (fRxCoding site lane)) i.bytesM1 (data ++ (sum ++ [close])) = some (payload, crc) →
      (frameBeatsF s = 0 ∨ payload.length ≤ 24 * frameBeatsF s) → crc32 payload ≠ crc →
      ∃ t, exec (.intakeFrameArrival n data sum close a) s = .next t ∧ t.wayLane n.val = { s.wayLane n.val with incoming := none } ∧
        t.fld (fCrcErr site lane) = min 65535 (s.fld (fCrcErr site lane) + 1) ∧ t.fld (fFrameErr site lane) = s.fld (fFrameErr site lane) ∧
        { t with regs := s.regs, way := s.way } = s) ∧
    ((frameOf (s.is (fRxCoding site lane)) i.bytesM1 (data ++ (sum ++ [close])) = none ∨
        (frameOf (s.is (fRxCoding site lane)) i.bytesM1 (data ++ (sum ++ [close])) = some (payload, crc) ∧ 0 < frameBeatsF s ∧
          24 * frameBeatsF s < payload.length)) →
      ∃ t, exec (.intakeFrameArrival n data sum close a) s = .next t ∧ t.wayLane n.val = { s.wayLane n.val with incoming := none } ∧
        t.fld (fFrameErr site lane) = min 255 (s.fld (fFrameErr site lane) + 1) ∧ t.fld (fCrcErr site lane) = s.fld (fCrcErr site lane) ∧
        { t with regs := s.regs, way := s.way } = s)) ∧
  (∀ (coding : Bool) (payload : List Byte), 1 ≤ payload.length → payload.length ≤ 192 →
    frameOf coding (payload.length - 1) (intakeLines coding payload) = some (payload, crc32 payload)) ∧
  (∀ num seq bytesM1 : Nat, num < 4096 → seq < 256 → bytesM1 < 256 →
    startFields true [frameStart num seq bytesM1] = some (num, seq, bytesM1))

/-- WAYSTATION_RELEASE and STAGED_WAYSTATION_RELEASE: the next crossing of a lane leaves, and only it (R55, R56, R61); a late one leaves zero
beats with the late mark and is counted. ARRIVAL_MEASUREMENT_END (11 R291): 65,000 frames set TRAINED and the least and greatest arrivals; fewer clear
TRAINED and set ARR_FAIL.
It rests also on the model's choices in notes/assumptions/1.md, notes/assumptions/29.md, notes/assumptions/30.md. -/
def Obligations.WaystationReleasesAndMeasures : Prop :=
  (∀ s : State, s.runs = true → s.lockedImage = true → s.inRun (wayNext s) = true → wayNext s ≤ s.clock.xseq →
    ∃ t, exec .waystationRelease s = .next t ∧
      (∀ b ∈ lanesOf s, (t.wayLane b.lane).next = wayNext s + 1 ∧ ∀ h ∈ (t.wayLane b.lane).held, h.xseq ≠ wayNext s) ∧
      (∀ n : Nat, (∀ b ∈ lanesOf s, b.lane ≠ n) → t.wayLane n = s.wayLane n) ∧
      t.clock.now = max s.clock.now (s.openAt (wayNext s) + releaseOffset s) ∧ t.units = s.units ∧ t.memTiles = s.memTiles) ∧
  (∀ (b : LaneBind) (k : ClusterIx) (q : Fin 16) (s : State), s.runs = true → s.lockedImage = true → s.inRun (wayNext s) = true →
    wayNext s ≤ s.clock.xseq → lanesOf s = [b] → b.lane < 384 → b.cluster = k.val → b.queue = q.val →
    (∀ h ∈ (s.wayLane b.lane).held, h.xseq = wayNext s → releaseOffset s < h.arrival) → qHold s (.bank k q) = false →
    ∃ t, exec .waystationRelease s = .next t ∧ t.fld (fWayLate b.lane) = min 65535 (s.fld (fWayLate b.lane) + 1) ∧
      t.fld (fWayLast b.lane) = 0 ∧ t.fld (fWayLow b.lane) = 0 ∧
      (t.cluster k.val).arrivals = (s.cluster k.val).arrivals ++ (List.range (frameBeatsF s)).map (fun j =>
        ⟨.bank k q, s.openAt (wayNext s) + releaseOffset s + j, 5,
          ⟨0, 0, BitVec.ofNat 6 (s.numOf (wayNext s) % 64), false, true, decide (j = 0), decide (j + 1 = frameBeatsF s)⟩⟩)) ∧
  (∀ (n : IntakeLane) (p : Nat × Nat) (b : LaneBind) (k : ClusterIx) (q : Fin 16) (h : HeldFrame) (s : State), intakeLane s n.val = some p →
    bindOf s n.val = some b → b.cluster = k.val → b.queue = q.val →
    (s.wayLane n.val).held.find? (fun g => decide (g.xseq = (s.wayLane n.val).next)) = some h → s.runs = true → s.stagedImage = true →
    s.inRun (s.wayLane n.val).next = true → qHold s (.bank k q) = false → noWaiter s (.bank k q) →
    ∃ t, exec (.stagedWaystationRelease n) s = .next t ∧ (t.wayLane n.val).next = (s.wayLane n.val).next + 1 ∧
      (∀ g ∈ (t.wayLane n.val).held, g.xseq ≠ (s.wayLane n.val).next) ∧
      (t.cluster k.val).arrivals = (s.cluster k.val).arrivals ++
        ((List.range h.beats.length).zip h.beats).map (fun p => ⟨.bank k q, s.clock.now + p.1, 5, p.2⟩) ∧
      t.fld (fWayLast n.val) = (releaseOffset s - h.arrival) % 2 ^ 13 ∧ regsSame s t [wayBase n.val + 4] ∧ (∀ p : QueueId, t.queue p = s.queue p) ∧
      { t with regs := s.regs, way := s.way, clusters := s.clusters, bankQ := s.bankQ } = s) ∧
  (∀ (n : IntakeLane) (site lane : Nat) (s : State), intakeLane s n.val = some (site, lane) → (s.wayLane n.val).measuring = true →
    s.fld fState = 7 → s.is fArmed = false →
    (65000 ≤ (s.wayLane n.val).measured →
      ∃ t, exec (.arrivalMeasurementEnd n) s = .next t ∧ t.is (fWayTrained n.val) = true ∧
        t.fld (fWayAMax n.val) = (s.wayLane n.val).aMax % 2 ^ 13 ∧ t.fld (fWayAMin n.val) = (s.wayLane n.val).aMin % 2 ^ 13 ∧
        t.wayLane n.val = { s.wayLane n.val with measuring := false } ∧ regsSame s t [wayBase n.val, wayBase n.val + 0xC] ∧
        { t with regs := s.regs, way := s.way } = s) ∧
    ((s.wayLane n.val).measured < 65000 →
      ∃ t, exec (.arrivalMeasurementEnd n) s = .next t ∧ t.is (fWayTrained n.val) = false ∧ t.is (fArrFail site lane) = true ∧
        t.wayLane n.val = { s.wayLane n.val with measuring := false } ∧ { t with regs := s.regs, way := s.way } = s))

/-- CONTRIBUTION_ARRIVAL: the next contribution of an assembler enters the record of its tag, and a CID that is there already counts in DUP.
RECORD_CLOSE: the record of the next crossing closes and is cleared; a locked record with an expected CID missing is bad, all its bits marked, and
counted (R159, R160).
It rests also on the model's choices in notes/assumptions/1.md, notes/assumptions/62.md. -/
def Obligations.RecordsGatherAndClose : Prop :=
  (∀ (v : VaIx) (c : Contribution) (s : State), s.contribs.filter (fun d => decide (d.va = v.val)) = [c] → s.is (fVaEnable v.val) = true →
    ∃ t r, exec (.contributionArrival v) s = .next t ∧ t.contribs = s.contribs.erase c ∧ r = mget {} (t.va v.val).records c.tag.toNat ∧
      r.bits = (mget {} (s.va v.val).records c.tag.toNat).bits ||| c.bits ∧ r.cids.getLsbD c.cid = decide (c.cid < 64) ∧
      r.dup = ((mget {} (s.va v.val).records c.tag.toNat).dup || (mget {} (s.va v.val).records c.tag.toNat).cids.getLsbD c.cid) ∧
      (∀ tag : Nat, tag ≠ c.tag.toNat → mget {} (t.va v.val).records tag = mget {} (s.va v.val).records tag) ∧
      t.fld (fVaDup v.val) = (if (mget {} (s.va v.val).records c.tag.toNat).cids.getLsbD c.cid = true
        then min 65535 (s.fld (fVaDup v.val) + 1) else s.fld (fVaDup v.val)) ∧
      t.clock.now = max s.clock.now c.due ∧ regsSame s t [vaBase v.val + 0x18] ∧
      { t with regs := s.regs, contribs := s.contribs, vas := s.vas, clock := s.clock } = s) ∧
  (∀ (v : VaIx) (r : VaRecord) (s : State), s.runs = true → s.is (fVaEnable v.val) = true → s.inRun (s.va v.val).nextClose = true →
    (∀ c ∈ s.contribs, c.va ≠ v.val) → r = mget {} (s.va v.val).records (s.numOf (s.va v.val).nextClose % 64) →
    (s.lockedImage = true ∨ (s.stagedImage = true ∧ (s.va v.val).closed = [] ∧ expected s v.val &&& ~~~r.cids = 0)) →
    ∃ t k, exec (.recordClose v) s = .next t ∧ (t.va v.val).closed = (s.va v.val).closed ++ [k] ∧
      (t.va v.val).nextClose = (s.va v.val).nextClose + 1 ∧
      mget {} (t.va v.val).records (s.numOf (s.va v.val).nextClose % 64) = {} ∧
      k.xseq = (s.va v.val).nextClose ∧ k.num = s.numOf (s.va v.val).nextClose ∧ k.rawBits = r.bits ∧ k.ml = r.lateMask ∧
      k.mb = (if r.dup = true ∨ expected s v.val &&& ~~~r.cids ≠ 0 then BitVec.allOnes 32 else r.badMask) ∧ k.features = r.features ∧
      t.fld (fVaMissing v.val) = (if expected s v.val &&& ~~~r.cids ≠ 0 then min 65535 (s.fld (fVaMissing v.val) + 1)
        else s.fld (fVaMissing v.val)) ∧
      regsSame s t [vaBase v.val + 0x18] ∧ { t with regs := s.regs, vas := s.vas, clock := s.clock } = s)

/-- VERDICT_LAUNCH: the oldest closed record leaves as the verdict word that PKG_VA_LAST shows, laid out by R161 after the policy of R160; each of
its groups carries it as the frame of 11 R285, block j on lane j mod g in slot j div g (11 R286).
It rests also on the model's choices in notes/assumptions/62.md, notes/assumptions/72.md. -/
def Obligations.VerdictLeavesInItsLayout : Prop :=
  (∀ (v : VaIx) (c : Verdict) (r : List Verdict) (s : State), (s.va v.val).closed = c :: r →
    (s.stagedImage = true ∨ (s.runs = true ∧ c.xseq + latencyL s ≤ s.clock.xseq)) →
    ∃ t w, exec (.verdictLaunch v) s = .next t ∧ (t.va v.val).closed = r ∧
      t.out = .verdict v w c.features ((verdictGroups s v.val).map (groupSlots s (verdictFrame v.val w c.features))) :: s.out ∧
      w = formVerdict s v.val c ∧ t.fld (fVaLastLo v.val) = bits w.toNat 0 32 ∧
      mget 0 t.latchHi (vaBase v.val + 0x1C) = BitVec.ofNat 32 (bits w.toNat 32 32) ∧
      (∀ u : Nat, u ≠ v.val → t.va u = s.va u) ∧ t.units = s.units ∧ t.clusters = s.clusters ∧ t.run = s.run) ∧
  (∀ (va : Nat) (w : Word64) (features : List (Nat × Beat)), va < 4 → features.length < 8 →
    (verdictFrame va w features).length = 2 + 4 * features.length ∧ (verdictFrame va w features)[0]? = some (.block false w) ∧
    (∀ (i j : Nat) (p : Nat × Beat), features[i]? = some p → p.1 < 64 → j < 4 →
      (verdictFrame va w features)[1 + 4 * i + j]? = some (.block false (BitVec.ofNat 64 (bits (beatBits p.2 + 2 ^ 208 * p.1) (64 * j) 64)))) ∧
    ∃ b, (verdictFrame va w features).getLast? = some (.block true b) ∧ bits b.toNat 0 8 = 0xE1 ∧ bits b.toNat 8 2 = va ∧
      bits b.toNat 10 3 = features.length ∧ bits b.toNat 16 32 = (blocksCrc (w :: features.flatMap featureWords)).toNat) ∧
  (∀ (g : Nat) (frame : List Line) (i : Nat) (slot : List Line), 0 < g → (slotsOf g frame)[i]? = some slot → slot.length = g ∧
    (∀ j : Nat, j < g → slot[j]? = some ((frame[g * i + j]?).getD idleBlock))) ∧
  (∀ (v : VaIx) (c : Verdict) (w : Word64) (marked : Word32) (s : State), w = formVerdict s v.val c →
    marked = (if s.thermal.fallback = true then BitVec.allOnes 32 else c.mb ||| c.ml) →
    (∀ i : Nat, i < 32 → w.getLsbD i =
      (if marked.getLsbD i = true then
        (match policyOf (s.fld (fVaPolicyLo v.val)) (s.fld (fVaPolicyHi v.val)) i with
          | 1 => true
          | 2 => false
          | _ => c.rawBits.getLsbD i)
        else c.rawBits.getLsbD i)) ∧
    bits w.toNat 32 12 = c.num % 4096 ∧ (w.getLsbD 44 = decide (∃ i : Nat, i < 32 ∧ w.getLsbD i = true ∧ bits (s.fld (fVaAccept v.val)) i 1 = 1)) ∧
    (w.getLsbD 45 = decide (c.mb ≠ 0)) ∧ (w.getLsbD 46 = decide (c.ml ≠ 0)) ∧ (w.getLsbD 47 = isDegraded s) ∧
    (w.getLsbD 48 = decide (∃ i : Nat, i < 32 ∧ marked.getLsbD i = true ∧
      (policyOf (s.fld (fVaPolicyLo v.val)) (s.fld (fVaPolicyHi v.val)) i = 1 ∨
        policyOf (s.fld (fVaPolicyLo v.val)) (s.fld (fVaPolicyHi v.val)) i = 2))) ∧
    bits w.toNat 49 4 = c.menu % 16 ∧ bits w.toNat 53 11 = 0)

/-! ### Optical lanes -/

/-- A DARK enabled lane with signal trains, or keeps DARK and sets CFG_ERR where its setting breaks R274; both sides of a pair train together, and only
where both are enabled; training ends UP, or FAILED after the third attempt (R290).
It rests also on the model's choices in notes/assumptions/43.md, notes/assumptions/72.md. -/
def Obligations.LanesTrain : Prop :=
  (∀ (l : LaneId) (s : State), laneExists s l = true → laneState s l.site.val l.lane.val l.tx = 0 → laneEnabled s l.site.val l.lane.val l.tx = true →
    isTiming s l.site.val l.lane.val l.tx = false → isPair s l.site.val l.lane.val = false → (s.lane l.site.val l.lane.val l.tx).dropped = false →
    (s.tile l.site.val = 0 ∨ l.tx = true) → (isLit s l.site.val l.lane.val = true ∨ (l.tx = false ∧ s.tile l.site.val = 0)) → settingOk s l.site.val l.lane.val l.tx = true →
    ∃ t, exec (.laneSignalPresent l) s = .next t ∧ t.fld (fLaneState l.site.val l.lane.val l.tx) = 1 ∧
      (t.lane l.site.val l.lane.val l.tx).attempts = 0 ∧ { t with regs := s.regs, lanes := s.lanes } = s) ∧
  (∀ (l : LaneId) (s : State), laneExists s l = true → laneState s l.site.val l.lane.val l.tx = 0 → laneEnabled s l.site.val l.lane.val l.tx = true →
    isTiming s l.site.val l.lane.val l.tx = false → isPair s l.site.val l.lane.val = false → (s.lane l.site.val l.lane.val l.tx).dropped = false →
    (s.tile l.site.val = 0 ∨ l.tx = true) → (isLit s l.site.val l.lane.val = true ∨ (l.tx = false ∧ s.tile l.site.val = 0)) → settingOk s l.site.val l.lane.val l.tx = false →
    ∃ t, exec (.laneSignalPresent l) s = .next t ∧ t.fld (fLaneState l.site.val l.lane.val l.tx) = 0 ∧
      t.is (laneCfgErr l.site.val l.lane.val l.tx) = true ∧ { t with regs := s.regs } = s) ∧
  (∀ (l : LaneId) (s : State), laneExists s l = true → isTiming s l.site.val l.lane.val l.tx = false →
    (laneState s l.site.val l.lane.val l.tx = 1 ∨ laneState s l.site.val l.lane.val l.tx = 3) → isPair s l.site.val l.lane.val = false →
    ∃ t, exec (.laneUp l) s = .next t ∧ t.fld (fLaneState l.site.val l.lane.val l.tx) = 2 ∧
      (s.tile l.site.val = 0 → l.tx = false →
        (t.wayLane (intakeNumber s l.site.val l.lane.val)).measuring = true ∧ (t.wayLane (intakeNumber s l.site.val l.lane.val)).measured = 0) ∧
      { t with regs := s.regs, way := s.way } = s) ∧
  (∀ (l : LaneId) (s : State), laneExists s l = true → isTiming s l.site.val l.lane.val false = false → isPair s l.site.val l.lane.val = true →
    laneState s l.site.val l.lane.val false = 0 → (s.lane l.site.val l.lane.val false).dropped = false → isLit s l.site.val l.lane.val = true →
    (s.is (fRxEnable l.site.val l.lane.val) = true → s.is (fTxEnable l.site.val l.lane.val) = true →
      ∃ t, exec (.laneSignalPresent l) s = .next t ∧ t.fld (fLaneState l.site.val l.lane.val false) = 1 ∧
        t.fld (fLaneState l.site.val l.lane.val true) = 1 ∧ { t with regs := s.regs, lanes := s.lanes } = s) ∧
    ((s.is (fRxEnable l.site.val l.lane.val) = false ∨ s.is (fTxEnable l.site.val l.lane.val) = false) →
      exec (.laneSignalPresent l) s = .next s)) ∧
  (∀ (l : LaneId) (lead : Nat) (s : State), laneExists s l = true → isTiming s l.site.val l.lane.val false = false →
    (laneState s l.site.val l.lane.val false = 1 ∨ laneState s l.site.val l.lane.val false = 3) → isPair s l.site.val l.lane.val = true →
    lead = leadOf s l.site.val l.lane.val → hasFailed s l.site.val lead = false → s.is (fGrpUp l.site.val lead) = true →
    (s.retry l.site.val lead).waiting = [] →
    ∃ t, exec (.laneUp l) s = .next t ∧ t.fld (fLaneState l.site.val l.lane.val false) = 2 ∧ t.fld (fLaneState l.site.val l.lane.val true) = 2 ∧
      t.fld (fGrpWidth l.site.val lead) =
        widthCode ((groupLanes s l.site.val lead).filter (fun j => decide (laneState t l.site.val j false = 2))).length ∧
      { t with regs := s.regs } = s) ∧
  (∀ (l : LaneId) (tx : Bool) (s : State), laneExists s l = true → tx = sideOf s l.site.val l.lane.val l.tx →
    isTiming s l.site.val l.lane.val tx = false → (laneState s l.site.val l.lane.val tx = 1 ∨ laneState s l.site.val l.lane.val tx = 3) →
    (s.lane l.site.val l.lane.val tx).attempts < 2 →
    ∃ t, exec (.trainingAttemptFailed l) s = .next t ∧
      (t.lane l.site.val l.lane.val tx).attempts = (s.lane l.site.val l.lane.val tx).attempts + 1 ∧ { t with lanes := s.lanes } = s) ∧
  (∀ (l : LaneId) (s : State), laneExists s l = true → isTiming s l.site.val l.lane.val l.tx = false →
    (laneState s l.site.val l.lane.val l.tx = 1 ∨ laneState s l.site.val l.lane.val l.tx = 3) → 2 ≤ (s.lane l.site.val l.lane.val l.tx).attempts →
    isPair s l.site.val l.lane.val = false →
    ∃ t, exec (.trainingAttemptFailed l) s = .next t ∧ t.fld (fLaneState l.site.val l.lane.val l.tx) = 4 ∧
      { t with regs := s.regs, lanes := s.lanes } = s)

/-- Margins, loss of lock, and requests to train (R293, R294): a loose lane retrains, a locked one does not.
It rests also on the model's choices in notes/assumptions/43.md. -/
def Obligations.LanesRespondToEvents : Prop :=
  (∀ (l : LaneId) (h v : BitVec 6) (s : State), laneExists s l = true → l.tx = false → laneState s l.site.val l.lane.val false = 2 →
    ∃ t, exec (.marginMeasurement l h v) s = .next t ∧ t.fld (fMarginH l.site.val l.lane.val) = h.toNat ∧
      t.fld (fMarginV l.site.val l.lane.val) = v.toNat ∧
      t.fld (fHLow l.site.val l.lane.val) = min h.toNat (s.fld (fHLow l.site.val l.lane.val)) ∧
      t.fld (fVLow l.site.val l.lane.val) = min v.toNat (s.fld (fVLow l.site.val l.lane.val)) ∧
      (s.fld (fRetrainH l.site.val) ≤ h.toNat → s.fld (fRetrainV l.site.val) ≤ v.toNat → (t.lane l.site.val l.lane.val false).low = 0) ∧
      ((h.toNat < s.fld (fRetrainH l.site.val) ∨ v.toNat < s.fld (fRetrainV l.site.val)) → 2 ≤ (s.lane l.site.val l.lane.val false).low →
        t.is (fLowMargin l.site.val l.lane.val) = true)) ∧
  (∀ (l : LaneId) (s : State), laneExists s l = true → l.tx = false → laneState s l.site.val l.lane.val false = 2 →
    isTiming s l.site.val l.lane.val false = false → laneLocked s l.site.val l.lane.val false = false →
    ∃ t, exec (.lossOfLock l) s = .next t ∧ t.is (fLos l.site.val l.lane.val) = true ∧ t.fld (fLaneState l.site.val l.lane.val false) = 3) ∧
  (∀ (l : LaneId) (s : State), laneExists s l = true → l.tx = false → laneState s l.site.val l.lane.val false = 2 →
    laneLocked s l.site.val l.lane.val false = true →
    ∃ t, exec (.lossOfLock l) s = .next t ∧ t.is (fLos l.site.val l.lane.val) = true ∧ (t.lane l.site.val l.lane.val false).lost = true ∧
      t.fld (fLaneState l.site.val l.lane.val false) = s.fld (fLaneState l.site.val l.lane.val false)) ∧
  (∀ (l : LaneId) (s : State), laneExists s l = true →
    ∃ t, exec (.lockRecovered l) s = .next t ∧
      t.lane l.site.val l.lane.val l.tx = { s.lane l.site.val l.lane.val l.tx with lost := false } ∧ { t with lanes := s.lanes } = s) ∧
  (∀ (l : LaneId) (tx : Bool) (s : State), laneExists s l = true → laneLocked s l.site.val l.lane.val l.tx = false →
    tx = sideOf s l.site.val l.lane.val l.tx → isTiming s l.site.val l.lane.val tx = false → laneState s l.site.val l.lane.val tx = 2 →
    ∃ t, exec (.train l) s = .next t ∧ t.fld (fLaneState l.site.val l.lane.val l.tx) = 3) ∧
  (∀ (l : LaneId) (s : State), laneExists s l = true → laneLocked s l.site.val l.lane.val l.tx = true →
    ∃ t, exec (.train l) s = .next t ∧ t.is (laneIgnored l.site.val l.lane.val l.tx) = true ∧
      t.fld (fLaneState l.site.val l.lane.val l.tx) = s.fld (fLaneState l.site.val l.lane.val l.tx) ∧ { t with regs := s.regs } = s)

/-- LNK_BOND, laser power and beat frames (R276, R283, R289, R292); a row that leaves in parts makes the blocks of the one frame that 11 R289 lays
out.
It rests also on the model's choices in notes/assumptions/28.md. -/
def Obligations.BondLaserAndBeatFrames : Prop :=
  (∀ (site : SiteIx) (v : Word32) (s : State), s.tile site.val ≠ 2 → (∀ p ∈ tileLanes s site.val, laneLocked s site.val p.1 p.2 = false) →
    ∃ t, exec (.lnkBondWrite site v) s = .next t ∧ (∀ o : Nat, o < txLanes s site.val / 8 → t.fld (fBondWidth site.val o) = bits v.toNat (2 * o) 2)) ∧
  (∀ (site : SiteIx) (v : Word32) (p : Nat × Bool) (s : State), s.tile site.val ≠ 2 → p ∈ tileLanes s site.val →
    laneLocked s site.val p.1 p.2 = true →
    ∃ t, exec (.lnkBondWrite site v) s = .next t ∧ t.raw (siteBase site.val + 0xE0C) = s.raw (siteBase site.val + 0xE0C) ∧
      t.is (laneIgnored site.val p.1 p.2) = true ∧ { t with regs := s.regs } = s) ∧
  (∀ (site : SiteIx) (fibre2 : Bool) (power : BitVec 9) (s : State), s.tile site.val = 1 →
    ∃ t, exec (.laserPowerChange site fibre2 (some power)) s = .next t ∧ t.fld ⟨siteBase site.val + 0xE08, 16 * bit fibre2, 9⟩ = power.toNat ∧
      (power.toNat < 160 → t.is ⟨siteBase site.val + 0xE08, 25 + bit fibre2, 1⟩ = true) ∧
      (200 < power.toNat → t.is ⟨siteBase site.val + 0xE08, 27 + bit fibre2, 1⟩ = true) ∧
      (∀ j : Nat, j < 16 → t.is (fTxNoLight site.val (16 * bit fibre2 + j)) = false)) ∧
  (∀ (site : SiteIx) (fibre2 : Bool) (s : State), s.tile site.val = 1 →
    ∃ t, exec (.laserPowerChange site fibre2 none) s = .next t ∧
      (∀ j : Nat, j < 16 → t.is (fTxNoLight site.val (16 * bit fibre2 + j)) = true ∧ t.fld (fTxState site.val (16 * bit fibre2 + j)) = 0)) ∧
  (∀ (site : SiteIx) (lane : Fin 32) (b : Beat) (r : List Beat) (s : State), lane.val < txLanes s site.val → funcOf s site.val lane.val = 2 →
    laneState s site.val lane.val true = 2 → (s.lane site.val lane.val true).egress = b :: r → b.last = true →
    s.is (fTxLoop site.val lane.val) = false → fedUnready s 128 (edgeUnit site.val (s.fld (fTxLink site.val lane.val))) (site.val / 4) = false →
    ∃ t x, exec (.beatFrameSend site lane) s = .next t ∧
      x = codeBlocks (if (s.lane site.val lane.val true).inRow = none then Config.freeValue 58 s.freeNext else (s.lane site.val lane.val true).scrambler)
        (beatLines (s.lane site.val lane.val true).inRow [b] true) ∧ (t.lane site.val lane.val true).scrambler = x.1 ∧
      t.out = .coded site.val lane.val x.2 :: .beats site.val lane.val (beatLines (s.lane site.val lane.val true).inRow [b] true) :: s.out ∧
      (t.lane site.val lane.val true).egress = r ∧ (t.lane site.val lane.val true).inRow = none ∧ t.fld (fTxFrames site.val lane.val) = min (2 ^ 32 - 1) (s.fld (fTxFrames site.val lane.val) + 1) ∧
      { t with regs := s.regs, lanes := s.lanes, out := s.out, freeNext := s.freeNext } = s) ∧
  (∀ (r : BitVec 58) (w : Word64) (i : Nat), i < 64 → (scramble r w).2.getLsbD i =
    (w.getLsbD i ^^ (if 39 ≤ i then (scramble r w).2.getLsbD (i - 39) else r.getLsbD (38 - i)) ^^
      (if 58 ≤ i then (scramble r w).2.getLsbD (i - 58) else r.getLsbD (57 - i)))) ∧
  (∀ sent row : List Beat, beatLines none sent false ++ beatLines (some sent) row true = beatLines none (sent ++ row) true ∧
    (beatLines none row true).length = 2 + 4 * row.length ∧ (beatLines none row true)[0]? = some (.block true 0x2D) ∧
    (∀ (i j : Nat) (b : Beat), row[i]? = some b → j < 4 →
      (beatLines none row true)[1 + 4 * i + j]? = some (.block false (BitVec.ofNat 64 (bits (beatBits b) (64 * j) 64)))) ∧
    ∃ e, (beatLines none row true).getLast? = some (.block true e) ∧ bits e.toNat 0 8 = 0xE1 ∧ bits e.toNat 8 8 = 0)

/-! ### Dot units -/

/-- MAC and MACZ (R118 to R120): the products of the head beat with the weight row named, less their zero points, are on their way to the group
bank, which changes at cycle t + 2 and not before; the pop and the forward as the word says. Row o of the sums is that of the products of the operands
level − z of output row o with the beat's mantissas, under each format (03 R66, R69, R70, R88 to R90), and a group row adds it modulo 2^28, with the
exponent of the first beat (03 R73, R74).
It rests also on the model's choices in notes/assumptions/1.md. -/
def Obligations.MacAddsProducts : Prop :=
  (∀ (c : Instr) (op : Nat) (clear : Bool) (u : UnitIx) (w : Word64) (t zp wue zue : Nat) (outs : List Nat) (b : Beat) (r : List Beat) (q : QueueId)
    (sums : List Int) (s : State),
    (c, op, clear) ∈ [(Instr.mac u, 1, false), (.macz u, 2, true)] → issuesNext s (.dot u) op w t → q = .port u (portOf (wf w 56 2)) →
    headIs s q b r t → (s.unit u.val).flight = [] → (s.unit u.val).outLink = [] → outs = (if wf w 36 1 = 1 then [wf w 34 2] else []) →
    stagedLacking s u.val outs = [] → (∀ o ∈ outs, capturer s u.val o = none ∧ (neighbour u.val o).isSome = true) →
    zp = (wf w 46 6 + 32 * stagedHalf s) % 64 →
    sums = macSums (s.unit u.val).weight (s.unit u.val).zp (s.fld (fFormat u.val)) (codebook s u.val) (effectiveRow s u.val (wf w 37 9)) zp
      (wf w 54 1) b →
    wue = (s.unit u.val).weight.broken (32 * effectiveRow s u.val (wf w 37 9)) 32 → zue = (s.unit u.val).zp.broken (4 * zp) 4 →
    ∃ t', exec c s = .next t' ∧ t'.play (.dot u) = ⟨(s.play (.dot u)).pc + 1, t + 1, .none⟩ ∧
      (t'.queue q).beats = (if wf w 55 1 = 1 then r else b :: r) ∧
      (∀ bound : Nat, t + 2 ≤ bound → ((settleUnit t' u.val bound).unit u.val).gb = modAt (s.unit u.val).gb (wf w 52 2)
        (fun x => addMac x clear sums b.exp b.tag (b.bad || decide (0 < wue + zue)) b.late)) ∧
      (∀ bound : Nat, bound < t + 2 → ((settleUnit t' u.val bound).unit u.val).gb = (s.unit u.val).gb) ∧
      (∀ bound : Nat, ((settleUnit t' u.val bound).unit u.val).mb = (s.unit u.val).mb) ∧
      t'.links = outs.map (fun o => ⟨(neighbour u.val o).getD 0, (o + 2) % 4, t + linkCycles u.val ((neighbour u.val o).getD 0),
        badIf b (s.is (fFenced u.val)), epochOf s u.val, false⟩) ∧
      t'.fld (fWeightUe u.val) = min 255 (s.fld (fWeightUe u.val) + wue) ∧ t'.fld (fScaleUe u.val) = min 255 (s.fld (fScaleUe u.val) + zue) ∧
      (∀ q' : QueueId, q' ≠ q → (t'.queue q').beats = (s.queue q').beats) ∧ (∀ v : Nat, v ≠ u.val → t'.unit v = s.unit v) ∧
      regsSame s t' [unitBase u.val + 0x5C] ∧
      { t' with regs := s.regs, units := s.units, portQ := s.portQ, bankQ := s.bankQ, links := s.links, clock := s.clock } = s) ∧
  (∀ (m z : Store) (cb : List Int) (row zp half o : Nat) (b : Beat), o < 32 → half < 2 →
    (macSums m z 0 cb row zp half b).getD o 0 =
      ((List.range 16).map (fun i => (cb.getD (bits (m.word (32 * row + o)).toNat (4 * i) 4) 0 - zeroPoint z zp o) * mantissa b i)).sum ∧
    (macSums m z 1 cb row zp half b).getD o 0 =
      ((List.range 16).map (fun i => (16 * (bits (m.word (32 * row + o)).toNat (4 * i) 4 : Int) - 120 - zeroPoint z zp o) * mantissa b i)).sum ∧
    (macSums m z 2 cb row zp half b).getD o 0 =
      ((List.range 8).map (fun i => (sext 8 (bits (m.word (32 * row + o)).toNat (8 * i) 8) - zeroPoint z zp o) * mantissa b (8 * half + i))).sum) ∧
  (∀ (g : Bank 28) (clear bad late : Bool) (sums : List Int) (e tag : BitVec 6) (o : Nat), g.rows.length = 32 → sums.length = 32 → o < 32 →
    (addMac g clear sums e tag bad late).rows.getD o 0 = (if clear = true then 0 else g.rows.getD o 0) + BitVec.ofInt 28 (sums.getD o 0) ∧
    (addMac g clear sums e tag bad late).exp = some (if clear = true then e else g.exp.getD e) ∧
    (addMac g clear sums e tag bad late).tag = (if clear = true ∨ g.exp = none then tag else g.tag) ∧
    (addMac g clear sums e tag bad late).bad = (bad || (!clear && g.bad)) ∧ (addMac g clear sums e tag bad late).late = (late || (!clear && g.late)))

/-- GRP and CLR (R122 to R124): GRP adds the group bank, times the scale set, to the main bank at cycle t + 3, and changes nothing when the group
bank's exponent is unset or no scale is enabled; CLR clears the main banks of its mask at t. A row of the sum is the old row and the group's row,
times s_m and scaled by s_e − 31 + q + e_g − e_b, limited to 48 bits; a disabled group's row stays (03 R74, R76).
It rests also on the model's choices in notes/assumptions/1.md. -/
def Obligations.GroupAndClearWrite : Prop :=
  (∀ (u : UnitIx) (w : Word64) (t sx ue : Nat) (b : Bank 28) (scales : List (Nat × Nat)) (s : State), issuesNext s (.dot u) 3 w t →
    (s.unit u.val).flight = [] → sx = (wf w 45 7 + 64 * stagedHalf s) % 128 → scales = (List.range 32).map (scaleWord (s.unit u.val).scale sx) →
    b = (s.unit u.val).gb.getD (wf w 56 2) {} → ue = (s.unit u.val).scale.broken (8 * sx) 8 → (s.unit u.val).mb.length = 16 →
    ∃ t', exec (.grp u) s = .next t' ∧ t'.play (.dot u) = ⟨(s.play (.dot u)).pc + 1, t + 1, .none⟩ ∧
      (∀ bound : Nat, t + 3 ≤ bound → grpActs b scales = true → ((settleUnit t' u.val bound).unit u.val).mb =
        modAt (s.unit u.val).mb (wf w 52 4) (fun m => (addGroup m b scales (decide (0 < ue)) (s.fld (fBankQ u.val (wf w 52 4)))).1)) ∧
      (∀ bound : Nat, bound < t + 3 ∨ grpActs b scales = false → ((settleUnit t' u.val bound).unit u.val).mb = (s.unit u.val).mb) ∧
      (∀ bound : Nat, ((settleUnit t' u.val bound).unit u.val).gb = (s.unit u.val).gb) ∧
      t'.fld (fScaleUe u.val) = min 255 (s.fld (fScaleUe u.val) + ue) ∧
      t'.fld (fResGroup u.val) = (if grpActs b scales = true ∧ groupMismatch b scales = true then min 65535 (s.fld (fResGroup u.val) + 1)
        else s.fld (fResGroup u.val)) ∧
      (∀ v : Nat, v ≠ u.val → t'.unit v = s.unit v) ∧ regsSame s t' [unitBase u.val + 0x58, unitBase u.val + 0x5C] ∧
      { t' with regs := s.regs, units := s.units, clock := s.clock } = s) ∧
  (∀ (u : UnitIx) (w : Word64) (t : Nat) (s : State), issuesNext s (.dot u) 4 w t → (s.unit u.val).flight = [] → (s.unit u.val).mb.length = 16 →
    ∃ t', exec (.clr u) s = .next t' ∧ t'.play (.dot u) = ⟨(s.play (.dot u)).pc + 1, t + 1, .none⟩ ∧
      (∀ bound i : Nat, t ≤ bound → i < 16 → ((settleUnit t' u.val bound).unit u.val).mb.getD i {} =
        (if bits w.toNat (42 + i) 1 = 1 then {} else (s.unit u.val).mb.getD i {})) ∧
      (∀ bound : Nat, ((settleUnit t' u.val bound).unit u.val).gb = (s.unit u.val).gb) ∧ (∀ v : Nat, v ≠ u.val → t'.unit v = s.unit v) ∧
      { t' with units := s.units, clock := s.clock } = s) ∧
  (∀ (m : Bank 48) (g : Bank 28) (scales : List (Nat × Nat)) (bad : Bool) (q o : Nat) (eg eb : BitVec 6) (a : Int), o < 32 → g.exp = some eg →
    eb = m.exp.getD eg → a = (m.rows.getD o 0).toInt +
      scaleBy ((g.rows.getD o 0).toInt * (scales.getD o (0, 0)).1) (((scales.getD o (0, 0)).2 : Int) - 31 + q + eg.toNat - eb.toNat) →
    (addGroup m g scales bad q).1.exp = some eb ∧
    ((scales.getD o (0, 0)).1 = 0 → (addGroup m g scales bad q).1.rows.getD o 0 = m.rows.getD o 0) ∧
    ((scales.getD o (0, 0)).1 ≠ 0 → ((addGroup m g scales bad q).1.rows.getD o 0).toInt = max (-(2 ^ 47)) (min (2 ^ 47 - 1) a)) ∧
    (addGroup m g scales bad q).1.late = (m.late || g.late) ∧ (addGroup m g scales bad q).1.tag = (if m.exp = none then g.tag else m.tag))

/-- EMIT puts the main bank's row on the bus for cycle t + 2, at once or when the bus cycle is free; ADDIN takes the row of its cycle and adds it at
t + 1, or, with none, counts in locked mode and waits in staged mode (R125 to R129). The sum is the old row and the incoming one, scaled by
e_in − e_b and limited to 48 bits; a row without an exponent gives only its marks (03 R75, R76).
It rests also on the model's choices in notes/assumptions/1.md, notes/assumptions/23.md. -/
def Obligations.EmitAndAddinUseBus : Prop :=
  (∀ (u : UnitIx) (w : Word64) (t : Nat) (m : Bank 48) (s : State), issuesNext s (.dot u) 5 w t → funsIdle s (u.val / 8) →
    (s.cluster (u.val / 8)).bus = [] → (s.unit u.val).flight = [] → m = (s.unit u.val).mb.getD (wf w 52 4) {} →
    (∀ f : Nat, f < 2 → wf w 48 4 = 8 + f → (s.fun_ (2 * (u.val / 8) + f)).buf.length < 4) →
    (s.stagedImage = true → claimedBelow s u.val t = false) →
    ∃ t', exec (.emit u) s = .next t' ∧ t'.play (.dot u) = ⟨(s.play (.dot u)).pc + 1, t + 1, .none⟩ ∧
      (t'.cluster (u.val / 8)).bus = [⟨m.rows, m.exp.getD 0, m.exp.isSome, m.bad || emitMismatch m || s.is (fFenced u.val), m.late, m.tag, u.val % 8,
        wf w 48 4, u.val % 8, t + 2, false, (s.play (.dot u)).pc⟩] ∧
      t'.fld (fResEmit u.val) = (if emitMismatch m = true then min 65535 (s.fld (fResEmit u.val) + 1) else s.fld (fResEmit u.val)) ∧
      (∀ v : Nat, (t'.unit v).mb = (s.unit v).mb ∧ (t'.unit v).gb = (s.unit v).gb) ∧ regsSame s t' [unitBase u.val + 0x58] ∧
      { t' with regs := s.regs, units := s.units, clusters := s.clusters, clock := s.clock } = s) ∧
  (∀ (u : UnitIx) (w : Word64) (since t : Nat) (m : Bank 48) (s : State), plays s (.dot u) = true → (s.play (.dot u)).wait = .emit since →
    w = (s.tt (.dot u)).word (s.play (.dot u)).pc → t = max since s.clock.now → funsIdle s (u.val / 8) → (s.cluster (u.val / 8)).bus = [] →
    (s.unit u.val).flight = [] → m = (s.unit u.val).mb.getD (wf w 52 4) {} →
    (∀ f : Nat, f < 2 → wf w 48 4 = 8 + f → (s.fun_ (2 * (u.val / 8) + f)).buf.length < 4) →
    claimedBelow s u.val t = false →
    ∃ t', exec (.emitBusCycleFree u) s = .next t' ∧ t'.play (.dot u) = ⟨(s.play (.dot u)).pc + 1, t + 1, .none⟩ ∧
      (t'.cluster (u.val / 8)).bus = [⟨m.rows, m.exp.getD 0, m.exp.isSome, m.bad || emitMismatch m || s.is (fFenced u.val), m.late, m.tag, u.val % 8,
        wf w 48 4, u.val % 8, t + 2, false, (s.play (.dot u)).pc⟩] ∧
      t'.fld (fBlocked (.dot u)) = min 65535 (s.fld (fBlocked (.dot u)) + (t - since)) ∧
      regsSame s t' [unitBase u.val + 0x58, unitBase u.val + 0x60] ∧
      { t' with regs := s.regs, units := s.units, clusters := s.clusters, clock := s.clock } = s) ∧
  (∀ (u : UnitIx) (w : Word64) (t : Nat) (r : BusRow) (s : State), issuesNext s (.dot u) 6 w t → 1 ≤ t → funsIdle s (u.val / 8) →
    (s.cluster (u.val / 8)).bus = [r] → r.dest = u.val % 8 → r.due = t → (s.unit u.val).flight = [] →
    ∃ t', exec (.addin u) s = .next t' ∧ t'.play (.dot u) = ⟨(s.play (.dot u)).pc + 1, t + 1, .none⟩ ∧ (t'.cluster (u.val / 8)).bus = [] ∧
      (∀ bound : Nat, t + 1 ≤ bound → ((settleUnit t' u.val bound).unit u.val).mb =
        modAt (s.unit u.val).mb (wf w 52 4) (fun _ => (addBusRow ((s.unit u.val).mb.getD (wf w 52 4) {}) r).1)) ∧
      (∀ bound : Nat, bound < t + 1 → ((settleUnit t' u.val bound).unit u.val).mb = (s.unit u.val).mb) ∧
      { t' with units := s.units, clusters := s.clusters, clock := s.clock } = s) ∧
  (∀ (u : UnitIx) (w : Word64) (t : Nat) (s : State), issuesNext s (.dot u) 6 w t → funsIdle s (u.val / 8) → (s.cluster (u.val / 8)).bus = [] →
    (s.stagedImage = false →
      ∃ t', exec (.addin u) s = .next t' ∧ t'.play (.dot u) = ⟨(s.play (.dot u)).pc + 1, t + 1, .none⟩ ∧
        t'.fld (fStarved (.dot u)) = min 65535 (s.fld (fStarved (.dot u)) + 1) ∧ (t'.unit u.val).flight = (s.unit u.val).flight) ∧
    (s.stagedImage = true →
      ∃ t', exec (.addin u) s = .next t' ∧ t'.play (.dot u) = ⟨(s.play (.dot u)).pc, t, .addin t⟩ ∧
        { t' with units := s.units, clusters := s.clusters, clock := s.clock } = s)) ∧
  (∀ (u : UnitIx) (since : Nat) (r : BusRow) (s : State), plays s (.dot u) = true → (s.play (.dot u)).wait = .addin since →
    funsIdle s (u.val / 8) → (s.cluster (u.val / 8)).bus = [r] → r.dest = u.val % 8 → since ≤ r.due → (s.unit u.val).flight = [] →
    ∃ t', exec (.addinRowTaken u) s = .next t' ∧ t'.play (.dot u) = ⟨(s.play (.dot u)).pc + 1, r.due + 1, .none⟩ ∧
      (t'.cluster (u.val / 8)).bus = [] ∧
      (t'.unit u.val).flight = [⟨r.due + 1, .addin (wf ((s.tt (.dot u)).word (s.play (.dot u)).pc) 52 4) r⟩] ∧
      t'.fld (fStarved (.dot u)) = min 65535 (s.fld (fStarved (.dot u)) + (r.due - since)) ∧ regsSame s t' [unitBase u.val + 0x60] ∧
      { t' with regs := s.regs, units := s.units, clusters := s.clusters, clock := s.clock } = s) ∧
  (∀ (m : Bank 48) (r : BusRow) (eb : BitVec 6),
    (r.expValid = false → (addBusRow m r).1 = { m with bad := m.bad || r.bad, late := m.late || r.late } ∧ (addBusRow m r).2 = 0) ∧
    (∀ (o : Nat) (a : Int), r.expValid = true → eb = m.exp.getD r.exp → o < 32 →
      a = (m.rows.getD o 0).toInt + scaleBy (r.vals.getD o 0).toInt ((r.exp.toNat : Int) - eb.toNat) →
      ((addBusRow m r).1.rows.getD o 0).toInt = max (-(2 ^ 47)) (min (2 ^ 47 - 1) a) ∧ (addBusRow m r).1.exp = some eb ∧
      (addBusRow m r).1.tag = (if m.exp = none then r.tag else m.tag) ∧ (addBusRow m r).1.bad = (m.bad || r.bad) ∧
      (addBusRow m r).1.late = (m.late || r.late)))

/-- PASS and DUP take the head beat of a port and send it out of the ports they name, with the unit's epoch (R132, R133, 07 R166).
It rests also on the model's choices in notes/assumptions/1.md. -/
def Obligations.PassAndDupSend : Prop :=
  ∀ (c : Instr) (op : Nat) (outs : List Nat) (u : UnitIx) (w : Word64) (t : Nat) (b : Beat) (r : List Beat) (q : QueueId) (s : State),
    (c, op, outs) ∈ [(Instr.pass u, 7, [wf w 54 2]), (.dup u, 8, (List.range 4).filter (fun i => decide (bits w.toNat (52 + i) 1 = 1)))] →
    issuesNext s (.dot u) op w t → q = .port u (portOf (wf w 56 2)) → headIs s q b r t → (s.unit u.val).outLink = [] →
    stagedLacking s u.val outs = [] →
    ((∀ o ∈ outs, capturer s u.val o = none ∧ (neighbour u.val o).isSome = true) →
      ∃ t', exec c s = .next t' ∧ t'.play (.dot u) = ⟨(s.play (.dot u)).pc + 1, t + 1, .none⟩ ∧ (t'.queue q).beats = r ∧
        t'.links = outs.map (fun o => ⟨(neighbour u.val o).getD 0, (o + 2) % 4, t + linkCycles u.val ((neighbour u.val o).getD 0),
          badIf b (s.is (fFenced u.val)), epochOf s u.val, false⟩) ∧
        (∀ q' : QueueId, q' ≠ q → (t'.queue q').beats = (s.queue q').beats) ∧
        { t' with units := s.units, portQ := s.portQ, bankQ := s.bankQ, links := s.links, clock := s.clock } = s) ∧
    (∀ o k : Nat, outs = [o] → capturer s u.val o = some k →
      ∃ t', exec c s = .next t' ∧ t'.play (.dot u) = ⟨(s.play (.dot u)).pc + 1, t + 1, .none⟩ ∧ (t'.queue q).beats = r ∧
        (t'.cluster (u.val / 8)).arrivals = (s.cluster (u.val / 8)).arrivals ++
          [⟨.bank (Fin.ofNat 512 (u.val / 8)) (Fin.ofNat 16 k), t + 1, 4, badIf b (s.is (fFenced u.val))⟩])

/-- HOLD, MENU, SYNC and DROPPKT (R134 to R138), for both kinds of agent.
It rests also on the model's choices in notes/assumptions/1.md. -/
def Obligations.TimetableControlWords : Prop :=
  (∀ (a : Agent) (w : Word64) (t : Nat) (s : State), issuesNext s a 9 w t → funsIdle s (aCluster a) →
    ∃ t', exec (.hold a) s = .next t' ∧ t'.play a = ⟨(s.play a).pc, t, .hold (t + max 1 (wf w 42 16))⟩ ∧
      (∀ b : Agent, b ≠ a → t'.play b = s.play b) ∧ { t' with units := s.units, funs := s.funs, clock := s.clock } = s) ∧
  (∀ (a : Agent) (n : Nat) (s : State), plays s a = true → (s.play a).wait = .hold n →
    ∃ t', exec (.holdEnd a) s = .next t' ∧ t'.play a = ⟨(s.play a).pc + 1, n, .none⟩ ∧ (∀ b : Agent, b ≠ a → t'.play b = s.play b) ∧
      { t' with units := s.units, funs := s.funs, clock := s.clock } = s) ∧
  (∀ (a : Agent) (w : Word64) (t : Nat) (s : State), issuesNext s a 0xC w t → funsIdle s (aCluster a) →
    ∃ t', exec (.menu a) s = .next t' ∧ t'.fld (fActive a) = (if wf w 57 1 = 1 then wf w 53 4 else schedOf s a % 16) ∧
      t'.play a = ⟨(s.play a).pc + 1, t + 1, .none⟩ ∧ (∀ b : Agent, b ≠ a → t'.play b = s.play b) ∧ regsSame s t' [(fActive a).addr] ∧
      { t' with regs := s.regs, units := s.units, funs := s.funs, clock := s.clock } = s) ∧
  (∀ (a : Agent) (s : State), plays s a = true → (s.play a).wait = .none → period s a ≤ (s.play a).pc → funsIdle s (aCluster a) →
    ∃ t', exec (.sync a) s = .next t' ∧ t'.play a = ⟨0, (s.play a).at_, .sync⟩ ∧ (∀ b : Agent, b ≠ a → t'.play b = s.play b) ∧
      { t' with units := s.units, funs := s.funs, clock := s.clock } = s) ∧
  (∀ (a : Agent) (w : Word64) (t : Nat) (q : QueueId) (l : List Beat) (s : State), issuesNext s a 0xB w t → funsIdle s (aCluster a) →
    dropTarget a w = some q → s.links = [] → (s.cluster (aCluster a)).arrivals = [] → (s.queue q).wrote = none → (s.queue q).beats = l →
    (∀ (pre post : List Beat) (x : Beat), (s.queue q).pkt = true → (s.queue q).discarding = false → l = pre ++ x :: post →
      (∀ y ∈ pre, y.last = false) → x.last = true →
      ∃ t', exec (.dropPkt a) s = .next t' ∧ t'.play a = ⟨(s.play a).pc + 1, t + 1, .none⟩ ∧ (t'.queue q).beats = post ∧
        (t'.queue q).pkt = false ∧ (t'.queue q).discarding = false ∧
        t'.fld (fQDiscard q) = min 65535 (s.fld (fQDiscard q) + pre.length + 1) ∧ regsSame s t' [(fQDiscard q).addr]) ∧
    ((s.queue q).pkt = true → (s.queue q).discarding = false → (∀ y ∈ l, y.last = false) →
      ∃ t', exec (.dropPkt a) s = .next t' ∧ (t'.queue q).beats = [] ∧ (t'.queue q).discarding = true ∧
        t'.fld (fQDiscard q) = min 65535 (s.fld (fQDiscard q) + l.length)) ∧
    ((s.queue q).pkt = false →
      ∃ t', exec (.dropPkt a) s = .next t' ∧ t'.play a = ⟨(s.play a).pc + 1, t + 1, .none⟩ ∧ t'.queue q = s.queue q ∧
        { t' with units := s.units, funs := s.funs, clusters := s.clusters, clock := s.clock } = s))

/-- ANCHOR (R105 to R108, R136): a pass begins at its anchor, in locked mode at the crossing's opening and in staged mode at the release of the
barrier; a stopped run's agent stops with its banks kept, and a pass that is not over slips.
It rests also on the model's choices in notes/assumptions/1.md, notes/assumptions/25.md. -/
def Obligations.AnchorStartsPasses : Prop :=
  (∀ (a : Agent) (s : State), s.runs = true → s.stagedImage = false → isAnchor s a = true → s.is (fRunning a) = false →
    enabledAgent s a = true → s.run.started = true → stopsAt s a = false →
    ∃ t, exec (.anchor a) s = .next t ∧ t.is (fRunning a) = true ∧ t.play a = ⟨1, s.clock.xstart, .none⟩ ∧
      (∀ b : Agent, b ≠ a → t.play b = s.play b) ∧ regsSame s t [(fRunning a).addr] ∧
      { t with regs := s.regs, units := s.units, funs := s.funs, clock := s.clock } = s) ∧
  (∀ (a : Agent) (s : State), s.runs = true → s.stagedImage = false → isAnchor s a = true → s.is (fRunning a) = true → stopsAt s a = false →
    (s.play a).wait = .sync → (s.play a).at_ < s.clock.xstart → funsIdle s (aCluster a) →
    ∃ t, exec (.anchor a) s = .next t ∧ t.is (fRunning a) = true ∧ t.play a = ⟨1, s.clock.xstart, .none⟩ ∧
      { t with regs := s.regs, units := s.units, funs := s.funs, clock := s.clock } = s) ∧
  (∀ (a : Agent) (s : State), s.runs = true → s.stagedImage = false → isAnchor s a = true → s.is (fRunning a) = true → stopsAt s a = true →
    (s.play a).wait = .sync → funsIdle s (aCluster a) →
    ∃ t, exec (.anchor a) s = .next t ∧ t.is (fRunning a) = false ∧ (t.play a).wait = .none ∧
      (∀ g : Nat, (t.unit g).gb = (s.unit g).gb ∧ (t.unit g).mb = (s.unit g).mb) ∧ regsSame s t [(fRunning a).addr] ∧
      { t with regs := s.regs, units := s.units, funs := s.funs } = s) ∧
  (∀ (a : Agent) (n : Nat) (s : State), s.runs = true → s.stagedImage = false → isAnchor s a = true → s.is (fRunning a) = true →
    stopsAt s a = false → (s.play a).wait = .hold n → funsIdle s (aCluster a) → mget false s.hazardsHeld (clusterRegion (aCluster a)) = true →
    ∃ t, exec (.anchor a) s = .next t ∧
      t.fld (fHazCount (clusterRegion (aCluster a)) 5) = min 65535 (s.fld (fHazCount (clusterRegion (aCluster a)) 5) + 1) ∧
      { t with regs := s.regs } = s) ∧
  (∀ (a : Agent) (s : State), s.runs = true → s.stagedImage = true → s.stage.running = true → s.is (fRunning a) = false →
    enabledAgent s a = true → (s.play a).at_ < s.stage.releasedAt →
    ∃ t, exec (.anchor a) s = .next t ∧ t.is (fRunning a) = true ∧ t.play a = ⟨1, s.stage.releasedAt, .none⟩ ∧ regsSame s t [(fRunning a).addr] ∧
      { t with regs := s.regs, units := s.units, funs := s.funs, clock := s.clock } = s)

/-! ### Function units and steering units -/

/-- A function word of one take, on a queue with a beat (R141 to R146): the beat is taken, the slot is held for the duration, and the output beats
that the operation gives are on their way from its latency on. A word that streams sends the one beat of its input. The waits of staged mode end with
STARVED and BLOCKED counting the cycles waited (R145, R153), and the word goes on.
It rests also on the model's choices in notes/assumptions/3.md, notes/assumptions/10.md, notes/assumptions/11.md, notes/assumptions/24.md, notes/assumptions/69.md. -/
def Obligations.FunctionWordRuns : Prop :=
  (∀ (c : Instr) (op q : Nat) (f : FunIx) (w : Word64) (t : Nat) (b : Beat) (r : List Beat) (d : QueueId) (i : FIn) (beats : List Beat) (s : State),
    (c, op) ∈ [(Instr.act f, 0x10), (.rowx f, 0x11), (.pin f, 0x12), (.norm f, 0x13), (.expt f, 0x14), (.rcp f, 0x15), (.reduce f, 0x16),
      (.pool f, 0x17), (.sort16 f, 0x18), (.topk f, 0x19)] →
    issuesNext s (.fn f) op w t → funsIdle s (f.val / 2) → s.stagedImage = false → takePlan w = [⟨0, false, .queue q⟩] → q < 16 →
    headIs s (.bank (Fin.ofNat 512 (f.val / 2)) (Fin.ofNat 16 q)) b r t → (s.cluster (f.val / 2)).bus = [] → (s.fun_ f.val).outBusy = [] →
    dstQueue f.val (wDst w) = some d → qHold s d = false →
    i = ⟨w, (s.cluster (f.val / 2)).store, s.fld (fActive (.fn f)), [.beat b], [], s.freeNext⟩ →
    beats = (if streams w = true then [{ (operate i).beats.getD 0 zeroBeat with last := decide (1 = outBeats w) }] else (operate i).beats) →
    ∃ t', exec c s = .next t' ∧ t'.play (.fn f) = ⟨(s.play (.fn f)).pc + 1, t + duration w, .none⟩ ∧ (t'.fun_ f.val).op = none ∧
      (t'.queue (.bank (Fin.ofNat 512 (f.val / 2)) (Fin.ofNat 16 q))).beats = r ∧
      (t'.cluster (f.val / 2)).arrivals = ((List.range beats.length).zip beats).map (fun p =>
        ⟨d, t + latency w + p.1, f.val % 2, badIf p.2 (s.fun_ f.val).poisoned⟩) ∧
      t'.fld (fRange f.val) = min 65535 (s.fld (fRange f.val) + (operate i).range) ∧
      t'.fld (fFunSat f.val) = min 255 (s.fld (fFunSat f.val) + (operate i).sat) ∧
      (∀ g : Nat, g ≠ f.val → t'.fun_ g = s.fun_ g) ∧ regsSame s t' [funBase f.val + 0x0C, funBase f.val + 0x10] ∧
      { t' with regs := s.regs, funs := s.funs, clusters := s.clusters, bankQ := s.bankQ, clock := s.clock, freeNext := s.freeNext } = s) ∧
  (∀ (f : FunIx) (o : FunOp) (since q : Nat) (b : Beat) (r : List Beat) (s : State), plays s (.fn f) = true →
    (s.play (.fn f)).wait = .source since → since ≤ s.clock.now → (s.fun_ f.val).op = some o → (s.fun_ (f.val + 1 - 2 * (f.val % 2))).op = none →
    (takePlan o.w)[o.next]? = some ⟨since - o.at_ - o.slip, false, .queue q⟩ → o.at_ + o.slip ≤ since → (takePlan o.w).length = o.next + 1 → q < 16 →
    headIs s (.bank (Fin.ofNat 512 (f.val / 2)) (Fin.ofNat 16 q)) b r s.clock.now →
    ∃ t, exec (.funSourceWaitEnd f) s = .next t ∧
      t.play (.fn f) = ⟨(s.play (.fn f)).pc, (s.play (.fn f)).at_ + (s.clock.now - since), .none⟩ ∧
      t.fld (fStarved (.fn f)) = min 65535 (s.fld (fStarved (.fn f)) + (s.clock.now - since)) ∧ (t.fun_ f.val).op = none ∧
      (t.queue (.bank (Fin.ofNat 512 (f.val / 2)) (Fin.ofNat 16 q))).beats = r) ∧
  (∀ (f : FunIx) (w : Word64) (since t0 : Nat) (s : State), plays s (.fn f) = true → (s.play (.fn f)).wait = .output since →
    funsIdle s (f.val / 2) → w = (s.tt (.fn f)).word (s.play (.fn f)).pc → t0 = max since s.clock.now → outputFree s f.val w t0 = true →
    ∃ t, exec (.funBlockedWaitEnd f) s = .next t ∧ (t.play (.fn f)).pc = (s.play (.fn f)).pc + 1 ∧ (t.play (.fn f)).at_ = t0 + duration w ∧
      t.fld (fBlocked (.fn f)) = min 65535 (s.fld (fBlocked (.fn f)) + (t0 - since)))

/-- GATHER and SCATTER take a beat and an index beat (R151), THRESH sends a contribution 24 cycles after b + 2 (R158), and a REDUCE whose
destination is the bus places its row there (R153).
It rests also on the model's choices in notes/assumptions/3.md, notes/assumptions/10.md, notes/assumptions/24.md. -/
def Obligations.IndexedAndSumWordsRun : Prop :=
  (∀ (c : Instr) (op p q end_ : Nat) (f : FunIx) (w : Word64) (t : Nat) (b x : Beat) (r y : List Beat) (d : QueueId) (i : FIn) (beats : List Beat)
    (s : State), (c, op, end_) ∈ [(Instr.gather f, 0x1A, t + 1), (.scatter f, 0x1B, t)] → issuesNext s (.fn f) op w t → funsIdle s (f.val / 2) →
    s.stagedImage = false → takePlan w = (if op = 0x1A then [⟨0, false, .queue q⟩, ⟨1, true, .queue p⟩]
      else [⟨0, false, .queue q⟩, ⟨0, true, .queue p⟩]) → q < 16 → p < 16 → p ≠ q →
    headIs s (.bank (Fin.ofNat 512 (f.val / 2)) (Fin.ofNat 16 q)) b r t → headIs s (.bank (Fin.ofNat 512 (f.val / 2)) (Fin.ofNat 16 p)) x y t →
    (s.cluster (f.val / 2)).bus = [] → (s.fun_ f.val).outBusy = [] → dstQueue f.val (wDst w) = some d → qHold s d = false →
    i = ⟨w, (s.cluster (f.val / 2)).store, s.fld (fActive (.fn f)), [.beat b], [.beat x], s.freeNext⟩ →
    beats = (if op = 0x1A then [{ (operate i).beats.getD 0 zeroBeat with last := decide (1 = outBeats w) }] else (operate i).beats) →
    ∃ t', exec c s = .next t' ∧ t'.play (.fn f) = ⟨(s.play (.fn f)).pc + 1, t + duration w, .none⟩ ∧
      (t'.queue (.bank (Fin.ofNat 512 (f.val / 2)) (Fin.ofNat 16 q))).beats = r ∧
      ((settleFuns t' (f.val / 2) end_).fun_ f.val).op = none ∧
      ((settleFuns t' (f.val / 2) end_).queue (.bank (Fin.ofNat 512 (f.val / 2)) (Fin.ofNat 16 p))).beats = y ∧
      ((settleFuns t' (f.val / 2) end_).cluster (f.val / 2)).arrivals =
        ((List.range beats.length).zip beats).map (fun p => ⟨d, t + latency w + p.1, f.val % 2, badIf p.2 (s.fun_ f.val).poisoned⟩)) ∧
  (∀ (f : FunIx) (w : Word64) (t q bs mask : Nat) (feature : Option Beat) (b : Beat) (r : List Beat) (i : FIn) (s : State),
    issuesNext s (.fn f) 0x1C w t → funsIdle s (f.val / 2) → s.stagedImage = false → takePlan w = [⟨0, false, .queue q⟩] → q < 16 →
    headIs s (.bank (Fin.ofNat 512 (f.val / 2)) (Fin.ofNat 16 q)) b r t → (s.cluster (f.val / 2)).bus = [] →
    i = ⟨w, (s.cluster (f.val / 2)).store, s.fld (fActive (.fn f)), [.beat b], [], s.freeNext⟩ → (operate i).trigger = some (bs, mask, feature) →
    ∃ t' c, exec (.thresh f) s = .next t' ∧ t'.contribs = s.contribs ++ [c] ∧ c.va = wBdest w % 4 ∧ c.bits = BitVec.ofNat 32 bs ∧
      c.cid = wEout w ∧ c.due = t + latency w + 24 ∧ c.bad = ((operate i).bad || (s.fun_ f.val).poisoned) ∧ c.late = b.late ∧
      (t'.queue (.bank (Fin.ofNat 512 (f.val / 2)) (Fin.ofNat 16 q))).beats = r ∧
      t'.play (.fn f) = ⟨(s.play (.fn f)).pc + 1, t + duration w, .none⟩ ∧ (t'.cluster (f.val / 2)).arrivals = []) ∧
  (∀ (f : FunIx) (w : Word64) (t q : Nat) (row : BusRow) (b : Beat) (r : List Beat) (i : FIn) (s : State), issuesNext s (.fn f) 0x16 w t →
    funsIdle s (f.val / 2) → s.stagedImage = false → takePlan w = [⟨0, false, .queue q⟩] → q < 16 → wDst w = 16 →
    headIs s (.bank (Fin.ofNat 512 (f.val / 2)) (Fin.ofNat 16 q)) b r t → (s.cluster (f.val / 2)).bus = [] →
    i = ⟨w, (s.cluster (f.val / 2)).store, s.fld (fActive (.fn f)), [.beat b], [], s.freeNext⟩ → (operate i).row = some row →
    ∃ t', exec (.reduce f) s = .next t' ∧
      (t'.cluster (f.val / 2)).bus = [{ row with
        bad := row.bad || (s.fun_ f.val).poisoned, src := 0, dest := wBdest w, sender := 8 + f.val % 2, due := t + latency w, pc := (s.play (.fn f)).pc }] ∧
      t'.play (.fn f) = ⟨(s.play (.fn f)).pc + 1, t + duration w, .none⟩)

/-- What the operations compute (03 R77, R80 to R82; 06 R143, R146 to R151, R154, R158). Rounding is to nearest, ties to even. ROWX and PIN emit the row
itself, ACT and EXPT the piecewise-linear function, NORM and RCP the normalised and the divided row, POOL the maximum or the sum of rows, REDUCE the
sum of two, as a row, as a wide row or on the bus. SORT16 and TOPK order mantissas, GATHER and SCATTER move them by index, and THRESH compares them with
the active menu's thresholds.
It rests also on the model's choices in notes/assumptions/3.md, notes/assumptions/24.md, notes/assumptions/69.md. -/
def Obligations.OperationsComputeRows : Prop :=
  (∀ (x v : Int) (n : Nat), scaleBy x n = x * 2 ^ n ∧
    (1 ≤ n → v = scaleBy x (-(n : Int)) → 2 * (x - v * 2 ^ n).natAbs ≤ 2 ^ n ∧ (2 * (x - v * 2 ^ n).natAbs = 2 ^ n → v % 2 = 0))) ∧
  (∀ (i : FIn) (x : Nat → Int) (u : Int), readsRow i.w i.a x u →
    (opcode i.w = 0x11 → emitsRow (operate i).beats true 0 (wLen i.w) x u) ∧
    (opcode i.w = 0x12 → emitsRow (operate i).beats false (wEout i.w) (wLen i.w) x u)) ∧
  (∀ (i : FIn) (x z : Nat → Int) (u mx : Int), readsRow i.w i.a x u →
    (opcode i.w = 0x10 →
      (∀ n : Nat, n < wLen i.w → z n = max (-32768) (min 32767 (scaleBy (x n) (u + 40 - (bits (tableAt i 0) 0 6 : Nat)) +
        (if wf i.w 14 1 = 1 then sext 16 (bits (tableAt i (129 + n / 4)) (16 * (n % 4)) 16) else 0)))) →
      emitsRow (operate i).beats (wMeasured i.w) (wEout i.w) (wLen i.w) (fun n => pieceAtZ i (z n)) ((bits (tableAt i 0) 8 6 : Nat) - 40)) ∧
    (opcode i.w = 0x14 → (∃ n : Nat, n < wLen i.w ∧ x n = mx) → (∀ n : Nat, n < wLen i.w → x n ≤ mx) →
      (∀ n : Nat, n < wLen i.w → z n = max (-32768) (scaleBy (x n - mx) (u + 40 - (bits (tableAt i 0) 0 6 : Nat)))) →
      emitsRow (operate i).beats (wMeasured i.w) (wEout i.w) (wLen i.w) (fun n => pieceAtZ i (z n)) ((bits (tableAt i 0) 8 6 : Nat) - 40))) ∧
  (∀ (i : FIn) (x g o : Nat → Int) (u tot q d dn : Int) (k rho : Nat), readsRow i.w i.a x u → opcode i.w = 0x13 →
    tot = ((List.range (wLen i.w)).map x).sum → q = ((List.range (wLen i.w)).map (fun n => x n * x n)).sum →
    d = wLen i.w * q - tot * tot + 2 ^ wf i.w 14 5 → d < 2 ^ (32 + 2 * k) → (0 < k → 2 ^ (30 + 2 * k) ≤ d) → dn = scaleBy d (-(2 * k : Nat)) →
    (2 * (rho : Int) - 1) * (2 * rho - 1) * dn ≤ 2 ^ 96 → 2 ^ 96 ≤ (2 * (rho : Int) + 1) * (2 * rho + 1) * dn →
    (rho % 2 = 1 → (2 * (rho : Int) - 1) * (2 * rho - 1) * dn < 2 ^ 96 ∧ 2 ^ 96 < (2 * (rho : Int) + 1) * (2 * rho + 1) * dn) →
    (∀ n : Nat, n < wLen i.w → g n = sext 16 (bits (tableAt i (n / 4)) (16 * (n % 4)) 16) ∧
      o n = sext 16 (bits (tableAt i ((wLen i.w + 3) / 4 + n / 4)) (16 * (n % 4)) 16)) →
    emitsRow (operate i).beats (wMeasured i.w) (wEout i.w) (wLen i.w)
      (fun n => scaleBy ((wLen i.w * x n - tot) * rho) (-(35 + k : Nat)) * g n + o n * 65536) (-24)) ∧
  (∀ (i : FIn) (x : Nat → Int) (u tot sn : Int) (k rho : Nat), readsRow i.w i.a x u → opcode i.w = 0x15 →
    tot = ((List.range (wLen i.w)).map x).sum →
    (tot ≤ 0 → emitsRow (operate i).beats (wMeasured i.w) (wEout i.w) (wLen i.w) (fun _ => 0) u ∧ (∀ y ∈ (operate i).beats, y.bad = true) ∧
      (operate i).range = 1) ∧
    (0 < tot → tot < 2 ^ (24 + k) → (0 < k → 2 ^ (23 + k) ≤ tot) → sn = scaleBy tot (-(k : Int)) → 2 * (2 ^ 48 - rho * sn).natAbs ≤ sn →
      (2 * (2 ^ 48 - rho * sn).natAbs = sn → rho % 2 = 0) →
      emitsRow (operate i).beats (wMeasured i.w) (wEout i.w) (wLen i.w) (fun n => x n * rho) (-48 - k))) ∧
  (∀ (i : FIn) (x : Nat → Nat → Int) (u : Nat → Int) (y : Nat → Int) (m : Int) (per : Nat), opcode i.w = 0x17 →
    per = (if wSrc i.w = 16 then 1 else beatsFor (wLen i.w)) →
    (∀ j : Nat, j < wNobj i.w → readsRow i.w (slice i.a (per * j) per) (x j) (u j) ∧ m ≤ u j) → (∃ j : Nat, j < wNobj i.w ∧ u j = m) →
    (wf i.w 6 1 = 1 → ∀ n : Nat, n < wLen i.w → y n = ((List.range (wNobj i.w)).map (fun j => x j n * 2 ^ (u j - m).toNat)).sum) →
    (wf i.w 6 1 = 0 → ∀ n : Nat, n < wLen i.w → (∃ j : Nat, j < wNobj i.w ∧ y n = x j n * 2 ^ (u j - m).toNat) ∧
      ∀ j : Nat, j < wNobj i.w → x j n * 2 ^ (u j - m).toNat ≤ y n) →
    emitsRow (operate i).beats (wMeasured i.w) (wEout i.w) (wLen i.w) y m) ∧
  (∀ (i : FIn) (x x' y v : Nat → Int) (u u' m : Int) (e : BitVec 6), opcode i.w = 0x16 → wf i.w 5 2 = 0 → readsRow i.w i.a x u →
    (i.b = [] ∧ m = u ∧ (∀ n : Nat, n < wLen i.w → y n = x n) ∨
      i.b ≠ [] ∧ readsRow i.w i.b x' u' ∧ m = min u u' ∧
        (∀ n : Nat, n < wLen i.w → y n = x n * 2 ^ (u - m).toNat + x' n * 2 ^ (u' - m).toNat)) →
    (∀ n : Nat, n < 32 → v n = (if n < wLen i.w then max (-(2 ^ 47)) (min (2 ^ 47 - 1) (scaleBy (y n) (m - ((e.toNat : Int) - 32 - wf i.w 8 6))))
      else 0)) →
    (wf i.w 7 1 = 0 → wDst i.w ≠ 16 → emitsRow (operate i).beats (wMeasured i.w) (wEout i.w) (wLen i.w) y m) ∧
    (wDst i.w = 16 → beatRow i.a (wLen i.w) x e →
      ∃ r, (operate i).row = some r ∧ r.exp = e ∧ r.expValid = true ∧ ∀ n : Nat, n < 32 → (r.vals.getD n 0).toInt = v n) ∧
    (wf i.w 7 1 = 1 → wDst i.w ≠ 16 → beatRow i.a (wLen i.w) x e → (operate i).beats.length = 8 ∧ (∀ z ∈ (operate i).beats, z.exp = e) ∧
      (∀ n : Nat, n < 32 → sext 48 (bits ((operate i).beats.getD (n / 4) zeroBeat).mant.toNat (48 * (n % 4)) 48) = v n))) ∧
  (∀ (i : FIn) (b y : Beat) (len : Nat), i.a = [.beat b] → i.b = [] → opcode i.w = 0x18 → len = min 16 (wLen i.w) → (operate i).beats.head? = some y →
    ((mantissas y).take len).Perm ((mantissas b).take len) ∧ (wf i.w 0 1 = 1 → ((mantissas y).take len).Pairwise (fun p q => p ≤ q)) ∧
    (wf i.w 0 1 = 0 → ((mantissas y).take len).Pairwise (fun p q => q ≤ p)) ∧ (∀ j : Nat, len ≤ j → j < 16 → mantissa y j = 0) ∧
    y.tag = b.tag ∧ y.exp = b.exp ∧ y.bad = b.bad ∧ y.late = b.late ∧
    (wf i.w 1 1 = 1 → ∃ z, (operate i).beats = [y, z] ∧ z.exp = 32 ∧
      (∀ j : Nat, j < len → 0 ≤ mantissa z j ∧ mantissa z j < len ∧ mantissa y j = mantissa b (mantissa z j).toNat) ∧
      (∀ j k : Nat, j < k → k < len → mantissa z j ≠ mantissa z k ∧ (mantissa y j = mantissa y k → mantissa z j < mantissa z k)))) ∧
  (∀ (i : FIn) (x : Nat → Int) (e : BitVec 6) (k : Nat) (y : Beat), opcode i.w = 0x19 → beatRow i.a (wLen i.w) x e →
    k = min (wf i.w 0 4 + 1) (wLen i.w) → (operate i).beats.head? = some y →
    y.exp = e ∧ (∀ j : Nat, k ≤ j → j < 16 → mantissa y j = 0) ∧
    (∀ j : Nat, j < k → ((List.range (wLen i.w)).filter (fun n => decide (mantissa y j < x n))).length ≤ j ∧
      j < ((List.range (wLen i.w)).filter (fun n => decide (mantissa y j ≤ x n))).length) ∧
    (wf i.w 4 1 = 1 → ∃ z, (operate i).beats = [y, z] ∧ z.exp = 32 ∧
      (∀ j : Nat, j < k → 0 ≤ mantissa z j ∧ mantissa z j < wLen i.w ∧ mantissa y j = x (mantissa z j).toNat) ∧
      (∀ j l : Nat, j < l → l < k → mantissa y j = mantissa y l → mantissa z j < mantissa z l))) ∧
  (∀ (i : FIn) (x ix : Nat → Int) (e d : BitVec 6), beatRow i.b (wNidx i.w) ix d →
    (opcode i.w = 0x1A → beatRow i.a (wLen i.w) x e → (operate i).beats.length = beatsFor (wNidx i.w) ∧ (∀ y ∈ (operate i).beats, y.exp = e) ∧
      (operate i).range = ((List.range (wNidx i.w)).filter (fun n => decide (ix n < 0) || decide (wLen i.w ≤ ix n))).length ∧
      (∀ j : Nat, j < 16 * (operate i).beats.length → mantissa ((operate i).beats.getD (j / 16) zeroBeat) (j % 16) =
        (if j < wNidx i.w ∧ 0 ≤ ix j ∧ ix j < wLen i.w then x (ix j).toNat else 0))) ∧
    (opcode i.w = 0x1B → beatRow i.a (wNidx i.w) x e → (operate i).beats.length = beatsFor (wLen i.w) ∧ (∀ y ∈ (operate i).beats, y.exp = e) ∧
      (∀ n : Nat, n < 16 * (operate i).beats.length →
        (∀ j : Nat, j < wNidx i.w → ix j = n → n < wLen i.w → (∀ l : Nat, j < l → l < wNidx i.w → ix l ≠ n) →
          mantissa ((operate i).beats.getD (n / 16) zeroBeat) (n % 16) = x j) ∧
        (wLen i.w ≤ n ∨ (∀ j : Nat, j < wNidx i.w → ix j ≠ n) → mantissa ((operate i).beats.getD (n / 16) zeroBeat) (n % 16) = 0)))) ∧
  (∀ (i : FIn) (x : Nat → Int) (u : Int) (boff : Nat), opcode i.w = 0x1C → readsRow i.w i.a x u → boff = wf i.w 14 5 → boff + wLen i.w ≤ 32 →
    ∃ bs feat, (operate i).trigger = some (bs, (2 ^ wLen i.w - 1) * 2 ^ boff, feat) ∧ bs < 2 ^ (boff + wLen i.w) ∧ bs % 2 ^ boff = 0 ∧
      (wf i.w 19 1 = 0 → feat = none) ∧ (∀ b : Beat, ∀ l : List TakenItem, wf i.w 19 1 = 1 → i.a = .beat b :: l → feat = some b) ∧
      ∀ (n a : Nat) (v th : Int), n < wLen i.w → a = bits (tableAt i (16 * i.menu + n / 2)) (32 * (n % 2)) 32 → v = x n * 2 ^ (u + 128).toNat →
        th = sext 16 (bits a 0 16) * 2 ^ (bits a 16 6 + 96) →
        (bits bs (boff + n) 1 = 1 ↔ (bits a 22 2 = 0 ∧ th ≤ v ∨ bits a 22 2 = 1 ∧ th < v ∨ bits a 22 2 = 2 ∧ v ≤ th ∨ bits a 22 2 = 3 ∧ v < th)))

/-- MERGE and SPLIT forward one beat of a row: MERGE of the input whose row reached its head first, the lower first on a tie; SPLIT of input 0 to
output j mod NOUT + 1, j counting the rows of one tag. TOKEN_LOAD, and ROUTE, MASK, PACK, UNPACK and SELECT under a token: where the row goes, the marks
a token adds, and when the token retires (R156, R157).
It rests also on the model's choices in notes/assumptions/3.md, notes/assumptions/26.md. -/
def Obligations.SteeringForwardsRows : Prop :=
  (∀ (c : Instr) (k : ClusterIx) (op i o t j : Nat) (b : Beat) (r : List Beat) (s : State), s.runs = true → s.is (fSteEnable k.val) = true →
    funsIdle s k.val → s.fld (fSteOp k.val) = op → t = max s.clock.now (s.steer k.val).busy → (s.steer k.val).jobs = [] →
    (s.steer k.val).waitSince = none → (s.steer k.val).nextMap = none → headIs s (steerIn k.val i) b r t →
    (c = .merge k ∧ op = 0 ∧ i ≤ s.fld (fSteNin k.val) ∧ o = s.fld (fSteOut k.val 0) ∧
        (∀ n : Nat, n ≤ s.fld (fSteNin k.val) → n ≠ i → qReady s (steerIn k.val n) = true →
          (s.steer k.val).headAt.getD i 0 < (s.steer k.val).headAt.getD n 0 ∨
            ((s.steer k.val).headAt.getD i 0 = (s.steer k.val).headAt.getD n 0 ∧ i < n)) ∨
      c = .splitRows k ∧ op = 1 ∧ i = 0 ∧ j = (if (s.steer k.val).splitTag = some b.tag then (s.steer k.val).splitCount else 0) ∧
        o = s.fld (fSteOut k.val (j % (s.fld (fSteNout k.val) + 1)))) →
    maySend s (bankQ k.val o) = true →
    ∃ t', exec c s = .next t' ∧ (t'.cluster k.val).arrivals = [⟨bankQ k.val o, t + 2, 2, b⟩] ∧ (t'.queue (steerIn k.val i)).beats = r ∧
      (t'.steer k.val).jobs = (if b.last = true then [] else [⟨some i, some o, false, false, 0⟩]) ∧ (t'.steer k.val).busy = t + 1 ∧
      (op = 1 → (t'.steer k.val).splitCount = j + 1 ∧ (t'.steer k.val).splitTag = some b.tag) ∧
      (∀ q : QueueId, q ≠ steerIn k.val i → (t'.queue q).beats = (s.queue q).beats) ∧
      { t' with clusters := s.clusters, steerQ := s.steerQ, bankQ := s.bankQ, clock := s.clock } = s) ∧
  (∀ (k : ClusterIx) (t : Nat) (b : Beat) (r : List Beat) (q : QueueId) (s : State), s.runs = true → s.is (fSteEnable k.val) = true →
    funsIdle s k.val → 2 ≤ s.fld (fSteOp k.val) → (s.steer k.val).token = none → t = max s.clock.now (s.steer k.val).busy →
    q = .bank k (Fin.ofNat 16 (s.fld (fSteTokq k.val))) → headIs s q b r t →
    ∃ t', exec (.tokenLoad k) s = .next t' ∧ (t'.steer k.val).token = some b ∧ (t'.steer k.val).busy = t + 1 ∧ (t'.queue q).beats = r ∧
      (t'.steer k.val).jobs = (s.steer k.val).jobs ∧ (∀ q' : QueueId, q' ≠ q → t'.queue q' = s.queue q') ∧
      { t' with clusters := s.clusters, bankQ := s.bankQ, clock := s.clock } = s) ∧
  (∀ (c : Instr) (k : ClusterIx) (op t : Nat) (out : Option Nat) (tok b : Beat) (r : List Beat) (s : State), s.runs = true →
    s.is (fSteEnable k.val) = true → funsIdle s k.val → s.fld (fSteOp k.val) = op → t = max s.clock.now (s.steer k.val).busy →
    (s.steer k.val).token = some tok → (s.steer k.val).jobs = [] → (s.steer k.val).waitSince = none → (s.steer k.val).nextMap = none →
    headIs s (steerIn k.val 0) b r t →
    (c = .route k ∧ op = 3 ∧ out = (if bits tok.mant.toNat 0 12 ≤ s.fld (fSteNout k.val) then some (s.fld (fSteOut k.val (bits tok.mant.toNat 0 12)))
        else none) ∨
      c = .mask k ∧ op = 4 ∧ out = (if bits tok.mant.toNat 0 1 = 1 then some (s.fld (fSteOut k.val 0)) else none) ∨
      c = .pack k ∧ op = 5 ∧ out = (if tokenMask tok (s.steer k.val).slot = true then some (s.fld (fSteOut k.val 0)) else none) ∧
        (s.steer k.val).slot + 1 < slotCount s k.val ∨
      c = .unpack k ∧ op = 6 ∧ out = some (s.fld (fSteOut k.val 0)) ∧ tokenMask tok (s.steer k.val).slot = true ∧
        (s.steer k.val).slot + 1 < slotCount s k.val) →
    (∀ o : Nat, out = some o → maySend s (bankQ k.val o) = true) →
    ∃ t', exec c s = .next t' ∧ (t'.queue (steerIn k.val 0)).beats = r ∧ (t'.steer k.val).busy = t + 1 ∧
      (t'.cluster k.val).arrivals = (match out with
        | some o => [⟨bankQ k.val o, t + 2, 2, { b with bad := b.bad || (decide (b.tag ≠ tok.tag) || tok.bad), late := b.late || tok.late }⟩]
        | none => []) ∧
      t'.fld (fSteTagErr k.val) = (if b.tag ≠ tok.tag then min 65535 (s.fld (fSteTagErr k.val) + 1) else s.fld (fSteTagErr k.val)) ∧
      t'.fld (fSteDiscard k.val) = (if op = 3 ∧ out = none then min 65535 (s.fld (fSteDiscard k.val) + 1) else s.fld (fSteDiscard k.val)) ∧
      ((t'.steer k.val).jobs = [] ↔ b.last = true) ∧
      (t'.steer k.val).token = (if b.last = true ∧ op < 5 then none else some tok) ∧
      (t'.steer k.val).slot = (if b.last = true then (if op < 5 then 0 else (s.steer k.val).slot + 1) else (s.steer k.val).slot) ∧
      regsSame s t' [steBase k.val + 0xC]) ∧
  (∀ (k : ClusterIx) (t : Nat) (tok b : Beat) (r : List Beat) (s : State), s.runs = true → s.is (fSteEnable k.val) = true → funsIdle s k.val →
    s.fld (fSteOp k.val) = 5 → t = max s.clock.now (s.steer k.val).busy → (s.steer k.val).token = some tok → (s.steer k.val).jobs = [] →
    (s.steer k.val).waitSince = none → (s.steer k.val).nextMap = none → headIs s (steerIn k.val 0) b r t → b.last = true →
    (s.steer k.val).slot + 1 = slotCount s k.val → tokenMask tok (s.steer k.val).slot = false →
    maySend s (bankQ k.val (s.fld (fSteCntq k.val))) = true →
    ∃ t' x, exec (.pack k) s = .next t' ∧ (t'.cluster k.val).arrivals = [⟨bankQ k.val (s.fld (fSteCntq k.val)), t + 2, 2, x⟩] ∧
      x.mant = BitVec.ofNat 192 (s.steer k.val).packed ∧ x.tag = tok.tag ∧ x.first = true ∧ x.last = true ∧ (t'.steer k.val).token = none ∧
      (t'.steer k.val).slot = 0 ∧ (t'.queue (steerIn k.val 0)).beats = r) ∧
  (∀ (k : ClusterIx) (t : Nat) (tok : Beat) (s : State), s.runs = true → s.is (fSteEnable k.val) = true → funsIdle s k.val →
    s.fld (fSteOp k.val) = 6 → t = max s.clock.now (s.steer k.val).busy → (s.steer k.val).token = some tok → (s.steer k.val).jobs = [] →
    (s.steer k.val).waitSince = none → (s.steer k.val).nextMap = none → (s.cluster k.val).arrivals = [] →
    tokenMask tok (s.steer k.val).slot = false → maySend s (bankQ k.val (s.fld (fSteOut k.val 0))) = true →
    ∃ t', exec (.unpack k) s = .next t' ∧
      (t'.cluster k.val).arrivals = [⟨bankQ k.val (s.fld (fSteOut k.val 0)), t + 2, 2,
        ⟨0, 0, tok.tag, tok.bad, tok.late, true, decide (s.fld (fSteZbeats k.val) = 0)⟩⟩] ∧
      (∀ i : Fin 4, (t'.queue (.steer k i)).beats = (s.queue (.steer k i)).beats)) ∧
  (∀ (k : ClusterIx) (t v : Nat) (tok b : Beat) (r : List Beat) (s : State), s.runs = true → s.is (fSteEnable k.val) = true → funsIdle s k.val →
    s.fld (fSteOp k.val) = 2 → t = max s.clock.now (s.steer k.val).busy → (s.steer k.val).token = some tok → (s.steer k.val).jobs = [] →
    (s.steer k.val).waitSince = none → (s.steer k.val).nextMap = none → headIs s (steerIn k.val 0) b r t → v = bits tok.mant.toNat 0 12 →
    (∀ i : Nat, i ≤ s.fld (fSteNin k.val) → qReady s (steerIn k.val i) = true) → maySend s (bankQ k.val (s.fld (fSteOut k.val 0))) = true →
    ∃ t', exec (.select k) s = .next t' ∧ (t'.queue (steerIn k.val 0)).beats = r ∧
      (t'.cluster k.val).arrivals = (if v = 0 then [⟨bankQ k.val (s.fld (fSteOut k.val 0)), t + 2, 2,
        { b with bad := b.bad || (decide (b.tag ≠ tok.tag) || tok.bad), late := b.late || tok.late }⟩] else []) ∧
      t'.fld (fSteDiscard k.val) = (if s.fld (fSteNin k.val) < v then min 65535 (s.fld (fSteDiscard k.val) + 1) else s.fld (fSteDiscard k.val)) ∧
      (t'.steer k.val).jobs.length = s.fld (fSteNin k.val) + (if b.last = true then 0 else 1))

/-! ### Queues, arbiters, logic blocks and regions -/

/-- BEAT_ARRIVAL, DROP_REST, INJECTION, CREDIT_RETURN and WRITE_CREDIT_WAIT_END (07 R165, R167, R170 to R177; 08 R212).
It rests also on the model's choices in notes/assumptions/1.md, notes/assumptions/9.md, notes/assumptions/15.md, notes/assumptions/55.md, notes/assumptions/56.md. -/
def Obligations.QueueEventsMoveBeats : Prop :=
  (∀ (u : UnitIx) (p : Port) (l : LinkBeat) (q : QueueId) (s : State), q = .port u p →
    s.links.find? (fun x => decide (x.unit = u.val) && decide (x.port = portNat p)) = some l → s.idleRegion (unitRegion u.val) = false →
    l.injected = false →
    (s.is (fPtEn u.val (portNat p)) = false → injector s u.val (portNat p) = none → l.epoch = expects s u.val (portNat p) →
      (s.queue q).discarding = false →
      ((s.queue q).beats.length < 8 → ∃ t, exec (.beatArrival u p) s = .next t ∧ (t.queue q).beats = (s.queue q).beats ++ [l.beat] ∧
        t.links = s.links.erase l ∧ t.clock.now = max s.clock.now l.due ∧ (∀ q' : QueueId, q' ≠ q → t.queue q' = s.queue q') ∧
        regsSame s t [(fQMaxOcc q).addr] ∧ { t with regs := s.regs, portQ := s.portQ, links := s.links, clock := s.clock } = s) ∧
      (8 ≤ (s.queue q).beats.length → ∃ t, exec (.beatArrival u p) s = .next t ∧ (t.queue q).beats = (s.queue q).beats ∧
        t.links = s.links.erase l ∧ (∃ who, (t.queue q).excess = some (l.beat, who, l.due)) ∧
        (∀ c : Nat, l.due < c → ((noteOver t q c).queue q).beats = (s.queue q).beats ∧ ((noteOver t q c).queue q).excess = none ∧
          (noteOver t q c).is (fQOverrun q) = true ∧ (noteOver t q c).fld (fQOver q) = min 65535 (t.fld (fQOver q) + 1)))) ∧
    (s.is (fPtEn u.val (portNat p)) = false → injector s u.val (portNat p) = none → l.epoch ≠ expects s u.val (portNat p) →
      ∃ t, exec (.beatArrival u p) s = .next t ∧ t.fld (fStale (unitRegion u.val)) = min 65535 (s.fld (fStale (unitRegion u.val)) + 1) ∧
        t.links = s.links.erase l ∧ regsSame s t [(fStale (unitRegion u.val)).addr] ∧
        { t with regs := s.regs, links := s.links, clock := s.clock } = s) ∧
    (s.is (fPtEn u.val (portNat p)) = false → injector s u.val (portNat p) = none → l.epoch = expects s u.val (portNat p) →
      (s.queue q).discarding = true →
      ∃ t, exec (.beatArrival u p) s = .next t ∧ (t.queue q).beats = (s.queue q).beats ∧ (t.queue q).discarding = !l.beat.last ∧
        t.fld (fQDiscard q) = min 65535 (s.fld (fQDiscard q) + 1)) ∧
    ((injector s u.val (portNat p)).isSome = true →
      ∃ t, exec (.beatArrival u p) s = .next t ∧ t.fld (fQCollide q) = min 65535 (s.fld (fQCollide q) + 1) ∧ t.queue q = s.queue q ∧
        t.links = s.links.erase l ∧ regsSame s t [(fQCollide q).addr] ∧ { t with regs := s.regs, links := s.links, clock := s.clock } = s) ∧
    (∀ o h : Nat, s.is (fPtEn u.val (portNat p)) = true → injector s u.val (portNat p) = none → o = s.fld (fPtOut u.val (portNat p)) → (s.unit u.val).outLink = [] →
      capturer s u.val o = none → neighbour u.val o = some h →
      ∃ t, exec (.beatArrival u p) s = .next t ∧ t.queue q = s.queue q ∧ t.links = s.links.erase l ++
        [⟨h, (o + 2) % 4, l.due + linkCycles u.val h, badIf l.beat (s.is (fFenced u.val)), l.epoch, false⟩])) ∧
  (∀ (q : QueueId) (l pre post : List Beat) (x : Beat) (s : State), s.recovery = false → funsIdle s (qCluster q) → s.links = [] →
    (s.cluster (qCluster q)).arrivals = [] → (s.queue q).wrote = none → (s.queue q).beats = l → (s.queue q).discarding = false →
    ((s.queue q).pkt = true → l = pre ++ x :: post → (∀ y ∈ pre, y.last = false) → x.last = true →
      ∃ t, exec (.dropRest q) s = .next t ∧ (t.queue q).beats = post ∧ (t.queue q).pkt = false ∧ (t.queue q).discarding = false ∧
        t.fld (fQDiscard q) = min 65535 (s.fld (fQDiscard q) + pre.length + 1)) ∧
    ((s.queue q).pkt = true → (∀ y ∈ l, y.last = false) →
      ∃ t, exec (.dropRest q) s = .next t ∧ (t.queue q).beats = [] ∧ (t.queue q).discarding = true ∧
        t.fld (fQDiscard q) = min 65535 (s.fld (fQDiscard q) + l.length)) ∧
    ((s.queue q).pkt = false → ∃ t, exec (.dropRest q) s = .next t ∧ t.queue q = s.queue q ∧ { t with clusters := s.clusters } = s)) ∧
  (∀ (k : ClusterIx) (q : Fin 16) (r t : Nat) (b : Beat) (l : List Beat) (dst : QueueId) (s : State), s.runs = true →
    r = (s.raw (clusterBase k.val + 0xC00 + 0x20 * q.val + 0x18)).toNat → bits r 5 1 = 1 → t = s.clock.now →
    (∀ e ∈ (s.cluster k.val).injected, e.1 = q.val → e.2 < t) → funsIdle s k.val → headIs s (.bank k q) b l t →
    dst = .port (Fin.ofNat 4096 (8 * k.val + bits r 0 3)) (portOf (bits r 3 2)) → (s.queue dst).beats.length < 8 → maySend s dst = true →
    noWaiter s dst →
    ∃ t', exec (.injection k q) s = .next t' ∧ (t'.queue (.bank k q)).beats = l ∧
      t'.links = [⟨8 * k.val + bits r 0 3, bits r 3 2, t + 1, b, epochOf s (8 * k.val + bits r 0 3), true⟩] ∧
      { t' with portQ := s.portQ, bankQ := s.bankQ, clusters := s.clusters, links := s.links, clock := s.clock } = s) ∧
  (∀ (q : QueueId) (c : Nat) (r : List Nat) (s : State), (s.queue q).returning = c :: r → (∀ e ∈ s.ctxs, e.2.buf = []) →
    (∀ e ∈ s.mcs, e.2.queue = []) →
    ∃ t, exec (.creditReturn q) s = .next t ∧ t.queue q = { s.queue q with returning := r, taken := (s.queue q).taken - 1 } ∧
      (∀ q' : QueueId, q' ≠ q → t.queue q' = s.queue q') ∧
      { t with portQ := s.portQ, bankQ := s.bankQ, steerQ := s.steerQ, clock := s.clock } = s) ∧
  (∀ (q p : QueueId) (u : UnitIx) (since t h : Nat) (w : Word64) (b : Beat) (r : List Beat) (s : State), maySend s q = true →
    creditWaiter s q = some (.dot u, since) → plays s (.dot u) = true → t = max since s.clock.now →
    w = (s.tt (.dot u)).word (s.play (.dot u)).pc → opcode w = 7 → p = .port u (portOf (wf w 56 2)) → headIs s p b r t →
    (s.unit u.val).outLink = [] → stagedLacking s u.val [wf w 54 2] = [] → capturer s u.val (wf w 54 2) = none →
    neighbour u.val (wf w 54 2) = some h →
    ∃ t', exec (.writeCreditWaitEnd q) s = .next t' ∧ t'.play (.dot u) = ⟨(s.play (.dot u)).pc + 1, t + 1, .none⟩ ∧ (t'.queue p).beats = r ∧
      t'.fld (fBlocked (.dot u)) = min 65535 (s.fld (fBlocked (.dot u)) + (t - since)) ∧
      t'.fld (fQBlocked q) = min 65535 (s.fld (fQBlocked q) + (t - since)) ∧ t'.links.length = 1) ∧
  (∀ (q : QueueId) (since : Nat) (b : Beat) (s : State), maySend s q = true → creditWaiter s q = none → (s.queue q).blocked = some (b, since) →
    (s.queue q).waitSince = none →
    ∃ t, exec (.writeCreditWaitEnd q) s = .next t ∧ (t.queue q).blocked = none ∧
      t.fld (fQBlocked q) = min 65535 (s.fld (fQBlocked q) + (s.clock.now - since)) ∧
      (t.cluster (qCluster q)).arrivals = (s.cluster (qCluster q)).arrivals ++
        [⟨q, portDue s (qCluster q) (4 + portFeeding s q) q, 3, badIf b (configUe s (qCluster q))⟩])

/-- ARBITER_DECISION and TRANSACTION_END (07 R179 to R185): an idle port goes to the request of best rank among those presented and those parked, and a
parked grant ends when another requester asks; a busy port parks what is presented; a parked grant serves its owner at once; a transaction's end leaves
the grant parked when nobody else waits. At a fabric egress the transaction is one flit of the granted stream, in the next position of a lane with
room (12 R301, R310).
It rests also on the model's choices in notes/assumptions/12.md, notes/assumptions/27.md, notes/assumptions/70.md. -/
def Obligations.ArbitersGrantByRank : Prop :=
  (∀ (a : ArbId) (ps : List Requester) (r : Requester) (here : Requester → Prop) (s : State), arbExists s a = true →
    (∀ x : Requester, here x ↔ (x ∈ ps ∧ asks s a x = true) ∨ ∃ c : Nat, (x, c) ∈ (s.arb a).parked) → (s.arb a).busy = false →
    (s.arb a).emergency = false → squallHolds s a = false → (∀ o : Requester, (s.arb a).owner = some o → ∃ x : Requester, here x ∧ x ≠ o) → here r →
    (∀ x : Requester, here x → x ≠ r → rankAt s a r < rankAt s a x) →
    ∃ t, exec (.arbiterDecision a ps) s = .next t ∧ (t.arb a).owner = some r ∧ (t.arb a).busy = true ∧
      (∀ x : Requester, (∃ c : Nat, (x, c) ∈ (t.arb a).parked) ↔ here x ∧ x ≠ r) ∧ regsSame s t [arbBase a s + 4] ∧
      { t with regs := s.regs, regions := s.regions, memArb := s.memArb, egressArb := s.egressArb } = s) ∧
  (∀ (a : ArbId) (ps : List Requester) (s : State), arbExists s a = true → (s.arb a).busy = true →
    ∃ t, exec (.arbiterDecision a ps) s = .next t ∧ (t.arb a).owner = (s.arb a).owner ∧ (t.arb a).busy = true ∧
      (∀ x ∈ ps, asks s a x = true → ∃ c : Nat, (x, c) ∈ (t.arb a).parked) ∧ (∀ e ∈ (s.arb a).parked, e ∈ (t.arb a).parked) ∧
      { t with regions := s.regions, memArb := s.memArb, egressArb := s.egressArb } = s) ∧
  (∀ (a : ArbId) (o : Requester) (s : State), arbExists s a = true → (s.arb a).busy = false → (s.arb a).emergency = false →
    squallHolds s a = false → (s.arb a).owner = some o → (s.arb a).parked = [] → asks s a o = true →
    ∃ t, exec (.arbiterDecision a [o]) s = .next t ∧ (t.arb a).owner = some o ∧ (t.arb a).busy = true ∧
      t.fld (fParkedHits (arbBase a s)) = min 65535 (s.fld (fParkedHits (arbBase a s)) + 1) ∧ t.fld (fMaxWait (arbBase a s)) = s.fld (fMaxWait (arbBase a s)) ∧
      { t with regs := s.regs, regions := s.regions, memArb := s.memArb, egressArb := s.egressArb } = s) ∧
  (∀ (a : ArbId) (s : State), arbExists s a = true → (∀ (x : SiteIx) (y : Fin 32), a ≠ .egress x y) → (∀ e ∈ s.mcs, e.2.queue = []) →
    (s.arb a).busy = true → (s.arb a).emergency = false →
    ∃ t, exec (.transactionEnd a) s = .next t ∧ (t.arb a).busy = false ∧ (t.arb a).parked = (s.arb a).parked ∧
      (∀ o : Requester, (s.arb a).owner = some o →
        ((∀ e ∈ (s.arb a).parked, e.1 = o) → (t.arb a).owner = some o) ∧ ((∃ e ∈ (s.arb a).parked, e.1 ≠ o) → (t.arb a).owner = none)) ∧
      { t with regions := s.regions, memArb := s.memArb } = s) ∧
  (∀ (site : SiteIx) (lead : Fin 32) (x : BitVec 14) (k j : Nat) (b : Beat) (r : List Beat) (s : State), s.tile site.val = 1 →
    s.is (fGrpUp site.val lead.val) = true → (∀ e ∈ s.mcs, e.2.queue = []) → grantee s (.egress site lead) = some (.stream x) → linkOfStream s site.val lead.val x.toNat = some k →
    (s.txLink site.val k).loose = b :: r → (s.retry site.val lead.val).waiting = [] →
    nextLane s site.val (s.retry site.val lead.val).pos (ways s site.val lead.val) = some j →
    ∃ t q, exec (.transactionEnd (.egress site lead)) s = .next t ∧ (t.arb (.egress site lead)).busy = false ∧
      (t.txLink site.val k).loose = r ∧ (t.txLink site.val k).credit = (s.txLink site.val k).credit - 1 ∧
      t.out = .flit site.val j q (s.retry site.val j).nextSeq ⟨false, x, b.first, b.last, s.is fSysEpoch, .beat b⟩ :: s.out ∧
      (s.retry site.val lead.val).pos ≤ q ∧ (ways s site.val lead.val)[q % (ways s site.val lead.val).length]? = some j ∧
      { t with egressArb := s.egressArb, txLinks := s.txLinks, retries := s.retries, out := s.out } = s)

/-- The frame port of a block (08 R205 to R207): words are gathered, a whole frame is checked, and it applies when it is sound.
It rests also on the model's choices in notes/assumptions/15.md, notes/assumptions/67.md. -/
def Obligations.FramesConfigureBlocks : Prop :=
  (∀ (k : ClusterIx) (lo : Word32) (w : Word64) (s : State), s.recovery = false → w = BitVec.ofNat 64 (lo.toNat + 2 ^ 32 * (s.logic k.val).frameHi.toNat) →
    ((s.logic k.val).words ++ [w]).length < frameLength (((s.logic k.val).words ++ [w]).headD 0).toNat + 2 →
    ∃ t, exec (.logFrameLo k lo) s = .next t ∧ t.logic k.val = { s.logic k.val with words := (s.logic k.val).words ++ [w] } ∧
      { t with clusters := s.clusters } = s) ∧
  (∀ (k : ClusterIx) (lo : Word32) (w : Word64) (ws : List Word64) (s : State), s.recovery = false →
    w = BitVec.ofNat 64 (lo.toNat + 2 ^ 32 * (s.logic k.val).frameHi.toNat) → ws = (s.logic k.val).words ++ [w] →
    frameLength (ws.headD 0).toNat + 2 ≤ ws.length →
    (frameCrcOk ws = true → frameFormOk ws = true → s.fld (fLogState k.val) = 1 → (s.logic k.val).applying = none →
      ∃ t, exec (.logFrameLo k lo) s = .next t ∧ t.logic k.val = { s.logic k.val with words := [], applying := some ws } ∧
        { t with clusters := s.clusters } = s) ∧
    (frameCrcOk ws = false →
      ∃ t, exec (.logFrameLo k lo) s = .next t ∧ t.logic k.val = { s.logic k.val with words := [] } ∧ t.is (fLogCrcErr k.val) = true ∧
        regsSame s t [(fLogCrcErr k.val).addr] ∧ { t with regs := s.regs, clusters := s.clusters } = s) ∧
    (frameFormOk ws = false ∨ s.fld (fLogState k.val) ≠ 1 →
      ∃ t, exec (.logFrameLo k lo) s = .next t ∧ t.logic k.val = { s.logic k.val with words := [] } ∧ t.is (fLogFrameErr k.val) = true)) ∧
  (∀ (k : ClusterIx) (ws : List Word64) (h : Nat) (s : State), (s.logic k.val).applying = some ws → h = (ws.headD 0).toNat →
    ∃ t, exec (.frameApplied k) s = .next t ∧ (t.logic k.val).applying = none ∧
      t.fld (fApplied k.val) = min 65535 (s.fld (fApplied k.val) + 1) ∧
      (frameKind h = 0 → (t.logic k.val).cells = (s.logic k.val).cells.putAll (128 * frameColumn h) ((ws.drop 1).take (frameLength h)) ∧
        (t.logic k.val).routing = (s.logic k.val).routing) ∧
      (frameKind h = 1 → (t.logic k.val).routing = (s.logic k.val).routing.putAll (128 * frameColumn h) ((ws.drop 1).take (frameLength h)) ∧
        (t.logic k.val).cells = (s.logic k.val).cells)) ∧
  (∀ (k : ClusterIx) (s : State), s.recovery = false →
    (configRefused s (clusterRegion k.val) = true →
      ∃ t, exec (.logBegin k) s = .next t ∧ t.is (fLogRefused k.val) = true ∧ regsSame s t [(fLogRefused k.val).addr] ∧
        { t with regs := s.regs } = s) ∧
    (configRefused s (clusterRegion k.val) = false →
      ∃ t, exec (.logBegin k) s = .next t ∧ t.fld (fLogState k.val) = 1 ∧ t.fld (fApplied k.val) = 0 ∧ (t.logic k.val).words = [] ∧
        (t.logic k.val).cells = (s.logic k.val).cells ∧ (t.logic k.val).routing = (s.logic k.val).routing ∧
        (∀ j : Nat, j ≠ k.val → t.cluster j = s.cluster j)) ∧
    (s.fld (fLogState k.val) = 1 → (s.logic k.val).applying = none →
      ∃ t, exec (.logDone k) s = .next t ∧ t.fld (fLogState k.val) = 3 ∧ (t.logic k.val).doneAt = s.clock.now + bit s.runs ∧
        regsSame s t [(fLogState k.val).addr] ∧ { t with regs := s.regs, clusters := s.clusters } = s) ∧
    (s.fld (fLogState k.val) = 3 → s.runs = true → s.is (fRgnBusy (clusterRegion k.val)) = false → (s.logic k.val).doneAt ≤ lastBoundary s →
      funsIdle s k.val → (s.cluster k.val).arrivals = [] → (s.cluster k.val).bus = [] →
      ∃ t, exec (.blockRelease k) s = .next t ∧ t.fld (fLogState k.val) = (if (s.logic k.val).framed = true then 2 else 0) ∧
        (∀ (j : Fin 4) (q : QueueId), writeTarget s k.val j.val = some q → t.queue q = {})))

/-- At an edge of its tree every flip-flop loads: its initial value under SR, its own value without CE, else its table's output; the others keep theirs.
A select of 0 gives 0, a contended wire reads 0, and a table gives the bit that its six inputs name (08 R192 to R195).
It rests also on the model's choices in notes/assumptions/15.md. -/
def Obligations.LogicCellsCompute : Prop :=
  (∀ (v : Logic) (inp : Nat → Bool) (on : List Nat) (col row : Nat) (b : Bool), row < 64 →
    ((∃ e ∈ v.cells.words, e.1 / 2 = 64 * col + row) → bits (cellCtl v col row).toNat 5 2 ∈ on →
      mget false (edgeFlops v inp on) (2 * (64 * col + row) + bit b) =
        (if (cellCtl v col row).getLsbD 8 = true ∧ muxValue v inp 15 col row = true then (cellCtl v col row).getLsbD (if b = true then 4 else 3)
         else if (cellCtl v col row).getLsbD 7 = true ∧ muxValue v inp 14 col row = false then mget false v.flops (2 * (64 * col + row) + bit b)
         else flopInput v inp b col row)) ∧
    (((∀ e ∈ v.cells.words, e.1 / 2 ≠ 64 * col + row) ∨ bits (cellCtl v col row).toNat 5 2 ∉ on) →
      mget false (edgeFlops v inp on) (2 * (64 * col + row) + bit b) = mget false v.flops (2 * (64 * col + row) + bit b))) ∧
  (∀ (v : Logic) (inp : Nat → Bool) (m col row : Nat), muxSelect v m col row = 0 → muxValue v inp m col row = false) ∧
  (∀ (v : Logic) (inp : Nat → Bool) (vert : Bool) (fuel col row : Nat), wireOf vert col row ∈ v.contended →
    netValue v inp (fuel + 1) (.wire (6 + bit vert) col row) = false) ∧
  (∀ (table ctl : Word64) (i : BitVec 6),
    (ctl.getLsbD 0 = false → cellTable table ctl i = (table.getLsbD i.toNat, table.getLsbD i.toNat)) ∧
    (ctl.getLsbD 0 = true → cellTable table ctl i = (table.getLsbD (bits i.toNat 0 5), table.getLsbD (32 + bits i.toNat 0 5))))

/-- Regions: START, RELEASE and the release; REQUEST and COMMIT; a free PLL's lock (08 R196, R210 to R215).
It rests also on the model's choices in notes/assumptions/15.md, notes/assumptions/67.md. -/
def Obligations.RegionsReconfigureAndCommit : Prop :=
  (∀ (r : RegionIx) (s : State), s.recovery = false → configRefused s r.val = true →
    ∃ t, exec (.rgnStart r) s = .next t ∧ t.is (fRgnRefused r.val) = true ∧ regsSame s t [(fRgnRefused r.val).addr] ∧ { t with regs := s.regs } = s) ∧
  (∀ (r : RegionIx) (s : State), s.recovery = false → configRefused s r.val = false → s.links = [] →
    (∀ k : Nat, k / 8 = r.val → funsIdle s k ∧ (s.cluster k).arrivals = [] ∧ (s.cluster k).bus = []) →
    ∃ t, exec (.rgnStart r) s = .next t ∧ t.is (fRgnBusy r.val) = true ∧ t.fld (fEpoch r.val) = 1 - s.fld (fEpoch r.val) ∧
      (∀ k : Nat, k / 8 = r.val → t.fld (fLogState k) = 1) ∧ (∀ q : QueueId, qCluster q / 8 = r.val → t.queue q = {}) ∧
      (t.region r.val).toggledAt = some (s.clock.now + 2) ∧ t.memTiles = s.memTiles ∧ t.units = s.units) ∧
  (∀ (r : RegionIx) (s : State), s.recovery = false →
    ((∃ c : Nat, c < 8 ∧ s.fld (fLogState (8 * r.val + c)) = 1) →
      ∃ t, exec (.rgnRelease r) s = .next t ∧ t.is (fRgnRefused r.val) = true ∧ { t with regs := s.regs } = s) ∧
    ((∀ c : Nat, c < 8 → s.fld (fLogState (8 * r.val + c)) ≠ 1) → s.is (fRgnBusy r.val) = true →
      ∃ t, exec (.rgnRelease r) s = .next t ∧ (t.region r.val).releaseAt = some (s.clock.now + bit s.runs) ∧ { t with regions := s.regions } = s)) ∧
  (∀ (r : RegionIx) (a b : Nat) (s : State), (s.region r.val).releaseAt = some a → (s.region r.val).toggledAt = some b →
    s.is (fRgnBusy r.val) = true → s.runs = true → a ≤ lastBoundary s → b + 1024 ≤ lastBoundary s →
    ∃ t, exec (.reconfigRelease r) s = .next t ∧ t.is (fRgnBusy r.val) = false ∧ (t.region r.val).releaseAt = none ∧
      (∀ c : Nat, c < 8 → t.fld (fLogState (8 * r.val + c)) = 0 ∨ t.fld (fLogState (8 * r.val + c)) = 2)) ∧
  (∀ (r : RegionIx) (s : State), s.recovery = false →
    (s.is (fRgnBusy r.val) = true →
      ∃ t, exec (.commitRequest r) s = .next t ∧ t.is (fCommitRefused r.val) = true ∧ { t with regs := s.regs } = s) ∧
    (s.is (fRgnBusy r.val) = false → s.is (fCommitPending r.val) = false → s.runs = true →
      ∃ t, exec (.commitRequest r) s = .next t ∧ t.is (fCommitPending r.val) = true ∧ (t.region r.val).requestAt = some s.clock.now ∧
        t.staged = s.staged ∧ regsSame s t [(fCommitPending r.val).addr] ∧ { t with regs := s.regs, regions := s.regions } = s)) ∧
  (∀ (r : RegionIx) (req g : Nat) (v : Word32) (s : State), (s.region r.val).requestAt = some req →
    (s.runs = false ∨ (s.run.started = true ∧ s.stagedImage = true ∧ req < s.stage.releasedAt) ∨
      (¬ (s.run.started = true ∧ s.stagedImage = true) ∧ req + 4 ≤ s.clock.xstart)) →
    g < 4096 → unitRegion g = r.val → s.staged = [(unitBase g + 8, some v)] → bits v.toNat 0 3 < 3 →
    ∃ t, exec (.commit r) s = .next t ∧ t.is (fCommitPending r.val) = false ∧ t.fld (fCommitCrossing r.val) = s.fld fCurrent ∧
      (t.region r.val).requestAt = none ∧ t.staged = [] ∧ t.fld (fFormat g) = bits v.toNat 0 3) ∧
  (∀ (r : RegionIx) (p : Fin 2) (s : State), bits (s.raw (rgnPll r.val p.val)).toNat 16 1 = 1 → pllOut (s.raw (rgnPll r.val p.val)).toNat = false →
    ∃ t, exec (.freePllLocked r p) s = .next t ∧ t.is ⟨rgnPll r.val p.val, 17, 1⟩ = true ∧ regsSame s t [rgnPll r.val p.val] ∧ clustersPlayed s t ∧
      { t with regs := s.regs, clusters := s.clusters, out := s.out, freeNext := s.freeNext } = s)

/-- Boundary ports, the lent UART and I2C controllers, the user fuses and the GPIO pins (08 R199, R202, R208, R218, R219). A port moves one beat at an
edge of the tree that serves it, and a beat on a locked tree is in its queue from the next array cycle on (08 R199, R200).
It rests also on the model's choices in notes/assumptions/1.md, notes/assumptions/15.md, notes/assumptions/48.md, notes/assumptions/64.md. -/
def Obligations.PortsAndHardBlocksAct : Prop :=
  (∀ (k : ClusterIx) (j : Fin 4) (b : Beat) (q : QueueId) (e : Nat) (s : State), writeTarget s k.val j.val = some q →
    portEdge s k.val (4 + j.val) = some e → s.fld (fLogState k.val) = 2 → (s.cluster k.val).arrivals = [] → funsIdle s k.val →
    maySend s q = true →
    ∃ t d, exec (.logicPortWrite k j b) s = .next t ∧ (t.cluster k.val).arrivals =
        [⟨q, e + d, 3, badIf b (s.is ⟨regionBase (clusterRegion k.val) + 0x1404, 8 + k.val % 8, 1⟩)⟩] ∧ 1 ≤ d ∧
      (treeSrc s (clusterRegion k.val) (portTree s k.val (4 + j.val)) = 1 → d = 1) ∧ mget 0 (t.logic k.val).portAt (4 + j.val) = e + 1 ∧
      (qHold s q = true → (t.queue q).taken = (s.queue q).taken + 1) ∧ (t.queue q).beats = (s.queue q).beats) ∧
  (∀ (k : ClusterIx) (j : Fin 4) (q : QueueId) (b : Beat) (r : List Beat) (e : Nat) (s : State), readTarget s k.val j.val = some q →
    portEdge s k.val j.val = some e → s.fld (fLogState k.val) = 2 → funsIdle s k.val → headIs s q b r e →
    ∃ t, exec (.logicPortTake k j) s = .next t ∧ (t.queue q).beats = r ∧ (∀ q' : QueueId, q' ≠ q → t.queue q' = s.queue q') ∧
      mget 0 (t.logic k.val).portAt j.val = e + 1 ∧ t.clock = { s.clock with now := e } ∧
      { t with clusters := s.clusters, bankQ := s.bankQ, clock := s.clock, out := s.out, freeNext := s.freeNext } = s) ∧
  (∀ (k : ClusterIx) (j : Fin 4) (b : Beat) (s : State),
    (portEdge s k.val (4 + j.val) = none → exec (.logicPortWrite k j b) s = .next s) ∧
    (portEdge s k.val j.val = none → exec (.logicPortTake k j) s = .next s)) ∧
  (∀ (r i c : Nat) (s : State), treeSrc s r i = 1 → s.runs = true → s.clock.xstart ≤ c →
    c ≤ nextEdge s r i c ∧ lockedEdge s r i (nextEdge s r i c) = true ∧
      (∀ x : Nat, c ≤ x → x < nextEdge s r i c → lockedEdge s r i x = false)) ∧
  (∀ (x : Instr) (k : ClusterIx) (c : ByteCtl) (op : Nat) (b : Byte) (ack : Bool) (s : State),
    (x, op, b) ∈ [(Instr.bytePortStart k c, 0, 0), (.bytePortWriteByte k c b, 1, b),
      (.bytePortReadByte k c ack, 2, if ack = true then 1 else 0), (.bytePortStop k c, 3, 0)] →
    s.is (fCtlLent (k.val / 32) (ctlNat c)) = true → s.fld (fCtlOwner (k.val / 32) (ctlNat c)) = k.val % 32 →
    (binding s k.val).getLsbD (48 + ctlNat c) = true → s.fld (fLogState k.val) = 2 →
    mget none s.byteCmds (2 * (k.val / 32) + ctlNat c) = none →
    ∃ t, exec x s = .next t ∧ t.out = .bytePort (k.val / 32) (decide (ctlNat c = 1)) op b :: s.out ∧ (t.logic k.val).done = false ∧
      mget none t.byteCmds (2 * (k.val / 32) + ctlNat c) = some (k.val, op, b) ∧
      { t with clusters := s.clusters, byteCmds := s.byteCmds, out := s.out } = s) ∧
  (∀ (d : DieIx) (c : ByteCtl) (resp : Byte) (k op : Nat) (b : Byte) (s : State),
    mget none s.byteCmds (2 * d.val + ctlNat c) = some (k, op, b) →
    ∃ t, exec (.bytePortDone d c resp) s = .next t ∧ (t.logic k).response = resp ∧ (t.logic k).done = true ∧
      mget none t.byteCmds (2 * d.val + ctlNat c) = none ∧ { t with clusters := s.clusters, byteCmds := s.byteCmds } = s) ∧
  (∀ (d : DieIx) (w : FuseWord) (s : State), s.recovery = false → s.is (fFuseBusy d.val) = false → w = mget {} s.fuses.user (1024 * d.val + s.fld (fFuseWord d.val)) →
    (∃ t, exec (.ufuseRead d) s = .next t ∧ t.fld (fFuseLo d.val) = bits w.value.toNat 0 32 ∧
      mget 0 t.latchHi (hardBase d.val + 0x14) = BitVec.ofNat 32 (bits w.value.toNat 32 32) ∧ t.fuses = s.fuses ∧
      (w.ecc = some .uncorrectable → t.is (fFuseErr d.val) = true)) ∧
    (w.programmed = true → ∃ t, exec (.ufuseProgram d) s = .next t ∧ t.is (fFuseErr d.val) = true ∧ { t with regs := s.regs } = s) ∧
    (w.programmed = false → ∃ t, exec (.ufuseProgram d) s = .next t ∧ t.is (fFuseBusy d.val) = true ∧
      mget none t.fusePend d.val = some (1024 * d.val + s.fld (fFuseWord d.val),
        BitVec.ofNat 64 (s.fld (fFuseLo d.val) + 2 ^ 32 * (mget 0 s.latchHi (hardBase d.val + 0x14)).toNat)) ∧ t.fuses = s.fuses)) ∧
  (∀ (d : DieIx) (key : Nat) (v : Word64) (s : State), mget none s.fusePend d.val = some (key, v) →
    ∃ t, exec (.fuseProgramDone d) s = .next t ∧ t.is (fFuseBusy d.val) = false ∧ mget none t.fusePend d.val = none ∧
      mget {} t.fuses.user key = ⟨true, v, none⟩ ∧ (∀ j : Nat, j ≠ key → mget {} t.fuses.user j = mget {} s.fuses.user j)) ∧
  (∀ (i : Fin 8) (level : Bool) (s : State), s.extest = false →
    ∃ t, exec (.gpioLevelChange i level) s = .next t ∧ t.is ⟨0x100 + 4 * i.val, 16, 1⟩ = level ∧ regsSame s t [0x100 + 4 * i.val] ∧
      clustersPlayed s t ∧ t.pins = { s.pins with gpioAt := t.pins.gpioAt } ∧
      { t with regs := s.regs, pins := s.pins, clusters := s.clusters, out := s.out, freeNext := s.freeNext } = s) ∧
  (∀ (i : Fin 8) (level : Bool) (s : State), s.extest = true → exec (.gpioLevelChange i level) s = .next s)

/-! ### Registers and the steward port -/

/-- Windows to the unit memories (04 R111, 06 R162): a write of DATA_LO writes one word and no other, a read gives its two halves, and a playing
unit or a word out of range refuses.
It rests also on the model's choices in notes/assumptions/45.md. -/
def Obligations.WindowsReachMemories : Prop :=
  (∀ (a : Agent) (v : Word32) (k i : Nat) (s : State), k = winKind s a → i = s.fld (fWinWord a) →
    (s.is (fRunning a) = false → i < winSize a k →
      ∃ t, exec (.windowWrite a v) s = .next t ∧ (memOf t a k).word i = BitVec.ofNat 64 (v.toNat + 2 ^ 32 * (winHiOf s a).toNat) ∧
        (memOf t a k).check i = none ∧ (∀ j : Nat, j ≠ i → (memOf t a k).word j = (memOf s a k).word j ∧ (memOf t a k).check j = (memOf s a k).check j) ∧
        (∀ m : Nat, m < 4 → m ≠ k → isDot a = true → memOf t a m = memOf s a m) ∧ (∀ b : Agent, b ≠ a → ∀ m : Nat, memOf t b m = memOf s b m) ∧
        t.fld (fWinWord a) = (if s.is (fWinAuto a) = true then (i + 1) % 2 ^ (fWinWord a).w else i) ∧
        regsSame s t [winAddr a, winAddr a + 4] ∧ { t with regs := s.regs, units := s.units, funs := s.funs } = s) ∧
    (s.is (fRunning a) = true ∨ winSize a k ≤ i →
      ∃ t, exec (.windowWrite a v) s = .next t ∧ t.is (fWinErr a) = true ∧ regsSame s t [winAddr a, (fWinErr a).addr] ∧ { t with regs := s.regs } = s)) ∧
  (∀ (a : Agent) (k i : Nat) (s : State), k = winKind s a → i = s.fld (fWinWord a) → answers s (fWinLo a).addr = true → s.is (fRunning a) = false →
    i < winSize a k →
    ∃ t, exec (.windowRead a) s = .next t ∧
      t.out = .read (fWinLo a).addr (BitVec.ofNat 32 (bits ((memOf s a k).word i).toNat 0 32)) :: s.out ∧
      t.fld (fWinHi a) = bits ((memOf s a k).word i).toNat 32 32 ∧ (∀ (b : Agent) (m : Nat), memOf t b m = memOf s b m) ∧
      { t with regs := s.regs, out := s.out } = s)

/-- Registers of the map (00 R8 to R10; 02 R65, 06 R164, 14 R369, 17 R416): LO_READ_LATCH latches the high word, a read clears what it clears, an
unmapped register or one that recovery does not serve takes no write, sticky bits clear with a 1, and a playing unit's control is kept. WAY_MARGIN.LOW
restarts at 0x1FFF and MAX_OCC at the beats now present. In recovery the commands on other blocks do nothing.
It rests also on the model's choices in notes/assumptions/59.md, notes/assumptions/61.md, notes/assumptions/64.md. -/
def Obligations.RegistersReadAndWrite : Prop :=
  (∀ s : State, answers s 0x20014 = true →
    ∃ t, exec (.loReadLatch .timRun) s = .next t ∧ t.out = .read 0x20014 (BitVec.ofNat 32 s.run.count) :: s.out ∧
      t.fld fRunHi = s.run.count / 2 ^ 32 % 2 ^ 16 ∧ regsSame s t [0x20018] ∧ { t with regs := s.regs, out := s.out } = s) ∧
  (∀ (v : VaIx) (s : State), answers s (vaBase v.val + 0x1C) = true →
    ∃ t, exec (.loReadLatch (.vaLast v)) s = .next t ∧
      t.out = .read (vaBase v.val + 0x1C) (readValue s (vaBase v.val + 0x1C)) :: s.out ∧
      t.raw (vaBase v.val + 0x20) = mget 0 s.latchHi (vaBase v.val + 0x1C) ∧ regsSame s t [vaBase v.val + 0x20] ∧
      { t with regs := s.regs, out := s.out } = s) ∧
  (∀ (addr : Word32) (s : State), 4 * (addr.toNat / 4) = 0x2001C → answers s 0x2001C = true →
    ∃ t, exec (.rcRead addr) s = .next t ∧ t.out = .read 0x2001C (s.raw 0x2001C) :: s.out ∧ t.fld fCommaErr = 0 ∧ t.fld fNumErr = 0 ∧
      t.fld fCmdErr = 0 ∧ t.fld fLossCnt = 0 ∧ regsSame s t [0x2001C] ∧ { t with regs := s.regs, out := s.out } = s) ∧
  (∀ (n : IntakeLane) (addr : Word32) (s : State), s.recovery = false → mapped s (wayBase n.val) = true →
    (4 * (addr.toNat / 4) = wayBase n.val + 4 →
      ∃ t, exec (.rcRead addr) s = .next t ∧ t.out = .read (wayBase n.val + 4) (readValue s (wayBase n.val + 4)) :: s.out ∧
        t.fld (fWayLow n.val) = 0x1FFF ∧ t.fld (fWayLast n.val) = s.fld (fWayLast n.val) ∧ regsSame s t [wayBase n.val + 4] ∧
        { t with regs := s.regs, out := s.out } = s) ∧
    (4 * (addr.toNat / 4) = wayBase n.val + 0xC →
      ∃ t, exec (.rcRead addr) s = .next t ∧ t.out = .read (wayBase n.val + 0xC) (readValue s (wayBase n.val + 0xC)) :: s.out ∧
        t.fld (fWayMaxOcc n.val) = ((s.wayLane n.val).held.map (fun h => h.beats.length)).sum % 128 ∧
        t.is (fWayOverrun n.val) = s.is (fWayOverrun n.val) ∧ t.is (fWayInMap n.val) = s.is (fWayInMap n.val) ∧
        regsSame s t [wayBase n.val + 0xC] ∧ { t with regs := s.regs, out := s.out } = s)) ∧
  (∀ (c : Instr) (a : Agent) (k : ClusterIx) (g : RegionIx) (p : RingIx) (m : MemIx) (d : DieIx) (u : UnitIx) (q : QueueId) (l : LaneId)
    (e : SiteIx) (lead : Fin 32) (i : Fin 64) (h : Fin 16) (f : Bool) (v : Word32) (s : State), s.recovery = true →
    c ∈ [Instr.windowWrite a v, .logFrameLo k v, .logBegin k, .logDone k, .ufuseRead d, .ufuseProgram d, .rgnStart g, .rgnRelease g, .commitRequest g,
      .recoverGo g v, .dropRest q, .invalidate g, .abort g i, .arm g i, .strHqPush g h v, .scrubNow m, .scrubNowRegion g, .fencedWrite u f,
      .timCtrlWrite v, .train l, .lnkBondWrite e v, .linkReset e lead, .detachClear, .hrgDb p v, .frsArm, .frsRelease, .tkSend] →
    exec c s = .next s) ∧
  (∀ (addr v : Word32) (a : Nat) (s : State), a = 4 * (addr.toNat / 4) → (answers s a = false ∨ mapped s a = false) → a ≠ 0x40004 →
    exec (.registerWrite addr v) s = .next s) ∧
  (∀ (addr v : Word32) (s : State), 4 * (addr.toNat / 4) = 0x20004 → answers s 0x20004 = true →
    ∃ t, exec (.registerWrite addr v) s = .next t ∧ t.fld fState = s.fld fState ∧ t.fld fNActive = s.fld fNActive ∧
      t.is fLoss = (s.is fLoss && !v.getLsbD 10) ∧ regsSame s t [0x20004] ∧ { t with regs := s.regs } = s) ∧
  (∀ (addr v : Word32) (s : State), 4 * (addr.toNat / 4) = 0x1010C →
    ∃ t, exec (.registerWrite addr v) s = .next t ∧
      t.raw 0x1010C = BitVec.ofNat 32 (max 200 (min (regReset s 0x1010C).toNat (bits v.toNat 0 11))) ∧ regsSame s t [0x1010C] ∧
      { t with regs := s.regs } = s) ∧
  (∀ (u : UnitIx) (v : Word32) (s : State), answers s (unitBase u.val) = true → s.is (fRunning (.dot u)) = true →
    ∃ t, exec (.registerWrite (BitVec.ofNat 32 (unitBase u.val)) v) s = .next t ∧ t.raw (unitBase u.val) = s.raw (unitBase u.val) ∧
      t.is (fAgentIgnored (.dot u)) = true ∧ regsSame s t [unitBase u.val + 4] ∧ { t with regs := s.regs } = s)

/-- The steward port (13 R352 to R356): identity and status, a read, posted writes in order, the shadow, and the indirect registers.
It rests also on the model's choices in notes/assumptions/52.md, notes/assumptions/64.md. -/
def Obligations.StewardPortServes : Prop :=
  (∀ s : State, stewardUp s = true →
    (exec .readIdentity s = .next { s with out := .steward [readValue s 0, readValue s 4] :: s.out }) ∧
    (exec .readPortStatus s = .next { s with out := .steward [readValue s 0x32004] :: s.out }) ∧
    (exec .shadowRefresh s = .next { s with shadow := some (viewOf s) })) ∧
  (∀ (addr : Word32) (s : State), stewardUp s = true → isLive (4 * (addr.toNat / 4)) = true →
    ∃ t, exec (.readRegisters addr 1) s = .next t ∧ t.out = .steward [(regRead s (4 * (addr.toNat / 4))).1] ::
      (regRead s (4 * (addr.toNat / 4))).2.out) ∧
  (∀ (addr : Word32) (b0 b1 b2 b3 : Byte) (s : State), stewardUp s = true →
    (s.posted.length < 64 → exec (.writeRegisters addr [b0, b1, b2, b3]) s =
      .next { s with posted := s.posted ++ [(4 * (addr.toNat / 4), BitVec.ofNat 32 (b0.toNat + 256 * b1.toNat + 65536 * b2.toNat + 16777216 * b3.toNat))] }) ∧
    (64 ≤ s.posted.length → ∃ t, exec (.writeRegisters addr [b0, b1, b2, b3]) s = .next t ∧ t.is fWrOvf = true ∧ t.posted = s.posted ∧
      regsSame s t [0x32004] ∧ { t with regs := s.regs } = s) ∧
    (s.posted.length < 64 → ∃ t, exec (.writeRegisters addr [b0]) s = .next t ∧ t.is fWrErr = true ∧ t.posted = s.posted ∧
      { t with regs := s.regs } = s)) ∧
  (∀ (a : Nat) (v : Word32) (r : List (Nat × Word32)) (s : State), stewardUp s = true → s.posted = (a, v) :: r → a % 4 = 0 → a < 2 ^ 32 →
    ∃ t, exec .postedWrite s = .next t ∧ exec (.registerWrite (BitVec.ofNat 32 a) v) { s with posted := r } = .next t) ∧
  (∀ s : State, answers s 0x32014 = true → mapped s (4 * (s.fld fIndAddr / 4)) = true →
    (∃ t, exec .indirectRead s = .next t ∧ t.indirect = some false ∧ t.is fIndBusy = true) ∧
    (∃ t, exec .indirectWrite s = .next t ∧ t.indirect = some true ∧ t.is fIndBusy = true)) ∧
  (∀ s : State, s.indirect = some false → answers s 0x20014 = true → s.fld fIndAddr = 0x20014 →
    ∃ t, exec .indirectAccessDone s = .next t ∧ t.fld fIndData = s.run.count % 2 ^ 32 ∧ t.is fIndBusy = false ∧ t.indirect = none) ∧
  (∀ (op ext : Byte) (s : State), stewardUp s = true → (op, ext) ∉ [(0xEE#8, 0x11#8), (0xDE#8, 0x21#8), (0x9F#8, 0x60#8), (0x05#8, 0xFA#8)] →
    ∃ t, exec (.xspiOtherCommand op ext) s = .next t ∧ t.is fCmdErrStw = true ∧ regsSame s t [0x32004] ∧ { t with regs := s.regs } = s)

/-! ### Host rings -/

/-- Rings (13 R330 to R337, R342): doorbells, ENABLE, descriptors, completions and notices as flits of the ring path, moves in steps of 256 KiB, the
timeout of a host read, the end of a lock wait, and what an unsound descriptor or a held configuration lock answers.
It rests also on the model's choices in notes/assumptions/17.md, notes/assumptions/46.md. -/
def Obligations.RingsServeDescriptors : Prop :=
  (∀ (r : RingIx) (v : Word32) (s : State), s.recovery = false →
    (s.is (fHrgEnable r.val) = true → bits v.toNat 0 12 < ringSize s r.val →
      ∃ t, exec (.hrgDb r v) s = .next t ∧ t.fld (fTail r.val) = bits v.toNat 0 12 ∧ t.fld (fHead r.val) = s.fld (fHead r.val) ∧
        t.fld (fDbErr r.val) = s.fld (fDbErr r.val) ∧ regsSame s t [(fTail r.val).addr] ∧ { t with regs := s.regs } = s) ∧
    (s.is (fHrgEnable r.val) = false ∨ ringSize s r.val ≤ bits v.toNat 0 12 →
      ∃ t, exec (.hrgDb r v) s = .next t ∧ t.is (fDbErr r.val) = true ∧ regsSame s t [(fDbErr r.val).addr] ∧ { t with regs := s.regs } = s)) ∧
  (∀ (r : RingIx) (v : Word32) (s : State), s.recovery = false → s.is (fRingActive r.val) = false → (s.raw (ringBase r.val)).getLsbD 0 = false →
    v.getLsbD 0 = true →
    ∃ t, exec (.hrgEnable r v) s = .next t ∧ t.is (fHrgEnable r.val) = true ∧ t.is (fPhase r.val) = true ∧
      t.fld (fSizeLog r.val) = (if bits v.toNat 1 4 < 4 ∨ 12 < bits v.toNat 1 4 then 4 else bits v.toNat 1 4) ∧
      regsSame s t [ringBase r.val, (fPhase r.val).addr] ∧ { t with regs := s.regs } = s) ∧
  (∀ (r : RingIx) (v : Word32) (i : Nat) (b : List Byte) (l : List (Nat × List Byte)) (s : State), s.recovery = false →
    s.is (fRingActive r.val) = false → (s.raw (ringBase r.val)).getLsbD 0 = true → v.getLsbD 0 = false → (s.ring r.val).ahead = (i, b) :: l →
    (s.ring r.val).cur = none →
    ∃ t, exec (.hrgEnable r v) s = .next t ∧ t.is (fHrgEnable r.val) = false ∧ (t.ring r.val).ahead = [] ∧ t.fld (fHead r.val) = i % 2 ^ 12) ∧
  (∀ (r : RingIx) (bytes : List Byte) (s : State), s.is (fHrgEnable r.val) = true → pathHasGroup s r.val = true → s.fld (fHead r.val) ≠ s.fld (fTail r.val) →
    bytes.length = 64 → heldDescs s < 64 →
    ∃ t, exec (.descriptorFetch r bytes) s = .next t ∧ (t.ring r.val).ahead = (s.ring r.val).ahead ++ [(s.fld (fHead r.val), bytes)] ∧
      t.fld (fHead r.val) = (s.fld (fHead r.val) + 1) % ringSize s r.val % 2 ^ 12 ∧ regsSame s t [(fHead r.val).addr] ∧
      pathOut t r.val = pathOut s r.val ++ readsOut s r.val (ringAddr s r.val 0x08 / 64 * 64 + 64 * s.fld (fHead r.val)) 64 ∧
      { t with regs := s.regs, rings := s.rings, ctxs := s.ctxs } = s) ∧
  (∀ (r : RingIx) (i st : Nat) (bytes : List Byte) (res : Word64) (s : State), (s.ring r.val).cur = some ⟨i, bytes, .done st res⟩ →
    onlyPair s r.val →
    ∃ t, exec .engineStep s = .next t ∧
      pathOut t r.val = pathOut s r.val ++
        writeFlits (ringAddr s r.val 0x10 / 16 * 16 + 16 * i) (completionBytes ⟨i, bytes, .done st res⟩ (s.fld (fPhase r.val)) st res) ++
        (if bits (opn bytes 2 2) 0 1 = 1 then [⟨false, BitVec.ofNat 14 (s.fld (fNoticeStream r.val)), true, true, false,
          .notice (noticePayload r.val ⟨i, bytes, .done st res⟩ st)⟩] else []) ∧
      (t.ring r.val).cur = none ∧ (t.ring r.val).ahead = (s.ring r.val).ahead ∧ t.is (fRingActive r.val) = false ∧
      t.fld (fLastStatus r.val) = st % 2 ^ 16 ∧ t.fld (fPhase r.val) = (if i + 1 = ringSize s r.val then 1 - s.fld (fPhase r.val) else s.fld (fPhase r.val)) ∧
      (s.is fEngineLocked = true → s.fld fEngineLockRing = r.val → t.is fEngineLocked = false) ∧
      { t with regs := s.regs, rings := s.rings, ctxs := s.ctxs } = s) ∧
  (∀ (r : RingIx) (i moved k w n : Nat) (bytes given : List Byte) (bad p : Option Nat) (s : State),
    (s.ring r.val).cur = some ⟨i, bytes, .moving moved given [] bad⟩ → onlyPair s r.val → endingPair s = none → opcodeOf bytes = 0x11 →
    wholeWords bytes = true → rangeOk s (opn bytes 0x18 6) (opn bytes 0x20 4) true = true → placeOf s (opn bytes 0x18 6) = .store k w →
    moved % 262144 = 0 → moved < opn bytes 0x20 4 → n = min 262144 (opn bytes 0x20 4 - moved) →
    p = bad.or (((List.range (n / 8)).find? (fun j => (storeRead s k (w + moved / 8 + j)).2)).map (fun j => moved + 8 * j)) →
    ∃ t, exec .engineStep s = .next t ∧
      pathOut t r.val = pathOut s r.val ++
        writeFlits (opn bytes 0x10 6 + moved) ((List.range (n / 8)).flatMap (fun j => leBytes 8 (storeRead s k (w + moved / 8 + j)).1.toNat)) ∧
      (moved + 262144 < opn bytes 0x20 4 → phaseOf t r.val = some (.moving (moved + 262144) given [] p)) ∧
      (opn bytes 0x20 4 ≤ moved + 262144 →
        endsWith t r.val (if p.isSome = true then stPoison else 0) (opn bytes 0x20 4 + 2 ^ 32 * p.getD 0)) ∧
      t.clusters = s.clusters ∧ t.memTiles = s.memTiles) ∧
  (∀ (q r : RingIx) (i moved : Nat) (bytes given : List Byte) (held : List (Word64 × Bool)) (bad : Option Nat) (s : State),
    s.is fEngineBusy = false → hasWork s q.val = true → q.val < r.val → (s.ring r.val).cur = some ⟨i, bytes, .moving moved given held bad⟩ →
    ∃ t, exec .engineStep s = .next t ∧ t.ring r.val = s.ring r.val) ∧
  (∀ (r : RingIx) (op : Nat) (b : List Byte) (s : State), headCommand s r.val op b → readsHost b = true →
    ∃ t, exec (.hostReadTimeout r) s = .next t ∧ endsWith t r.val stHostErr 0 ∧ t.memTiles = s.memTiles ∧ t.image = s.image) ∧
  (∀ (r : RingIx) (i moved : Nat) (bytes given : List Byte) (held : List (Word64 × Bool)) (bad : Option Nat) (s : State),
    (s.ring r.val).cur = some ⟨i, bytes, .moving moved given held bad⟩ → readsHost bytes = true →
    ∃ t, exec (.hostReadTimeout r) s = .next t ∧ endsWith t r.val stHostErr moved ∧ { t with rings := s.rings, ctxs := s.ctxs } = s) ∧
  (∀ (r : RingIx) (i : Nat) (bytes given later prior got : List Byte) (bad : List Nat) (s : State),
    (s.ring r.val).cur = some ⟨i, bytes, .reading given later prior got bad⟩ → readsHost bytes = true →
    ∃ t, exec (.hostReadTimeout r) s = .next t ∧ endsWith t r.val stHostErr 0 ∧ { t with rings := s.rings, ctxs := s.ctxs } = s) ∧
  (∀ (r : RingIx) (bad : Bool) (s : State), phaseOf s r.val = some (.waitLock bad) →
    ∃ t, exec (.loadLockWaitEnd r) s = .next t ∧ t.is fLoading = false ∧
      endsWith t r.val (if 7 ≤ s.fld fState then (if bad = true then stPoison else 0) else stLockPending) (s.fld fLoadSection) ∧
      (∀ im : Image, s.image = some im → t.fld fRegime = (if im.locked = true then 1 else 2))) ∧
  (∀ (c : Instr) (op : Nat) (r : RingIx) (b : List Byte) (s : State),
    (c, op) ∈ [(Instr.readMem r, 0x11), (.copy r, 0x12), (.armRun r, 0x20), (.disarm r, 0x21), (.selectMenu r, 0x22), (.frostHostCommand r, 0x30),
      (.frostRead r, 0x31), (.spyDrain r, 0x32), (.attest r, 0x40), (.scrub r, 0x41), (.linkTrain r, 0x50)] →
    (s.ring r.val).cur = none → (s.ring r.val).ahead.head?.map (fun e => e.2) = some b → opcodeOf b = op → engineServes s r.val = true →
    (validDesc b = false → ∃ t, exec c s = .next t ∧ endsWith t r.val stOpcode 0 ∧ t.is (fRingActive r.val) = true ∧ t.image = s.image) ∧
    (validDesc b = true → exclusive op = true → s.is fEngineLocked = true → s.fld fEngineLockRing ≠ r.val →
      ∃ t, exec c s = .next t ∧ endsWith t r.val stBusy 0 ∧ t.is fArmed = s.is fArmed ∧ t.run = s.run ∧ t.fld fEngineLockRing = s.fld fEngineLockRing))

/-- LOAD_IMAGE, VERIFY_IMAGE and QUANTISE (13 R342, R344; 09 R235 to R238): refusals leave the image, a load replaces it, a changed second read leaves
none. The words of the store and timetable sections land from their start word on in every channel's copy (09 R227). An accepted QUANTISE writes, for
every weight, the code whose level is nearest to w / s + z, and for every group the scale that a pin gives or that is the least to cover its weights
(03 R84 to R86, 13 R345).
It rests also on the model's choices in notes/assumptions/3.md, notes/assumptions/17.md, notes/assumptions/50.md, notes/assumptions/51.md, notes/assumptions/68.md, notes/assumptions/71.md. -/
def Obligations.ImagesLoadAndQuantise : Prop :=
  (∀ (r : RingIx) (b x y : List Byte) (s w : State), headCommand s r.val 1 b → stopsRuns s = false → bits (opn b 0x16 1) 0 1 = 0 →
    0 < opn b 0x18 4 → 2 * opn b 0x18 4 ≤ 262144 → x.length = opn b 0x18 4 → pathHasGroup s r.val = true → opn b 0x20 6 = 0 →
    w = sourceBegun (takeLock (takeHead s r.val) r.val) r.val b x y →
    (∀ e : Nat × Nat, imageError w x true = some e →
      ∃ t, exec (.loadImage r x y) s = .next t ∧ endsWith t r.val e.1 e.2 ∧ t.raw 0x000C = BitVec.ofNat 32 (e.1 + 2 ^ 16 * e.2) ∧
        t.image = s.image ∧ t.units = s.units ∧ t.clusters = s.clusters) ∧
    (imageError w x true = none → y = x → (headerOf x).n = s.n →
      ∃ t im n z, exec (.loadImage r x y) s = .next t ∧ endsWith t r.val 0 n ∧ t.image = some im ∧ im.digest = sha256 x ∧
        im.n = (headerOf x).n ∧ im.locked = (headerOf x).locked ∧ t.fld fRegime = (if im.locked = true then 1 else 2) ∧ t.is fLoading = false ∧
        z = placeAll (headerOf x) (sectsOf x (headerOf x)) (placements (headerOf x)) (unloadImage w) ∧
        (∀ k : Nat, (t.cluster k).store = (z.cluster k).store) ∧
        (∀ (u : UnitIx) (k : Nat), k < 3 → memOf t (.dot u) k = memOf z (.dot u) k) ∧
        (∀ a : Agent, t.idleRegion (clusterRegion (aCluster a)) = false → memOf t a 3 = memOf z a 3)) ∧
    (imageError w x true = none → y.length = x.length → sha256 y ≠ sha256 x →
      ∃ t, exec (.loadImage r x y) s = .next t ∧ endsWith t r.val stImageChanged 0 ∧ t.image = none ∧ t.fld fRegime = 0)) ∧
  (∀ (r : RingIx) (b x : List Byte) (s w : State), headCommand s r.val 2 b → bits (opn b 0x16 1) 0 1 = 0 → 0 < opn b 0x18 4 →
    opn b 0x18 4 ≤ 262144 → x.length = opn b 0x18 4 → pathHasGroup s r.val = true →
    w = writeDigest (sourceBegun (takeHead s r.val) r.val b x []) r.val b (sha256 x) →
    ∃ t n, exec (.verifyImage r x) s = .next t ∧
      endsWith t r.val ((imageError w x false).map (fun e => e.1) |>.getD 0) n ∧
      t.image = s.image ∧ t.units = s.units ∧ t.clusters = s.clusters ∧ t.run = s.run ∧
      pathOut t r.val = pathOut s r.val ++ readsOut s r.val (opn b 0x10 6) (opn b 0x18 4) ++
        (if 0 < opn b 0x20 6 then writeFlits (opn b 0x20 6) (sha256 x) else [])) ∧
  (∀ (c : Instr) (op : Nat) (r : RingIx) (b x y : List Byte) (s : State), (c, op) ∈ [(Instr.loadImage r x y, 1), (.verifyImage r x, 2)] →
    headCommand s r.val op b → (op = 1 → stopsRuns s = false) →
    (opn b 0x18 4 = 0 ∨ (opn b 0x20 6 ≠ 0 ∧ pathHasGroup s r.val = false) ∨ (fromPackage b = false ∧ pathHasGroup s r.val = false) ∨
      (fromPackage b = true ∧ (opn b 0x10 6 % 8 ≠ 0 ∨ rangeOk s (opn b 0x10 6) (opn b 0x18 4) true = false))) →
    ∃ t, exec c s = .next t ∧ endsWith t r.val stRange 0 ∧ t.image = s.image ∧ t.units = s.units ∧ pathOut t r.val = pathOut s r.val) ∧
  (∀ (r : RingIx) (b x y : List Byte) (n k w : Nat) (s : State), headCommand s r.val 2 b → fromPackage b = true → n = opn b 0x18 4 → n ≤ 262144 →
    opn b 0x10 6 % 8 = 0 → rangeOk s (opn b 0x10 6) n true = true → placeOf s (opn b 0x10 6) = .store k w → opn b 0x20 6 ≠ 0 →
    pathHasGroup s r.val = true → y = ((List.range ((n + 7) / 8)).flatMap (fun i => leBytes 8 (storeRead s k (w + i)).1.toNat)).take n →
    ∃ t, exec (.verifyImage r x) s = .next t ∧ pathOut t r.val = pathOut s r.val ++ writeFlits (opn b 0x20 6) (sha256 y) ∧ t.image = s.image ∧
      t.units = s.units ∧ t.clusters = s.clusters) ∧
  (∀ (r : RingIx) (b x : List Byte) (s : State), headCommand s r.val 3 b →
    (s.image = none ∨ s.lockedImage = false ∨ s.armed = true →
      ∃ t, exec (.quantise r x) s = .next t ∧ endsWith t r.val stState 0 ∧ t.units = s.units ∧ t.trust = s.trust) ∧
    (∀ (im : Image) (l : Layer), s.image = some im → im.locked = true → s.armed = false → im.layers[opn b 0x1C 2]? = some l →
      (∀ p ∈ l.places, ∀ g ∈ unitsOf im p, s.is (fRunning (.dot (Fin.ofNat 4096 g))) = false) → opn b 0x18 4 = l.out * l.inp →
      layerOk im l = true → formatsDiffer s im l = false → layerRefused s im l = false → bits (opn b 0x16 1) 0 1 = 0 →
      x.length = l.out * l.inp * inWidth (bits (opn b 0x16 1) 1 2) → 0 < x.length → x.length ≤ 262144 → pathHasGroup s r.val = true →
      (∀ i : Nat, i < l.out * l.inp → weightRefused (sourceWeight (bits (opn b 0x16 1) 1 2) x i) = false) →
      ∃ t n, exec (.quantise r x) s = .next t ∧ endsWith t r.val 0 n ∧ t.trust.quantCount = min 65535 (s.trust.quantCount + 1) ∧
        t.trust.quantDigest = sha256 (s.trust.quantDigest ++ (b.drop 0x1C).take 2 ++ leBytes 1 (bits (opn b 0x16 1) 1 2) ++ x) ∧
        t.image = s.image ∧ t.memTiles = s.memTiles ∧
        (∀ (p : LayerPlace) (g g0 o j i at_ : Nat) (ws : Nat → Int) (ls : List Int) (z : Int) (sc : Nat × Nat), l.places = [p] → g ∈ unitsOf im p →
          g0 = (unitsOf im p).headD 0 → o < 32 → j < p.ni / l.g → i < l.g →
          ws = (fun k => (sourceWeight (bits (opn b 0x16 1) 1 2) x k).getD 0) → ls = layerLevels s im l →
          z = groupZero s im l p o j → sc = groupScale s im ws ls l p o j →
          at_ = 32 * ((p.row + j * (l.g / perRow l.format) + i / perRow l.format + s.fld (fMenuBase g0 p.menu)) % 512) →
          codeOf (t.unit g).weight at_ l.format (perRow l.format * o + i % perRow l.format) =
            codeFor ls sc z (if p.o0 + o < l.out then ws ((p.o0 + o) * l.inp + p.i0 + l.g * j + i) else 0) ∧
          scaleWord (t.unit g).scale (p.set + j) o = sc ∧
          (∀ q : LayerPin, pinOf l (p.o0 + o) (p.i0 / l.g + j) = some q → z = q.zp ∧ zeroPoint (t.unit g).zp (p.zp + j) o = z)))) ∧
  (∀ (ws : List Int) (hi lo pos neg : Int) (m x : Nat), 1 ≤ hi → 1 ≤ lo → (∀ w ∈ ws, w ≤ pos ∧ -w ≤ neg) → (pos = 0 ∨ 0 < pos ∧ pos ∈ ws) →
    (neg = 0 ∨ 0 < neg ∧ -neg ∈ ws) → pos < 2 ^ 188 → neg < 2 ^ 188 → (m, x) = chooseScale ws hi lo →
    (pos = 0 → neg = 0 → m = 0 ∧ x = 0) ∧
    (0 < pos + neg → 1 ≤ m ∧ m ≤ 255 ∧ x ≤ 63 ∧ pos ≤ m * 2 ^ (x + 118) * hi ∧ neg ≤ m * 2 ^ (x + 118) * lo ∧
      (∀ y : Nat, y < x → 255 * 2 ^ (y + 118) * hi < pos ∨ 255 * 2 ^ (y + 118) * lo < neg) ∧
      (∀ k : Nat, 1 ≤ k → k < m → k * 2 ^ (x + 118) * hi < pos ∨ k * 2 ^ (x + 118) * lo < neg))) ∧
  (∀ (ls : List Int) (sc : Nat × Nat) (w z d n : Int) (k : Nat), ls ≠ [] → ls.Pairwise (fun a b => a < b) → k = codeFor ls sc z w →
    d = (if sc.1 = 0 then 1 else sc.1 * 2 ^ (sc.2 + 118)) → n = (if sc.1 = 0 then 0 else w) →
    (k < ls.length ∧ (∀ c : Nat, c < ls.length → (n + (z - ls.getD k 0) * d).natAbs ≤ (n + (z - ls.getD c 0) * d).natAbs ∧
      (c ≠ k → (n + (z - ls.getD k 0) * d).natAbs = (n + (z - ls.getD c 0) * d).natAbs → k % 2 = 0)))) ∧
  (∀ (h : Hdr) (n : Nat) (p : Placement) (s t : State) (x : Sect) (u : UnitIx), t = placeSection h n p s x →
    u = Fin.ofNat 4096 (placedUnit p x.treg x.cluster x.unit) →
    (∀ (kind start : Nat) (ws : List Word64), (x.typ, kind, start, ws) ∈ [(1, 3, 0, (w64s x.data).map (relabelDot p)),
        (3, 0, nAt x.data 0 4, w64s (x.data.drop 8)), (4, 1, nAt x.data 0 4, w64s (x.data.drop 8)), (5, 2, nAt x.data 0 4, w64s (x.data.drop 8))] →
      (∀ i : Nat, i < ws.length → (memOf t (.dot u) kind).word (start + i) = ws.getD i 0) ∧
      (∀ i : Nat, i < start ∨ start + ws.length ≤ i → (memOf t (.dot u) kind).word i = (memOf s (.dot u) kind).word i) ∧
      (∀ (a : Agent) (k : Nat), a ≠ .dot u ∨ k < 3 ∧ k ≠ kind → memOf t a k = memOf s a k)) ∧
    (∀ (i a k : Nat), x.typ = 8 → k = placedCluster p x.treg x.cluster → i + 8 < x.data.length → a = nAt x.data 0 4 + i →
      (leBytes 8 ((t.cluster k).store.word (a / 8)).toNat).getD (a % 8) 0 = x.data.getD (8 + i) 0))

/-- WRITE_MEM, READ_MEM and COPY of one word (13 R341; 10 R246): the word goes where its address lies, poison with it, and no other word of a
memory tile changes.
It rests also on the model's choices in notes/assumptions/17.md. -/
def Obligations.HostMovesMemory : Prop :=
  (∀ (r : RingIx) (b data : List Byte) (a : Nat) (s : State), headCommand s r.val 0x10 b → a = opn b 0x10 6 → wholeWords b = true → opn b 0x20 4 = 8 →
    data.length = 8 → rangeOk s a 8 false = true → pathHasGroup s r.val = true → hostMay s a = true →
    ∃ t, exec (.writeMem r data) s = .next t ∧ endsWith t r.val 0 8 ∧ pathOut t r.val = pathOut s r.val ++ readsOut s r.val (opn b 0x18 6) 8 ∧
      (∀ m w : Nat, placeOf s a = .tile m w → (t.memTile m).word w = BitVec.ofNat 64 (leNat data) ∧ (t.memTile m).check w = none ∧
        (∀ j v : Nat, (j, v) ≠ (m, w) → (t.memTile j).word v = (s.memTile j).word v) ∧ t.clusters = s.clusters) ∧
      (∀ k w : Nat, placeOf s a = .store k w → (t.cluster k).store.word w = BitVec.ofNat 64 (leNat data) ∧
        (∀ v : Nat, v ≠ w → (t.cluster k).store.word v = (s.cluster k).store.word v) ∧ t.memTiles = s.memTiles)) ∧
  (∀ (r : RingIx) (b : List Byte) (a : Nat) (s : State), headCommand s r.val 0x11 b → a = opn b 0x18 6 → wholeWords b = true → opn b 0x20 4 = 8 →
    rangeOk s a 8 true = true → pathHasGroup s r.val = true → hostMay s a = true → ∀ m w : Nat, placeOf s a = .tile m w →
    ∃ t, exec (.readMem r) s = .next t ∧ pathOut t r.val = pathOut s r.val ++ writeFlits (opn b 0x10 6) (leBytes 8 ((s.memTile m).word w).toNat) ∧
      endsWith t r.val (if (s.memTile m).check w = some .uncorrectable then stPoison else 0) 8 ∧
      (∀ j v : Nat, (t.memTile j).word v = (s.memTile j).word v)) ∧
  (∀ (r : RingIx) (b : List Byte) (s : State) (m w n v : Nat), headCommand s r.val 0x12 b → wholeWords b = true → opn b 0x20 4 = 8 →
    placeOf s (opn b 0x18 6) = .tile m w → placeOf s (opn b 0x10 6) = .tile n v → rangeOk s (opn b 0x10 6) 8 false = true →
    rangeOk s (opn b 0x18 6) 8 true = true → hostMay s (opn b 0x18 6) = true →
    (m ≠ n → hostMay s (opn b 0x10 6) = true →
      ∃ t, exec (.copy r) s = .next t ∧ (t.memTile n).word v = (s.memTile m).word w ∧
        ((s.memTile m).check w = some .uncorrectable → (t.memTile n).check v = some .uncorrectable ∧ endsWith t r.val stPoison 8) ∧
        ((s.memTile m).check w ≠ some .uncorrectable → (t.memTile n).check v = none ∧ endsWith t r.val 0 8) ∧
        (∀ j u : Nat, (j, u) ≠ (n, v) → (t.memTile j).word u = (s.memTile j).word u)) ∧
    (m = n →
      ∃ t, exec (.copy r) s = .next t ∧ t.memTiles = s.memTiles ∧ ∃ bad : Option Nat,
        phaseOf t r.val = some (.moving 0 [] [((s.memTile m).word w, decide ((s.memTile m).check w = some .uncorrectable))] bad))) ∧
  (∀ (r : RingIx) (b : List Byte) (a : Nat) (s : State), headCommand s r.val 0x11 b → a = opn b 0x18 6 → wholeWords b = true →
    rangeOk s a (opn b 0x20 4) true = true → pathHasGroup s r.val = true → hostMay s a = false →
    ∃ t, exec (.readMem r) s = .next t ∧ phaseOf t r.val = some (.moving 0 [] [] none) ∧ pathOut t r.val = pathOut s r.val ∧ t.memTiles = s.memTiles)

/-- The other host commands (13 R340, R343, R346, R350; 14 R374; 15 R385, R386; 16 R402).
It rests also on the model's choices in notes/assumptions/4.md, notes/assumptions/17.md, notes/assumptions/53.md, notes/assumptions/54.md. -/
def Obligations.HostCommandsTakeEffect : Prop :=
  (∀ (r : RingIx) (b : List Byte) (s : State), headCommand s r.val 0x20 b → stopsRuns s = false →
    (armError (takeLock (takeHead s r.val) r.val) = none → ∃ t, exec (.armRun r) s = .next t ∧ t.is fArmed = true ∧ endsWith t r.val 0 0 ∧ t.run = s.run) ∧
    (∀ e : Nat × Nat, armError (takeLock (takeHead s r.val) r.val) = some e →
      ∃ t, exec (.armRun r) s = .next t ∧ t.is fArmed = s.is fArmed ∧ endsWith t r.val e.1 e.2)) ∧
  (∀ (r : RingIx) (b : List Byte) (s : State), headCommand s r.val 0x21 b →
    (s.is fArmed = false → ∃ t, exec (.disarm r) s = .next t ∧ endsWith t r.val 0 0 ∧ t.run = s.run ∧ t.pendTable = s.pendTable) ∧
    (s.is fArmed = true → s.run.started = true → s.stagedImage = false → s.run.stop = none → s.pendTable.length < 16 →
      (∀ e ∈ s.pendTable, e.code = .runStop → e.x ≠ s.clock.xseq + 2) →
      ∃ t, exec (.disarm r) s = .next t ∧ t.pendTable = s.pendTable ++ [⟨.runStop, s.clock.xseq + 2, 0, true, some r.val⟩] ∧
        phaseOf t r.val = some .waitStop ∧ t.run = s.run) ∧
    (s.is fArmed = true → s.run.started = false →
      ∃ t, exec (.disarm r) s = .next t ∧ endsWith t r.val 0 0 ∧ t.is fArmed = false ∧ t.run.started = false ∧ t.pendTable = s.pendTable) ∧
    (s.is fArmed = true → s.run.started = true → s.stagedImage = true →
      ∃ t, exec (.disarm r) s = .next t ∧ phaseOf t r.val = some .waitStop ∧ t.run = { s.run with step0Stop := some s.clock.xseq } ∧
        t.is fArmed = true ∧ t.pendTable = s.pendTable) ∧
    (s.is fArmed = true → s.run.started = true → s.stagedImage = false → s.run.stop ≠ none →
      ∃ t, exec (.disarm r) s = .next t ∧ phaseOf t r.val = some .waitStop ∧ t.run = s.run ∧ t.pendTable = s.pendTable) ∧
    (s.is fArmed = true → s.run.started = true → s.stagedImage = false → s.run.stop = none → 16 ≤ s.pendTable.length →
      ∃ t, exec (.disarm r) s = .next t ∧ endsWith t r.val stSched 0 ∧ t.is fArmed = true ∧ t.run = s.run ∧ t.pendTable = s.pendTable)) ∧
  (∀ (c : Instr) (op : Nat) (code : PendCode) (r : RingIx) (b : List Byte) (s : State),
    (c, op, code) ∈ [(Instr.selectMenu r, 0x22, PendCode.menuSelect), (.frostHostCommand r, 0x30, .frost)] → headCommand s r.val op b →
    (code = .menuSelect → menuEnabled s (a3Of b) = true ∧ a3Of b < 16 ∧ (s.stagedImage = true → s.run.started = false)) →
    (accepts s code (refOf b) (a3Of b) = true →
      ∃ t, exec c s = .next t ∧ endsWith t r.val 0 0 ∧
        t.pendTable = s.pendTable ++ [⟨code, s.clock.xseq + refDistance s (refOf b), a3Of b, true, none⟩]) ∧
    (accepts s code (refOf b) (a3Of b) = false →
      ∃ t, exec c s = .next t ∧ endsWith t r.val stSched 0 ∧ t.pendTable = s.pendTable ∧ t.fld fCmdErr = min 255 (s.fld fCmdErr + 1))) ∧
  (∀ (r : RingIx) (b : List Byte) (s : State), headCommand s r.val 0x31 b →
    (s.is fHeld = false → ∃ t, exec (.frostRead r) s = .next t ∧ endsWith t r.val stState 0 ∧ t.frost = s.frost) ∧
    (s.is fHeld = true → opn b 0x18 4 % 8 = 0 → opn b 0x20 4 = 8 → opn b 0x18 4 + 8 ≤ 0x4200000 → pathHasGroup s r.val = true →
      ∃ t, exec (.frostRead r) s = .next t ∧ endsWith t r.val 0 8 ∧ t.frost = s.frost ∧
        pathOut t r.val = pathOut s r.val ++ writeFlits (opn b 0x10 6) (leBytes 8 (shadowWord s (opn b 0x18 4)).toNat)) ∧
    (s.is fHeld = true → (opn b 0x18 4 % 8 ≠ 0 ∨ opn b 0x20 4 % 8 ≠ 0 ∨ opn b 0x20 4 = 0 ∨ 0x4200000 < opn b 0x18 4 + opn b 0x20 4 ∨
        pathHasGroup s r.val = false) →
      ∃ t, exec (.frostRead r) s = .next t ∧ endsWith t r.val stRange 0 ∧ pathOut t r.val = pathOut s r.val ∧ t.frost = s.frost)) ∧
  (∀ (r : RingIx) (b : List Byte) (rec_ : List Word64) (l : List (List Word64)) (s : State), headCommand s r.val 0x32 b → pathHasGroup s r.val = true →
    s.spy (bits (opn b 0x1C 1) 0 3) = ⟨rec_ :: l, []⟩ → bits (opn b 0x1C 1) 3 1 = 0 → 0 < rec_.length → opn b 0x18 4 / 8 = rec_.length →
    (∀ x ∈ l, x ≠ []) →
    ∃ t, exec (.spyDrain r) s = .next t ∧
      (t.spy (bits (opn b 0x1C 1) 0 3)).records = l ∧ (t.spy (bits (opn b 0x1C 1) 0 3)).rest = [] ∧
      pathOut t r.val = pathOut s r.val ++ writeFlits (opn b 0x10 6) (rec_.flatMap (fun w => leBytes 8 w.toNat)) ∧
      endsWith t r.val 0 (8 * rec_.length + 2 ^ 32)) ∧
  (∀ (r : RingIx) (b : List Byte) (s : State), headCommand s r.val 0x40 b → pathHasGroup s r.val = true →
    ∃ t x, exec (.attest r) s = .next t ∧ endsWith t r.val 0 0x180 ∧ x = reportBody s ((b.drop 0x10).take 32) ∧
      pathOut t r.val = pathOut s r.val ++ writeFlits (opn b 0x30 6) (x ++ ecdsaSign s.fuses.idPrivate (sha256 x))) ∧
  (∀ (r : RingIx) (b : List Byte) (s : State), headCommand s r.val 0x41 b →
    ∃ t, exec (.scrub r) s = .next t ∧ endsWith t r.val 0 0 ∧
      (∀ m : Nat, m < 8 → (opn b 0x10 1).testBit m = true → memExists s m = true → t.is (fScrubbing s m) = true) ∧
      (opn b 0x11 1 = 1 → ∀ g : Nat, g < 64 → (t.region g).nowRegion = true) ∧ t.memTiles = s.memTiles) ∧
  (∀ (r : RingIx) (b : List Byte) (s : State), headCommand s r.val 0x50 b →
    ∃ t, exec (.linkTrain r) s = .next t ∧
      phaseOf t r.val = some (.waitTrain (opn b 0x10 1) (decide (opn b 0x11 1 = 1)) (BitVec.ofNat 64 (opn b 0x18 8)))) ∧
  (∀ (r : RingIx) (found : BistResult) (b : List Byte) (s : State), headCommand s r.val 0x51 b →
    (s.fld fRegime ≠ 0 → ∃ t, exec (.bist r found) s = .next t ∧ endsWith t r.val stState 0 ∧ t.units = s.units) ∧
    (s.fld fRegime = 0 → opn b 0x10 1 = 1 →
      ∃ t, exec (.bist r found) s = .next t ∧ phaseOf t r.val = some (.testing found ((List.range 15).map (fun d => (0, d + 1)))) ∧
        t.memTiles = s.memTiles ∧
        (∀ u : UnitIx, u.val < 256 →
          t.is (fFenced u.val) = found.units.contains u ∧ t.is (fBistRun u.val) = true ∧ (t.unit u.val).weight.words = []) ∧
        (∀ u : UnitIx, 256 ≤ u.val → t.is (fFenced u.val) = s.is (fFenced u.val) ∧ t.unit u.val = s.unit u.val))) ∧
  (∀ (r : RingIx) (found : BistResult) (i d : Nat) (bytes : List Byte) (left : List (Nat × Nat)) (s : State),
    (s.ring r.val).cur = some ⟨i, bytes, .testing found ((0, d) :: left)⟩ → d < 16 → opn bytes 0x10 1 = 1 → onlyPair s r.val → endingPair s = none →
    ∃ t, exec .engineStep s = .next t ∧ t.memTiles = s.memTiles ∧
      (left ≠ [] → phaseOf t r.val = some (.testing found left)) ∧ (left = [] → endsWith t r.val 0 (unitDies found)) ∧
      (∀ u : UnitIx, u.val / 256 = d →
        t.is (fFenced u.val) = found.units.contains u ∧ t.is (fBistRun u.val) = true ∧ (t.unit u.val).weight.words = []) ∧
      (∀ u : UnitIx, u.val / 256 ≠ d → t.is (fFenced u.val) = s.is (fFenced u.val) ∧ t.unit u.val = s.unit u.val)) ∧
  (∀ (r : RingIx) (longest : Nat) (b : List Byte) (s : State), headCommand s r.val 0x52 b →
    (s.image ≠ none ∨ s.armed = true → ∃ t, exec (.barrierTest r longest) s = .next t ∧ endsWith t r.val stState 0) ∧
    (s.image = none → s.armed = false → opn b 0x12 1 = 0 →
      ∃ t, exec (.barrierTest r longest) s = .next t ∧ phaseOf t r.val = some (.waitBarriers false (opn b 0x10 2) (opn b 0x10 2) longest) ∧
        t.stage = s.stage))

/-! ### Memory, streams and barriers -/

/-- Memory tiles (10 R245 to R249, 07 R180): a write or read of a tile is an access of whoever holds its port. With the port granted to a host
transfer, a WRITE flit or a move's burst stores its words and no other byte of memory changes, and a READ flit or a move's read changes no word and
counts what link ECC and inline SECDED find; a descriptor writes with both of its ports granted, and the patrol scrub reads in an idle cycle. An access
that nobody makes does nothing; refresh takes the port; the scrub rewrites the words it corrects.
It rests also on the model's choices in notes/assumptions/16.md, notes/assumptions/17.md, notes/assumptions/22.md, notes/assumptions/34.md. -/
def Obligations.MemoryTilesKeepWords : Prop :=
  (∀ (m : MemIx) (addr n x : Nat) (a : BitVec 48) (bytes : List Byte) (data : List Word64) (link : LinkEcc) (f : Flit) (s : State),
    memExists s m.val = true → grantee s (.memory m) = some .host → hostJob s m.val = some (.context x) → s.fld (fCtxKind x) = 4 →
    (s.ctx x).buf = [f] → f.body = .write a bytes → (s.ctx x).words = [] → a.toNat % 8 = 0 → bytes.length = 8 * n → 1 ≤ n →
    a.toNat % 64 + 8 * n ≤ 64 → tileOf s a.toNat = some (m.val, addr / 8) → groupsEmpty s → (s.ctx x).due + 1 < 8 →
    ∃ t, exec (.memoryWrite m addr data link) s = .next t ∧
      (∀ i : Nat, i < n → (t.memTile m.val).word (addr / 8 + i) = BitVec.ofNat 64 (leNat (slice bytes (8 * i) 8)) ∧
        (t.memTile m.val).check (addr / 8 + i) = writtenCheck (linkError link i)) ∧
      (∀ j w : Nat, j ≠ m.val ∨ w < addr / 8 ∨ addr / 8 + n ≤ w →
        (t.memTile j).word w = (s.memTile j).word w ∧ (t.memTile j).check w = (s.memTile j).check w) ∧
      t.fld (fLinkCe s m.val) = min 255 (s.fld (fLinkCe s m.val) + link.corrected) ∧ regsSame s t [(fLinkCe s m.val).addr, (fBufUsed x).addr] ∧
      t.arb (.memory m) = { s.arb (.memory m) with served := true } ∧ (t.ctx x).buf = [] ∧ (t.ctx x).outq = (s.ctx x).outq ∧
      { t with regs := s.regs, memTiles := s.memTiles, memHeld := s.memHeld, memArb := s.memArb, ctxs := s.ctxs } = s) ∧
  (∀ (m : MemIx) (addr x : Nat) (a : BitVec 48) (tag : Byte) (link : LinkEcc) (e : Option Ecc) (f : Flit) (s : State), memExists s m.val = true →
    grantee s (.memory m) = some .host → hostJob s m.val = some (.context x) → s.fld (fCtxKind x) = 4 → (s.ctx x).buf = [f] →
    f.body = .read a 7 tag → (s.ctx x).words = [] → a.toNat % 8 = 0 → tileOf s a.toNat = some (m.val, addr / 8) → groupsEmpty s →
    (s.ctx x).due + 1 < 8 → e = linkCheck ((s.memTile m.val).check (addr / 8)) (linkError link 0) →
    ∃ t, exec (.memoryRead m addr 1 link) s = .next t ∧ t.memTiles = s.memTiles ∧
      (t.ctx x).outq = (s.ctx x).outq ++ [⟨false, 0, true, true, false, .data tag 0 false (leBytes 8 ((s.memTile m.val).word (addr / 8)).toNat)⟩] ∧
      (t.ctx x).buf = [] ∧
      t.fld (fMemCe s m.val) = (if e = some .correctable then min 65535 (s.fld (fMemCe s m.val) + 1) else s.fld (fMemCe s m.val)) ∧
      t.fld (fMemUe s m.val) = (if e = some .uncorrectable then min 255 (s.fld (fMemUe s m.val) + 1) else s.fld (fMemUe s m.val)) ∧
      t.fld (fLinkCe s m.val) = min 255 (s.fld (fLinkCe s m.val) + link.corrected) ∧
      (e = some .uncorrectable → s.is (fUeValid s m.val) = false →
        t.is (fUeValid s m.val) = true ∧ t.fld (fUeAddrLo s m.val) = addr / 8 * 8 % 2 ^ 32 ∧ t.fld (fUeAddrHi s m.val) = addr / 8 * 8 / 2 ^ 32) ∧
      { t with regs := s.regs, memHeld := s.memHeld, memArb := s.memArb, ctxs := s.ctxs } = s) ∧
  (∀ (m : MemIx) (addr r moved a len : Nat) (given : List Byte) (held : List (Word64 × Bool)) (bad : Option Nat) (data : List Word64) (link : LinkEcc)
    (c : RingCmd) (s : State), memExists s m.val = true → grantee s (.memory m) = some .host → hostJob s m.val = some (.pair r) →
    r = s.fld fEngineRing → (s.ring r).cur = some c → c.phase = .moving moved given held bad → len = opn c.bytes 0x20 4 →
    (opcodeOf c.bytes = 0x10 →
      a = opn c.bytes 0x10 6 + moved → held ≠ [] → held.any (fun p => p.2) = false → tileOf s a = some (m.val, addr / 8) → a % 8 = 0 →
      a % 64 + 8 * held.length ≤ 64 → moved + 8 * held.length < len → moved % 262144 + 8 * held.length ≤ 262144 →
      ∃ t, exec (.memoryWrite m addr data link) s = .next t ∧
        (∀ i : Nat, i < held.length → (t.memTile m.val).word (addr / 8 + i) = (held.getD i (0, false)).1 ∧
          (t.memTile m.val).check (addr / 8 + i) = writtenCheck (linkError link i)) ∧
        (∀ j w : Nat, j ≠ m.val ∨ w < addr / 8 ∨ addr / 8 + held.length ≤ w →
          (t.memTile j).word w = (s.memTile j).word w ∧ (t.memTile j).check w = (s.memTile j).check w) ∧
        (t.ring r).cur = some { c with phase := .moving (moved + 8 * held.length) given [] bad } ∧
        t.fld (fLinkCe s m.val) = min 255 (s.fld (fLinkCe s m.val) + link.corrected) ∧
        t.arb (.memory m) = { s.arb (.memory m) with served := true }) ∧
    (∀ n : Nat, opcodeOf c.bytes = 0x11 → a = opn c.bytes 0x18 6 + moved → held = [] → tileOf s a = some (m.val, addr / 8) → a % 8 = 0 →
      n = min (len - moved) (min (262144 - moved % 262144) (64 - a % 64)) / 8 → len % 8 = 0 → moved % 8 = 0 → moved < len → link.passed = [] →
      (∀ j : Nat, j < n → (s.memTile m.val).check (addr / 8 + j) = none) →
      ∃ t, exec (.memoryRead m addr n link) s = .next t ∧ t.memTiles = s.memTiles ∧
        (t.ring r).cur = some { c with phase := .moving moved given ((List.range n).map (fun j => ((s.memTile m.val).word (addr / 8 + j), false))) bad } ∧
        t.fld (fLinkCe s m.val) = min 255 (s.fld (fLinkCe s m.val) + link.corrected) ∧
        t.arb (.memory m) = { s.arb (.memory m) with served := true })) ∧
  (∀ (r : RegionIx) (q : Requester) (i w k v : Nat) (x : List Word32) (d : Desc) (m : MemIx) (addr : Nat) (data : List Word64) (link : LinkEcc)
    (s : State), memExists s m.val = true → grantee s (.cache r) = some q → grantedDesc s r.val q = some i →
    grantee s (.memory m) = some (.desc r (Fin.ofNat 64 i)) → i < 64 → d = s.desc r.val i → d.running = some x → d.stopping = none → d.reqs = [] →
    d.pins = [] → d.written = 0 → d.requested = 8 → snapIdxEn x = false → snapSkind x = 6 → snapDkind x = 0 →
    placeOf s (snapDst x) = .tile m.val w → addr / 8 = w →
    bufferWord s r.val (bufferOf d 6 (snapSrc x)) (kindOffset 6 (snapSrc x)) = some (k, v) → (s.cluster k).store.check v = none →
    noPinWaits s r.val →
    ∃ t, exec (.memoryWrite m addr data link) s = .next t ∧ (t.memTile m.val).word w = (s.cluster k).store.word v ∧
      (t.memTile m.val).check w = writtenCheck (linkError link 0) ∧ t.fld (fLinkCe s m.val) = min 255 (s.fld (fLinkCe s m.val) + link.corrected) ∧
      (∀ j u : Nat, (j, u) ≠ (m.val, w) → (t.memTile j).word u = (s.memTile j).word u ∧ (t.memTile j).check u = (s.memTile j).check u) ∧
      (t.desc r.val i).written = 8 ∧
      { t with regs := s.regs, regions := s.regions, memTiles := s.memTiles, memHeld := s.memHeld, memArb := s.memArb } = s) ∧
  (∀ (m : MemIx) (addr n : Nat) (data : List Word64) (link : LinkEcc) (s : State), memExists s m.val = true →
    (∀ write : Bool, (∀ r a : Nat, hostJob s m.val = some (.pair r) → pairAccess s r = some (a, write) → tileOf s a ≠ some (m.val, addr / 8)) →
      (∀ x a : Nat, hostJob s m.val = some (.context x) → contextAccess s x = some (a, write) → tileOf s a ≠ some (m.val, addr / 8)) →
      grantee s (.memory m) = some .host → exec (if write = true then .memoryWrite m addr data link else .memoryRead m addr n link) s = .next s) ∧
    (grantee s (.memory m) = none → exec (.memoryWrite m addr data link) s = .next s) ∧
    (∀ q : Requester, grantee s (.memory m) = some q → q ≠ .host → exec (.memoryRead m addr n link) s = .next s) ∧
    (s.is (fScrubEnM s m.val) = false → s.is (fScrubNowM s m.val) = false → grantee s (.memory m) = none →
      exec (.memoryRead m addr n link) s = .next s)) ∧
  (∀ (m : MemIx) (b n : Nat) (link : LinkEcc) (s : State), memExists s m.val = true → s.is (fScrubEnM s m.val) = true ∨ s.is (fScrubNowM s m.val) = true →
    (s.arb (.memory m)).busy = false → (s.arb (.memory m)).emergency = false → (s.arb (.memory m)).parked = [] → b = s.fld (fScrubBlock s m.val) →
    link.passed = [] →
    ∃ t, exec (.memoryRead m (448 * b) n link) s = .next t ∧ t.fld (fScrubBlock s m.val) = (b + 1) % 2 ^ 26 ∧
      (∀ j w : Nat, (t.memTile j).word w = (s.memTile j).word w) ∧
      (∀ j w : Nat, (t.memTile j).check w = (if j = m.val ∧ w / 56 = b ∧ (s.memTile j).check w = some .correctable then none
        else (s.memTile j).check w)) ∧
      t.fld (fLinkCe s m.val) = min 255 (s.fld (fLinkCe s m.val) + link.corrected) ∧
      { t with regs := s.regs, memTiles := s.memTiles, memHeld := s.memHeld } = s) ∧
  (∀ (m : MemIx) (s : State), memExists s m.val = true → (s.arb (.memory m)).emergency = false →
    ∃ t, exec (.refresh m) s = .next t ∧ (t.arb (.memory m)).emergency = true ∧ (t.arb (.memory m)).busy = false ∧
      (∀ x ∈ (s.arb (.memory m)).parked, x ∈ (t.arb (.memory m)).parked) ∧
      (∀ q : Requester, grantee s (.memory m) = some q → ∃ c : Nat, (q, c) ∈ (t.arb (.memory m)).parked) ∧ t.fld (fRefreshes s m.val) = min (2 ^ 32 - 1) (s.fld (fRefreshes s m.val) + 1) ∧
      { t with regs := s.regs, memArb := s.memArb } = s) ∧
  (∀ (m : MemIx) (rate : BitVec 3) (s : State), memExists s m.val = true →
    ∃ t, exec (.refreshRateRead m rate) s = .next t ∧ t.fld (fRate s m.val) = rate.toNat ∧ (rate = 5 → t.is (fHot s m.val) = true) ∧
      regsSame s t [(fRate s m.val).addr] ∧ { t with regs := s.regs } = s) ∧
  (∀ (m : MemIx) (s : State), memExists s m.val = true →
    ∃ t, exec (.scrubNow m) s = .next t ∧ t.is (fScrubbing s m.val) = true ∧ t.is (fScrubNowM s m.val) = true ∧ t.fld (fScrubBlock s m.val) = 0 ∧
      { t with regs := s.regs } = s) ∧
  (∀ (m : MemIx) (b : Nat) (s : State), memExists s m.val = true → s.is (fScrubEnM s m.val) = true ∨ s.is (fScrubNowM s m.val) = true →
    (s.arb (.memory m)).busy = false → (s.arb (.memory m)).emergency = false → (s.arb (.memory m)).parked = [] → b = s.fld (fScrubBlock s m.val) →
    ∃ t, exec (.patrolScrubRead m) s = .next t ∧ t.fld (fScrubBlock s m.val) = (b + 1) % 2 ^ 26 ∧
      (∀ j w : Nat, (t.memTile j).word w = (s.memTile j).word w) ∧
      (∀ j w : Nat, (t.memTile j).check w = (if j = m.val ∧ w / 56 = b ∧ (s.memTile j).check w = some .correctable then none
        else (s.memTile j).check w)) ∧
      { t with regs := s.regs, memTiles := s.memTiles, memHeld := s.memHeld } = s)

/-- Region caches (10 R251 to R255) with the port granted: a hit pins its line for the request, a miss starts the fill of its line or waits where no way
has room, a write goes to memory and drops the line it hits, a fill brings the line's words, and an invalidation drops every line that is not pinned.
The states are those in which no request waits for a way; a request whose bytes cannot move yet, since those before them are still to come.
It rests also on the model's choices in notes/assumptions/16.md. -/
def Obligations.CachesServeRegions : Prop :=
  (∀ (r : RegionIx) (q : Requester) (i : Nat) (x : List Word32) (l : LineReq) (c : CacheLine) (d : Desc) (addr : BitVec 48) (s : State),
    grantee s (.cache r) = some q → grantedDesc s r.val q = some i → d = s.desc r.val i → d.running = some x → d.stopping = none →
    nextReq s r.val i = some l → findLine (s.region r.val) l.line = some c → c.weak = [] → c.poison = [] →
    (∃ e ∈ d.reqs, e ≠ l ∧ e.lo ≤ d.written) → d.written < l.hi → (∀ p ∈ d.pins, d.written < p.2) → noPinWaits s r.val →
    addr.toNat / 256 = l.line →
    ∃ t, exec (.cacheAccess r addr false) s = .next t ∧ t.fld (fHits r.val) = min (2 ^ 32 - 1) (s.fld (fHits r.val) + 1) ∧
      t.desc r.val i = { d with reqs := d.reqs.filter (fun p => decide (p ≠ l)), pins := d.pins ++ [(l.line, l.hi)] } ∧
      (∃ c', findLine (t.region r.val) l.line = some c' ∧ c'.pins = c.pins + 1 ∧ c'.words = c.words) ∧
      (t.region r.val).fills = (s.region r.val).fills ∧ (t.arb (.cache r)).served = true ∧
      regsSame s t [(fHits r.val).addr, (fCacheCe r.val).addr] ∧ { t with regs := s.regs, regions := s.regions } = s) ∧
  (∀ (r : RegionIx) (q : Requester) (i : Nat) (l : LineReq) (addr : BitVec 48) (s : State), grantee s (.cache r) = some q → grantedDesc s r.val q = some i →
    (s.desc r.val i).stopping = none → nextReq s r.val i = some l → findLine (s.region r.val) l.line = none →
    (∀ f ∈ (s.region r.val).fills, f.addr ≠ l.line) → noPinWaits s r.val → addr.toNat / 256 = l.line →
    (∀ (w : Nat) (v : Region), makeRoom (s.region r.val) (setOf l.line) = some (w, v) →
      ∃ t, exec (.cacheAccess r addr false) s = .next t ∧ t.fld (fMisses r.val) = min (2 ^ 32 - 1) (s.fld (fMisses r.val) + 1) ∧
        (t.region r.val).fills = (s.region r.val).fills ++ [⟨l.line, w, i⟩] ∧ (t.region r.val).lines = v.lines ∧
        (t.desc r.val i).reqs = (s.desc r.val i).reqs.map (fun p => if p = l then { p with status := .waitFill } else p) ∧
        regsSame s t [(fMisses r.val).addr] ∧ { t with regs := s.regs, regions := s.regions } = s) ∧
    (makeRoom (s.region r.val) (setOf l.line) = none →
      ∃ t, exec (.cacheAccess r addr false) s = .next t ∧ (t.region r.val).fills = (s.region r.val).fills ∧ (t.region r.val).lines = (s.region r.val).lines ∧
        (t.desc r.val i).reqs = (s.desc r.val i).reqs.map (fun p => if p = l then { p with status := .waitPin s.clock.now } else p) ∧
        t.fld (fMisses r.val) = s.fld (fMisses r.val) ∧ { t with regs := s.regs, regions := s.regions } = s)) ∧
  (∀ (r : RegionIx) (q : Requester) (i m w k v : Nat) (x : List Word32) (d : Desc) (addr : BitVec 48) (s : State), grantee s (.cache r) = some q →
    grantedDesc s r.val q = some i → d = s.desc r.val i → d.running = some x → d.stopping = none → d.reqs = [] → d.pins = [] → d.written = 0 →
    d.requested = 8 → snapIdxEn x = false → snapSkind x = 6 → snapDkind x = 0 → placeOf s (snapDst x) = .tile m w →
    bufferWord s r.val (bufferOf d 6 (snapSrc x)) (kindOffset 6 (snapSrc x)) = some (k, v) → (s.cluster k).store.check v = none →
    noPinWaits s r.val → addr.toNat / 256 = snapDst x / 256 →
    (grantee s (.memory (Fin.ofNat 8 m)) = some (.desc r (Fin.ofNat 64 i)) →
      ∃ t, exec (.cacheAccess r addr true) s = .next t ∧ (t.memTile m).word w = (s.cluster k).store.word v ∧ (t.memTile m).check w = none ∧
        (∀ j u : Nat, (j, u) ≠ (m, w) → (t.memTile j).word u = (s.memTile j).word u) ∧
        (∀ l ∈ (t.region r.val).lines, l.addr = snapDst x / 256 → l.pins ≠ 0 ∧ l.dropOnUnpin = true) ∧ (t.desc r.val i).written = 8 ∧
        { t with regs := s.regs, regions := s.regions, memTiles := s.memTiles, memHeld := s.memHeld, memArb := s.memArb } = s) ∧
    (grantee s (.memory (Fin.ofNat 8 m)) ≠ some (.desc r (Fin.ofNat 64 i)) → exec (.cacheAccess r addr true) s = .next s)) ∧
  (∀ (r : RegionIx) (addr : BitVec 48) (link : LinkEcc) (f : CacheFillReq) (i la t0 : Nat) (d : Desc) (e l : LineReq) (x : List Word32) (s : State),
    la = addr.toNat / 256 → t0 = lineTile la → (s.region r.val).fills.find? (fun g => decide (g.addr = la)) = some f → f.desc = i →
    grantee s (.memory (Fin.ofNat 8 t0)) = some (.desc r (Fin.ofNat 64 i)) → (s.region r.val).descs = [(i, d)] → d.running = some x →
    d.stopping = none → d.reqs = [e, l] → e.line ≠ la → e.status = .waitFill → l.line = la → l.status = .waitFill → e.lo ≤ d.written →
    d.written < l.hi → (∀ p ∈ d.pins, d.written < p.2) → findLine (s.region r.val) la = none → link.passed = [] →
    (∀ j : Nat, j < 32 → (s.memTile t0).check (lineWord la + j) = none) →
    ∃ t c, exec (.cacheFill r ⟨addr, link⟩) s = .next t ∧ (∀ g ∈ (t.region r.val).fills, g.addr ≠ la) ∧ findLine (t.region r.val) la = some c ∧
      c.words = (List.range 32).map (fun j => (s.memTile t0).word (lineWord la + j)) ∧ c.pins = 1 ∧ c.way = f.way ∧ c.poison = [] ∧
      t.desc r.val i = { d with reqs := [e], pins := d.pins ++ [(la, l.hi)] } ∧
      (t.arb (.memory (Fin.ofNat 8 t0))).served = true ∧ t.memTiles = s.memTiles ∧ t.clusters = s.clusters) ∧
  (∀ (r : RegionIx) (addr : BitVec 48) (link : LinkEcc) (s : State),
    (∀ f ∈ (s.region r.val).fills, f.addr = addr.toNat / 256 →
      grantee s (.memory (Fin.ofNat 8 (lineTile f.addr))) ≠ some (.desc r (Fin.ofNat 64 f.desc))) →
    exec (.cacheFill r ⟨addr, link⟩) s = .next s) ∧
  (∀ (r : RegionIx) (s : State),
    (noPinWaits s r.val → ∃ t, exec (.invalidate r) s = .next t ∧ t.is (fInvBusy r.val) = true ∧
      (∀ l ∈ (t.region r.val).lines, l.pins ≠ 0 ∧ l.dropOnUnpin = true) ∧ regsSame s t [(fInvBusy r.val).addr] ∧
      { t with regs := s.regs, regions := s.regions } = s) ∧
    (∃ t, exec (.invalidationDone r) s = .next t ∧ t.is (fInvBusy r.val) = false ∧ regsSame s t [(fInvBusy r.val).addr] ∧ { t with regs := s.regs } = s))

/-- Stream descriptors and handle queues (10 R256 to R266): what arming, aborting, a tile request and completion do, and a word moved from one
buffer to another.
It rests also on the model's choices in notes/assumptions/3.md, notes/assumptions/16.md, notes/assumptions/67.md. -/
def Obligations.DescriptorsTransfer : Prop :=
  (∀ (r : RegionIx) (i : Fin 64) (s : State), s.recovery = false → s.stagedImage = true → s.run.started = true → s.idleRegion r.val = true →
    exec (.arm r i) s = .next s) ∧
  (∀ (r : RegionIx) (i : Fin 64) (s : State), s.recovery = false → (s.stagedImage = false ∨ s.run.started = false) →
    ∃ t, exec (.arm r i) s = .next t ∧ t.fld (fErr r.val i.val) = 5 ∧ regsSame s t [(fErr r.val i.val).addr] ∧ { t with regs := s.regs } = s) ∧
  (∀ (r : RegionIx) (i : Fin 64) (s : State), s.recovery = false → s.idleRegion r.val = false →
    (s.stagedImage = true → s.run.started = true → (s.desc r.val i.val).running = none → snapError (snapshot s r.val i.val) = none →
      snapInEn (snapshot s r.val i.val) = false →
      ∃ t, exec (.arm r i) s = .next t ∧ t.is (fBusy r.val i.val) = true ∧ t.is (fDone r.val i.val) = false ∧ t.fld (fErr r.val i.val) = 0 ∧
        t.fld (fMoved r.val i.val) = 0 ∧ (t.desc r.val i.val).running = some (snapshot s r.val i.val) ∧ (t.desc r.val i.val).written = 0 ∧
        (t.desc r.val i.val).half = 1 - s.fld fHalf ∧ { t with regs := s.regs, regions := s.regions } = s) ∧
    (s.stagedImage = true → s.run.started = true → (s.desc r.val i.val).running ≠ none →
      ∃ t, exec (.arm r i) s = .next t ∧ t.is (fPending r.val i.val) = true ∧ (t.desc r.val i.val).queued = some (snapshot s r.val i.val) ∧
        (t.desc r.val i.val).running = (s.desc r.val i.val).running ∧
        ((s.desc r.val i.val).queued ≠ none → t.is (fOverwritten r.val i.val) = true)) ∧
    ((s.desc r.val i.val).running ≠ none → inFlight s r.val i.val = true →
      ∃ t, exec (.abort r i) s = .next t ∧ (t.desc r.val i.val).stopping = some 4 ∧ (t.desc r.val i.val).running = (s.desc r.val i.val).running ∧
        t.memTiles = s.memTiles ∧ t.clusters = s.clusters) ∧
    ((s.desc r.val i.val).running ≠ none → inFlight s r.val i.val = false → noPinWaits s r.val →
      ∃ t, exec (.abort r i) s = .next t ∧ (t.desc r.val i.val).running = none ∧ (t.desc r.val i.val).queued = none ∧ t.fld (fErr r.val i.val) = 4 ∧
        t.is (fBusy r.val i.val) = false ∧ t.is (fPending r.val i.val) = false ∧ t.memTiles = s.memTiles ∧ t.clusters = s.clusters)) ∧
  (∀ (r : RegionIx) (i : Fin 64) (x : List Word32) (d : Desc) (s : State), d = s.desc r.val i.val → d.running = some x → s.runs = true →
    d.waitPop = false → d.waitPush = false → d.stopping = none → noPinWaits s r.val →
    (∀ qs : List LineReq, d.requested < snapBytes x → tilesOpen d < 2 → tileRequests s x d.requested (tileEnd x d.requested) = some qs →
      ∃ t, exec (.tileRequest r i) s = .next t ∧ t.desc r.val i.val = { d with requested := tileEnd x d.requested, reqs := d.reqs ++ qs.reverse } ∧
        (∀ q ∈ qs, q.status = .new) ∧ { t with regions := s.regions } = s) ∧
    (d.requested < snapBytes x → tilesOpen d < 2 → tileRequests s x d.requested (tileEnd x d.requested) = none →
      ∃ t, exec (.tileRequest r i) s = .next t ∧ (t.desc r.val i.val).running = none ∧ t.fld (fErr r.val i.val) = 1) ∧
    (snapBytes x ≤ d.requested → snapBytes x ≤ d.written → snapOutEn x = false → d.queued = none →
      ∃ t, exec (.transferComplete r i) s = .next t ∧ (t.desc r.val i.val).running = none ∧ t.is (fDone r.val i.val) = true ∧
        t.is (fBusy r.val i.val) = false ∧ t.memTiles = s.memTiles ∧ t.clusters = s.clusters) ∧
    (∀ k w k' w' : Nat, snapBytes x = 8 → d.requested = 8 → d.written = 0 → snapIdxEn x = false → snapSkind x = 6 → snapDkind x = 6 →
      bufferWord s r.val (bufferOf d 6 (snapSrc x)) (kindOffset 6 (snapSrc x)) = some (k, w) →
      bufferWord s r.val (bufferOf d 6 (snapDst x)) (kindOffset 6 (snapDst x)) = some (k', w') → d.reqs = [] → d.pins = [] → d.queued = none →
      d.moved = 0 → snapOutEn x = false → (s.cluster k).store.check w = none →
      ∃ t, exec (.transferComplete r i) s = .next t ∧ (t.cluster k').store.word w' = (s.cluster k).store.word w ∧
        (t.cluster k').store.check w' = none ∧ t.fld (fMoved r.val i.val) = 8 ∧ t.is (fDone r.val i.val) = true ∧ t.memTiles = s.memTiles ∧
        (∀ j v : Nat, (j, v) ≠ (k', w') → (t.cluster j).store.word v = (s.cluster j).store.word v))) ∧
  (∀ (r : RegionIx) (i : Fin 64) (x : List Word32) (h : BitVec 16) (l : List (BitVec 16)) (s : State), (s.desc r.val i.val).running = some x →
    ((s.desc r.val i.val).waitPop = true → s.hq r.val (snapCtl x 20 4) = h :: l →
      ∃ t, exec (.handlePopWaitEnd r i) s = .next t ∧ (t.desc r.val i.val).handle = some h ∧ (t.desc r.val i.val).waitPop = false ∧
        t.hq r.val (snapCtl x 20 4) = l ∧ { t with regions := s.regions } = s) ∧
    ((s.desc r.val i.val).waitPush = true → snapOutEn x = true → s.hq r.val (snapCtl x 25 4) = l → l.length < 16 →
      (s.desc r.val i.val).handle = some h → snapSkind x = 0 → snapDkind x = 1 → (s.desc r.val i.val).queued = none →
      ∃ t, exec (.handlePushWaitEnd r i) s = .next t ∧
        t.hq r.val (snapCtl x 25 4) = l ++ [if (s.desc r.val i.val).poisoned = true then h ||| 0x8000 else h] ∧
        t.is (fDone r.val i.val) = true ∧ (t.desc r.val i.val).running = none)) ∧
  (∀ (r : RegionIx) (q : Fin 16) (v : Word32) (s : State),
    ((s.hq r.val q.val).length < 16 →
      ∃ t, exec (.strHqPush r q v) s = .next t ∧ t.hq r.val q.val = s.hq r.val q.val ++ [BitVec.ofNat 16 v.toNat] ∧
        regsSame s t [(fHqMaxOcc r.val q.val).addr] ∧ { t with regs := s.regs, regions := s.regions } = s) ∧
    (16 ≤ (s.hq r.val q.val).length →
      ∃ t, exec (.strHqPush r q v) s = .next t ∧ t.hq r.val q.val = s.hq r.val q.val ∧ t.is (fHqOverrun r.val q.val) = true ∧
        { t with regs := s.regs } = s) ∧
    (∀ (h : BitVec 16) (l : List (BitVec 16)), s.hq r.val q.val = h :: l →
      ∃ t, exec (.strHqPop r q) s = .next t ∧ t.hq r.val q.val = l ∧ t.out = .read (hqBase r.val q.val + 8) (BitVec.ofNat 32 h.toNat) :: s.out ∧
        { t with regions := s.regions, out := s.out } = s) ∧
    (s.hq r.val q.val = [] → exec (.strHqPop r q) s = .next { s with out := .read (hqBase r.val q.val + 8) 0xFFFF :: s.out }))

/-- Barriers and recovery (10 R267 to R273): a leaf arrives when its region is at SYNC with no descriptor at work, the step after the barrier opens
40 cycles after the last leaf, and as long again as the step where SQUALL or a power limit holds it (15 R391, 17 R417), a timeout is recorded, and GO stops the named units with bad banks.
It rests also on the model's choices in notes/assumptions/16.md. -/
def Obligations.BarriersReleaseSteps : Prop :=
  (∀ (r : RegionIx) (s : State), s.runs = true → s.stage.running = true → s.idleRegion r.val = false → (s.region r.val).arrived = false →
    regionAtSync s r.val = true → waitsDescs s r.val = false → (stepAt s s.stage.step).system = false →
    ∃ t, exec (.leafArrive r) s = .next t ∧ (t.region r.val).arrived = true ∧
      t.stage.firstArrival = some (s.stage.firstArrival.getD s.clock.now) ∧
      ((∀ q : Nat, q < 64 → q ≠ r.val → leafIn s q = true) → t.stage.lastArrival = some s.clock.now) ∧
      ((∃ q : Nat, q < 64 ∧ q ≠ r.val ∧ leafIn s q = false) → t.stage.lastArrival = s.stage.lastArrival) ∧
      (∀ q : Nat, q ≠ r.val → t.region q = s.region q) ∧ { t with regions := s.regions, stage := s.stage } = s) ∧
  (∀ (a i left : Nat) (s : State), s.stage.lastArrival = some a → s.runs = true → s.stage.running = true → (∀ q : Nat, q < 64 → leafIn s q = true) →
    (stepAt s s.stage.step).system = false → (i, left) = nextStep s → (i ≠ 0 ∨ s.run.step0Stop = none) → i < 1024 →
    (∀ e ∈ s.regions, e.2.requestAt = none) →
    ∃ t, exec .barrierRelease s = .next t ∧ t.stage.step = i ∧ t.stage.left = left ∧ t.stage.running = true ∧ t.stage.lastArrival = none ∧
      t.stage.releasedAt = a + 40 + (if squallLimits s = true then a - s.stage.releasedAt else 0) ∧ t.fld fStageStep = i ∧
      t.fld fStageBarriers = min (2 ^ 32 - 1) (s.fld fStageBarriers + 1) ∧
      t.fld fHalf = (if (stepAt s i).swap = true then 1 - s.fld fHalf else s.fld fHalf) ∧
      (∀ q : Nat, (t.region q).arrived = false) ∧ t.memTiles = s.memTiles ∧ t.run = s.run) ∧
  (∀ (a : Nat) (s : State), s.stage.firstArrival = some a → s.stage.running = true → s.fld fStageCycles ≠ 0 →
    ∃ t, exec .barrierTimeout s = .next t ∧ t.is fStageTimeout = true ∧ t.stage = s.stage ∧ t.run = s.run ∧
      (∀ q : Nat, q < 64 → leafIn s q = false → (∀ p : Nat, p < q → leafIn s p = true) → t.fld fStageMissing = q) ∧
      regsSame s t [0x200] ∧ { t with regs := s.regs, clock := s.clock } = s) ∧
  (∀ (r : RegionIx) (v : Word32) (i : Fin 8) (g : Nat) (s : State), v.getLsbD i.val = true → noPinWaits s r.val → g = 64 * r.val + 8 * bits v.toNat 8 3 + i.val →
    ∃ t, exec (.recoverGo r v) s = .next t ∧ t.play (.dot (Fin.ofNat 4096 g)) = ⟨0, s.clock.now, .sync⟩ ∧
      (t.unit g).gb = List.replicate 4 { bad := true } ∧ (t.unit g).mb = List.replicate 16 { bad := true } ∧ (t.unit g).weight = (s.unit g).weight ∧
      (∀ p : Port, t.queue (.port (Fin.ofNat 4096 g) p) = {}) ∧
      (∀ n : Fin 64, ∀ x : List Word32, (s.desc r.val n.val).running = some x → snapOwner x / 8 = bits v.toNat 8 3 → snapOwner x % 8 = i.val →
        (∃ e ∈ (s.region r.val).descs, e = (n.val, s.desc r.val n.val)) →
        (∀ m : MemIx, grantee s (.memory m) ≠ some (.desc r n)) → (t.desc r.val n.val).running = none ∧ t.fld (fErr r.val n.val) = 4))

/-! ### The Elvaro fabric -/

/-- The words of flits and codewords as they are laid out (12 R297 to R301): header, payload and check in their bits, the position with nothing to
carry, the positions of a lane, and the symbols of a codeword.
It rests also on the model's choices in notes/assumptions/12.md, notes/assumptions/72.md. -/
def Obligations.FlitWordsAreLaidOut : Prop :=
  (∀ (seq : BitVec 8) (f : Flit) (w : Nat), w = (sentWord seq f).toNat → (∀ a l, f.body = .write a l → l.length ≤ 24) →
    (∀ tag o e l, f.body = .data tag o e l → l.length ≤ 24) →
    bits w 0 1 = bit f.locked ∧ bits w 1 4 = typeOf f.body ∧ bits w 5 14 = f.stream.toNat ∧ bits w 19 8 = seq.toNat ∧ bits w 27 1 = bit f.first ∧
      bits w 28 1 = bit f.last ∧ bits w 29 1 = bit f.epoch ∧ bits w 30 2 = 0 ∧ bits w 32 256 = payloadOf f.body ∧
      bits w 288 32 = (crc32 (leBytes 36 (bits w 0 288))).toNat) ∧
  (∀ (b : Beat) (p : Nat), p = payloadOf (.beat b) → bits p 0 208 = beatBits b ∧ bits p 208 48 = 0) ∧
  (∀ (a : BitVec 48) (l : List Byte) (i p : Nat), p = payloadOf (.write a l) → 0 < l.length → l.length ≤ 24 → i < l.length →
    bits p 0 48 = a.toNat ∧ bits p 48 5 = l.length - 1 ∧ bits p 53 11 = 0 ∧ BitVec.ofNat 8 (bits p (64 + 8 * i) 8) = l.getD i 0) ∧
  (∀ (a : BitVec 48) (n : BitVec 12) (tag : Byte) (p : Nat), p = payloadOf (.read a n tag) →
    bits p 0 48 = a.toNat ∧ bits p 48 12 = n.toNat ∧ bits p 60 8 = tag.toNat) ∧
  (∀ (tag : Byte) (o : BitVec 12) (err : Bool) (l : List Byte) (i p : Nat), p = payloadOf (.data tag o err l) → 0 < l.length → l.length ≤ 24 →
    i < l.length → bits p 0 8 = tag.toNat ∧ bits p 8 12 = o.toNat ∧ bits p 20 5 = l.length - 1 ∧ bits p 25 1 = bit err ∧ bits p 26 38 = 0 ∧
      BitVec.ofNat 8 (bits p (64 + 8 * i) 8) = l.getD i 0) ∧
  (∀ (n : BitVec 16) (q : BitVec 8) (nak : Bool), payloadOf (.credit n) = n.toNat ∧ bits (payloadOf (.link q nak)) 0 8 = q.toNat ∧
    bits (payloadOf (.link q nak)) 8 1 = bit nak) ∧
  (∀ (h : FlitHdr) (b : FlitBody), h.spare = 0 → h.extra = 0 → payloadOf b < 2 ^ 256 →
    (checkOk h (typeOf b) b = true ↔ h.check = BitVec.ofNat 32 (bits (sentWord h.seq (flitOf h b)).toNat 288 32))) ∧
  (∀ pos g i : Nat, i < g → pos ≤ nextPosition pos g i ∧ nextPosition pos g i < pos + g ∧ nextPosition pos g i % g = i) ∧
  (∀ (count : BitVec 8) (flits : List (BitVec 320)) (k i : Nat), k < flits.length → i < 32 →
    (codewordSymbols count false flits).length = 1 + 32 * flits.length ∧ (codewordSymbols count true flits).length = 2 + 32 * flits.length ∧
    ∀ long : Bool, (codewordSymbols count long flits).getD 0 0 = count.zeroExtend 10 ∧
      (codewordSymbols count long flits).getD (1 + 32 * k + i) 0 = BitVec.ofNat 10 (bits (flits.getD k 0).toNat (10 * i) 10))

/-- Codewords and flits as they are received (12 R298 to R309, R318): corrected and lost codewords, a failed check, the order of SEQ, and what each
type of flit does in its context.
It rests also on the model's choices in notes/assumptions/12.md, notes/assumptions/31.md, notes/assumptions/36.md, notes/assumptions/37.md, notes/assumptions/38.md, notes/assumptions/72.md. -/
def Obligations.FlitsAreReceived : Prop :=
  (∀ (site : SiteIx) (lane : Fin 32) (errors limit : Nat) (past : Option (BitVec 8)) (r : Retry) (s : State), s.tile site.val = 1 →
    laneListens s site.val lane.val = true → r = s.retry site.val lane.val →
    limit = (if shortCodes s site.val (leadOf s site.val lane.val) = true then 7 else 15) →
    (errors = 0 → exec (.codewordReceived site lane errors past) s =
      .next (s.setRetry site.val lane.val { r with codewords := r.codewords + 1 })) ∧
    (0 < errors → errors ≤ limit →
      ∃ t, exec (.codewordReceived site lane errors past) s = .next t ∧ t.retry site.val lane.val = { r with codewords := r.codewords + 1 } ∧
        t.fld (fCorrected site.val (leadOf s site.val lane.val)) = min 4095 (s.fld (fCorrected site.val (leadOf s site.val lane.val)) + 1) ∧
        regsSame s t [(fCorrected site.val (leadOf s site.val lane.val)).addr] ∧ { t with regs := s.regs, retries := s.retries } = s) ∧
    (limit < errors →
      ∃ t, exec (.codewordReceived site lane errors past) s = .next t ∧ (t.retry site.val lane.val).nak = true ∧
        (t.retry site.val lane.val).expect = r.expect ∧ (t.retry site.val lane.val).codewords = r.codewords + 1 ∧
        t.fld (fUncorr site.val (leadOf s site.val lane.val)) = min 4095 (s.fld (fUncorr site.val (leadOf s site.val lane.val)) + 1) ∧
        (∀ x : Nat, (s.ctx x).via = some (site.val, leadOf s site.val lane.val) → (t.ctx x).uncorrSeen = true) ∧
        (r.nak = false → (t.retry site.val lane.val).seen = past.getD r.expect ∧ t.out = linkOut s site.val lane.val r.expect true :: s.out) ∧
        (r.nak = true → t.out = s.out) ∧
        (∀ p : BitVec 8, past = some p → behind r = false → (p - r.expect).toNat < 128 →
          t.heldAt site.val (leadOf s site.val lane.val) = s.heldAt site.val (leadOf s site.val lane.val) ++
            (List.range (p - r.expect).toNat).map (fun i => ⟨lane.val, r.expect + BitVec.ofNat 8 i, none⟩)) ∧
        { t with regs := s.regs, retries := s.retries, ctxs := s.ctxs, heldFlits := s.heldFlits, out := s.out } = s)) ∧
  (∀ (h : FlitHdr) (b : Beat) (s : State), onLane s h →
    (checkOk h 1 (.beat b) = false →
      ∃ t, exec (.beatFlit h b) s = .next t ∧ t.fld (fUncorr h.site.val (leadH s h)) = min 4095 (s.fld (fUncorr h.site.val (leadH s h)) + 1) ∧
        (h.locked = true → (∀ x : Nat, (s.ctx x).via = some (h.site.val, leadH s h) → (t.ctx x).uncorrSeen = true) ∧
          { t with regs := s.regs, ctxs := s.ctxs } = s) ∧
        (h.locked = false → (t.retry h.site.val h.lane.val).nak = true ∧
          (t.retry h.site.val h.lane.val).expect = (s.retry h.site.val h.lane.val).expect ∧
          { t with regs := s.regs, retries := s.retries, heldFlits := s.heldFlits, out := s.out } = s)) ∧
    (checkOk h 1 (.beat b) = true → h.locked = false → 128 ≤ (h.seq - (s.retry h.site.val h.lane.val).expect).toNat →
      exec (.beatFlit h b) s = .next s) ∧
    (checkOk h 1 (.beat b) = true → h.locked = false → 0 < (h.seq - (s.retry h.site.val h.lane.val).expect).toNat →
      (h.seq - (s.retry h.site.val h.lane.val).expect).toNat < 128 →
      ∃ t, exec (.beatFlit h b) s = .next t ∧ (t.retry h.site.val h.lane.val).nak = true ∧
        (t.retry h.site.val h.lane.val).expect = (s.retry h.site.val h.lane.val).expect ∧
        { t with retries := s.retries, heldFlits := s.heldFlits, out := s.out } = s) ∧
    (checkOk h 1 (.beat b) = true → h.locked = true → reservedSet h 1 (.beat b) = true →
      ∃ t, exec (.beatFlit h b) s = .next t ∧ t.fld (fTypeErr h.site.val (leadH s h)) = min 255 (s.fld (fTypeErr h.site.val (leadH s h)) + 1) ∧
        { t with regs := s.regs } = s)) ∧
  (∀ (h : FlitHdr) (ty : BitVec 4) (s : State), checkOk h ty.toNat .null = true →
    (onLane s h → ty = 0 → reservedSet h 0 .null = false → exec (.nullFlit h ty) s = .next s) ∧
    (inTurn s h → knownType ty.toNat = false →
      ∃ t, exec (.nullFlit h ty) s = .next t ∧ t.fld (fTypeErr h.site.val (leadH s h)) = min 255 (s.fld (fTypeErr h.site.val (leadH s h)) + 1) ∧
        t.retries = (acceptedOn s h).retries ∧ { t with regs := s.regs, retries := s.retries } = s)) ∧
  (∀ (h : FlitHdr) (b : Beat) (q : QueueId) (s : State), inOrder s h (.beat b) → openContext s h.stream.toNat 1 → q = targetQueue s h.stream.toNat →
    (h.epoch = sysEpoch s → qHold s q = false → noWaiter s q → groupsEmpty s →
      ∃ t, exec (.beatFlit h b) s = .next t ∧ (t.cluster (qCluster q)).arrivals = (s.cluster (qCluster q)).arrivals ++ [⟨q, s.clock.now + 1, 5, b⟩] ∧
        (t.ctx h.stream.toNat).buf = [] ∧ (t.ctx h.stream.toNat).due = (s.ctx h.stream.toNat).due + 1 ∧
        (t.ctx h.stream.toNat).via = some (h.site.val, leadH s h) ∧ t.retries = (acceptedOn s h).retries ∧
        { t with regs := s.regs, retries := s.retries, ctxs := s.ctxs, clusters := s.clusters, bankQ := s.bankQ } = s) ∧
    (h.epoch ≠ sysEpoch s →
      ∃ t, exec (.beatFlit h b) s = .next t ∧ t.fld (fCtxStale h.stream.toNat) = min 65535 (s.fld (fCtxStale h.stream.toNat) + 1) ∧
        t.retries = (acceptedOn s h).retries ∧ { t with regs := s.regs, retries := s.retries } = s)) ∧
  (∀ (h : FlitHdr) (b : Beat) (x q : Nat) (s : State), onLane s h → soundFlit h (.beat b) →
    h.locked = true → x = h.stream.toNat → 0 < x → s.is (fCtxLocked x) = true → s.fld (fCtxKind x) = 1 →
    h.epoch = sysEpoch s → s.runs = true → s.is (fGrpUp h.site.val (leadH s h)) = true → (s.ctx x).via = some (h.site.val, leadH s h) → h.first = true → h.last = true → s.fld (fCtxBeats x) = 0 →
    classifyTag s x b.tag.toNat = .accept q →
    ∃ t, exec (.beatFlit h b) s = .next t ∧
      (t.ctx x).held = (s.ctx x).held ++ [⟨q, s.numOf q, [b], s.clock.now - s.openAt q⟩] ∧ (t.ctx x).arriving = [] ∧
      (t.ctx x).next = (s.ctx x).next ∧ (∀ y : Nat, y ≠ x → t.ctx y = s.ctx y) ∧ { t with ctxs := s.ctxs } = s) ∧
  (∀ (h : FlitHdr) (addr : BitVec 48) (bytes : List Byte) (m k w : Nat) (s : State), inOrder s h (.write addr bytes) →
    openContext s h.stream.toNat 4 → groupsEmpty s → addr.toNat % 8 = 0 → bytes.length = 8 →
    (placeOf s addr.toNat = .store k w →
      ∃ t, exec (.writeFlit h addr bytes) s = .next t ∧ storeRead t k w = (BitVec.ofNat 64 (leNat bytes), false) ∧
        (∀ j v : Nat, (j, v) ≠ (k, w) → storeRead t j v = storeRead s j v) ∧ (t.ctx h.stream.toNat).buf = [] ∧
        (t.ctx h.stream.toNat).due = (s.ctx h.stream.toNat).due + 1 ∧
        { t with regs := s.regs, retries := s.retries, ctxs := s.ctxs, clusters := s.clusters } = s) ∧
    (placeOf s addr.toNat = .tile m w →
      ∃ t, exec (.writeFlit h addr bytes) s = .next t ∧ (t.ctx h.stream.toNat).buf = [flitOf h (.write addr bytes)] ∧
        (t.ctx h.stream.toNat).due = (s.ctx h.stream.toNat).due ∧ hostJob t m ≠ none ∧
        { t with regs := s.regs, retries := s.retries, ctxs := s.ctxs } = s)) ∧
  (∀ (h : FlitHdr) (addr : BitVec 48) (tag : Byte) (m k w : Nat) (s : State), inOrder s h (.read addr 7 tag) → openContext s h.stream.toNat 4 →
    groupsEmpty s → addr.toNat % 8 = 0 →
    (placeOf s addr.toNat = .store k w →
      ∃ t, exec (.readFlit h addr 7 tag) s = .next t ∧
        (t.ctx h.stream.toNat).outq = (s.ctx h.stream.toNat).outq ++
          [⟨false, 0, true, true, false, .data tag 0 false (leBytes 8 (storeRead s k w).1.toNat)⟩] ∧
        { t with regs := s.regs, retries := s.retries, ctxs := s.ctxs } = s) ∧
    (placeOf s addr.toNat = .tile m w →
      ∃ t, exec (.readFlit h addr 7 tag) s = .next t ∧ (t.ctx h.stream.toNat).buf = [flitOf h (.read addr 7 tag)] ∧
        (t.ctx h.stream.toNat).outq = (s.ctx h.stream.toNat).outq ∧ hostJob t m ≠ none ∧
        { t with regs := s.regs, retries := s.retries, ctxs := s.ctxs } = s)) ∧
  (∀ (h : FlitHdr) (addr : BitVec 48) (n : BitVec 12) (tag : Byte) (s : State), inOrder s h (.read addr n tag) → openContext s h.stream.toNat 4 →
    groupsEmpty s → 2 ^ 32 ≤ addr.toNat → (∃ a ∈ wordsAt 8 addr.toNat (n.toNat + 1), placeOf s a = .none) →
    ∃ t v, exec (.readFlit h addr n tag) s = .next t ∧
      (t.ctx h.stream.toNat).outq = (s.ctx h.stream.toNat).outq ++ [⟨false, 0, true, true, false, .data tag 0 true [v]⟩] ∧
      t.memTiles = s.memTiles) ∧
  (∀ (h : FlitHdr) (tag : Byte) (offset : BitVec 12) (bytes : List Byte) (payload : BitVec 256) (c : Instr) (b : FlitBody) (s : State),
    (c = .dataFlit h tag offset false bytes ∧ b = .data tag offset false bytes ∧ 0 < bytes.length ∧ bytes.length ≤ 24 ∧
        (∀ x ∈ (s.ctx h.stream.toNat).reads, x.sent = true → x.tag ≠ tag)) ∨
      (c = .noticeFlit h payload ∧ b = .notice payload) →
    inOrder s h b → openContext s h.stream.toNat 4 → groupsEmpty s →
    ∃ t, exec c s = .next t ∧ t.ctx h.stream.toNat = { s.ctx h.stream.toNat with
        via := some (h.site.val, leadH s h)
        due := (s.ctx h.stream.toNat).due + 1 } ∧
      t.fld (fBufUsed h.stream.toNat) = 0 ∧ regsSame s t [(fBufUsed h.stream.toNat).addr] ∧ t.retries = (acceptedOn s h).retries ∧
      { t with regs := s.regs, retries := s.retries, ctxs := s.ctxs } = s) ∧
  (∀ (h : FlitHdr) (tag : Byte) (offset : BitVec 12) (err : Bool) (bytes given : List Byte) (x : HostRead) (i moved : Nat) (desc : List Byte)
    (held : List (Word64 × Bool)) (bad : Option Nat) (s : State), inOrder s h (.data tag offset err bytes) → openContext s h.stream.toNat 4 →
    groupsEmpty s → 0 < bytes.length → bytes.length ≤ 24 → (s.ctx h.stream.toNat).reads = [x] → x.sent = true → x.tag = tag → x.cmd = some i →
    (s.ring x.pair).cur = some ⟨i, desc, .moving moved given held bad⟩ → readsHost desc = true → s.fld (fHrgPath x.pair) = h.stream.toNat →
    (err = false → offset.toNat = x.got → x.base + x.got = moved + 8 * held.length + given.length →
      ∃ t, exec (.dataFlit h tag offset err bytes) s = .next t ∧ phaseOf t x.pair = some (.moving moved (given ++ bytes) held bad) ∧
        (t.ctx h.stream.toNat).reads = (if x.len ≤ x.got + bytes.length then [] else [{ x with got := x.got + bytes.length }]) ∧
        (∀ q : Nat, q ≠ x.pair → t.ring q = s.ring q) ∧ t.retries = (acceptedOn s h).retries ∧
        { t with regs := s.regs, retries := s.retries, ctxs := s.ctxs, rings := s.rings } = s) ∧
    (err = true →
      ∃ t, exec (.dataFlit h tag offset err bytes) s = .next t ∧ endsWith t x.pair stHostErr moved ∧ (t.ctx h.stream.toNat).reads = [] ∧
        { t with regs := s.regs, retries := s.retries, ctxs := s.ctxs, rings := s.rings } = s)) ∧
  (∀ (h : FlitHdr) (credits : BitVec 16) (k : Fin 16) (s : State), inOrder s h (.credit credits) → groupsEmpty s →
    s.is (fTxmapEn h.site.val k.val) = true →
    s.fld (fTxmapLead h.site.val k.val) = leadH s h → s.fld (fTxmapStream h.site.val k.val) = h.stream.toNat →
    ∃ t, exec (.creditFlit h credits) s = .next t ∧
      t.txLink h.site.val k.val = { s.txLink h.site.val k.val with credit := min 255 ((s.txLink h.site.val k.val).credit + credits.toNat) } ∧
      { t with regs := s.regs, retries := s.retries, mcs := s.mcs, txLinks := s.txLinks } = s) ∧
  (∀ (h : FlitHdr) (ack : BitVec 8) (r : Retry) (l : List (BitVec 8 × Nat × Flit)) (s : State), onLane s h → h.locked = false →
    r = s.retry h.site.val h.lane.val → (s.retry h.site.val (leadH s h)).waiting = [] →
    (soundFlit h (.link ack false) → l = r.unacked.filter (fun e => decide (128 ≤ (ack - e.1).toNat)) →
      exec (.linkFlit h ack false) s = .next (s.setRetry h.site.val h.lane.val { r with unacked := l })) ∧
    (soundFlit h (.link ack true) → l = r.unacked.filter (fun e => decide (128 ≤ (ack - 1 - e.1).toNat)) → l ≠ [] → (∀ e ∈ l, e.2.1 < 15) →
      ∃ t, exec (.linkFlit h ack true) s = .next t ∧
        t.out = resentOut s h.site.val h.lane.val l ++ s.out ∧
        (t.retry h.site.val h.lane.val).unacked = l.map (fun e => (e.1, e.2.1 + 1, e.2.2)) ∧
        t.fld (fRetries h.site.val (leadH s h)) = min 255 (s.fld (fRetries h.site.val (leadH s h)) + 1) ∧
        { t with regs := s.regs, retries := s.retries, out := s.out } = s))

/-- The system control flits and the timekeeper's commands (12 R313, R316 to R321, R327).
It rests also on the model's choices in notes/assumptions/3.md, notes/assumptions/12.md, notes/assumptions/33.md, notes/assumptions/38.md. -/
def Obligations.SystemControlTakesEffect : Prop :=
  (∀ (h : FlitHdr) (gen : Byte) (cap : Word32) (endpoint tkNum : BitVec 10) (host claim : Bool) (width : BitVec 2) (s : State),
    inSequence s h → soundFlit h (sysBody 0x01 [(8, gen.toNat), (16, cap.toNat), (48, endpoint.toNat), (58, bit host), (59, bit claim),
      (60, tkNum.toNat), (70, width.toNat)]) → gen ≠ 0 →
    ∃ t, exec (.nego h gen cap endpoint host claim tkNum width) s = .next t ∧ t.is (fGrpUp h.site.val (leadH s h)) = true ∧
      t.fld (fGrpGen h.site.val (leadH s h)) = 1 ∧ t.fld (fGrpCap h.site.val (leadH s h)) = bits cap.toNat 0 5 ∧
      t.fld (fPeerNum h.site.val (leadH s h)) = endpoint.toNat ∧ t.is (fPeerHost h.site.val (leadH s h)) = host ∧
      (s.is (fGrpUp h.site.val (leadH s h)) = false → t.fld (fHopNs h.site.val (leadH s h)) = 0) ∧
      (claim = true → tkNum.toNat ≠ s.fld fPkgNum → t.sys.heardClaim = true)) ∧
  (∀ (h : FlitHdr) (num : BitVec 10) (seq : BitVec 16) (s : State), inOrder s h (sysBody 0x02 [(8, num.toNat), (18, seq.toNat)]) →
    (s.is fTkActive = false → s.is fTkKnown = false →
      ∃ t, exec (.announce h num seq) s = .next t ∧ t.fld fTkNum = num.toNat ∧ t.is fTkKnown = true ∧ t.fld fTkConflict = s.fld fTkConflict ∧
        t.sys = (if num.toNat ≠ s.fld fPkgNum then { s.sys with heardClaim := true } else s.sys)) ∧
    (s.is fTkActive = false → s.is fTkKnown = true → s.fld fTkNum ≠ num.toNat →
      ∃ t, exec (.announce h num seq) s = .next t ∧ t.is fTkConflict = true ∧ t.fld fTkNum = s.fld fTkNum) ∧
    (s.is fTkActive = true → num.toNat ≠ s.fld fPkgNum →
      ∃ t, exec (.announce h num seq) s = .next t ∧ t.is fTkConflict = true ∧ t.fld fTkNum = s.fld fTkNum)) ∧
  (∀ (h : FlitHdr) (code : Byte) (ref : BitVec 24) (a3 : Byte) (seq : BitVec 16) (c : PendCode) (s : State),
    inOrder s h (sysBody 0x03 [(8, code.toNat), (16, ref.toNat), (40, a3.toNat), (48, seq.toNat)]) → sysCode code.toNat = some c →
    (accepts s c ref a3.toNat = true →
      ∃ t, exec (.sched h code ref a3 seq) s = .next t ∧
        t.pendTable = s.pendTable ++ [⟨c, s.clock.xseq + refDistance s ref, a3.toNat, false, none⟩] ∧
        { t with pendTable := s.pendTable, retries := s.retries, out := s.out } = s) ∧
    (accepts s c ref a3.toNat = false →
      ∃ t, exec (.sched h code ref a3 seq) s = .next t ∧ t.pendTable = s.pendTable ∧ t.fld fCmdErr = min 255 (s.fld fCmdErr + 1) ∧
        { t with regs := s.regs, retries := s.retries, out := s.out } = s)) ∧
  (∀ (h : FlitHdr) (refused : Bool) (sender : BitVec 10) (seq : BitVec 16) (s : State),
    inOrder s h (sysBody 0x04 [(8, bit refused), (16, sender.toNat), (26, seq.toNat)]) → s.is fTkActive = true →
    ∃ t, exec (.schedAck h refused sender seq) s = .next t ∧
      t.fld fTkNacks = (if refused = true then min 65535 (s.fld fTkNacks + 1) else s.fld fTkNacks) ∧ regsSame s t [fTkNacks.addr] ∧
      { t with regs := s.regs, retries := s.retries } = s) ∧
  (∀ (h : FlitHdr) (sender : BitVec 10) (seq : BitVec 16) (s : State), inOrder s h (sysBody 0x05 [(16, sender.toNat), (26, seq.toNat)]) →
    s.is fTkActive = true → (∀ e ∈ s.sys.arrivals, e.1 ≠ seq) →
    (1 < s.fld fTkBarrierN →
      ∃ t, exec (.arrive h sender seq) s = .next t ∧ t.sys = { s.sys with arrivals := ((seq, [sender.toNat]) :: s.sys.arrivals).take 64 } ∧
        t.fld fTkBarrierSeq = s.fld fTkBarrierSeq ∧ { t with retries := s.retries, sys := s.sys } = s) ∧
    (s.fld fTkBarrierN ≤ 1 → s.stage.sysWait = false →
      ∃ t, exec (.arrive h sender seq) s = .next t ∧ t.fld fTkBarrierSeq = seq.toNat ∧ regsSame s t [fTkBarrierSeq.addr] ∧ t.stage = s.stage)) ∧
  (∀ (h : FlitHdr) (seq : BitVec 16) (s : State), inOrder s h (sysBody 0x06 [(8, seq.toNat)]) →
    (s.stage.sysWait = true → s.stage.barrierSeq % 65536 = seq.toNat → s.stage.running = false →
      ∃ t, exec (.sysRelease h seq) s = .next t ∧ t.stage = { s.stage with barrierSeq := s.stage.barrierSeq + 1, sysWait := false } ∧
        t.fld fStageBarriers = min (2 ^ 32 - 1) (s.fld fStageBarriers + 1)) ∧
    (∀ i left : Nat, s.stage.sysWait = true → s.stage.barrierSeq % 65536 = seq.toNat → s.stage.running = true → (i, left) = nextStep s →
      i ≠ 0 ∨ s.run.step0Stop = none →
      ∃ t, exec (.sysRelease h seq) s = .next t ∧ t.stage.step = i ∧ t.stage.left = left ∧ t.stage.barrierSeq = s.stage.barrierSeq + 1 ∧
        t.stage.sysWait = false ∧ t.stage.releasedAt = s.clock.now) ∧
    (s.stage.sysWait = false ∨ s.stage.barrierSeq % 65536 ≠ seq.toNat →
      ∃ t, exec (.sysRelease h seq) s = .next t ∧ t.stage = s.stage ∧ t.regs = s.regs)) ∧
  (∀ (h : FlitHdr) (group : BitVec 10) (member : BitVec 3) (stream : BitVec 14) (s : State),
    inOrder s h (sysBody 0x07 [(8, group.toNat), (18, member.toNat), (21, stream.toNat)]) →
    exec (.detach h group member stream) s = .next (acceptedOn s h)) ∧
  (∀ (h : FlitHdr) (width : BitVec 2) (s : State), inOrder s h (sysBody 0x08 [(8, width.toNat)]) →
    (width.toNat < s.fld (fGrpWidth h.site.val (leadH s h)) → laneLocked s h.site.val (leadH s h) false = false →
      ∃ t, exec (.restripe h width) s = .next t ∧ t.fld (fGrpWidth h.site.val (leadH s h)) = width.toNat ∧
        t.is (fRestriped h.site.val (leadH s h)) = true) ∧
    (s.fld (fGrpWidth h.site.val (leadH s h)) ≤ width.toNat → exec (.restripe h width) s = .next (acceptedOn s h))) ∧
  (∀ (h : FlitHdr) (stamp : Word32) (s : State),
    (∀ j : Nat, inOrder s h (sysBody 0x09 [(8, 0), (16, stamp.toNat)]) → goesOut s h.site.val (leadH s h) j →
      ∃ t, exec (.echo h false stamp) s = .next t ∧
        t.out = sentOut s h.site.val (leadH s h) j ⟨false, 0, true, true, false, sysBody 0x09 [(8, 1), (16, stamp.toNat)]⟩ :: s.out ∧
        { t with retries := s.retries, out := s.out } = s) ∧
    (inOrder s h (sysBody 0x09 [(8, 1), (16, stamp.toNat)]) →
      (s.fld (fHopNs h.site.val (leadH s h)) ≠ 0 → exec (.echo h true stamp) s = .next (acceptedOn s h)) ∧
      (s.fld (fHopNs h.site.val (leadH s h)) = 0 →
        ∃ t m, exec (.echo h true stamp) s = .next t ∧ t.fld (fHopNs h.site.val (leadH s h)) = min 4095 (88 + 5 * m) ∧
          regsSame s t [(fHopNs h.site.val (leadH s h)).addr] ∧
          { t with regs := s.regs, retries := s.retries, freeNext := s.freeNext } = s))) ∧
  (∀ s : State, s.is fTkActive = true →
    ∃ t, exec .announceTimer s = .next t ∧ t.sys = { s.sys with annSeq := s.sys.annSeq + 1 } ∧
      { t with sys := s.sys, retries := s.retries, out := s.out } = s) ∧
  (∀ s : State, ∃ t, exec .tkKnownTimeout s = .next t ∧ t.is fTkKnown = false ∧ t.fld fTkNum = s.fld fTkNum ∧ regsSame s t [fTkKnown.addr] ∧
    { t with regs := s.regs } = s) ∧
  (∀ (c : PendCode) (ref : BitVec 24) (s : State), sysCode (s.fld fTkCode) = some c → ref = BitVec.ofNat 24 (s.fld fTkRef) →
    (s.is fTkActive = false ∨ s.runs = false ∨ refDistance s ref < s.fld fTkLead ∨ 2048 * s.fld fTurnLen ≤ refDistance s ref ∨
        (c = .epoch ∧ ∃ e, s.sys.lastEpoch = some e ∧ s.clock.xseq + refDistance s ref ≤ e + 4096 ∧ e ≤ s.clock.xseq + refDistance s ref + 4096) →
      ∃ t, exec .tkSend s = .next t ∧ t.is fTkErr = true ∧ regsSame s t [fTkErr.addr] ∧ { t with regs := s.regs } = s) ∧
    (sendRefused s = false → accepts s c ref (s.fld fTkA3) = true →
      ∃ t, exec .tkSend s = .next t ∧ t.pendTable = s.pendTable ++ [⟨c, s.clock.xseq + refDistance s ref, s.fld fTkA3, false, none⟩] ∧
        t.sys.cmdSeq = s.sys.cmdSeq + 1 ∧ { t with pendTable := s.pendTable, sys := s.sys, retries := s.retries, out := s.out } = s)) ∧
  (∀ s : State, ∃ t, exec .detachClear s = .next t ∧ t.fld fDetachCount = 0 ∧
    (∀ i : Nat, i < 16 → t.raw (0x2040 + 8 * i) = 0 ∧ t.raw (0x2044 + 8 * i) = 0) ∧ t.fld fDetachFull = s.fld fDetachFull ∧
    { t with regs := s.regs } = s)

/-- Locked windows and releases, and the timers and resets of the loose class (12 R302 to R308, R311, R312).
It rests also on the model's choices in notes/assumptions/2.md, notes/assumptions/12.md, notes/assumptions/72.md. -/
def Obligations.FabricTimersAct : Prop :=
  (∀ (site : SiteIx) (lead : Fin 32) (c : Calendar) (e : CalSlot) (j tag pos : Nat) (s : State), calendarOf s site.val lead.val = some c →
    c.entries = [e] → e.slot < c.slots → pos = (s.retry site.val lead.val).pos + e.slot →
    j = (ways s site.val lead.val).getD (pos % max 1 (ways s site.val lead.val).length) lead.val →
    s.runs = true → s.lockedImage = true → s.window site.val lead.val ≤ s.clock.xseq → tag = s.fld fCurrent % 64 →
    ∃ t, exec (.lockedWindow site lead) s = .next t ∧
      (t.retry site.val lead.val).pos = (s.retry site.val lead.val).pos + c.slots ∧ t.window site.val lead.val = s.clock.xseq + 1 ∧
      (∀ b : Beat, taggedBeat (s.txLink site.val e.link) tag e.beat = some b →
        t.fld (fTxLate site.val e.link) = s.fld (fTxLate site.val e.link) ∧
        (laneState s site.val j true = 2 → s.is (fGrpUp site.val lead.val) = true →
          t.out = .flit site.val j pos 0 ⟨true, BitVec.ofNat 14 e.stream, true, true, sysEpoch s, .beat b⟩ :: s.out)) ∧
      (taggedBeat (s.txLink site.val e.link) tag e.beat = none →
        t.fld (fTxLate site.val e.link) = min 255 (s.fld (fTxLate site.val e.link) + 1) ∧
        (laneState s site.val j true = 2 → s.is (fGrpUp site.val lead.val) = true → t.out = .flit site.val j pos 0 ⟨true, BitVec.ofNat 14 e.stream, true, true, sysEpoch s,
          .beat ⟨0, 0, BitVec.ofNat 6 tag, false, true, false, false⟩⟩ :: s.out)) ∧
      (laneState s site.val j true ≠ 2 ∨ s.is (fGrpUp site.val lead.val) = false → t.out = s.out) ∧
      { t with regs := s.regs, clock := s.clock, retries := s.retries, txLinks := s.txLinks, windows := s.windows, out := s.out } = s) ∧
  (∀ (x : BitVec 14) (i q u : Nat) (d : QueueId) (s : State), i = x.toNat → q = (s.ctx i).next → u = s.openAt q + s.fld (fRxW i) →
    d = targetQueue s i → s.runs = true → s.lockedImage = true → s.is (fCtxLocked i) = true → s.fld (fCtxKind i) = 1 → s.inRun q = true →
    q ≤ s.clock.xseq → qHold s d = false →
    (∀ h : HeldFrame, (s.ctx i).held.find? (fun g => decide (g.xseq = q) && decide (g.arrival ≤ s.fld (fRxW i))) = some h →
      ∃ t, exec (.lockedReceiveRelease x) s = .next t ∧ (t.ctx i).next = q + 1 ∧ (∀ g ∈ (t.ctx i).held, g.xseq ≠ q) ∧
        (t.cluster (qCluster d)).arrivals = (s.cluster (qCluster d)).arrivals ++
          ((List.range h.beats.length).zip (flagRow h.beats)).map (fun p => ⟨d, u + p.1, 5, p.2⟩) ∧
        { t with clock := s.clock, ctxs := s.ctxs, clusters := s.clusters } = s) ∧
    ((s.ctx i).held.find? (fun g => decide (g.xseq = q) && decide (g.arrival ≤ s.fld (fRxW i))) = none → s.fld (fCtxBeats i) = 0 →
      ∃ t, exec (.lockedReceiveRelease x) s = .next t ∧ (t.ctx i).next = q + 1 ∧
        (t.cluster (qCluster d)).arrivals = (s.cluster (qCluster d)).arrivals ++
          [⟨d, u, 5, ⟨0, 0, BitVec.ofNat 6 (s.numOf q % 64), (s.ctx i).uncorrSeen, !(s.ctx i).uncorrSeen, true, true⟩⟩] ∧
        t.fld (fCtxLate i) = (if (s.ctx i).uncorrSeen = true then s.fld (fCtxLate i) else min 65535 (s.fld (fCtxLate i) + 1)) ∧
        t.fld (fCtxBad i) = (if (s.ctx i).uncorrSeen = true then min 65535 (s.fld (fCtxBad i) + 1) else s.fld (fCtxBad i)) ∧
        regsSame s t [(fCtxLate i).addr])) ∧
  (∀ (x : BitVec 14) (site lead j : Nat) (s : State), (s.ctx x.toNat).via = some (site, lead) → 0 < (s.ctx x.toNat).due →
    goesOut s site lead j →
    ∃ t, exec (.creditTimer x) s = .next t ∧ t.ctx x.toNat = { s.ctx x.toNat with due := 0 } ∧
      t.out = sentOut s site lead j ⟨false, x, true, true, false, .credit (BitVec.ofNat 16 (s.ctx x.toNat).due)⟩ :: s.out ∧
      { t with retries := s.retries, ctxs := s.ctxs, out := s.out } = s) ∧
  (∀ (site : SiteIx) (lane : Fin 32) (r : Retry) (s : State), s.tile site.val = 1 → laneCarries s site.val lane.val = true →
    r = s.retry site.val lane.val →
    (∃ t, exec (.ackTimer site lane) s = .next t ∧ t.out = linkOut s site.val lane.val (r.expect - 1) false :: s.out ∧
      (t.retry site.val lane.val).sinceAck = 0 ∧ (t.retry site.val lane.val).expect = r.expect ∧
      { t with retries := s.retries, out := s.out } = s) ∧
    (r.nak = true → ∃ t, exec (.nakRepeat site lane) s = .next t ∧ t.out = linkOut s site.val lane.val r.expect true :: s.out ∧
      { t with retries := s.retries, out := s.out } = s) ∧
    (r.nak = false → exec (.nakRepeat site lane) s = .next s) ∧
    (r.unacked = [] → exec (.resendTimeout site lane) s = .next s) ∧
    (r.unacked ≠ [] → (∀ e ∈ r.unacked, e.2.1 < 15) →
      ∃ t, exec (.resendTimeout site lane) s = .next t ∧ t.out = resentOut s site.val lane.val r.unacked ++ s.out ∧
        (t.retry site.val lane.val).unacked = r.unacked.map (fun e => (e.1, e.2.1 + 1, e.2.2)) ∧
        t.fld (fRetries site.val (leadOf s site.val lane.val)) = min 255 (s.fld (fRetries site.val (leadOf s site.val lane.val)) + 1) ∧
        regsSame s t [(fRetries site.val (leadOf s site.val lane.val)).addr] ∧
        { t with regs := s.regs, retries := s.retries, out := s.out } = s) ∧
    ((∃ e ∈ r.unacked, 15 ≤ e.2.1) →
      ∃ t, exec (.resendTimeout site lane) s = .next t ∧ t.is (fRetryFail site.val (leadOf s site.val lane.val)) = true)) ∧
  (∀ (m : BitVec 10) (f : Flit) (s : State), (s.mc m.toNat).queue = [f] → (s.mc m.toNat).waiting = true → 0 < s.fld (fDetachUs m.toNat) →
    (∀ i ∈ mcMembers s m.toNat, s.is (fMemLocal m.toNat i) = false) → (∀ n : Nat, n ≠ m.toNat → (s.mc n).queue = []) →
    ∃ t, exec (.detachTimeout m) s = .next t ∧ (∀ i ∈ holding s m.toNat, t.is (fDetached m.toNat i) = true) ∧
      t.fld (fDetaches m.toNat) = min 65535 (s.fld (fDetaches m.toNat) + (holding s m.toNat).length) ∧
      (s.fld fDetachCount + (holding s m.toNat).length ≤ 16 → t.fld fDetachCount = s.fld fDetachCount + (holding s m.toNat).length)) ∧
  (∀ (site : SiteIx) (lead : Fin 32) (s : State), s.recovery = false → s.tile site.val = 1 → isLead s site.val lead.val = true →
    (laneLocked s site.val lead.val false = false →
      ∃ t, exec (.linkReset site lead) s = .next t ∧ t.is (fGrpUp site.val lead.val) = false ∧ t.is (fGrpReset site.val lead.val) = true ∧
        t.fld (fResets site.val lead.val) = min 255 (s.fld (fResets site.val lead.val) + 1) ∧
        (∀ j ∈ groupLanes s site.val lead.val, (t.retry site.val j).unacked = [] ∧ (t.retry site.val j).waiting = []) ∧ t.out = s.out) ∧
    (laneLocked s site.val lead.val false = true →
      ∃ t, exec (.linkReset site lead) s = .next t ∧ t.is (laneIgnored site.val lead.val true) = true ∧
        regsSame s t [(laneIgnored site.val lead.val true).addr] ∧ { t with regs := s.regs } = s))

/-! ### Supplies, temperatures and voltage -/

/-- Reset, supplies and their stops, and power averages (17 R413 to R421, R432; 15 R392).
It rests also on the model's choices in notes/assumptions/2.md, notes/assumptions/32.md, notes/assumptions/41.md, notes/assumptions/42.md, notes/assumptions/44.md, notes/assumptions/57.md. -/
def Obligations.SuppliesStopAndStart : Prop :=
  (∀ s : State, ∃ t, exec .porstFall s = .next t ∧ t.pins.porst = false ∧ t.fuses = s.fuses ∧ (s.flashCmd = none → t.flash = s.flash) ∧
    t.fld fBootState = 0 ∧ t.image = none ∧ t.units = [] ∧ t.clusters = [] ∧ t.memTiles = [] ∧ t.run.started = false ∧
    t.fld fRailsGood = s.fld fRailsGood ∧ t.fld fBrownout = s.fld fBrownout ∧ t.fld fStraps = s.pins.straps.toNat ∧
    t.pins.straps = s.pins.straps ∧ (∀ a : Nat, a ≠ 0x10100 → a ≠ 0x2000 → a ≠ 0x10110 → t.raw a = regReset s a)) ∧
  (∀ (straps : BitVec 4) (s : State),
    (s.pins.porst = true → exec (.porstRise straps) s = .next s) ∧
    (s.pins.porst = false → ¬ (bootWaits s ∧ s.pins.refclk = true) →
      ∃ t, exec (.porstRise straps) s = .next t ∧ t.pins = { s.pins with porst := true, straps := straps, alert := t.pins.alert } ∧
        alertFollows s t ∧ t.fld fStraps = straps.toNat ∧
        t.is fTkStrap = straps.getLsbD 0 ∧ t.fld fSmbAddr = (if straps.getLsbD 1 = true then 0x59 else 0x58) ∧
        regsSame s t [0x10100, 0x2000, 0x10110] ∧ { t with regs := s.regs, pins := s.pins } = s) ∧
    (s.pins.porst = false → bootWaits s → s.pins.refclk = true → straps.getLsbD 2 = true →
      ∃ t, exec (.porstRise straps) s = .next t ∧ t.fld fBootState = 6 ∧ t.clock.stopped = true ∧ t.pins.porst = true) ∧
    (s.pins.porst = false → bootWaits s → s.pins.refclk = true → straps.getLsbD 2 = false → 2 ≤ s.flashDead →
      ∃ t, exec (.porstRise straps) s = .next t ∧ t.fld fBootState = 6 ∧ t.fld fErrA = 1 ∧ t.fld fErrB = 1 ∧ t.pins.porst = true ∧ t.flashDead = 0)) ∧
  (∀ s : State, bootWaits s → s.pins.porst = true → s.fld fStraps < 4 →
    (∀ n : Nat, manifestError s false = (0, n) → ∃ t, exec .refclkPresent s = .next t ∧ t.fld fBootState = 5 ∧ t.pins.refclk = true) ∧
    (∀ a b : Nat × Nat, manifestError s false = a → manifestError s true = b → a.1 ≠ 0 → b.1 ≠ 0 → a.1 < 16 → b.1 < 16 →
      ∃ t, exec .refclkPresent s = .next t ∧ t.fld fBootState = 6 ∧ t.fld fErrA = a.1 ∧ t.fld fErrB = b.1 ∧ t.image = s.image)) ∧
  (∀ s : State, (s.pins.vin = false → exec .railsGood s = .next s) ∧
    (s.pins.vin = true → s.pins.porst = false →
      ∃ t, exec .railsGood s = .next t ∧ t.is fRailsGood = true ∧ regsSame s t [0x10100] ∧ { t with regs := s.regs } = s)) ∧
  (∀ s : State, exec .vinRise s = .next { s with pins := { s.pins with vin := true } }) ∧
  (∀ s : State, (s.pins.vin = false → exec .brownout s = .next s) ∧
    (s.pins.vin = true → ∃ t, exec .brownout s = .next t ∧ t.is fBrownout = true ∧ t.is fRailsGood = false ∧ t.pins.vin = false ∧ t.image = none ∧
      t.units = [] ∧ t.memTiles = [] ∧ t.fuses = s.fuses ∧ (s.flashCmd = none → t.flash = s.flash)) ∧
    (∃ t, exec .vinBelow10V s = .next t ∧ t.is fBrownout = false ∧ t.is fRailsGood = false ∧ t.pins.vin = false ∧ t.fuses = s.fuses)) ∧
  (∀ (c : Instr) (f : Fld) (s : State), (c, f) ∈ [(Instr.ov, fOv), (.oc, fOc)] →
    (supplied s = false → exec c s = .next s) ∧
    (supplied s = true → ∃ t, exec c s = .next t ∧ t.is f = true ∧ t.is fSupplyStop = true ∧ t.run.started = false ∧ t.is fArmed = false ∧
      t.clock.stopped = true ∧ t.thermal.coresOff = true ∧ t.links = [] ∧ t.image = s.image ∧ t.memTiles = s.memTiles)) ∧
  (∀ (d : DieIx) (s : State), (supplied s = false → exec (.regFault d) s = .next s) ∧
    (supplied s = true → ∃ t, exec (.regFault d) s = .next t ∧ t.is fRegFault = true ∧ t.fld fRegDie = d.val ∧ t.is fSupplyStop = true ∧
      t.run.started = false ∧ t.clock.stopped = true ∧ (d.val = 0 → t.thermal.die0Off = true) ∧
      (d.val ≠ 0 → t.thermal.die0Off = s.thermal.die0Off))) ∧
  (∀ s : State, (s.fld fBootState ≠ 5 → exec .refclkLoss s = .next { s with pins := { s.pins with refclk := false } }) ∧
    (supplied s = true → s.fld fBootState = 5 →
      ∃ t, exec .refclkLoss s = .next t ∧ t.is fRefclkLoss = true ∧ t.is fSupplyStop = true ∧ t.pins.refclk = false ∧ t.run.started = false ∧
        t.clock.stopped = true)) ∧
  (∀ (vin iin pin : BitVec 16) (s : State), s.pins.vin = true →
    (10 * s.fld fWatts < pin.toNat →
      ∃ t, exec (.powerAverage vin iin pin) s = .next t ∧ t.fld fVin = vin.toNat ∧ t.fld fIin = iin.toNat ∧ t.fld fPin = pin.toNat ∧
        t.fld fPeak = max (s.fld fPeak) pin.toNat ∧ t.is fOverLimit = true ∧ t.is fThrottle = true ∧ t.thermal.underLimit = 0) ∧
    (pin.toNat ≤ 10 * s.fld fWatts → s.is fThrottle = true →
      ∃ t, exec (.powerAverage vin iin pin) s = .next t ∧ t.fld fPin = pin.toNat ∧ t.is fThrottle = decide (s.thermal.underLimit < 9) ∧
        t.thermal.underLimit = (if s.thermal.underLimit < 9 then s.thermal.underLimit + 1 else 0) ∧
        t.fld fThrottleMs = min 65535 (s.fld fThrottleMs + 1) ∧ t.is fOverLimit = s.is fOverLimit))

/-- Temperatures, the stop of a trip, and adaptive voltage (15 R388 to R392).
It rests also on the model's choices in notes/assumptions/2.md, notes/assumptions/14.md, notes/assumptions/74.md. -/
def Obligations.TemperatureAndVoltageAct : Prop :=
  (∀ (temps l : List Int) (hot : Int) (s : State), l = (List.range 64).map (fun r => temps.getD r 0) → hot = (hottest l).1 →
    (∃ t, exec (.temperatureConversion temps) s = .next t ∧ (∀ r : Nat, r < 64 → t.fld (fTemp r) = low 11 (l.getD r 0)) ∧
      t.fld fHottest = low 11 hot ∧ t.thermal.latest = l) ∧
    (s.fld fThermState = 0 → hot < 392 →
      ∃ t, exec (.temperatureConversion temps) s = .next t ∧ t.fld fThermState = 0 ∧ t.thermal.second = []) ∧
    (s.fld fThermState = 0 → 392 ≤ hot → hot < 480 →
      ∃ t, exec (.temperatureConversion temps) s = .next t ∧ t.fld fThermState = 1 ∧ t.is fSquallSeen = true ∧
        t.fld fSqualls = min 65535 (s.fld fSqualls + 1) ∧ t.thermal.second = (List.range 64).filter (fun r => decide (440 ≤ l.getD r 0)) ∧
        t.run = s.run) ∧
    (s.fld fThermState = 1 → hot < 380 → 99 ≤ s.thermal.below →
      ∃ t, exec (.temperatureConversion temps) s = .next t ∧ t.fld fThermState = 0 ∧ t.thermal.below = 0) ∧
    (s.fld fThermState = 1 → hot < 380 → s.thermal.below < 99 →
      ∃ t, exec (.temperatureConversion temps) s = .next t ∧ t.fld fThermState = 1 ∧ t.thermal.below = s.thermal.below + 1) ∧
    (480 ≤ hot →
      ∃ t, exec (.temperatureConversion temps) s = .next t ∧ t.fld fThermState = 2 ∧ t.is fTripped = true ∧ t.is fEmergency = true ∧
        t.thermal.stopNow = true ∧ t.run = s.run)) ∧
  (∀ (r : RegionIx) (temp : Int) (s : State),
    (s.thermal.second.contains r.val = false → exec (.secondConversion r temp) s = .next s) ∧
    (s.thermal.second.contains r.val = true → 440 ≤ temp → s.fld fThermState ≠ 2 →
      ∃ t, exec (.secondConversion r temp) s = .next t ∧ t.fld fThermState = 2 ∧ t.is fTripped = true ∧ t.fld (fTemp r.val) = low 11 temp ∧
        t.run = s.run ∧
        ((hottest (s.thermal.latest.set r.val temp)).1 < 480 → s.run.started = true → s.lockedImage = true → s.fld fTurnLen ≠ 0 →
          t.thermal.fallbackNext = true ∧ t.thermal.stopNow = s.thermal.stopNow) ∧
        (s.run.started = false → t.thermal.stopNow = true)) ∧
    (s.thermal.second.contains r.val = true → (hottest (s.thermal.latest.set r.val temp)).1 < 392 → temp < 440 → s.fld fThermState = 0 →
      ∃ t, exec (.secondConversion r temp) s = .next t ∧ t.fld fThermState = 0 ∧ t.fld (fTemp r.val) = low 11 temp ∧
        t.thermal.second = s.thermal.second.erase r.val)) ∧
  (∀ s : State,
    (s.thermal.stopNow = true ∨ (s.thermal.fallback = true ∧ s.fld fTurnLeft = 0) ∨
        ((s.thermal.fallback = true ∨ s.thermal.fallbackNext = true) ∧ s.runs = false) →
      ∃ t, exec .tripStop s = .next t ∧ t.run.started = false ∧ t.is fArmed = false ∧ t.clock.stopped = true ∧ t.thermal.coresOff = true ∧
        t.thermal.stopNow = false ∧ t.thermal.fallback = false ∧ t.pins.thermtripLow = true ∧ t.links = [] ∧ t.memTiles = s.memTiles) ∧
    (s.thermal.stopNow = false → (s.thermal.fallback = true → s.fld fTurnLeft ≠ 0) →
      (s.runs = true ∨ (s.thermal.fallback = false ∧ s.thermal.fallbackNext = false)) → exec .tripStop s = .next s)) ∧
  (∀ (d : DieIx) (slack : BitVec 8) (mv : Nat) (s : State), s.runs = true → (s.avsOf d.val).settling = false → s.fld fThermState ≠ 2 →
    mv = s.fld (fMv d.val) →
    (slack.toInt < 20 → mv + 5 ≤ s.fuses.vmax → mv + 5 < 1024 →
      ∃ t, exec (.avsReading d slack) s = .next t ∧ t.fld (fMv d.val) = mv + 5 ∧ t.fld (fSlack d.val) = slack.toNat ∧
        (t.avsOf d.val).settling = true ∧ t.fld (fAvsSteps d.val) = min 65535 (s.fld (fAvsSteps d.val) + 1)) ∧
    (slack.toInt < 20 → mv = s.fuses.vmax →
      ∃ t, exec (.avsReading d slack) s = .next t ∧ t.fld (fMv d.val) = mv ∧ (t.avsOf d.val).settling = false ∧
        (s.is (fDegrading d.val) = false → 9 ≤ (s.avsOf d.val).lowAtMax → t.is (fLimit d.val) = true ∧ t.is (fDegrading d.val) = true)) ∧
    (20 ≤ slack.toInt → slack.toInt ≤ 40 →
      ∃ t, exec (.avsReading d slack) s = .next t ∧ t.fld (fMv d.val) = mv ∧ t.fld (fSlack d.val) = slack.toNat ∧ (t.avsOf d.val).settling = false ∧
        (t.avsOf d.val).high = 0) ∧
    (40 < slack.toInt → 99 ≤ (s.avsOf d.val).high → s.fuses.vmin + 5 ≤ mv →
      ∃ t, exec (.avsReading d slack) s = .next t ∧ t.fld (fMv d.val) = mv - 5 ∧ (t.avsOf d.val).settling = true)) ∧
  (∀ (d : DieIx) (s : State), ∃ t, exec (.avsStepSettled d) s = .next t ∧ t.avsOf d.val = { s.avsOf d.val with settling := false } ∧
    (∀ e : Nat, e ≠ d.val → t.avsOf e = s.avsOf e) ∧ { t with avs := s.avs } = s)

/-! ### Boot, flash and scrubbing -/

/-- REBOOT, the flash window, the owner key, and what a boot without flash does (14 R362, R366, R370, R372, R373).
It rests also on the model's choices in notes/assumptions/40.md, notes/assumptions/41.md, notes/assumptions/42.md, notes/assumptions/48.md, notes/assumptions/64.md. -/
def Obligations.BootAndFlashCommandsAct : Prop :=
  (∀ s : State,
    (s.flashCmd = none → exec .flashTimeout s = .next { s with flashDead := s.flashDead + 1 }) ∧
    (s.flashCmd ≠ none →
      ∃ t, exec .flashTimeout s = .next t ∧ t.is fFlErr = true ∧ t.is fFlBusy = false ∧ t.is fFlGo = false ∧ regsSame s t [0x40014] ∧
        { t with regs := s.regs, flashCmd := s.flashCmd } = s ∧ t.flashCmd = none)) ∧
  (∀ (straps : BitVec 4) (s : State),
    (s.recovery = false → s.fld fBootState ≠ 5 ∨ s.is fArmed = true →
      ∃ t, exec (.reboot straps) s = .next t ∧ t.is fRebootRefused = true ∧ regsSame s t [fRebootRefused.addr] ∧ { t with regs := s.regs } = s) ∧
    (s.recovery = true ∨ (s.fld fBootState = 5 ∧ s.is fArmed = false) → s.pins.refclk = false →
      ∃ t, exec (.reboot straps) s = .next t ∧ t.fld fBootState = 0 ∧ t.image = none ∧ t.units = [] ∧ t.memTiles = [] ∧ t.run.started = false ∧
        t.fuses = s.fuses ∧ t.posted = s.posted ∧ t.shadow = s.shadow ∧ t.pins.straps = straps ∧ t.raw 0x32004 = s.raw 0x32004)) ∧
  (∀ (c : Instr) (op : Nat) (s : State), (c, op) ∈ [(Instr.flashRead, 0), (.flashProgram, 1), (.flashErase, 2)] →
    (s.is fArmed = false → s.flashCmd = none →
      ∃ t, exec c s = .next t ∧ t.flashCmd = some (op, s.fld fFlAddr, s.fld fFlLen, (flashBuffer s).take (s.fld fFlLen + 1)) ∧ t.is fFlBusy = true ∧
        t.is fFlGo = true ∧ t.fld fFlOp = op ∧ regsSame s t [0x40014] ∧
        t.out = (if s.extest = true then s.out
          else .bootPort (bootBytes op (s.fld fFlAddr) ((flashBuffer s).take (s.fld fFlLen + 1))) :: s.out) ∧
        { t with regs := s.regs, flashCmd := s.flashCmd, out := s.out } = s) ∧
    (s.is fArmed = true ∨ s.flashCmd ≠ none →
      ∃ t, exec c s = .next t ∧ t.is fFlErr = true ∧ regsSame s t [0x40014] ∧ { t with regs := s.regs } = s)) ∧
  (∀ (a len : Nat) (bytes : List Byte) (s : State),
    (∀ op : Nat, s.extest = true → s.flashCmd = some (op, a, len, bytes) →
      ∃ t, exec .flashCommandDone s = .next t ∧ t.is fFlErr = true ∧ t.is fFlBusy = false ∧ t.flashCmd = none ∧ regsSame s t [0x40014] ∧
        { t with regs := s.regs, flashCmd := s.flashCmd } = s) ∧
    (s.extest = false → s.flashCmd = some (0, a, len, bytes) → len < 256 →
      ∃ t, exec .flashCommandDone s = .next t ∧ (∀ i : Nat, i ≤ len → (flashBuffer t).getD i 0 = flashByte s (a + i)) ∧ t.is fFlBusy = false ∧
        t.flashCmd = none ∧ t.flash = s.flash) ∧
    (s.extest = false → s.flashCmd = some (1, a, len, bytes) →
      ∃ t, exec .flashCommandDone s = .next t ∧ (∀ i : Nat, i < bytes.length → flashByte t (a + i) = bytes.getD i 0) ∧
        (∀ b : Nat, b < a ∨ a + bytes.length ≤ b → flashByte t b = flashByte s b) ∧ t.is fFlBusy = false ∧ regsSame s t [0x40014] ∧
        { t with regs := s.regs, flash := s.flash, flashCmd := s.flashCmd } = s) ∧
    (s.extest = false → s.flashCmd = some (2, a, len, bytes) →
      ∃ t, exec .flashCommandDone s = .next t ∧
        (∀ b : Nat, flashByte t b = (if b / 65536 = a / 65536 then 0xFF else flashByte s b)) ∧ t.is fFlBusy = false ∧ regsSame s t [0x40014] ∧
        { t with regs := s.regs, flash := s.flash, flashCmd := s.flashCmd } = s)) ∧
  (∀ (confirm : Byte) (s : State),
    (s.fuses.ownerSet = true ∨ confirm ≠ 0xA5 ∨ s.is fArmed = true ∨ (∀ b ∈ stagedOwner s, b = 0) →
      ∃ t, exec (.ownerProgram confirm) s = .next t ∧ t.is fOwnerErr = true ∧ regsSame s t [0x40280] ∧ { t with regs := s.regs } = s) ∧
    (s.fuses.ownerSet = false → confirm = 0xA5 → s.is fArmed = false → (∃ b ∈ stagedOwner s, b ≠ 0) → s.trust.ownerNew = none →
      ∃ t, exec (.ownerProgram confirm) s = .next t ∧ t.trust = { s.trust with ownerNew := some (stagedOwner s) } ∧ t.is fOwnerBusy = true ∧
        regsSame s t [0x40280] ∧ { t with regs := s.regs, trust := s.trust } = s)) ∧
  (∀ (k : List Byte) (s : State), s.trust.ownerNew = some k →
    ∃ t, exec .ownerProgramDone s = .next t ∧ t.fuses = { s.fuses with ownerSet := true, ownerHash := k } ∧ t.trust = { s.trust with ownerNew := none } ∧
      t.is fOwnerBusy = false ∧ regsSame s t [0x40280] ∧ { t with regs := s.regs, trust := s.trust, fuses := s.fuses } = s)

/-- The scrubbers and fenced units (15 R382 to R386): a correctable word is rewritten and counted, an uncorrectable one is counted and stays, and no
word changes its value.
It rests also on the model's choices in notes/assumptions/22.md, notes/assumptions/34.md. -/
def Obligations.ScrubbersReadWords : Prop :=
  (∀ (u : UnitIx) (kind w r : Nat) (s : State), r = u.val / 64 → s.is (fScrubEn r) = true → (s.unit u.val).scrubPos + 1 < 18176 →
    (kind, w) = unitPlace (s.unit u.val).scrubPos →
    ∃ t, exec (.unitScrubRead u) s = .next t ∧ (t.unit u.val).scrubPos = (s.unit u.val).scrubPos + 1 ∧
      (∀ k v : Nat, (unitStore (t.unit u.val) k).word v = (unitStore (s.unit u.val) k).word v) ∧
      (unitStore (t.unit u.val) kind).check w =
        (if (unitStore (s.unit u.val) kind).check w = some .correctable then none else (unitStore (s.unit u.val) kind).check w) ∧
      t.fld (fScrubCe r) = (if (unitStore (s.unit u.val) kind).check w = some .correctable then min 65535 (s.fld (fScrubCe r) + 1)
        else s.fld (fScrubCe r)) ∧
      t.fld (fScrubUe r) = (if (unitStore (s.unit u.val) kind).check w = some .uncorrectable then min 65535 (s.fld (fScrubUe r) + 1)
        else s.fld (fScrubUe r)) ∧
      regsSame s t [regionBase r + 0x1408, regionBase r + 0x140C] ∧ { t with regs := s.regs, units := s.units } = s) ∧
  (∀ (r : RegionIx) (k w : Nat) (s : State), s.is (fScrubEn r.val) = true → (s.region r.val).scrubPos < 1048576 →
    k = 8 * r.val + (s.region r.val).scrubPos / 131072 → w = (s.region r.val).scrubPos % 131072 →
    ∃ t, exec (.regionScrubRead r) s = .next t ∧ (t.region r.val).scrubPos = (s.region r.val).scrubPos + 1 ∧
      (∀ v : Nat, (t.cluster k).store.word v = (s.cluster k).store.word v) ∧
      (t.cluster k).store.check w = (if (s.cluster k).store.check w = some .correctable then none else (s.cluster k).store.check w) ∧
      t.fld (fScrubCe r.val) = (if (s.cluster k).store.check w = some .correctable then min 65535 (s.fld (fScrubCe r.val) + 1)
        else s.fld (fScrubCe r.val)) ∧
      t.fld (fScrubUe r.val) = (if (s.cluster k).store.check w = some .uncorrectable then min 65535 (s.fld (fScrubUe r.val) + 1)
        else s.fld (fScrubUe r.val)) ∧
      regsSame s t [regionBase r.val + 0x1408, regionBase r.val + 0x140C] ∧
      { t with regs := s.regs, clusters := s.clusters, regions := s.regions } = s) ∧
  (∀ (r : RegionIx) (c w : Nat) (s : State), s.is (fScrubEn r.val) = true → (6, c, 0, w) = regionPlace (s.region r.val).scrubPos → w < 12288 → c < 8 →
    (s.cluster (8 * r.val + c)).logic.cells.check w = some .uncorrectable →
    ∃ t, exec (.regionScrubRead r) s = .next t ∧ t.is (fCfgUe r.val c) = true ∧
      t.fld (fScrubUe r.val) = min 65535 (s.fld (fScrubUe r.val) + 1)) ∧
  (∀ (r : RegionIx) (s : State), (s.recovery = true → exec (.scrubNowRegion r) s = .next s) ∧ (s.recovery = false → ∃ t, exec (.scrubNowRegion r) s = .next t ∧ t.is (fScrubNow r.val) = true ∧ (t.region r.val).scrubPos = 0 ∧
    (t.region r.val).nowRegion = true ∧ (∀ i : Nat, i < 64 → (t.unit (64 * r.val + i)).scrubPos = 0 ∧ i ∈ (t.region r.val).nowUnits) ∧
    regsSame s t [(fScrubNow r.val).addr] ∧ { t with regs := s.regs, units := s.units, regions := s.regions } = s)) ∧
  (∀ (u : UnitIx) (fenced : Bool) (s : State),
    (s.recovery = true → exec (.fencedWrite u fenced) s = .next s) ∧
    (s.recovery = false → s.runs = true → ∃ t, exec (.fencedWrite u fenced) s = .next t ∧ t.is (fFenced u.val) = s.is (fFenced u.val) ∧ (u.val, fenced) ∈ t.fencePend ∧
      { t with fencePend := s.fencePend } = s) ∧
    (s.recovery = false → s.runs = false → ∃ t, exec (.fencedWrite u fenced) s = .next t ∧ t.is (fFenced u.val) = fenced ∧ regsSame s t [(fFenced u.val).addr] ∧
      { t with regs := s.regs } = s))

/-! ### SMBus, JTAG and frost -/

/-- The SMBus target answers while VIN is present, and an alert is answered once (17 R428 to R430); the TAP's instructions (16 R408, R409).
It rests also on the model's choices in notes/assumptions/2.md, notes/assumptions/44.md. -/
def Obligations.SmbusAndJtagAnswer : Prop :=
  (∀ (c : Instr) (code : Byte) (count l : List Byte) (a : Nat) (s : State), a = s.fld fSmbAddr →
    (c, code, count, l) ∈ [(Instr.smbusReadIdentity, 0x00, [8], leBytes 4 (fromDies s (pkgPart s)) ++ leBytes 4 (fromDies s (s.raw 0x4).toNat)),
      (.smbusReadStatus, 0x01, [], leBytes 2 (if dieAlive s = true then s.statusWord else 2 ^ 4 * bits s.statusWord 4 3)),
      (.smbusReadVin, 0x02, [], leBytes 2 (s.fld fVin)), (.smbusReadCurrent, 0x03, [], leBytes 2 (s.fld fIin)),
      (.smbusReadPower, 0x04, [], leBytes 2 (s.fld fPin)),
      (.smbusReadTemperature, 0x06, [], leBytes 2 (fromDies s (low 16 (sext 11 (s.fld fHottest))))),
      (.smbusReadBootStatus, 0x07, [], leBytes 2 (fromDies s ((s.raw 0x40000).toNat % 2 ^ 16))),
      (.smbusAlertMask none, 0x08, [], leBytes 2 (s.fld fAlertMask))] →
    (smbUp s = true → exec c s = .next { s with
      out := .smbus (BitVec.ofNat 7 a) l (packetCode ([BitVec.ofNat 8 (2 * a), code, BitVec.ofNat 8 (2 * a + 1)] ++ count ++ l)) :: s.out }) ∧
    (smbUp s = false → exec c s = .next s)) ∧
  (∀ s : State, smbUp s = true →
    (∃ t, exec .smbusReadPeak s = .next t ∧ t.out = .smbus (smbAddress s) (leBytes 2 (s.fld fPeak))
        (packetCode ([BitVec.ofNat 8 (2 * (smbAddress s).toNat), 0x05, BitVec.ofNat 8 (2 * (smbAddress s).toNat + 1)] ++ leBytes 2 (s.fld fPeak))) :: s.out ∧ t.fld fPeak = 0 ∧
      t.fld fPin = s.fld fPin ∧ regsSame s t [fPeak.addr] ∧ { t with regs := s.regs, out := s.out } = s) ∧
    (∀ v : BitVec 16, ∃ t, exec (.smbusAlertMask (some v)) s = .next t ∧ t.fld fAlertMask = v.toNat % 256 ∧ regsSame s t [fAlertMask.addr] ∧
      { t with regs := s.regs } = s) ∧
    (s.pins.alert = true → ∃ t, exec .alertResponse s = .next t ∧ t.out = .smbus (smbAddress s) [BitVec.ofNat 8 (s.fld fSmbAddr)]
        (packetCode [0x19, BitVec.ofNat 8 (s.fld fSmbAddr)]) :: s.out ∧
      { t with out := s.out } = { s with pins := { s.pins with alert := false } }) ∧
    (s.pins.alert = false → exec .alertResponse s = .next s)) ∧
  (∀ (pins shifted : BitVec 102) (s : State), s.pins.vin = true →
    (∃ t, exec (.extest pins shifted) s = .next t ∧ t.tap = { s.tap with ir := 0x00, dr := shifted, boundary := shifted } ∧
      t.out = .cells shifted :: ((if portsUp s = true then [.tdo 102 pins] else []) ++ s.out) ∧
      { t with tap := s.tap, out := s.out } = s) ∧
    (∃ t, exec (.samplePreload pins shifted) s = .next t ∧ t.tap = { s.tap with ir := 0x01, dr := shifted, boundary := shifted } ∧
      { t with tap := s.tap, out := s.out } = s ∧
      (s.extest = false → t.out = (if portsUp s = true then [.tdo 102 pins] else []) ++ s.out))) ∧
  (∀ (c : Instr) (code : Byte) (dr : BitVec 102) (width : Nat) (s : State),
    (c, code, dr, width) ∈ [(Instr.idcode, 0x02, 0x1A7165B7, 32), (Instr.bypass 0xFF, 0xFF, 0, 1), (.bypass 0x03, 0x03, 0, 1)] →
    (s.pins.vin = false → exec c s = .next s) ∧
    (s.pins.vin = true → ∃ t, exec c s = .next t ∧ t.tap = { s.tap with ir := code, dr := dr } ∧ { t with tap := s.tap, out := s.out } = s ∧
      (s.extest = false → t.out = (if portsUp s = true then [.tdo width dr] else []) ++ s.out) ∧
      (s.extest = true → portsUp s = true → t.out.head? = some (.tdo width dr) ∧
        ∀ i : Nat, i < 8 → Out.pad i (padOf s i) ∈ t.out))) ∧
  (∀ (code : Byte) (offset : Word32) (s : State), s.pins.vin = true → s.extest = false →
    (∃ t, exec (.bypass code) s = .next t ∧ t.tap = { s.tap with ir := code, dr := 0 } ∧ { t with tap := s.tap, out := s.out } = s) ∧
    exec (.frsAddr offset) s =
      .next { s with tap := { s.tap with ir := 0x20, dr := offset.zeroExtend 102, offset := offset &&& 0xFFFFFFF8 } } ∧
    (∃ t v, exec .frsData s = .next t ∧ t.tap.offset = s.tap.offset + 8 ∧ t.out = (if portsUp s = true then [.tdo 64 v] else []) ++ s.out ∧
      (s.is fHeld = false → v = 0) ∧ (s.is fHeld = true → v = (shadowWord s s.tap.offset.toNat).zeroExtend 102) ∧
      { t with out := s.out, tap := s.tap } = s) ∧
    exec .trst s = .next { s with tap := {} })

/-- Frost captures (16 R398 to R402): what arms them, when they fill the shadow, and when they are refused or missed.
It rests also on the model's choices in notes/assumptions/3.md, notes/assumptions/39.md. -/
def Obligations.FrostCapturesOnce : Prop :=
  (∀ s : State, (s.recovery = true → exec .frsArm s = .next s) ∧
    (s.recovery = false → s.n ≤ s.fld fFrsCycle →
      ∃ t, exec .frsArm s = .next t ∧ t.is fFrsErr = true ∧ regsSame s t [fFrsErr.addr] ∧ { t with regs := s.regs } = s) ∧
    (s.recovery = false → s.fld fFrsCycle < s.n → s.runs = true →
      ∃ t, exec .frsArm s = .next t ∧ t.is fFrsArm = true ∧ t.frostArmed = some (s.clock.xseq + 1, s.fld fFrsCycle) ∧ regsSame s t [fFrsArm.addr] ∧
        { t with regs := s.regs, frostArmed := s.frostArmed } = s) ∧
    (s.recovery = false → s.fld fFrsCycle < s.n → s.runs = false → s.is fHeld = false →
      ∃ t f, exec .frsArm s = .next t ∧ t.is fHeld = true ∧ t.frost = some f ∧ holdsImage f (frostState s s.clock.now) ∧ t.fld fFrsSource = 4 ∧ t.is fFrsStopped = true ∧
        t.fld fFrsTurn = s.fld fTurn ∧ t.fld fFrsCrossing = 0 ∧ regsSame s t [fHeld.addr, fFrsCrossing.addr, fFrsTurn.addr] ∧
        { t with regs := s.regs, frost := s.frost, freeNext := s.freeNext } = s) ∧
    (s.recovery = false → s.fld fFrsCycle < s.n → s.runs = false → s.is fHeld = true →
      ∃ t, exec .frsArm s = .next t ∧ t.is fRefused = true ∧ t.fld fRefusedCnt = min 65535 (s.fld fRefusedCnt + 1) ∧
        regsSame s t [fRefused.addr] ∧ { t with regs := s.regs } = s)) ∧
  (∀ s : State, (s.recovery = true → exec .frsRelease s = .next s) ∧
    (s.recovery = false → ∃ t, exec .frsRelease s = .next t ∧ t.is fHeld = false ∧ t.frost = none ∧ regsSame s t [fHeld.addr] ∧
      (∀ q : Nat, t.ring q = zeroRead (s.ring q)) ∧ { t with regs := s.regs, frost := s.frost, rings := s.rings } = s)) ∧
  (∀ (e : PendCmd) (s : State), s.runs = true → dueCmd s .frost = some e → s.frostArmed = none →
    (∀ c ∈ s.pendTable, c.code = .frost → s.clock.xseq ≤ c.x) →
    (s.is fHeld = false →
      ∃ t f, exec .frostCapture s = .next t ∧ t.is fHeld = true ∧ t.frost = some f ∧
        holdsImage f (capturedAt (dropCmd s .frost) (s.clock.xstart + e.a3)) ∧ t.fld fFrsCrossing = s.fld fCurrent ∧
        t.fld fFrsAt = e.a3 % 64 ∧ t.fld fFrsTurn = s.fld fTurn ∧ t.fld fFrsSource = (if e.host = true then 2 else 1) ∧
        t.is fFrsStopped = false ∧ dueCmd t .frost = none ∧ regsSame s t [fHeld.addr, fFrsCrossing.addr, fFrsTurn.addr] ∧ clustersPlayed s t ∧
        { t with regs := s.regs, frost := s.frost, freeNext := s.freeNext, clock := s.clock, pendTable := s.pendTable, clusters := s.clusters
                 out := s.out } = s) ∧
    (s.is fHeld = true →
      ∃ t, exec .frostCapture s = .next t ∧ t.is fRefused = true ∧ t.frost = s.frost ∧ dueCmd t .frost = none ∧
        regsSame s t [fRefused.addr] ∧ clustersPlayed s t ∧
        { t with regs := s.regs, clock := s.clock, pendTable := s.pendTable, clusters := s.clusters, freeNext := s.freeNext, out := s.out } = s)) ∧
  (∀ (x n : Nat) (s : State), s.runs = true → s.frostArmed = some (x, n) → x ≤ s.clock.xseq → (∀ c ∈ s.pendTable, c.code ≠ .frost) → s.is fHeld = false →
    ∃ t f, exec .frostCapture s = .next t ∧ t.is fHeld = true ∧ t.frost = some f ∧
      holdsImage f (capturedAt (disarmFrost s) (s.clock.xstart + n)) ∧ t.fld fFrsSource = 4 ∧ t.fld fFrsAt = n % 64 ∧
      t.frostArmed = none ∧ t.is fFrsArm = false) ∧
  (∀ (e : PendCmd) (s : State), e ∈ s.pendTable → e.code = .frost → s.runs = false ∨ e.x < s.clock.xseq →
    ∃ t, exec .frostCapture s = .next t ∧ t.is fMissed = true ∧ t.frost = s.frost ∧ t.pendTable.length + 1 = s.pendTable.length ∧
      regsSame s t [fMissed.addr] ∧ { t with regs := s.regs, pendTable := s.pendTable } = s)

/-! ### What the order code lacks -/

/-- A command on a lane, a tile or a port that the package's order code does not have does nothing (00 R3, 11 R274).
It rests also on the model's choices in notes/assumptions/63.md. -/
def Obligations.AbsentUnitsDoNothing : Prop :=
  (∀ (h : FlitHdr) (b : Beat) (ty : BitVec 4) (addr : BitVec 48) (bytes : List Byte) (n offset : BitVec 12) (tag : Byte) (err : Bool)
    (payload : BitVec 256) (v : BitVec 16) (ack : BitVec 8) (nak : Bool) (cap stamp : Word32) (num endpoint : BitVec 10) (host claim : Bool)
    (width : BitVec 2) (member : BitVec 3) (stream : BitVec 14) (ref : BitVec 24) (c : Instr) (s : State), s.tile h.site.val ≠ 1 →
    c ∈ [.nullFlit h ty, .beatFlit h b, .writeFlit h addr bytes, .readFlit h addr n tag, .dataFlit h tag offset err bytes, .noticeFlit h payload,
      .creditFlit h v, .linkFlit h ack nak, .nego h tag cap endpoint host claim num width, .announce h num v, .sched h tag ref ack v,
      .schedAck h err num v, .arrive h num v, .sysRelease h v, .detach h num member stream, .restripe h width, .echo h err stamp] →
    exec c s = .next s) ∧
  (∀ (site : SiteIx) (lane : Fin 32) (errors : Nat) (past : Option (BitVec 8)) (fibre2 : Bool) (power : Option (BitVec 9)) (c : Instr) (s : State), s.tile site.val ≠ 1 →
    c ∈ [.codewordReceived site lane errors past, .ackTimer site lane, .nakRepeat site lane, .resendTimeout site lane, .linkReset site lane,
      .laserPowerChange site fibre2 power] → exec c s = .next s) ∧
  (∀ (l : LaneId) (h v : BitVec 6) (c : Instr) (s : State), laneExists s l = false →
    c ∈ [.laneSignalPresent l, .laneUp l, .trainingAttemptFailed l, .marginMeasurement l h v, .lossOfLock l, .lockRecovered l, .train l] →
    exec c s = .next s) ∧
  (∀ (site : SiteIx) (v : Word32) (s : State), s.tile site.val = 2 → exec (.lnkBondWrite site v) s = .next s) ∧
  (∀ (site : SiteIx) (lane : Fin 32) (s : State), txLanes s site.val ≤ lane.val → exec (.beatFrameSend site lane) s = .next s) ∧
  (∀ (n : IntakeLane) (head close : Line) (number rest data sum : List Line) (a : Nat) (c : Instr) (s : State),
    intakeLane s n.val = none →
    c ∈ [.intakeFrameStart n head number rest, .intakeFrameArrival n data sum close a, .stagedWaystationRelease n, .arrivalMeasurementEnd n] →
    exec c s = .next s) ∧
  (∀ (m : MemIx) (addr n : Nat) (data : List Word64) (link : LinkEcc) (rate : BitVec 3) (c : Instr) (s : State), memExists s m.val = false →
    c ∈ [.memoryWrite m addr data link, .memoryRead m addr n link, .refresh m, .refreshRateRead m rate, .scrubNow m, .patrolScrubRead m] →
    exec c s = .next s) ∧
  (∀ (a : ArbId) (ps : List Requester) (s : State), arbExists s a = false →
    exec (.arbiterDecision a ps) s = .next s ∧ exec (.transactionEnd a) s = .next s)
end

