-- ==== Sys2Proof/Laws/Maps.lean ====
section
/-!
SUPPORT. Laws/Maps.lean: sparse maps in canonical form: what a write reads back, and that writes and erasures keep the form.
-/
namespace Sys2Proof.Machine

variable {α : Type}

theorem mget_merase_other (d : α) (m : SMap α) {k j : Nat} (h : j ≠ k) : mget d (merase m k) j = mget d m j := by
  induction m with
  | nil => rfl
  | cons e r ih =>
    simp only [merase, List.filter_cons] at ih ⊢
    by_cases hk : e.1 = k
    · have hj : e.1 ≠ j := fun c => h (c ▸ hk)
      simp [hk, mget, ih, Ne.symm h]
    · simp [hk, mget, ih]

theorem mget_merase_same (d : α) (m : SMap α) (k : Nat) : mget d (merase m k) k = d := by
  induction m with
  | nil => rfl
  | cons e r ih =>
    simp only [merase, List.filter_cons] at ih ⊢
    by_cases hk : e.1 = k
    · simp [hk, ih]
    · simp [hk, mget, ih]

theorem mget_minsert_same (d : α) (m : SMap α) (k : Nat) (v : α) (h : ∀ e ∈ m, e.1 ≠ k) : mget d (minsert m k v) k = v := by
  induction m with
  | nil => simp [minsert, mget]
  | cons e r ih =>
    simp only [minsert]
    split
    · simp [mget]
    · have hk : e.1 ≠ k := h e (by simp)
      simp [mget, hk, ih (fun x hx => h x (by simp [hx]))]

theorem mget_minsert_other (d : α) (m : SMap α) {k j : Nat} (v : α) (h : j ≠ k) : mget d (minsert m k v) j = mget d m j := by
  induction m with
  | nil => simp [minsert, mget, Ne.symm h]
  | cons e r ih =>
    simp only [minsert]
    split
    · simp [mget, Ne.symm h]
    · simp [mget, ih]

theorem key_ne_of_mem_merase {m : SMap α} {k : Nat} {e : Nat × α} (h : e ∈ merase m k) : e.1 ≠ k := by
  simpa [merase] using (List.mem_filter.mp h).2

/-- A write reads back. -/
@[simp] theorem mget_mset_same [DecidableEq α] (d : α) (m : SMap α) (k : Nat) (v : α) : mget d (mset d m k v) k = v := by
  unfold mset
  split
  · next h => rw [mget_merase_same, h]
  · exact mget_minsert_same d _ k v (fun e he => key_ne_of_mem_merase he)

/-- A write leaves every other key alone. -/
theorem mget_mset_other [DecidableEq α] (d d' : α) (m : SMap α) {k j : Nat} (v : α) (h : j ≠ k) :
    mget d' (mset d m k v) j = mget d' m j := by
  unfold mset
  split
  · exact mget_merase_other d' m h
  · rw [mget_minsert_other d' _ v h, mget_merase_other d' m h]

/-! ### Rising keys -/

/-- Every key lies above `b`. -/
def aboveAll (b : Nat) (m : SMap α) : Prop := ∀ e ∈ m, b < e.1

theorem risingKeys_cons_iff (e : Nat × α) (m : SMap α) : risingKeys (e :: m) = true ↔ aboveAll e.1 m ∧ risingKeys m = true := by
  induction m generalizing e with
  | nil => simp [risingKeys, aboveAll]
  | cons f r ih =>
    rw [show risingKeys (e :: f :: r) = (decide (e.1 < f.1) && risingKeys (f :: r)) from rfl, Bool.and_eq_true, decide_eq_true_iff]
    constructor
    · rintro ⟨h, hr⟩
      refine ⟨fun x hx => ?_, hr⟩
      rcases List.mem_cons.mp hx with rfl | hx
      · exact h
      · exact lt_trans h (((ih f).mp hr).1 x hx)
    · rintro ⟨h, hr⟩
      exact ⟨h f (by simp), hr⟩

theorem risingKeys_filter (p : Nat × α → Bool) (m : SMap α) (h : risingKeys m = true) : risingKeys (m.filter p) = true := by
  induction m with
  | nil => rfl
  | cons e r ih =>
    have hc := (risingKeys_cons_iff e r).mp h
    simp only [List.filter_cons]
    split
    · exact (risingKeys_cons_iff e _).mpr ⟨fun x hx => hc.1 x (List.mem_filter.mp hx).1, ih hc.2⟩
    · exact ih hc.2

theorem mem_minsert {m : SMap α} {k : Nat} {v : α} {e : Nat × α} (h : e ∈ minsert m k v) : e = (k, v) ∨ e ∈ m := by
  induction m with
  | nil => exact .inl (by simpa [minsert] using h)
  | cons f r ih =>
    simp only [minsert] at h
    split at h
    · rcases List.mem_cons.mp h with h | h
      · exact .inl h
      · exact .inr h
    · rcases List.mem_cons.mp h with h | h
      · exact .inr (by simp [h])
      · rcases ih h with h | h
        · exact .inl h
        · exact .inr (by simp [h])

theorem risingKeys_minsert (m : SMap α) (k : Nat) (v : α) (h : risingKeys m = true) (hk : ∀ e ∈ m, e.1 ≠ k) :
    risingKeys (minsert m k v) = true := by
  induction m with
  | nil => rfl
  | cons e r ih =>
    have hc := (risingKeys_cons_iff e r).mp h
    simp only [minsert]
    split
    · next hlt =>
      exact (risingKeys_cons_iff _ _).mpr ⟨fun x hx => by
        rcases List.mem_cons.mp hx with rfl | hx
        · exact hlt
        · exact lt_trans hlt (hc.1 x hx), h⟩
    · next hnlt =>
      have hne := hk e (by simp)
      have hlt : e.1 < k := by omega
      refine (risingKeys_cons_iff _ _).mpr ⟨fun x hx => ?_, ih hc.2 (fun x hx => hk x (by simp [hx]))⟩
      rcases mem_minsert hx with rfl | hx
      · exact hlt
      · exact hc.1 x hx

theorem risingKeys_mset [DecidableEq α] (d : α) (m : SMap α) (k : Nat) (v : α) (h : risingKeys m = true) :
    risingKeys (mset d m k v) = true := by
  unfold mset
  split
  · exact risingKeys_filter _ m h
  · exact risingKeys_minsert _ k v (risingKeys_filter _ m h) (fun e he => key_ne_of_mem_merase he)

/-- What holds of every entry before a write holds after it, when it holds of what is written. -/
theorem all_mset [DecidableEq α] (p : Nat × α → Bool) (d : α) (m : SMap α) (k : Nat) (v : α) (h : m.all p = true) (hv : v ≠ d → p (k, v) = true) :
    (mset d m k v).all p = true := by
  rw [List.all_eq_true] at h ⊢
  intro e he
  unfold mset at he
  split at he
  · exact h e (List.mem_filter.mp he).1
  · next hd =>
    rcases mem_minsert he with rfl | he
    · exact hv hd
    · exact h e (List.mem_filter.mp he).1

theorem mwf_iff [DecidableEq α] (d : α) (m : SMap α) :
    mwf d m = true ↔ risingKeys m = true ∧ m.all (fun e => decide (e.2 ≠ d)) = true := by
  induction m with
  | nil => simp [mwf, risingKeys]
  | cons e r ih =>
    cases r with
    | nil => simp [mwf, risingKeys]
    | cons f r =>
      rw [show mwf d (e :: f :: r) = (decide (e.2 ≠ d) && decide (e.1 < f.1) && mwf d (f :: r)) from rfl,
        show risingKeys (e :: f :: r) = (decide (e.1 < f.1) && risingKeys (f :: r)) from rfl,
        show (e :: f :: r).all (fun e => decide (e.2 ≠ d)) = (decide (e.2 ≠ d) && (f :: r).all (fun e => decide (e.2 ≠ d))) from rfl]
      simp only [Bool.and_eq_true, ih]
      tauto

/-- A write keeps the canonical form. -/
theorem mwf_mset [DecidableEq α] (d : α) (m : SMap α) (k : Nat) (v : α) (h : mwf d m = true) : mwf d (mset d m k v) = true := by
  rw [mwf_iff] at h ⊢
  exact ⟨risingKeys_mset d m k v h.1, all_mset _ d m k v h.2 (fun hv => by simpa using hv)⟩

/-- What a map reads is what an unlisted key reads as, or an entry. -/
theorem mget_mem (d : α) (m : SMap α) (k : Nat) : mget d m k = d ∨ (k, mget d m k) ∈ m := by
  induction m with
  | nil => exact .inl rfl
  | cons e r ih =>
    simp only [mget]
    split
    · next h => exact .inr (by simp [← h])
    · rcases ih with h | h
      · exact .inl h
      · exact .inr (by simp [h])

/-- What holds of what an unlisted key reads as and of every entry holds of what the map reads. -/
theorem mget_of_all (p : α → Bool) (d : α) (m : SMap α) (k : Nat) (hd : p d = true) (h : m.all (fun e => p e.2) = true) :
    p (mget d m k) = true := by
  rcases mget_mem d m k with e | e
  · rw [e]; exact hd
  · exact (List.all_eq_true.mp h) _ e

end Sys2Proof.Machine
end

