-- ==== Sys2Proof/Laws/State.lean ====
section
/-!
SUPPORT. Laws/State.lean: what each update of the state leaves alone, and what reading an updated part gives.
-/
namespace Sys2Proof.Machine

/-- A register write changes regs alone. -/
@[simp] theorem State.setRaw_frame (s : State) (a : Nat) (v : Word32) :
    (s.setRaw a v).staged = s.staged ∧ (s.setRaw a v).baseSwap = s.baseSwap ∧ (s.setRaw a v).clock = s.clock ∧ (s.setRaw a v).run = s.run ∧
    (s.setRaw a v).pendTable = s.pendTable ∧ (s.setRaw a v).way = s.way ∧ (s.setRaw a v).units = s.units ∧ (s.setRaw a v).funs = s.funs ∧
    (s.setRaw a v).clusters = s.clusters ∧ (s.setRaw a v).portQ = s.portQ ∧ (s.setRaw a v).bankQ = s.bankQ ∧ (s.setRaw a v).steerQ = s.steerQ ∧
    (s.setRaw a v).links = s.links ∧ (s.setRaw a v).contribs = s.contribs ∧ (s.setRaw a v).vas = s.vas ∧ (s.setRaw a v).regions = s.regions ∧
    (s.setRaw a v).memTiles = s.memTiles ∧ (s.setRaw a v).memHeld = s.memHeld ∧ (s.setRaw a v).memArb = s.memArb ∧
    (s.setRaw a v).egressArb = s.egressArb ∧ (s.setRaw a v).stage = s.stage ∧ (s.setRaw a v).image = s.image ∧ (s.setRaw a v).lanes = s.lanes ∧
    (s.setRaw a v).retries = s.retries ∧ (s.setRaw a v).ctxs = s.ctxs ∧ (s.setRaw a v).mcs = s.mcs ∧ (s.setRaw a v).txLinks = s.txLinks ∧
    (s.setRaw a v).heldFlits = s.heldFlits ∧ (s.setRaw a v).windows = s.windows ∧ (s.setRaw a v).sys = s.sys ∧ (s.setRaw a v).rings = s.rings ∧
    (s.setRaw a v).posted = s.posted ∧ (s.setRaw a v).shadow = s.shadow ∧ (s.setRaw a v).indirect = s.indirect ∧ (s.setRaw a v).spies = s.spies ∧
    (s.setRaw a v).fuses = s.fuses ∧ (s.setRaw a v).flash = s.flash ∧ (s.setRaw a v).flashDead = s.flashDead ∧ (s.setRaw a v).trust = s.trust ∧
    (s.setRaw a v).avs = s.avs ∧ (s.setRaw a v).thermal = s.thermal ∧ (s.setRaw a v).pins = s.pins ∧ (s.setRaw a v).tap = s.tap ∧
    (s.setRaw a v).frost = s.frost ∧ (s.setRaw a v).hazardsHeld = s.hazardsHeld ∧ (s.setRaw a v).byteCmds = s.byteCmds ∧
    (s.setRaw a v).fencePend = s.fencePend ∧ (s.setRaw a v).fusePend = s.fusePend ∧ (s.setRaw a v).frostArmed = s.frostArmed ∧
    (s.setRaw a v).latchHi = s.latchHi ∧ (s.setRaw a v).flashCmd = s.flashCmd ∧ (s.setRaw a v).freeNext = s.freeNext ∧ (s.setRaw a v).out = s.out ∧
    (s.setRaw a v).pending = s.pending := by
  and_intros <;> rfl

/-- A field write changes regs alone. -/
@[simp] theorem State.setFld_frame (s : State) (f : Fld) (v : Nat) :
    (s.setFld f v).staged = s.staged ∧ (s.setFld f v).baseSwap = s.baseSwap ∧ (s.setFld f v).clock = s.clock ∧ (s.setFld f v).run = s.run ∧
    (s.setFld f v).pendTable = s.pendTable ∧ (s.setFld f v).way = s.way ∧ (s.setFld f v).units = s.units ∧ (s.setFld f v).funs = s.funs ∧
    (s.setFld f v).clusters = s.clusters ∧ (s.setFld f v).portQ = s.portQ ∧ (s.setFld f v).bankQ = s.bankQ ∧ (s.setFld f v).steerQ = s.steerQ ∧
    (s.setFld f v).links = s.links ∧ (s.setFld f v).contribs = s.contribs ∧ (s.setFld f v).vas = s.vas ∧ (s.setFld f v).regions = s.regions ∧
    (s.setFld f v).memTiles = s.memTiles ∧ (s.setFld f v).memHeld = s.memHeld ∧ (s.setFld f v).memArb = s.memArb ∧
    (s.setFld f v).egressArb = s.egressArb ∧ (s.setFld f v).stage = s.stage ∧ (s.setFld f v).image = s.image ∧ (s.setFld f v).lanes = s.lanes ∧
    (s.setFld f v).retries = s.retries ∧ (s.setFld f v).ctxs = s.ctxs ∧ (s.setFld f v).mcs = s.mcs ∧ (s.setFld f v).txLinks = s.txLinks ∧
    (s.setFld f v).heldFlits = s.heldFlits ∧ (s.setFld f v).windows = s.windows ∧ (s.setFld f v).sys = s.sys ∧ (s.setFld f v).rings = s.rings ∧
    (s.setFld f v).posted = s.posted ∧ (s.setFld f v).shadow = s.shadow ∧ (s.setFld f v).indirect = s.indirect ∧ (s.setFld f v).spies = s.spies ∧
    (s.setFld f v).fuses = s.fuses ∧ (s.setFld f v).flash = s.flash ∧ (s.setFld f v).flashDead = s.flashDead ∧ (s.setFld f v).trust = s.trust ∧
    (s.setFld f v).avs = s.avs ∧ (s.setFld f v).thermal = s.thermal ∧ (s.setFld f v).pins = s.pins ∧ (s.setFld f v).tap = s.tap ∧
    (s.setFld f v).frost = s.frost ∧ (s.setFld f v).hazardsHeld = s.hazardsHeld ∧ (s.setFld f v).byteCmds = s.byteCmds ∧
    (s.setFld f v).fencePend = s.fencePend ∧ (s.setFld f v).fusePend = s.fusePend ∧ (s.setFld f v).frostArmed = s.frostArmed ∧
    (s.setFld f v).latchHi = s.latchHi ∧ (s.setFld f v).flashCmd = s.flashCmd ∧ (s.setFld f v).freeNext = s.freeNext ∧ (s.setFld f v).out = s.out ∧
    (s.setFld f v).pending = s.pending := by
  and_intros <;> rfl

/-- State.bump changes regs alone. -/
@[simp] theorem State.bump_frame (s : State) (f : Fld) (n : Nat) :
    (s.bump f n).staged = s.staged ∧ (s.bump f n).baseSwap = s.baseSwap ∧ (s.bump f n).clock = s.clock ∧ (s.bump f n).run = s.run ∧
    (s.bump f n).pendTable = s.pendTable ∧ (s.bump f n).way = s.way ∧ (s.bump f n).units = s.units ∧ (s.bump f n).funs = s.funs ∧
    (s.bump f n).clusters = s.clusters ∧ (s.bump f n).portQ = s.portQ ∧ (s.bump f n).bankQ = s.bankQ ∧ (s.bump f n).steerQ = s.steerQ ∧
    (s.bump f n).links = s.links ∧ (s.bump f n).contribs = s.contribs ∧ (s.bump f n).vas = s.vas ∧ (s.bump f n).regions = s.regions ∧
    (s.bump f n).memTiles = s.memTiles ∧ (s.bump f n).memHeld = s.memHeld ∧ (s.bump f n).memArb = s.memArb ∧ (s.bump f n).egressArb = s.egressArb ∧
    (s.bump f n).stage = s.stage ∧ (s.bump f n).image = s.image ∧ (s.bump f n).lanes = s.lanes ∧ (s.bump f n).retries = s.retries ∧
    (s.bump f n).ctxs = s.ctxs ∧ (s.bump f n).mcs = s.mcs ∧ (s.bump f n).txLinks = s.txLinks ∧ (s.bump f n).heldFlits = s.heldFlits ∧
    (s.bump f n).windows = s.windows ∧ (s.bump f n).sys = s.sys ∧ (s.bump f n).rings = s.rings ∧ (s.bump f n).posted = s.posted ∧
    (s.bump f n).shadow = s.shadow ∧ (s.bump f n).indirect = s.indirect ∧ (s.bump f n).spies = s.spies ∧ (s.bump f n).fuses = s.fuses ∧
    (s.bump f n).flash = s.flash ∧ (s.bump f n).flashDead = s.flashDead ∧ (s.bump f n).trust = s.trust ∧ (s.bump f n).avs = s.avs ∧
    (s.bump f n).thermal = s.thermal ∧ (s.bump f n).pins = s.pins ∧ (s.bump f n).tap = s.tap ∧ (s.bump f n).frost = s.frost ∧
    (s.bump f n).hazardsHeld = s.hazardsHeld ∧ (s.bump f n).byteCmds = s.byteCmds ∧ (s.bump f n).fencePend = s.fencePend ∧
    (s.bump f n).fusePend = s.fusePend ∧ (s.bump f n).frostArmed = s.frostArmed ∧ (s.bump f n).latchHi = s.latchHi ∧
    (s.bump f n).flashCmd = s.flashCmd ∧ (s.bump f n).freeNext = s.freeNext ∧ (s.bump f n).out = s.out ∧ (s.bump f n).pending = s.pending := by
  and_intros <;> rfl

/-- State.mark changes regs alone. -/
@[simp] theorem State.mark_frame (s : State) (f : Fld) :
    (s.mark f).staged = s.staged ∧ (s.mark f).baseSwap = s.baseSwap ∧ (s.mark f).clock = s.clock ∧ (s.mark f).run = s.run ∧
    (s.mark f).pendTable = s.pendTable ∧ (s.mark f).way = s.way ∧ (s.mark f).units = s.units ∧ (s.mark f).funs = s.funs ∧
    (s.mark f).clusters = s.clusters ∧ (s.mark f).portQ = s.portQ ∧ (s.mark f).bankQ = s.bankQ ∧ (s.mark f).steerQ = s.steerQ ∧
    (s.mark f).links = s.links ∧ (s.mark f).contribs = s.contribs ∧ (s.mark f).vas = s.vas ∧ (s.mark f).regions = s.regions ∧
    (s.mark f).memTiles = s.memTiles ∧ (s.mark f).memHeld = s.memHeld ∧ (s.mark f).memArb = s.memArb ∧ (s.mark f).egressArb = s.egressArb ∧
    (s.mark f).stage = s.stage ∧ (s.mark f).image = s.image ∧ (s.mark f).lanes = s.lanes ∧ (s.mark f).retries = s.retries ∧
    (s.mark f).ctxs = s.ctxs ∧ (s.mark f).mcs = s.mcs ∧ (s.mark f).txLinks = s.txLinks ∧ (s.mark f).heldFlits = s.heldFlits ∧
    (s.mark f).windows = s.windows ∧ (s.mark f).sys = s.sys ∧ (s.mark f).rings = s.rings ∧ (s.mark f).posted = s.posted ∧
    (s.mark f).shadow = s.shadow ∧ (s.mark f).indirect = s.indirect ∧ (s.mark f).spies = s.spies ∧ (s.mark f).fuses = s.fuses ∧
    (s.mark f).flash = s.flash ∧ (s.mark f).flashDead = s.flashDead ∧ (s.mark f).trust = s.trust ∧ (s.mark f).avs = s.avs ∧
    (s.mark f).thermal = s.thermal ∧ (s.mark f).pins = s.pins ∧ (s.mark f).tap = s.tap ∧ (s.mark f).frost = s.frost ∧
    (s.mark f).hazardsHeld = s.hazardsHeld ∧ (s.mark f).byteCmds = s.byteCmds ∧ (s.mark f).fencePend = s.fencePend ∧
    (s.mark f).fusePend = s.fusePend ∧ (s.mark f).frostArmed = s.frostArmed ∧ (s.mark f).latchHi = s.latchHi ∧ (s.mark f).flashCmd = s.flashCmd ∧
    (s.mark f).freeNext = s.freeNext ∧ (s.mark f).out = s.out ∧ (s.mark f).pending = s.pending := by
  and_intros <;> rfl

/-- State.raise changes regs alone. -/
@[simp] theorem State.raise_frame (s : State) (f : Fld) (v : Nat) :
    (s.raise f v).staged = s.staged ∧ (s.raise f v).baseSwap = s.baseSwap ∧ (s.raise f v).clock = s.clock ∧ (s.raise f v).run = s.run ∧
    (s.raise f v).pendTable = s.pendTable ∧ (s.raise f v).way = s.way ∧ (s.raise f v).units = s.units ∧ (s.raise f v).funs = s.funs ∧
    (s.raise f v).clusters = s.clusters ∧ (s.raise f v).portQ = s.portQ ∧ (s.raise f v).bankQ = s.bankQ ∧ (s.raise f v).steerQ = s.steerQ ∧
    (s.raise f v).links = s.links ∧ (s.raise f v).contribs = s.contribs ∧ (s.raise f v).vas = s.vas ∧ (s.raise f v).regions = s.regions ∧
    (s.raise f v).memTiles = s.memTiles ∧ (s.raise f v).memHeld = s.memHeld ∧ (s.raise f v).memArb = s.memArb ∧
    (s.raise f v).egressArb = s.egressArb ∧ (s.raise f v).stage = s.stage ∧ (s.raise f v).image = s.image ∧ (s.raise f v).lanes = s.lanes ∧
    (s.raise f v).retries = s.retries ∧ (s.raise f v).ctxs = s.ctxs ∧ (s.raise f v).mcs = s.mcs ∧ (s.raise f v).txLinks = s.txLinks ∧
    (s.raise f v).heldFlits = s.heldFlits ∧ (s.raise f v).windows = s.windows ∧ (s.raise f v).sys = s.sys ∧ (s.raise f v).rings = s.rings ∧
    (s.raise f v).posted = s.posted ∧ (s.raise f v).shadow = s.shadow ∧ (s.raise f v).indirect = s.indirect ∧ (s.raise f v).spies = s.spies ∧
    (s.raise f v).fuses = s.fuses ∧ (s.raise f v).flash = s.flash ∧ (s.raise f v).flashDead = s.flashDead ∧ (s.raise f v).trust = s.trust ∧
    (s.raise f v).avs = s.avs ∧ (s.raise f v).thermal = s.thermal ∧ (s.raise f v).pins = s.pins ∧ (s.raise f v).tap = s.tap ∧
    (s.raise f v).frost = s.frost ∧ (s.raise f v).hazardsHeld = s.hazardsHeld ∧ (s.raise f v).byteCmds = s.byteCmds ∧
    (s.raise f v).fencePend = s.fencePend ∧ (s.raise f v).fusePend = s.fusePend ∧ (s.raise f v).frostArmed = s.frostArmed ∧
    (s.raise f v).latchHi = s.latchHi ∧ (s.raise f v).flashCmd = s.flashCmd ∧ (s.raise f v).freeNext = s.freeNext ∧ (s.raise f v).out = s.out ∧
    (s.raise f v).pending = s.pending := by
  unfold State.raise
  split <;> simp

/-- State.lower changes regs alone. -/
@[simp] theorem State.lower_frame (s : State) (f : Fld) (v : Nat) :
    (s.lower f v).staged = s.staged ∧ (s.lower f v).baseSwap = s.baseSwap ∧ (s.lower f v).clock = s.clock ∧ (s.lower f v).run = s.run ∧
    (s.lower f v).pendTable = s.pendTable ∧ (s.lower f v).way = s.way ∧ (s.lower f v).units = s.units ∧ (s.lower f v).funs = s.funs ∧
    (s.lower f v).clusters = s.clusters ∧ (s.lower f v).portQ = s.portQ ∧ (s.lower f v).bankQ = s.bankQ ∧ (s.lower f v).steerQ = s.steerQ ∧
    (s.lower f v).links = s.links ∧ (s.lower f v).contribs = s.contribs ∧ (s.lower f v).vas = s.vas ∧ (s.lower f v).regions = s.regions ∧
    (s.lower f v).memTiles = s.memTiles ∧ (s.lower f v).memHeld = s.memHeld ∧ (s.lower f v).memArb = s.memArb ∧
    (s.lower f v).egressArb = s.egressArb ∧ (s.lower f v).stage = s.stage ∧ (s.lower f v).image = s.image ∧ (s.lower f v).lanes = s.lanes ∧
    (s.lower f v).retries = s.retries ∧ (s.lower f v).ctxs = s.ctxs ∧ (s.lower f v).mcs = s.mcs ∧ (s.lower f v).txLinks = s.txLinks ∧
    (s.lower f v).heldFlits = s.heldFlits ∧ (s.lower f v).windows = s.windows ∧ (s.lower f v).sys = s.sys ∧ (s.lower f v).rings = s.rings ∧
    (s.lower f v).posted = s.posted ∧ (s.lower f v).shadow = s.shadow ∧ (s.lower f v).indirect = s.indirect ∧ (s.lower f v).spies = s.spies ∧
    (s.lower f v).fuses = s.fuses ∧ (s.lower f v).flash = s.flash ∧ (s.lower f v).flashDead = s.flashDead ∧ (s.lower f v).trust = s.trust ∧
    (s.lower f v).avs = s.avs ∧ (s.lower f v).thermal = s.thermal ∧ (s.lower f v).pins = s.pins ∧ (s.lower f v).tap = s.tap ∧
    (s.lower f v).frost = s.frost ∧ (s.lower f v).hazardsHeld = s.hazardsHeld ∧ (s.lower f v).byteCmds = s.byteCmds ∧
    (s.lower f v).fencePend = s.fencePend ∧ (s.lower f v).fusePend = s.fusePend ∧ (s.lower f v).frostArmed = s.frostArmed ∧
    (s.lower f v).latchHi = s.latchHi ∧ (s.lower f v).flashCmd = s.flashCmd ∧ (s.lower f v).freeNext = s.freeNext ∧ (s.lower f v).out = s.out ∧
    (s.lower f v).pending = s.pending := by
  unfold State.lower
  split <;> simp

/-- State.latch changes latchHi alone. -/
@[simp] theorem State.latch_frame (s : State) (a : Nat) (v : Word32) :
    (s.latch a v).regs = s.regs ∧ (s.latch a v).staged = s.staged ∧ (s.latch a v).baseSwap = s.baseSwap ∧ (s.latch a v).clock = s.clock ∧
    (s.latch a v).run = s.run ∧ (s.latch a v).pendTable = s.pendTable ∧ (s.latch a v).way = s.way ∧ (s.latch a v).units = s.units ∧
    (s.latch a v).funs = s.funs ∧ (s.latch a v).clusters = s.clusters ∧ (s.latch a v).portQ = s.portQ ∧ (s.latch a v).bankQ = s.bankQ ∧
    (s.latch a v).steerQ = s.steerQ ∧ (s.latch a v).links = s.links ∧ (s.latch a v).contribs = s.contribs ∧ (s.latch a v).vas = s.vas ∧
    (s.latch a v).regions = s.regions ∧ (s.latch a v).memTiles = s.memTiles ∧ (s.latch a v).memHeld = s.memHeld ∧ (s.latch a v).memArb = s.memArb ∧
    (s.latch a v).egressArb = s.egressArb ∧ (s.latch a v).stage = s.stage ∧ (s.latch a v).image = s.image ∧ (s.latch a v).lanes = s.lanes ∧
    (s.latch a v).retries = s.retries ∧ (s.latch a v).ctxs = s.ctxs ∧ (s.latch a v).mcs = s.mcs ∧ (s.latch a v).txLinks = s.txLinks ∧
    (s.latch a v).heldFlits = s.heldFlits ∧ (s.latch a v).windows = s.windows ∧ (s.latch a v).sys = s.sys ∧ (s.latch a v).rings = s.rings ∧
    (s.latch a v).posted = s.posted ∧ (s.latch a v).shadow = s.shadow ∧ (s.latch a v).indirect = s.indirect ∧ (s.latch a v).spies = s.spies ∧
    (s.latch a v).fuses = s.fuses ∧ (s.latch a v).flash = s.flash ∧ (s.latch a v).flashDead = s.flashDead ∧ (s.latch a v).trust = s.trust ∧
    (s.latch a v).avs = s.avs ∧ (s.latch a v).thermal = s.thermal ∧ (s.latch a v).pins = s.pins ∧ (s.latch a v).tap = s.tap ∧
    (s.latch a v).frost = s.frost ∧ (s.latch a v).hazardsHeld = s.hazardsHeld ∧ (s.latch a v).byteCmds = s.byteCmds ∧
    (s.latch a v).fencePend = s.fencePend ∧ (s.latch a v).fusePend = s.fusePend ∧ (s.latch a v).frostArmed = s.frostArmed ∧
    (s.latch a v).flashCmd = s.flashCmd ∧ (s.latch a v).freeNext = s.freeNext ∧ (s.latch a v).out = s.out ∧ (s.latch a v).pending = s.pending := by
  and_intros <;> rfl

/-- State.drawn changes freeNext alone. -/
@[simp] theorem State.drawn_frame (s : State) :
    (s.drawn).regs = s.regs ∧ (s.drawn).staged = s.staged ∧ (s.drawn).baseSwap = s.baseSwap ∧ (s.drawn).clock = s.clock ∧ (s.drawn).run = s.run ∧
    (s.drawn).pendTable = s.pendTable ∧ (s.drawn).way = s.way ∧ (s.drawn).units = s.units ∧ (s.drawn).funs = s.funs ∧
    (s.drawn).clusters = s.clusters ∧ (s.drawn).portQ = s.portQ ∧ (s.drawn).bankQ = s.bankQ ∧ (s.drawn).steerQ = s.steerQ ∧
    (s.drawn).links = s.links ∧ (s.drawn).contribs = s.contribs ∧ (s.drawn).vas = s.vas ∧ (s.drawn).regions = s.regions ∧
    (s.drawn).memTiles = s.memTiles ∧ (s.drawn).memHeld = s.memHeld ∧ (s.drawn).memArb = s.memArb ∧ (s.drawn).egressArb = s.egressArb ∧
    (s.drawn).stage = s.stage ∧ (s.drawn).image = s.image ∧ (s.drawn).lanes = s.lanes ∧ (s.drawn).retries = s.retries ∧ (s.drawn).ctxs = s.ctxs ∧
    (s.drawn).mcs = s.mcs ∧ (s.drawn).txLinks = s.txLinks ∧ (s.drawn).heldFlits = s.heldFlits ∧ (s.drawn).windows = s.windows ∧
    (s.drawn).sys = s.sys ∧ (s.drawn).rings = s.rings ∧ (s.drawn).posted = s.posted ∧ (s.drawn).shadow = s.shadow ∧ (s.drawn).indirect = s.indirect ∧
    (s.drawn).spies = s.spies ∧ (s.drawn).fuses = s.fuses ∧ (s.drawn).flash = s.flash ∧ (s.drawn).flashDead = s.flashDead ∧
    (s.drawn).trust = s.trust ∧ (s.drawn).avs = s.avs ∧ (s.drawn).thermal = s.thermal ∧ (s.drawn).pins = s.pins ∧ (s.drawn).tap = s.tap ∧
    (s.drawn).frost = s.frost ∧ (s.drawn).hazardsHeld = s.hazardsHeld ∧ (s.drawn).byteCmds = s.byteCmds ∧ (s.drawn).fencePend = s.fencePend ∧
    (s.drawn).fusePend = s.fusePend ∧ (s.drawn).frostArmed = s.frostArmed ∧ (s.drawn).latchHi = s.latchHi ∧ (s.drawn).flashCmd = s.flashCmd ∧
    (s.drawn).out = s.out ∧ (s.drawn).pending = s.pending := by
  and_intros <;> rfl

/-- State.send changes out alone. -/
@[simp] theorem State.send_frame (s : State) (o : Out) :
    (s.send o).regs = s.regs ∧ (s.send o).staged = s.staged ∧ (s.send o).baseSwap = s.baseSwap ∧ (s.send o).clock = s.clock ∧
    (s.send o).run = s.run ∧ (s.send o).pendTable = s.pendTable ∧ (s.send o).way = s.way ∧ (s.send o).units = s.units ∧ (s.send o).funs = s.funs ∧
    (s.send o).clusters = s.clusters ∧ (s.send o).portQ = s.portQ ∧ (s.send o).bankQ = s.bankQ ∧ (s.send o).steerQ = s.steerQ ∧
    (s.send o).links = s.links ∧ (s.send o).contribs = s.contribs ∧ (s.send o).vas = s.vas ∧ (s.send o).regions = s.regions ∧
    (s.send o).memTiles = s.memTiles ∧ (s.send o).memHeld = s.memHeld ∧ (s.send o).memArb = s.memArb ∧ (s.send o).egressArb = s.egressArb ∧
    (s.send o).stage = s.stage ∧ (s.send o).image = s.image ∧ (s.send o).lanes = s.lanes ∧ (s.send o).retries = s.retries ∧
    (s.send o).ctxs = s.ctxs ∧ (s.send o).mcs = s.mcs ∧ (s.send o).txLinks = s.txLinks ∧ (s.send o).heldFlits = s.heldFlits ∧
    (s.send o).windows = s.windows ∧ (s.send o).sys = s.sys ∧ (s.send o).rings = s.rings ∧ (s.send o).posted = s.posted ∧
    (s.send o).shadow = s.shadow ∧ (s.send o).indirect = s.indirect ∧ (s.send o).spies = s.spies ∧ (s.send o).fuses = s.fuses ∧
    (s.send o).flash = s.flash ∧ (s.send o).flashDead = s.flashDead ∧ (s.send o).trust = s.trust ∧ (s.send o).avs = s.avs ∧
    (s.send o).thermal = s.thermal ∧ (s.send o).pins = s.pins ∧ (s.send o).tap = s.tap ∧ (s.send o).frost = s.frost ∧
    (s.send o).hazardsHeld = s.hazardsHeld ∧ (s.send o).byteCmds = s.byteCmds ∧ (s.send o).fencePend = s.fencePend ∧
    (s.send o).fusePend = s.fusePend ∧ (s.send o).frostArmed = s.frostArmed ∧ (s.send o).latchHi = s.latchHi ∧ (s.send o).flashCmd = s.flashCmd ∧
    (s.send o).freeNext = s.freeNext ∧ (s.send o).pending = s.pending := by
  and_intros <;> rfl

/-- State.setUnit changes units alone. -/
@[simp] theorem State.setUnit_frame (s : State) (g : Nat) (v : DotUnit) :
    (s.setUnit g v).regs = s.regs ∧ (s.setUnit g v).staged = s.staged ∧ (s.setUnit g v).baseSwap = s.baseSwap ∧ (s.setUnit g v).clock = s.clock ∧
    (s.setUnit g v).run = s.run ∧ (s.setUnit g v).pendTable = s.pendTable ∧ (s.setUnit g v).way = s.way ∧ (s.setUnit g v).funs = s.funs ∧
    (s.setUnit g v).clusters = s.clusters ∧ (s.setUnit g v).portQ = s.portQ ∧ (s.setUnit g v).bankQ = s.bankQ ∧ (s.setUnit g v).steerQ = s.steerQ ∧
    (s.setUnit g v).links = s.links ∧ (s.setUnit g v).contribs = s.contribs ∧ (s.setUnit g v).vas = s.vas ∧ (s.setUnit g v).regions = s.regions ∧
    (s.setUnit g v).memTiles = s.memTiles ∧ (s.setUnit g v).memHeld = s.memHeld ∧ (s.setUnit g v).memArb = s.memArb ∧
    (s.setUnit g v).egressArb = s.egressArb ∧ (s.setUnit g v).stage = s.stage ∧ (s.setUnit g v).image = s.image ∧ (s.setUnit g v).lanes = s.lanes ∧
    (s.setUnit g v).retries = s.retries ∧ (s.setUnit g v).ctxs = s.ctxs ∧ (s.setUnit g v).mcs = s.mcs ∧ (s.setUnit g v).txLinks = s.txLinks ∧
    (s.setUnit g v).heldFlits = s.heldFlits ∧ (s.setUnit g v).windows = s.windows ∧ (s.setUnit g v).sys = s.sys ∧ (s.setUnit g v).rings = s.rings ∧
    (s.setUnit g v).posted = s.posted ∧ (s.setUnit g v).shadow = s.shadow ∧ (s.setUnit g v).indirect = s.indirect ∧ (s.setUnit g v).spies = s.spies ∧
    (s.setUnit g v).fuses = s.fuses ∧ (s.setUnit g v).flash = s.flash ∧ (s.setUnit g v).flashDead = s.flashDead ∧ (s.setUnit g v).trust = s.trust ∧
    (s.setUnit g v).avs = s.avs ∧ (s.setUnit g v).thermal = s.thermal ∧ (s.setUnit g v).pins = s.pins ∧ (s.setUnit g v).tap = s.tap ∧
    (s.setUnit g v).frost = s.frost ∧ (s.setUnit g v).hazardsHeld = s.hazardsHeld ∧ (s.setUnit g v).byteCmds = s.byteCmds ∧
    (s.setUnit g v).fencePend = s.fencePend ∧ (s.setUnit g v).fusePend = s.fusePend ∧ (s.setUnit g v).frostArmed = s.frostArmed ∧
    (s.setUnit g v).latchHi = s.latchHi ∧ (s.setUnit g v).flashCmd = s.flashCmd ∧ (s.setUnit g v).freeNext = s.freeNext ∧
    (s.setUnit g v).out = s.out ∧ (s.setUnit g v).pending = s.pending := by
  and_intros <;> rfl

/-- State.setFun changes funs alone. -/
@[simp] theorem State.setFun_frame (s : State) (f : Nat) (v : FunUnit) :
    (s.setFun f v).regs = s.regs ∧ (s.setFun f v).staged = s.staged ∧ (s.setFun f v).baseSwap = s.baseSwap ∧ (s.setFun f v).clock = s.clock ∧
    (s.setFun f v).run = s.run ∧ (s.setFun f v).pendTable = s.pendTable ∧ (s.setFun f v).way = s.way ∧ (s.setFun f v).units = s.units ∧
    (s.setFun f v).clusters = s.clusters ∧ (s.setFun f v).portQ = s.portQ ∧ (s.setFun f v).bankQ = s.bankQ ∧ (s.setFun f v).steerQ = s.steerQ ∧
    (s.setFun f v).links = s.links ∧ (s.setFun f v).contribs = s.contribs ∧ (s.setFun f v).vas = s.vas ∧ (s.setFun f v).regions = s.regions ∧
    (s.setFun f v).memTiles = s.memTiles ∧ (s.setFun f v).memHeld = s.memHeld ∧ (s.setFun f v).memArb = s.memArb ∧
    (s.setFun f v).egressArb = s.egressArb ∧ (s.setFun f v).stage = s.stage ∧ (s.setFun f v).image = s.image ∧ (s.setFun f v).lanes = s.lanes ∧
    (s.setFun f v).retries = s.retries ∧ (s.setFun f v).ctxs = s.ctxs ∧ (s.setFun f v).mcs = s.mcs ∧ (s.setFun f v).txLinks = s.txLinks ∧
    (s.setFun f v).heldFlits = s.heldFlits ∧ (s.setFun f v).windows = s.windows ∧ (s.setFun f v).sys = s.sys ∧ (s.setFun f v).rings = s.rings ∧
    (s.setFun f v).posted = s.posted ∧ (s.setFun f v).shadow = s.shadow ∧ (s.setFun f v).indirect = s.indirect ∧ (s.setFun f v).spies = s.spies ∧
    (s.setFun f v).fuses = s.fuses ∧ (s.setFun f v).flash = s.flash ∧ (s.setFun f v).flashDead = s.flashDead ∧ (s.setFun f v).trust = s.trust ∧
    (s.setFun f v).avs = s.avs ∧ (s.setFun f v).thermal = s.thermal ∧ (s.setFun f v).pins = s.pins ∧ (s.setFun f v).tap = s.tap ∧
    (s.setFun f v).frost = s.frost ∧ (s.setFun f v).hazardsHeld = s.hazardsHeld ∧ (s.setFun f v).byteCmds = s.byteCmds ∧
    (s.setFun f v).fencePend = s.fencePend ∧ (s.setFun f v).fusePend = s.fusePend ∧ (s.setFun f v).frostArmed = s.frostArmed ∧
    (s.setFun f v).latchHi = s.latchHi ∧ (s.setFun f v).flashCmd = s.flashCmd ∧ (s.setFun f v).freeNext = s.freeNext ∧ (s.setFun f v).out = s.out ∧
    (s.setFun f v).pending = s.pending := by
  and_intros <;> rfl

/-- State.setCluster changes clusters alone. -/
@[simp] theorem State.setCluster_frame (s : State) (k : Nat) (v : Cluster) :
    (s.setCluster k v).regs = s.regs ∧ (s.setCluster k v).staged = s.staged ∧ (s.setCluster k v).baseSwap = s.baseSwap ∧
    (s.setCluster k v).clock = s.clock ∧ (s.setCluster k v).run = s.run ∧ (s.setCluster k v).pendTable = s.pendTable ∧
    (s.setCluster k v).way = s.way ∧ (s.setCluster k v).units = s.units ∧ (s.setCluster k v).funs = s.funs ∧ (s.setCluster k v).portQ = s.portQ ∧
    (s.setCluster k v).bankQ = s.bankQ ∧ (s.setCluster k v).steerQ = s.steerQ ∧ (s.setCluster k v).links = s.links ∧
    (s.setCluster k v).contribs = s.contribs ∧ (s.setCluster k v).vas = s.vas ∧ (s.setCluster k v).regions = s.regions ∧
    (s.setCluster k v).memTiles = s.memTiles ∧ (s.setCluster k v).memHeld = s.memHeld ∧ (s.setCluster k v).memArb = s.memArb ∧
    (s.setCluster k v).egressArb = s.egressArb ∧ (s.setCluster k v).stage = s.stage ∧ (s.setCluster k v).image = s.image ∧
    (s.setCluster k v).lanes = s.lanes ∧ (s.setCluster k v).retries = s.retries ∧ (s.setCluster k v).ctxs = s.ctxs ∧ (s.setCluster k v).mcs = s.mcs ∧
    (s.setCluster k v).txLinks = s.txLinks ∧ (s.setCluster k v).heldFlits = s.heldFlits ∧ (s.setCluster k v).windows = s.windows ∧
    (s.setCluster k v).sys = s.sys ∧ (s.setCluster k v).rings = s.rings ∧ (s.setCluster k v).posted = s.posted ∧
    (s.setCluster k v).shadow = s.shadow ∧ (s.setCluster k v).indirect = s.indirect ∧ (s.setCluster k v).spies = s.spies ∧
    (s.setCluster k v).fuses = s.fuses ∧ (s.setCluster k v).flash = s.flash ∧ (s.setCluster k v).flashDead = s.flashDead ∧
    (s.setCluster k v).trust = s.trust ∧ (s.setCluster k v).avs = s.avs ∧ (s.setCluster k v).thermal = s.thermal ∧ (s.setCluster k v).pins = s.pins ∧
    (s.setCluster k v).tap = s.tap ∧ (s.setCluster k v).frost = s.frost ∧ (s.setCluster k v).hazardsHeld = s.hazardsHeld ∧
    (s.setCluster k v).byteCmds = s.byteCmds ∧ (s.setCluster k v).fencePend = s.fencePend ∧ (s.setCluster k v).fusePend = s.fusePend ∧
    (s.setCluster k v).frostArmed = s.frostArmed ∧ (s.setCluster k v).latchHi = s.latchHi ∧ (s.setCluster k v).flashCmd = s.flashCmd ∧
    (s.setCluster k v).freeNext = s.freeNext ∧ (s.setCluster k v).out = s.out ∧ (s.setCluster k v).pending = s.pending := by
  and_intros <;> rfl

/-- State.setRegion changes regions alone. -/
@[simp] theorem State.setRegion_frame (s : State) (r : Nat) (v : Region) :
    (s.setRegion r v).regs = s.regs ∧ (s.setRegion r v).staged = s.staged ∧ (s.setRegion r v).baseSwap = s.baseSwap ∧
    (s.setRegion r v).clock = s.clock ∧ (s.setRegion r v).run = s.run ∧ (s.setRegion r v).pendTable = s.pendTable ∧ (s.setRegion r v).way = s.way ∧
    (s.setRegion r v).units = s.units ∧ (s.setRegion r v).funs = s.funs ∧ (s.setRegion r v).clusters = s.clusters ∧
    (s.setRegion r v).portQ = s.portQ ∧ (s.setRegion r v).bankQ = s.bankQ ∧ (s.setRegion r v).steerQ = s.steerQ ∧ (s.setRegion r v).links = s.links ∧
    (s.setRegion r v).contribs = s.contribs ∧ (s.setRegion r v).vas = s.vas ∧ (s.setRegion r v).memTiles = s.memTiles ∧
    (s.setRegion r v).memHeld = s.memHeld ∧ (s.setRegion r v).memArb = s.memArb ∧ (s.setRegion r v).egressArb = s.egressArb ∧
    (s.setRegion r v).stage = s.stage ∧ (s.setRegion r v).image = s.image ∧ (s.setRegion r v).lanes = s.lanes ∧
    (s.setRegion r v).retries = s.retries ∧ (s.setRegion r v).ctxs = s.ctxs ∧ (s.setRegion r v).mcs = s.mcs ∧ (s.setRegion r v).txLinks = s.txLinks ∧
    (s.setRegion r v).heldFlits = s.heldFlits ∧ (s.setRegion r v).windows = s.windows ∧ (s.setRegion r v).sys = s.sys ∧
    (s.setRegion r v).rings = s.rings ∧ (s.setRegion r v).posted = s.posted ∧ (s.setRegion r v).shadow = s.shadow ∧
    (s.setRegion r v).indirect = s.indirect ∧ (s.setRegion r v).spies = s.spies ∧ (s.setRegion r v).fuses = s.fuses ∧
    (s.setRegion r v).flash = s.flash ∧ (s.setRegion r v).flashDead = s.flashDead ∧ (s.setRegion r v).trust = s.trust ∧
    (s.setRegion r v).avs = s.avs ∧ (s.setRegion r v).thermal = s.thermal ∧ (s.setRegion r v).pins = s.pins ∧ (s.setRegion r v).tap = s.tap ∧
    (s.setRegion r v).frost = s.frost ∧ (s.setRegion r v).hazardsHeld = s.hazardsHeld ∧ (s.setRegion r v).byteCmds = s.byteCmds ∧
    (s.setRegion r v).fencePend = s.fencePend ∧ (s.setRegion r v).fusePend = s.fusePend ∧ (s.setRegion r v).frostArmed = s.frostArmed ∧
    (s.setRegion r v).latchHi = s.latchHi ∧ (s.setRegion r v).flashCmd = s.flashCmd ∧ (s.setRegion r v).freeNext = s.freeNext ∧
    (s.setRegion r v).out = s.out ∧ (s.setRegion r v).pending = s.pending := by
  and_intros <;> rfl

/-- State.setWay changes way alone. -/
@[simp] theorem State.setWay_frame (s : State) (n : Nat) (v : WayLane) :
    (s.setWay n v).regs = s.regs ∧ (s.setWay n v).staged = s.staged ∧ (s.setWay n v).baseSwap = s.baseSwap ∧ (s.setWay n v).clock = s.clock ∧
    (s.setWay n v).run = s.run ∧ (s.setWay n v).pendTable = s.pendTable ∧ (s.setWay n v).units = s.units ∧ (s.setWay n v).funs = s.funs ∧
    (s.setWay n v).clusters = s.clusters ∧ (s.setWay n v).portQ = s.portQ ∧ (s.setWay n v).bankQ = s.bankQ ∧ (s.setWay n v).steerQ = s.steerQ ∧
    (s.setWay n v).links = s.links ∧ (s.setWay n v).contribs = s.contribs ∧ (s.setWay n v).vas = s.vas ∧ (s.setWay n v).regions = s.regions ∧
    (s.setWay n v).memTiles = s.memTiles ∧ (s.setWay n v).memHeld = s.memHeld ∧ (s.setWay n v).memArb = s.memArb ∧
    (s.setWay n v).egressArb = s.egressArb ∧ (s.setWay n v).stage = s.stage ∧ (s.setWay n v).image = s.image ∧ (s.setWay n v).lanes = s.lanes ∧
    (s.setWay n v).retries = s.retries ∧ (s.setWay n v).ctxs = s.ctxs ∧ (s.setWay n v).mcs = s.mcs ∧ (s.setWay n v).txLinks = s.txLinks ∧
    (s.setWay n v).heldFlits = s.heldFlits ∧ (s.setWay n v).windows = s.windows ∧ (s.setWay n v).sys = s.sys ∧ (s.setWay n v).rings = s.rings ∧
    (s.setWay n v).posted = s.posted ∧ (s.setWay n v).shadow = s.shadow ∧ (s.setWay n v).indirect = s.indirect ∧ (s.setWay n v).spies = s.spies ∧
    (s.setWay n v).fuses = s.fuses ∧ (s.setWay n v).flash = s.flash ∧ (s.setWay n v).flashDead = s.flashDead ∧ (s.setWay n v).trust = s.trust ∧
    (s.setWay n v).avs = s.avs ∧ (s.setWay n v).thermal = s.thermal ∧ (s.setWay n v).pins = s.pins ∧ (s.setWay n v).tap = s.tap ∧
    (s.setWay n v).frost = s.frost ∧ (s.setWay n v).hazardsHeld = s.hazardsHeld ∧ (s.setWay n v).byteCmds = s.byteCmds ∧
    (s.setWay n v).fencePend = s.fencePend ∧ (s.setWay n v).fusePend = s.fusePend ∧ (s.setWay n v).frostArmed = s.frostArmed ∧
    (s.setWay n v).latchHi = s.latchHi ∧ (s.setWay n v).flashCmd = s.flashCmd ∧ (s.setWay n v).freeNext = s.freeNext ∧ (s.setWay n v).out = s.out ∧
    (s.setWay n v).pending = s.pending := by
  and_intros <;> rfl

/-- State.setVa changes vas alone. -/
@[simp] theorem State.setVa_frame (s : State) (n : Nat) (v : Assembler) :
    (s.setVa n v).regs = s.regs ∧ (s.setVa n v).staged = s.staged ∧ (s.setVa n v).baseSwap = s.baseSwap ∧ (s.setVa n v).clock = s.clock ∧
    (s.setVa n v).run = s.run ∧ (s.setVa n v).pendTable = s.pendTable ∧ (s.setVa n v).way = s.way ∧ (s.setVa n v).units = s.units ∧
    (s.setVa n v).funs = s.funs ∧ (s.setVa n v).clusters = s.clusters ∧ (s.setVa n v).portQ = s.portQ ∧ (s.setVa n v).bankQ = s.bankQ ∧
    (s.setVa n v).steerQ = s.steerQ ∧ (s.setVa n v).links = s.links ∧ (s.setVa n v).contribs = s.contribs ∧ (s.setVa n v).regions = s.regions ∧
    (s.setVa n v).memTiles = s.memTiles ∧ (s.setVa n v).memHeld = s.memHeld ∧ (s.setVa n v).memArb = s.memArb ∧
    (s.setVa n v).egressArb = s.egressArb ∧ (s.setVa n v).stage = s.stage ∧ (s.setVa n v).image = s.image ∧ (s.setVa n v).lanes = s.lanes ∧
    (s.setVa n v).retries = s.retries ∧ (s.setVa n v).ctxs = s.ctxs ∧ (s.setVa n v).mcs = s.mcs ∧ (s.setVa n v).txLinks = s.txLinks ∧
    (s.setVa n v).heldFlits = s.heldFlits ∧ (s.setVa n v).windows = s.windows ∧ (s.setVa n v).sys = s.sys ∧ (s.setVa n v).rings = s.rings ∧
    (s.setVa n v).posted = s.posted ∧ (s.setVa n v).shadow = s.shadow ∧ (s.setVa n v).indirect = s.indirect ∧ (s.setVa n v).spies = s.spies ∧
    (s.setVa n v).fuses = s.fuses ∧ (s.setVa n v).flash = s.flash ∧ (s.setVa n v).flashDead = s.flashDead ∧ (s.setVa n v).trust = s.trust ∧
    (s.setVa n v).avs = s.avs ∧ (s.setVa n v).thermal = s.thermal ∧ (s.setVa n v).pins = s.pins ∧ (s.setVa n v).tap = s.tap ∧
    (s.setVa n v).frost = s.frost ∧ (s.setVa n v).hazardsHeld = s.hazardsHeld ∧ (s.setVa n v).byteCmds = s.byteCmds ∧
    (s.setVa n v).fencePend = s.fencePend ∧ (s.setVa n v).fusePend = s.fusePend ∧ (s.setVa n v).frostArmed = s.frostArmed ∧
    (s.setVa n v).latchHi = s.latchHi ∧ (s.setVa n v).flashCmd = s.flashCmd ∧ (s.setVa n v).freeNext = s.freeNext ∧ (s.setVa n v).out = s.out ∧
    (s.setVa n v).pending = s.pending := by
  and_intros <;> rfl

/-- State.setCtx changes ctxs alone. -/
@[simp] theorem State.setCtx_frame (s : State) (x : Nat) (v : CtxSt) :
    (s.setCtx x v).regs = s.regs ∧ (s.setCtx x v).staged = s.staged ∧ (s.setCtx x v).baseSwap = s.baseSwap ∧ (s.setCtx x v).clock = s.clock ∧
    (s.setCtx x v).run = s.run ∧ (s.setCtx x v).pendTable = s.pendTable ∧ (s.setCtx x v).way = s.way ∧ (s.setCtx x v).units = s.units ∧
    (s.setCtx x v).funs = s.funs ∧ (s.setCtx x v).clusters = s.clusters ∧ (s.setCtx x v).portQ = s.portQ ∧ (s.setCtx x v).bankQ = s.bankQ ∧
    (s.setCtx x v).steerQ = s.steerQ ∧ (s.setCtx x v).links = s.links ∧ (s.setCtx x v).contribs = s.contribs ∧ (s.setCtx x v).vas = s.vas ∧
    (s.setCtx x v).regions = s.regions ∧ (s.setCtx x v).memTiles = s.memTiles ∧ (s.setCtx x v).memHeld = s.memHeld ∧
    (s.setCtx x v).memArb = s.memArb ∧ (s.setCtx x v).egressArb = s.egressArb ∧ (s.setCtx x v).stage = s.stage ∧ (s.setCtx x v).image = s.image ∧
    (s.setCtx x v).lanes = s.lanes ∧ (s.setCtx x v).retries = s.retries ∧ (s.setCtx x v).mcs = s.mcs ∧ (s.setCtx x v).txLinks = s.txLinks ∧
    (s.setCtx x v).heldFlits = s.heldFlits ∧ (s.setCtx x v).windows = s.windows ∧ (s.setCtx x v).sys = s.sys ∧ (s.setCtx x v).rings = s.rings ∧
    (s.setCtx x v).posted = s.posted ∧ (s.setCtx x v).shadow = s.shadow ∧ (s.setCtx x v).indirect = s.indirect ∧ (s.setCtx x v).spies = s.spies ∧
    (s.setCtx x v).fuses = s.fuses ∧ (s.setCtx x v).flash = s.flash ∧ (s.setCtx x v).flashDead = s.flashDead ∧ (s.setCtx x v).trust = s.trust ∧
    (s.setCtx x v).avs = s.avs ∧ (s.setCtx x v).thermal = s.thermal ∧ (s.setCtx x v).pins = s.pins ∧ (s.setCtx x v).tap = s.tap ∧
    (s.setCtx x v).frost = s.frost ∧ (s.setCtx x v).hazardsHeld = s.hazardsHeld ∧ (s.setCtx x v).byteCmds = s.byteCmds ∧
    (s.setCtx x v).fencePend = s.fencePend ∧ (s.setCtx x v).fusePend = s.fusePend ∧ (s.setCtx x v).frostArmed = s.frostArmed ∧
    (s.setCtx x v).latchHi = s.latchHi ∧ (s.setCtx x v).flashCmd = s.flashCmd ∧ (s.setCtx x v).freeNext = s.freeNext ∧ (s.setCtx x v).out = s.out ∧
    (s.setCtx x v).pending = s.pending := by
  and_intros <;> rfl

/-- State.setQueue changes portQ, bankQ, steerQ alone. -/
@[simp] theorem State.setQueue_frame (s : State) (q : QueueId) (v : Queue) :
    (s.setQueue q v).regs = s.regs ∧ (s.setQueue q v).staged = s.staged ∧ (s.setQueue q v).baseSwap = s.baseSwap ∧ (s.setQueue q v).clock = s.clock ∧
    (s.setQueue q v).run = s.run ∧ (s.setQueue q v).pendTable = s.pendTable ∧ (s.setQueue q v).way = s.way ∧ (s.setQueue q v).units = s.units ∧
    (s.setQueue q v).funs = s.funs ∧ (s.setQueue q v).clusters = s.clusters ∧ (s.setQueue q v).links = s.links ∧
    (s.setQueue q v).contribs = s.contribs ∧ (s.setQueue q v).vas = s.vas ∧ (s.setQueue q v).regions = s.regions ∧
    (s.setQueue q v).memTiles = s.memTiles ∧ (s.setQueue q v).memHeld = s.memHeld ∧ (s.setQueue q v).memArb = s.memArb ∧
    (s.setQueue q v).egressArb = s.egressArb ∧ (s.setQueue q v).stage = s.stage ∧ (s.setQueue q v).image = s.image ∧
    (s.setQueue q v).lanes = s.lanes ∧ (s.setQueue q v).retries = s.retries ∧ (s.setQueue q v).ctxs = s.ctxs ∧ (s.setQueue q v).mcs = s.mcs ∧
    (s.setQueue q v).txLinks = s.txLinks ∧ (s.setQueue q v).heldFlits = s.heldFlits ∧ (s.setQueue q v).windows = s.windows ∧
    (s.setQueue q v).sys = s.sys ∧ (s.setQueue q v).rings = s.rings ∧ (s.setQueue q v).posted = s.posted ∧ (s.setQueue q v).shadow = s.shadow ∧
    (s.setQueue q v).indirect = s.indirect ∧ (s.setQueue q v).spies = s.spies ∧ (s.setQueue q v).fuses = s.fuses ∧ (s.setQueue q v).flash = s.flash ∧
    (s.setQueue q v).flashDead = s.flashDead ∧ (s.setQueue q v).trust = s.trust ∧ (s.setQueue q v).avs = s.avs ∧
    (s.setQueue q v).thermal = s.thermal ∧ (s.setQueue q v).pins = s.pins ∧ (s.setQueue q v).tap = s.tap ∧ (s.setQueue q v).frost = s.frost ∧
    (s.setQueue q v).hazardsHeld = s.hazardsHeld ∧ (s.setQueue q v).byteCmds = s.byteCmds ∧ (s.setQueue q v).fencePend = s.fencePend ∧
    (s.setQueue q v).fusePend = s.fusePend ∧ (s.setQueue q v).frostArmed = s.frostArmed ∧ (s.setQueue q v).latchHi = s.latchHi ∧
    (s.setQueue q v).flashCmd = s.flashCmd ∧ (s.setQueue q v).freeNext = s.freeNext ∧ (s.setQueue q v).out = s.out ∧
    (s.setQueue q v).pending = s.pending := by
  cases q <;> and_intros <;> rfl

/-- State.at changes clock alone. -/
@[simp] theorem State.at_frame (s : State) (t : Nat) :
    (s.at t).regs = s.regs ∧ (s.at t).staged = s.staged ∧ (s.at t).baseSwap = s.baseSwap ∧ (s.at t).run = s.run ∧ (s.at t).pendTable = s.pendTable ∧
    (s.at t).way = s.way ∧ (s.at t).units = s.units ∧ (s.at t).funs = s.funs ∧ (s.at t).clusters = s.clusters ∧ (s.at t).portQ = s.portQ ∧
    (s.at t).bankQ = s.bankQ ∧ (s.at t).steerQ = s.steerQ ∧ (s.at t).links = s.links ∧ (s.at t).contribs = s.contribs ∧ (s.at t).vas = s.vas ∧
    (s.at t).regions = s.regions ∧ (s.at t).memTiles = s.memTiles ∧ (s.at t).memHeld = s.memHeld ∧ (s.at t).memArb = s.memArb ∧
    (s.at t).egressArb = s.egressArb ∧ (s.at t).stage = s.stage ∧ (s.at t).image = s.image ∧ (s.at t).lanes = s.lanes ∧
    (s.at t).retries = s.retries ∧ (s.at t).ctxs = s.ctxs ∧ (s.at t).mcs = s.mcs ∧ (s.at t).txLinks = s.txLinks ∧ (s.at t).heldFlits = s.heldFlits ∧
    (s.at t).windows = s.windows ∧ (s.at t).sys = s.sys ∧ (s.at t).rings = s.rings ∧ (s.at t).posted = s.posted ∧ (s.at t).shadow = s.shadow ∧
    (s.at t).indirect = s.indirect ∧ (s.at t).spies = s.spies ∧ (s.at t).fuses = s.fuses ∧ (s.at t).flash = s.flash ∧
    (s.at t).flashDead = s.flashDead ∧ (s.at t).trust = s.trust ∧ (s.at t).avs = s.avs ∧ (s.at t).thermal = s.thermal ∧ (s.at t).pins = s.pins ∧
    (s.at t).tap = s.tap ∧ (s.at t).frost = s.frost ∧ (s.at t).hazardsHeld = s.hazardsHeld ∧ (s.at t).byteCmds = s.byteCmds ∧
    (s.at t).fencePend = s.fencePend ∧ (s.at t).fusePend = s.fusePend ∧ (s.at t).frostArmed = s.frostArmed ∧ (s.at t).latchHi = s.latchHi ∧
    (s.at t).flashCmd = s.flashCmd ∧ (s.at t).freeNext = s.freeNext ∧ (s.at t).out = s.out ∧ (s.at t).pending = s.pending := by
  and_intros <;> rfl

/-- State.setMemTile changes memTiles alone. -/
@[simp] theorem State.setMemTile_frame (s : State) (t : Nat) (m : Store) :
    (s.setMemTile t m).regs = s.regs ∧ (s.setMemTile t m).staged = s.staged ∧ (s.setMemTile t m).baseSwap = s.baseSwap ∧
    (s.setMemTile t m).clock = s.clock ∧ (s.setMemTile t m).run = s.run ∧ (s.setMemTile t m).pendTable = s.pendTable ∧
    (s.setMemTile t m).way = s.way ∧ (s.setMemTile t m).units = s.units ∧ (s.setMemTile t m).funs = s.funs ∧
    (s.setMemTile t m).clusters = s.clusters ∧ (s.setMemTile t m).portQ = s.portQ ∧ (s.setMemTile t m).bankQ = s.bankQ ∧
    (s.setMemTile t m).steerQ = s.steerQ ∧ (s.setMemTile t m).links = s.links ∧ (s.setMemTile t m).contribs = s.contribs ∧
    (s.setMemTile t m).vas = s.vas ∧ (s.setMemTile t m).regions = s.regions ∧ (s.setMemTile t m).memHeld = s.memHeld ∧
    (s.setMemTile t m).memArb = s.memArb ∧ (s.setMemTile t m).egressArb = s.egressArb ∧ (s.setMemTile t m).stage = s.stage ∧
    (s.setMemTile t m).image = s.image ∧ (s.setMemTile t m).lanes = s.lanes ∧ (s.setMemTile t m).retries = s.retries ∧
    (s.setMemTile t m).ctxs = s.ctxs ∧ (s.setMemTile t m).mcs = s.mcs ∧ (s.setMemTile t m).txLinks = s.txLinks ∧
    (s.setMemTile t m).heldFlits = s.heldFlits ∧ (s.setMemTile t m).windows = s.windows ∧ (s.setMemTile t m).sys = s.sys ∧
    (s.setMemTile t m).rings = s.rings ∧ (s.setMemTile t m).posted = s.posted ∧ (s.setMemTile t m).shadow = s.shadow ∧
    (s.setMemTile t m).indirect = s.indirect ∧ (s.setMemTile t m).spies = s.spies ∧ (s.setMemTile t m).fuses = s.fuses ∧
    (s.setMemTile t m).flash = s.flash ∧ (s.setMemTile t m).flashDead = s.flashDead ∧ (s.setMemTile t m).trust = s.trust ∧
    (s.setMemTile t m).avs = s.avs ∧ (s.setMemTile t m).thermal = s.thermal ∧ (s.setMemTile t m).pins = s.pins ∧ (s.setMemTile t m).tap = s.tap ∧
    (s.setMemTile t m).frost = s.frost ∧ (s.setMemTile t m).hazardsHeld = s.hazardsHeld ∧ (s.setMemTile t m).byteCmds = s.byteCmds ∧
    (s.setMemTile t m).fencePend = s.fencePend ∧ (s.setMemTile t m).fusePend = s.fusePend ∧ (s.setMemTile t m).frostArmed = s.frostArmed ∧
    (s.setMemTile t m).latchHi = s.latchHi ∧ (s.setMemTile t m).flashCmd = s.flashCmd ∧ (s.setMemTile t m).freeNext = s.freeNext ∧
    (s.setMemTile t m).out = s.out ∧ (s.setMemTile t m).pending = s.pending := by
  and_intros <;> rfl

/-! ### Parts by index -/

@[simp] theorem State.setUnit_unit (s : State) (i : Nat) (v : DotUnit) : (s.setUnit i v).unit i = v := mget_mset_same ({} : DotUnit) s.units i v
theorem State.setUnit_unit_other (s : State) (i j : Nat) (v : DotUnit) (h : j ≠ i) : (s.setUnit i v).unit j = s.unit j := mget_mset_other _ _ s.units v h
@[simp] theorem State.setFun_fun (s : State) (i : Nat) (v : FunUnit) : (s.setFun i v).fun_ i = v := mget_mset_same ({} : FunUnit) s.funs i v
theorem State.setFun_fun_other (s : State) (i j : Nat) (v : FunUnit) (h : j ≠ i) : (s.setFun i v).fun_ j = s.fun_ j := mget_mset_other _ _ s.funs v h
@[simp] theorem State.setCluster_cluster (s : State) (i : Nat) (v : Cluster) : (s.setCluster i v).cluster i = v := mget_mset_same ({} : Cluster) s.clusters i v
theorem State.setCluster_cluster_other (s : State) (i j : Nat) (v : Cluster) (h : j ≠ i) : (s.setCluster i v).cluster j = s.cluster j := mget_mset_other _ _ s.clusters v h
@[simp] theorem State.setRegion_region (s : State) (i : Nat) (v : Region) : (s.setRegion i v).region i = v := mget_mset_same ({} : Region) s.regions i v
theorem State.setRegion_region_other (s : State) (i j : Nat) (v : Region) (h : j ≠ i) : (s.setRegion i v).region j = s.region j := mget_mset_other _ _ s.regions v h
@[simp] theorem State.setWay_wayLane (s : State) (i : Nat) (v : WayLane) : (s.setWay i v).wayLane i = v := mget_mset_same ({} : WayLane) s.way i v
theorem State.setWay_wayLane_other (s : State) (i j : Nat) (v : WayLane) (h : j ≠ i) : (s.setWay i v).wayLane j = s.wayLane j := mget_mset_other _ _ s.way v h
@[simp] theorem State.setVa_va (s : State) (i : Nat) (v : Assembler) : (s.setVa i v).va i = v := mget_mset_same ({} : Assembler) s.vas i v
theorem State.setVa_va_other (s : State) (i j : Nat) (v : Assembler) (h : j ≠ i) : (s.setVa i v).va j = s.va j := mget_mset_other _ _ s.vas v h
@[simp] theorem State.setCtx_ctx (s : State) (i : Nat) (v : CtxSt) : (s.setCtx i v).ctx i = v := mget_mset_same ({} : CtxSt) s.ctxs i v
theorem State.setCtx_ctx_other (s : State) (i j : Nat) (v : CtxSt) (h : j ≠ i) : (s.setCtx i v).ctx j = s.ctx j := mget_mset_other _ _ s.ctxs v h
@[simp] theorem State.setMemTile_memTile (s : State) (i : Nat) (v : Store) : (s.setMemTile i v).memTile i = v := mget_mset_same ({} : Store) s.memTiles i v
theorem State.setMemTile_memTile_other (s : State) (i j : Nat) (v : Store) (h : j ≠ i) : (s.setMemTile i v).memTile j = s.memTile j := mget_mset_other _ _ s.memTiles v h

end Sys2Proof.Machine
end

