-- ==== Sys2Proof/Laws/Fields.lean ====
section
/-!
SUPPORT. Laws/Fields.lean: register words and their fields: what a written field reads back, and that every other register and every other
field of the register keep their values (00_scope.md R8, R9).
-/
namespace Sys2Proof.Machine

theorem xor_swap_cancel (v m : Word32) : v ^^^ m ^^^ m = v := by
  rw [BitVec.xor_assoc, BitVec.xor_self, BitVec.xor_zero]

theorem State.swapped_swapped (s t : State) (a : Nat) (v : Word32) (h : t.baseSwap = s.baseSwap) : t.swapped a (s.swapped a v) = v := by
  unfold State.swapped
  rw [h]
  split
  · exact xor_swap_cancel v _
  · rfl

/-- The reset values are a matter of the fuses. -/
theorem regReset_congr {s t : State} (h : t.fuses = s.fuses) (a : Nat) : regReset t a = regReset s a := by
  simp only [regReset, h]

/-- A register reads the same where its word, the fuses and SWAP are the same. -/
theorem State.raw_congr {s t : State} (h1 : t.regs = s.regs) (h2 : t.fuses = s.fuses) (h3 : t.baseSwap = s.baseSwap) (a : Nat) :
    t.raw a = s.raw a := by
  simp only [State.raw, State.swapped, h1, h3, regReset_congr h2]

theorem State.fld_congr {s t : State} (h1 : t.regs = s.regs) (h2 : t.fuses = s.fuses) (h3 : t.baseSwap = s.baseSwap) (f : Fld) :
    t.fld f = s.fld f := by
  simp only [State.fld, State.raw_congr h1 h2 h3]

theorem State.is_congr {s t : State} (h1 : t.regs = s.regs) (h2 : t.fuses = s.fuses) (h3 : t.baseSwap = s.baseSwap) (f : Fld) :
    t.is f = s.is f := by
  simp only [State.is, State.fld_congr h1 h2 h3]

@[simp] theorem State.raw_setRaw (s : State) (a : Nat) (v : Word32) : (s.setRaw a v).raw a = v := by
  show (s.setRaw a v).swapped a (mget (regReset s a) (mset (regReset s a) s.regs a (s.swapped a v)) a) = v
  rw [mget_mset_same]
  exact State.swapped_swapped s _ a v rfl

theorem State.raw_setRaw_other (s : State) {a b : Nat} (v : Word32) (h : b ≠ a) : (s.setRaw a v).raw b = s.raw b := by
  show s.swapped b (mget (regReset s b) (mset (regReset s a) s.regs a (s.swapped a v)) b) = _
  rw [mget_mset_other _ _ _ _ h]
  rfl

theorem State.raw_setFld_other (s : State) {f : Fld} {b : Nat} (v : Nat) (h : b ≠ f.addr) : (s.setFld f v).raw b = s.raw b :=
  State.raw_setRaw_other s _ h

theorem bits_and_not (r m : Word32) (i : Nat) : (r &&& ~~~m).getLsbD i = (r.getLsbD i && !m.getLsbD i) := by
  rw [BitVec.getLsbD_and]
  by_cases h : i < 32
  · simp [h]
  · simp [BitVec.getLsbD_of_ge _ _ (Nat.le_of_not_lt h)]

/-- Bit `i` of a word with a field replaced. -/
theorem getLsbD_putField (r : Word32) (lo w v i : Nat) (hi : i < 32) :
    (putField r lo w v).getLsbD i = if lo ≤ i ∧ i < lo + w then v.testBit (i - lo) else r.getLsbD i := by
  have e : ∀ x : Nat, (BitVec.ofNat 32 x <<< lo).getLsbD i = (decide (lo ≤ i) && x.testBit (i - lo)) := by
    intro x
    rw [BitVec.getLsbD_shiftLeft, BitVec.getLsbD_ofNat]
    by_cases h : lo ≤ i
    · have h2 : i - lo < 32 := by omega
      simp [hi, h, h2]
    · simp [h, Nat.lt_of_not_le h]
  rw [putField, BitVec.getLsbD_or, bits_and_not, e, e, Nat.testBit_two_pow_sub_one, Nat.testBit_mod_two_pow]
  by_cases h : lo ≤ i
  · by_cases k : i < lo + w
    · have k2 : i - lo < w := by omega
      simp [h, k, k2]
    · have k2 : ¬ i - lo < w := by omega
      simp [h, k, k2]
  · simp [h]

theorem testBit_bits (v lo w i : Nat) : (bits v lo w).testBit i = (decide (i < w) && v.testBit (lo + i)) := by
  rw [bits, Nat.testBit_mod_two_pow, Nat.testBit_div_two_pow]
  rw [Nat.add_comm]

/-- A written field reads back the value's low bits. -/
theorem bits_putField_same (r : Word32) (lo w v : Nat) (h : lo + w ≤ 32) : bits (putField r lo w v).toNat lo w = v % 2 ^ w := by
  apply Nat.eq_of_testBit_eq
  intro i
  rw [testBit_bits, Nat.testBit_mod_two_pow]
  by_cases hi : i < w
  · have h1 : lo + i < 32 := by omega
    have h2 : lo ≤ lo + i ∧ lo + i < lo + w := by omega
    have := getLsbD_putField r lo w v (lo + i) h1
    rw [if_pos h2] at this
    simp only [BitVec.getLsbD] at this
    simp [hi, this]
  · simp [hi]

/-- A field that shares no bit with the written one keeps its value. -/
theorem bits_putField_other (r : Word32) (lo w v lo' w' : Nat) (h : lo' + w' ≤ 32) (hd : lo' + w' ≤ lo ∨ lo + w ≤ lo') :
    bits (putField r lo w v).toNat lo' w' = bits r.toNat lo' w' := by
  apply Nat.eq_of_testBit_eq
  intro i
  rw [testBit_bits, testBit_bits]
  by_cases hi : i < w'
  · have h1 : lo' + i < 32 := by omega
    have h2 : ¬ (lo ≤ lo' + i ∧ lo' + i < lo + w) := by omega
    have := getLsbD_putField r lo w v (lo' + i) h1
    rw [if_neg h2] at this
    simp only [BitVec.getLsbD] at this
    simp [hi, this]
  · simp [hi]

/-- A field write reads back. -/
theorem State.fld_setFld (s : State) (f : Fld) (v : Nat) (h : f.lo + f.w ≤ 32) : (s.setFld f v).fld f = v % 2 ^ f.w := by
  simp only [State.fld, State.setFld, State.raw_setRaw]
  exact bits_putField_same _ _ _ _ h

/-- Fields that share no bit. -/
def Fld.apart (f g : Fld) : Prop := g.addr ≠ f.addr ∨ g.lo + g.w ≤ f.lo ∨ f.lo + f.w ≤ g.lo

/-- A field write leaves every field apart from it alone. -/
theorem State.fld_setFld_other (s : State) (f g : Fld) (v : Nat) (h : g.lo + g.w ≤ 32) (hd : f.apart g) : (s.setFld f v).fld g = s.fld g := by
  simp only [State.fld, State.setFld]
  by_cases ha : g.addr = f.addr
  · rw [ha, State.raw_setRaw]
    exact bits_putField_other _ _ _ _ _ _ h (by rcases hd with hd | hd | hd <;> simp_all)
  · rw [State.raw_setRaw_other _ _ ha]

/-- A counter goes up by n and stays at its greatest value (02 R65, 04 R110). -/
theorem State.fld_bump (s : State) (f : Fld) (n : Nat) (h : f.lo + f.w ≤ 32) : (s.bump f n).fld f = min (2 ^ f.w - 1) (s.fld f + n) := by
  rw [State.bump, State.fld_setFld _ _ _ h, Nat.mod_eq_of_lt]
  have := Nat.two_pow_pos f.w
  omega

theorem State.fld_bump_other (s : State) (f g : Fld) (n : Nat) (h : g.lo + g.w ≤ 32) (hd : f.apart g) : (s.bump f n).fld g = s.fld g :=
  State.fld_setFld_other s f g _ h hd

/-- A sticky bit is set. -/
theorem State.is_mark (s : State) (f : Fld) (h : f.lo + f.w ≤ 32) (hw : f.w = 1) : (s.mark f).is f = true := by
  simp [State.is, State.mark, State.fld_setFld _ _ _ h, hw]

theorem State.fld_mark_other (s : State) (f g : Fld) (h : g.lo + g.w ≤ 32) (hd : f.apart g) : (s.mark f).fld g = s.fld g :=
  State.fld_setFld_other s f g _ h hd

theorem State.fld_lt (s : State) (f : Fld) : s.fld f < 2 ^ f.w := Nat.mod_lt _ (Nat.two_pow_pos _)

/-! ### Record updates -/

/-- The state with these register words, this SWAP and these fuses, and everything else as at reset: what a register reads depends on
these three alone. -/
def State.regView (regs : SMap Word32) (baseSwap : Bool) (fuses : Fuses) : State := { regs := regs, baseSwap := baseSwap, fuses := fuses }

/-- A register of a record update reads by the update's register words, SWAP and fuses. -/
theorem State.raw_mk {regs staged baseSwap clock run pendTable way units funs clusters portQ bankQ steerQ links contribs vas regions memTiles memHeld memArb
    egressArb stage image lanes retries ctxs mcs txLinks heldFlits windows sys rings posted shadow indirect spies fuses flash flashDead
    trust avs thermal pins tap frost hazardsHeld byteCmds fencePend fusePend frostArmed latchHi flashCmd freeNext out pending} (a : Nat) :
    (State.mk regs staged baseSwap clock run pendTable way units funs clusters portQ bankQ steerQ links contribs vas regions memTiles memHeld memArb
      egressArb stage image lanes retries ctxs mcs txLinks heldFlits windows sys rings posted shadow indirect spies fuses flash flashDead
      trust avs thermal pins tap frost hazardsHeld byteCmds fencePend fusePend frostArmed latchHi flashCmd freeNext out pending).raw a = (State.regView regs baseSwap fuses).raw a := rfl

theorem State.fld_mk {regs staged baseSwap clock run pendTable way units funs clusters portQ bankQ steerQ links contribs vas regions memTiles memHeld memArb
    egressArb stage image lanes retries ctxs mcs txLinks heldFlits windows sys rings posted shadow indirect spies fuses flash flashDead
    trust avs thermal pins tap frost hazardsHeld byteCmds fencePend fusePend frostArmed latchHi flashCmd freeNext out pending} (f : Fld) :
    (State.mk regs staged baseSwap clock run pendTable way units funs clusters portQ bankQ steerQ links contribs vas regions memTiles memHeld memArb
      egressArb stage image lanes retries ctxs mcs txLinks heldFlits windows sys rings posted shadow indirect spies fuses flash flashDead
      trust avs thermal pins tap frost hazardsHeld byteCmds fencePend fusePend frostArmed latchHi flashCmd freeNext out pending).fld f = (State.regView regs baseSwap fuses).fld f := rfl

theorem State.is_mk {regs staged baseSwap clock run pendTable way units funs clusters portQ bankQ steerQ links contribs vas regions memTiles memHeld memArb
    egressArb stage image lanes retries ctxs mcs txLinks heldFlits windows sys rings posted shadow indirect spies fuses flash flashDead
    trust avs thermal pins tap frost hazardsHeld byteCmds fencePend fusePend frostArmed latchHi flashCmd freeNext out pending} (f : Fld) :
    (State.mk regs staged baseSwap clock run pendTable way units funs clusters portQ bankQ steerQ links contribs vas regions memTiles memHeld memArb
      egressArb stage image lanes retries ctxs mcs txLinks heldFlits windows sys rings posted shadow indirect spies fuses flash flashDead
      trust avs thermal pins tap frost hazardsHeld byteCmds fencePend fusePend frostArmed latchHi flashCmd freeNext out pending).is f = (State.regView regs baseSwap fuses).is f := rfl

/-- The view of a state reads as the state. -/
theorem State.raw_regView {s : State} {w : Bool} {u : Fuses} (hw : w = s.baseSwap) (hu : u = s.fuses) (a : Nat) :
    (State.regView s.regs w u).raw a = s.raw a := by subst hw hu; rfl

theorem State.fld_regView {s : State} {w : Bool} {u : Fuses} (hw : w = s.baseSwap) (hu : u = s.fuses) (f : Fld) :
    (State.regView s.regs w u).fld f = s.fld f := by subst hw hu; rfl

theorem State.is_regView {s : State} {w : Bool} {u : Fuses} (hw : w = s.baseSwap) (hu : u = s.fuses) (f : Fld) :
    (State.regView s.regs w u).is f = s.is f := by subst hw hu; rfl

/-! ### Registers that read alike -/

theorem regsSame.refl (s : State) (l : List Nat) : regsSame s s l := fun _ _ => rfl

theorem regsSame.trans {s t u : State} {l : List Nat} (h : regsSame s t l) (k : regsSame t u l) : regsSame s u l :=
  fun a ha => (k a ha).trans (h a ha)

theorem regsSame.mono {s t : State} {l m : List Nat} (h : regsSame s t l) (hl : ∀ a ∈ l, a ∈ m) : regsSame s t m :=
  fun a ha => h a (fun hc => ha (hl a hc))

/-- Registers read alike where the words, the fuses and SWAP are the same. -/
theorem regsSame.of_parts {s t : State} (l : List Nat) (h1 : t.regs = s.regs) (h2 : t.fuses = s.fuses) (h3 : t.baseSwap = s.baseSwap) :
    regsSame s t l := fun a _ => State.raw_congr h1 h2 h3 a

theorem regsSame_setRaw {s t : State} {l : List Nat} (a : Nat) (v : Word32) (h : regsSame s t l) (ha : a ∈ l) : regsSame s (t.setRaw a v) l :=
  fun b hb => (State.raw_setRaw_other t v (fun c => hb (by rw [c]; exact ha))).trans (h b hb)

theorem regsSame_setFld {s t : State} {l : List Nat} (f : Fld) (v : Nat) (h : regsSame s t l) (ha : f.addr ∈ l) : regsSame s (t.setFld f v) l :=
  regsSame_setRaw _ _ h ha

theorem regsSame_bump {s t : State} {l : List Nat} (f : Fld) (n : Nat) (h : regsSame s t l) (ha : f.addr ∈ l) : regsSame s (t.bump f n) l :=
  regsSame_setRaw _ _ h ha

theorem regsSame_mark {s t : State} {l : List Nat} (f : Fld) (h : regsSame s t l) (ha : f.addr ∈ l) : regsSame s (t.mark f) l :=
  regsSame_setRaw _ _ h ha

end Sys2Proof.Machine
end

