-- ==== Sys2Proof/Laws/Kept.lean ====
section
/-!
SUPPORT. Laws/Kept.lean: what every command keeps: the queue of the commands that wait, the identity that the fuses give the package, and the
canonical form of the registers and the memory tiles. One relation, so that one lemma per operation says all three.
-/
namespace Sys2Proof.Machine

/-- From `s` to `t` the waiting commands and the package's identity are the same, and the canonical form is kept. -/
def Kept (s t : State) : Prop :=
  t.pending = s.pending ∧ t.fuses.identity = s.fuses.identity ∧ (s.wf = true → t.wf = true)

/-- The same of an outcome, where it is a next state. -/
def KeptR (s : State) (r : Res) : Prop := ∀ t, r = .next t → Kept s t

/-- The same of a state that need not be there. -/
def KeptO (s : State) (o : Option State) : Prop := ∀ t, o = some t → Kept s t

/-- The same of every state with these registers, memory tiles, fuses and waiting commands. -/
def KeptC (s : State) (regs : SMap Word32) (tiles : SMap Store) (fuses : Fuses) (pending : List Instr) : Prop :=
  ∀ t : State, t.regs = regs → t.memTiles = tiles → t.fuses = fuses → t.pending = pending → Kept s t

theorem Kept.refl (s : State) : Kept s s := ⟨rfl, rfl, id⟩

theorem Kept.trans {s t u : State} (h : Kept s t) (k : Kept t u) : Kept s u :=
  ⟨k.1.trans h.1, k.2.1.trans h.2.1, fun w => k.2.2 (h.2.2 w)⟩

theorem KeptR.next {s t : State} (h : Kept s t) : KeptR s (.next t) := fun _ e => by cases e; exact h
theorem KeptR.fault (s : State) (f : Fault) : KeptR s (.fault f) := fun _ e => by cases e
theorem KeptR.refused (s : State) (f : Refusal) : KeptR s (.refused f) := fun _ e => by cases e
theorem KeptO.some {s t : State} (h : Kept s t) : KeptO s (some t) := fun _ e => by cases e; exact h
theorem KeptO.none (s : State) : KeptO s none := fun _ e => by cases e

theorem KeptO.none_map {α : Type} (s : State) (f : α → State) : KeptO s (Option.map f Option.none) := fun _ e => by cases e

theorem KeptO.some_map {α : Type} {s : State} {f : α → State} {a : α} (h : Kept s (f a)) : KeptO s (Option.map f (Option.some a)) :=
  KeptO.some h

/-- A record update that leaves the four parts alone keeps what its base keeps. -/
theorem Kept.mk {s : State} {regs staged baseSwap clock run pendTable way units funs clusters portQ bankQ steerQ links contribs vas
    regions memTiles memHeld memArb egressArb stage image lanes retries ctxs mcs txLinks heldFlits windows sys rings posted shadow
    indirect spies fuses flash flashDead trust avs thermal pins tap frost hazardsHeld byteCmds fencePend fusePend frostArmed latchHi
    flashCmd freeNext out pending}
    (h : KeptC s regs memTiles fuses pending) :
    Kept s (State.mk regs staged baseSwap clock run pendTable way units funs clusters portQ bankQ steerQ links contribs vas regions
      memTiles memHeld memArb egressArb stage image lanes retries ctxs mcs txLinks heldFlits windows sys rings posted shadow indirect
      spies fuses flash flashDead trust avs thermal pins tap frost hazardsHeld byteCmds fencePend fusePend frostArmed latchHi flashCmd
      freeNext out pending) := h _ rfl rfl rfl rfl

theorem Kept.ite {s a b : State} {c : Prop} [Decidable c] (h : Kept s a) (k : Kept s b) : Kept s (if c then a else b) := by
  split
  · exact h
  · exact k

theorem KeptR.ite {s : State} {a b : Res} {c : Prop} [Decidable c] (h : KeptR s a) (k : KeptR s b) : KeptR s (if c then a else b) := by
  split
  · exact h
  · exact k

theorem KeptO.ite {s : State} {a b : Option State} {c : Prop} [Decidable c] (h : KeptO s a) (k : KeptO s b) :
    KeptO s (if c then a else b) := by
  split
  · exact h
  · exact k

theorem KeptO.map {α : Type} {s : State} {f : α → State} {o : Option α} (h : ∀ a, Kept s (f a)) : KeptO s (o.map f) := by
  cases o with
  | none => exact KeptO.none s
  | some a => exact KeptO.some (h a)

theorem kept_of_next {s t : State} {r : Res} (e : r = .next t) (h : KeptR s r) : Kept s t := h t e

theorem KeptC.fold {s x : State} (h : Kept s x) : KeptC s x.regs x.memTiles x.fuses x.pending := by
  intro t h1 h2 h3 h4
  obtain ⟨a, b, c⟩ := h
  refine ⟨h4.trans a, by rw [h3]; exact b, fun w => ?_⟩
  have e : regReset t = regReset x := by funext z; simp only [regReset, h3]
  have := c w
  simpa only [State.wf, h1, h2, e] using this

theorem kept_of_some {s t : State} {o : Option State} (e : o = some t) (h : KeptO s o) : Kept s t := h t e

theorem kept_of_snd {α : Type} {s t : State} {a : α} {p : α × State} (e : p = (a, t)) (h : Kept s p.2) : Kept s t := by
  cases e; exact h

theorem kept_of_fst {α : Type} {s t : State} {a : α} {p : State × α} (e : p = (t, a)) (h : Kept s p.1) : Kept s t := by
  cases e; exact h

theorem kept_of_snd2 {α β : Type} {s t : State} {a : α} {b : β} {p : α × β × State} (e : p = (a, b, t)) (h : Kept s p.2.2) : Kept s t := by
  cases e; exact h

theorem kept_of_optfst {α : Type} {s t : State} {a : α} {o : Option (State × α)} (e : o = some (t, a))
    (h : KeptO s (o.map (fun p => p.1))) : Kept s t := h t (by rw [e]; rfl)

theorem kept_of_optsnd {α : Type} {s t : State} {a : α} {o : Option (α × State)} (e : o = some (a, t))
    (h : KeptO s (o.map (fun p => p.2))) : Kept s t := h t (by rw [e]; rfl)

theorem kept_of_optsnd2 {α β : Type} {s t : State} {a : α} {b : β} {o : Option (α × β × State)} (e : o = some (a, b, t))
    (h : KeptO s (o.map (fun p => p.2.2))) : Kept s t := h t (by rw [e]; rfl)

/-- What an option gives, or else another state. -/
theorem Kept.getD {s x : State} {o : Option State} (h : KeptO s o) (hx : Kept s x) : Kept s (o.getD x) := by
  cases o with
  | none => exact hx
  | some t => exact h t rfl

/-- A fold keeps what each of its steps keeps. -/
theorem Kept.foldl {α : Type} {s x : State} {f : State → α → State} {l : List α} (hf : ∀ y a, Kept s y → Kept s (f y a)) (h : Kept s x) :
    Kept s (l.foldl f x) := by
  induction l generalizing x with
  | nil => exact h
  | cons a r ih => exact ih (hf x a h)

/-- A fold over a pair keeps what each of its steps keeps in the first part. -/
theorem Kept.foldl_fst {α β : Type} {s : State} {x : State × β} {f : State × β → α → State × β} {l : List α}
    (hf : ∀ y a, Kept s y.1 → Kept s (f y a).1) (h : Kept s x.1) : Kept s (l.foldl f x).1 := by
  induction l generalizing x with
  | nil => exact h
  | cons a r ih => exact ih (hf x a h)

/-- A fold keeps what each of its steps keeps, whatever that is. -/
theorem foldl_keeps {α β : Type} (p : β → Prop) {f : β → α → β} {l : List α} {x : β} (hf : ∀ y a, p y → p (f y a)) (h : p x) :
    p (l.foldl f x) := by
  induction l generalizing x with
  | nil => exact h
  | cons a r ih => exact ih (hf x a h)

/-- The reset value of a register is a matter of the identity alone. -/
theorem regReset_of_identity {s t : State} (h : t.fuses.identity = s.fuses.identity) : regReset t = regReset s := by
  have e : ∀ f : Fuses, f.variant = f.identity.variant ∧ f.grade13 = f.identity.grade13 ∧ f.vdefault = f.identity.vdefault := fun _ => ⟨rfl, rfl, rfl⟩
  funext z
  simp only [regReset]
  rw [(e t.fuses).1, (e t.fuses).2.1, (e t.fuses).2.2, (e s.fuses).1, (e s.fuses).2.1, (e s.fuses).2.2, h]

/-- Which registers are at their reset value is kept when a register is written through its operation. -/
theorem State.setRaw_kept {s0 s : State} (a : Nat) (v : Word32) (h : Kept s0 s) : Kept s0 (s.setRaw a v) := by
  refine h.trans ⟨rfl, rfl, fun w => ?_⟩
  simp only [State.wf, Bool.and_eq_true] at w ⊢
  refine ⟨⟨⟨risingKeys_mset _ _ _ _ w.1.1.1, ?_⟩, w.1.2⟩, w.2⟩
  exact all_mset _ _ _ _ _ w.1.1.2 (fun hv => decide_eq_true hv)

/-- The canonical form of a store is kept by its writes. -/
theorem Store.put_wf {m : Store} (i : Nat) (v : Word64) (h : m.wf = true) : (m.put i v).wf = true := by
  simp only [Store.wf, Bool.and_eq_true] at h ⊢
  exact ⟨⟨risingKeys_mset _ _ _ _ h.1.1, all_mset _ _ _ _ _ h.1.2 (fun hv => decide_eq_true hv)⟩, mwf_mset none m.ecc i none h.2⟩

theorem Store.putPoison_wf {m : Store} (i : Nat) (v : Word64) (h : m.wf = true) : (m.putPoison i v).wf = true := by
  simp only [Store.wf, Bool.and_eq_true] at h ⊢
  exact ⟨⟨risingKeys_mset _ _ _ _ h.1.1, all_mset _ _ _ _ _ h.1.2 (fun hv => decide_eq_true hv)⟩, mwf_mset none m.ecc i (some .uncorrectable) h.2⟩

/-- A memory tile of a state in canonical form is in canonical form. -/
theorem State.memTile_wf {s : State} (t : Nat) (h : s.wf = true) : (mget {} s.memTiles t).wf = true := by
  simp only [State.wf, Bool.and_eq_true] at h
  exact mget_of_all Store.wf {} s.memTiles t rfl h.2

/-- What leaves the package's identity and waiting commands alone, and gives canonical registers and tiles, keeps. -/
theorem Kept.of_wf {s x t : State} (h : Kept s x) (hp : t.pending = x.pending) (hf : t.fuses.identity = x.fuses.identity)
    (hw : x.wf = true → t.wf = true) : Kept s t := h.trans ⟨hp, hf, hw⟩

/-- Fuses of the same identity, with the registers and memory tiles as they are. -/
theorem Kept.fuses {s x t : State} (h : Kept s x) (hp : t.pending = x.pending) (hi : t.fuses.identity = x.fuses.identity)
    (hr : t.regs = x.regs) (hm : t.memTiles = x.memTiles) : Kept s t :=
  h.of_wf hp hi (fun w => by simpa only [State.wf, hr, hm, regReset_of_identity hi] using w)

theorem State.setFld_fuses (s : State) (f : Fld) (v : Nat) : (s.setFld f v).fuses = s.fuses := rfl

/-- Fewer registers differ from their reset value. -/
theorem wf_filter {s : State} (p : Nat × Word32 → Bool) (h : s.wf = true) : ({ s with regs := s.regs.filter p } : State).wf = true := by
  simp only [State.wf, Bool.and_eq_true] at h ⊢
  refine ⟨⟨⟨risingKeys_filter _ _ h.1.1.1, ?_⟩, h.1.2⟩, h.2⟩
  rw [List.all_eq_true] at h ⊢
  exact fun e he => h.1.1.2 e (List.mem_filter.mp he).1

theorem Kept.filter {s x : State} (p : Nat × Word32 → Bool) (h : Kept s x) : Kept s { x with regs := x.regs.filter p } :=
  h.of_wf rfl rfl (fun w => wf_filter p w)

theorem risingKeys_map {α β : Type} (f : Nat × α → Nat × β) (hf : ∀ e, (f e).1 = e.1) (m : SMap α) (h : risingKeys m = true) :
    risingKeys (m.map f) = true := by
  induction m with
  | nil => rfl
  | cons e r ih =>
    have hc := (risingKeys_cons_iff e r).mp h
    refine (risingKeys_cons_iff _ _).mpr ⟨fun x hx => ?_, ih hc.2⟩
    obtain ⟨y, hy, rfl⟩ := List.mem_map.mp hx
    rw [hf, hf]
    exact hc.1 y hy

end Sys2Proof.Machine
end

