-- ==== Sys2Proof/Laws/KeptOps.lean ====
section
/-!
SUPPORT. Laws/KeptOps.lean: one lemma per operation: it keeps the waiting commands, the identity and the canonical form (Laws/Kept.lean):
the register, queue, link, agent and bus operations.
-/
set_option linter.unusedVariables false
namespace Sys2Proof.Machine

theorem State.setFld_kept {s0 : State} {s : State} (f : Fld) (v : Nat) (hs : Kept s0 s) : Kept s0 (State.setFld s f v) := by
  unfold State.setFld; apply State.setRaw_kept; with_reducible assumption

theorem State.bump_kept {s0 : State} {s : State} (f : Fld) (n : Nat) (hs : Kept s0 s) : Kept s0 (State.bump s f n) := by
  unfold State.bump; apply State.setFld_kept; with_reducible assumption

theorem State.mark_kept {s0 : State} {s : State} (f : Fld) (hs : Kept s0 s) : Kept s0 (State.mark s f) := by
  unfold State.mark; apply State.setFld_kept; with_reducible assumption

theorem State.raise_kept {s0 : State} {s : State} (f : Fld) (v : Nat) (hs : Kept s0 s) : Kept s0 (State.raise s f v) := by
  unfold State.raise; split; apply State.setFld_kept; with_reducible assumption; with_reducible assumption

theorem State.lower_kept {s0 : State} {s : State} (f : Fld) (v : Nat) (hs : Kept s0 s) : Kept s0 (State.lower s f v) := by
  unfold State.lower; split; apply State.setFld_kept; with_reducible assumption; with_reducible assumption

theorem State.latch_kept {s0 : State} {s : State} (a : Nat) (v : Word32) (hs : Kept s0 s) : Kept s0 (State.latch s a v) := by
  unfold State.latch; apply Kept.mk; apply KeptC.fold; with_reducible assumption

theorem State.drawn_kept {s0 : State} {s : State} (hs : Kept s0 s) : Kept s0 (State.drawn s) := by
  unfold State.drawn; apply Kept.mk; apply KeptC.fold; with_reducible assumption

theorem State.send_kept {s0 : State} {s : State} (o : Out) (hs : Kept s0 s) : Kept s0 (State.send s o) := by
  unfold State.send; apply Kept.mk; apply KeptC.fold; with_reducible assumption

theorem State.setUnit_kept {s0 : State} {s : State} (g : Nat) (u : DotUnit) (hs : Kept s0 s) : Kept s0 (State.setUnit s g u) := by
  unfold State.setUnit; apply Kept.mk; apply KeptC.fold; with_reducible assumption

theorem State.setFun_kept {s0 : State} {s : State} (f : Nat) (u : FunUnit) (hs : Kept s0 s) : Kept s0 (State.setFun s f u) := by
  unfold State.setFun; apply Kept.mk; apply KeptC.fold; with_reducible assumption

theorem State.setCluster_kept {s0 : State} {s : State} (k : Nat) (c : Cluster) (hs : Kept s0 s) : Kept s0 (State.setCluster s k c) := by
  unfold State.setCluster; apply Kept.mk; apply KeptC.fold; with_reducible assumption

theorem State.setRegion_kept {s0 : State} {s : State} (r : Nat) (v : Region) (hs : Kept s0 s) : Kept s0 (State.setRegion s r v) := by
  unfold State.setRegion; apply Kept.mk; apply KeptC.fold; with_reducible assumption

theorem State.setWay_kept {s0 : State} {s : State} (n : Nat) (v : WayLane) (hs : Kept s0 s) : Kept s0 (State.setWay s n v) := by
  unfold State.setWay; apply Kept.mk; apply KeptC.fold; with_reducible assumption

theorem State.setVa_kept {s0 : State} {s : State} (v : Nat) (a : Assembler) (hs : Kept s0 s) : Kept s0 (State.setVa s v a) := by
  unfold State.setVa; apply Kept.mk; apply KeptC.fold; with_reducible assumption

theorem State.setCtx_kept {s0 : State} {s : State} (x : Nat) (c : CtxSt) (hs : Kept s0 s) : Kept s0 (State.setCtx s x c) := by
  unfold State.setCtx; apply Kept.mk; apply KeptC.fold; with_reducible assumption

theorem State.setQueue_kept {s0 : State} {s : State} (q : QueueId) (v : Queue) (hs : Kept s0 s) : Kept s0 (State.setQueue s q v) := by
  unfold State.setQueue; split; apply Kept.mk; apply KeptC.fold; with_reducible assumption; apply Kept.mk; apply KeptC.fold
  with_reducible assumption; apply Kept.mk; apply KeptC.fold; with_reducible assumption

theorem State.at_kept {s0 : State} {s : State} (t : Nat) (hs : Kept s0 s) : Kept s0 (State.at s t) := by
  unfold State.at; dsimp only; apply Kept.mk; apply KeptC.fold; with_reducible assumption

theorem withAlert_kept {s0 : State} {before : State} {s : State} (hs : Kept s0 before) (hs2 : Kept s0 s) :
    Kept s0 (withAlert before s) := by
  unfold withAlert; dsimp only; split; apply Kept.mk; apply KeptC.fold; with_reducible assumption; with_reducible assumption

theorem hazard_kept {s0 : State} {s : State} (kind : Nat) (who : Who) (object : Nat) (t : Nat) (hs : Kept s0 s) :
    Kept s0 (hazard s kind who object t) := by
  unfold hazard; dsimp only; split; split; apply State.bump_kept; with_reducible assumption; apply State.setFld_kept
  apply State.setFld_kept; apply State.setFld_kept; apply State.setFld_kept; apply State.setFld_kept; apply State.setFld_kept
  apply State.mark_kept; apply State.setFld_kept; apply State.bump_kept; with_reducible assumption; with_reducible assumption

theorem giveCredits_kept {s0 : State} {s : State} (q : QueueId) (n : Nat) (t : Nat) (hs : Kept s0 s) :
    Kept s0 (giveCredits s q n t) := by
  unfold giveCredits; dsimp only; split; apply State.setQueue_kept; with_reducible assumption; with_reducible assumption

theorem noteOcc_kept {s0 : State} {s : State} (q : QueueId) (t : Nat) (hs : Kept s0 s) : Kept s0 (noteOcc s q t) := by
  unfold noteOcc; dsimp only; split; split; apply State.raise_kept; apply State.setQueue_kept; with_reducible assumption
  with_reducible assumption; with_reducible assumption

theorem noteOver_kept {s0 : State} {s : State} (q : QueueId) (t : Nat) (hs : Kept s0 s) : Kept s0 (noteOver s q t) := by
  unfold noteOver; dsimp only; split; apply Kept.ite; apply hazard_kept; apply State.bump_kept; apply State.mark_kept
  apply State.setQueue_kept; with_reducible assumption; with_reducible assumption; with_reducible assumption

theorem noteQueue_kept {s0 : State} {s : State} (q : QueueId) (t : Nat) (hs : Kept s0 s) : Kept s0 (noteQueue s q t) := by
  unfold noteQueue; apply noteOver_kept; apply noteOcc_kept; with_reducible assumption

theorem noteQueues_kept {s0 : State} {s : State} (p : QueueId → Bool) (t : Nat) (hs : Kept s0 s) : Kept s0 (noteQueues s p t) := by
  unfold noteQueues; apply Kept.foldl; intros; apply noteQueue_kept; with_reducible assumption; with_reducible assumption

theorem chargeQueue_kept {s0 : State} {s : State} (q : QueueId) (t : Nat) (hs : Kept s0 s) : Kept s0 (chargeQueue s q t) := by
  unfold chargeQueue; dsimp only; split; apply State.setQueue_kept; apply State.bump_kept; split; apply State.setQueue_kept
  apply State.bump_kept; with_reducible assumption; with_reducible assumption; split; apply State.setQueue_kept; apply State.bump_kept
  with_reducible assumption; with_reducible assumption

theorem noteWait_kept {s0 : State} {s : State} (q : QueueId) (t : Nat) (hs : Kept s0 s) : Kept s0 (noteWait s q t) := by
  unfold noteWait; dsimp only; apply Kept.ite; apply State.setQueue_kept; with_reducible assumption; with_reducible assumption

theorem endWait_kept {s0 : State} {s : State} (q : QueueId) (t : Nat) (hs : Kept s0 s) : Kept s0 (endWait s q t) := by
  unfold endWait; dsimp only; apply State.setQueue_kept; apply chargeQueue_kept; with_reducible assumption

theorem writeQueue_kept {s0 : State} {s9 : State} (q : QueueId) (b : Beat) (who : Who) (t : Nat) (hs : Kept s0 s9) :
    Kept s0 (writeQueue s9 q b who t) := by
  unfold writeQueue; dsimp only; apply Kept.ite; apply giveCredits_kept; apply State.bump_kept; apply State.setQueue_kept
  apply noteQueue_kept; with_reducible assumption; apply Kept.ite; apply State.setQueue_kept; apply noteQueue_kept
  with_reducible assumption; apply State.setQueue_kept; apply noteQueue_kept; with_reducible assumption

theorem spendCredit_kept {s0 : State} {s : State} (q : QueueId) (hs : Kept s0 s) : Kept s0 (spendCredit s q) := by
  unfold spendCredit; dsimp only; split; apply State.setQueue_kept; with_reducible assumption; with_reducible assumption

theorem returnCredit_kept {s0 : State} {s : State} (q : QueueId) (hs : Kept s0 s) : Kept s0 (returnCredit s q) := by
  unfold returnCredit; dsimp only; split; with_reducible assumption; split; apply State.setQueue_kept; apply endWait_kept
  apply State.setQueue_kept; apply State.at_kept; with_reducible assumption; apply State.setCluster_kept; apply State.setQueue_kept
  apply endWait_kept; apply State.setQueue_kept; apply State.at_kept; with_reducible assumption

theorem takeOver_kept {s0 : State} {s : State} (q : QueueId) (t : Nat) (hs : Kept s0 s) : Kept s0 (takeOver s q t) := by
  unfold takeOver; dsimp only; split; apply Kept.ite; apply writeQueue_kept; apply State.setQueue_kept; with_reducible assumption
  with_reducible assumption; with_reducible assumption

theorem underRead_kept {s0 : State} {s : State} (q : QueueId) (who : Who) (t : Nat) (hs : Kept s0 s) :
    Kept s0 (underRead s q who t) := by
  unfold underRead; apply hazard_kept; apply State.bump_kept; apply State.mark_kept; with_reducible assumption

theorem lostRead_kept {s0 : State} {s : State} (q : QueueId) (who : Who) (t : Nat) (hs : Kept s0 s) : Kept s0 (lostRead s q who t) := by
  unfold lostRead; apply underRead_kept; apply hazard_kept; apply State.bump_kept; with_reducible assumption

theorem readQueue_kept {s0 : State} {s9 : State} (q : QueueId) (pop : Bool) (who : Who) (t : Nat) (hs : Kept s0 s9) :
    Kept s0 (readQueue s9 q pop who t).2.2 := by
  unfold readQueue; dsimp only; split; dsimp only; apply lostRead_kept; apply noteQueue_kept; with_reducible assumption; split; split
  dsimp only; apply takeOver_kept; apply giveCredits_kept; apply State.setQueue_kept; apply noteQueue_kept; with_reducible assumption
  dsimp only; apply State.setQueue_kept; apply noteQueue_kept; with_reducible assumption; dsimp only; apply underRead_kept
  apply State.setQueue_kept; apply noteQueue_kept; with_reducible assumption

theorem dropRest_kept {s0 : State} {s9 : State} (q : QueueId) (t : Nat) (hs : Kept s0 s9) : Kept s0 (dropRest s9 q t) := by
  unfold dropRest; dsimp only; apply Kept.ite; apply takeOver_kept; apply giveCredits_kept; apply State.bump_kept; apply State.setQueue_kept
  apply noteOver_kept; apply noteOcc_kept; with_reducible assumption; apply noteOver_kept; apply noteOcc_kept; with_reducible assumption

theorem purgeQueue_kept {s0 : State} {s : State} (q : QueueId) (hs : Kept s0 s) : Kept s0 (purgeQueue s q) := by
  unfold purgeQueue; apply State.setQueue_kept; apply chargeQueue_kept; apply noteQueue_kept; with_reducible assumption

theorem State.setLane_kept {s0 : State} {s : State} (site : Nat) (lane : Nat) (tx : Bool) (v : LaneSt) (hs : Kept s0 s) :
    Kept s0 (State.setLane s site lane tx v) := by
  unfold State.setLane; apply Kept.mk; apply KeptC.fold; with_reducible assumption

theorem State.setTxLink_kept {s0 : State} {s : State} (site : Nat) (k : Nat) (v : TxLink) (hs : Kept s0 s) :
    Kept s0 (State.setTxLink s site k v) := by
  unfold State.setTxLink; apply Kept.mk; apply KeptC.fold; with_reducible assumption

theorem setBuf_kept {s0 : State} {s : State} (site : Nat) (k : Nat) (t : TileBuf) (l : List Beat) (hs : Kept s0 s) :
    Kept s0 (setBuf s site k t l) := by
  unfold setBuf; dsimp only; split; apply State.setLane_kept; with_reducible assumption; apply State.setTxLink_kept
  with_reducible assumption; apply State.setTxLink_kept; with_reducible assumption

theorem tileSend_kept {s0 : State} {s : State} (g : Nat) (site : Nat) (k : Nat) (b : Beat) (hs : Kept s0 s) :
    Kept s0 (tileSend s g site k b) := by
  unfold tileSend; split; apply State.bump_kept; with_reducible assumption; apply Kept.ite; apply setBuf_kept; with_reducible assumption
  split; apply State.bump_kept; apply State.mark_kept; with_reducible assumption; apply State.bump_kept; with_reducible assumption

theorem sendArrival_kept {s0 : State} {s : State} (k : Nat) (q : QueueId) (due : Nat) (writer : Nat) (b : Beat) (hs : Kept s0 s) :
    Kept s0 (sendArrival s k q due writer b) := by
  unfold sendArrival; dsimp only; apply State.setCluster_kept; with_reducible assumption

theorem launch_kept {s0 : State} {s : State} (g : Nat) (o : Nat) (b : Beat) (epoch : Bool) (t : Nat) (hs : Kept s0 s) :
    Kept s0 (launch s g o b epoch t) := by
  unfold launch; split; apply sendArrival_kept; with_reducible assumption; split; apply Kept.mk; apply KeptC.fold; with_reducible assumption
  apply tileSend_kept; with_reducible assumption

theorem relaunch_kept {s0 : State} {s : State} (g : Nat) (o : Nat) (b : Beat) (epoch : Bool) (took : Bool) (t : Nat) (hs : Kept s0 s) :
    Kept s0 (relaunch s g o b epoch took t) := by
  unfold relaunch; dsimp only; split; apply launch_kept; apply State.setCluster_kept; with_reducible assumption; apply launch_kept
  apply Kept.mk; apply KeptC.fold; with_reducible assumption; split; apply setBuf_kept; with_reducible assumption; with_reducible assumption

theorem sendBeat_kept {s0 : State} {s : State} (g : Nat) (o : Nat) (b : Beat) (epoch : Bool) (rank : Nat) (t : Nat) (pc : Nat) (hs : Kept s0 s) :
    Kept s0 (sendBeat s g o b epoch rank t pc) := by
  unfold sendBeat; dsimp only; split; apply launch_kept; apply State.setUnit_kept; with_reducible assumption; apply Kept.ite
  apply relaunch_kept; apply State.setUnit_kept; apply hazard_kept; apply State.bump_kept; with_reducible assumption; apply hazard_kept
  apply State.bump_kept; with_reducible assumption

theorem deliver_kept {s0 : State} {s : State} (l : LinkBeat) (hs : Kept s0 s) : Kept s0 (deliver s l) := by
  unfold deliver; dsimp only; apply Kept.ite; with_reducible assumption; apply Kept.ite; apply State.bump_kept; with_reducible assumption
  apply Kept.ite; apply sendBeat_kept; with_reducible assumption; apply Kept.ite; apply writeQueue_kept; with_reducible assumption
  apply Kept.ite; apply State.bump_kept; with_reducible assumption; apply writeQueue_kept; with_reducible assumption

theorem settleBeats_kept {s0 : State} {s : State} (p : LinkBeat → Bool) (a2 : Nat) (hs : Kept s0 s) : Kept s0 (settleBeats s p a2) := by
  induction a2 generalizing s p with | zero => ?_ | succ n9 ih => ?_
  all_goals unfold settleBeats
  all_goals try dsimp only
  with_reducible assumption; split; with_reducible assumption; apply ih; apply deliver_kept; apply Kept.mk; apply KeptC.fold
  with_reducible assumption

theorem settlePorts_kept {s0 : State} {s : State} (g : Nat) (ps : List Nat) (bound : Nat) (hs : Kept s0 s) :
    Kept s0 (settlePorts s g ps bound) := by
  unfold settlePorts; apply settleBeats_kept; with_reducible assumption

theorem settlePass_kept {s0 : State} {s : State} (a1 : Nat) (a2 : Nat) (a3 : Nat) (a4 : Nat) (hs : Kept s0 s) :
    Kept s0 (settlePass s a1 a2 a3 a4) := by
  induction a1 generalizing s a2 a3 a4 with | zero => ?_ | succ n9 ih => ?_
  all_goals unfold settlePass
  all_goals try dsimp only
  with_reducible assumption; split; with_reducible assumption; apply Kept.ite; with_reducible assumption; apply settlePorts_kept
  apply Kept.foldl; intros; split; apply ih; with_reducible assumption; with_reducible assumption; with_reducible assumption

theorem settlePort_kept {s0 : State} {s : State} (g : Nat) (p : Nat) (bound : Nat) (hs : Kept s0 s) :
    Kept s0 (settlePort s g p bound) := by
  unfold settlePort; dsimp only; apply settlePorts_kept; split; apply settlePass_kept; with_reducible assumption; with_reducible assumption

theorem settleLinks_kept {s0 : State} {s : State} (bound : Nat) (fuel : Nat) (hs : Kept s0 s) : Kept s0 (settleLinks s bound fuel) := by
  unfold settleLinks; apply settleBeats_kept; with_reducible assumption

theorem noteHead_kept {s0 : State} {s : State} (a : QueueArrival) (wasEmpty : Bool) (hs : Kept s0 s) :
    Kept s0 (noteHead s a wasEmpty) := by
  unfold noteHead; dsimp only; split; split; apply State.setCluster_kept; with_reducible assumption; with_reducible assumption
  with_reducible assumption

theorem landOne_kept {s0 : State} (p : State × List (QueueId × Nat)) (a : QueueArrival) (hs1 : Kept s0 p.1) :
    Kept s0 (landOne p a).1 := by
  unfold landOne; dsimp only; split; dsimp only; apply hazard_kept; apply State.bump_kept; with_reducible assumption; dsimp only
  apply noteHead_kept; apply writeQueue_kept; with_reducible assumption

theorem settleCluster_kept {s0 : State} {s : State} (k : Nat) (bound : Nat) (hs : Kept s0 s) : Kept s0 (settleCluster s k bound) := by
  unfold settleCluster; dsimp only; apply Kept.foldl_fst; intros; apply landOne_kept; with_reducible assumption; dsimp only
  apply State.setCluster_kept; with_reducible assumption

theorem settleQueue_kept {s0 : State} {s : State} (q : QueueId) (bound : Nat) (hs : Kept s0 s) : Kept s0 (settleQueue s q bound) := by
  unfold settleQueue; split; apply settlePort_kept; with_reducible assumption; apply settleCluster_kept; with_reducible assumption

theorem readAt_kept {s0 : State} {s : State} (q : QueueId) (pop : Bool) (who : Who) (t : Nat) (hs : Kept s0 s) :
    Kept s0 (readAt s q pop who t).2.2 := by
  unfold readAt; apply readQueue_kept; apply settleQueue_kept; with_reducible assumption

theorem readRanked_kept {s0 : State} {s : State} (q : QueueId) (behind : Bool) (who : Who) (t : Nat) (hs : Kept s0 s) :
    Kept s0 (readRanked s q behind who t).2.2 := by
  unfold readRanked; dsimp only; split; dsimp only; apply lostRead_kept; apply noteQueue_kept; apply settleQueue_kept
  with_reducible assumption; apply readAt_kept; with_reducible assumption

theorem wordSend_kept {s0 : State} {s9 : State} (g : Nat) (o : Nat) (b : Beat) (t : Nat) (pc : Nat) (hs : Kept s0 s9) :
    Kept s0 (wordSend s9 g o b t pc) := by
  unfold wordSend; dsimp only; apply sendBeat_kept; split; apply spendCredit_kept; apply settlePass_kept; with_reducible assumption
  apply settlePass_kept; with_reducible assumption

theorem execBeatArrival_kept {s0 : State} (u : UnitIx) (p : Port) {s : State} (hs : Kept s0 s) : KeptR s0 (execBeatArrival u p s) := by
  unfold execBeatArrival; dsimp only; split; apply KeptR.next; with_reducible assumption; apply KeptR.ite; apply KeptR.next
  apply settlePass_kept; apply State.at_kept; with_reducible assumption; apply KeptR.next; apply deliver_kept; apply Kept.mk
  apply KeptC.fold; apply State.at_kept; with_reducible assumption

theorem State.setPlay_kept {s0 : State} {s : State} (a : Agent) (p : Play) (hs : Kept s0 s) : Kept s0 (State.setPlay s a p) := by
  unfold State.setPlay; dsimp only; split; apply State.setUnit_kept; with_reducible assumption; apply State.setFun_kept
  with_reducible assumption

theorem settleUnit_kept {s0 : State} {s : State} (g : Nat) (bound : Nat) (hs : Kept s0 s) : Kept s0 (settleUnit s g bound) := by
  unfold settleUnit; dsimp only; split; apply State.bump_kept; apply State.setUnit_kept; with_reducible assumption
  with_reducible assumption

theorem addFlight_kept {s0 : State} {s : State} (a : Agent) (g : Nat) (f : Flight) (hs : Kept s0 s) : Kept s0 (addFlight s a g f) := by
  unfold addFlight; dsimp only; split; apply hazard_kept; apply State.setUnit_kept; with_reducible assumption; apply State.setUnit_kept
  with_reducible assumption

theorem enterBuffer_kept {s0 : State} {s : State} (f : Nat) (r : BusRow) (hs : Kept s0 s) : Kept s0 (enterBuffer s f r) := by
  unfold enterBuffer; dsimp only; split; apply State.setFun_kept; with_reducible assumption; apply hazard_kept; apply State.bump_kept
  with_reducible assumption

theorem passRow_kept {s0 : State} (k : Nat) (p : State × List BusRow) (r : BusRow) (hs2 : Kept s0 p.1) : Kept s0 (passRow k p r).1 := by
  unfold passRow; split; dsimp only; apply enterBuffer_kept; with_reducible assumption; split; dsimp only; with_reducible assumption
  dsimp only; apply State.bump_kept; with_reducible assumption

theorem settleBus_kept {s0 : State} {s : State} (k : Nat) (bound : Nat) (hs : Kept s0 s) : Kept s0 (settleBus s k bound) := by
  unfold settleBus; dsimp only; apply State.setCluster_kept; apply Kept.foldl_fst; intros; apply passRow_kept; with_reducible assumption
  dsimp only; with_reducible assumption

theorem settleBusAt_kept {s0 : State} {s : State} (k : Nat) (c : Nat) (dests : List Nat) (hs : Kept s0 s) :
    Kept s0 (settleBusAt s k c dests) := by
  unfold settleBusAt; dsimp only; apply Kept.foldl; intros; apply enterBuffer_kept; with_reducible assumption; apply State.setCluster_kept
  apply settleBus_kept; with_reducible assumption

theorem placeRow_kept {s0 : State} {s : State} (k : Nat) (r : BusRow) (hs : Kept s0 s) : Kept s0 (placeRow s k r) := by
  unfold placeRow; dsimp only; split; apply State.setCluster_kept; with_reducible assumption; split; apply State.setCluster_kept
  with_reducible assumption; apply hazard_kept; apply State.bump_kept; apply State.setCluster_kept; with_reducible assumption

end Sys2Proof.Machine
end

