-- ==== Sys2Proof/Laws/KeptArray.lean ====
section
/-!
SUPPORT. Laws/KeptArray.lean: one lemma per operation: it keeps the waiting commands, the identity and the canonical form (Laws/Kept.lean):
what the arithmetic, function and steering units do, commits, playing and timing.
-/
set_option linter.unusedVariables false
namespace Sys2Proof.Machine

theorem pushBeat_kept {s0 : State} (f : Nat) (o : FunOp) {s9 : State} (p : Nat × Beat) (hs : Kept s0 s9) :
    Kept s0 (pushBeat f o s9 p) := by
  unfold pushBeat; dsimp only; split; with_reducible assumption; apply Kept.ite; apply hazard_kept; apply State.bump_kept; apply Kept.ite
  apply State.bump_kept; with_reducible assumption; with_reducible assumption; apply Kept.ite; apply sendArrival_kept
  apply spendCredit_kept; apply State.setFun_kept; apply Kept.ite; apply State.bump_kept; with_reducible assumption
  with_reducible assumption; apply noteWait_kept; apply State.setQueue_kept; apply State.setFun_kept; apply Kept.ite; apply State.bump_kept
  with_reducible assumption; with_reducible assumption

theorem streamNow_kept {s0 : State} {s : State} (f : Nat) (o : FunOp) (flush : Bool) (hs : Kept s0 s) :
    Kept s0 (streamNow s f o flush) := by
  unfold streamNow; dsimp only; apply State.setFun_kept; apply Kept.foldl; intros; apply pushBeat_kept; with_reducible assumption
  with_reducible assumption

theorem contribute_kept {s0 : State} {s : State} (f : Nat) (o : FunOp) (out : FOut) (hs : Kept s0 s) :
    Kept s0 (contribute s f o out) := by
  unfold contribute; dsimp only; split; with_reducible assumption; apply Kept.mk; apply KeptC.fold; with_reducible assumption

theorem placeReduce_kept {s0 : State} {s : State} (f : Nat) (o : FunOp) (out : FOut) (hs : Kept s0 s) :
    Kept s0 (placeReduce s f o out) := by
  unfold placeReduce; dsimp only; split; with_reducible assumption; apply placeRow_kept; apply Kept.ite; apply State.bump_kept
  with_reducible assumption; with_reducible assumption

theorem finishOp_kept {s0 : State} {s : State} (f : Nat) (o : FunOp) (hs : Kept s0 s) : Kept s0 (finishOp s f o) := by
  unfold finishOp; dsimp only; apply Kept.mk; apply KeptC.fold; apply State.setFun_kept; apply State.bump_kept; apply State.bump_kept
  apply State.bump_kept; apply placeReduce_kept; apply contribute_kept; split; with_reducible assumption; apply Kept.foldl; intros
  apply pushBeat_kept; with_reducible assumption; with_reducible assumption

theorem readySource_kept {s0 : State} {s : State} (f : Nat) (src : Src) (c : Nat) (hs : Kept s0 s) :
    Kept s0 (readySource s f src c) := by
  unfold readySource; dsimp only; split; apply settleQueue_kept; with_reducible assumption; with_reducible assumption; apply Kept.ite
  apply settleBusAt_kept; apply settleBus_kept; with_reducible assumption; apply settleBus_kept; with_reducible assumption

theorem takeItem_kept {s0 : State} {s : State} (f : Nat) (src : Src) (c : Nat) (hs : Kept s0 s) : Kept s0 (takeItem s f src c).2 := by
  unfold takeItem; dsimp only; split; dsimp only; apply Kept.ite; apply readRanked_kept; with_reducible assumption; apply State.bump_kept
  apply readRanked_kept; with_reducible assumption; dsimp only; apply State.drawn_kept; with_reducible assumption; split; dsimp only
  apply State.drawn_kept; split; dsimp only; apply settleBusAt_kept; apply State.setFun_kept; with_reducible assumption; dsimp only
  apply hazard_kept; apply State.bump_kept; with_reducible assumption; dsimp only; split; dsimp only; apply settleBusAt_kept
  apply State.setFun_kept; with_reducible assumption; dsimp only; apply hazard_kept; apply State.bump_kept; with_reducible assumption

theorem takeStep_kept {s0 : State} {s : State} (f : Nat) (o : FunOp) (t : Take) (c : Nat) (hs : Kept s0 s) :
    Kept s0 (takeStep s f o t c) := by
  unfold takeStep; dsimp only; apply Kept.ite; apply State.setFun_kept; apply hazard_kept; apply Kept.ite; apply streamNow_kept
  apply readySource_kept; with_reducible assumption; apply readySource_kept; with_reducible assumption; apply Kept.ite; apply Kept.ite
  apply streamNow_kept; apply State.setFun_kept; apply takeItem_kept; apply readySource_kept; with_reducible assumption
  apply State.setFun_kept; apply takeItem_kept; apply readySource_kept; with_reducible assumption; split; apply finishOp_kept
  apply Kept.ite; apply streamNow_kept; apply State.setFun_kept; apply takeItem_kept; apply readySource_kept; with_reducible assumption
  apply State.setFun_kept; apply takeItem_kept; apply readySource_kept; with_reducible assumption; apply Kept.ite; apply streamNow_kept
  apply State.setFun_kept; apply takeItem_kept; apply readySource_kept; with_reducible assumption; apply State.setFun_kept
  apply takeItem_kept; apply readySource_kept; with_reducible assumption

theorem runTakes_kept {s0 : State} {s : State} (k : Nat) (bound : Nat) (a3 : Nat) (hs : Kept s0 s) :
    Kept s0 (runTakes s k bound a3) := by
  induction a3 generalizing s k bound with | zero => ?_ | succ n9 ih => ?_
  all_goals unfold runTakes
  all_goals try dsimp only
  with_reducible assumption; split; with_reducible assumption; apply Kept.ite; apply ih; apply takeStep_kept; with_reducible assumption
  with_reducible assumption; apply Kept.ite; apply ih; apply takeStep_kept; with_reducible assumption; with_reducible assumption
  apply Kept.ite; apply Kept.ite; apply ih; apply takeStep_kept; with_reducible assumption; with_reducible assumption; apply Kept.ite
  apply ih; apply takeStep_kept; with_reducible assumption; with_reducible assumption

theorem settleFuns_kept {s0 : State} {s : State} (k : Nat) (bound : Nat) (hs : Kept s0 s) : Kept s0 (settleFuns s k bound) := by
  unfold settleFuns; apply runTakes_kept; with_reducible assumption

theorem settleAll_kept {s0 : State} {s : State} (k : Nat) (bound : Nat) (hs : Kept s0 s) : Kept s0 (settleAll s k bound) := by
  unfold settleAll; apply settleBusAt_kept; apply settleCluster_kept; apply settleFuns_kept; with_reducible assumption

theorem State.setSteer_kept {s0 : State} {s : State} (k : Nat) (v : Steer) (hs : Kept s0 s) : Kept s0 (State.setSteer s k v) := by
  unfold State.setSteer; dsimp only; apply State.setCluster_kept; with_reducible assumption

theorem steerReady_kept {s0 : State} {s : State} (k : Nat) (t : Nat) (hs : Kept s0 s) : Kept s0 (steerReady s k t) := by
  unfold steerReady; apply settleCluster_kept; apply settleFuns_kept; with_reducible assumption

theorem takeMap_kept {s0 : State} {s : State} (k : Nat) (m0 : Word32) (m1 : Word32) (hs : Kept s0 s) : Kept s0 (takeMap s k m0 m1) := by
  unfold takeMap; dsimp only; apply State.setSteer_kept; apply State.setRaw_kept; apply State.setRaw_kept; with_reducible assumption

theorem commitMap_kept {s0 : State} {s : State} (k : Nat) (m0 : Word32) (m1 : Word32) (hs : Kept s0 s) :
    Kept s0 (commitMap s k m0 m1) := by
  unfold commitMap; dsimp only; split; apply takeMap_kept; with_reducible assumption; apply State.setSteer_kept; with_reducible assumption

theorem execTokenLoad_kept {s0 : State} (k : ClusterIx) {s : State} (hs : Kept s0 s) : KeptR s0 (execTokenLoad k s) := by
  unfold execTokenLoad; dsimp only; apply KeptR.ite; apply KeptR.ite; apply KeptR.next; apply State.setSteer_kept; apply readRanked_kept
  apply steerReady_kept; apply State.at_kept; with_reducible assumption; apply KeptR.next; apply readRanked_kept; apply steerReady_kept
  apply State.at_kept; with_reducible assumption; apply KeptR.next; with_reducible assumption

theorem tokenRow_kept {s0 : State} {s : State} (k : Nat) (i : Nat) (tok : Beat) (out : Option Nat) (hs : Kept s0 s) :
    Kept s0 (tokenRow s k i tok out) := by
  unfold tokenRow; dsimp only; apply State.setSteer_kept; split; apply State.bump_kept; with_reducible assumption; with_reducible assumption

theorem startMerge_kept {s0 : State} {s : State} (k : Nat) (hs : Kept s0 s) : Kept s0 (startMerge s k) := by
  unfold startMerge; dsimp only; split; with_reducible assumption; apply State.setSteer_kept; with_reducible assumption

theorem startSplit_kept {s0 : State} {s : State} (k : Nat) (hs : Kept s0 s) : Kept s0 (startSplit s k) := by
  unfold startSplit; dsimp only; split; apply State.setSteer_kept; with_reducible assumption; with_reducible assumption

theorem startSelect_kept {s0 : State} {s : State} (k : Nat) (tok : Beat) (hs : Kept s0 s) : Kept s0 (startSelect s k tok) := by
  unfold startSelect; dsimp only; split; apply Kept.foldl; intros; apply tokenRow_kept; with_reducible assumption; split
  apply State.bump_kept; with_reducible assumption; with_reducible assumption; with_reducible assumption

theorem startRoute_kept {s0 : State} {s : State} (k : Nat) (tok : Beat) (hs : Kept s0 s) : Kept s0 (startRoute s k tok) := by
  unfold startRoute; split; split; apply tokenRow_kept; with_reducible assumption; apply tokenRow_kept; apply State.bump_kept
  with_reducible assumption; with_reducible assumption

theorem startMask_kept {s0 : State} {s : State} (k : Nat) (tok : Beat) (hs : Kept s0 s) : Kept s0 (startMask s k tok) := by
  unfold startMask; split; apply tokenRow_kept; with_reducible assumption; with_reducible assumption

theorem startPack_kept {s0 : State} {s : State} (k : Nat) (tok : Beat) (hs : Kept s0 s) : Kept s0 (startPack s k tok) := by
  unfold startPack; split; apply tokenRow_kept; with_reducible assumption; with_reducible assumption

theorem startUnpack_kept {s0 : State} {s : State} (k : Nat) (tok : Beat) (hs : Kept s0 s) : Kept s0 (startUnpack s k tok) := by
  unfold startUnpack; dsimp only; split; split; apply tokenRow_kept; with_reducible assumption; with_reducible assumption
  apply State.setSteer_kept; with_reducible assumption

theorem endRow_kept {s0 : State} {s : State} (k : Nat) (forwarded : Bool) (t : Nat) (hs : Kept s0 s) :
    Kept s0 (endRow s k forwarded t) := by
  unfold endRow; dsimp only; split; apply takeMap_kept; apply State.setSteer_kept; split; apply sendArrival_kept; apply spendCredit_kept
  apply State.drawn_kept; with_reducible assumption; with_reducible assumption; apply State.setSteer_kept; split; apply sendArrival_kept
  apply spendCredit_kept; apply State.drawn_kept; with_reducible assumption; with_reducible assumption

theorem chargeSteer_kept {s0 : State} {s : State} (k : Nat) (t : Nat) (hs : Kept s0 s) : Kept s0 (chargeSteer s k t) := by
  unfold chargeSteer; dsimp only; split; apply State.setSteer_kept; apply State.bump_kept; with_reducible assumption
  with_reducible assumption

theorem applyBeat_kept {s0 : State} {s : State} (k : Nat) (t : Nat) (hs : Kept s0 s) : Kept s0 (applyBeat s k t) := by
  unfold applyBeat; dsimp only; split; with_reducible assumption; split; with_reducible assumption; split; apply State.setSteer_kept
  apply chargeSteer_kept; with_reducible assumption; apply Kept.ite; apply endRow_kept; apply State.setSteer_kept; apply State.at_kept
  split; apply sendArrival_kept; apply spendCredit_kept; split; apply readAt_kept; apply chargeSteer_kept; with_reducible assumption
  apply chargeSteer_kept; with_reducible assumption; split; apply readAt_kept; apply chargeSteer_kept; with_reducible assumption
  apply chargeSteer_kept; with_reducible assumption; apply State.setSteer_kept; apply State.at_kept; split; apply sendArrival_kept
  apply spendCredit_kept; split; apply readAt_kept; apply chargeSteer_kept; with_reducible assumption; apply chargeSteer_kept
  with_reducible assumption; split; apply readAt_kept; apply chargeSteer_kept; with_reducible assumption; apply chargeSteer_kept
  with_reducible assumption

theorem steerBeat_kept {s0 : State} (op : Nat) (k : Nat) (start : State → State) {s : State} (hf3 : ∀ y1, Kept s0 y1 → Kept s0 (start y1)) (hs4 : Kept s0 s) :
    Kept s0 (steerBeat op k start s) := by
  unfold steerBeat; dsimp only; apply Kept.ite; apply Kept.ite; with_reducible assumption; apply applyBeat_kept; apply Kept.ite; apply hf3
  apply steerReady_kept; apply State.at_kept; with_reducible assumption; apply steerReady_kept; apply State.at_kept
  with_reducible assumption; with_reducible assumption

theorem steerToken_kept {s0 : State} (op : Nat) (k : Nat) (start : State → Beat → State) {s : State} (hf3 : ∀ y1 y2, Kept s0 y1 → Kept s0 (start y1 y2)) (hs4 : Kept s0 s) :
    Kept s0 (steerToken op k start s) := by
  unfold steerToken; split; with_reducible assumption; apply steerBeat_kept; intros; solve_by_elim; with_reducible assumption

theorem execMerge_kept {s0 : State} (k : ClusterIx) {s : State} (hs : Kept s0 s) : KeptR s0 (execMerge k s) := by
  unfold execMerge; apply KeptR.next; apply steerBeat_kept; intros; apply startMerge_kept; with_reducible assumption
  with_reducible assumption

theorem execSplitRows_kept {s0 : State} (k : ClusterIx) {s : State} (hs : Kept s0 s) : KeptR s0 (execSplitRows k s) := by
  unfold execSplitRows; apply KeptR.next; apply steerBeat_kept; intros; apply startSplit_kept; with_reducible assumption
  with_reducible assumption

theorem execSelect_kept {s0 : State} (k : ClusterIx) {s : State} (hs : Kept s0 s) : KeptR s0 (execSelect k s) := by
  unfold execSelect; apply KeptR.next; apply steerToken_kept; intros; apply startSelect_kept; with_reducible assumption
  with_reducible assumption

theorem execRoute_kept {s0 : State} (k : ClusterIx) {s : State} (hs : Kept s0 s) : KeptR s0 (execRoute k s) := by
  unfold execRoute; apply KeptR.next; apply steerToken_kept; intros; apply startRoute_kept; with_reducible assumption
  with_reducible assumption

theorem execMask_kept {s0 : State} (k : ClusterIx) {s : State} (hs : Kept s0 s) : KeptR s0 (execMask k s) := by
  unfold execMask; apply KeptR.next; apply steerToken_kept; intros; apply startMask_kept; with_reducible assumption
  with_reducible assumption

theorem execPack_kept {s0 : State} (k : ClusterIx) {s : State} (hs : Kept s0 s) : KeptR s0 (execPack k s) := by
  unfold execPack; apply KeptR.next; apply steerToken_kept; intros; apply startPack_kept; with_reducible assumption
  with_reducible assumption

theorem execUnpack_kept {s0 : State} (k : ClusterIx) {s : State} (hs : Kept s0 s) : KeptR s0 (execUnpack k s) := by
  unfold execUnpack; apply KeptR.next; apply steerToken_kept; intros; apply startUnpack_kept; with_reducible assumption
  with_reducible assumption

theorem State.setLogic_kept {s0 : State} {s : State} (k : Nat) (v : Logic) (hs : Kept s0 s) : Kept s0 (State.setLogic s k v) := by
  unfold State.setLogic; dsimp only; apply State.setCluster_kept; with_reducible assumption

theorem showPads_kept {s0 : State} {s : State} (p : Nat → Bool) (hs : Kept s0 s) : Kept s0 (showPads s p) := by
  unfold showPads; apply Kept.ite; with_reducible assumption; apply Kept.foldl; intros; apply State.send_kept; with_reducible assumption
  with_reducible assumption

theorem loadFlops_kept {s0 : State} {s : State} (k : Nat) (inp : Nat → Bool) (on : List Nat) (hs : Kept s0 s) :
    Kept s0 (loadFlops s k inp on) := by
  unfold loadFlops; dsimp only; apply Kept.ite; with_reducible assumption; apply State.setLogic_kept; with_reducible assumption

theorem playFree_kept {s0 : State} {s : State} (k : Nat) (n : Nat) (c : Nat) (trees : List Nat) (hs : Kept s0 s) :
    Kept s0 (playFree s k n c trees) := by
  unfold playFree; apply Kept.foldl; intros; apply Kept.foldl; intros; apply loadFlops_kept; with_reducible assumption
  with_reducible assumption; with_reducible assumption

theorem playEdge_kept {s0 : State} {s : State} (k : Nat) (n : Nat) (c : Nat) (hs : Kept s0 s) : Kept s0 (playEdge s k n c) := by
  unfold playEdge; dsimp only; apply playFree_kept; apply loadFlops_kept; apply playFree_kept; with_reducible assumption

theorem playStopped_kept {s0 : State} {s : State} (k : Nat) (hs : Kept s0 s) : Kept s0 (playStopped s k) := by
  unfold playStopped; dsimp only; apply showPads_kept; apply Kept.foldl; intros; apply State.drawn_kept; apply Kept.foldl; intros
  apply loadFlops_kept; with_reducible assumption; with_reducible assumption; with_reducible assumption

theorem playLogic_kept {s0 : State} {s : State} (k : Nat) (t : Nat) (hs : Kept s0 s) : Kept s0 (playLogic s k t) := by
  unfold playLogic; dsimp only; apply Kept.ite; with_reducible assumption; apply Kept.ite; apply playStopped_kept; with_reducible assumption
  apply Kept.ite; with_reducible assumption; apply showPads_kept; apply State.setLogic_kept; apply State.drawn_kept; apply Kept.foldl
  intros; apply playEdge_kept; with_reducible assumption; apply settleAll_kept; with_reducible assumption

theorem playBlocks_kept {s0 : State} {s : State} (p : Nat → Bool) (t : Nat) (hs : Kept s0 s) : Kept s0 (playBlocks s p t) := by
  unfold playBlocks; apply Kept.foldl; intros; apply playLogic_kept; with_reducible assumption; with_reducible assumption

theorem portActs_kept {s0 : State} {s : State} (k : Nat) (j : Nat) (t : Nat) (hs : Kept s0 s) : Kept s0 (portActs s k j t) := by
  unfold portActs; dsimp only; apply State.setLogic_kept; apply playLogic_kept; apply State.at_kept; with_reducible assumption

theorem unstage_kept {s0 : State} {s : State} (a : Nat) (hs : Kept s0 s) : Kept s0 (unstage s a) := by
  unfold unstage; apply Kept.mk; apply KeptC.fold; with_reducible assumption

theorem stageWrite_kept {s0 : State} {s : State} (a : Nat) (v : Word32) (hs : Kept s0 s) : Kept s0 (stageWrite s a v) := by
  unfold stageWrite; split; apply State.mark_kept; with_reducible assumption; apply Kept.mk; apply KeptC.fold; with_reducible assumption

theorem takeStaged_kept {s0 : State} {s : State} (a : Nat) (hs : Kept s0 s) : Kept s0 (takeStaged s a) := by
  unfold takeStaged; split; with_reducible assumption; apply State.setRaw_kept; apply unstage_kept; with_reducible assumption

theorem commitFormat_kept {s0 : State} {s : State} (g : Nat) (hs : Kept s0 s) : Kept s0 (commitFormat s g) := by
  unfold commitFormat; dsimp only; split; with_reducible assumption; split; apply State.mark_kept; apply Kept.foldl; intros
  apply unstage_kept; with_reducible assumption; with_reducible assumption; apply Kept.foldl; intros; apply takeStaged_kept
  with_reducible assumption; with_reducible assumption

theorem loadCredits_kept {s0 : State} {s : State} (q : QueueId) (hs : Kept s0 s) : Kept s0 (loadCredits s q) := by
  unfold loadCredits; dsimp only; apply State.setQueue_kept; with_reducible assumption

theorem commitMode_kept {s0 : State} {s : State} (q : QueueId) (hs : Kept s0 s) : Kept s0 (commitMode s q) := by
  unfold commitMode; split; with_reducible assumption; apply Kept.ite; apply State.mark_kept; apply unstage_kept; with_reducible assumption
  apply loadCredits_kept; apply takeStaged_kept; apply settleQueue_kept; with_reducible assumption

theorem commitUnit_kept {s0 : State} {s : State} (g : Nat) (hs : Kept s0 s) : Kept s0 (commitUnit s g) := by
  unfold commitUnit; dsimp only; apply Kept.foldl; intros; apply commitMode_kept; with_reducible assumption; apply takeStaged_kept
  apply commitFormat_kept; with_reducible assumption

theorem commitQueue_kept {s0 : State} {s : State} (k : Nat) (q : Nat) (x : QSet) (hs : Kept s0 s) : Kept s0 (commitQueue s k q x) := by
  unfold commitQueue; dsimp only; split; with_reducible assumption; split; apply State.mark_kept; apply unstage_kept; apply unstage_kept
  with_reducible assumption; split; apply State.bump_kept; apply purgeQueue_kept; apply takeStaged_kept; apply takeStaged_kept
  with_reducible assumption; apply loadCredits_kept; apply takeStaged_kept; apply takeStaged_kept; with_reducible assumption

theorem commitBank_kept {s0 : State} {s : State} (k : Nat) (hs : Kept s0 s) : Kept s0 (commitBank s k) := by
  unfold commitBank; dsimp only; apply Kept.foldl; intros; apply commitQueue_kept; with_reducible assumption; with_reducible assumption

theorem commitSteer_kept {s0 : State} {s : State} (k : Nat) (hs : Kept s0 s) : Kept s0 (commitSteer s k) := by
  unfold commitSteer; dsimp only; split; with_reducible assumption; split; apply State.mark_kept; apply unstage_kept; apply unstage_kept
  with_reducible assumption; apply commitMap_kept; apply unstage_kept; apply unstage_kept; with_reducible assumption

theorem commitCluster_kept {s0 : State} {s : State} (k : Nat) (hs : Kept s0 s) : Kept s0 (commitCluster s k) := by
  unfold commitCluster; dsimp only; apply commitSteer_kept; apply Kept.foldl; intros; apply commitMode_kept; with_reducible assumption
  apply Kept.foldl; intros; apply commitUnit_kept; with_reducible assumption; split; apply commitBank_kept; apply settleAll_kept
  with_reducible assumption; with_reducible assumption

theorem commitPll_kept {s0 : State} {s : State} (r : Nat) (i : Nat) (hs : Kept s0 s) : Kept s0 (commitPll s r i) := by
  unfold commitPll; dsimp only; split; with_reducible assumption; split; apply takeStaged_kept; with_reducible assumption
  apply State.setFld_kept; apply State.setFld_kept; apply takeStaged_kept; with_reducible assumption

theorem switchTrees_kept {s0 : State} {old : State} {s : State} (r : Nat) (hs : Kept s0 old) (hs2 : Kept s0 s) :
    Kept s0 (switchTrees old s r) := by
  unfold switchTrees; dsimp only; apply Kept.foldl; intros; apply State.drawn_kept; apply State.setRegion_kept; with_reducible assumption
  with_reducible assumption

theorem commitClocks_kept {s0 : State} {s : State} (r : Nat) (hs : Kept s0 s) : Kept s0 (commitClocks s r) := by
  unfold commitClocks; dsimp only; apply Kept.ite; with_reducible assumption; apply Kept.ite; apply State.mark_kept; apply Kept.foldl
  intros; apply unstage_kept; with_reducible assumption; with_reducible assumption; apply switchTrees_kept; apply playBlocks_kept
  with_reducible assumption; apply commitPll_kept; apply commitPll_kept; apply takeStaged_kept; apply playBlocks_kept
  with_reducible assumption

theorem commitRegion_kept {s0 : State} {s : State} (r : Nat) (hs : Kept s0 s) : Kept s0 (commitRegion s r) := by
  unfold commitRegion; dsimp only; apply State.setFld_kept; apply commitClocks_kept; apply Kept.foldl; intros; apply commitCluster_kept
  with_reducible assumption; with_reducible assumption

theorem finishCommit_kept {s0 : State} {s : State} (r : Nat) (hs : Kept s0 s) : Kept s0 (finishCommit s r) := by
  unfold finishCommit; dsimp only; apply State.setRegion_kept; apply State.setFld_kept; apply commitRegion_kept; with_reducible assumption

theorem execCommitRequest_kept {s0 : State} (r : RegionIx) {s : State} (hs : Kept s0 s) : KeptR s0 (execCommitRequest r s) := by
  unfold execCommitRequest; dsimp only; apply KeptR.ite; apply KeptR.next; with_reducible assumption; apply KeptR.ite; apply KeptR.next
  apply State.mark_kept; with_reducible assumption; apply KeptR.ite; apply KeptR.next; with_reducible assumption; apply KeptR.ite
  apply KeptR.next; apply finishCommit_kept; with_reducible assumption; apply KeptR.next; apply State.setRegion_kept; apply State.mark_kept
  with_reducible assumption

theorem execCommit_kept {s0 : State} (r : RegionIx) {s : State} (hs : Kept s0 s) : KeptR s0 (execCommit r s) := by
  unfold execCommit; dsimp only; split; apply KeptR.next; with_reducible assumption; split; split; apply KeptR.next; apply finishCommit_kept
  with_reducible assumption; apply KeptR.next; with_reducible assumption; split; apply KeptR.next; apply finishCommit_kept
  with_reducible assumption; apply KeptR.next; with_reducible assumption

theorem execFreePllLocked_kept {s0 : State} (r : RegionIx) (pll : Fin 2) {s : State} (hs : Kept s0 s) :
    KeptR s0 (execFreePllLocked r pll s) := by
  unfold execFreePllLocked; dsimp only; apply KeptR.ite; apply KeptR.next; apply State.mark_kept; apply playBlocks_kept
  with_reducible assumption; apply KeptR.next; with_reducible assumption

theorem poisonAgent_kept {s0 : State} {s9 : State} (a : Agent) (t : Nat) (hs : Kept s0 s9) : Kept s0 (poisonAgent s9 a t) := by
  unfold poisonAgent; dsimp only; split; apply State.setUnit_kept; apply settleUnit_kept; with_reducible assumption; apply State.setFun_kept
  with_reducible assumption

theorem fetchWord_kept {s0 : State} {s : State} (a : Agent) (pc : Nat) (t : Nat) (hs : Kept s0 s) : Kept s0 (fetchWord s a pc t) := by
  unfold fetchWord; split; apply State.bump_kept; with_reducible assumption; apply poisonAgent_kept; apply State.bump_kept
  with_reducible assumption; apply poisonAgent_kept; apply State.bump_kept; with_reducible assumption; with_reducible assumption

theorem fetched_kept {s0 : State} {s : State} (a : Agent) (hs : Kept s0 s) : Kept s0 (fetched s a) := by
  unfold fetched; dsimp only; apply Kept.ite; apply poisonAgent_kept; apply fetchWord_kept; with_reducible assumption; apply fetchWord_kept
  with_reducible assumption

theorem nextWord_kept {s0 : State} {s : State} (a : Agent) (d : Nat) (hs : Kept s0 s) : Kept s0 (nextWord s a d) := by
  unfold nextWord; dsimp only; apply State.setPlay_kept; apply State.at_kept; with_reducible assumption

theorem catchUp_kept {s0 : State} {s : State} (a : Agent) (hs : Kept s0 s) : Kept s0 (catchUp s a) := by
  unfold catchUp; split; with_reducible assumption; apply settleFuns_kept; with_reducible assumption

theorem skipIdle_kept {s0 : State} {s : State} (a : Agent) (a2 : Nat) (hs : Kept s0 s) : Kept s0 (skipIdle s a a2) := by
  induction a2 generalizing s a with | zero => ?_ | succ n9 ih => ?_
  all_goals unfold skipIdle
  all_goals try dsimp only
  with_reducible assumption; split; apply ih; apply nextWord_kept; apply fetched_kept; with_reducible assumption; with_reducible assumption

theorem playIdle_kept {s0 : State} {s : State} (a : Agent) (t : Nat) (a3 : Nat) (hs : Kept s0 s) : Kept s0 (playIdle s a t a3) := by
  induction a3 generalizing s a t with | zero => ?_ | succ n9 ih => ?_
  all_goals unfold playIdle
  all_goals try dsimp only
  with_reducible assumption; apply Kept.ite; apply ih; apply State.setPlay_kept; apply fetched_kept; with_reducible assumption
  with_reducible assumption

theorem playIdles_kept {s0 : State} {s : State} (k : Nat) (t : Nat) (hs : Kept s0 s) : Kept s0 (playIdles s k t) := by
  unfold playIdles; apply Kept.foldl; intros; apply Kept.ite; apply playIdle_kept; with_reducible assumption; with_reducible assumption
  with_reducible assumption

theorem issue_kept {s0 : State} {s : State} (a : Agent) (op : Nat) (hs : Kept s0 s) : KeptO s0 ((issue s a op).map (fun p => p.1)) := by
  unfold issue; dsimp only; split; split; apply KeptO.some_map; dsimp only; apply State.at_kept; apply fetched_kept; apply skipIdle_kept
  apply catchUp_kept; with_reducible assumption; exact KeptO.none_map _ _; exact KeptO.none_map _ _

theorem startPass_kept {s0 : State} {s : State} (a : Agent) (t : Nat) (hs : Kept s0 s) : Kept s0 (startPass s a t) := by
  unfold startPass; dsimp only; apply State.setPlay_kept; apply State.mark_kept; apply State.at_kept; apply Kept.ite
  with_reducible assumption; apply fetchWord_kept; with_reducible assumption

theorem stopAgent_kept {s0 : State} {s : State} (a : Agent) (hs : Kept s0 s) : Kept s0 (stopAgent s a) := by
  unfold stopAgent; apply State.setPlay_kept; apply State.setFld_kept; with_reducible assumption

theorem anchorLocked_kept {s0 : State} {s : State} (a : Agent) (hs : Kept s0 s) : Kept s0 (anchorLocked s a) := by
  unfold anchorLocked; dsimp only; split; with_reducible assumption; split; split; apply stopAgent_kept; apply skipIdle_kept
  apply catchUp_kept; with_reducible assumption; split; apply startPass_kept; apply skipIdle_kept; apply catchUp_kept
  with_reducible assumption; apply hazard_kept; apply skipIdle_kept; apply catchUp_kept; with_reducible assumption; split
  apply startPass_kept; with_reducible assumption; with_reducible assumption

theorem anchorStaged_kept {s0 : State} {s : State} (a : Agent) (hs : Kept s0 s) : Kept s0 (anchorStaged s a) := by
  unfold anchorStaged; dsimp only; split; with_reducible assumption; split; split; apply startPass_kept; apply skipIdle_kept
  apply catchUp_kept; with_reducible assumption; with_reducible assumption; split; apply startPass_kept; with_reducible assumption
  with_reducible assumption

theorem execAnchor_kept {s0 : State} (a : Agent) {s : State} (hs : Kept s0 s) : KeptR s0 (execAnchor a s) := by
  unfold execAnchor; apply KeptR.next; split; with_reducible assumption; split; apply anchorStaged_kept; with_reducible assumption
  apply anchorLocked_kept; with_reducible assumption

theorem execSync_kept {s0 : State} (a : Agent) {s : State} (hs : Kept s0 s) : KeptR s0 (execSync a s) := by
  unfold execSync; dsimp only; apply KeptR.ite; apply KeptR.ite; apply KeptR.next; apply State.setPlay_kept; apply State.at_kept
  apply fetchWord_kept; apply skipIdle_kept; apply catchUp_kept; with_reducible assumption; apply KeptR.next; with_reducible assumption
  apply KeptR.next; with_reducible assumption

theorem execHold_kept {s0 : State} (a : Agent) {s : State} (hs : Kept s0 s) : KeptR s0 (execHold a s) := by
  unfold execHold; split; apply KeptR.next; with_reducible assumption; apply KeptR.next; apply State.setPlay_kept
  refine kept_of_optfst (by with_reducible assumption) ?_; apply issue_kept; with_reducible assumption

theorem execHoldEnd_kept {s0 : State} (a : Agent) {s : State} (hs : Kept s0 s) : KeptR s0 (execHoldEnd a s) := by
  unfold execHoldEnd; dsimp only; split; split; apply KeptR.next; apply State.setPlay_kept; apply State.at_kept; with_reducible assumption
  apply KeptR.next; with_reducible assumption; apply KeptR.next; with_reducible assumption

theorem execMenu_kept {s0 : State} (a : Agent) {s : State} (hs : Kept s0 s) : KeptR s0 (execMenu a s) := by
  unfold execMenu; split; apply KeptR.next; with_reducible assumption; apply KeptR.next; apply nextWord_kept; apply State.setFld_kept
  refine kept_of_optfst (by with_reducible assumption) ?_; apply issue_kept; with_reducible assumption

theorem stepCount_kept {s0 : State} {s : State} (hs : Kept s0 s) : Kept s0 (stepCount s) := by
  unfold stepCount; split; apply State.setFld_kept; apply State.setFld_kept; with_reducible assumption; apply State.setFld_kept
  with_reducible assumption

theorem stepRun_kept {s0 : State} {s : State} (hs : Kept s0 s) : Kept s0 (stepRun s) := by
  unfold stepRun; dsimp only; split; apply Kept.mk; apply KeptC.fold; with_reducible assumption; with_reducible assumption

theorem openCrossing_kept {s0 : State} {s : State} (hs : Kept s0 s) : Kept s0 (openCrossing s) := by
  unfold openCrossing; dsimp only; apply Kept.mk; apply KeptC.fold; with_reducible assumption

theorem takeFences_kept {s0 : State} {s : State} (hs : Kept s0 s) : Kept s0 (takeFences s) := by
  unfold takeFences; dsimp only; apply Kept.mk; apply KeptC.fold; apply Kept.foldl; intros; apply State.setFld_kept
  with_reducible assumption; with_reducible assumption

theorem takeHazards_kept {s0 : State} {s : State} (hs : Kept s0 s) : Kept s0 (takeHazards s) := by
  unfold takeHazards; dsimp only; apply Kept.foldl; intros; split; apply State.setRegion_kept; apply Kept.mk; apply KeptC.fold
  with_reducible assumption; with_reducible assumption; with_reducible assumption

theorem stepTurn_kept {s0 : State} {s : State} (hs : Kept s0 s) : Kept s0 (stepTurn s) := by
  unfold stepTurn; dsimp only; split; apply Kept.mk; apply KeptC.fold; apply State.setFld_kept; with_reducible assumption; split
  apply State.setFld_kept; with_reducible assumption; with_reducible assumption

theorem stepMeasures_kept {s0 : State} {s : State} (hs : Kept s0 s) : Kept s0 (stepMeasures s) := by
  unfold stepMeasures; dsimp only; apply Kept.foldl; intros; apply Kept.ite; apply State.setCtx_kept; with_reducible assumption
  apply Kept.ite; apply State.setCtx_kept; with_reducible assumption; apply Kept.ite; apply Kept.ite; apply State.mark_kept; apply Kept.ite
  apply State.setCtx_kept; with_reducible assumption; apply State.setFld_kept; apply State.setFld_kept; apply State.setCtx_kept
  with_reducible assumption; apply State.mark_kept; apply State.setFld_kept; apply Kept.ite; apply State.setCtx_kept
  with_reducible assumption; apply State.setFld_kept; apply State.setFld_kept; apply State.setCtx_kept; with_reducible assumption
  with_reducible assumption; with_reducible assumption

theorem execCrossingStart_kept {s0 : State} {s : State} (hs : Kept s0 s) : KeptR s0 (execCrossingStart s) := by
  unfold execCrossingStart; apply KeptR.ite; apply KeptR.next; apply stepMeasures_kept; apply takeHazards_kept; apply takeFences_kept
  apply stepTurn_kept; apply stepRun_kept; apply stepCount_kept; apply openCrossing_kept; apply playBlocks_kept; with_reducible assumption
  apply KeptR.next; with_reducible assumption

theorem slotComma_kept {s0 : State} (c : Comma) {s : State} (hs : Kept s0 s) : Kept s0 (slotComma c s) := by
  unfold slotComma; dsimp only; split; apply Kept.mk; apply KeptC.fold; apply State.bump_kept; with_reducible assumption; apply Kept.mk
  apply KeptC.fold; with_reducible assumption

theorem execTimingSlot_kept {s0 : State} (c : Comma) (chars : BitVec 56) (violation : Bool) {s : State} (hs : Kept s0 s) :
    KeptR s0 (execTimingSlot c chars violation s) := by
  unfold execTimingSlot; dsimp only; split; apply KeptR.next; with_reducible assumption; apply KeptR.next; split; apply State.bump_kept
  apply Kept.mk; apply KeptC.fold; split; apply State.bump_kept; apply slotComma_kept; with_reducible assumption; apply slotComma_kept
  with_reducible assumption; apply Kept.mk; apply KeptC.fold; split; apply State.bump_kept; apply slotComma_kept; with_reducible assumption
  apply slotComma_kept; with_reducible assumption

theorem execNop_kept {s0 : State} {s : State} (hs : Kept s0 s) : KeptR s0 (execNop s) := by
  unfold execNop; apply KeptR.next; with_reducible assumption

theorem schedule_kept {s0 : State} {s : State} (code : PendCode) (ref : BitVec 24) (a3 : Nat) (host : Bool) (disarm : Option Nat) (hs : Kept s0 s) :
    Kept s0 (schedule s code ref a3 host disarm) := by
  unfold schedule; split; apply Kept.mk; apply KeptC.fold; with_reducible assumption; apply State.bump_kept; with_reducible assumption

theorem laneCommand_kept {s0 : State} (code : PendCode) (ref : BitVec 24) (a3 : Byte) {s : State} (hs : Kept s0 s) :
    Kept s0 (laneCommand code ref a3 s) := by
  unfold laneCommand; split; apply schedule_kept; with_reducible assumption; with_reducible assumption

theorem execRunStart_kept {s0 : State} (ref : BitVec 24) (a3 : Byte) {s : State} (hs : Kept s0 s) :
    KeptR s0 (execRunStart ref a3 s) := by
  unfold execRunStart; apply KeptR.next; apply laneCommand_kept; with_reducible assumption

theorem execRunStop_kept {s0 : State} (ref : BitVec 24) (a3 : Byte) {s : State} (hs : Kept s0 s) : KeptR s0 (execRunStop ref a3 s) := by
  unfold execRunStop; apply KeptR.next; apply laneCommand_kept; with_reducible assumption

theorem execTestPulse_kept {s0 : State} (ref : BitVec 24) (a3 : Byte) {s : State} (hs : Kept s0 s) :
    KeptR s0 (execTestPulse ref a3 s) := by
  unfold execTestPulse; apply KeptR.next; apply laneCommand_kept; with_reducible assumption

theorem execMenuSelect_kept {s0 : State} (ref : BitVec 24) (a3 : Byte) {s : State} (hs : Kept s0 s) :
    KeptR s0 (execMenuSelect ref a3 s) := by
  unfold execMenuSelect; apply KeptR.next; apply laneCommand_kept; with_reducible assumption

theorem execFrost_kept {s0 : State} (ref : BitVec 24) (a3 : Byte) {s : State} (hs : Kept s0 s) : KeptR s0 (execFrost ref a3 s) := by
  unfold execFrost; apply KeptR.next; apply laneCommand_kept; with_reducible assumption

theorem execResync_kept {s0 : State} (turn : Word32) {s : State} (hs : Kept s0 s) : KeptR s0 (execResync turn s) := by
  unfold execResync; dsimp only; split; apply KeptR.next; with_reducible assumption; split; apply KeptR.next; apply State.bump_kept
  with_reducible assumption; apply KeptR.next; apply Kept.mk; apply KeptC.fold; with_reducible assumption

theorem execResyncLoad_kept {s0 : State} {s : State} (hs : Kept s0 s) : KeptR s0 (execResyncLoad s) := by
  unfold execResyncLoad; dsimp only; split; apply KeptR.next; with_reducible assumption; apply KeptR.next; apply Kept.mk; apply KeptC.fold
  apply State.setFld_kept; apply State.setFld_kept; with_reducible assumption

theorem dropCmd_kept {s0 : State} {s : State} (code : PendCode) (hs : Kept s0 s) : Kept s0 (dropCmd s code) := by
  unfold dropCmd; apply Kept.mk; apply KeptC.fold; with_reducible assumption

theorem beginRun_kept {s0 : State} {s : State} (hs : Kept s0 s) : Kept s0 (beginRun s) := by
  unfold beginRun; dsimp only; apply Kept.mk; apply KeptC.fold; apply State.setFld_kept; with_reducible assumption

theorem armLanes_kept {s0 : State} {s : State} (hs : Kept s0 s) : Kept s0 (armLanes s) := by
  unfold armLanes; dsimp only; split; apply Kept.foldl; intros; apply State.setCtx_kept; with_reducible assumption; apply Kept.foldl; intros
  apply State.setVa_kept; with_reducible assumption; apply Kept.foldl; intros; apply State.setWay_kept; with_reducible assumption
  with_reducible assumption; apply Kept.foldl; intros; apply State.setVa_kept; with_reducible assumption; apply Kept.foldl; intros
  apply State.setWay_kept; with_reducible assumption; with_reducible assumption

theorem execRunStopEffect_kept {s0 : State} {s : State} (hs : Kept s0 s) : KeptR s0 (execRunStopEffect s) := by
  unfold execRunStopEffect; dsimp only; split; apply KeptR.next; with_reducible assumption; split; split; apply KeptR.next; apply Kept.mk
  apply KeptC.fold; apply dropCmd_kept; with_reducible assumption; apply KeptR.next; apply Kept.mk; apply KeptC.fold; apply dropCmd_kept
  with_reducible assumption; apply KeptR.next; apply State.bump_kept; apply dropCmd_kept; with_reducible assumption

theorem execMenuSelectEffect_kept {s0 : State} {s : State} (hs : Kept s0 s) : KeptR s0 (execMenuSelectEffect s) := by
  unfold execMenuSelectEffect; dsimp only; split; apply KeptR.next; with_reducible assumption; split; apply KeptR.next; apply Kept.mk
  apply KeptC.fold; apply dropCmd_kept; with_reducible assumption; apply KeptR.next; apply State.bump_kept; apply dropCmd_kept
  with_reducible assumption

theorem execTestPulseEffect_kept {s0 : State} {s : State} (hs : Kept s0 s) : KeptR s0 (execTestPulseEffect s) := by
  unfold execTestPulseEffect; dsimp only; split; apply KeptR.next; with_reducible assumption; apply KeptR.next; apply Kept.mk
  apply KeptC.fold; apply dropCmd_kept; with_reducible assumption

theorem portRead_kept {s0 : State} {s : State} (g : Nat) (p : Nat) (pop : Bool) (t : Nat) (hs : Kept s0 s) :
    Kept s0 (portRead s g p pop t).2 := by
  unfold portRead; dsimp only; split; apply readAt_kept; with_reducible assumption; apply State.bump_kept; apply readAt_kept
  with_reducible assumption

theorem waitCredit_kept {s0 : State} {s : State} (a : Agent) (q : QueueId) (rest : List QueueId) (t : Nat) (hs : Kept s0 s) :
    Kept s0 (waitCredit s a q rest t) := by
  unfold waitCredit; dsimp only; apply State.setPlay_kept; apply Kept.foldl; intros; apply noteWait_kept; with_reducible assumption
  apply endWait_kept; with_reducible assumption

theorem playMac_kept {s0 : State} {s : State} (u : UnitIx) (w : Word64) (t : Nat) (clear : Bool) (hs : Kept s0 s) :
    Kept s0 (playMac s u w t clear) := by
  unfold playMac; dsimp only; split; apply waitCredit_kept; with_reducible assumption; apply nextWord_kept; split; apply wordSend_kept
  apply addFlight_kept; apply State.bump_kept; apply State.bump_kept; apply State.bump_kept; apply portRead_kept; apply settleUnit_kept
  with_reducible assumption; apply addFlight_kept; apply State.bump_kept; apply State.bump_kept; apply State.bump_kept; apply portRead_kept
  apply settleUnit_kept; with_reducible assumption

theorem execMac_kept {s0 : State} (u : UnitIx) {s : State} (hs : Kept s0 s) : KeptR s0 (execMac u s) := by
  unfold execMac; split; apply KeptR.next; with_reducible assumption; apply KeptR.next; apply playMac_kept
  refine kept_of_optfst (by with_reducible assumption) ?_; apply issue_kept; with_reducible assumption

theorem execMacz_kept {s0 : State} (u : UnitIx) {s : State} (hs : Kept s0 s) : KeptR s0 (execMacz u s) := by
  unfold execMacz; split; apply KeptR.next; with_reducible assumption; apply KeptR.next; apply playMac_kept
  refine kept_of_optfst (by with_reducible assumption) ?_; apply issue_kept; with_reducible assumption

theorem playGrp_kept {s0 : State} {s : State} (u : UnitIx) (w : Word64) (t : Nat) (hs : Kept s0 s) : Kept s0 (playGrp s u w t) := by
  unfold playGrp; dsimp only; apply nextWord_kept; split; split; apply State.bump_kept; apply addFlight_kept; apply State.bump_kept
  apply State.bump_kept; split; apply hazard_kept; apply settleUnit_kept; with_reducible assumption; split; apply hazard_kept
  apply settleUnit_kept; with_reducible assumption; apply settleUnit_kept; with_reducible assumption; apply addFlight_kept
  apply State.bump_kept; apply State.bump_kept; split; apply hazard_kept; apply settleUnit_kept; with_reducible assumption; split
  apply hazard_kept; apply settleUnit_kept; with_reducible assumption; apply settleUnit_kept; with_reducible assumption
  apply State.bump_kept; apply State.bump_kept; split; apply hazard_kept; apply settleUnit_kept; with_reducible assumption; split
  apply hazard_kept; apply settleUnit_kept; with_reducible assumption; apply settleUnit_kept; with_reducible assumption

theorem execGrp_kept {s0 : State} (u : UnitIx) {s : State} (hs : Kept s0 s) : KeptR s0 (execGrp u s) := by
  unfold execGrp; split; apply KeptR.next; with_reducible assumption; apply KeptR.next; apply playGrp_kept
  refine kept_of_optfst (by with_reducible assumption) ?_; apply issue_kept; with_reducible assumption

theorem execClr_kept {s0 : State} (u : UnitIx) {s : State} (hs : Kept s0 s) : KeptR s0 (execClr u s) := by
  unfold execClr; split; apply KeptR.next; with_reducible assumption; apply KeptR.next; apply nextWord_kept; apply addFlight_kept
  apply settleUnit_kept; refine kept_of_optfst (by with_reducible assumption) ?_; apply issue_kept; with_reducible assumption

theorem emitAt_kept {s0 : State} {s : State} (u : UnitIx) (w : Word64) (t : Nat) (hs : Kept s0 s) : Kept s0 (emitAt s u w t) := by
  unfold emitAt; dsimp only; apply State.setPlay_kept; apply State.at_kept; apply placeRow_kept; split; apply State.bump_kept; split
  apply hazard_kept; apply settleUnit_kept; with_reducible assumption; apply settleUnit_kept; with_reducible assumption; split
  apply hazard_kept; apply settleUnit_kept; with_reducible assumption; apply settleUnit_kept; with_reducible assumption

theorem execEmit_kept {s0 : State} (u : UnitIx) {s : State} (hs : Kept s0 s) : KeptR s0 (execEmit u s) := by
  unfold execEmit; dsimp only; split; apply KeptR.next; with_reducible assumption; split; apply KeptR.next; apply State.setPlay_kept
  apply settleBus_kept; apply settleFuns_kept; refine kept_of_optfst (by with_reducible assumption) ?_; apply issue_kept
  with_reducible assumption; apply KeptR.next; apply emitAt_kept; apply settleBus_kept; apply settleFuns_kept
  refine kept_of_optfst (by with_reducible assumption) ?_; apply issue_kept; with_reducible assumption

theorem execEmitBusCycleFree_kept {s0 : State} (u : UnitIx) {s : State} (hs : Kept s0 s) : KeptR s0 (execEmitBusCycleFree u s) := by
  unfold execEmitBusCycleFree; dsimp only; split; split; apply KeptR.next; apply emitAt_kept; apply State.bump_kept; apply settleBus_kept
  apply settleFuns_kept; with_reducible assumption; apply KeptR.next; with_reducible assumption; apply KeptR.next; with_reducible assumption

theorem takeRow_kept {s0 : State} {s : State} (u : UnitIx) (mb : Nat) (r : BusRow) (t : Nat) (hs : Kept s0 s) :
    Kept s0 (takeRow s u mb r t) := by
  unfold takeRow; dsimp only; apply State.setPlay_kept; apply State.at_kept; apply addFlight_kept; split; apply hazard_kept
  apply settleUnit_kept; apply State.setCluster_kept; with_reducible assumption; apply settleUnit_kept; apply State.setCluster_kept
  with_reducible assumption

theorem execAddin_kept {s0 : State} (u : UnitIx) {s : State} (hs : Kept s0 s) : KeptR s0 (execAddin u s) := by
  unfold execAddin; dsimp only; split; apply KeptR.next; with_reducible assumption; split; apply KeptR.next; apply takeRow_kept
  apply settleBus_kept; apply settleFuns_kept; refine kept_of_optfst (by with_reducible assumption) ?_; apply issue_kept
  with_reducible assumption; split; apply KeptR.next; apply State.setPlay_kept; apply settleBus_kept; apply settleFuns_kept
  refine kept_of_optfst (by with_reducible assumption) ?_; apply issue_kept; with_reducible assumption; apply KeptR.next
  apply nextWord_kept; apply hazard_kept; apply State.bump_kept; apply settleBus_kept; apply settleFuns_kept
  refine kept_of_optfst (by with_reducible assumption) ?_; apply issue_kept; with_reducible assumption

theorem execAddinRowTaken_kept {s0 : State} (u : UnitIx) {s : State} (hs : Kept s0 s) : KeptR s0 (execAddinRowTaken u s) := by
  unfold execAddinRowTaken; dsimp only; split; split; split; apply KeptR.next; apply takeRow_kept; apply State.bump_kept
  apply settleFuns_kept; with_reducible assumption; apply KeptR.next; with_reducible assumption; apply KeptR.next; with_reducible assumption
  apply KeptR.next; with_reducible assumption

theorem playMove_kept {s0 : State} {s : State} (u : UnitIx) (inp : Nat) (outs : List Nat) (t : Nat) (hs : Kept s0 s) :
    Kept s0 (playMove s u inp outs t) := by
  unfold playMove; dsimp only; split; apply waitCredit_kept; with_reducible assumption; apply nextWord_kept; apply Kept.foldl; intros
  apply wordSend_kept; with_reducible assumption; apply portRead_kept; with_reducible assumption

theorem execPass_kept {s0 : State} (u : UnitIx) {s : State} (hs : Kept s0 s) : KeptR s0 (execPass u s) := by
  unfold execPass; split; apply KeptR.next; with_reducible assumption; apply KeptR.next; apply playMove_kept
  refine kept_of_optfst (by with_reducible assumption) ?_; apply issue_kept; with_reducible assumption

theorem execDup_kept {s0 : State} (u : UnitIx) {s : State} (hs : Kept s0 s) : KeptR s0 (execDup u s) := by
  unfold execDup; split; apply KeptR.next; with_reducible assumption; apply KeptR.next; apply playMove_kept
  refine kept_of_optfst (by with_reducible assumption) ?_; apply issue_kept; with_reducible assumption

theorem execDropPkt_kept {s0 : State} (a : Agent) {s : State} (hs : Kept s0 s) : KeptR s0 (execDropPkt a s) := by
  unfold execDropPkt; split; apply KeptR.next; with_reducible assumption; split; apply KeptR.next; apply nextWord_kept; apply dropRest_kept
  apply settleQueue_kept; refine kept_of_optfst (by with_reducible assumption) ?_; apply issue_kept; with_reducible assumption
  apply KeptR.next; apply nextWord_kept; refine kept_of_optfst (by with_reducible assumption) ?_; apply issue_kept
  with_reducible assumption

theorem startOp_kept {s0 : State} {s : State} (f : Nat) (w : Word64) (t : Nat) (hs : Kept s0 s) : Kept s0 (startOp s f w t) := by
  unfold startOp; dsimp only; apply settleFuns_kept; apply State.setFun_kept; apply State.at_kept; with_reducible assumption

theorem playFun_kept {s0 : State} {s : State} (f : FunIx) (w : Word64) (t : Nat) (hs : Kept s0 s) : Kept s0 (playFun s f w t) := by
  unfold playFun; dsimp only; split; apply waitCredit_kept; apply settleBus_kept; with_reducible assumption; split; apply State.setPlay_kept
  apply settleBus_kept; with_reducible assumption; apply startOp_kept; apply settleBus_kept; with_reducible assumption

theorem runFun_kept {s0 : State} (f : FunIx) (op : Nat) {s : State} (hs : Kept s0 s) : Kept s0 (runFun f op s) := by
  unfold runFun; split; with_reducible assumption; apply playFun_kept; refine kept_of_optfst (by with_reducible assumption) ?_
  apply issue_kept; with_reducible assumption

theorem execAct_kept {s0 : State} (f : FunIx) {s : State} (hs : Kept s0 s) : KeptR s0 (execAct f s) := by
  unfold execAct; apply KeptR.next; apply runFun_kept; with_reducible assumption

theorem execRowx_kept {s0 : State} (f : FunIx) {s : State} (hs : Kept s0 s) : KeptR s0 (execRowx f s) := by
  unfold execRowx; apply KeptR.next; apply runFun_kept; with_reducible assumption

theorem execPin_kept {s0 : State} (f : FunIx) {s : State} (hs : Kept s0 s) : KeptR s0 (execPin f s) := by
  unfold execPin; apply KeptR.next; apply runFun_kept; with_reducible assumption

theorem execNorm_kept {s0 : State} (f : FunIx) {s : State} (hs : Kept s0 s) : KeptR s0 (execNorm f s) := by
  unfold execNorm; apply KeptR.next; apply runFun_kept; with_reducible assumption

theorem execExpt_kept {s0 : State} (f : FunIx) {s : State} (hs : Kept s0 s) : KeptR s0 (execExpt f s) := by
  unfold execExpt; apply KeptR.next; apply runFun_kept; with_reducible assumption

theorem execRcp_kept {s0 : State} (f : FunIx) {s : State} (hs : Kept s0 s) : KeptR s0 (execRcp f s) := by
  unfold execRcp; apply KeptR.next; apply runFun_kept; with_reducible assumption

theorem execReduce_kept {s0 : State} (f : FunIx) {s : State} (hs : Kept s0 s) : KeptR s0 (execReduce f s) := by
  unfold execReduce; apply KeptR.next; apply runFun_kept; with_reducible assumption

theorem execPool_kept {s0 : State} (f : FunIx) {s : State} (hs : Kept s0 s) : KeptR s0 (execPool f s) := by
  unfold execPool; apply KeptR.next; apply runFun_kept; with_reducible assumption

theorem execSort16_kept {s0 : State} (f : FunIx) {s : State} (hs : Kept s0 s) : KeptR s0 (execSort16 f s) := by
  unfold execSort16; apply KeptR.next; apply runFun_kept; with_reducible assumption

theorem execTopk_kept {s0 : State} (f : FunIx) {s : State} (hs : Kept s0 s) : KeptR s0 (execTopk f s) := by
  unfold execTopk; apply KeptR.next; apply runFun_kept; with_reducible assumption

theorem execGather_kept {s0 : State} (f : FunIx) {s : State} (hs : Kept s0 s) : KeptR s0 (execGather f s) := by
  unfold execGather; apply KeptR.next; apply runFun_kept; with_reducible assumption

theorem execScatter_kept {s0 : State} (f : FunIx) {s : State} (hs : Kept s0 s) : KeptR s0 (execScatter f s) := by
  unfold execScatter; apply KeptR.next; apply runFun_kept; with_reducible assumption

theorem execThresh_kept {s0 : State} (f : FunIx) {s : State} (hs : Kept s0 s) : KeptR s0 (execThresh f s) := by
  unfold execThresh; apply KeptR.next; apply runFun_kept; with_reducible assumption

theorem execFunSourceWaitEnd_kept {s0 : State} (f : FunIx) {s : State} (hs : Kept s0 s) : KeptR s0 (execFunSourceWaitEnd f s) := by
  unfold execFunSourceWaitEnd; dsimp only; split; split; apply KeptR.next; with_reducible assumption; split; apply KeptR.next
  apply settleFuns_kept; apply State.bump_kept; apply State.setFun_kept; apply State.at_kept; apply readySource_kept; apply settleFuns_kept
  with_reducible assumption; apply KeptR.next; with_reducible assumption; apply KeptR.next; with_reducible assumption

theorem execFunBlockedWaitEnd_kept {s0 : State} (f : FunIx) {s : State} (hs : Kept s0 s) : KeptR s0 (execFunBlockedWaitEnd f s) := by
  unfold execFunBlockedWaitEnd; dsimp only; split; split; apply KeptR.next; apply startOp_kept; apply State.bump_kept
  with_reducible assumption; apply KeptR.next; with_reducible assumption; apply KeptR.next; with_reducible assumption

theorem chargeWait_kept {s0 : State} {s : State} (a : Agent) (hs : Kept s0 s) : Kept s0 (chargeWait s a) := by
  unfold chargeWait; dsimp only; split; apply State.setPlay_kept; apply State.bump_kept; with_reducible assumption; apply State.setPlay_kept
  apply State.bump_kept; with_reducible assumption; apply State.setPlay_kept; apply State.bump_kept; apply State.bump_kept
  with_reducible assumption; apply State.setPlay_kept; apply State.bump_kept; with_reducible assumption; apply State.setFun_kept
  apply State.bump_kept; with_reducible assumption; with_reducible assumption

theorem reissue_kept {s0 : State} {s : State} (a : Agent) (t : Nat) (hs : Kept s0 s) : Kept s0 (reissue s a t) := by
  unfold reissue; dsimp only; split; split; apply playMac_kept; apply State.setPlay_kept; with_reducible assumption; apply playMac_kept
  apply State.setPlay_kept; with_reducible assumption; apply playMove_kept; apply State.setPlay_kept; with_reducible assumption
  apply playMove_kept; apply State.setPlay_kept; with_reducible assumption; apply playFun_kept; apply State.setPlay_kept
  with_reducible assumption

end Sys2Proof.Machine
end

