-- ==== Sys2Proof/Laws/KeptFabric.lean ====
section
/-!
SUPPORT. Laws/KeptFabric.lean: one lemma per operation: it keeps the waiting commands, the identity and the canonical form (Laws/Kept.lean):
the rings, the logic tiles, the memory tiles and the stream tiles.
-/
set_option linter.unusedVariables false
namespace Sys2Proof.Machine

theorem State.setArb_kept {s0 : State} {s : State} (a : ArbId) (v : Arbiter) (hs : Kept s0 s) : Kept s0 (State.setArb s a v) := by
  unfold State.setArb; dsimp only; split; apply State.setRegion_kept; with_reducible assumption; apply Kept.mk; apply KeptC.fold
  with_reducible assumption; apply Kept.mk; apply KeptC.fold; with_reducible assumption

theorem grant_kept {s0 : State} {s : State} (a : ArbId) (waiting : List (Requester × Nat)) (e : Requester × Nat) (hs : Kept s0 s) :
    Kept s0 (grant s a waiting e) := by
  unfold grant; dsimp only; apply State.raise_kept; apply State.setArb_kept; with_reducible assumption

theorem decideArb_kept {s0 : State} {s9 : State} (a : ArbId) (rank : Requester → Nat) (presented : List Requester) (hs : Kept s0 s9) :
    Kept s0 (decideArb s9 a rank presented) := by
  unfold decideArb; dsimp only; apply Kept.ite; apply State.setArb_kept; apply State.setArb_kept; with_reducible assumption; split
  apply State.bump_kept; apply grant_kept; apply State.setArb_kept; with_reducible assumption; split; apply State.setArb_kept
  apply State.setArb_kept; with_reducible assumption; apply grant_kept; apply State.setArb_kept; with_reducible assumption

theorem serveArb_kept {s0 : State} {s : State} (a : ArbId) (hs : Kept s0 s) : Kept s0 (serveArb s a) := by
  unfold serveArb; dsimp only; apply State.setArb_kept; with_reducible assumption

theorem endTransaction_kept {s0 : State} {s : State} (a : ArbId) (hs : Kept s0 s) : Kept s0 (endTransaction s a) := by
  unfold endTransaction; dsimp only; split; apply State.setArb_kept; with_reducible assumption; split; apply State.setArb_kept
  with_reducible assumption; with_reducible assumption

theorem withdrawRequest_kept {s0 : State} {s : State} (a : ArbId) (q : Requester) (hs : Kept s0 s) :
    Kept s0 (withdrawRequest s a q) := by
  unfold withdrawRequest; dsimp only; split; apply State.raise_kept; apply State.setArb_kept; with_reducible assumption; apply Kept.ite
  apply State.bump_kept; apply State.setArb_kept; with_reducible assumption; with_reducible assumption

theorem withdrawAll_kept {s0 : State} {s : State} (a : ArbId) (p : Requester → Bool) (hs : Kept s0 s) :
    Kept s0 (withdrawAll s a p) := by
  unfold withdrawAll; dsimp only; apply Kept.ite; apply State.setArb_kept; apply Kept.foldl; intros; apply withdrawRequest_kept
  with_reducible assumption; with_reducible assumption; apply Kept.foldl; intros; apply withdrawRequest_kept; with_reducible assumption
  with_reducible assumption

theorem preemptArb_kept {s0 : State} {s : State} (a : ArbId) (hs : Kept s0 s) : Kept s0 (preemptArb s a) := by
  unfold preemptArb; dsimp only; apply State.bump_kept; apply State.setArb_kept; with_reducible assumption

theorem State.setRetry_kept {s0 : State} {s : State} (site : Nat) (lane : Nat) (v : Retry) (hs : Kept s0 s) :
    Kept s0 (State.setRetry s site lane v) := by
  unfold State.setRetry; apply Kept.mk; apply KeptC.fold; with_reducible assumption

theorem State.setMc_kept {s0 : State} {s : State} (m : Nat) (v : McSt) (hs : Kept s0 s) : Kept s0 (State.setMc s m v) := by
  unfold State.setMc; apply Kept.mk; apply KeptC.fold; with_reducible assumption

theorem fillSlot_kept {s0 : State} {s : State} (site : Nat) (lane : Nat) (w : BitVec 320) (hs : Kept s0 s) :
    Kept s0 (fillSlot s site lane w) := by
  unfold fillSlot; dsimp only; apply State.setRetry_kept; with_reducible assumption

theorem fillNull_kept {s0 : State} {s : State} (site : Nat) (lead : Nat) (w : List Nat) (p : Nat) (q : Nat) (hs : Kept s0 s) :
    Kept s0 (fillNull s site lead w p q) := by
  unfold fillNull; apply Kept.foldl; intros; apply fillSlot_kept; with_reducible assumption; with_reducible assumption

theorem sendAt_kept {s0 : State} {s : State} (site : Nat) (lead : Nat) (lane : Nat) (seq : BitVec 8) (f : Flit) (hs : Kept s0 s) :
    Kept s0 (sendAt s site lead lane seq f) := by
  unfold sendAt; dsimp only; apply State.send_kept; apply fillSlot_kept; apply fillNull_kept; apply State.setRetry_kept
  with_reducible assumption

theorem noteRest_kept {s0 : State} {s : State} (site : Nat) (lead : Nat) (b : Bool) (hs : Kept s0 s) :
    Kept s0 (noteRest s site lead b) := by
  unfold noteRest; dsimp only; apply State.setRetry_kept; with_reducible assumption

theorem leaveOne_kept {s0 : State} {s : State} (site : Nat) (lead : Nat) (hs : Kept s0 s) : Kept s0 (leaveOne s site lead) := by
  unfold leaveOne; dsimp only; apply fillNull_kept; apply State.setRetry_kept; with_reducible assumption

theorem sendOn_kept {s0 : State} {s9 : State} (site : Nat) (lead : Nat) (lane : Nat) (f : Flit) (hs : Kept s0 s9) :
    Kept s0 (sendOn s9 site lead lane f) := by
  unfold sendOn; dsimp only; apply noteRest_kept; apply sendAt_kept; apply State.setRetry_kept; apply leaveOne_kept
  with_reducible assumption

theorem pumpGroup_kept {s0 : State} {s : State} (site : Nat) (lead : Nat) (a3 : Nat) (hs : Kept s0 s) :
    Kept s0 (pumpGroup s site lead a3) := by
  induction a3 generalizing s site lead with | zero => ?_ | succ n9 ih => ?_
  all_goals unfold pumpGroup
  all_goals try dsimp only
  with_reducible assumption; split; with_reducible assumption; split; apply ih; apply sendOn_kept; apply State.setRetry_kept
  with_reducible assumption; with_reducible assumption

theorem drainWaiting_kept {s0 : State} {s : State} (site : Nat) (lead : Nat) (hs : Kept s0 s) : Kept s0 (drainWaiting s site lead) := by
  unfold drainWaiting; apply pumpGroup_kept; with_reducible assumption

theorem sendLoose_kept {s0 : State} {s : State} (site : Nat) (lead : Nat) (f : Flit) (hs : Kept s0 s) :
    Kept s0 (sendLoose s site lead f) := by
  unfold sendLoose; dsimp only; apply drainWaiting_kept; apply State.setRetry_kept; with_reducible assumption

theorem resendFlits_kept {s0 : State} {s : State} (site : Nat) (lane : Nat) (hs : Kept s0 s) : Kept s0 (resendFlits s site lane) := by
  unfold resendFlits; dsimp only; apply Kept.ite; with_reducible assumption; apply Kept.foldl; intros; apply noteRest_kept
  apply sendAt_kept; with_reducible assumption; apply State.bump_kept; apply State.setRetry_kept; with_reducible assumption

theorem sendLink_kept {s0 : State} {s : State} (site : Nat) (lane : Nat) (ackSeq : BitVec 8) (nak : Bool) (hs : Kept s0 s) :
    Kept s0 (sendLink s site lane ackSeq nak) := by
  unfold sendLink; apply sendAt_kept; with_reducible assumption

theorem sendSys_kept {s0 : State} {s : State} (site : Nat) (lead : Nat) (fields : Nat) (hs : Kept s0 s) :
    Kept s0 (sendSys s site lead fields) := by
  unfold sendSys; apply sendLoose_kept; with_reducible assumption

theorem creditDue_kept {s0 : State} {s : State} (x : Nat) (hs : Kept s0 s) : Kept s0 (creditDue s x) := by
  unfold creditDue; dsimp only; split; with_reducible assumption; split; apply State.setCtx_kept; with_reducible assumption
  apply sendLoose_kept; apply State.setCtx_kept; with_reducible assumption

theorem noteBuf_kept {s0 : State} {s : State} (x : Nat) (hs : Kept s0 s) : Kept s0 (noteBuf s x) := by
  unfold noteBuf; apply State.setFld_kept; with_reducible assumption

theorem popBuf_kept {s0 : State} {s : State} (x : Nat) (hs : Kept s0 s) : Kept s0 (popBuf s x) := by
  unfold popBuf; dsimp only; apply creditDue_kept; apply noteBuf_kept; apply State.setCtx_kept; with_reducible assumption

theorem drainDeliver_kept {s0 : State} {s : State} (x : Nat) (a2 : Nat) (hs : Kept s0 s) : Kept s0 (drainDeliver s x a2) := by
  induction a2 generalizing s x with | zero => ?_ | succ n9 ih => ?_
  all_goals unfold drainDeliver
  all_goals try dsimp only
  with_reducible assumption; split; with_reducible assumption; apply Kept.ite; apply ih; apply popBuf_kept; split; apply sendArrival_kept
  apply spendCredit_kept; apply endWait_kept; with_reducible assumption; with_reducible assumption; apply noteWait_kept
  with_reducible assumption

theorem reply_kept {s0 : State} {s : State} (x : Nat) (l : List Flit) (hs : Kept s0 s) : Kept s0 (reply s x l) := by
  unfold reply; dsimp only; apply State.setCtx_kept; with_reducible assumption

theorem sendCopy_kept {s0 : State} {s : State} (site : Nat) (lead : Nat) (x : Nat) (hs : Kept s0 s) :
    Kept s0 (sendCopy s site lead x) := by
  unfold sendCopy; dsimp only; split; with_reducible assumption; apply sendLoose_kept; apply State.setMc_kept; with_reducible assumption

theorem sendStream_kept {s0 : State} {s : State} (site : Nat) (lead : Nat) (x : Nat) (hs : Kept s0 s) :
    Kept s0 (sendStream s site lead x) := by
  unfold sendStream; dsimp only; split; split; apply sendLoose_kept; apply State.setTxLink_kept; with_reducible assumption
  with_reducible assumption; split; apply sendCopy_kept; with_reducible assumption; split; with_reducible assumption; apply sendLoose_kept
  apply Kept.ite; apply State.setCtx_kept; apply State.setFld_kept; with_reducible assumption; apply popBuf_kept; apply State.setFld_kept
  with_reducible assumption

theorem sendGranted_kept {s0 : State} {s : State} (a : ArbId) (hs : Kept s0 s) : Kept s0 (sendGranted s a) := by
  unfold sendGranted; split; apply sendStream_kept; apply serveArb_kept; with_reducible assumption; with_reducible assumption

theorem reloadCredits_kept {s0 : State} {s : State} (site : Nat) (lead : Nat) (hs : Kept s0 s) :
    Kept s0 (reloadCredits s site lead) := by
  unfold reloadCredits; dsimp only; apply Kept.foldl; intros; apply State.setMc_kept; with_reducible assumption; apply Kept.foldl; intros
  split; apply State.setFld_kept; with_reducible assumption; with_reducible assumption; apply Kept.foldl; intros; split
  apply State.setTxLink_kept; with_reducible assumption; with_reducible assumption; with_reducible assumption

theorem State.setRing_kept {s0 : State} {s : State} (r : Nat) (v : Ring) (hs : Kept s0 s) : Kept s0 (State.setRing s r v) := by
  unfold State.setRing; apply Kept.mk; apply KeptC.fold; with_reducible assumption

theorem writeAgain_kept {s0 : State} {s : State} (r : Nat) (gone : List Flit) (hs : Kept s0 s) : Kept s0 (writeAgain s r gone) := by
  unfold writeAgain; dsimp only; split; apply Kept.ite; apply Kept.ite; apply State.setRing_kept; with_reducible assumption
  apply reply_kept; apply State.setRing_kept; with_reducible assumption; with_reducible assumption; with_reducible assumption

theorem losePath_kept {s0 : State} (gone : List Flit) (site : Nat) (lead : Nat) {s : State} (r : Nat) (hs : Kept s0 s) :
    Kept s0 (losePath gone site lead s r) := by
  unfold losePath; dsimp only; apply Kept.ite; apply writeAgain_kept; apply State.mark_kept; with_reducible assumption
  with_reducible assumption

theorem clearRetry_kept {s0 : State} {s : State} (site : Nat) (lead : Nat) (hs : Kept s0 s) : Kept s0 (clearRetry s site lead) := by
  unfold clearRetry; dsimp only; apply Kept.foldl; intros; apply losePath_kept; with_reducible assumption; apply Kept.foldl; intros
  apply State.setRetry_kept; with_reducible assumption; with_reducible assumption

theorem settleAt_kept {s0 : State} {s : State} (q : QueueId) (hs : Kept s0 s) : Kept s0 (settleAt s q) := by
  unfold settleAt; apply settleQueue_kept; split; apply settleFuns_kept; with_reducible assumption; with_reducible assumption

theorem execDropRest_kept {s0 : State} (q : QueueId) {s : State} (hs : Kept s0 s) : KeptR s0 (execDropRest q s) := by
  unfold execDropRest; apply KeptR.next; apply Kept.ite; with_reducible assumption; apply dropRest_kept; apply settleAt_kept
  with_reducible assumption

theorem execInjection_kept {s0 : State} (k : ClusterIx) (q : Fin 16) {s : State} (hs : Kept s0 s) : KeptR s0 (execInjection k q s) := by
  unfold execInjection; dsimp only; apply KeptR.ite; apply KeptR.next; with_reducible assumption; apply KeptR.ite; apply KeptR.next
  apply noteWait_kept; with_reducible assumption; apply KeptR.ite; apply KeptR.next; apply hazard_kept; apply State.bump_kept
  apply settleQueue_kept; apply settlePort_kept; apply settleFuns_kept; apply State.at_kept; with_reducible assumption; apply KeptR.next
  apply Kept.mk; apply KeptC.fold; apply State.setCluster_kept; apply spendCredit_kept; apply endWait_kept; apply readQueue_kept
  apply settleQueue_kept; apply settlePort_kept; apply settleFuns_kept; apply State.at_kept; with_reducible assumption

theorem guardColumn_kept {s0 : State} {s : State} (k : Nat) (col : Nat) (hs : Kept s0 s) : Kept s0 (guardColumn s k col) := by
  unfold guardColumn; dsimp only; split; apply State.setLogic_kept; with_reducible assumption; split; apply State.setLogic_kept
  with_reducible assumption; apply State.setFld_kept; apply State.setFld_kept; apply State.setFld_kept; apply State.mark_kept
  apply State.setLogic_kept; with_reducible assumption

theorem applyFrame_kept {s0 : State} {s : State} (k : Nat) (words : List Word64) (hs : Kept s0 s) : Kept s0 (applyFrame s k words) := by
  unfold applyFrame; dsimp only; split; apply State.setLogic_kept; with_reducible assumption; apply guardColumn_kept
  apply State.setLogic_kept; with_reducible assumption; apply stageWrite_kept; apply stageWrite_kept; apply stageWrite_kept
  with_reducible assumption; apply State.setFld_kept; apply State.setFld_kept; apply State.setLogic_kept; with_reducible assumption

theorem finishFrame_kept {s0 : State} {s : State} (k : Nat) (hs : Kept s0 s) : Kept s0 (finishFrame s k) := by
  unfold finishFrame; dsimp only; split; with_reducible assumption; apply applyFrame_kept; apply State.bump_kept; apply State.setLogic_kept
  with_reducible assumption

theorem execFrameApplied_kept {s0 : State} (k : ClusterIx) {s : State} (hs : Kept s0 s) : KeptR s0 (execFrameApplied k s) := by
  unfold execFrameApplied; apply KeptR.next; apply finishFrame_kept; with_reducible assumption

theorem writeFrameLo_kept {s0 : State} {s : State} (k : Nat) (lo : Word32) (hs : Kept s0 s) : Kept s0 (writeFrameLo s k lo) := by
  unfold writeFrameLo; dsimp only; split; apply State.setLogic_kept; with_reducible assumption; split; apply State.setLogic_kept
  apply finishFrame_kept; apply State.setLogic_kept; with_reducible assumption; split; split; apply State.setLogic_kept
  with_reducible assumption; apply State.mark_kept; apply State.setLogic_kept; with_reducible assumption; apply State.mark_kept; split
  apply State.setLogic_kept; with_reducible assumption; apply State.mark_kept; apply State.setLogic_kept; with_reducible assumption

theorem execLogFrameLo_kept {s0 : State} (k : ClusterIx) (v : Word32) {s : State} (hs : Kept s0 s) :
    KeptR s0 (execLogFrameLo k v s) := by
  unfold execLogFrameLo; apply KeptR.next; apply Kept.ite; with_reducible assumption; apply writeFrameLo_kept; with_reducible assumption

theorem enterConfig_kept {s0 : State} {s : State} (k : Nat) (hs : Kept s0 s) : Kept s0 (enterConfig s k) := by
  unfold enterConfig; dsimp only; apply showPads_kept; apply State.setFld_kept; apply Kept.foldl; intros; apply Kept.ite; apply Kept.mk
  apply KeptC.fold; with_reducible assumption; with_reducible assumption; apply State.setLogic_kept; apply State.setFld_kept
  apply State.setFld_kept; with_reducible assumption

theorem execLogBegin_kept {s0 : State} (k : ClusterIx) {s : State} (hs : Kept s0 s) : KeptR s0 (execLogBegin k s) := by
  unfold execLogBegin; apply KeptR.ite; apply KeptR.next; with_reducible assumption; apply KeptR.ite; apply KeptR.next
  apply State.mark_kept; with_reducible assumption; apply KeptR.next; apply enterConfig_kept; with_reducible assumption

theorem execLogDone_kept {s0 : State} (k : ClusterIx) {s : State} (hs : Kept s0 s) : KeptR s0 (execLogDone k s) := by
  unfold execLogDone; dsimp only; apply KeptR.ite; apply KeptR.next; with_reducible assumption; apply KeptR.ite; apply KeptR.next
  apply State.setLogic_kept; apply State.setFld_kept; apply finishFrame_kept; with_reducible assumption; apply KeptR.next
  with_reducible assumption

theorem releaseBlock_kept {s0 : State} {s : State} (k : Nat) (hs : Kept s0 s) : Kept s0 (releaseBlock s k) := by
  unfold releaseBlock; dsimp only; apply showPads_kept; apply State.setLogic_kept; apply State.setFld_kept; with_reducible assumption

theorem purgeFed_kept {s0 : State} {s : State} (k : Nat) (hs : Kept s0 s) : Kept s0 (purgeFed s k) := by
  unfold purgeFed; apply Kept.foldl; intros; apply purgeQueue_kept; with_reducible assumption; apply settleAll_kept
  with_reducible assumption

theorem execBlockRelease_kept {s0 : State} (k : ClusterIx) {s : State} (hs : Kept s0 s) : KeptR s0 (execBlockRelease k s) := by
  unfold execBlockRelease; split; apply KeptR.next; apply releaseBlock_kept; apply purgeFed_kept; with_reducible assumption
  apply KeptR.next; with_reducible assumption

theorem purgeRegion_kept {s0 : State} {s9 : State} (r : Nat) (hs : Kept s0 s9) : Kept s0 (purgeRegion s9 r) := by
  unfold purgeRegion; dsimp only; apply Kept.mk; apply KeptC.fold; apply noteQueues_kept; with_reducible assumption

theorem startRegion_kept {s0 : State} {s : State} (r : Nat) (hs : Kept s0 s) : Kept s0 (startRegion s r) := by
  unfold startRegion; dsimp only; apply State.setRegion_kept; apply State.mark_kept; apply State.setFld_kept; apply purgeRegion_kept
  apply Kept.foldl; intros; apply settleAll_kept; with_reducible assumption; apply settleLinks_kept; apply Kept.foldl; intros
  apply enterConfig_kept; with_reducible assumption; with_reducible assumption

theorem execRgnStart_kept {s0 : State} (r : RegionIx) {s : State} (hs : Kept s0 s) : KeptR s0 (execRgnStart r s) := by
  unfold execRgnStart; apply KeptR.ite; apply KeptR.next; with_reducible assumption; apply KeptR.ite; apply KeptR.next
  apply State.mark_kept; with_reducible assumption; apply KeptR.next; apply startRegion_kept; with_reducible assumption

theorem execRgnRelease_kept {s0 : State} (r : RegionIx) {s : State} (hs : Kept s0 s) : KeptR s0 (execRgnRelease r s) := by
  unfold execRgnRelease; dsimp only; apply KeptR.ite; apply KeptR.next; with_reducible assumption; apply KeptR.ite; apply KeptR.next
  apply State.mark_kept; with_reducible assumption; apply KeptR.ite; apply KeptR.next; apply State.setRegion_kept; with_reducible assumption
  apply KeptR.next; with_reducible assumption

theorem releaseRegion_kept {s0 : State} {s : State} (r : Nat) (hs : Kept s0 s) : Kept s0 (releaseRegion s r) := by
  unfold releaseRegion; dsimp only; apply State.setRegion_kept; apply State.setFld_kept; apply Kept.foldl; intros; apply releaseBlock_kept
  with_reducible assumption; apply finishCommit_kept; apply purgeRegion_kept; apply Kept.foldl; intros; apply settleAll_kept
  with_reducible assumption; apply settleLinks_kept; with_reducible assumption

theorem execReconfigRelease_kept {s0 : State} (r : RegionIx) {s : State} (hs : Kept s0 s) : KeptR s0 (execReconfigRelease r s) := by
  unfold execReconfigRelease; dsimp only; split; apply KeptR.ite; apply KeptR.next; apply releaseRegion_kept; with_reducible assumption
  apply KeptR.next; with_reducible assumption; apply KeptR.next; with_reducible assumption

theorem portWrite_kept {s0 : State} {s : State} (k : Nat) (j : Nat) (q : QueueId) (b : Beat) (hs : Kept s0 s) :
    Kept s0 (portWrite s k j q b) := by
  unfold portWrite; dsimp only; apply sendArrival_kept; apply spendCredit_kept; apply State.drawn_kept; apply State.setLogic_kept
  apply State.setQueue_kept; apply chargeQueue_kept; with_reducible assumption

theorem execLogicPortWrite_kept {s0 : State} (k : ClusterIx) (j : Fin 4) (b : Beat) {s : State} (hs : Kept s0 s) :
    KeptR s0 (execLogicPortWrite k j b s) := by
  unfold execLogicPortWrite; dsimp only; split; apply KeptR.next; with_reducible assumption; apply KeptR.next; with_reducible assumption
  apply KeptR.ite; apply KeptR.next; with_reducible assumption; apply KeptR.ite; apply KeptR.next; apply settleAt_kept; apply portActs_kept
  with_reducible assumption; apply KeptR.ite; apply KeptR.next; apply portWrite_kept; apply settleAt_kept; apply portActs_kept
  with_reducible assumption; apply KeptR.ite; apply KeptR.next; apply settleAt_kept; apply portActs_kept; with_reducible assumption
  apply KeptR.next; apply State.setQueue_kept; apply settleAt_kept; apply portActs_kept; with_reducible assumption

theorem execLogicPortTake_kept {s0 : State} (k : ClusterIx) (j : Fin 4) {s : State} (hs : Kept s0 s) :
    KeptR s0 (execLogicPortTake k j s) := by
  unfold execLogicPortTake; dsimp only; split; apply KeptR.next; with_reducible assumption; apply KeptR.next; with_reducible assumption
  apply KeptR.ite; apply KeptR.next; with_reducible assumption; apply KeptR.next; apply State.setLogic_kept; apply readRanked_kept
  apply settleFuns_kept; apply portActs_kept; with_reducible assumption

theorem execWriteCreditWaitEnd_kept {s0 : State} (q : QueueId) {s : State} (hs : Kept s0 s) :
    KeptR s0 (execWriteCreditWaitEnd q s) := by
  unfold execWriteCreditWaitEnd; dsimp only; apply KeptR.ite; apply KeptR.next; with_reducible assumption; split; apply KeptR.ite
  apply KeptR.next; apply reissue_kept; apply State.bump_kept; apply State.bump_kept; with_reducible assumption; apply KeptR.next
  with_reducible assumption; apply KeptR.next; apply portWrite_kept; with_reducible assumption; apply KeptR.ite; apply KeptR.next
  apply applyBeat_kept; with_reducible assumption; split; apply KeptR.next; apply drainDeliver_kept; with_reducible assumption
  apply KeptR.next; with_reducible assumption

theorem bytePort_kept {s0 : State} {s : State} (k : Nat) (c : ByteCtl) (op : Nat) (b : Byte) (hs : Kept s0 s) :
    Kept s0 (bytePort s k c op b) := by
  unfold bytePort; dsimp only; apply Kept.ite; apply State.send_kept; apply Kept.mk; apply KeptC.fold; apply State.setLogic_kept
  apply playLogic_kept; with_reducible assumption; with_reducible assumption

theorem execBytePortStart_kept {s0 : State} (k : ClusterIx) (c : ByteCtl) {s : State} (hs : Kept s0 s) :
    KeptR s0 (execBytePortStart k c s) := by
  unfold execBytePortStart; apply KeptR.next; apply bytePort_kept; with_reducible assumption

theorem execBytePortWriteByte_kept {s0 : State} (k : ClusterIx) (c : ByteCtl) (b : Byte) {s : State} (hs : Kept s0 s) :
    KeptR s0 (execBytePortWriteByte k c b s) := by
  unfold execBytePortWriteByte; apply KeptR.next; apply bytePort_kept; with_reducible assumption

theorem execBytePortReadByte_kept {s0 : State} (k : ClusterIx) (c : ByteCtl) (ack : Bool) {s : State} (hs : Kept s0 s) :
    KeptR s0 (execBytePortReadByte k c ack s) := by
  unfold execBytePortReadByte; apply KeptR.next; apply bytePort_kept; with_reducible assumption

theorem execBytePortStop_kept {s0 : State} (k : ClusterIx) (c : ByteCtl) {s : State} (hs : Kept s0 s) :
    KeptR s0 (execBytePortStop k c s) := by
  unfold execBytePortStop; apply KeptR.next; apply bytePort_kept; with_reducible assumption

theorem execBytePortDone_kept {s0 : State} (d : DieIx) (c : ByteCtl) (resp : Byte) {s : State} (hs : Kept s0 s) :
    KeptR s0 (execBytePortDone d c resp s) := by
  unfold execBytePortDone; dsimp only; split; apply KeptR.next; with_reducible assumption; apply KeptR.next; apply State.setLogic_kept
  apply Kept.mk; apply KeptC.fold; apply playLogic_kept; with_reducible assumption

theorem execUfuseRead_kept {s0 : State} (d : DieIx) {s : State} (hs : Kept s0 s) : KeptR s0 (execUfuseRead d s) := by
  unfold execUfuseRead; dsimp only; apply KeptR.ite; apply KeptR.next; with_reducible assumption; apply KeptR.ite; apply KeptR.next
  with_reducible assumption; apply KeptR.next; apply Kept.ite; apply State.mark_kept; apply State.latch_kept; apply State.setFld_kept
  with_reducible assumption; apply State.latch_kept; apply State.setFld_kept; with_reducible assumption

theorem execUfuseProgram_kept {s0 : State} (d : DieIx) {s : State} (hs : Kept s0 s) : KeptR s0 (execUfuseProgram d s) := by
  unfold execUfuseProgram; dsimp only; apply KeptR.ite; apply KeptR.next; with_reducible assumption; apply KeptR.ite; apply KeptR.next
  with_reducible assumption; apply KeptR.ite; apply KeptR.next; apply State.mark_kept; with_reducible assumption; apply KeptR.next
  apply Kept.mk; apply KeptC.fold; apply State.mark_kept; with_reducible assumption

theorem execFuseProgramDone_kept {s0 : State} (d : DieIx) {s : State} (hs : Kept s0 s) : KeptR s0 (execFuseProgramDone d s) := by
  unfold execFuseProgramDone
  split
  · exact KeptR.next hs
  · exact KeptR.next ((State.setFld_kept (fFuseBusy d.val) 0 hs).fuses (by dsimp only) (by rw [State.setFld_fuses]; rfl) (by dsimp only) (by dsimp only))

theorem execGpioLevelChange_kept {s0 : State} (i : Fin 8) (level : Bool) {s : State} (hs : Kept s0 s) :
    KeptR s0 (execGpioLevelChange i level s) := by
  unfold execGpioLevelChange; dsimp only; apply KeptR.ite; apply KeptR.next; with_reducible assumption; apply KeptR.next
  apply State.setFld_kept; apply Kept.mk; apply KeptC.fold; split; apply playLogic_kept; with_reducible assumption
  with_reducible assumption

theorem State.setMemTile_kept {s0 s : State} (t : Nat) (m : Store) (hs : Kept s0 s) (hm : s.wf = true → m.wf = true) :
    Kept s0 (s.setMemTile t m) := by
  refine hs.trans ⟨rfl, rfl, fun w => ?_⟩
  have hmw := hm w
  simp only [State.wf, Bool.and_eq_true] at w ⊢
  exact ⟨⟨w.1.1, mwf_mset _ _ _ _ w.1.2⟩, all_mset _ _ _ _ _ w.2 (fun _ => hmw)⟩

theorem touchBlock_kept {s0 : State} {s : State} (t : Nat) (blk : Nat) (hs : Kept s0 s) : Kept s0 (touchBlock s t blk) := by
  unfold touchBlock; dsimp only; apply Kept.mk; apply KeptC.fold; with_reducible assumption

theorem noteUe_kept {s0 : State} {s : State} (t : Nat) (a : Nat) (hs : Kept s0 s) : Kept s0 (noteUe s t a) := by
  unfold noteUe; dsimp only; split; apply State.bump_kept; with_reducible assumption; apply State.mark_kept; apply State.setFld_kept
  apply State.setFld_kept; apply State.bump_kept; with_reducible assumption

theorem tileReadOver_kept {s0 : State} {s : State} (t : Nat) (w : Nat) (link : Option Bool) (hs : Kept s0 s) :
    Kept s0 (tileReadOver s t w link).2.2 := by
  unfold tileReadOver; dsimp only; split; dsimp only; apply State.bump_kept; apply touchBlock_kept; with_reducible assumption; dsimp only
  apply noteUe_kept; apply touchBlock_kept; with_reducible assumption; dsimp only; apply touchBlock_kept; with_reducible assumption

theorem tileRead_kept {s0 : State} {s : State} (t : Nat) (w : Nat) (hs : Kept s0 s) : Kept s0 (tileRead s t w).2.2 := by
  unfold tileRead; apply tileReadOver_kept; with_reducible assumption

theorem tileWrite_kept {s0 : State} {s : State} (t : Nat) (w : Nat) (v : Word64) (poison : Bool) (hs : Kept s0 s) :
    Kept s0 (tileWrite s t w v poison) := by
  unfold tileWrite
  refine State.setMemTile_kept _ _ (touchBlock_kept _ _ hs) (fun hw => ?_)
  have hm : (s.memTile t).wf = true := State.memTile_wf t hw
  split
  · exact Store.putPoison_wf w v hm
  · exact Store.put_wf w v hm

theorem spoilWords_kept {s0 : State} {s : State} (t : Nat) (w : Nat) (n : Nat) (link : LinkEcc) (hs : Kept s0 s) :
    Kept s0 (spoilWords s t w n link) := by
  unfold spoilWords
  refine State.setMemTile_kept _ _ hs (fun hw => ?_)
  refine foldl_keeps (fun m : Store => m.wf = true) (fun m i hm => ?_) (State.memTile_wf t hw)
  split
  · exact hm
  · simp only [Store.wf, Bool.and_eq_true] at hm ⊢
    exact ⟨hm.1, mwf_mset none _ _ _ hm.2⟩

theorem tileReads_kept {s0 : State} {s : State} (t : Nat) (link : LinkEcc) (a3 : Nat) (a4 : Nat) (a5 : Nat) (hs : Kept s0 s) :
    Kept s0 (tileReads s t link a3 a4 a5).2 := by
  induction a5 generalizing s t link a3 a4 with | zero => ?_ | succ n9 ih => ?_
  all_goals unfold tileReads
  all_goals try dsimp only
  with_reducible assumption; apply ih; apply tileReadOver_kept; with_reducible assumption

theorem execRefresh_kept {s0 : State} (t : MemIx) {s : State} (hs : Kept s0 s) : KeptR s0 (execRefresh t s) := by
  unfold execRefresh; apply KeptR.ite; apply KeptR.next; with_reducible assumption; apply KeptR.ite; apply KeptR.next
  with_reducible assumption; apply KeptR.next; apply State.bump_kept; apply preemptArb_kept; with_reducible assumption

theorem execRefreshRateRead_kept {s0 : State} (t : MemIx) (rate : BitVec 3) {s : State} (hs : Kept s0 s) :
    KeptR s0 (execRefreshRateRead t rate s) := by
  unfold execRefreshRateRead; dsimp only; apply KeptR.ite; apply KeptR.next; with_reducible assumption; apply KeptR.next; apply Kept.ite
  apply State.mark_kept; apply State.setFld_kept; with_reducible assumption; apply State.setFld_kept; with_reducible assumption

theorem scrubTile_kept {s0 : State} {s : State} (t : Nat) (hs : Kept s0 s) : Kept s0 (scrubTile s t) := by
  unfold scrubTile; apply State.setFld_kept; apply State.mark_kept; apply State.mark_kept; with_reducible assumption

theorem execScrubNow_kept {s0 : State} (t : MemIx) {s : State} (hs : Kept s0 s) : KeptR s0 (execScrubNow t s) := by
  unfold execScrubNow; apply KeptR.ite; apply KeptR.next; with_reducible assumption; apply KeptR.ite; apply KeptR.next; apply scrubTile_kept
  with_reducible assumption; apply KeptR.next; with_reducible assumption

theorem scrubMemWord_kept {s0 : State} (t : Nat) (b : Nat) (link : LinkEcc) {s9 : State} (i : Nat) (hs : Kept s0 s9) :
    Kept s0 (scrubMemWord t b link s9 i) := by
  unfold scrubMemWord
  dsimp only
  have ht : Kept s0 (touchBlock s9 t b) := touchBlock_kept _ _ hs
  split
  · exact State.bump_kept _ _ (State.setMemTile_kept _ _ ht (fun hw => Store.put_wf _ _ (State.memTile_wf t hw)))
  · exact noteUe_kept _ _ ht
  · exact ht

theorem patrolBlock_kept {s0 : State} {s : State} (t : Nat) (link : LinkEcc) (hs : Kept s0 s) : Kept s0 (patrolBlock s t link) := by
  unfold patrolBlock; dsimp only; apply Kept.ite; apply State.setFld_kept; apply State.setFld_kept; apply State.setFld_kept
  apply Kept.foldl; intros; apply scrubMemWord_kept; with_reducible assumption; with_reducible assumption; apply State.mark_kept
  apply State.setFld_kept; apply Kept.foldl; intros; apply scrubMemWord_kept; with_reducible assumption; with_reducible assumption

theorem execPatrolScrubRead_kept {s0 : State} (t : MemIx) {s : State} (hs : Kept s0 s) : KeptR s0 (execPatrolScrubRead t s) := by
  unfold execPatrolScrubRead; apply KeptR.ite; apply KeptR.next; apply patrolBlock_kept; with_reducible assumption; apply KeptR.next
  with_reducible assumption

theorem storeWrite_kept {s0 : State} {s : State} (k : Nat) (w : Nat) (v : Word64) (poison : Bool) (hs : Kept s0 s) :
    Kept s0 (storeWrite s k w v poison) := by
  unfold storeWrite; dsimp only; apply State.setCluster_kept; with_reducible assumption

theorem cacheWord_kept {s0 : State} {s : State} (r : Nat) (i : Nat) (hs : Kept s0 s) : Kept s0 (cacheWord s r i).2.2 := by
  unfold cacheWord; dsimp only; split; dsimp only; with_reducible assumption; dsimp only; apply State.drawn_kept; with_reducible assumption

theorem busRead_kept {s0 : State} {s : State} (a : Nat) (hs : Kept s0 s) : KeptO s0 ((busRead s a).map (fun p => p.2.2)) := by
  unfold busRead
  split
  · exact KeptO.some_map hs
  · exact KeptO.some_map (tileRead_kept _ _ hs)
  · exact KeptO.some_map (cacheWord_kept _ _ hs)
  · exact KeptO.none_map _ _

theorem busWrite_kept {s0 : State} {s : State} (a : Nat) (v : Word64) (poison : Bool) (hs : Kept s0 s) :
    KeptO s0 (busWrite s a v poison) := by
  unfold busWrite; split; apply KeptO.some; apply storeWrite_kept; with_reducible assumption; apply KeptO.some; apply tileWrite_kept
  with_reducible assumption; apply KeptO.some; with_reducible assumption; exact KeptO.none _

theorem loadLine_kept {s0 : State} {s : State} (r : Nat) (la : Nat) (way : Nat) (link : LinkEcc) (hs : Kept s0 s) :
    Kept s0 (loadLine s r la way link) := by
  unfold loadLine; dsimp only; apply State.setRegion_kept; apply tileReads_kept; with_reducible assumption

theorem deliverWords_kept {s0 : State} {s : State} (r : Nat) (la : Nat) (ws : List Nat) (hs : Kept s0 s) :
    Kept s0 (deliverWords s r la ws) := by
  unfold deliverWords; dsimp only; split; with_reducible assumption; split; apply State.bump_kept; apply State.bump_kept
  with_reducible assumption; apply State.setRegion_kept; apply State.bump_kept; apply State.bump_kept; with_reducible assumption

theorem takeLine_kept {s0 : State} {s : State} (r : Nat) (la : Nat) (ws : List Nat) (hs : Kept s0 s) :
    Kept s0 (takeLine s r la ws) := by
  unfold takeLine; dsimp only; apply deliverWords_kept; apply State.setRegion_kept; with_reducible assumption

theorem invalidateCache_kept {s0 : State} {s : State} (r : Nat) (hs : Kept s0 s) : Kept s0 (invalidateCache s r) := by
  unfold invalidateCache; dsimp only; apply State.mark_kept; apply State.setRegion_kept; with_reducible assumption

theorem execInvalidationDone_kept {s0 : State} (r : RegionIx) {s : State} (hs : Kept s0 s) : KeptR s0 (execInvalidationDone r s) := by
  unfold execInvalidationDone; apply KeptR.next; apply State.setFld_kept; with_reducible assumption

theorem State.setDesc_kept {s0 : State} {s : State} (r : Nat) (i : Nat) (d : Desc) (hs : Kept s0 s) :
    Kept s0 (State.setDesc s r i d) := by
  unfold State.setDesc; dsimp only; apply State.setRegion_kept; with_reducible assumption

theorem State.setHq_kept {s0 : State} {s : State} (r : Nat) (q : Nat) (l : List (BitVec 16)) (hs : Kept s0 s) :
    Kept s0 (State.setHq s r q l) := by
  unfold State.setHq; dsimp only; apply State.setRegion_kept; with_reducible assumption

theorem readSource_kept {s0 : State} {s : State} (r : Nat) (d : Desc) (x : List Word32) (p : Piece) (hs : Kept s0 s) :
    KeptO s0 ((readSource s r d x p).map (fun p => p.2.2)) := by
  unfold readSource
  dsimp only
  split
  · split
    · exact KeptO.some hs
    · exact KeptO.some (tileRead_kept _ _ hs)
    · exact KeptO.some hs
    · exact KeptO.none _
  · rw [Option.map_map]
    exact KeptO.map (fun _ => hs)

theorem putUnit_kept {s0 : State} {s : State} (g : Nat) (k : Nat) (w : Nat) (v : Word64) (poison : Bool) (hs : Kept s0 s) :
    Kept s0 (putUnit s g k w v poison) := by
  unfold putUnit; dsimp only; apply State.setUnit_kept; with_reducible assumption

theorem writeDest_kept {s0 : State} {s : State} (r : Nat) (d : Desc) (x : List Word32) (p : Piece) (v : Word64) (poison : Bool) (hs : Kept s0 s) :
    KeptO s0 (writeDest s r d x p v poison) := by
  unfold writeDest
  dsimp only
  split
  · split
    · exact KeptO.some (State.setRegion_kept _ _ (tileWrite_kept _ _ _ _ hs))
    · exact KeptO.some (storeWrite_kept _ _ _ _ hs)
    · exact KeptO.none _
  · exact KeptO.map (fun _ => storeWrite_kept _ _ _ _ hs)
  · exact KeptO.map (fun _ => storeWrite_kept _ _ _ _ hs)
  · exact KeptO.map (fun _ => putUnit_kept _ _ _ _ _ hs)

theorem releasePins_kept {s0 : State} {s : State} (r : Nat) (las : List Nat) (hs : Kept s0 s) : Kept s0 (releasePins s r las) := by
  unfold releasePins; apply State.setRegion_kept; with_reducible assumption

theorem withdrawDesc_kept {s0 : State} {s : State} (r : Nat) (i : Nat) (x : List Word32) (hs : Kept s0 s) :
    Kept s0 (withdrawDesc s r i x) := by
  unfold withdrawDesc; dsimp only; apply Kept.foldl; intros; apply withdrawRequest_kept; with_reducible assumption; split
  with_reducible assumption; apply withdrawRequest_kept; with_reducible assumption

theorem stopDesc_kept {s0 : State} {s9 : State} (r : Nat) (i : Nat) (code : Nat) (hs : Kept s0 s9) :
    Kept s0 (stopDesc s9 r i code) := by
  unfold stopDesc; dsimp only; apply State.setFld_kept; apply State.setFld_kept; apply State.setFld_kept; apply State.setDesc_kept
  apply releasePins_kept; apply State.setRegion_kept; split; apply withdrawDesc_kept; with_reducible assumption; with_reducible assumption

theorem startDesc_kept {s0 : State} {s : State} (r : Nat) (i : Nat) (x : List Word32) (hs : Kept s0 s) :
    Kept s0 (startDesc s r i x) := by
  unfold startDesc; dsimp only; split; apply stopDesc_kept; apply State.setDesc_kept; apply State.setFld_kept; apply State.mark_kept
  with_reducible assumption; apply Kept.ite; split; apply State.setDesc_kept; apply State.setHq_kept; apply State.setFld_kept
  apply State.mark_kept; with_reducible assumption; apply State.setDesc_kept; apply State.setFld_kept; apply State.mark_kept
  with_reducible assumption; apply State.setDesc_kept; apply State.setFld_kept; apply State.mark_kept; with_reducible assumption

theorem armDesc_kept {s0 : State} {s : State} (r : Nat) (i : Nat) (hs : Kept s0 s) : Kept s0 (armDesc s r i) := by
  unfold armDesc; dsimp only; apply Kept.ite; apply State.setFld_kept; with_reducible assumption; apply Kept.ite; with_reducible assumption
  apply Kept.ite; apply startDesc_kept; apply State.setFld_kept; apply State.setFld_kept; apply State.setDesc_kept
  with_reducible assumption; apply Kept.ite; apply State.mark_kept; apply State.mark_kept; apply State.setDesc_kept
  with_reducible assumption; apply State.mark_kept; apply State.setDesc_kept; with_reducible assumption

theorem execArm_kept {s0 : State} (r : RegionIx) (i : Fin 64) {s : State} (hs : Kept s0 s) : KeptR s0 (execArm r i s) := by
  unfold execArm; apply KeptR.next; apply Kept.ite; with_reducible assumption; apply armDesc_kept; with_reducible assumption

theorem finishDesc_kept {s0 : State} {s : State} (r : Nat) (i : Nat) (hs : Kept s0 s) : Kept s0 (finishDesc s r i) := by
  unfold finishDesc; dsimp only; split; apply startDesc_kept; apply State.setFld_kept; apply State.mark_kept; apply State.setFld_kept
  apply State.setDesc_kept; with_reducible assumption; apply State.mark_kept; apply State.setFld_kept; apply State.setDesc_kept
  with_reducible assumption

theorem pushHandle_kept {s0 : State} {s : State} (r : Nat) (q : Nat) (h : BitVec 16) (hs : Kept s0 s) :
    Kept s0 (pushHandle s r q h) := by
  unfold pushHandle; dsimp only; apply State.raise_kept; apply State.setHq_kept; with_reducible assumption

theorem sourceWord_kept {s0 : State} {s : State} (r : Nat) (d : Desc) (x : List Word32) (p : Piece) (hs : Kept s0 s) :
    KeptO s0 ((sourceWord s r d x p).map (fun p => p.2.2)) := by
  unfold sourceWord; split; apply readSource_kept; with_reducible assumption; apply KeptO.some_map; dsimp only; with_reducible assumption

theorem moveSource_kept {s0 : State} {s : State} (r : Nat) (d : Desc) (x : List Word32) (ps : List Piece) (hs : Kept s0 s) :
    KeptO s0 ((moveSource s r d x ps).map (fun p => p.2)) := by
  unfold moveSource
  dsimp only
  split
  · exact KeptO.some_map (readAt_kept _ _ _ _ hs)
  · refine foldl_keeps (fun (o : Option (List (Word64 × Bool) × State)) => KeptO s0 (o.map (fun p => p.2))) (fun y a hy => ?_)
      (show KeptO s0 (Option.map (fun p : List (Word64 × Bool) × State => p.2) (some ([], s))) from KeptO.some hs)
    cases y with
    | none => exact KeptO.none_map _ _
    | some y =>
      dsimp only
      rw [Option.map_map]
      exact sourceWord_kept _ _ _ _ (hy _ rfl)

theorem moveDest_kept {s0 : State} {s : State} (r : Nat) (d : Desc) (x : List Word32) (ps : List Piece) (ws : List (Word64 × Bool))
    (hs : Kept s0 s) : KeptO s0 (moveDest s r d x ps ws) := by
  unfold moveDest
  dsimp only
  split
  · refine KeptO.some (Kept.ite (sendArrival_kept _ _ _ _ _ (spendCredit_kept _ (endWait_kept _ _ hs))) hs)
  · refine foldl_keeps (fun o => KeptO s0 o) (fun y a hy => ?_) (KeptO.some hs)
    cases y with
    | none => exact KeptO.none _
    | some y =>
      dsimp only
      split
      · exact writeDest_kept _ _ _ _ _ _ (hy _ rfl)
      · exact KeptO.some (hy _ rfl)

theorem movePiece_kept {s0 : State} {s : State} (r : Nat) (i : Nat) (x : List Word32) (hs : Kept s0 s) :
    KeptO s0 ((movePiece s r i x).map (fun p => p.2)) := by
  unfold movePiece; dsimp only; split; split; apply KeptO.some_map; dsimp only; with_reducible assumption; split; apply KeptO.some_map
  dsimp only; apply noteWait_kept; with_reducible assumption; split; exact KeptO.none_map _ _; split; exact KeptO.none_map _ _; split
  exact KeptO.none_map _ _; apply KeptO.some_map; dsimp only; apply State.setFld_kept; apply State.setDesc_kept
  refine kept_of_some (by with_reducible assumption) ?_; apply moveDest_kept; apply State.bump_kept
  refine kept_of_optsnd (by with_reducible assumption) ?_; apply moveSource_kept; apply settleCluster_kept; with_reducible assumption; split
  apply KeptO.some_map; dsimp only; with_reducible assumption; split; apply KeptO.some_map; dsimp only; apply noteWait_kept
  with_reducible assumption; split; exact KeptO.none_map _ _; split; exact KeptO.none_map _ _; split; exact KeptO.none_map _ _
  apply KeptO.some_map; dsimp only; apply State.setFld_kept; apply State.setDesc_kept; refine kept_of_some (by with_reducible assumption) ?_
  apply moveDest_kept; apply State.bump_kept; refine kept_of_optsnd (by with_reducible assumption) ?_; apply moveSource_kept
  with_reducible assumption

theorem endStopping_kept {s0 : State} {s : State} (r : Nat) (i : Nat) (hs : Kept s0 s) : Kept s0 (endStopping s r i) := by
  unfold endStopping; split; apply Kept.ite; with_reducible assumption; apply stopDesc_kept; with_reducible assumption
  with_reducible assumption

theorem haltDesc_kept {s0 : State} {s : State} (r : Nat) (i : Nat) (code : Nat) (hs : Kept s0 s) : Kept s0 (haltDesc s r i code) := by
  unfold haltDesc; dsimp only; split; with_reducible assumption; apply Kept.ite; apply State.setDesc_kept; apply withdrawDesc_kept
  with_reducible assumption; apply stopDesc_kept; with_reducible assumption

theorem unpinDone_kept {s0 : State} {s : State} (r : Nat) (i : Nat) (hs : Kept s0 s) : Kept s0 (unpinDone s r i) := by
  unfold unpinDone; dsimp only; apply releasePins_kept; apply State.setDesc_kept; with_reducible assumption

theorem moveTo_kept {s0 : State} {s : State} (r : Nat) (i : Nat) (x : List Word32) (e : Nat) (a5 : Nat) (hs : Kept s0 s) :
    Kept s0 (moveTo s r i x e a5) := by
  induction a5 generalizing s r i x e with | zero => ?_ | succ n9 ih => ?_
  all_goals unfold moveTo
  all_goals try dsimp only
  with_reducible assumption; apply Kept.ite; with_reducible assumption; split; apply haltDesc_kept; with_reducible assumption; apply ih
  refine kept_of_optsnd (by with_reducible assumption) ?_; apply movePiece_kept; with_reducible assumption
  refine kept_of_optsnd (by with_reducible assumption) ?_; apply movePiece_kept; with_reducible assumption

theorem moveOn_kept {s0 : State} {s : State} (r : Nat) (i : Nat) (hs : Kept s0 s) : Kept s0 (moveOn s r i) := by
  unfold moveOn; dsimp only; split; with_reducible assumption; apply unpinDone_kept; apply moveTo_kept; with_reducible assumption

theorem completeDesc_kept {s0 : State} {s : State} (r : Nat) (i : Nat) (x : List Word32) (hs : Kept s0 s) :
    Kept s0 (completeDesc s r i x) := by
  unfold completeDesc; dsimp only; split; apply finishDesc_kept; with_reducible assumption; split; apply State.setDesc_kept
  with_reducible assumption; apply finishDesc_kept; apply pushHandle_kept; apply State.drawn_kept; with_reducible assumption

theorem execHandlePopWaitEnd_kept {s0 : State} (r : RegionIx) (i : Fin 64) {s : State} (hs : Kept s0 s) :
    KeptR s0 (execHandlePopWaitEnd r i s) := by
  unfold execHandlePopWaitEnd; dsimp only; split; split; apply KeptR.next; apply State.setDesc_kept; apply State.setHq_kept
  with_reducible assumption; apply KeptR.next; with_reducible assumption; apply KeptR.next; with_reducible assumption

theorem execHandlePushWaitEnd_kept {s0 : State} (r : RegionIx) (i : Fin 64) {s : State} (hs : Kept s0 s) :
    KeptR s0 (execHandlePushWaitEnd r i s) := by
  unfold execHandlePushWaitEnd; dsimp only; split; apply KeptR.next; split; apply completeDesc_kept; with_reducible assumption
  with_reducible assumption; apply KeptR.next; with_reducible assumption

theorem hqPush_kept {s0 : State} {s : State} (r : Nat) (q : Nat) (v : Word32) (hs : Kept s0 s) : Kept s0 (hqPush s r q v) := by
  unfold hqPush; split; apply State.mark_kept; with_reducible assumption; apply pushHandle_kept; with_reducible assumption

theorem execStrHqPush_kept {s0 : State} (r : RegionIx) (q : Fin 16) (v : Word32) {s : State} (hs : Kept s0 s) :
    KeptR s0 (execStrHqPush r q v s) := by
  unfold execStrHqPush; apply KeptR.next; apply Kept.ite; with_reducible assumption; apply hqPush_kept; with_reducible assumption

theorem hqPop_kept {s0 : State} {s : State} (r : Nat) (q : Nat) (hs : Kept s0 s) : Kept s0 (hqPop s r q).2 := by
  unfold hqPop; split; dsimp only; apply State.setHq_kept; with_reducible assumption; dsimp only; with_reducible assumption

theorem execStrHqPop_kept {s0 : State} (r : RegionIx) (q : Fin 16) {s : State} (hs : Kept s0 s) : KeptR s0 (execStrHqPop r q s) := by
  unfold execStrHqPop; dsimp only; apply KeptR.next; apply State.send_kept; split; dsimp only; with_reducible assumption; apply hqPop_kept
  with_reducible assumption

end Sys2Proof.Machine
end

