-- ==== Sys2Proof/Laws/KeptLanes.lean ====
section
/-!
SUPPORT. Laws/KeptLanes.lean: one lemma per operation: it keeps the waiting commands, the identity and the canonical form (Laws/Kept.lean):
lanes, waystations, locking, run ends, barriers and the timekeeper.
-/
set_option linter.unusedVariables false
namespace Sys2Proof.Machine

theorem setStatus_kept {s0 : State} {s : State} (r : Nat) (i : Nat) (q : LineReq) (st : ReqStatus) (hs : Kept s0 s) :
    Kept s0 (setStatus s r i q st) := by
  unfold setStatus; dsimp only; apply State.setDesc_kept; with_reducible assumption

theorem deliverReq_kept {s0 : State} {s : State} (r : Nat) (i : Nat) (q : LineReq) (hs : Kept s0 s) : Kept s0 (deliverReq s r i q) := by
  unfold deliverReq; dsimp only; apply takeLine_kept; apply State.setDesc_kept; with_reducible assumption

theorem answerReq_kept {s0 : State} {s : State} (r : Nat) (i : Nat) (q : LineReq) (hs : Kept s0 s) : Kept s0 (answerReq s r i q) := by
  unfold answerReq; apply moveOn_kept; apply deliverReq_kept; with_reducible assumption

theorem missLine_kept {s0 : State} {s : State} (r : Nat) (i : Nat) (q : LineReq) (hs : Kept s0 s) : Kept s0 (missLine s r i q) := by
  unfold missLine; dsimp only; apply Kept.ite; apply setStatus_kept; with_reducible assumption; split; apply setStatus_kept
  with_reducible assumption; apply setStatus_kept; apply State.bump_kept; apply State.setRegion_kept; with_reducible assumption

theorem abandonMiss_kept {s0 : State} {s : State} (r : Nat) (hs : Kept s0 s) : Kept s0 (abandonMiss s r) := by
  unfold abandonMiss; dsimp only; split; apply Kept.ite; apply State.setRegion_kept; apply State.setRegion_kept; apply State.setDesc_kept
  with_reducible assumption; with_reducible assumption; with_reducible assumption

theorem beginAccess_kept {s0 : State} {s : State} (r : Nat) (hs : Kept s0 s) : Kept s0 (beginAccess s r) := by
  unfold beginAccess; dsimp only; apply State.setRegion_kept; with_reducible assumption

theorem readAccess_kept {s0 : State} {s : State} (r : Nat) (i : Nat) (q : LineReq) (hs : Kept s0 s) : Kept s0 (readAccess s r i q) := by
  unfold readAccess; apply Kept.ite; apply endStopping_kept; apply answerReq_kept; apply State.bump_kept; with_reducible assumption
  apply Kept.ite; apply endStopping_kept; with_reducible assumption; apply missLine_kept; with_reducible assumption

theorem writeLine_kept {s0 : State} {s : State} (r : Nat) (i : Nat) (x : List Word32) (a4 : Nat) (hs : Kept s0 s) :
    Kept s0 (writeLine s r i x a4).2 := by
  induction a4 generalizing s r i x with | zero => ?_ | succ n9 ih => ?_
  all_goals unfold writeLine
  all_goals try dsimp only
  with_reducible assumption; split; split; split; dsimp only; apply ih; refine kept_of_optsnd (by with_reducible assumption) ?_
  apply movePiece_kept; with_reducible assumption; dsimp only; refine kept_of_optsnd (by with_reducible assumption) ?_; apply movePiece_kept
  with_reducible assumption; split; dsimp only; apply ih; refine kept_of_optsnd (by with_reducible assumption) ?_; apply movePiece_kept
  with_reducible assumption; dsimp only; refine kept_of_optsnd (by with_reducible assumption) ?_; apply movePiece_kept
  with_reducible assumption; dsimp only; refine kept_of_optsnd (by with_reducible assumption) ?_; apply movePiece_kept
  with_reducible assumption; dsimp only; apply haltDesc_kept; with_reducible assumption

theorem spoilAt_kept {s0 : State} {s : State} (a : Nat) (n : Nat) (link : LinkEcc) (hs : Kept s0 s) : Kept s0 (spoilAt s a n link) := by
  unfold spoilAt; split; apply spoilWords_kept; with_reducible assumption; with_reducible assumption

theorem writeAccess_kept {s0 : State} {s : State} (r : Nat) (i : Nat) (t : Nat) (link : LinkEcc) (hs : Kept s0 s) :
    Kept s0 (writeAccess s r i t link) := by
  unfold writeAccess; dsimp only; split; with_reducible assumption; apply Kept.ite; apply endStopping_kept; apply unpinDone_kept
  apply State.bump_kept; apply spoilAt_kept; apply writeLine_kept; apply beginAccess_kept; apply serveArb_kept; apply serveArb_kept
  with_reducible assumption; with_reducible assumption

theorem chargePin_kept {s0 : State} {s : State} (r : Nat) (i : Nat) (q : LineReq) (hs : Kept s0 s) : Kept s0 (chargePin s r i q) := by
  unfold chargePin; split; apply setStatus_kept; apply State.bump_kept; with_reducible assumption; with_reducible assumption

theorem chargePins_kept {s0 : State} {s : State} (r : Nat) (hs : Kept s0 s) : Kept s0 (chargePins s r) := by
  unfold chargePins; apply Kept.foldl; intros; apply Kept.foldl; intros; apply chargePin_kept; with_reducible assumption
  with_reducible assumption; with_reducible assumption

theorem retryPin_kept {s0 : State} (r : Nat) (i : Nat) {s : State} (q : LineReq) (hs : Kept s0 s) : Kept s0 (retryPin r i s q) := by
  unfold retryPin; split; apply Kept.ite; apply answerReq_kept; apply State.bump_kept; with_reducible assumption; apply missLine_kept
  with_reducible assumption; with_reducible assumption

theorem retryPins_kept {s0 : State} {s : State} (r : Nat) (hs : Kept s0 s) : Kept s0 (retryPins s r) := by
  unfold retryPins; dsimp only; apply Kept.foldl; intros; apply Kept.foldl; intros; apply retryPin_kept; with_reducible assumption
  with_reducible assumption; apply chargePins_kept; with_reducible assumption

theorem execCacheAccess_kept {s0 : State} (rx : RegionIx) (addr : BitVec 48) (write : Bool) {s : State} (hs : Kept s0 s) :
    KeptR s0 (execCacheAccess rx addr write s) := by
  unfold execCacheAccess; dsimp only; split; apply KeptR.next; with_reducible assumption; split; apply KeptR.next; with_reducible assumption
  split; apply KeptR.ite; apply KeptR.next; apply retryPins_kept; apply readAccess_kept; apply beginAccess_kept; apply serveArb_kept
  with_reducible assumption; apply KeptR.next; with_reducible assumption; apply KeptR.ite; apply KeptR.next; apply retryPins_kept
  apply writeAccess_kept; with_reducible assumption; apply KeptR.next; with_reducible assumption; apply KeptR.next
  with_reducible assumption

theorem serveWaiters_kept {s0 : State} {s : State} (r : Nat) (la : Nat) (hs : Kept s0 s) : Kept s0 (serveWaiters s r la) := by
  unfold serveWaiters; dsimp only; apply Kept.foldl; intros; apply endStopping_kept; apply moveOn_kept; with_reducible assumption
  apply Kept.foldl; intros; apply Kept.foldl; intros; apply deliverReq_kept; with_reducible assumption; with_reducible assumption
  with_reducible assumption

theorem execCacheFill_kept {s0 : State} (rx : RegionIx) (fill : FillRead) {s : State} (hs : Kept s0 s) :
    KeptR s0 (execCacheFill rx fill s) := by
  unfold execCacheFill; dsimp only; split; apply KeptR.next; with_reducible assumption; apply KeptR.ite; apply KeptR.next
  apply retryPins_kept; apply serveWaiters_kept; apply loadLine_kept; apply State.bump_kept; apply serveArb_kept; apply State.setRegion_kept
  with_reducible assumption; apply KeptR.next; with_reducible assumption

theorem execTileRequest_kept {s0 : State} (rx : RegionIx) (ix : Fin 64) {s : State} (hs : Kept s0 s) :
    KeptR s0 (execTileRequest rx ix s) := by
  unfold execTileRequest; dsimp only; split; apply KeptR.next; with_reducible assumption; apply KeptR.ite; apply KeptR.next
  with_reducible assumption; apply KeptR.ite; apply KeptR.next; apply retryPins_kept; apply Kept.ite; apply moveOn_kept
  with_reducible assumption; with_reducible assumption; split; apply KeptR.next; apply retryPins_kept; apply haltDesc_kept; apply Kept.ite
  apply moveOn_kept; with_reducible assumption; with_reducible assumption; apply KeptR.next; apply retryPins_kept; apply State.setDesc_kept
  apply Kept.ite; apply moveOn_kept; with_reducible assumption; with_reducible assumption

theorem execTransferComplete_kept {s0 : State} (rx : RegionIx) (ix : Fin 64) {s : State} (hs : Kept s0 s) :
    KeptR s0 (execTransferComplete rx ix s) := by
  unfold execTransferComplete; dsimp only; split; apply KeptR.next; with_reducible assumption; apply KeptR.ite; apply KeptR.next
  with_reducible assumption; apply KeptR.ite; apply KeptR.next; apply completeDesc_kept; apply retryPins_kept; apply moveOn_kept
  apply moveOn_kept; with_reducible assumption; apply KeptR.next; apply retryPins_kept; apply moveOn_kept; apply moveOn_kept
  with_reducible assumption

theorem execInvalidate_kept {s0 : State} (r : RegionIx) {s : State} (hs : Kept s0 s) : KeptR s0 (execInvalidate r s) := by
  unfold execInvalidate; apply KeptR.next; apply Kept.ite; with_reducible assumption; apply retryPins_kept; apply invalidateCache_kept
  with_reducible assumption

theorem abortDesc_kept {s0 : State} {s : State} (r : Nat) (i : Nat) (hs : Kept s0 s) : Kept s0 (abortDesc s r i) := by
  unfold abortDesc; split; with_reducible assumption; apply retryPins_kept; apply haltDesc_kept; with_reducible assumption

theorem execAbort_kept {s0 : State} (r : RegionIx) (i : Fin 64) {s : State} (hs : Kept s0 s) : KeptR s0 (execAbort r i s) := by
  unfold execAbort; apply KeptR.next; apply Kept.ite; with_reducible assumption; apply abortDesc_kept; with_reducible assumption

theorem setLaneState_kept {s0 : State} {s : State} (site : Nat) (lane : Nat) (tx : Bool) (v : Nat) (hs : Kept s0 s) :
    Kept s0 (setLaneState s site lane tx v) := by
  unfold setLaneState; dsimp only; split; apply State.setFld_kept; apply State.setFld_kept; with_reducible assumption
  apply State.setFld_kept; with_reducible assumption

theorem beginTraining_kept {s0 : State} {s : State} (site : Nat) (lane : Nat) (tx : Bool) (hs : Kept s0 s) :
    Kept s0 (beginTraining s site lane tx) := by
  unfold beginTraining; dsimp only; apply Kept.ite; apply setLaneState_kept; apply State.setLane_kept; with_reducible assumption
  apply Kept.ite; apply setLaneState_kept; apply State.setLane_kept; with_reducible assumption; apply State.mark_kept
  apply setLaneState_kept; apply State.setLane_kept; with_reducible assumption

theorem startLane_kept {s0 : State} {s : State} (site : Nat) (lane : Nat) (tx0 : Bool) (hs : Kept s0 s) :
    Kept s0 (startLane s site lane tx0) := by
  unfold startLane; dsimp only; apply Kept.ite; apply beginTraining_kept; with_reducible assumption; with_reducible assumption

theorem voidMeasure_kept {s0 : State} {s : State} (site : Nat) (lane : Nat) (hs : Kept s0 s) : Kept s0 (voidMeasure s site lane) := by
  unfold voidMeasure; dsimp only; split; apply State.setWay_kept; apply State.setFld_kept; with_reducible assumption
  with_reducible assumption

theorem noteGroup_kept {s0 : State} {s : State} (site : Nat) (lane : Nat) (hs : Kept s0 s) : Kept s0 (noteGroup s site lane) := by
  unfold noteGroup; dsimp only; split; apply State.setFld_kept; with_reducible assumption; with_reducible assumption

theorem breakFrame_kept {s0 : State} {s : State} (site : Nat) (lane : Nat) (hs : Kept s0 s) : Kept s0 (breakFrame s site lane) := by
  unfold breakFrame; dsimp only; split; apply State.bump_kept; apply State.setWay_kept; with_reducible assumption; with_reducible assumption

theorem cutLane_kept {s0 : State} {s : State} (site : Nat) (lane : Nat) (tx : Bool) (hs : Kept s0 s) :
    Kept s0 (cutLane s site lane tx) := by
  unfold cutLane; apply Kept.ite; with_reducible assumption; apply voidMeasure_kept; apply breakFrame_kept; with_reducible assumption

theorem darken_kept {s0 : State} {s : State} (site : Nat) (lane : Nat) (tx : Bool) (hs : Kept s0 s) :
    Kept s0 (darken s site lane tx) := by
  unfold darken; apply noteGroup_kept; apply cutLane_kept; apply setLaneState_kept; with_reducible assumption

theorem startPair_kept {s0 : State} (site : Nat) {s : State} (j : Nat) (hs : Kept s0 s) : Kept s0 (startPair site s j) := by
  unfold startPair; dsimp only; apply startLane_kept; apply setLaneState_kept; apply State.setLane_kept; with_reducible assumption

theorem notePair_kept {s0 : State} {old : State} {s : State} (site : Nat) (lane : Nat) (hs : Kept s0 old) (hs2 : Kept s0 s) :
    Kept s0 (notePair old s site lane) := by
  unfold notePair; dsimp only; apply Kept.ite; with_reducible assumption; apply Kept.ite; apply Kept.foldl; intros; apply startPair_kept
  with_reducible assumption; apply State.setLane_kept; apply State.setFld_kept; with_reducible assumption; apply Kept.foldl; intros
  apply State.setFld_kept; with_reducible assumption; apply State.setLane_kept; apply State.setFld_kept; with_reducible assumption

theorem bringDropped_kept {s0 : State} {s : State} (site : Nat) (lane : Nat) (hs : Kept s0 s) : Kept s0 (bringDropped s site lane) := by
  unfold bringDropped; apply Kept.foldl; intros; apply beginTraining_kept; with_reducible assumption; with_reducible assumption

theorem retrain_kept {s0 : State} {s : State} (site : Nat) (lane : Nat) (tx0 : Bool) (hs : Kept s0 s) :
    Kept s0 (retrain s site lane tx0) := by
  unfold retrain; dsimp only; apply Kept.ite; with_reducible assumption; apply Kept.ite; apply noteGroup_kept; apply cutLane_kept
  apply Kept.ite; apply setLaneState_kept; apply State.setLane_kept; with_reducible assumption; apply State.bump_kept
  apply setLaneState_kept; apply State.setLane_kept; with_reducible assumption; apply Kept.ite; apply beginTraining_kept
  with_reducible assumption; with_reducible assumption

theorem execLaneSignalPresent_kept {s0 : State} (l : LaneId) {s : State} (hs : Kept s0 s) : KeptR s0 (execLaneSignalPresent l s) := by
  unfold execLaneSignalPresent; dsimp only; apply KeptR.ite; apply KeptR.next; with_reducible assumption; apply KeptR.ite; apply KeptR.next
  apply beginTraining_kept; with_reducible assumption; apply KeptR.next; with_reducible assumption

theorem setWidth_kept {s0 : State} {s : State} (site : Nat) (lead : Nat) (hs : Kept s0 s) : Kept s0 (setWidth s site lead) := by
  unfold setWidth; dsimp only; apply State.setFld_kept; with_reducible assumption

theorem handOver_kept {s0 : State} {s : State} (site : Nat) (lead : Nat) (lanes : List Nat) (hs : Kept s0 s) :
    Kept s0 (handOver s site lead lanes) := by
  unfold handOver; dsimp only; apply State.setRetry_kept; apply Kept.foldl; intros; apply State.setRetry_kept; with_reducible assumption
  with_reducible assumption

theorem dropLane_kept {s0 : State} (site : Nat) {s : State} (lane : Nat) (hs : Kept s0 s) : Kept s0 (dropLane site s lane) := by
  unfold dropLane; dsimp only; apply setLaneState_kept; apply State.setLane_kept; with_reducible assumption

theorem goOnAt_kept {s0 : State} {s : State} (site : Nat) (lead : Nat) (w : Nat) (hs : Kept s0 s) : Kept s0 (goOnAt s site lead w) := by
  unfold goOnAt; dsimp only; apply sendSys_kept; apply handOver_kept; apply Kept.foldl; intros; apply resendFlits_kept
  with_reducible assumption; apply Kept.foldl; intros; apply dropLane_kept; with_reducible assumption; apply State.mark_kept
  apply State.setFld_kept; with_reducible assumption

theorem restripeGroup_kept {s0 : State} {s : State} (site : Nat) (lead : Nat) (hs : Kept s0 s) :
    Kept s0 (restripeGroup s site lead) := by
  unfold restripeGroup; apply goOnAt_kept; with_reducible assumption

theorem resetGroup_kept {s0 : State} {s : State} (site : Nat) (lead : Nat) (hs : Kept s0 s) : Kept s0 (resetGroup s site lead) := by
  unfold resetGroup
  extract_lets s1 k s2 s3
  have h2 : Kept s0 s2 := Kept.mk (KeptC.fold (reloadCredits_kept _ _ (clearRetry_kept _ _ hs)))
  have h3 : Kept s0 s3 := Kept.foldl (fun _ _ h => retrain_kept _ _ _ h) h2
  exact State.setFld_kept _ _ (State.bump_kept _ _ (State.setFld_kept _ _ h3))

theorem narrowSenders_kept {s0 : State} {s : State} (site : Nat) (lead : Nat) (hs : Kept s0 s) :
    Kept s0 (narrowSenders s site lead) := by
  unfold narrowSenders; dsimp only; apply Kept.foldl; intros; apply setLaneState_kept; apply State.setLane_kept; with_reducible assumption
  apply State.setLane_kept; with_reducible assumption

theorem widenSenders_kept {s0 : State} {s : State} (site : Nat) (lane : Nat) (hs : Kept s0 s) : Kept s0 (widenSenders s site lane) := by
  unfold widenSenders; dsimp only; apply Kept.ite; with_reducible assumption; apply State.setLane_kept; with_reducible assumption

theorem laneFailed_kept {s0 : State} {s : State} (site : Nat) (lane : Nat) (hs : Kept s0 s) : Kept s0 (laneFailed s site lane) := by
  unfold laneFailed; dsimp only; apply Kept.ite; apply Kept.ite; apply narrowSenders_kept; with_reducible assumption
  with_reducible assumption; apply Kept.ite; apply State.bump_kept; apply reloadCredits_kept; apply clearRetry_kept
  with_reducible assumption; apply Kept.ite; apply restripeGroup_kept; with_reducible assumption; with_reducible assumption

theorem alignLane_kept {s0 : State} {s : State} (site : Nat) (lead : Nat) (lane : Nat) (hs : Kept s0 s) :
    Kept s0 (alignLane s site lead lane) := by
  unfold alignLane; dsimp only; apply State.setRetry_kept; with_reducible assumption

theorem pairUp_kept {s0 : State} {s9 : State} (site : Nat) (lane : Nat) (hs : Kept s0 s9) : Kept s0 (pairUp s9 site lane) := by
  unfold pairUp; dsimp only; apply Kept.ite; apply drainWaiting_kept; apply State.setFld_kept; apply Kept.ite; apply restripeGroup_kept
  apply alignLane_kept; with_reducible assumption; apply setWidth_kept; apply alignLane_kept; with_reducible assumption; apply sendSys_kept
  apply State.setFld_kept; apply Kept.ite; apply restripeGroup_kept; apply alignLane_kept; with_reducible assumption; apply setWidth_kept
  apply alignLane_kept; with_reducible assumption

theorem execLaneUp_kept {s0 : State} (l : LaneId) {s : State} (hs : Kept s0 s) : KeptR s0 (execLaneUp l s) := by
  unfold execLaneUp; dsimp only; apply KeptR.ite; apply KeptR.next; with_reducible assumption; apply KeptR.ite; apply KeptR.ite
  apply KeptR.next; apply pairUp_kept; apply setLaneState_kept; with_reducible assumption; apply KeptR.ite; apply KeptR.next
  apply State.setWay_kept; apply State.setFld_kept; apply setLaneState_kept; with_reducible assumption; apply KeptR.next; apply Kept.ite
  apply widenSenders_kept; apply setLaneState_kept; with_reducible assumption; apply setLaneState_kept; with_reducible assumption
  apply KeptR.next; with_reducible assumption

theorem execTrainingAttemptFailed_kept {s0 : State} (l : LaneId) {s : State} (hs : Kept s0 s) :
    KeptR s0 (execTrainingAttemptFailed l s) := by
  unfold execTrainingAttemptFailed; dsimp only; apply KeptR.ite; apply KeptR.next; with_reducible assumption; apply KeptR.ite
  apply KeptR.ite; apply KeptR.next; apply State.setLane_kept; with_reducible assumption; apply KeptR.next; apply laneFailed_kept
  apply setLaneState_kept; apply State.setLane_kept; with_reducible assumption; apply KeptR.next; with_reducible assumption

theorem execMarginMeasurement_kept {s0 : State} (l : LaneId) (h : BitVec 6) (v : BitVec 6) {s : State} (hs : Kept s0 s) :
    KeptR s0 (execMarginMeasurement l h v s) := by
  unfold execMarginMeasurement; dsimp only; apply KeptR.ite; apply KeptR.next; with_reducible assumption; apply KeptR.ite; apply KeptR.next
  with_reducible assumption; apply KeptR.ite; apply KeptR.next; apply State.setLane_kept; apply State.lower_kept; apply State.lower_kept
  apply State.setFld_kept; apply State.setFld_kept; with_reducible assumption; apply KeptR.next; apply Kept.ite; apply retrain_kept
  apply State.mark_kept; apply State.setLane_kept; apply State.lower_kept; apply State.lower_kept; apply State.setFld_kept
  apply State.setFld_kept; with_reducible assumption; apply State.mark_kept; apply State.setLane_kept; apply State.lower_kept
  apply State.lower_kept; apply State.setFld_kept; apply State.setFld_kept; with_reducible assumption

theorem execLossOfLock_kept {s0 : State} (l : LaneId) {s : State} (hs : Kept s0 s) : KeptR s0 (execLossOfLock l s) := by
  unfold execLossOfLock; dsimp only; apply KeptR.ite; apply KeptR.next; with_reducible assumption; apply KeptR.ite; apply KeptR.next
  with_reducible assumption; apply KeptR.ite; apply KeptR.next; apply State.setLane_kept; apply breakFrame_kept; apply State.mark_kept
  with_reducible assumption; apply KeptR.next; apply retrain_kept; apply breakFrame_kept; apply State.mark_kept; with_reducible assumption

theorem execLockRecovered_kept {s0 : State} (l : LaneId) {s : State} (hs : Kept s0 s) : KeptR s0 (execLockRecovered l s) := by
  unfold execLockRecovered; dsimp only; apply KeptR.ite; apply KeptR.next; with_reducible assumption; apply KeptR.next
  apply State.setLane_kept; with_reducible assumption

theorem requestTrain_kept {s0 : State} {s : State} (site : Nat) (lane : Nat) (tx : Bool) (hs : Kept s0 s) :
    Kept s0 (requestTrain s site lane tx) := by
  unfold requestTrain; dsimp only; apply Kept.ite; apply State.mark_kept; with_reducible assumption; apply Kept.ite; apply Kept.foldl
  intros; apply retrain_kept; with_reducible assumption; with_reducible assumption; apply bringDropped_kept; apply retrain_kept
  with_reducible assumption

theorem execTrain_kept {s0 : State} (l : LaneId) {s : State} (hs : Kept s0 s) : KeptR s0 (execTrain l s) := by
  unfold execTrain; apply KeptR.ite; apply KeptR.next; with_reducible assumption; apply KeptR.ite; apply KeptR.next; apply requestTrain_kept
  with_reducible assumption; apply KeptR.next; with_reducible assumption

theorem loosenLanes_kept {s0 : State} {before : State} {s : State} (hs : Kept s0 before) (hs2 : Kept s0 s) :
    Kept s0 (loosenLanes before s) := by
  unfold loosenLanes; dsimp only; apply Kept.foldl; intros; split; apply retrain_kept; apply State.setLane_kept; with_reducible assumption
  with_reducible assumption; with_reducible assumption

theorem retrainOctet_kept {s0 : State} {s : State} (site : Nat) (o : Nat) (hs : Kept s0 s) : Kept s0 (retrainOctet s site o) := by
  unfold retrainOctet; apply Kept.foldl; intros; apply retrain_kept; apply retrain_kept; with_reducible assumption
  with_reducible assumption

theorem noteLead_kept {s0 : State} {old : State} (site : Nat) {s : State} (lane : Nat) (hs : Kept s0 old) (hs3 : Kept s0 s) :
    Kept s0 (noteLead old site s lane) := by
  unfold noteLead; dsimp only; apply Kept.ite; apply Kept.ite; apply notePair_kept; with_reducible assumption; apply State.setLane_kept
  with_reducible assumption; apply State.mark_kept; apply notePair_kept; with_reducible assumption; apply State.setLane_kept
  with_reducible assumption; with_reducible assumption

theorem writeBond_kept {s0 : State} {s : State} (site : Nat) (v : Word32) (hs : Kept s0 s) : Kept s0 (writeBond s site v) := by
  unfold writeBond; dsimp only; apply Kept.ite; apply Kept.foldl; intros; apply Kept.ite; apply retrainOctet_kept; with_reducible assumption
  apply Kept.foldl; intros; apply retrain_kept; with_reducible assumption; with_reducible assumption; apply Kept.foldl; intros
  apply noteLead_kept; with_reducible assumption; with_reducible assumption; apply State.setRaw_kept; with_reducible assumption
  apply Kept.foldl; intros; apply State.mark_kept; with_reducible assumption; with_reducible assumption

theorem execLnkBondWrite_kept {s0 : State} (site : SiteIx) (v : Word32) {s : State} (hs : Kept s0 s) :
    KeptR s0 (execLnkBondWrite site v s) := by
  unfold execLnkBondWrite; apply KeptR.ite; apply KeptR.next; with_reducible assumption; apply KeptR.ite; apply KeptR.next
  with_reducible assumption; apply KeptR.next; apply writeBond_kept; with_reducible assumption

theorem execLaserPowerChange_kept {s0 : State} (site : SiteIx) (fibre2 : Bool) (power : Option (BitVec 9)) {s : State} (hs : Kept s0 s) :
    KeptR s0 (execLaserPowerChange site fibre2 power s) := by
  unfold execLaserPowerChange; dsimp only; apply KeptR.ite; apply KeptR.next; with_reducible assumption; apply KeptR.next; apply Kept.foldl
  intros; apply Kept.ite; apply noteGroup_kept; apply setLaneState_kept; apply State.setFld_kept; with_reducible assumption
  apply startLane_kept; apply State.setFld_kept; with_reducible assumption; apply Kept.ite; apply State.mark_kept; apply Kept.ite
  apply State.mark_kept; apply State.setFld_kept; with_reducible assumption; apply State.setFld_kept; with_reducible assumption
  apply Kept.ite; apply State.mark_kept; apply State.setFld_kept; with_reducible assumption; apply State.setFld_kept
  with_reducible assumption

theorem afterIdle_kept {s0 : State} {s : State} (site : Nat) (lane : Nat) (hs : Kept s0 s) : Kept s0 (afterIdle s site lane) := by
  unfold afterIdle; dsimp only; apply State.setLane_kept; apply State.drawn_kept; with_reducible assumption

theorem sendBlocks_kept {s0 : State} {s : State} (site : Nat) (lane : Nat) (lines : List Line) (hs : Kept s0 s) :
    Kept s0 (sendBlocks s site lane lines) := by
  unfold sendBlocks; dsimp only; apply State.send_kept; apply State.setLane_kept; with_reducible assumption

theorem scrambleGroup_kept {s0 : State} {s : State} (g : Nat × Nat × List (List (Option Line))) (hs : Kept s0 s) :
    Kept s0 (scrambleGroup s g) := by
  unfold scrambleGroup; dsimp only; apply Kept.foldl; intros; apply Kept.ite; with_reducible assumption; apply sendBlocks_kept
  apply afterIdle_kept; with_reducible assumption; with_reducible assumption

theorem execBeatFrameSend_kept {s0 : State} (site : SiteIx) (lane : Fin 32) {s : State} (hs : Kept s0 s) :
    KeptR s0 (execBeatFrameSend site lane s) := by
  unfold execBeatFrameSend; dsimp only; apply KeptR.ite; apply KeptR.next; with_reducible assumption; apply KeptR.ite; apply KeptR.ite
  apply KeptR.next; with_reducible assumption; apply KeptR.next; apply Kept.ite; apply Kept.mk; apply KeptC.fold; apply Kept.ite
  apply State.bump_kept; apply sendBlocks_kept; apply Kept.ite; apply afterIdle_kept; apply State.send_kept; apply State.setLane_kept
  with_reducible assumption; apply State.send_kept; apply State.setLane_kept; with_reducible assumption; apply sendBlocks_kept
  apply Kept.ite; apply afterIdle_kept; apply State.send_kept; apply State.setLane_kept; with_reducible assumption; apply State.send_kept
  apply State.setLane_kept; with_reducible assumption; apply Kept.ite; apply State.bump_kept; apply sendBlocks_kept; apply Kept.ite
  apply afterIdle_kept; apply State.send_kept; apply State.setLane_kept; with_reducible assumption; apply State.send_kept
  apply State.setLane_kept; with_reducible assumption; apply sendBlocks_kept; apply Kept.ite; apply afterIdle_kept; apply State.send_kept
  apply State.setLane_kept; with_reducible assumption; apply State.send_kept; apply State.setLane_kept; with_reducible assumption
  apply KeptR.next; with_reducible assumption

theorem execArrivalMeasurementEnd_kept {s0 : State} (n : IntakeLane) {s : State} (hs : Kept s0 s) :
    KeptR s0 (execArrivalMeasurementEnd n s) := by
  unfold execArrivalMeasurementEnd; dsimp only; split; apply KeptR.next; with_reducible assumption; apply KeptR.ite; apply KeptR.ite
  apply KeptR.next; apply State.mark_kept; apply Kept.ite; apply State.setWay_kept; with_reducible assumption; apply State.setFld_kept
  apply State.setFld_kept; apply State.setWay_kept; with_reducible assumption; apply KeptR.next; apply State.mark_kept
  apply State.setFld_kept; apply Kept.ite; apply State.setWay_kept; with_reducible assumption; apply State.setFld_kept
  apply State.setFld_kept; apply State.setWay_kept; with_reducible assumption; apply KeptR.next; with_reducible assumption

theorem beginFrame_kept {s0 : State} {s : State} (n : Nat) (num : Nat) (seq : Nat) (bytesM1 : Nat) (hs : Kept s0 s) :
    Kept s0 (beginFrame s n num seq bytesM1) := by
  unfold beginFrame; dsimp only; split; apply State.bump_kept; apply State.setWay_kept; with_reducible assumption; apply State.mark_kept
  apply State.setWay_kept; with_reducible assumption; apply State.setWay_kept; with_reducible assumption

theorem execIntakeFrameStart_kept {s0 : State} (n : IntakeLane) (head : Line) (number : List Line) (rest : List Line) {s : State} (hs : Kept s0 s) :
    KeptR s0 (execIntakeFrameStart n head number rest s) := by
  unfold execIntakeFrameStart; dsimp only; split; apply KeptR.next; with_reducible assumption; apply KeptR.ite; apply KeptR.next
  with_reducible assumption; split; apply KeptR.next; apply beginFrame_kept; apply breakFrame_kept; with_reducible assumption
  apply KeptR.next; apply Kept.ite; apply State.bump_kept; apply breakFrame_kept; with_reducible assumption; apply breakFrame_kept
  with_reducible assumption

theorem endFrame_kept {s0 : State} {s : State} (site : Nat) (lane : Nat) (n : Nat) (i : Incoming) (payload : List Byte) (a : Nat) (hs : Kept s0 s) :
    Kept s0 (endFrame s site lane n i payload a) := by
  unfold endFrame; dsimp only; split; apply State.raise_kept; apply State.setWay_kept; apply Kept.ite; apply State.bump_kept
  with_reducible assumption; with_reducible assumption; apply State.setWay_kept; apply Kept.ite; apply State.bump_kept
  with_reducible assumption; with_reducible assumption

theorem execIntakeFrameArrival_kept {s0 : State} (n : IntakeLane) (data : List Line) (sum : List Line) (close : Line) (a : Nat) {s : State} (hs : Kept s0 s) :
    KeptR s0 (execIntakeFrameArrival n data sum close a s) := by
  unfold execIntakeFrameArrival; dsimp only; split; apply KeptR.next; with_reducible assumption; split; apply KeptR.next
  with_reducible assumption; apply KeptR.ite; apply KeptR.next; apply State.setWay_kept; with_reducible assumption; split; apply KeptR.next
  apply State.bump_kept; apply State.setWay_kept; with_reducible assumption; apply KeptR.ite; apply KeptR.next; apply State.bump_kept
  apply State.setWay_kept; with_reducible assumption; apply KeptR.ite; apply KeptR.next; apply State.bump_kept; apply State.setWay_kept
  with_reducible assumption; apply KeptR.next; apply endFrame_kept; apply State.setWay_kept; with_reducible assumption

theorem releaseInto_kept {s0 : State} {s : State} (q : QueueId) (t : Nat) (row : List Beat) (hs : Kept s0 s) :
    Kept s0 (releaseInto s q t row) := by
  unfold releaseInto; apply Kept.foldl; intros; apply sendArrival_kept; apply spendCredit_kept; with_reducible assumption
  with_reducible assumption

theorem noteMargin_kept {s0 : State} {s : State} (n : Nat) (m : Nat) (hs : Kept s0 s) : Kept s0 (noteMargin s n m) := by
  unfold noteMargin; apply State.lower_kept; apply State.setFld_kept; with_reducible assumption

theorem releaseLane_kept {s0 : State} (x : Nat) (t : Nat) {s : State} (b : LaneBind) (hs : Kept s0 s) :
    Kept s0 (releaseLane x t s b) := by
  unfold releaseLane; dsimp only; split; apply noteMargin_kept; apply State.setWay_kept; apply releaseInto_kept; with_reducible assumption
  apply noteMargin_kept; apply State.bump_kept; apply State.setWay_kept; apply releaseInto_kept; with_reducible assumption

theorem execWaystationRelease_kept {s0 : State} {s : State} (hs : Kept s0 s) : KeptR s0 (execWaystationRelease s) := by
  unfold execWaystationRelease; dsimp only; split; apply KeptR.next; apply Kept.foldl; intros; apply releaseLane_kept
  with_reducible assumption; apply State.at_kept; with_reducible assumption; apply KeptR.next; with_reducible assumption

theorem execStagedWaystationRelease_kept {s0 : State} (n : IntakeLane) {s : State} (hs : Kept s0 s) :
    KeptR s0 (execStagedWaystationRelease n s) := by
  unfold execStagedWaystationRelease; dsimp only; split; apply KeptR.next; with_reducible assumption; split; apply KeptR.ite
  apply KeptR.next; apply noteMargin_kept; apply State.setWay_kept; apply releaseInto_kept; apply endWait_kept; with_reducible assumption
  apply KeptR.next; apply Kept.ite; apply noteWait_kept; with_reducible assumption; with_reducible assumption; apply KeptR.next
  with_reducible assumption

theorem takeContribution_kept {s0 : State} {s : State} (c : Contribution) (hs : Kept s0 s) : Kept s0 (takeContribution s c) := by
  unfold takeContribution; dsimp only; split; split; apply State.bump_kept; apply State.setVa_kept; with_reducible assumption
  apply State.setVa_kept; with_reducible assumption; with_reducible assumption

theorem settleContribs_kept {s0 : State} {s : State} (v : Nat) (bound : Nat) (a3 : Nat) (hs : Kept s0 s) :
    Kept s0 (settleContribs s v bound a3) := by
  induction a3 generalizing s v bound with | zero => ?_ | succ n9 ih => ?_
  all_goals unfold settleContribs
  with_reducible assumption; split; with_reducible assumption; apply ih; apply takeContribution_kept; apply Kept.mk; apply KeptC.fold
  with_reducible assumption

theorem formContribs_kept {s0 : State} {s : State} (v : Nat) (bound : Nat) (hs : Kept s0 s) : Kept s0 (formContribs s v bound) := by
  unfold formContribs; apply Kept.foldl; intros; split; apply Kept.ite; apply settleFuns_kept; with_reducible assumption
  with_reducible assumption; with_reducible assumption; with_reducible assumption

theorem execContributionArrival_kept {s0 : State} (v : VaIx) {s : State} (hs : Kept s0 s) : KeptR s0 (execContributionArrival v s) := by
  unfold execContributionArrival; dsimp only; split; apply KeptR.next; with_reducible assumption; split; apply KeptR.next
  with_reducible assumption; apply KeptR.next; apply Kept.ite; apply formContribs_kept; with_reducible assumption
  apply takeContribution_kept; apply Kept.mk; apply KeptC.fold; apply State.at_kept; apply formContribs_kept; with_reducible assumption

theorem closeNow_kept {s0 : State} {s : State} (v : Nat) (x : Nat) (hs : Kept s0 s) : Kept s0 (closeNow s v x) := by
  unfold closeNow; dsimp only; split; apply State.bump_kept; apply State.setVa_kept; with_reducible assumption; apply State.setVa_kept
  with_reducible assumption

theorem execRecordClose_kept {s0 : State} (v : VaIx) {s : State} (hs : Kept s0 s) : KeptR s0 (execRecordClose v s) := by
  unfold execRecordClose; dsimp only; apply KeptR.ite; apply KeptR.ite; apply KeptR.next; apply settleContribs_kept; apply closeNow_kept
  apply settleContribs_kept; apply formContribs_kept; apply State.at_kept; with_reducible assumption; apply KeptR.ite; apply KeptR.next
  apply closeNow_kept; apply settleContribs_kept; apply formContribs_kept; with_reducible assumption; apply KeptR.next
  with_reducible assumption; apply KeptR.next; with_reducible assumption

theorem State.setSpy_kept {s0 : State} {s : State} (q : Nat) (v : Spy) (hs : Kept s0 s) : Kept s0 (State.setSpy s q v) := by
  unfold State.setSpy; apply Kept.mk; apply KeptC.fold; with_reducible assumption

theorem spyWrite_kept {s0 : State} (v : Nat) (count : Nat) (turn : Word32) (w : Word64) (features : List (Nat × Beat)) {s : State} (q : Nat) (hs : Kept s0 s) :
    Kept s0 (spyWrite v count turn w features s q) := by
  unfold spyWrite; dsimp only; split; split; split; apply State.raise_kept; apply State.setSpy_kept; with_reducible assumption
  apply State.bump_kept; apply State.mark_kept; with_reducible assumption; split; apply State.raise_kept; apply State.setSpy_kept
  with_reducible assumption; apply State.bump_kept; apply State.mark_kept; with_reducible assumption; with_reducible assumption

theorem launchVerdict_kept {s0 : State} {s : State} (v : Nat) (c : Verdict) (hs : Kept s0 s) : Kept s0 (launchVerdict s v c) := by
  unfold launchVerdict; dsimp only; apply Kept.foldl; intros; apply spyWrite_kept; with_reducible assumption; apply State.latch_kept
  apply State.setFld_kept; apply Kept.foldl; intros; apply scrambleGroup_kept; apply State.bump_kept; with_reducible assumption
  apply State.send_kept; apply State.setVa_kept; with_reducible assumption

theorem execVerdictLaunch_kept {s0 : State} (v : VaIx) {s : State} (hs : Kept s0 s) : KeptR s0 (execVerdictLaunch v s) := by
  unfold execVerdictLaunch; split; apply KeptR.next; with_reducible assumption; split; apply KeptR.next; apply launchVerdict_kept
  with_reducible assumption; apply KeptR.next; with_reducible assumption

theorem enterStep_kept {s0 : State} {s : State} (st : Nat) (hs : Kept s0 s) : Kept s0 (enterStep s st) := by
  unfold enterStep; apply State.setFld_kept; apply State.setFld_kept; with_reducible assumption

theorem restartMeasures_kept {s0 : State} {s : State} (hs : Kept s0 s) : Kept s0 (restartMeasures s) := by
  unfold restartMeasures; apply Kept.mk; apply KeptC.fold; with_reducible assumption

theorem holdVoltage_kept {s0 : State} {s : State} (hs : Kept s0 s) : Kept s0 (holdVoltage s) := by
  unfold holdVoltage; dsimp only; apply Kept.mk; apply KeptC.fold; apply Kept.foldl; intros; apply State.setFld_kept
  apply State.setFld_kept; with_reducible assumption; with_reducible assumption

theorem leaveCount_kept {s0 : State} {s9 : State} (hs : Kept s0 s9) : Kept s0 (leaveCount s9) := by
  unfold leaveCount; dsimp only; apply Kept.mk; apply KeptC.fold; apply playBlocks_kept; with_reducible assumption

theorem toSearch_kept {s0 : State} {s : State} (hs : Kept s0 s) : Kept s0 (toSearch s) := by
  unfold toSearch; dsimp only; apply withAlert_kept; with_reducible assumption; apply enterStep_kept; apply Kept.mk; apply KeptC.fold
  apply holdVoltage_kept; apply restartMeasures_kept; apply leaveCount_kept; with_reducible assumption

theorem toDark_kept {s0 : State} {s : State} (hs : Kept s0 s) : Kept s0 (toDark s) := by
  unfold toDark; apply withAlert_kept; with_reducible assumption; apply enterStep_kept; apply holdVoltage_kept; apply restartMeasures_kept
  apply leaveCount_kept; with_reducible assumption

theorem toPll_kept {s0 : State} {s : State} (hs : Kept s0 s) : Kept s0 (toPll s) := by
  unfold toPll; apply withAlert_kept; with_reducible assumption; apply enterStep_kept; apply holdVoltage_kept; apply restartMeasures_kept
  apply leaveCount_kept; with_reducible assumption

theorem advance_kept {s0 : State} (a : Nat) (b : Nat) {s : State} (hs : Kept s0 s) : Kept s0 (advance a b s) := by
  unfold advance; split; apply enterStep_kept; with_reducible assumption; with_reducible assumption

theorem execTimingSignalPresent_kept {s0 : State} {s : State} (hs : Kept s0 s) : KeptR s0 (execTimingSignalPresent s) := by
  unfold execTimingSignalPresent; apply KeptR.next; split; apply toSearch_kept; with_reducible assumption; with_reducible assumption

theorem execCommaFound_kept {s0 : State} {s : State} (hs : Kept s0 s) : KeptR s0 (execCommaFound s) := by
  unfold execCommaFound; apply KeptR.next; apply advance_kept; with_reducible assumption

theorem execConfirmComplete_kept {s0 : State} {s : State} (hs : Kept s0 s) : KeptR s0 (execConfirmComplete s) := by
  unfold execConfirmComplete; apply KeptR.next; apply advance_kept; with_reducible assumption

theorem execTimingCodeViolation_kept {s0 : State} {s : State} (hs : Kept s0 s) : KeptR s0 (execTimingCodeViolation s) := by
  unfold execTimingCodeViolation; apply KeptR.next; split; apply toSearch_kept; with_reducible assumption; with_reducible assumption

theorem execFrequencyMeasurement_kept {s0 : State} (hz : Word32) {s : State} (hs : Kept s0 s) :
    KeptR s0 (execFrequencyMeasurement hz s) := by
  unfold execFrequencyMeasurement; dsimp only; split; apply KeptR.next; with_reducible assumption; split; apply KeptR.next
  apply State.setFld_kept; with_reducible assumption; apply KeptR.next; split; apply State.setFld_kept; apply State.setFld_kept
  apply State.setFld_kept; with_reducible assumption; apply enterStep_kept; apply State.setFld_kept; apply State.setFld_kept
  apply State.setFld_kept; with_reducible assumption

theorem execPllLock_kept {s0 : State} {s : State} (hs : Kept s0 s) : KeptR s0 (execPllLock s) := by
  unfold execPllLock; apply KeptR.next; apply advance_kept; with_reducible assumption

theorem execPllLockTimeout_kept {s0 : State} {s : State} (hs : Kept s0 s) : KeptR s0 (execPllLockTimeout s) := by
  unfold execPllLockTimeout; apply KeptR.next; split; apply toSearch_kept; with_reducible assumption; with_reducible assumption

theorem execPhaseAligned_kept {s0 : State} {s : State} (hs : Kept s0 s) : KeptR s0 (execPhaseAligned s) := by
  unfold execPhaseAligned; dsimp only; apply KeptR.next; split; apply enterStep_kept; apply Kept.mk; apply KeptC.fold
  with_reducible assumption; with_reducible assumption

theorem execPhaseTimeout_kept {s0 : State} {s : State} (hs : Kept s0 s) : KeptR s0 (execPhaseTimeout s) := by
  unfold execPhaseTimeout; apply KeptR.next; split; apply toPll_kept; with_reducible assumption; with_reducible assumption

theorem missFrost_kept {s0 : State} {s : State} (hs : Kept s0 s) : Kept s0 (missFrost s) := by
  unfold missFrost; apply Kept.ite; apply State.mark_kept; apply Kept.mk; apply KeptC.fold; with_reducible assumption
  with_reducible assumption

theorem lockAt_kept {s0 : State} {s : State} (t : Nat) (hs : Kept s0 s) : Kept s0 (lockAt s t) := by
  unfold lockAt; dsimp only; apply Kept.mk; apply KeptC.fold; apply enterStep_kept; apply State.setFld_kept; apply State.setFld_kept
  apply State.setFld_kept; apply missFrost_kept; apply Kept.mk; apply KeptC.fold; with_reducible assumption

theorem execTurnStartSeen_kept {s0 : State} (gap : Nat) {s : State} (hs : Kept s0 s) : KeptR s0 (execTurnStartSeen gap s) := by
  unfold execTurnStartSeen; dsimp only; split; apply KeptR.next; with_reducible assumption; split; apply KeptR.next; apply lockAt_kept
  with_reducible assumption; apply KeptR.next; apply Kept.mk; apply KeptC.fold; with_reducible assumption

theorem execNumberTimeout_kept {s0 : State} {s : State} (hs : Kept s0 s) : KeptR s0 (execNumberTimeout s) := by
  unfold execNumberTimeout; dsimp only; split; apply KeptR.next; apply State.bump_kept; apply Kept.mk; apply KeptC.fold
  with_reducible assumption; apply KeptR.next; with_reducible assumption

theorem execTimingLaneLoss_kept {s0 : State} {s : State} (hs : Kept s0 s) : KeptR s0 (execTimingLaneLoss s) := by
  unfold execTimingLaneLoss; dsimp only; split; apply KeptR.next; apply Kept.mk; apply KeptC.fold; apply restartMeasures_kept
  apply enterStep_kept; apply State.bump_kept; apply State.mark_kept; with_reducible assumption; apply KeptR.next; with_reducible assumption

theorem writeTimCtrl_kept {s0 : State} (v : Word32) {s : State} (hs : Kept s0 s) : Kept s0 (writeTimCtrl v s) := by
  unfold writeTimCtrl; dsimp only; split; split; apply State.mark_kept; apply State.setRaw_kept; with_reducible assumption
  apply State.setRaw_kept; with_reducible assumption; split; split; apply State.setRaw_kept; with_reducible assumption; apply toDark_kept
  apply State.setRaw_kept; with_reducible assumption; split; apply toPll_kept; apply State.setRaw_kept; with_reducible assumption
  apply State.setRaw_kept; with_reducible assumption

theorem execTimCtrlWrite_kept {s0 : State} (v : Word32) {s : State} (hs : Kept s0 s) : KeptR s0 (execTimCtrlWrite v s) := by
  unfold execTimCtrlWrite; apply KeptR.next; apply Kept.ite; with_reducible assumption; apply writeTimCtrl_kept; with_reducible assumption

theorem landDue_kept {s0 : State} {s : State} (t : Nat) (hs : Kept s0 s) : Kept s0 (landDue s t) := by
  unfold landDue; dsimp only; apply Kept.foldl; intros; apply settleUnit_kept; with_reducible assumption; apply Kept.foldl; intros
  apply settleBus_kept; apply settleCluster_kept; with_reducible assumption; apply Kept.foldl; intros; apply settleFuns_kept
  with_reducible assumption; apply settleLinks_kept; with_reducible assumption

theorem chargeWaits_kept {s0 : State} {s : State} (hs : Kept s0 s) : Kept s0 (chargeWaits s) := by
  unfold chargeWaits; dsimp only; apply Kept.foldl; intros; apply chargeWait_kept; with_reducible assumption; apply Kept.foldl; intros
  apply chargeWait_kept; with_reducible assumption; with_reducible assumption

theorem haltAgents_kept {s0 : State} {s : State} (hs : Kept s0 s) : Kept s0 (haltAgents s) := by
  unfold haltAgents; dsimp only; apply Kept.foldl; intros; apply State.setFun_kept; apply State.setFld_kept; with_reducible assumption
  apply Kept.foldl; intros; apply State.setUnit_kept; apply State.setFld_kept; with_reducible assumption; apply chargeWaits_kept
  apply landDue_kept; with_reducible assumption

theorem haltClusters_kept {s0 : State} {s : State} (hs : Kept s0 s) : Kept s0 (haltClusters s) := by
  unfold haltClusters; dsimp only; apply Kept.foldl; intros; split; apply takeMap_kept; apply State.setCluster_kept
  with_reducible assumption; apply State.setCluster_kept; with_reducible assumption; with_reducible assumption

theorem discardFlight_kept {s0 : State} {s : State} (hs : Kept s0 s) : Kept s0 (discardFlight s) := by
  unfold discardFlight; dsimp only; apply Kept.mk; apply KeptC.fold; apply haltClusters_kept; apply haltAgents_kept; apply noteQueues_kept
  with_reducible assumption

theorem tidyWay_kept {s0 : State} {s : State} (hs : Kept s0 s) : Kept s0 (tidyWay s) := by
  unfold tidyWay; apply Kept.mk; apply KeptC.fold; with_reducible assumption

theorem stopStaged_kept {s0 : State} {s : State} (hs : Kept s0 s) : Kept s0 (stopStaged s) := by
  unfold stopStaged; dsimp only; apply Kept.ite; apply Kept.foldl; intros; apply stopAgent_kept; with_reducible assumption; apply Kept.foldl
  intros; apply stopAgent_kept; with_reducible assumption; apply chargeWaits_kept; with_reducible assumption; with_reducible assumption

theorem finishDisarm_kept {s0 : State} {s : State} (hs : Kept s0 s) : Kept s0 (finishDisarm s) := by
  unfold finishDisarm; dsimp only; apply Kept.mk; apply KeptC.fold; with_reducible assumption

theorem endRun_kept {s0 : State} {s : State} (hs : Kept s0 s) : Kept s0 (endRun s) := by
  unfold endRun; dsimp only; apply loosenLanes_kept; apply stopStaged_kept; apply finishDisarm_kept; with_reducible assumption
  apply Kept.mk; apply KeptC.fold; apply State.setFld_kept; apply stopStaged_kept; apply finishDisarm_kept; with_reducible assumption

theorem stopAtOnce_kept {s0 : State} {s : State} (hs : Kept s0 s) : Kept s0 (stopAtOnce s) := by
  unfold stopAtOnce; dsimp only; apply endRun_kept; apply Kept.mk; apply KeptC.fold; apply tidyWay_kept; apply discardFlight_kept
  with_reducible assumption

theorem failLock_kept {s0 : State} (why : ForcedStop) (f : Fld) {s : State} (hs : Kept s0 s) : Kept s0 (failLock why f s) := by
  unfold failLock; dsimp only; apply Kept.ite; apply Kept.mk; apply KeptC.fold; apply State.mark_kept; with_reducible assumption
  apply toSearch_kept; apply tidyWay_kept; apply discardFlight_kept; apply State.mark_kept; with_reducible assumption

theorem execHoldoverReturn_kept {s0 : State} (phase : ℤ) (num : BitVec 12) {s : State} (hs : Kept s0 s) :
    KeptR s0 (execHoldoverReturn phase num s) := by
  unfold execHoldoverReturn; dsimp only; split; split; apply KeptR.next; apply Kept.mk; apply KeptC.fold; apply enterStep_kept
  with_reducible assumption; apply KeptR.next; apply failLock_kept; with_reducible assumption; apply KeptR.next; with_reducible assumption

theorem execHoldoverExpired_kept {s0 : State} {s : State} (hs : Kept s0 s) : KeptR s0 (execHoldoverExpired s) := by
  unfold execHoldoverExpired; split; apply KeptR.next; apply failLock_kept; with_reducible assumption; apply KeptR.next
  with_reducible assumption

theorem execForcedRunStop_kept {s0 : State} {s : State} (hs : Kept s0 s) : KeptR s0 (execForcedRunStop s) := by
  unfold execForcedRunStop; split; apply KeptR.next; apply toSearch_kept; apply stopAtOnce_kept; with_reducible assumption; apply KeptR.next
  with_reducible assumption

theorem execRunStoppedLastVerdict_kept {s0 : State} {s : State} (hs : Kept s0 s) : KeptR s0 (execRunStoppedLastVerdict s) := by
  unfold execRunStoppedLastVerdict; split; split; apply KeptR.next; apply endRun_kept; apply tidyWay_kept; apply Kept.mk; apply KeptC.fold
  with_reducible assumption; apply KeptR.next; with_reducible assumption; apply KeptR.next; with_reducible assumption

theorem commitWaiting_kept {s0 : State} {s : State} (hs : Kept s0 s) : Kept s0 (commitWaiting s) := by
  unfold commitWaiting; apply Kept.foldl; intros; split; apply finishCommit_kept; with_reducible assumption; with_reducible assumption
  with_reducible assumption

theorem swapHalves_kept {s0 : State} {s : State} (hs : Kept s0 s) : Kept s0 (swapHalves s) := by
  unfold swapHalves; dsimp only; apply Kept.mk; apply KeptC.fold; apply State.setFld_kept; with_reducible assumption

theorem advanceSide_kept {s0 : State} {s : State} (r : Nat) (i : Nat) (dst : Bool) (hs : Kept s0 s) :
    Kept s0 (advanceSide s r i dst) := by
  unfold advanceSide; dsimp only; apply State.setFld_kept; apply State.setFld_kept; with_reducible assumption

theorem armStep_kept {s0 : State} {s : State} (r : Nat) (i : Nat) (hs : Kept s0 s) : Kept s0 (armStep s r i) := by
  unfold armStep; dsimp only; apply armDesc_kept; split; apply advanceSide_kept; split; apply advanceSide_kept; with_reducible assumption
  with_reducible assumption; split; apply advanceSide_kept; with_reducible assumption; with_reducible assumption

theorem armMask_kept {s0 : State} {s : State} (m : Word64) (hs : Kept s0 s) : Kept s0 (armMask s m) := by
  unfold armMask; apply Kept.foldl; intros; apply Kept.foldl; intros; apply armStep_kept; with_reducible assumption
  with_reducible assumption; with_reducible assumption

theorem forgetArmed_kept {s0 : State} {s : State} (hs : Kept s0 s) : Kept s0 (forgetArmed s) := by
  unfold forgetArmed; apply Kept.mk; apply KeptC.fold; with_reducible assumption

theorem reloadDescs_kept {s0 : State} {s : State} (hs : Kept s0 s) : Kept s0 (reloadDescs s) := by
  unfold reloadDescs; split; apply forgetArmed_kept; with_reducible assumption; apply Kept.foldl; intros; apply Kept.foldl; intros
  apply State.setRaw_kept; with_reducible assumption; with_reducible assumption; apply forgetArmed_kept; with_reducible assumption

theorem takeMenu_kept {s0 : State} {s : State} (hs : Kept s0 s) : Kept s0 (takeMenu s) := by
  unfold takeMenu; dsimp only; split; with_reducible assumption; apply Kept.mk; apply KeptC.fold; with_reducible assumption

theorem openStep_kept {s0 : State} {s : State} (i : Nat) (left : Nat) (t : Nat) (hs : Kept s0 s) : Kept s0 (openStep s i left t) := by
  unfold openStep; dsimp only; apply armMask_kept; split; apply takeMenu_kept; split; apply Kept.foldl; intros; apply invalidateCache_kept
  with_reducible assumption; split; apply swapHalves_kept; apply commitWaiting_kept; apply State.setFld_kept; apply reloadDescs_kept
  apply Kept.mk; apply KeptC.fold; apply State.at_kept; with_reducible assumption; apply commitWaiting_kept; apply State.setFld_kept
  apply reloadDescs_kept; apply Kept.mk; apply KeptC.fold; apply State.at_kept; with_reducible assumption; split; apply swapHalves_kept
  apply commitWaiting_kept; apply State.setFld_kept; apply reloadDescs_kept; apply Kept.mk; apply KeptC.fold; apply State.at_kept
  with_reducible assumption; apply commitWaiting_kept; apply State.setFld_kept; apply reloadDescs_kept; apply Kept.mk; apply KeptC.fold
  apply State.at_kept; with_reducible assumption; split; apply Kept.foldl; intros; apply invalidateCache_kept; with_reducible assumption
  split; apply swapHalves_kept; apply commitWaiting_kept; apply State.setFld_kept; apply Kept.mk; apply KeptC.fold; apply State.at_kept
  with_reducible assumption; apply commitWaiting_kept; apply State.setFld_kept; apply Kept.mk; apply KeptC.fold; apply State.at_kept
  with_reducible assumption; split; apply swapHalves_kept; apply commitWaiting_kept; apply State.setFld_kept; apply Kept.mk
  apply KeptC.fold; apply State.at_kept; with_reducible assumption; apply commitWaiting_kept; apply State.setFld_kept; apply Kept.mk
  apply KeptC.fold; apply State.at_kept; with_reducible assumption

theorem releaseBarrier_kept {s0 : State} {s : State} (t : Nat) (hs : Kept s0 s) : Kept s0 (releaseBarrier s t) := by
  unfold releaseBarrier; dsimp only; split; apply endRun_kept; apply tidyWay_kept; apply Kept.mk; apply KeptC.fold; apply State.at_kept
  apply State.bump_kept; with_reducible assumption; apply openStep_kept; apply State.bump_kept; with_reducible assumption

theorem execRunStartEffect_kept {s0 : State} {s : State} (hs : Kept s0 s) : KeptR s0 (execRunStartEffect s) := by
  unfold execRunStartEffect; dsimp only; split; apply KeptR.next; with_reducible assumption; split; apply KeptR.next; apply beginRun_kept
  apply dropCmd_kept; with_reducible assumption; split; apply KeptR.next; split; apply openStep_kept; apply armLanes_kept
  apply beginRun_kept; apply dropCmd_kept; with_reducible assumption; apply armLanes_kept; apply beginRun_kept; apply dropCmd_kept
  with_reducible assumption; apply KeptR.next; apply State.bump_kept; apply dropCmd_kept; with_reducible assumption

theorem sendDown_kept {s0 : State} {s : State} (fields : Nat) (hs : Kept s0 s) : Kept s0 (sendDown s fields) := by
  unfold sendDown; dsimp only; split; apply Kept.foldl; intros; apply sendSys_kept; with_reducible assumption; with_reducible assumption
  with_reducible assumption

theorem sendUp_kept {s0 : State} {s : State} (fields : Nat) (hs : Kept s0 s) : Kept s0 (sendUp s fields) := by
  unfold sendUp; split; apply sendSys_kept; with_reducible assumption; with_reducible assumption

theorem releaseSystem_kept {s0 : State} {s : State} (seq : Nat) (hs : Kept s0 s) : Kept s0 (releaseSystem s seq) := by
  unfold releaseSystem; dsimp only; split; split; apply releaseBarrier_kept; apply Kept.mk; apply KeptC.fold; with_reducible assumption
  apply State.bump_kept; apply Kept.mk; apply KeptC.fold; with_reducible assumption; with_reducible assumption

theorem countArrival_kept {s0 : State} {s : State} (sender : Nat) (seq : BitVec 16) (hs : Kept s0 s) :
    Kept s0 (countArrival s sender seq) := by
  unfold countArrival; dsimp only; split; with_reducible assumption; split; apply Kept.mk; apply KeptC.fold; with_reducible assumption
  apply releaseSystem_kept; apply sendDown_kept; apply State.setFld_kept; apply Kept.mk; apply KeptC.fold; with_reducible assumption

theorem arriveSystem_kept {s0 : State} {s : State} (hs : Kept s0 s) : Kept s0 (arriveSystem s) := by
  unfold arriveSystem; dsimp only; split; apply countArrival_kept; apply Kept.mk; apply KeptC.fold; with_reducible assumption
  apply sendUp_kept; apply Kept.mk; apply KeptC.fold; with_reducible assumption

theorem execLeafArrive_kept {s0 : State} (r : RegionIx) {s : State} (hs : Kept s0 s) : KeptR s0 (execLeafArrive r s) := by
  unfold execLeafArrive; dsimp only; split; split; apply KeptR.next; split; apply arriveSystem_kept; apply Kept.mk; apply KeptC.fold
  apply State.setRegion_kept; with_reducible assumption; apply Kept.mk; apply KeptC.fold; apply State.setRegion_kept
  with_reducible assumption; apply KeptR.next; apply Kept.mk; apply KeptC.fold; apply State.setRegion_kept; with_reducible assumption
  apply KeptR.next; with_reducible assumption

theorem execBarrierRelease_kept {s0 : State} {s : State} (hs : Kept s0 s) : KeptR s0 (execBarrierRelease s) := by
  unfold execBarrierRelease; split; apply KeptR.next; with_reducible assumption; split; apply KeptR.next; with_reducible assumption
  apply KeptR.next; apply releaseBarrier_kept; with_reducible assumption

theorem execBarrierTimeout_kept {s0 : State} {s : State} (hs : Kept s0 s) : KeptR s0 (execBarrierTimeout s) := by
  unfold execBarrierTimeout; dsimp only; split; apply KeptR.next; with_reducible assumption; split; apply KeptR.next
  with_reducible assumption; apply KeptR.next; split; apply State.setFld_kept; apply State.mark_kept; apply State.at_kept
  with_reducible assumption; apply State.mark_kept; apply State.at_kept; with_reducible assumption

theorem recoverUnit_kept {s0 : State} {s9 : State} (g : Nat) (hs : Kept s0 s9) : Kept s0 (recoverUnit s9 g) := by
  unfold recoverUnit; dsimp only; apply Kept.foldl; intros; apply purgeQueue_kept; with_reducible assumption; apply State.setUnit_kept
  apply chargeWait_kept; with_reducible assumption

theorem recoverRegion_kept {s0 : State} {s : State} (r : Nat) (v : Word32) (hs : Kept s0 s) : Kept s0 (recoverRegion s r v) := by
  unfold recoverRegion; dsimp only; apply endTransaction_kept; apply Kept.foldl; intros; apply recoverUnit_kept; with_reducible assumption
  apply Kept.foldl; intros; apply withdrawRequest_kept; with_reducible assumption; apply Kept.foldl; intros; apply abortDesc_kept
  with_reducible assumption; apply preemptArb_kept; apply abandonMiss_kept; apply State.setFld_kept; apply State.setFld_kept
  with_reducible assumption

theorem execRecoverGo_kept {s0 : State} (r : RegionIx) (v : Word32) {s : State} (hs : Kept s0 s) : KeptR s0 (execRecoverGo r v s) := by
  unfold execRecoverGo; apply KeptR.next; apply Kept.ite; with_reducible assumption; apply recoverRegion_kept; with_reducible assumption

theorem claimTk_kept {s0 : State} {s : State} (hs : Kept s0 s) : Kept s0 (claimTk s) := by
  unfold claimTk; split; apply State.setFld_kept; apply State.mark_kept; with_reducible assumption; with_reducible assumption

theorem passSys_kept {s0 : State} {s : State} (site : Nat) (lead : Nat) (fields : Nat) (hs : Kept s0 s) :
    Kept s0 (passSys s site lead fields) := by
  unfold passSys; split; apply sendDown_kept; with_reducible assumption; split; apply sendUp_kept; with_reducible assumption
  with_reducible assumption

theorem takeAnnounce_kept {s0 : State} {s : State} (site : Nat) (lead : Nat) (p : Nat) (hs : Kept s0 s) :
    Kept s0 (takeAnnounce s site lead p) := by
  unfold takeAnnounce; dsimp only; split; split; apply State.mark_kept; apply Kept.mk; apply KeptC.fold; apply passSys_kept
  with_reducible assumption; split; apply State.mark_kept; apply Kept.mk; apply KeptC.fold; apply passSys_kept; with_reducible assumption
  apply State.mark_kept; apply State.setFld_kept; apply Kept.mk; apply KeptC.fold; apply passSys_kept; with_reducible assumption; split
  apply passSys_kept; with_reducible assumption; split; apply State.mark_kept; apply passSys_kept; with_reducible assumption
  apply State.mark_kept; apply State.setFld_kept; apply passSys_kept; with_reducible assumption

theorem takeSched_kept {s0 : State} {s : State} (site : Nat) (lead : Nat) (p : Nat) (hs : Kept s0 s) :
    Kept s0 (takeSched s site lead p) := by
  unfold takeSched; dsimp only; apply sendUp_kept; split; apply schedule_kept; apply passSys_kept; with_reducible assumption
  apply State.bump_kept; apply passSys_kept; with_reducible assumption

theorem takeSchedAck_kept {s0 : State} {s : State} (site : Nat) (lead : Nat) (p : Nat) (hs : Kept s0 s) :
    Kept s0 (takeSchedAck s site lead p) := by
  unfold takeSchedAck; split; split; apply State.bump_kept; with_reducible assumption; with_reducible assumption; apply passSys_kept
  with_reducible assumption

theorem takeArrive_kept {s0 : State} {s : State} (site : Nat) (lead : Nat) (p : Nat) (hs : Kept s0 s) :
    Kept s0 (takeArrive s site lead p) := by
  unfold takeArrive; split; apply countArrival_kept; with_reducible assumption; apply passSys_kept; with_reducible assumption

theorem takeRelease_kept {s0 : State} {s : State} (site : Nat) (lead : Nat) (p : Nat) (hs : Kept s0 s) :
    Kept s0 (takeRelease s site lead p) := by
  unfold takeRelease; apply releaseSystem_kept; apply passSys_kept; with_reducible assumption

theorem failAttempt_kept {s0 : State} {s : State} (site : Nat) (lead : Nat) (hs : Kept s0 s) : Kept s0 (failAttempt s site lead) := by
  unfold failAttempt; dsimp only; apply Kept.foldl; intros; apply Kept.ite; with_reducible assumption; apply Kept.ite
  apply setLaneState_kept; apply State.setLane_kept; with_reducible assumption; apply laneFailed_kept; apply setLaneState_kept
  apply State.setLane_kept; with_reducible assumption; with_reducible assumption

theorem startMeasure_kept {s0 : State} {s : State} (x : Nat) (hs : Kept s0 s) : Kept s0 (startMeasure s x) := by
  unfold startMeasure; dsimp only; apply State.setCtx_kept; apply State.setFld_kept; with_reducible assumption

theorem groupUp_kept {s0 : State} {s : State} (site : Nat) (lead : Nat) (hs : Kept s0 s) : Kept s0 (groupUp s site lead) := by
  unfold groupUp; dsimp only; apply sendSys_kept; apply Kept.foldl; intros; apply Kept.ite; apply startMeasure_kept
  with_reducible assumption; with_reducible assumption; apply State.setFld_kept; apply State.mark_kept; with_reducible assumption

theorem takeNego_kept {s0 : State} {s : State} (site : Nat) (lead : Nat) (p : Nat) (hs : Kept s0 s) :
    Kept s0 (takeNego s site lead p) := by
  unfold takeNego; dsimp only; split; apply failAttempt_kept; with_reducible assumption; split; split; apply groupUp_kept
  apply State.drawn_kept; apply Kept.mk; apply KeptC.fold; apply State.setFld_kept; apply State.setFld_kept; apply State.setFld_kept
  apply State.setFld_kept; with_reducible assumption; apply Kept.mk; apply KeptC.fold; apply State.setFld_kept; apply State.setFld_kept
  apply State.setFld_kept; apply State.setFld_kept; with_reducible assumption; split; apply groupUp_kept; apply State.drawn_kept
  apply State.setFld_kept; apply State.setFld_kept; apply State.setFld_kept; apply State.setFld_kept; with_reducible assumption
  apply State.setFld_kept; apply State.setFld_kept; apply State.setFld_kept; apply State.setFld_kept; with_reducible assumption

theorem takeRestripe_kept {s0 : State} {s : State} (site : Nat) (lead : Nat) (p : Nat) (hs : Kept s0 s) :
    Kept s0 (takeRestripe s site lead p) := by
  unfold takeRestripe; dsimp only; apply Kept.ite; apply goOnAt_kept; with_reducible assumption; with_reducible assumption

theorem takeEcho_kept {s0 : State} {s : State} (site : Nat) (lead : Nat) (p : Nat) (hs : Kept s0 s) :
    Kept s0 (takeEcho s site lead p) := by
  unfold takeEcho; apply Kept.ite; apply sendSys_kept; with_reducible assumption; apply Kept.ite; apply State.setFld_kept
  apply State.drawn_kept; with_reducible assumption; with_reducible assumption

theorem takeSys_kept {s0 : State} {s : State} (site : Nat) (lead : Nat) (p : Nat) (hs : Kept s0 s) :
    Kept s0 (takeSys s site lead p) := by
  unfold takeSys; split; apply takeNego_kept; with_reducible assumption; apply takeAnnounce_kept; with_reducible assumption
  apply takeSched_kept; with_reducible assumption; apply takeSchedAck_kept; with_reducible assumption; apply takeArrive_kept
  with_reducible assumption; apply takeRelease_kept; with_reducible assumption; apply takeRestripe_kept; with_reducible assumption
  apply takeEcho_kept; with_reducible assumption; with_reducible assumption

theorem execAnnounceTimer_kept {s0 : State} {s : State} (hs : Kept s0 s) : KeptR s0 (execAnnounceTimer s) := by
  unfold execAnnounceTimer; dsimp only; split; apply KeptR.next; apply sendDown_kept; apply Kept.mk; apply KeptC.fold
  with_reducible assumption; apply KeptR.next; with_reducible assumption

theorem execTkKnownTimeout_kept {s0 : State} {s : State} (hs : Kept s0 s) : KeptR s0 (execTkKnownTimeout s) := by
  unfold execTkKnownTimeout; apply KeptR.next; apply State.setFld_kept; with_reducible assumption

theorem tkSend_kept {s0 : State} {s : State} (hs : Kept s0 s) : Kept s0 (tkSend s) := by
  unfold tkSend; dsimp only; split; apply State.mark_kept; with_reducible assumption; split; apply State.mark_kept
  with_reducible assumption; apply sendDown_kept; apply Kept.mk; apply KeptC.fold; apply schedule_kept; with_reducible assumption

theorem execTkSend_kept {s0 : State} {s : State} (hs : Kept s0 s) : KeptR s0 (execTkSend s) := by
  unfold execTkSend; apply KeptR.next; apply Kept.ite; with_reducible assumption; apply tkSend_kept; with_reducible assumption

theorem execEpochEffect_kept {s0 : State} {s : State} (hs : Kept s0 s) : KeptR s0 (execEpochEffect s) := by
  unfold execEpochEffect; dsimp only; split; apply KeptR.next; with_reducible assumption; apply KeptR.next; split; apply State.mark_kept
  apply dropCmd_kept; with_reducible assumption; apply State.setFld_kept; apply dropCmd_kept; with_reducible assumption

theorem logDetach_kept {s0 : State} {s : State} (m : Nat) (i : Nat) (hs : Kept s0 s) : Kept s0 (logDetach s m i) := by
  unfold logDetach; dsimp only; split; apply State.mark_kept; with_reducible assumption; apply State.setFld_kept; apply State.setRaw_kept
  apply State.setRaw_kept; with_reducible assumption

theorem detachMember_kept {s0 : State} (m : Nat) {s : State} (i : Nat) (hs : Kept s0 s) : Kept s0 (detachMember m s i) := by
  unfold detachMember; dsimp only; split; apply State.setMc_kept; apply State.bump_kept; apply State.mark_kept; apply logDetach_kept
  with_reducible assumption; apply sendSys_kept; apply State.setMc_kept; apply State.bump_kept; apply State.mark_kept; apply logDetach_kept
  with_reducible assumption

theorem clearDetach_kept {s0 : State} {s : State} (hs : Kept s0 s) : Kept s0 (clearDetach s) := by
  unfold clearDetach; apply State.setFld_kept; apply Kept.foldl; intros; apply State.setRaw_kept; apply State.setRaw_kept
  with_reducible assumption; with_reducible assumption

theorem execDetachClear_kept {s0 : State} {s : State} (hs : Kept s0 s) : KeptR s0 (execDetachClear s) := by
  unfold execDetachClear; apply KeptR.next; apply Kept.ite; with_reducible assumption; apply clearDetach_kept; with_reducible assumption

theorem execCreditTimer_kept {s0 : State} (x : BitVec 14) {s : State} (hs : Kept s0 s) : KeptR s0 (execCreditTimer x s) := by
  unfold execCreditTimer; dsimp only; split; apply KeptR.next; with_reducible assumption; split; apply KeptR.next; with_reducible assumption
  apply KeptR.next; apply sendLoose_kept; apply State.setCtx_kept; with_reducible assumption

theorem acknowledge_kept {s0 : State} {s : State} (site : Nat) (lane : Nat) (hs : Kept s0 s) : Kept s0 (acknowledge s site lane) := by
  unfold acknowledge; dsimp only; apply sendLink_kept; apply State.setRetry_kept; with_reducible assumption

theorem execAckTimer_kept {s0 : State} (site : SiteIx) (lane : Fin 32) {s : State} (hs : Kept s0 s) :
    KeptR s0 (execAckTimer site lane s) := by
  unfold execAckTimer; apply KeptR.ite; apply KeptR.next; with_reducible assumption; apply KeptR.next; apply Kept.ite
  apply acknowledge_kept; with_reducible assumption; with_reducible assumption

theorem sendNak_kept {s0 : State} {s : State} (site : Nat) (lane : Nat) (hs : Kept s0 s) : Kept s0 (sendNak s site lane) := by
  unfold sendNak; apply sendLink_kept; with_reducible assumption

theorem noteLost_kept {s0 : State} {s : State} (site : Nat) (lane : Nat) (far : BitVec 8) (hs : Kept s0 s) :
    Kept s0 (noteLost s site lane far) := by
  unfold noteLost; dsimp only; apply Kept.mk; apply KeptC.fold; with_reducible assumption

theorem beginNak_kept {s0 : State} {s9 : State} (site : Nat) (lane : Nat) (seen : BitVec 8) (hs : Kept s0 s9) :
    Kept s0 (beginNak s9 site lane seen) := by
  unfold beginNak; dsimp only; apply Kept.ite; apply State.setRetry_kept; apply noteLost_kept; with_reducible assumption; apply sendNak_kept
  apply State.setRetry_kept; apply noteLost_kept; with_reducible assumption

theorem execNakRepeat_kept {s0 : State} (site : SiteIx) (lane : Fin 32) {s : State} (hs : Kept s0 s) :
    KeptR s0 (execNakRepeat site lane s) := by
  unfold execNakRepeat; apply KeptR.ite; apply KeptR.next; with_reducible assumption; apply KeptR.next; apply Kept.ite; apply sendNak_kept
  with_reducible assumption; with_reducible assumption

theorem resendAll_kept {s0 : State} {s : State} (site : Nat) (lane : Nat) (hs : Kept s0 s) : Kept s0 (resendAll s site lane) := by
  unfold resendAll; dsimp only; apply Kept.ite; apply Kept.ite; apply State.mark_kept; apply resendFlits_kept; with_reducible assumption
  apply retrain_kept; apply State.mark_kept; apply resendFlits_kept; with_reducible assumption; apply resendFlits_kept
  with_reducible assumption

theorem execResendTimeout_kept {s0 : State} (site : SiteIx) (lane : Fin 32) {s : State} (hs : Kept s0 s) :
    KeptR s0 (execResendTimeout site lane s) := by
  unfold execResendTimeout; apply KeptR.ite; apply KeptR.next; with_reducible assumption; apply KeptR.next; apply Kept.ite
  apply resendAll_kept; with_reducible assumption; with_reducible assumption

theorem takeLink12_kept {s0 : State} {s : State} (site : Nat) (lane : Nat) (ackSeq : BitVec 8) (nak : Bool) (hs : Kept s0 s) :
    Kept s0 (takeLink12 s site lane ackSeq nak) := by
  unfold takeLink12; dsimp only; apply drainWaiting_kept; split; apply resendAll_kept; apply State.setRetry_kept; with_reducible assumption
  apply State.setRetry_kept; with_reducible assumption

theorem spoilContexts_kept {s0 : State} {s : State} (site : Nat) (lead : Nat) (hs : Kept s0 s) :
    Kept s0 (spoilContexts s site lead) := by
  unfold spoilContexts; apply Kept.mk; apply KeptC.fold; with_reducible assumption

theorem spoiled_kept {s0 : State} {s : State} (site : Nat) (lane : Nat) (hs : Kept s0 s) : Kept s0 (spoiled s site lane) := by
  unfold spoiled; dsimp only; apply spoilContexts_kept; apply State.bump_kept; with_reducible assumption

theorem execCodewordReceived_kept {s0 : State} (site : SiteIx) (lane : Fin 32) (errors : Nat) (past : Option (BitVec 8)) {s : State} (hs : Kept s0 s) :
    KeptR s0 (execCodewordReceived site lane errors past s) := by
  unfold execCodewordReceived; dsimp only; apply KeptR.ite; apply KeptR.next; with_reducible assumption; apply KeptR.ite; apply KeptR.next
  with_reducible assumption; apply KeptR.ite; apply KeptR.next; apply State.setRetry_kept; with_reducible assumption; apply KeptR.ite
  apply KeptR.next; apply State.bump_kept; apply State.setRetry_kept; with_reducible assumption; apply KeptR.next; apply beginNak_kept
  apply spoiled_kept; apply State.setRetry_kept; with_reducible assumption

theorem sendSlot_kept {s0 : State} (c : Calendar) (tag : Nat) (start : Nat) {s : State} (i : Nat) (hs : Kept s0 s) :
    Kept s0 (sendSlot c tag start s i) := by
  unfold sendSlot; dsimp only; split; apply fillNull_kept; with_reducible assumption; split; apply Kept.ite; apply State.send_kept
  apply fillSlot_kept; with_reducible assumption; with_reducible assumption; apply Kept.ite; apply State.send_kept; apply fillSlot_kept
  apply State.bump_kept; with_reducible assumption; apply State.bump_kept; with_reducible assumption

theorem sendWindow_kept {s0 : State} {s : State} (c : Calendar) (tag : Nat) (hs : Kept s0 s) : Kept s0 (sendWindow s c tag) := by
  unfold sendWindow; dsimp only; apply Kept.foldl; intros; apply sendSlot_kept; with_reducible assumption; apply State.setRetry_kept
  with_reducible assumption

theorem purgeBuffer_kept {s0 : State} (site : Nat) {s : State} (k : Nat) (hs : Kept s0 s) : Kept s0 (purgeBuffer site s k) := by
  unfold purgeBuffer; dsimp only; split; with_reducible assumption; apply State.bump_kept; apply State.setTxLink_kept
  with_reducible assumption

theorem execLockedWindow_kept {s0 : State} (site : SiteIx) (lead : Fin 32) {s : State} (hs : Kept s0 s) :
    KeptR s0 (execLockedWindow site lead s) := by
  unfold execLockedWindow; dsimp only; split; apply KeptR.next; with_reducible assumption; apply KeptR.ite; apply KeptR.next
  with_reducible assumption; apply KeptR.next; apply Kept.foldl; intros; apply purgeBuffer_kept; with_reducible assumption; apply Kept.mk
  apply KeptC.fold; apply sendWindow_kept; apply State.at_kept; with_reducible assumption

theorem execLinkReset_kept {s0 : State} (site : SiteIx) (lead : Fin 32) {s : State} (hs : Kept s0 s) :
    KeptR s0 (execLinkReset site lead s) := by
  unfold execLinkReset; apply KeptR.ite; apply KeptR.next; with_reducible assumption; apply KeptR.ite; apply KeptR.next
  with_reducible assumption; apply KeptR.ite; apply KeptR.next; apply State.mark_kept; with_reducible assumption; apply KeptR.next
  apply resetGroup_kept; with_reducible assumption

end Sys2Proof.Machine
end

