-- ==== Sys2Proof/Laws/KeptSteward.lean ====
section
/-!
SUPPORT. Laws/KeptSteward.lean: one lemma per operation: it keeps the waiting commands, the identity and the canonical form (Laws/Kept.lean):
heat, power, frost, the fuses, the flash and the registers.
-/
set_option linter.unusedVariables false
namespace Sys2Proof.Machine

theorem tripNow_kept {s0 : State} {s : State} (hs : Kept s0 s) : Kept s0 (tripNow s) := by
  unfold tripNow; dsimp only; apply Kept.mk; apply KeptC.fold; with_reducible assumption

theorem emergencyTrip_kept {s0 : State} {s : State} (hs : Kept s0 s) : Kept s0 (emergencyTrip s) := by
  unfold emergencyTrip; apply tripNow_kept; apply State.mark_kept; apply State.mark_kept; apply State.setFld_kept; with_reducible assumption

theorem confirmedTrip_kept {s0 : State} {s : State} (hs : Kept s0 s) : Kept s0 (confirmedTrip s) := by
  unfold confirmedTrip; dsimp only; split; apply Kept.mk; apply KeptC.fold; apply State.mark_kept; apply State.setFld_kept
  with_reducible assumption; apply tripNow_kept; apply Kept.mk; apply KeptC.fold; apply State.mark_kept; apply State.setFld_kept
  with_reducible assumption

theorem squallStep_kept {s0 : State} {s : State} (hot : ℤ) (hs : Kept s0 s) : Kept s0 (squallStep s hot) := by
  unfold squallStep; dsimp only; split; split; apply Kept.mk; apply KeptC.fold; apply State.bump_kept; apply State.mark_kept
  apply State.setFld_kept; with_reducible assumption; with_reducible assumption; split; split; split; apply Kept.mk; apply KeptC.fold
  apply State.setFld_kept; with_reducible assumption; apply Kept.mk; apply KeptC.fold; with_reducible assumption; split; apply Kept.mk
  apply KeptC.fold; apply State.setFld_kept; with_reducible assumption; apply Kept.mk; apply KeptC.fold; with_reducible assumption
  with_reducible assumption

theorem takeReadings_kept {s0 : State} {s : State} (latest : List ℤ) (hs : Kept s0 s) : Kept s0 (takeReadings s latest) := by
  unfold takeReadings; dsimp only; apply withAlert_kept; with_reducible assumption; split; apply emergencyTrip_kept; split; apply Kept.mk
  apply KeptC.fold; apply State.setFld_kept; apply Kept.mk; apply KeptC.fold; apply State.setFld_kept; apply State.setFld_kept
  with_reducible assumption; apply Kept.mk; apply KeptC.fold; apply State.setFld_kept; apply State.setFld_kept; with_reducible assumption
  apply squallStep_kept; split; apply Kept.mk; apply KeptC.fold; apply State.setFld_kept; apply Kept.mk; apply KeptC.fold
  apply State.setFld_kept; apply State.setFld_kept; with_reducible assumption; apply Kept.mk; apply KeptC.fold; apply State.setFld_kept
  apply State.setFld_kept; with_reducible assumption

theorem squallTime_kept {s0 : State} {s : State} (hs : Kept s0 s) : Kept s0 (squallTime s) := by
  unfold squallTime; dsimp only; split; split; apply Kept.mk; apply KeptC.fold; apply State.bump_kept; with_reducible assumption
  apply Kept.mk; apply KeptC.fold; with_reducible assumption; with_reducible assumption

theorem execTemperatureConversion_kept {s0 : State} (temps : List ℤ) {s : State} (hs : Kept s0 s) :
    KeptR s0 (execTemperatureConversion temps s) := by
  unfold execTemperatureConversion; dsimp only; split; apply KeptR.next; apply takeReadings_kept; apply squallTime_kept; apply Kept.foldl
  intros; apply State.setFld_kept; with_reducible assumption; with_reducible assumption; apply KeptR.next; apply Kept.mk; apply KeptC.fold
  apply takeReadings_kept; apply squallTime_kept; apply Kept.foldl; intros; apply State.setFld_kept; with_reducible assumption
  with_reducible assumption

theorem execSecondConversion_kept {s0 : State} (r : RegionIx) (temp : ℤ) {s : State} (hs : Kept s0 s) :
    KeptR s0 (execSecondConversion r temp s) := by
  unfold execSecondConversion; dsimp only; split; split; apply KeptR.next; apply withAlert_kept; with_reducible assumption
  apply confirmedTrip_kept; apply takeReadings_kept; apply Kept.mk; apply KeptC.fold; apply State.setFld_kept; with_reducible assumption
  apply KeptR.next; apply takeReadings_kept; apply Kept.mk; apply KeptC.fold; apply State.setFld_kept; with_reducible assumption
  apply KeptR.next; with_reducible assumption

theorem execTripStop_kept {s0 : State} {s : State} (hs : Kept s0 s) : KeptR s0 (execTripStop s) := by
  unfold execTripStop; dsimp only; split; apply KeptR.next; apply Kept.mk; apply KeptC.fold; apply State.setFld_kept; apply holdVoltage_kept
  apply stopAtOnce_kept; with_reducible assumption; apply KeptR.next; with_reducible assumption

theorem State.setAvs_kept {s0 : State} {s : State} (d : Nat) (v : Avs) (hs : Kept s0 s) : Kept s0 (State.setAvs s d v) := by
  unfold State.setAvs; apply Kept.mk; apply KeptC.fold; with_reducible assumption

theorem stepVoltage_kept {s0 : State} {s : State} (d : Nat) (mv : Nat) (hs : Kept s0 s) : Kept s0 (stepVoltage s d mv) := by
  unfold stepVoltage; dsimp only; split; with_reducible assumption; apply State.setAvs_kept; apply State.bump_kept; apply State.setFld_kept
  apply State.setFld_kept; with_reducible assumption

theorem limitStep_kept {s0 : State} {s : State} (d : Nat) (x : ℤ) (hs : Kept s0 s) : Kept s0 (limitStep s d x) := by
  unfold limitStep; dsimp only; split; split; split; apply State.setAvs_kept; apply State.setFld_kept; with_reducible assumption
  apply State.setAvs_kept; with_reducible assumption; split; apply State.setAvs_kept; apply State.setFld_kept; with_reducible assumption
  apply State.setAvs_kept; with_reducible assumption; split; split; apply State.setAvs_kept; apply State.bump_kept; apply State.mark_kept
  apply State.mark_kept; with_reducible assumption; apply State.setAvs_kept; with_reducible assumption; split; apply State.setAvs_kept
  apply State.bump_kept; apply State.mark_kept; apply State.mark_kept; with_reducible assumption; apply State.setAvs_kept
  with_reducible assumption

theorem execAvsReading_kept {s0 : State} (d : DieIx) (slack : BitVec 8) {s : State} (hs : Kept s0 s) :
    KeptR s0 (execAvsReading d slack s) := by
  unfold execAvsReading; dsimp only; split; apply KeptR.next; with_reducible assumption; split; apply KeptR.next; apply stepVoltage_kept
  apply State.setAvs_kept; apply limitStep_kept; apply State.setFld_kept; with_reducible assumption; split; split; apply KeptR.next
  apply stepVoltage_kept; apply State.setAvs_kept; apply State.setAvs_kept; apply limitStep_kept; apply State.setFld_kept
  with_reducible assumption; apply KeptR.next; apply State.setAvs_kept; apply limitStep_kept; apply State.setFld_kept
  with_reducible assumption; split; apply KeptR.next; apply stepVoltage_kept; apply State.setAvs_kept; apply State.setAvs_kept
  apply limitStep_kept; apply State.setFld_kept; with_reducible assumption; apply KeptR.next; apply State.setAvs_kept; apply limitStep_kept
  apply State.setFld_kept; with_reducible assumption

theorem execAvsStepSettled_kept {s0 : State} (d : DieIx) {s : State} (hs : Kept s0 s) : KeptR s0 (execAvsStepSettled d s) := by
  unfold execAvsStepSettled; dsimp only; apply KeptR.next; apply State.setAvs_kept; with_reducible assumption

theorem recordUe_kept {s0 : State} {s : State} (r : Nat) (kind : Nat) (c : Nat) (agent : Nat) (word : Nat) (hs : Kept s0 s) :
    Kept s0 (recordUe s r kind c agent word) := by
  unfold recordUe; dsimp only; split; apply State.bump_kept; with_reducible assumption; apply State.mark_kept; apply State.setFld_kept
  apply State.setFld_kept; apply State.setFld_kept; apply State.setFld_kept; apply State.bump_kept; with_reducible assumption

theorem noteNow_kept {s0 : State} {s : State} (r : Nat) (hs : Kept s0 s) : Kept s0 (noteNow s r) := by
  unfold noteNow; dsimp only; split; apply State.setFld_kept; with_reducible assumption; with_reducible assumption

theorem execUnitScrubRead_kept {s0 : State} (u : UnitIx) {s : State} (hs : Kept s0 s) : KeptR s0 (execUnitScrubRead u s) := by
  unfold execUnitScrubRead; dsimp only; split; apply KeptR.next; with_reducible assumption; apply KeptR.next; split; apply noteNow_kept
  apply State.setRegion_kept; split; apply State.bump_kept; apply State.setUnit_kept; with_reducible assumption; split; apply recordUe_kept
  apply State.setUnit_kept; with_reducible assumption; apply State.setUnit_kept; with_reducible assumption; split; apply State.bump_kept
  apply State.setUnit_kept; with_reducible assumption; split; apply recordUe_kept; apply State.setUnit_kept; with_reducible assumption
  apply State.setUnit_kept; with_reducible assumption

theorem execRegionScrubRead_kept {s0 : State} (rx : RegionIx) {s9 : State} (hs : Kept s0 s9) :
    KeptR s0 (execRegionScrubRead rx s9) := by
  unfold execRegionScrubRead; dsimp only; apply KeptR.ite; apply KeptR.next; with_reducible assumption; apply KeptR.next; apply Kept.ite
  apply noteNow_kept; apply State.bump_kept; apply State.setRegion_kept; apply Kept.ite; apply State.bump_kept; split
  apply State.setCluster_kept; apply Kept.ite; apply playLogic_kept; with_reducible assumption; with_reducible assumption
  apply State.setFun_kept; apply Kept.ite; apply playLogic_kept; with_reducible assumption; with_reducible assumption
  apply State.setCluster_kept; apply Kept.ite; apply playLogic_kept; with_reducible assumption; with_reducible assumption; apply Kept.ite
  apply Kept.ite; apply State.mark_kept; apply recordUe_kept; split; apply State.setCluster_kept; apply Kept.ite; apply playLogic_kept
  with_reducible assumption; with_reducible assumption; apply State.setFun_kept; apply Kept.ite; apply playLogic_kept
  with_reducible assumption; with_reducible assumption; apply State.setCluster_kept; apply Kept.ite; apply playLogic_kept
  with_reducible assumption; with_reducible assumption; apply recordUe_kept; split; apply State.setCluster_kept; apply Kept.ite
  apply playLogic_kept; with_reducible assumption; with_reducible assumption; apply State.setFun_kept; apply Kept.ite; apply playLogic_kept
  with_reducible assumption; with_reducible assumption; apply State.setCluster_kept; apply Kept.ite; apply playLogic_kept
  with_reducible assumption; with_reducible assumption; split; apply State.setCluster_kept; apply Kept.ite; apply playLogic_kept
  with_reducible assumption; with_reducible assumption; apply State.setFun_kept; apply Kept.ite; apply playLogic_kept
  with_reducible assumption; with_reducible assumption; apply State.setCluster_kept; apply Kept.ite; apply playLogic_kept
  with_reducible assumption; with_reducible assumption; apply State.setRegion_kept; apply Kept.ite; apply State.bump_kept; split
  apply State.setCluster_kept; apply Kept.ite; apply playLogic_kept; with_reducible assumption; with_reducible assumption
  apply State.setFun_kept; apply Kept.ite; apply playLogic_kept; with_reducible assumption; with_reducible assumption
  apply State.setCluster_kept; apply Kept.ite; apply playLogic_kept; with_reducible assumption; with_reducible assumption; apply Kept.ite
  apply Kept.ite; apply State.mark_kept; apply recordUe_kept; split; apply State.setCluster_kept; apply Kept.ite; apply playLogic_kept
  with_reducible assumption; with_reducible assumption; apply State.setFun_kept; apply Kept.ite; apply playLogic_kept
  with_reducible assumption; with_reducible assumption; apply State.setCluster_kept; apply Kept.ite; apply playLogic_kept
  with_reducible assumption; with_reducible assumption; apply recordUe_kept; split; apply State.setCluster_kept; apply Kept.ite
  apply playLogic_kept; with_reducible assumption; with_reducible assumption; apply State.setFun_kept; apply Kept.ite; apply playLogic_kept
  with_reducible assumption; with_reducible assumption; apply State.setCluster_kept; apply Kept.ite; apply playLogic_kept
  with_reducible assumption; with_reducible assumption; split; apply State.setCluster_kept; apply Kept.ite; apply playLogic_kept
  with_reducible assumption; with_reducible assumption; apply State.setFun_kept; apply Kept.ite; apply playLogic_kept
  with_reducible assumption; with_reducible assumption; apply State.setCluster_kept; apply Kept.ite; apply playLogic_kept
  with_reducible assumption; with_reducible assumption

theorem startScrub_kept {s0 : State} {s : State} (r : Nat) (hs : Kept s0 s) : Kept s0 (startScrub s r) := by
  unfold startScrub; dsimp only; apply State.mark_kept; apply State.setRegion_kept; apply Kept.foldl; intros; apply State.setUnit_kept
  with_reducible assumption; with_reducible assumption

theorem execScrubNowRegion_kept {s0 : State} (r : RegionIx) {s : State} (hs : Kept s0 s) : KeptR s0 (execScrubNowRegion r s) := by
  unfold execScrubNowRegion; apply KeptR.next; apply Kept.ite; with_reducible assumption; apply startScrub_kept; with_reducible assumption

theorem writeFence_kept {s0 : State} {s : State} (g : Nat) (f : Bool) (hs : Kept s0 s) : Kept s0 (writeFence s g f) := by
  unfold writeFence; split; apply Kept.mk; apply KeptC.fold; with_reducible assumption; apply State.setFld_kept; with_reducible assumption

theorem execFencedWrite_kept {s0 : State} (u : UnitIx) (fenced : Bool) {s : State} (hs : Kept s0 s) :
    KeptR s0 (execFencedWrite u fenced s) := by
  unfold execFencedWrite; apply KeptR.next; apply Kept.ite; with_reducible assumption; apply writeFence_kept; with_reducible assumption

theorem settleHere_kept {s0 : State} {s : State} (k : Nat) (hs : Kept s0 s) : Kept s0 (settleHere s k) := by
  unfold settleHere; dsimp only; apply Kept.foldl; intros; apply noteOver_kept; apply noteOcc_kept; with_reducible assumption
  apply Kept.foldl; intros; apply Kept.foldl; intros; apply settlePort_kept; with_reducible assumption; apply chargeWait_kept
  apply settleUnit_kept; with_reducible assumption; apply Kept.foldl; intros; apply chargeWait_kept; with_reducible assumption
  apply Kept.foldl; intros; apply chargeQueue_kept; with_reducible assumption; apply chargeSteer_kept; apply playIdles_kept
  apply settleAll_kept; with_reducible assumption

theorem settleFor_kept {s0 : State} {s : State} (a : Nat) (hs : Kept s0 s) : Kept s0 (settleFor s a) := by
  unfold settleFor; dsimp only; apply Kept.ite; apply Kept.ite; apply settleHere_kept; with_reducible assumption; apply Kept.ite
  apply chargePins_kept; with_reducible assumption; apply Kept.ite; apply Kept.foldl; intros; apply settleHere_kept
  with_reducible assumption; with_reducible assumption; with_reducible assumption; with_reducible assumption

theorem frostState_kept {s0 : State} {s : State} (t : Nat) (hs : Kept s0 s) : Kept s0 (frostState s t) := by
  unfold frostState; dsimp only; apply settleLinks_kept; apply Kept.foldl; intros; apply settleUnit_kept; with_reducible assumption
  apply Kept.foldl; intros; apply settleCluster_kept; apply playIdles_kept; apply settleAll_kept; with_reducible assumption; apply Kept.mk
  apply KeptC.fold; with_reducible assumption

theorem capture_kept {s0 : State} {s9 : State} (t : Nat) (src : Nat) (stopped : Bool) (hs : Kept s0 s9) :
    Kept s0 (capture s9 t src stopped) := by
  unfold capture; dsimp only; apply Kept.ite; apply State.bump_kept; apply State.mark_kept; apply Kept.ite; with_reducible assumption
  apply playBlocks_kept; with_reducible assumption; apply Kept.mk; apply KeptC.fold; apply State.drawn_kept; apply Kept.ite
  apply State.mark_kept; apply State.setFld_kept; apply State.setFld_kept; apply State.setFld_kept; apply State.setFld_kept
  apply State.setFld_kept; apply Kept.ite; with_reducible assumption; apply playBlocks_kept; with_reducible assumption
  apply State.mark_kept; apply State.setFld_kept; apply State.setFld_kept; apply State.setFld_kept; apply State.setFld_kept
  apply State.setFld_kept; apply Kept.ite; with_reducible assumption; apply playBlocks_kept; with_reducible assumption

theorem disarmFrost_kept {s0 : State} {s : State} (hs : Kept s0 s) : Kept s0 (disarmFrost s) := by
  unfold disarmFrost; dsimp only; apply Kept.mk; apply KeptC.fold; apply State.setFld_kept; with_reducible assumption

theorem execFrostCapture_kept {s0 : State} {s : State} (hs : Kept s0 s) : KeptR s0 (execFrostCapture s) := by
  unfold execFrostCapture; dsimp only; split; split; apply KeptR.next; with_reducible assumption; apply KeptR.next; apply State.mark_kept
  apply Kept.mk; apply KeptC.fold; with_reducible assumption; split; apply KeptR.next; apply State.mark_kept; apply Kept.mk
  apply KeptC.fold; with_reducible assumption; split; apply KeptR.next; with_reducible assumption; apply KeptR.next; apply capture_kept
  apply State.at_kept; apply dropCmd_kept; with_reducible assumption; apply KeptR.next; apply capture_kept; apply State.at_kept
  apply disarmFrost_kept; with_reducible assumption; split; apply KeptR.next; apply capture_kept; apply State.at_kept
  apply disarmFrost_kept; with_reducible assumption; split; apply KeptR.next; apply capture_kept; apply State.at_kept
  apply disarmFrost_kept; apply dropCmd_kept; with_reducible assumption; apply KeptR.next; apply capture_kept; apply State.at_kept
  apply dropCmd_kept; with_reducible assumption

theorem armFrost_kept {s0 : State} {s : State} (hs : Kept s0 s) : Kept s0 (armFrost s) := by
  unfold armFrost; dsimp only; split; with_reducible assumption; split; apply State.mark_kept; with_reducible assumption; split
  apply Kept.mk; apply KeptC.fold; apply State.mark_kept; with_reducible assumption; apply capture_kept; with_reducible assumption

theorem execFrsArm_kept {s0 : State} {s : State} (hs : Kept s0 s) : KeptR s0 (execFrsArm s) := by
  unfold execFrsArm; apply KeptR.next; apply armFrost_kept; with_reducible assumption

theorem releaseFrost_kept {s0 : State} {s : State} (hs : Kept s0 s) : Kept s0 (releaseFrost s) := by
  unfold releaseFrost; dsimp only; apply Kept.mk; apply KeptC.fold; apply State.setFld_kept; with_reducible assumption

theorem execFrsRelease_kept {s0 : State} {s : State} (hs : Kept s0 s) : KeptR s0 (execFrsRelease s) := by
  unfold execFrsRelease; apply KeptR.next; apply Kept.ite; with_reducible assumption; apply releaseFrost_kept; with_reducible assumption

theorem sampleStraps_kept {s0 : State} {s : State} (v : BitVec 4) (hs : Kept s0 s) : Kept s0 (sampleStraps s v) := by
  unfold sampleStraps; dsimp only; apply Kept.mk; apply KeptC.fold; apply State.setFld_kept; apply State.setFld_kept
  apply State.setFld_kept; with_reducible assumption

theorem resetPackage_kept {s0 : State} {s : State} (hs : Kept s0 s) : Kept s0 (resetPackage s) := by
  unfold resetPackage
  refine sampleStraps_kept _ (State.setFld_kept _ _ (State.setFld_kept _ _ (hs.of_wf rfl rfl (fun _ => ?_))))
  rfl

theorem execPorstFall_kept {s0 : State} {s : State} (hs : Kept s0 s) : KeptR s0 (execPorstFall s) := by
  unfold execPorstFall; dsimp only; apply KeptR.next; apply Kept.mk; apply KeptC.fold; apply resetPackage_kept; with_reducible assumption

theorem losePower_kept {s0 : State} {s : State} (hs : Kept s0 s) : Kept s0 (losePower s) := by
  unfold losePower; dsimp only; apply Kept.mk; apply KeptC.fold; apply State.setFld_kept; apply resetPackage_kept; with_reducible assumption

theorem execBrownout_kept {s0 : State} {s : State} (hs : Kept s0 s) : KeptR s0 (execBrownout s) := by
  unfold execBrownout; apply KeptR.next; split; apply State.mark_kept; apply losePower_kept; with_reducible assumption
  with_reducible assumption

theorem execVinBelow10V_kept {s0 : State} {s : State} (hs : Kept s0 s) : KeptR s0 (execVinBelow10V s) := by
  unfold execVinBelow10V; apply KeptR.next; apply State.setFld_kept; apply losePower_kept; with_reducible assumption

theorem execVinRise_kept {s0 : State} {s : State} (hs : Kept s0 s) : KeptR s0 (execVinRise s) := by
  unfold execVinRise; dsimp only; apply KeptR.next; apply Kept.mk; apply KeptC.fold; with_reducible assumption

theorem supplyStop_kept {s0 : State} {s : State} (f : Fld) (hs : Kept s0 s) : Kept s0 (supplyStop s f) := by
  unfold supplyStop; dsimp only; apply withAlert_kept; with_reducible assumption; apply Kept.mk; apply KeptC.fold; apply holdVoltage_kept
  apply State.setFld_kept; apply stopAtOnce_kept; apply State.mark_kept; apply State.mark_kept; apply playBlocks_kept
  with_reducible assumption

theorem execOv_kept {s0 : State} {s : State} (hs : Kept s0 s) : KeptR s0 (execOv s) := by
  unfold execOv; apply KeptR.next; split; apply supplyStop_kept; with_reducible assumption; with_reducible assumption

theorem execOc_kept {s0 : State} {s : State} (hs : Kept s0 s) : KeptR s0 (execOc s) := by
  unfold execOc; apply KeptR.next; split; apply supplyStop_kept; with_reducible assumption; with_reducible assumption

theorem execRegFault_kept {s0 : State} (d : DieIx) {s : State} (hs : Kept s0 s) : KeptR s0 (execRegFault d s) := by
  unfold execRegFault; dsimp only; split; apply KeptR.next; split; apply Kept.mk; apply KeptC.fold; apply State.setFld_kept
  apply supplyStop_kept; with_reducible assumption; apply State.setFld_kept; apply supplyStop_kept; with_reducible assumption
  apply KeptR.next; with_reducible assumption

theorem execRefclkLoss_kept {s0 : State} {s : State} (hs : Kept s0 s) : KeptR s0 (execRefclkLoss s) := by
  unfold execRefclkLoss; dsimp only; apply KeptR.next; split; apply supplyStop_kept; apply Kept.mk; apply KeptC.fold
  with_reducible assumption; apply Kept.mk; apply KeptC.fold; with_reducible assumption

theorem execPowerAverage_kept {s0 : State} (vin : BitVec 16) (iin : BitVec 16) (pin : BitVec 16) {s : State} (hs : Kept s0 s) :
    KeptR s0 (execPowerAverage vin iin pin s) := by
  unfold execPowerAverage; dsimp only; split; apply KeptR.next; with_reducible assumption; split; apply KeptR.next; apply withAlert_kept
  with_reducible assumption; apply Kept.mk; apply KeptC.fold; apply State.mark_kept; apply State.mark_kept; split; apply State.bump_kept
  apply State.raise_kept; apply State.setFld_kept; apply State.setFld_kept; apply State.setFld_kept; with_reducible assumption
  apply State.raise_kept; apply State.setFld_kept; apply State.setFld_kept; apply State.setFld_kept; with_reducible assumption; split
  apply KeptR.next; apply Kept.mk; apply KeptC.fold; split; apply State.bump_kept; apply State.raise_kept; apply State.setFld_kept
  apply State.setFld_kept; apply State.setFld_kept; with_reducible assumption; apply State.raise_kept; apply State.setFld_kept
  apply State.setFld_kept; apply State.setFld_kept; with_reducible assumption; apply KeptR.next; apply Kept.mk; apply KeptC.fold
  apply State.setFld_kept; split; apply State.bump_kept; apply State.raise_kept; apply State.setFld_kept; apply State.setFld_kept
  apply State.setFld_kept; with_reducible assumption; apply State.raise_kept; apply State.setFld_kept; apply State.setFld_kept
  apply State.setFld_kept; with_reducible assumption

theorem smbReply_kept {s0 : State} {s : State} (code : Byte) (count : List Byte) (l : List Byte) (hs : Kept s0 s) :
    Kept s0 (smbReply s code count l) := by
  unfold smbReply; dsimp only; apply Kept.ite; apply State.send_kept; with_reducible assumption; with_reducible assumption

theorem execSmbusReadIdentity_kept {s0 : State} {s : State} (hs : Kept s0 s) : KeptR s0 (execSmbusReadIdentity s) := by
  unfold execSmbusReadIdentity; apply KeptR.next; apply smbReply_kept; with_reducible assumption

theorem execSmbusReadStatus_kept {s0 : State} {s : State} (hs : Kept s0 s) : KeptR s0 (execSmbusReadStatus s) := by
  unfold execSmbusReadStatus; apply KeptR.next; apply smbReply_kept; with_reducible assumption

theorem execSmbusReadVin_kept {s0 : State} {s : State} (hs : Kept s0 s) : KeptR s0 (execSmbusReadVin s) := by
  unfold execSmbusReadVin; apply KeptR.next; apply smbReply_kept; with_reducible assumption

theorem execSmbusReadCurrent_kept {s0 : State} {s : State} (hs : Kept s0 s) : KeptR s0 (execSmbusReadCurrent s) := by
  unfold execSmbusReadCurrent; apply KeptR.next; apply smbReply_kept; with_reducible assumption

theorem execSmbusReadPower_kept {s0 : State} {s : State} (hs : Kept s0 s) : KeptR s0 (execSmbusReadPower s) := by
  unfold execSmbusReadPower; apply KeptR.next; apply smbReply_kept; with_reducible assumption

theorem execSmbusReadPeak_kept {s0 : State} {s : State} (hs : Kept s0 s) : KeptR s0 (execSmbusReadPeak s) := by
  unfold execSmbusReadPeak; apply KeptR.next; split; apply State.setFld_kept; apply smbReply_kept; with_reducible assumption
  with_reducible assumption

theorem execSmbusReadTemperature_kept {s0 : State} {s : State} (hs : Kept s0 s) : KeptR s0 (execSmbusReadTemperature s) := by
  unfold execSmbusReadTemperature; apply KeptR.next; apply smbReply_kept; with_reducible assumption

theorem execSmbusReadBootStatus_kept {s0 : State} {s : State} (hs : Kept s0 s) : KeptR s0 (execSmbusReadBootStatus s) := by
  unfold execSmbusReadBootStatus; apply KeptR.next; apply smbReply_kept; with_reducible assumption

theorem execSmbusAlertMask_kept {s0 : State} (write : Option (BitVec 16)) {s : State} (hs : Kept s0 s) :
    KeptR s0 (execSmbusAlertMask write s) := by
  unfold execSmbusAlertMask; split; apply KeptR.next; split; apply State.setFld_kept; with_reducible assumption; with_reducible assumption
  apply KeptR.next; apply smbReply_kept; with_reducible assumption

theorem execAlertResponse_kept {s0 : State} {s : State} (hs : Kept s0 s) : KeptR s0 (execAlertResponse s) := by
  unfold execAlertResponse; dsimp only; apply KeptR.ite; apply KeptR.next; apply Kept.mk; apply KeptC.fold; apply State.send_kept
  with_reducible assumption; apply KeptR.next; with_reducible assumption

theorem pinsBack_kept {s0 : State} {before : State} {s : State} (hs : Kept s0 before) (hs2 : Kept s0 s) :
    Kept s0 (pinsBack before s) := by
  unfold pinsBack; apply Kept.ite; apply showPads_kept; with_reducible assumption; with_reducible assumption

theorem tapLoad_kept {s0 : State} {s : State} (code : BitVec 8) (dr : BitVec 102) (hs : Kept s0 s) : Kept s0 (tapLoad s code dr) := by
  unfold tapLoad; dsimp only; apply Kept.ite; apply pinsBack_kept; with_reducible assumption; apply Kept.mk; apply KeptC.fold
  with_reducible assumption; with_reducible assumption

theorem tapRun_kept {s0 : State} {s : State} (code : BitVec 8) (dr : BitVec 102) (width : Nat) (out : BitVec 102) (hs : Kept s0 s) :
    Kept s0 (tapRun s code dr width out) := by
  unfold tapRun; dsimp only; apply Kept.ite; apply State.send_kept; apply tapLoad_kept; with_reducible assumption; apply tapLoad_kept
  with_reducible assumption

theorem boundaryScan_kept {s0 : State} {s : State} (code : BitVec 8) (pins : BitVec 102) (shifted : BitVec 102) (hs : Kept s0 s) :
    Kept s0 (boundaryScan s code pins shifted) := by
  unfold boundaryScan; dsimp only; apply Kept.ite; apply Kept.mk; apply KeptC.fold; apply tapRun_kept; with_reducible assumption
  apply tapRun_kept; with_reducible assumption

theorem execExtest_kept {s0 : State} (pins : BitVec 102) (shifted : BitVec 102) {s : State} (hs : Kept s0 s) :
    KeptR s0 (execExtest pins shifted s) := by
  unfold execExtest; dsimp only; apply KeptR.next; apply Kept.ite; apply State.send_kept; apply boundaryScan_kept; with_reducible assumption
  apply boundaryScan_kept; with_reducible assumption

theorem execSamplePreload_kept {s0 : State} (pins : BitVec 102) (shifted : BitVec 102) {s : State} (hs : Kept s0 s) :
    KeptR s0 (execSamplePreload pins shifted s) := by
  unfold execSamplePreload; apply KeptR.next; apply boundaryScan_kept; with_reducible assumption

theorem execIdcode_kept {s0 : State} {s : State} (hs : Kept s0 s) : KeptR s0 (execIdcode s) := by
  unfold execIdcode; apply KeptR.next; apply tapRun_kept; with_reducible assumption

theorem execFrsAddr_kept {s0 : State} (offset : Word32) {s : State} (hs : Kept s0 s) : KeptR s0 (execFrsAddr offset s) := by
  unfold execFrsAddr; dsimp only; apply KeptR.next; apply Kept.ite; apply Kept.mk; apply KeptC.fold; apply tapLoad_kept
  with_reducible assumption; apply tapLoad_kept; with_reducible assumption

theorem execFrsData_kept {s0 : State} {s : State} (hs : Kept s0 s) : KeptR s0 (execFrsData s) := by
  unfold execFrsData; dsimp only; apply KeptR.next; apply Kept.ite; apply Kept.mk; apply KeptC.fold; apply tapRun_kept
  with_reducible assumption; apply tapRun_kept; with_reducible assumption

theorem execBypass_kept {s0 : State} (code : Byte) {s : State} (hs : Kept s0 s) : KeptR s0 (execBypass code s) := by
  unfold execBypass; apply KeptR.next; apply tapRun_kept; with_reducible assumption

theorem execTrst_kept {s0 : State} {s : State} (hs : Kept s0 s) : KeptR s0 (execTrst s) := by
  unfold execTrst; apply KeptR.next; apply pinsBack_kept; with_reducible assumption; apply Kept.mk; apply KeptC.fold
  with_reducible assumption

theorem flashGo_kept {s0 : State} {s : State} (hs : Kept s0 s) : Kept s0 (flashGo s) := by
  unfold flashGo; dsimp only; apply Kept.ite; apply State.mark_kept; with_reducible assumption; apply Kept.mk; apply KeptC.fold
  apply State.mark_kept; apply State.mark_kept; apply Kept.ite; with_reducible assumption; apply State.send_kept; with_reducible assumption

theorem execFlashRead_kept {s0 : State} {s : State} (hs : Kept s0 s) : KeptR s0 (execFlashRead s) := by
  unfold execFlashRead; apply KeptR.next; apply flashGo_kept; apply State.setFld_kept; with_reducible assumption

theorem execFlashProgram_kept {s0 : State} {s : State} (hs : Kept s0 s) : KeptR s0 (execFlashProgram s) := by
  unfold execFlashProgram; apply KeptR.next; apply flashGo_kept; apply State.setFld_kept; with_reducible assumption

theorem execFlashErase_kept {s0 : State} {s : State} (hs : Kept s0 s) : KeptR s0 (execFlashErase s) := by
  unfold execFlashErase; apply KeptR.next; apply flashGo_kept; apply State.setFld_kept; with_reducible assumption

theorem fillBuffer_kept {s0 : State} {s : State} (bytes : List Byte) (hs : Kept s0 s) : Kept s0 (fillBuffer s bytes) := by
  unfold fillBuffer; dsimp only; apply Kept.foldl; intros; apply State.setRaw_kept; with_reducible assumption; with_reducible assumption

theorem storeFlash_kept {s0 : State} {s : State} (a : Nat) (bytes : List Byte) (hs : Kept s0 s) : Kept s0 (storeFlash s a bytes) := by
  unfold storeFlash; apply Kept.mk; apply KeptC.fold; with_reducible assumption

theorem eraseSector_kept {s0 : State} {s : State} (a : Nat) (hs : Kept s0 s) : Kept s0 (eraseSector s a) := by
  unfold eraseSector; apply Kept.mk; apply KeptC.fold; with_reducible assumption

theorem execFlashCommandDone_kept {s0 : State} {s : State} (hs : Kept s0 s) : KeptR s0 (execFlashCommandDone s) := by
  unfold execFlashCommandDone; dsimp only; split; apply KeptR.next; with_reducible assumption; apply KeptR.ite; apply KeptR.next
  apply State.mark_kept; apply Kept.mk; apply KeptC.fold; apply State.setFld_kept; apply State.setFld_kept; with_reducible assumption; split
  apply KeptR.next; apply fillBuffer_kept; apply Kept.mk; apply KeptC.fold; apply State.setFld_kept; apply State.setFld_kept
  with_reducible assumption; apply KeptR.next; apply storeFlash_kept; apply Kept.mk; apply KeptC.fold; apply State.setFld_kept
  apply State.setFld_kept; with_reducible assumption; apply KeptR.next; apply eraseSector_kept; apply Kept.mk; apply KeptC.fold
  apply State.setFld_kept; apply State.setFld_kept; with_reducible assumption

theorem programOwner_kept {s0 : State} {s : State} (confirm : Byte) (hs : Kept s0 s) : Kept s0 (programOwner s confirm) := by
  unfold programOwner; dsimp only; apply Kept.ite; apply State.mark_kept; with_reducible assumption; apply Kept.mk; apply KeptC.fold
  apply State.mark_kept; apply State.mark_kept; with_reducible assumption

theorem execOwnerProgram_kept {s0 : State} (confirm : Byte) {s : State} (hs : Kept s0 s) : KeptR s0 (execOwnerProgram confirm s) := by
  unfold execOwnerProgram; apply KeptR.next; apply programOwner_kept; with_reducible assumption

theorem execOwnerProgramDone_kept {s0 : State} {s : State} (hs : Kept s0 s) : KeptR s0 (execOwnerProgramDone s) := by
  unfold execOwnerProgramDone
  split
  · exact KeptR.next hs
  · refine KeptR.next ((State.setFld_kept fOwnerBusy 0 (State.setFld_kept fOwnerGo 0 hs)).fuses (by dsimp only) ?_ (by dsimp only) (by dsimp only))
    rw [State.setFld_fuses, State.setFld_fuses]; rfl

theorem after_kept {s0 s : State} {r : Res} (hs : Kept s0 s) (hr : KeptR s0 r) : Kept s0 (after s r) := by
  unfold after
  split
  · exact hr _ rfl
  · exact hs

theorem setMem_kept {s0 : State} {s : State} (a : Agent) (kind : Nat) (m : Store) (hs : Kept s0 s) : Kept s0 (setMem s a kind m) := by
  unfold setMem; dsimp only; split; apply State.setFun_kept; with_reducible assumption; apply State.setUnit_kept; with_reducible assumption

theorem setWinHi_kept {s0 : State} {s : State} (a : Agent) (v : Word32) (hs : Kept s0 s) : Kept s0 (setWinHi s a v) := by
  unfold setWinHi; dsimp only; split; apply State.setFun_kept; with_reducible assumption; apply State.setUnit_kept
  with_reducible assumption

theorem winNext_kept {s0 : State} {s : State} (a : Agent) (hs : Kept s0 s) : Kept s0 (winNext s a) := by
  unfold winNext; split; apply State.setFld_kept; with_reducible assumption; with_reducible assumption

theorem writeWindow_kept {s0 : State} {s : State} (a : Agent) (v : Word32) (hs : Kept s0 s) : Kept s0 (writeWindow s a v) := by
  unfold writeWindow; dsimp only; split; apply winNext_kept; apply State.mark_kept; with_reducible assumption; apply winNext_kept
  apply State.setFld_kept; apply setMem_kept; with_reducible assumption

theorem countWindow_kept {s0 : State} {s : State} (a : Agent) (k : Nat) (w : Nat) (hs : Kept s0 s) : Kept s0 (countWindow s a k w) := by
  unfold countWindow; dsimp only; split; with_reducible assumption; apply State.bump_kept; apply State.bump_kept; with_reducible assumption

theorem readWindow_kept {s0 : State} {s : State} (a : Agent) (hs : Kept s0 s) : Kept s0 (readWindow s a).2 := by
  unfold readWindow; dsimp only; split; dsimp only; apply winNext_kept; apply State.mark_kept; with_reducible assumption; dsimp only
  apply winNext_kept; apply countWindow_kept; apply State.setFld_kept; apply State.setFld_kept; with_reducible assumption

theorem clearRead_kept {s0 : State} {s : State} (a : Nat) (hs : Kept s0 s) : Kept s0 (clearRead s a) := by
  unfold clearRead; apply Kept.foldl; intros; split; apply State.setFld_kept; with_reducible assumption; apply State.setFld_kept
  with_reducible assumption; apply State.setFld_kept; with_reducible assumption; with_reducible assumption; with_reducible assumption

theorem readSide_kept {s0 : State} {s : State} (a : Nat) (hs : Kept s0 s) : Kept s0 (readSide s a) := by
  unfold readSide; dsimp only; split; apply State.setFld_kept; with_reducible assumption; split; apply Kept.mk; apply KeptC.fold
  with_reducible assumption; split; apply State.drawn_kept; with_reducible assumption; split; apply State.setRaw_kept
  with_reducible assumption; with_reducible assumption

theorem regRead_kept {s0 : State} {s : State} (a : Nat) (hs : Kept s0 s) : Kept s0 (regRead s a).2 := by
  unfold regRead; dsimp only; split; dsimp only; with_reducible assumption; split; apply readWindow_kept; with_reducible assumption; split
  apply hqPop_kept; apply settleFor_kept; with_reducible assumption; split; dsimp only; apply readSide_kept; apply settleFor_kept
  with_reducible assumption; dsimp only; apply readSide_kept; apply clearRead_kept; apply settleFor_kept; with_reducible assumption

theorem plainWrite_kept {s0 : State} {s : State} (a : Nat) (v : Word32) (hs : Kept s0 s) : Kept s0 (plainWrite s a v) := by
  unfold plainWrite; dsimp only; split; split; with_reducible assumption; apply State.setRaw_kept; with_reducible assumption
  apply stageWrite_kept; split; with_reducible assumption; apply State.setRaw_kept; with_reducible assumption

theorem modeWrite_kept {s0 : State} {s : State} (a : Nat) (q : QueueId) (v : Word32) (hs : Kept s0 s) :
    Kept s0 (modeWrite s a q v) := by
  unfold modeWrite; dsimp only; split; apply after_kept; split; apply State.setRaw_kept; with_reducible assumption; apply stageWrite_kept
  apply State.setRaw_kept; with_reducible assumption; apply execDropRest_kept; split; apply State.setRaw_kept; with_reducible assumption
  apply stageWrite_kept; apply State.setRaw_kept; with_reducible assumption; split; apply State.setRaw_kept; with_reducible assumption
  apply stageWrite_kept; apply State.setRaw_kept; with_reducible assumption

theorem agentCtrl_kept {s0 : State} {s : State} (g : Agent) (v : Word32) (hs : Kept s0 s) : Kept s0 (agentCtrl s g v) := by
  unfold agentCtrl; dsimp only; split; apply plainWrite_kept; with_reducible assumption; split; apply State.setUnit_kept
  apply plainWrite_kept; with_reducible assumption; apply State.setFun_kept; apply plainWrite_kept; with_reducible assumption

theorem whileStopped_kept {s0 : State} {s : State} (g : Agent) {t : State} (hs : Kept s0 s) (hs3 : Kept s0 t) :
    Kept s0 (whileStopped s g t) := by
  unfold whileStopped; split; apply State.mark_kept; with_reducible assumption; with_reducible assumption

theorem writeDot_kept {s0 : State} {s : State} (g : Nat) (o : Nat) (a : Nat) (v : Word32) (hs : Kept s0 s) :
    Kept s0 (writeDot s g o a v) := by
  unfold writeDot; dsimp only; split; apply whileStopped_kept; with_reducible assumption; apply agentCtrl_kept; with_reducible assumption
  split; apply whileStopped_kept; with_reducible assumption; apply plainWrite_kept; with_reducible assumption; split
  apply whileStopped_kept; with_reducible assumption; apply plainWrite_kept; with_reducible assumption; split; apply writeFence_kept
  with_reducible assumption; split; apply writeWindow_kept; with_reducible assumption; split; apply setWinHi_kept; apply plainWrite_kept
  with_reducible assumption; split; apply modeWrite_kept; with_reducible assumption; apply plainWrite_kept; with_reducible assumption

theorem writeCluster_kept {s0 : State} {s : State} (k : Nat) (o : Nat) (a : Nat) (v : Word32) (hs : Kept s0 s) :
    Kept s0 (writeCluster s k o a v) := by
  unfold writeCluster; dsimp only; split; apply writeDot_kept; with_reducible assumption; split; split; apply whileStopped_kept
  with_reducible assumption; apply agentCtrl_kept; with_reducible assumption; split; apply writeWindow_kept; with_reducible assumption
  split; apply setWinHi_kept; apply plainWrite_kept; with_reducible assumption; apply plainWrite_kept; with_reducible assumption; split
  apply modeWrite_kept; with_reducible assumption; split; split; apply after_kept; with_reducible assumption; apply execDropRest_kept
  with_reducible assumption; with_reducible assumption; split; split; apply after_kept; split; apply after_kept; with_reducible assumption
  apply execLogBegin_kept; with_reducible assumption; with_reducible assumption; apply execLogDone_kept; split; apply after_kept
  with_reducible assumption; apply execLogBegin_kept; with_reducible assumption; with_reducible assumption; split; apply after_kept
  with_reducible assumption; apply execLogBegin_kept; with_reducible assumption; with_reducible assumption; split; apply writeFrameLo_kept
  with_reducible assumption; split; apply State.setLogic_kept; with_reducible assumption; apply plainWrite_kept; with_reducible assumption

theorem writeHazards_kept {s0 : State} {s : State} (r : Nat) (a : Nat) (v : Word32) (hs : Kept s0 s) :
    Kept s0 (writeHazards s r a v) := by
  unfold writeHazards; dsimp only; split; apply State.setRegion_kept; apply plainWrite_kept; with_reducible assumption; apply Kept.mk
  apply KeptC.fold; apply plainWrite_kept; with_reducible assumption

theorem writeRegion_kept {s0 : State} {s : State} (r : Nat) (o : Nat) (a : Nat) (v : Word32) (hs : Kept s0 s) :
    Kept s0 (writeRegion s r o a v) := by
  unfold writeRegion; dsimp only; apply Kept.ite; apply Kept.ite; apply after_kept; apply Kept.ite; apply after_kept; apply plainWrite_kept
  with_reducible assumption; apply execRgnStart_kept; apply plainWrite_kept; with_reducible assumption; apply plainWrite_kept
  with_reducible assumption; apply execRgnRelease_kept; apply Kept.ite; apply after_kept; apply plainWrite_kept; with_reducible assumption
  apply execRgnStart_kept; apply plainWrite_kept; with_reducible assumption; apply plainWrite_kept; with_reducible assumption
  apply Kept.ite; apply after_kept; apply plainWrite_kept; with_reducible assumption; apply execRgnStart_kept; apply plainWrite_kept
  with_reducible assumption; apply plainWrite_kept; with_reducible assumption; apply Kept.ite; apply Kept.ite; apply after_kept
  apply plainWrite_kept; with_reducible assumption; apply execCommitRequest_kept; apply plainWrite_kept; with_reducible assumption
  apply plainWrite_kept; with_reducible assumption; apply Kept.ite; apply plainWrite_kept; with_reducible assumption; apply Kept.ite
  apply writeHazards_kept; with_reducible assumption; apply Kept.ite; apply Kept.ite; apply State.setFld_kept; apply plainWrite_kept
  with_reducible assumption; apply plainWrite_kept; with_reducible assumption; apply Kept.ite; apply Kept.ite; apply recoverRegion_kept
  with_reducible assumption; apply plainWrite_kept; with_reducible assumption; apply Kept.ite; apply Kept.ite; apply startScrub_kept
  apply plainWrite_kept; with_reducible assumption; apply plainWrite_kept; with_reducible assumption; apply Kept.ite; apply Kept.ite
  apply invalidateCache_kept; with_reducible assumption; with_reducible assumption; apply Kept.ite; apply Kept.ite; apply armDesc_kept
  apply Kept.ite; apply abortDesc_kept; with_reducible assumption; with_reducible assumption; apply Kept.ite; apply abortDesc_kept
  with_reducible assumption; with_reducible assumption; apply Kept.ite; apply hqPush_kept; with_reducible assumption; apply plainWrite_kept
  with_reducible assumption

theorem writeDie_kept {s0 : State} {s : State} (d : Nat) (block : Nat) (o : Nat) (a : Nat) (v : Word32) (hs : Kept s0 s) :
    Kept s0 (writeDie s d block o a v) := by
  unfold writeDie; dsimp only; split; split; with_reducible assumption; apply plainWrite_kept; with_reducible assumption; split; split
  with_reducible assumption; apply plainWrite_kept; with_reducible assumption; split; apply State.latch_kept; apply plainWrite_kept
  with_reducible assumption; split; split; apply after_kept; split; apply after_kept; apply plainWrite_kept; with_reducible assumption
  apply execUfuseRead_kept; apply plainWrite_kept; with_reducible assumption; apply plainWrite_kept; with_reducible assumption
  apply execUfuseProgram_kept; split; apply after_kept; apply plainWrite_kept; with_reducible assumption; apply execUfuseRead_kept
  apply plainWrite_kept; with_reducible assumption; apply plainWrite_kept; with_reducible assumption; split; apply after_kept
  apply plainWrite_kept; with_reducible assumption; apply execUfuseRead_kept; apply plainWrite_kept; with_reducible assumption
  apply plainWrite_kept; with_reducible assumption; apply plainWrite_kept; with_reducible assumption

theorem writeLane_kept {s0 : State} {s : State} (site : Nat) (lane : Nat) (a : Nat) (tx : Bool) (v : Word32) (hs : Kept s0 s) :
    Kept s0 (writeLane s site lane a tx v) := by
  unfold writeLane; dsimp only; apply Kept.ite; apply State.mark_kept; with_reducible assumption; apply Kept.ite; apply Kept.ite
  apply toDark_kept; apply Kept.ite; apply State.mark_kept; apply notePair_kept; with_reducible assumption; apply plainWrite_kept
  with_reducible assumption; apply notePair_kept; with_reducible assumption; apply plainWrite_kept; with_reducible assumption
  apply Kept.ite; apply State.mark_kept; apply notePair_kept; with_reducible assumption; apply plainWrite_kept; with_reducible assumption
  apply notePair_kept; with_reducible assumption; apply plainWrite_kept; with_reducible assumption; apply Kept.ite; apply darken_kept
  apply Kept.ite; apply State.mark_kept; apply notePair_kept; with_reducible assumption; apply plainWrite_kept; with_reducible assumption
  apply notePair_kept; with_reducible assumption; apply plainWrite_kept; with_reducible assumption; apply Kept.ite; apply State.mark_kept
  apply darken_kept; apply Kept.ite; apply State.mark_kept; apply notePair_kept; with_reducible assumption; apply plainWrite_kept
  with_reducible assumption; apply notePair_kept; with_reducible assumption; apply plainWrite_kept; with_reducible assumption
  apply Kept.ite; apply requestTrain_kept; apply Kept.ite; apply State.mark_kept; apply notePair_kept; with_reducible assumption
  apply plainWrite_kept; with_reducible assumption; apply notePair_kept; with_reducible assumption; apply plainWrite_kept
  with_reducible assumption; apply startLane_kept; apply Kept.ite; apply State.mark_kept; apply notePair_kept; with_reducible assumption
  apply plainWrite_kept; with_reducible assumption; apply notePair_kept; with_reducible assumption; apply plainWrite_kept
  with_reducible assumption

theorem writeSite_kept {s0 : State} {s : State} (site : Nat) (o : Nat) (a : Nat) (v : Word32) (hs : Kept s0 s) :
    Kept s0 (writeSite s site o a v) := by
  unfold writeSite; dsimp only; apply Kept.ite; apply Kept.ite; apply scrubTile_kept; apply Kept.ite; apply State.setFld_kept
  apply plainWrite_kept; with_reducible assumption; apply plainWrite_kept; with_reducible assumption; apply Kept.ite
  apply State.setFld_kept; apply plainWrite_kept; with_reducible assumption; apply plainWrite_kept; with_reducible assumption
  apply Kept.ite; apply writeLane_kept; with_reducible assumption; apply Kept.ite; apply writeLane_kept; with_reducible assumption
  apply Kept.ite; apply Kept.ite; apply State.mark_kept; with_reducible assumption; apply Kept.ite; apply resetGroup_kept
  apply plainWrite_kept; with_reducible assumption; apply plainWrite_kept; with_reducible assumption; apply Kept.ite; apply Kept.ite
  with_reducible assumption; apply plainWrite_kept; with_reducible assumption; apply Kept.ite; apply writeBond_kept
  with_reducible assumption; apply plainWrite_kept; with_reducible assumption

theorem doorbell_kept {s0 : State} {s : State} (r : Nat) (tail : Nat) (hs : Kept s0 s) : Kept s0 (doorbell s r tail) := by
  unfold doorbell; split; apply State.mark_kept; with_reducible assumption; apply State.setFld_kept; with_reducible assumption

theorem dropAhead_kept {s0 : State} {s : State} (r : Nat) (hs : Kept s0 s) : Kept s0 (dropAhead s r) := by
  unfold dropAhead; dsimp only; split; with_reducible assumption; apply State.setRing_kept; apply State.setFld_kept
  with_reducible assumption

theorem stopPair_kept {s0 : State} {s : State} (r : Nat) (hs : Kept s0 s) : Kept s0 (stopPair s r) := by
  unfold stopPair; dsimp only; split; apply dropAhead_kept; with_reducible assumption; split; apply dropAhead_kept
  with_reducible assumption; apply State.setRing_kept; apply dropAhead_kept; with_reducible assumption; apply Kept.ite; apply dropAhead_kept
  with_reducible assumption; apply State.setRing_kept; apply dropAhead_kept; with_reducible assumption

theorem writeRingCtrl_kept {s0 : State} {s : State} (r : Nat) (a : Nat) (v : Word32) (hs : Kept s0 s) :
    Kept s0 (writeRingCtrl s r a v) := by
  unfold writeRingCtrl; dsimp only; split; apply stopPair_kept; split; apply State.setFld_kept; split; with_reducible assumption
  apply State.mark_kept; with_reducible assumption; apply State.setRaw_kept; with_reducible assumption; split; apply State.setFld_kept
  split; apply State.setFld_kept; split; with_reducible assumption; apply State.mark_kept; with_reducible assumption
  apply State.setRaw_kept; with_reducible assumption; split; apply State.setFld_kept; split; with_reducible assumption
  apply State.mark_kept; with_reducible assumption; apply State.setRaw_kept; with_reducible assumption

theorem writeIndirect_kept {s0 : State} {s : State} (a : Nat) (v : Word32) (hs : Kept s0 s) : Kept s0 (writeIndirect s a v) := by
  unfold writeIndirect; dsimp only; split; apply plainWrite_kept; with_reducible assumption; apply State.mark_kept; apply plainWrite_kept
  with_reducible assumption; apply Kept.ite; apply Kept.mk; apply KeptC.fold; apply State.mark_kept; apply State.setFld_kept
  apply State.setFld_kept; apply plainWrite_kept; with_reducible assumption; apply State.mark_kept; apply plainWrite_kept
  with_reducible assumption

theorem writePackage_kept {s0 : State} {s : State} (a : Nat) (v : Word32) (hs : Kept s0 s) : Kept s0 (writePackage s a v) := by
  unfold writePackage; dsimp only; apply Kept.ite; apply claimTk_kept; apply plainWrite_kept; with_reducible assumption; apply Kept.ite
  apply Kept.ite; apply clearDetach_kept; apply plainWrite_kept; with_reducible assumption; apply plainWrite_kept; with_reducible assumption
  apply Kept.ite; apply Kept.ite; apply tkSend_kept; apply plainWrite_kept; with_reducible assumption; apply plainWrite_kept
  with_reducible assumption; apply Kept.ite; apply showPads_kept; apply plainWrite_kept; with_reducible assumption; apply Kept.ite
  apply State.setRaw_kept; with_reducible assumption; apply Kept.ite; apply writeTimCtrl_kept; with_reducible assumption; apply Kept.ite
  apply Kept.ite; apply writeRingCtrl_kept; with_reducible assumption; apply Kept.ite; apply State.mark_kept; with_reducible assumption
  apply plainWrite_kept; with_reducible assumption; apply Kept.ite; apply doorbell_kept; with_reducible assumption; apply Kept.ite
  apply writeIndirect_kept; with_reducible assumption; apply Kept.ite; apply Kept.ite; apply flashGo_kept; apply plainWrite_kept
  with_reducible assumption; apply plainWrite_kept; with_reducible assumption; apply Kept.ite; apply Kept.ite; apply programOwner_kept
  apply plainWrite_kept; with_reducible assumption; apply plainWrite_kept; with_reducible assumption; apply Kept.ite; apply Kept.ite
  apply armFrost_kept; apply Kept.ite; apply releaseFrost_kept; apply plainWrite_kept; with_reducible assumption; apply plainWrite_kept
  with_reducible assumption; apply Kept.ite; apply releaseFrost_kept; apply plainWrite_kept; with_reducible assumption
  apply plainWrite_kept; with_reducible assumption; apply plainWrite_kept; with_reducible assumption

theorem writeCore_kept {s0 : State} {s : State} (a : Nat) (v : Word32) (hs : Kept s0 s) : Kept s0 (writeCore s a v) := by
  unfold writeCore; dsimp only; split; with_reducible assumption; split; apply writePackage_kept; with_reducible assumption; split
  apply writeSite_kept; with_reducible assumption; split; apply writeRegion_kept; with_reducible assumption; split; apply writeCluster_kept
  with_reducible assumption; apply writeDie_kept; with_reducible assumption

theorem execWindowWrite_kept {s0 : State} (a : Agent) (v : Word32) {s : State} (hs : Kept s0 s) : KeptR s0 (execWindowWrite a v s) := by
  unfold execWindowWrite; apply KeptR.next; apply Kept.ite; with_reducible assumption; apply writeWindow_kept; with_reducible assumption

theorem readOut_kept {s0 : State} {s : State} (a : Nat) (hs : Kept s0 s) : Kept s0 (readOut s a) := by
  unfold readOut; dsimp only; apply State.send_kept; apply regRead_kept; with_reducible assumption

theorem execWindowRead_kept {s0 : State} (a : Agent) {s : State} (hs : Kept s0 s) : KeptR s0 (execWindowRead a s) := by
  unfold execWindowRead; apply KeptR.next; apply readOut_kept; with_reducible assumption

theorem execLoReadLatch_kept {s0 : State} (r : LoReg) {s : State} (hs : Kept s0 s) : KeptR s0 (execLoReadLatch r s) := by
  unfold execLoReadLatch; apply KeptR.next; apply readOut_kept; with_reducible assumption

theorem execRcRead_kept {s0 : State} (addr : Word32) {s : State} (hs : Kept s0 s) : KeptR s0 (execRcRead addr s) := by
  unfold execRcRead; apply KeptR.next; apply readOut_kept; with_reducible assumption

theorem execHrgDb_kept {s0 : State} (r : RingIx) (v : Word32) {s : State} (hs : Kept s0 s) : KeptR s0 (execHrgDb r v s) := by
  unfold execHrgDb; apply KeptR.next; split; with_reducible assumption; apply doorbell_kept; with_reducible assumption

theorem execHrgEnable_kept {s0 : State} (r : RingIx) (v : Word32) {s : State} (hs : Kept s0 s) : KeptR s0 (execHrgEnable r v s) := by
  unfold execHrgEnable; apply KeptR.next; apply writeCore_kept; with_reducible assumption

end Sys2Proof.Machine
end

