-- ==== Sys2Proof/Laws/KeptHost.lean ====
section
/-!
SUPPORT. Laws/KeptHost.lean: one lemma per operation: it keeps the waiting commands, the identity and the canonical form (Laws/Kept.lean):
the load, boot, the host ring, the steward port, the flits and the memory port.
-/
set_option linter.unusedVariables false
namespace Sys2Proof.Machine

theorem resetModes_kept {s0 : State} {s : State} (hs : Kept s0 s) : Kept s0 (resetModes s) := by
  unfold resetModes
  refine hs.of_wf rfl rfl (fun w => ?_)
  simp only [State.wf, Bool.and_eq_true] at w ⊢
  refine ⟨⟨⟨risingKeys_filter _ _ (risingKeys_map _ (fun e => by split <;> rfl) _ w.1.1.1), ?_⟩, w.1.2⟩, w.2⟩
  rw [List.all_eq_true]
  exact fun e he => (List.mem_filter.mp he).2

theorem clearArray_kept {s0 : State} {s : State} (hs : Kept s0 s) : Kept s0 (clearArray s) := by
  unfold clearArray; dsimp only; apply Kept.mk; apply KeptC.fold; apply haltClusters_kept; apply haltAgents_kept; with_reducible assumption

theorem dropTransfers_kept {s0 : State} {s : State} (hs : Kept s0 s) : Kept s0 (dropTransfers s) := by
  unfold dropTransfers; dsimp only; apply Kept.foldl; intros; apply withdrawAll_kept; with_reducible assumption; apply Kept.foldl; intros
  apply withdrawAll_kept; apply Kept.foldl; intros; apply State.setFld_kept; apply State.setFld_kept; with_reducible assumption
  with_reducible assumption; with_reducible assumption

theorem unloadImage_kept {s0 : State} {s : State} (hs : Kept s0 s) : Kept s0 (unloadImage s) := by
  unfold unloadImage
  extract_lets s1 s2 s3 s4
  have h1 : Kept s0 s1 := Kept.foldl (fun _ _ h => startRegion_kept _ (State.setFld_kept _ _ h)) (State.setFld_kept _ _ (State.mark_kept _ hs))
  have h3 : Kept s0 s3 := resetModes_kept (Kept.filter _ (clearArray_kept (dropTransfers_kept h1)))
  have h4 : Kept s0 s4 := Kept.foldl (fun _ _ h => Kept.ite (State.setFld_kept _ _ h) h) h3
  exact Kept.mk (KeptC.fold (State.setFld_kept _ _ (State.setFld_kept _ _ (State.setFld_kept _ _ (State.setFld_kept _ _ (State.setFld_kept _ _
    (State.setFld_kept _ _ h4)))))))

theorem dropImage_kept {s0 : State} {s : State} (hs : Kept s0 s) : Kept s0 (dropImage s) := by
  unfold dropImage; dsimp only; apply Kept.ite; apply toPll_kept; apply Kept.mk; apply KeptC.fold; apply unloadImage_kept
  with_reducible assumption; apply Kept.mk; apply KeptC.fold; apply unloadImage_kept; with_reducible assumption

theorem writeWords_kept {s0 : State} {s : State} (l : List (Nat × Nat)) (hs : Kept s0 s) : Kept s0 (writeWords s l) := by
  unfold writeWords; apply Kept.foldl; intros; apply plainWrite_kept; with_reducible assumption; with_reducible assumption

theorem putWords_kept {s0 : State} {s : State} (a : Agent) (kind : Nat) (start : Nat) (ws : List Word64) (hs : Kept s0 s) :
    Kept s0 (putWords s a kind start ws) := by
  unfold putWords; apply setMem_kept; with_reducible assumption

theorem clearIdle_kept {s0 : State} {s : State} (hs : Kept s0 s) : Kept s0 (clearIdle s) := by
  unfold clearIdle; dsimp only; apply Kept.mk; apply KeptC.fold; with_reducible assumption

theorem placeSection_kept {s0 : State} (h : Hdr) (i : Nat) (p : Placement) {s : State} (x : Sect) (hs : Kept s0 s) :
    Kept s0 (placeSection h i p s x) := by
  unfold placeSection; dsimp only; split; apply putWords_kept; with_reducible assumption; apply writeWords_kept; with_reducible assumption
  apply putWords_kept; with_reducible assumption; apply putWords_kept; with_reducible assumption; apply putWords_kept
  with_reducible assumption; apply putWords_kept; with_reducible assumption; apply writeWords_kept; with_reducible assumption
  apply State.setCluster_kept; with_reducible assumption; apply writeWords_kept; with_reducible assumption; apply writeWords_kept
  with_reducible assumption; apply Kept.foldl; intros; apply State.bump_kept; apply applyFrame_kept; with_reducible assumption
  with_reducible assumption; with_reducible assumption

theorem placeAll_kept {s0 : State} (h : Hdr) (ss : List Sect) (ps : List Placement) {s : State} (hs : Kept s0 s) :
    Kept s0 (placeAll h ss ps s) := by
  unfold placeAll; apply Kept.foldl; intros; apply Kept.foldl; intros; apply placeSection_kept; with_reducible assumption
  with_reducible assumption; with_reducible assumption

theorem poisonWords_kept {s0 : State} {s : State} (a : Agent) (kind : Nat) (start : Nat) (off : Nat) (n : Nat) (bad : List Nat) (hs : Kept s0 s) :
    Kept s0 (poisonWords s a kind start off n bad) := by
  unfold poisonWords; apply setMem_kept; with_reducible assumption

theorem poisonSection_kept {s0 : State} (bad : List Nat) (p : Placement) {s : State} (x : Sect) (hs : Kept s0 s) :
    Kept s0 (poisonSection bad p s x) := by
  unfold poisonSection; dsimp only; split; apply poisonWords_kept; with_reducible assumption; apply poisonWords_kept
  with_reducible assumption; apply poisonWords_kept; with_reducible assumption; apply poisonWords_kept; with_reducible assumption
  apply poisonWords_kept; with_reducible assumption; apply State.setCluster_kept; with_reducible assumption; with_reducible assumption

theorem poisonAll_kept {s0 : State} (bad : List Nat) (ss : List Sect) (ps : List Placement) {s : State} (hs : Kept s0 s) :
    Kept s0 (poisonAll bad ss ps s) := by
  unfold poisonAll; apply Kept.ite; with_reducible assumption; apply Kept.foldl; intros; apply Kept.foldl; intros; apply poisonSection_kept
  with_reducible assumption; with_reducible assumption; with_reducible assumption

theorem placeSources_kept {s0 : State} (h : Hdr) (ss : List Sect) {s : State} (p : Placement) (hs : Kept s0 s) :
    Kept s0 (placeSources h ss s p) := by
  unfold placeSources; dsimp only; apply Kept.foldl; intros; split; apply State.setUnit_kept; with_reducible assumption
  with_reducible assumption; with_reducible assumption

theorem placeVas_kept {s0 : State} (h : Hdr) (ss : List Sect) (channels : Nat) {s : State} (hs : Kept s0 s) :
    Kept s0 (placeVas h ss channels s) := by
  unfold placeVas; dsimp only; apply Kept.foldl; intros; apply State.setFld_kept; apply State.setFld_kept; apply State.setFld_kept
  apply State.setFld_kept; with_reducible assumption; apply Kept.foldl; intros; split; apply State.setFld_kept; apply State.setFld_kept
  apply State.setFld_kept; with_reducible assumption; apply State.setFld_kept; with_reducible assumption; with_reducible assumption

theorem placeFabric_kept {s0 : State} (ss : List Sect) {s : State} (hs : Kept s0 s) : Kept s0 (placeFabric ss s) := by
  unfold placeFabric; dsimp only; apply Kept.foldl; intros; apply Kept.foldl; intros; apply State.setMc_kept; apply writeWords_kept
  with_reducible assumption; apply Kept.foldl; intros; apply State.setTxLink_kept; apply writeWords_kept; with_reducible assumption
  apply Kept.foldl; intros; split; with_reducible assumption; apply State.setFld_kept; apply writeWords_kept; with_reducible assumption
  with_reducible assumption; with_reducible assumption

theorem placeStages_kept {s0 : State} (ss : List Sect) (ps : List Placement) {s : State} (hs : Kept s0 s) :
    Kept s0 (placeStages ss ps s) := by
  unfold placeStages; dsimp only; apply Kept.foldl; intros; apply Kept.foldl; intros; apply Kept.foldl; intros; apply hqPush_kept
  with_reducible assumption; apply Kept.foldl; intros; apply writeWords_kept; with_reducible assumption; with_reducible assumption
  apply Kept.foldl; intros; apply writeWords_kept; with_reducible assumption; with_reducible assumption; with_reducible assumption

theorem placePackage_kept {s0 : State} (b : List Byte) {s : State} (hs : Kept s0 s) : Kept s0 (placePackage b s) := by
  unfold placePackage; dsimp only; apply State.setFld_kept; apply State.setFld_kept; apply Kept.mk; apply KeptC.fold; apply showPads_kept
  apply Kept.foldl; intros; apply writeWords_kept; with_reducible assumption; apply placeStages_kept; apply placeFabric_kept
  apply placeVas_kept; apply Kept.foldl; intros; apply State.mark_kept; with_reducible assumption; apply Kept.foldl; intros
  apply placeSources_kept; with_reducible assumption; with_reducible assumption

theorem writeImage_kept {s0 : State} {s : State} (b : List Byte) (bad : List Nat) (hs : Kept s0 s) : Kept s0 (writeImage s b bad) := by
  unfold writeImage; dsimp only; apply Kept.ite; apply toPll_kept; apply Kept.mk; apply KeptC.fold; apply Kept.foldl; intros; apply Kept.ite
  apply releaseRegion_kept; with_reducible assumption; with_reducible assumption; apply clearIdle_kept; apply Kept.mk; apply KeptC.fold
  apply placePackage_kept; apply poisonAll_kept; apply placeAll_kept; apply unloadImage_kept; with_reducible assumption; apply Kept.mk
  apply KeptC.fold; apply Kept.foldl; intros; apply Kept.ite; apply releaseRegion_kept; with_reducible assumption; with_reducible assumption
  apply clearIdle_kept; apply Kept.mk; apply KeptC.fold; apply placePackage_kept; apply poisonAll_kept; apply placeAll_kept
  apply unloadImage_kept; with_reducible assumption

theorem setMode_kept {s0 : State} {s : State} (hs : Kept s0 s) : Kept s0 (setMode s) := by
  unfold setMode; dsimp only; split; apply State.setFld_kept; apply State.setFld_kept; apply State.setFld_kept; apply State.setFld_kept
  apply State.setFld_kept; with_reducible assumption; apply State.setFld_kept; apply State.setFld_kept; apply State.setFld_kept
  apply State.setFld_kept; apply State.setFld_kept; with_reducible assumption

theorem applyImage_kept {s0 : State} {s : State} (b : List Byte) (hs : Kept s0 s) : Kept s0 (applyImage s b) := by
  unfold applyImage; apply setMode_kept; apply writeImage_kept; with_reducible assumption

theorem recordLoad_kept {s0 : State} {s : State} (r : Option (Nat × Nat)) (hs : Kept s0 s) : Kept s0 (recordLoad s r) := by
  unfold recordLoad; split; apply State.setRaw_kept; with_reducible assumption; apply State.setRaw_kept; apply State.drawn_kept
  with_reducible assumption

theorem enterRecovery_kept {s0 : State} {s : State} (hs : Kept s0 s) : Kept s0 (enterRecovery s) := by
  unfold enterRecovery; dsimp only; apply Kept.mk; apply KeptC.fold; apply State.setFld_kept; with_reducible assumption

theorem applySettings_kept {s0 : State} {s : State} (l : List Byte) (hs : Kept s0 s) : Kept s0 (applySettings s l) := by
  unfold applySettings; dsimp only; apply Kept.foldl; intros; split; apply State.mark_kept; apply writeCore_kept; with_reducible assumption
  apply writeCore_kept; with_reducible assumption; with_reducible assumption

theorem loadDefault_kept {s0 : State} {s : State} (l : List Byte) (hs : Kept s0 s) : Kept s0 (loadDefault s l) := by
  unfold loadDefault; split; apply recordLoad_kept; with_reducible assumption; apply State.mark_kept; apply recordLoad_kept
  apply applyImage_kept; with_reducible assumption

theorem trainAll_kept {s0 : State} {s : State} (hs : Kept s0 s) : Kept s0 (trainAll s) := by
  unfold trainAll; dsimp only; apply Kept.foldl; intros; apply startLane_kept; with_reducible assumption; apply Kept.foldl; intros
  apply State.mark_kept; with_reducible assumption; with_reducible assumption

theorem bootWith_kept {s0 : State} {s : State} (b : Bool) (hs : Kept s0 s) : Kept s0 (bootWith s b) := by
  unfold bootWith; dsimp only; apply State.setFld_kept; split; apply loadDefault_kept; apply trainAll_kept; apply State.setFld_kept; split
  apply applySettings_kept; apply State.setFld_kept; apply Kept.mk; apply KeptC.fold; apply State.setFld_kept; apply State.setFld_kept
  with_reducible assumption; apply State.setFld_kept; apply Kept.mk; apply KeptC.fold; apply State.setFld_kept; apply State.setFld_kept
  with_reducible assumption; apply trainAll_kept; apply State.setFld_kept; split; apply applySettings_kept; apply State.setFld_kept
  apply Kept.mk; apply KeptC.fold; apply State.setFld_kept; apply State.setFld_kept; with_reducible assumption; apply State.setFld_kept
  apply Kept.mk; apply KeptC.fold; apply State.setFld_kept; apply State.setFld_kept; with_reducible assumption

theorem readManifests_kept {s0 : State} {s9 : State} (hs : Kept s0 s9) : Kept s0 (readManifests s9) := by
  unfold readManifests; dsimp only; apply Kept.ite; apply bootWith_kept; apply State.setFld_kept; apply State.setFld_kept; apply Kept.mk
  apply KeptC.fold; with_reducible assumption; apply Kept.ite; apply bootWith_kept; apply State.setFld_kept; apply State.setFld_kept
  apply State.setFld_kept; apply State.setFld_kept; apply Kept.mk; apply KeptC.fold; with_reducible assumption; apply enterRecovery_kept
  apply State.setFld_kept; apply State.setFld_kept; apply State.setFld_kept; apply State.setFld_kept; apply Kept.mk; apply KeptC.fold
  with_reducible assumption

theorem bootFrom_kept {s0 : State} {s : State} (hs : Kept s0 s) : Kept s0 (bootFrom s) := by
  unfold bootFrom; dsimp only; apply withAlert_kept; with_reducible assumption; apply Kept.ite; apply enterRecovery_kept
  apply State.setFld_kept; apply State.setFld_kept; apply State.drawn_kept; with_reducible assumption; apply readManifests_kept
  apply State.setFld_kept; apply State.setFld_kept; apply State.drawn_kept; with_reducible assumption

theorem tryBoot_kept {s0 : State} {s : State} (hs : Kept s0 s) : Kept s0 (tryBoot s) := by
  unfold tryBoot; split; apply bootFrom_kept; with_reducible assumption; with_reducible assumption

theorem execPorstRise_kept {s0 : State} (straps : BitVec 4) {s : State} (hs : Kept s0 s) : KeptR s0 (execPorstRise straps s) := by
  unfold execPorstRise; dsimp only; apply KeptR.ite; apply KeptR.next; with_reducible assumption; apply KeptR.next; apply withAlert_kept
  with_reducible assumption; apply tryBoot_kept; apply Kept.mk; apply KeptC.fold; apply sampleStraps_kept; with_reducible assumption

theorem execRefclkPresent_kept {s0 : State} {s : State} (hs : Kept s0 s) : KeptR s0 (execRefclkPresent s) := by
  unfold execRefclkPresent; dsimp only; apply KeptR.next; apply tryBoot_kept; apply Kept.mk; apply KeptC.fold; with_reducible assumption

theorem execRailsGood_kept {s0 : State} {s : State} (hs : Kept s0 s) : KeptR s0 (execRailsGood s) := by
  unfold execRailsGood; apply KeptR.next; apply Kept.ite; apply withAlert_kept; with_reducible assumption; apply tryBoot_kept
  apply State.mark_kept; with_reducible assumption; with_reducible assumption

theorem execFlashTimeout_kept {s0 : State} {s : State} (hs : Kept s0 s) : KeptR s0 (execFlashTimeout s) := by
  unfold execFlashTimeout; dsimp only; split; apply KeptR.next; apply Kept.mk; apply KeptC.fold; apply State.mark_kept
  apply State.setFld_kept; apply State.setFld_kept; with_reducible assumption; apply KeptR.next; apply Kept.mk; apply KeptC.fold
  with_reducible assumption

theorem rebootPackage_kept {s0 : State} {s : State} (straps : BitVec 4) (hs : Kept s0 s) : Kept s0 (rebootPackage s straps) := by
  unfold rebootPackage; dsimp only; apply tryBoot_kept; apply State.setRaw_kept; apply sampleStraps_kept; apply Kept.mk; apply KeptC.fold
  apply resetPackage_kept; with_reducible assumption

theorem rebootOr_kept {s0 : State} {s : State} (straps : BitVec 4) (hs : Kept s0 s) : Kept s0 (rebootOr s straps) := by
  unfold rebootOr; split; apply rebootPackage_kept; with_reducible assumption; apply State.mark_kept; with_reducible assumption

theorem execReboot_kept {s0 : State} (straps : BitVec 4) {s : State} (hs : Kept s0 s) : KeptR s0 (execReboot straps s) := by
  unfold execReboot; apply KeptR.next; apply rebootOr_kept; with_reducible assumption

theorem regWrite_kept {s0 : State} {s : State} (a : Nat) (v : Word32) (hs : Kept s0 s) : Kept s0 (regWrite s a v) := by
  unfold regWrite; dsimp only; split; apply rebootOr_kept; apply writeCore_kept; with_reducible assumption; apply writeCore_kept
  with_reducible assumption

theorem execRegisterWrite_kept {s0 : State} (addr : Word32) (v : Word32) {s : State} (hs : Kept s0 s) :
    KeptR s0 (execRegisterWrite addr v s) := by
  unfold execRegisterWrite; apply KeptR.next; apply regWrite_kept; with_reducible assumption

theorem writePlace_kept {s0 : State} {s9 : State} (im : Image) (ws : Nat → ℤ) (ls : List ℤ) (l : Layer) {acc : State} (p : LayerPlace) (hs : Kept s0 s9) (hs6 : Kept s0 acc) :
    Kept s0 (writePlace s9 im ws ls l acc p) := by
  unfold writePlace; dsimp only; apply Kept.foldl; intros; apply Kept.foldl; intros; apply Kept.foldl; intros; apply State.setUnit_kept
  with_reducible assumption; with_reducible assumption; with_reducible assumption; with_reducible assumption

theorem writeLayer_kept {s0 : State} {s : State} (im : Image) (ws : Nat → ℤ) (l : Layer) (hs : Kept s0 s) :
    Kept s0 (writeLayer s im ws l).1 := by
  unfold writeLayer; dsimp only; apply Kept.foldl; intros; apply writePlace_kept; with_reducible assumption; with_reducible assumption
  with_reducible assumption

theorem askHost_kept {s0 : State} {s : State} (r : Nat) (addr : Nat) (n : Nat) (cmd : Option Nat) (second : Bool) (hs : Kept s0 s) :
    Kept s0 (askHost s r addr n cmd second) := by
  unfold askHost; dsimp only; apply reply_kept; apply State.setCtx_kept; with_reducible assumption

theorem hostWrite_kept {s0 : State} {s : State} (r : Nat) (addr : Nat) (bytes : List Byte) (hs : Kept s0 s) :
    Kept s0 (hostWrite s r addr bytes) := by
  unfold hostWrite; apply reply_kept; with_reducible assumption

theorem execDescriptorFetch_kept {s0 : State} (rx : RingIx) (bytes : List Byte) {s : State} (hs : Kept s0 s) :
    KeptR s0 (execDescriptorFetch rx bytes s) := by
  unfold execDescriptorFetch; dsimp only; apply KeptR.ite; apply KeptR.next; apply State.setFld_kept; apply State.setRing_kept
  apply askHost_kept; with_reducible assumption; apply KeptR.next; with_reducible assumption

theorem runStep_kept {s0 : State} {s : State} (r : Nat) (hs : Kept s0 s) : Kept s0 (runStep s r) := by
  unfold runStep; apply State.setFld_kept; apply State.mark_kept; with_reducible assumption

theorem takeHead_kept {s0 : State} {s : State} (r : Nat) (hs : Kept s0 s) : Kept s0 (takeHead s r) := by
  unfold takeHead; dsimp only; split; with_reducible assumption; apply runStep_kept; apply State.mark_kept; apply State.setRing_kept
  with_reducible assumption

theorem setPhase_kept {s0 : State} {s : State} (r : Nat) (p : CmdPhase) (hs : Kept s0 s) : Kept s0 (setPhase s r p) := by
  unfold setPhase; dsimp only; apply State.setRing_kept; with_reducible assumption

theorem waitPhase_kept {s0 : State} {s : State} (r : Nat) (p : CmdPhase) (hs : Kept s0 s) : Kept s0 (waitPhase s r p) := by
  unfold waitPhase; apply State.setFld_kept; apply setPhase_kept; with_reducible assumption

theorem endCmd_kept {s0 : State} {s : State} (r : Nat) (status : Nat) (result : Nat) (hs : Kept s0 s) :
    Kept s0 (endCmd s r status result) := by
  unfold endCmd; apply setPhase_kept; with_reducible assumption

theorem takeLock_kept {s0 : State} {s : State} (r : Nat) (hs : Kept s0 s) : Kept s0 (takeLock s r) := by
  unfold takeLock; apply State.setFld_kept; apply State.mark_kept; with_reducible assumption

theorem serve_kept {s0 : State} {s : State} (r : Nat) (op : Nat) (run : State → List Byte → State) (hs : Kept s0 s) (hf4 : ∀ y1 y2, Kept s0 y1 → Kept s0 (run y1 y2)) :
    KeptR s0 (serve s r op run) := by
  unfold serve; dsimp only; split; apply KeptR.next; with_reducible assumption; apply KeptR.ite; apply KeptR.next; apply endCmd_kept
  apply takeHead_kept; with_reducible assumption; apply KeptR.ite; apply KeptR.next; apply endCmd_kept; apply takeHead_kept
  with_reducible assumption; apply KeptR.next; apply hf4; apply Kept.ite; apply takeLock_kept; apply takeHead_kept
  with_reducible assumption; apply takeHead_kept; with_reducible assumption

theorem complete_kept {s0 : State} {s : State} (r : Nat) (c : RingCmd) (status : Nat) (result : Word64) (hs : Kept s0 s) :
    Kept s0 (complete s r c status result) := by
  unfold complete; dsimp only; apply State.setFld_kept; apply State.setFld_kept; apply State.setRing_kept; apply Kept.ite
  apply State.setFld_kept; apply State.setFld_kept; apply Kept.ite; apply State.setFld_kept; apply State.setFld_kept; apply State.bump_kept
  apply State.setFld_kept; apply Kept.ite; apply reply_kept; apply hostWrite_kept; with_reducible assumption; apply hostWrite_kept
  with_reducible assumption; apply State.setFld_kept; apply State.bump_kept; apply State.setFld_kept; apply Kept.ite; apply reply_kept
  apply hostWrite_kept; with_reducible assumption; apply hostWrite_kept; with_reducible assumption; apply Kept.ite; apply State.setFld_kept
  apply State.setFld_kept; apply State.bump_kept; apply State.setFld_kept; apply Kept.ite; apply reply_kept; apply hostWrite_kept
  with_reducible assumption; apply hostWrite_kept; with_reducible assumption; apply State.setFld_kept; apply State.bump_kept
  apply State.setFld_kept; apply Kept.ite; apply reply_kept; apply hostWrite_kept; with_reducible assumption; apply hostWrite_kept
  with_reducible assumption

theorem settleWait_kept {s0 : State} {s : State} (r : Nat) (hs : Kept s0 s) : Kept s0 (settleWait s r) := by
  unfold settleWait; split; split; with_reducible assumption; apply endCmd_kept; with_reducible assumption; split; with_reducible assumption
  split; apply endCmd_kept; apply State.bump_kept; with_reducible assumption; split; with_reducible assumption; split; apply endCmd_kept
  with_reducible assumption; apply setPhase_kept; apply arriveSystem_kept; with_reducible assumption; with_reducible assumption

theorem settleHead_kept {s0 : State} {s : State} (r : Nat) (hs : Kept s0 s) : Kept s0 (settleHead s r) := by
  unfold settleHead; split; split; with_reducible assumption; apply endCmd_kept; apply takeHead_kept; with_reducible assumption
  with_reducible assumption

theorem settlePair_kept {s0 : State} {s : State} (r : Nat) (hs : Kept s0 s) : Kept s0 (settlePair s r) := by
  unfold settlePair; apply settleHead_kept; apply settleWait_kept; with_reducible assumption

theorem dropReads_kept {s0 : State} {s : State} (r : Nat) (hs : Kept s0 s) : Kept s0 (dropReads s r) := by
  unfold dropReads; dsimp only; apply State.setCtx_kept; with_reducible assumption

theorem hostFails_kept {s0 : State} {s : State} (r : Nat) (hs : Kept s0 s) : Kept s0 (hostFails s r) := by
  unfold hostFails; split; apply Kept.ite; with_reducible assumption; split; apply endCmd_kept; apply dropReads_kept
  with_reducible assumption; apply endCmd_kept; apply dropReads_kept; with_reducible assumption; with_reducible assumption
  with_reducible assumption

theorem execHostReadTimeout_kept {s0 : State} (rx : RingIx) {s : State} (hs : Kept s0 s) : KeptR s0 (execHostReadTimeout rx s) := by
  unfold execHostReadTimeout; split; apply KeptR.next; apply hostFails_kept; with_reducible assumption; apply KeptR.ite; apply serve_kept
  with_reducible assumption; intros; apply endCmd_kept; with_reducible assumption; apply KeptR.next; with_reducible assumption
  apply KeptR.next; with_reducible assumption

theorem pkgWords_kept {s0 : State} (a0 : Nat) {a1 : State} (a2 : Nat) (hs : Kept s0 a1) : Kept s0 (pkgWords a0 a1 a2).2 := by
  induction a0 generalizing a1 a2 with | zero => ?_ | succ n9 ih => ?_
  all_goals unfold pkgWords
  all_goals try dsimp only
  with_reducible assumption; split; apply ih; refine kept_of_optsnd2 (by with_reducible assumption) ?_; apply busRead_kept
  with_reducible assumption; dsimp only; with_reducible assumption

theorem pkgWrite_kept {s0 : State} (a0 : List (Word64 × Bool)) {a1 : State} (a2 : Nat) (hs : Kept s0 a1) :
    Kept s0 (pkgWrite a0 a1 a2) := by
  induction a0 generalizing a1 a2 with | nil => ?_ | cons x9 r9 ih => ?_
  all_goals unfold pkgWrite
  with_reducible assumption; apply ih; apply Kept.getD; apply busWrite_kept; with_reducible assumption; with_reducible assumption

theorem usePort_kept {s0 : State} {s : State} (a : Nat) (hs : Kept s0 s) : Kept s0 (usePort s a) := by
  unfold usePort; split; apply serveArb_kept; with_reducible assumption; with_reducible assumption

theorem readPart_kept {s0 : State} {s : State} (a : Nat) (words : Nat) (link : LinkEcc) (hs : Kept s0 s) :
    Kept s0 (readPart s a words link).2 := by
  unfold readPart; split; apply tileReads_kept; apply usePort_kept; with_reducible assumption; apply pkgWords_kept
  with_reducible assumption

theorem putPart_kept {s0 : State} {s : State} (a : Nat) (l : List (Word64 × Bool)) (link : LinkEcc) (hs : Kept s0 s) :
    Kept s0 (putPart s a l link) := by
  unfold putPart; split; apply spoilWords_kept; apply pkgWrite_kept; apply usePort_kept; with_reducible assumption; apply pkgWrite_kept
  with_reducible assumption

theorem openSource_kept {s0 : State} {s : State} (r : Nat) (c : RingCmd) (given : List Byte) (later : List Byte) (prior : List Byte) (hs : Kept s0 s) :
    Kept s0 (openSource s r c given later prior) := by
  unfold openSource; dsimp only; apply setPhase_kept; apply Kept.ite; with_reducible assumption; apply askHost_kept
  with_reducible assumption

theorem writeDigest_kept {s0 : State} {s : State} (r : Nat) (b : List Byte) (digest : List Byte) (hs : Kept s0 s) :
    Kept s0 (writeDigest s r b digest) := by
  unfold writeDigest; dsimp only; apply Kept.ite; with_reducible assumption; apply hostWrite_kept; with_reducible assumption

theorem loadChecked_kept {s0 : State} {s : State} (r : Nat) (c : RingCmd) (later : List Byte) (x : List Byte) (hs : Kept s0 s) :
    Kept s0 (loadChecked s r c later x) := by
  unfold loadChecked; dsimp only; split; apply endCmd_kept; apply recordLoad_kept; apply writeDigest_kept; with_reducible assumption
  apply openSource_kept; apply writeDigest_kept; with_reducible assumption

theorem loadRead_kept {s0 : State} {s : State} (r : Nat) (x : List Byte) (y : List Byte) (bad : List Nat) (hs : Kept s0 s) :
    Kept s0 (loadRead s r x y bad) := by
  unfold loadRead; dsimp only; apply Kept.ite; apply endCmd_kept; apply setMode_kept; apply dropImage_kept; with_reducible assumption
  apply Kept.ite; apply endCmd_kept; apply setMode_kept; apply recordLoad_kept; apply writeImage_kept; with_reducible assumption
  apply Kept.ite; apply endCmd_kept; apply setMode_kept; apply recordLoad_kept; apply writeImage_kept; with_reducible assumption
  apply waitPhase_kept; apply State.setFld_kept; apply State.mark_kept; apply recordLoad_kept; apply writeImage_kept
  with_reducible assumption

theorem verifyRead_kept {s0 : State} {s : State} (r : Nat) (c : RingCmd) (x : List Byte) (hs : Kept s0 s) :
    Kept s0 (verifyRead s r c x) := by
  unfold verifyRead; dsimp only; apply endCmd_kept; apply recordLoad_kept; apply writeDigest_kept; with_reducible assumption

theorem chainQuant_kept {s0 : State} {s : State} (b : List Byte) (source : List Byte) (hs : Kept s0 s) :
    Kept s0 (chainQuant s b source) := by
  unfold chainQuant; dsimp only; apply Kept.mk; apply KeptC.fold; with_reducible assumption

theorem refuseQuant_kept {s0 : State} {s : State} (r : Nat) (reason : Nat) (hs : Kept s0 s) : Kept s0 (refuseQuant s r reason) := by
  unfold refuseQuant; apply endCmd_kept; with_reducible assumption

theorem quantRead_kept {s0 : State} {s : State} (r : Nat) (c : RingCmd) (x : List Byte) (bad : List Nat) (hs : Kept s0 s) :
    Kept s0 (quantRead s r c x bad) := by
  unfold quantRead; dsimp only; split; apply endCmd_kept; with_reducible assumption; apply Kept.ite; apply refuseQuant_kept
  with_reducible assumption; apply endCmd_kept; apply chainQuant_kept; apply writeLayer_kept; with_reducible assumption

theorem endMove_kept {s0 : State} {s : State} (r : Nat) (n : Nat) (bad : Option Nat) (hs : Kept s0 s) :
    Kept s0 (endMove s r n bad) := by
  unfold endMove; apply endCmd_kept; with_reducible assumption

theorem moveIn_kept {s0 : State} {s : State} (b : List Byte) (moved : Nat) (given : List Byte) (held : List (Word64 × Bool)) (link : LinkEcc) (hs : Kept s0 s) :
    KeptO s0 ((moveIn s b moved given held link).map (fun p => p.2.2)) := by
  unfold moveIn; dsimp only; split; split; exact KeptO.none_map _ _; apply KeptO.some_map; dsimp only; with_reducible assumption; split
  apply KeptO.some_map; dsimp only; apply readPart_kept; with_reducible assumption; exact KeptO.none_map _ _

theorem moveOut_kept {s0 : State} {s : State} (r : Nat) (b : List Byte) (moved : Nat) (held : List (Word64 × Bool)) (link : LinkEcc) (hs : Kept s0 s) :
    KeptO s0 ((moveOut s r b moved held link).map (fun p => p.2)) := by
  unfold moveOut; dsimp only; split; split; apply KeptO.some_map; dsimp only; apply putPart_kept; with_reducible assumption
  exact KeptO.none_map _ _; apply KeptO.some_map; dsimp only; apply hostWrite_kept; with_reducible assumption

theorem movePart_kept {s0 : State} {s : State} (r : Nat) (c : RingCmd) (moved : Nat) (given : List Byte) (held : List (Word64 × Bool))
    (bad : Option Nat) (link : LinkEcc) (hs : Kept s0 s) : KeptO s0 (movePart s r c moved given held bad link) := by
  unfold movePart
  dsimp only
  split
  · have h := moveIn_kept c.bytes moved given held link hs
    revert h
    cases moveIn s c.bytes moved given held link with
    | none => exact fun _ => KeptO.none _
    | some x => exact fun h => KeptO.some (setPhase_kept _ _ (h _ rfl))
  · have h := moveOut_kept r c.bytes moved held link hs
    revert h
    cases moveOut s r c.bytes moved held link with
    | none => exact fun _ => KeptO.none _
    | some x => exact fun h => KeptO.some (Kept.ite (endMove_kept _ _ _ (h _ rfl)) (setPhase_kept _ _ (h _ rfl)))

theorem sourcePart_kept {s0 : State} {s : State} (b : List Byte) (done p : Nat) (given : List Byte) (link : LinkEcc) (hs : Kept s0 s) :
    KeptO s0 ((sourcePart s b done p given link).map (fun x => x.2.2.2)) := by
  unfold sourcePart
  dsimp only
  split
  · split
    · exact KeptO.some_map (readPart_kept _ _ _ hs)
    · exact KeptO.none_map _ _
  · split
    · exact KeptO.none_map _ _
    · exact KeptO.some_map hs

theorem sourceRead_kept {s0 : State} {s : State} (r : Nat) (c : RingCmd) (later : List Byte) (prior : List Byte) (x : List Byte) (bad : List Nat) (hs : Kept s0 s) :
    Kept s0 (sourceRead s r c later prior x bad) := by
  unfold sourceRead; split; apply Kept.ite; apply loadChecked_kept; with_reducible assumption; apply loadRead_kept
  with_reducible assumption; apply verifyRead_kept; with_reducible assumption; apply quantRead_kept; with_reducible assumption

theorem readingPart_kept {s0 : State} {s : State} (r : Nat) (c : RingCmd) (given later prior got : List Byte) (bad : List Nat) (link : LinkEcc)
    (hs : Kept s0 s) : KeptO s0 (readingPart s r c given later prior got bad link) := by
  unfold readingPart
  dsimp only
  have h := sourcePart_kept c.bytes prior.length got.length given link hs
  revert h
  cases sourcePart s c.bytes prior.length got.length given link with
  | none => exact fun _ => KeptO.none _
  | some x => exact fun h => KeptO.some (Kept.ite (sourceRead_kept _ _ _ _ _ _ (h _ rfl)) (setPhase_kept _ _ (h _ rfl)))

theorem bistUnit_kept {s0 : State} (found : BistResult) {s : State} (g : Nat) (hs : Kept s0 s) : Kept s0 (bistUnit found s g) := by
  unfold bistUnit; dsimp only; apply Kept.mk; apply KeptC.fold; apply State.mark_kept; apply State.setFld_kept; apply State.setFld_kept
  apply State.setUnit_kept; with_reducible assumption

theorem bistCluster_kept {s0 : State} {s : State} (k : Nat) (hs : Kept s0 s) : Kept s0 (bistCluster s k) := by
  unfold bistCluster; dsimp only; apply State.setCluster_kept; apply Kept.mk; apply KeptC.fold; with_reducible assumption

theorem bistTile_kept {s0 : State} {s : State} (t : Nat) (hs : Kept s0 s) : Kept s0 (bistTile s t) :=
  State.setMemTile_kept _ _ (hs.of_wf rfl rfl id) (fun _ => rfl)

theorem bistPart_kept {s0 : State} (found : BistResult) {s : State} (p : Nat × Nat) (hs : Kept s0 s) :
    Kept s0 (bistPart found s p) := by
  unfold bistPart; dsimp only; split; apply Kept.foldl; intros; apply bistUnit_kept; with_reducible assumption; with_reducible assumption
  apply Kept.foldl; intros; apply bistCluster_kept; with_reducible assumption; with_reducible assumption; apply Kept.foldl; intros
  apply State.setRegion_kept; with_reducible assumption; with_reducible assumption; apply bistTile_kept; with_reducible assumption

theorem testingPart_kept {s0 : State} {s : State} (r : Nat) (c : RingCmd) (found : BistResult) (left : List (Nat × Nat)) (hs : Kept s0 s) :
    Kept s0 (testingPart s r c found left) := by
  unfold testingPart; split; apply setPhase_kept; apply bistPart_kept; with_reducible assumption; apply endCmd_kept; apply Kept.foldl
  intros; apply bistPart_kept; with_reducible assumption; with_reducible assumption

theorem workPart_kept {s0 : State} {s : State} (r : Nat) (link : LinkEcc) (hs : Kept s0 s) : KeptO s0 (workPart s r link) := by
  unfold workPart; split; exact KeptO.none _; split; apply readingPart_kept; with_reducible assumption; apply movePart_kept
  with_reducible assumption; apply KeptO.some; apply testingPart_kept; with_reducible assumption; exact KeptO.none _

theorem noteStep_kept {s0 : State} {s : State} (r : Nat) (hs : Kept s0 s) : Kept s0 (noteStep s r) := by
  unfold noteStep; split; with_reducible assumption; apply Kept.ite; with_reducible assumption; apply State.setFld_kept
  with_reducible assumption

theorem workStep_kept {s0 : State} {s : State} (r : Nat) (a2 : Nat) (hs : Kept s0 s) : Kept s0 (workStep s r a2) := by
  induction a2 generalizing s r with | zero => ?_ | succ n9 ih => ?_
  all_goals unfold workStep
  all_goals try dsimp only
  apply noteStep_kept; with_reducible assumption; split; apply Kept.ite; with_reducible assumption; apply State.setFld_kept
  with_reducible assumption; apply Kept.ite; apply ih; refine kept_of_some (by with_reducible assumption) ?_; apply workPart_kept
  with_reducible assumption; apply noteStep_kept; refine kept_of_some (by with_reducible assumption) ?_; apply workPart_kept
  with_reducible assumption

theorem beginRead_kept {s0 : State} {s : State} (r : Nat) (b : List Byte) (given : List Byte) (later : List Byte) (hs : Kept s0 s) :
    Kept s0 (beginRead s r b given later) := by
  unfold beginRead; split; apply Kept.ite; apply workStep_kept; apply openSource_kept; with_reducible assumption; apply endCmd_kept
  with_reducible assumption; with_reducible assumption

theorem runLoad_kept {s0 : State} (r : Nat) (first : List Byte) (second : List Byte) {s : State} (b : List Byte) (hs : Kept s0 s) :
    Kept s0 (runLoad r first second s b) := by
  unfold runLoad; apply Kept.ite; apply endCmd_kept; with_reducible assumption; apply Kept.ite; apply beginRead_kept
  with_reducible assumption; apply endCmd_kept; with_reducible assumption

theorem execLoadImage_kept {s0 : State} (rx : RingIx) (first : List Byte) (second : List Byte) {s : State} (hs : Kept s0 s) :
    KeptR s0 (execLoadImage rx first second s) := by
  unfold execLoadImage; apply serve_kept; with_reducible assumption; intros; apply runLoad_kept; with_reducible assumption

theorem execLoadLockWaitEnd_kept {s0 : State} (rx : RingIx) {s : State} (hs : Kept s0 s) : KeptR s0 (execLoadLockWaitEnd rx s) := by
  unfold execLoadLockWaitEnd; split; apply KeptR.next; apply endCmd_kept; apply setMode_kept; with_reducible assumption; apply KeptR.next
  with_reducible assumption

theorem runVerify_kept {s0 : State} (r : Nat) (image : List Byte) {s : State} (b : List Byte) (hs : Kept s0 s) :
    Kept s0 (runVerify r image s b) := by
  unfold runVerify; apply Kept.ite; apply beginRead_kept; with_reducible assumption; apply endCmd_kept; with_reducible assumption

theorem execVerifyImage_kept {s0 : State} (rx : RingIx) (image : List Byte) {s : State} (hs : Kept s0 s) :
    KeptR s0 (execVerifyImage rx image s) := by
  unfold execVerifyImage; apply serve_kept; with_reducible assumption; intros; apply runVerify_kept; with_reducible assumption

theorem runQuantise_kept {s0 : State} (r : Nat) (data : List Byte) {s : State} (b : List Byte) (hs : Kept s0 s) :
    Kept s0 (runQuantise r data s b) := by
  unfold runQuantise; dsimp only; split; apply endCmd_kept; with_reducible assumption; apply Kept.ite; apply endCmd_kept
  with_reducible assumption; split; apply refuseQuant_kept; with_reducible assumption; apply Kept.ite; apply refuseQuant_kept
  with_reducible assumption; apply Kept.ite; apply refuseQuant_kept; with_reducible assumption; apply Kept.ite; apply refuseQuant_kept
  with_reducible assumption; apply Kept.ite; apply refuseQuant_kept; with_reducible assumption; apply beginRead_kept
  with_reducible assumption

theorem execQuantise_kept {s0 : State} (rx : RingIx) (weights : List Byte) {s : State} (hs : Kept s0 s) :
    KeptR s0 (execQuantise rx weights s) := by
  unfold execQuantise; apply serve_kept; with_reducible assumption; intros; apply runQuantise_kept; with_reducible assumption

theorem beginMove_kept {s0 : State} {s : State} (r : Nat) (given : List Byte) (held : List (Word64 × Bool)) (hs : Kept s0 s) :
    Kept s0 (beginMove s r given held) := by
  unfold beginMove; apply workStep_kept; apply setPhase_kept; with_reducible assumption

theorem runWriteMem_kept {s0 : State} (r : Nat) (data : List Byte) {s : State} (b : List Byte) (hs : Kept s0 s) :
    Kept s0 (runWriteMem r data s b) := by
  unfold runWriteMem; dsimp only; apply Kept.ite; apply endCmd_kept; with_reducible assumption; apply beginMove_kept; apply askHost_kept
  with_reducible assumption

theorem execWriteMem_kept {s0 : State} (rx : RingIx) (data : List Byte) {s : State} (hs : Kept s0 s) :
    KeptR s0 (execWriteMem rx data s) := by
  unfold execWriteMem; apply serve_kept; with_reducible assumption; intros; apply runWriteMem_kept; with_reducible assumption

theorem runReadMem_kept {s0 : State} (r : Nat) {s : State} (b : List Byte) (hs : Kept s0 s) : Kept s0 (runReadMem r s b) := by
  unfold runReadMem; apply Kept.ite; apply endCmd_kept; with_reducible assumption; apply beginMove_kept; with_reducible assumption

theorem execReadMem_kept {s0 : State} (rx : RingIx) {s : State} (hs : Kept s0 s) : KeptR s0 (execReadMem rx s) := by
  unfold execReadMem; apply serve_kept; with_reducible assumption; intros; apply runReadMem_kept; with_reducible assumption

theorem runCopy_kept {s0 : State} (r : Nat) {s : State} (b : List Byte) (hs : Kept s0 s) : Kept s0 (runCopy r s b) := by
  unfold runCopy; dsimp only; apply Kept.ite; apply endCmd_kept; with_reducible assumption; apply beginMove_kept; with_reducible assumption

theorem execCopy_kept {s0 : State} (rx : RingIx) {s : State} (hs : Kept s0 s) : KeptR s0 (execCopy rx s) := by
  unfold execCopy; apply serve_kept; with_reducible assumption; intros; apply runCopy_kept; with_reducible assumption

theorem giveStep_kept {s0 : State} {s : State} (r : Nat) (hs : Kept s0 s) : Kept s0 (giveStep s r) := by
  unfold giveStep; split; with_reducible assumption; split; apply complete_kept; with_reducible assumption; apply workStep_kept
  apply runStep_kept; with_reducible assumption

theorem execEngineStep_kept {s0 : State} {s : State} (hs : Kept s0 s) : KeptR s0 (execEngineStep s) := by
  have h1 : Kept s0 ((List.range 64).foldl settlePair s) := Kept.foldl (fun _ _ h => settlePair_kept _ h) hs
  unfold execEngineStep
  generalize (List.range 64).foldl settlePair s = x at h1
  dsimp only
  have h2 : Kept s0 (x.setFld fEngineBusy 0) := State.setFld_kept _ _ h1
  split
  · exact KeptR.next (complete_kept _ _ _ _ h1)
  · split
    · exact KeptR.next h2
    · exact KeptR.next (giveStep_kept _ h2)

theorem armPackage_kept {s0 : State} {s : State} (hs : Kept s0 s) : Kept s0 (armPackage s) := by
  unfold armPackage; dsimp only; apply Kept.mk; apply KeptC.fold; apply State.mark_kept; with_reducible assumption

theorem runArm_kept {s0 : State} (r : Nat) {s : State} (a2 : List Byte) (hs : Kept s0 s) : Kept s0 (runArm r s a2) := by
  unfold runArm; apply Kept.ite; apply endCmd_kept; with_reducible assumption; split; apply endCmd_kept; with_reducible assumption
  apply endCmd_kept; apply armPackage_kept; with_reducible assumption

theorem execArmRun_kept {s0 : State} (rx : RingIx) {s : State} (hs : Kept s0 s) : KeptR s0 (execArmRun rx s) := by
  unfold execArmRun; apply serve_kept; with_reducible assumption; intros; apply runArm_kept; with_reducible assumption

theorem runDisarm_kept {s0 : State} (r : Nat) {s : State} (a2 : List Byte) (hs : Kept s0 s) : Kept s0 (runDisarm r s a2) := by
  unfold runDisarm; dsimp only; apply Kept.ite; apply endCmd_kept; with_reducible assumption; apply Kept.ite; apply endCmd_kept
  apply endRun_kept; with_reducible assumption; apply Kept.ite; apply waitPhase_kept; apply Kept.mk; apply KeptC.fold
  with_reducible assumption; apply Kept.ite; apply waitPhase_kept; with_reducible assumption; apply Kept.ite; apply endCmd_kept
  apply State.bump_kept; with_reducible assumption; apply waitPhase_kept; apply Kept.mk; apply KeptC.fold; with_reducible assumption

theorem execDisarm_kept {s0 : State} (rx : RingIx) {s : State} (hs : Kept s0 s) : KeptR s0 (execDisarm rx s) := by
  unfold execDisarm; apply serve_kept; with_reducible assumption; intros; apply runDisarm_kept; with_reducible assumption

theorem hostSchedule_kept {s0 : State} (r : Nat) (code : PendCode) {s : State} (b : List Byte) (hs : Kept s0 s) :
    Kept s0 (hostSchedule r code s b) := by
  unfold hostSchedule; dsimp only; apply endCmd_kept; apply schedule_kept; with_reducible assumption

theorem runSelectMenu_kept {s0 : State} (r : Nat) {s : State} (b : List Byte) (hs : Kept s0 s) : Kept s0 (runSelectMenu r s b) := by
  unfold runSelectMenu; dsimp only; apply Kept.ite; apply endCmd_kept; with_reducible assumption; apply Kept.ite; apply endCmd_kept
  apply Kept.mk; apply KeptC.fold; with_reducible assumption; apply hostSchedule_kept; with_reducible assumption

theorem execSelectMenu_kept {s0 : State} (rx : RingIx) {s : State} (hs : Kept s0 s) : KeptR s0 (execSelectMenu rx s) := by
  unfold execSelectMenu; apply serve_kept; with_reducible assumption; intros; apply runSelectMenu_kept; with_reducible assumption

theorem execFrostHostCommand_kept {s0 : State} (rx : RingIx) {s : State} (hs : Kept s0 s) : KeptR s0 (execFrostHostCommand rx s) := by
  unfold execFrostHostCommand; apply serve_kept; with_reducible assumption; intros; apply hostSchedule_kept; with_reducible assumption

theorem runFrostRead_kept {s0 : State} (r : Nat) {s : State} (b : List Byte) (hs : Kept s0 s) : Kept s0 (runFrostRead r s b) := by
  unfold runFrostRead; dsimp only; apply Kept.ite; apply endCmd_kept; with_reducible assumption; apply Kept.ite; apply endCmd_kept
  with_reducible assumption; apply beginMove_kept; with_reducible assumption

theorem execFrostRead_kept {s0 : State} (rx : RingIx) {s : State} (hs : Kept s0 s) : KeptR s0 (execFrostRead rx s) := by
  unfold execFrostRead; apply serve_kept; with_reducible assumption; intros; apply runFrostRead_kept; with_reducible assumption

theorem runSpyDrain_kept {s0 : State} (r : Nat) {s : State} (b : List Byte) (hs : Kept s0 s) : Kept s0 (runSpyDrain r s b) := by
  unfold runSpyDrain; dsimp only; apply Kept.ite; apply endCmd_kept; with_reducible assumption; apply endCmd_kept; apply Kept.ite
  apply State.setSpy_kept; apply Kept.ite; apply State.setSpy_kept; apply State.bump_kept; with_reducible assumption
  with_reducible assumption; apply hostWrite_kept; apply State.setSpy_kept; apply Kept.ite; apply State.setSpy_kept; apply State.bump_kept
  with_reducible assumption; with_reducible assumption

theorem execSpyDrain_kept {s0 : State} (rx : RingIx) {s : State} (hs : Kept s0 s) : KeptR s0 (execSpyDrain rx s) := by
  unfold execSpyDrain; apply serve_kept; with_reducible assumption; intros; apply runSpyDrain_kept; with_reducible assumption

theorem runAttest_kept {s0 : State} (r : Nat) {s : State} (b : List Byte) (hs : Kept s0 s) : Kept s0 (runAttest r s b) := by
  unfold runAttest; apply Kept.ite; apply endCmd_kept; with_reducible assumption; apply endCmd_kept; apply hostWrite_kept
  with_reducible assumption

theorem execAttest_kept {s0 : State} (rx : RingIx) {s : State} (hs : Kept s0 s) : KeptR s0 (execAttest rx s) := by
  unfold execAttest; apply serve_kept; with_reducible assumption; intros; apply runAttest_kept; with_reducible assumption

theorem runScrub_kept {s0 : State} (r : Nat) {s : State} (b : List Byte) (hs : Kept s0 s) : Kept s0 (runScrub r s b) := by
  unfold runScrub; dsimp only; apply endCmd_kept; apply Kept.ite; apply Kept.foldl; intros; apply startScrub_kept; with_reducible assumption
  apply Kept.foldl; intros; apply scrubTile_kept; with_reducible assumption; with_reducible assumption; apply Kept.foldl; intros
  apply scrubTile_kept; with_reducible assumption; with_reducible assumption

theorem execScrub_kept {s0 : State} (rx : RingIx) {s : State} (hs : Kept s0 s) : KeptR s0 (execScrub rx s) := by
  unfold execScrub; apply serve_kept; with_reducible assumption; intros; apply runScrub_kept; with_reducible assumption

theorem runLinkTrain_kept {s0 : State} (r : Nat) {s : State} (b : List Byte) (hs : Kept s0 s) : Kept s0 (runLinkTrain r s b) := by
  unfold runLinkTrain; dsimp only; apply waitPhase_kept; apply Kept.foldl; intros; apply requestTrain_kept; with_reducible assumption
  with_reducible assumption

theorem execLinkTrain_kept {s0 : State} (rx : RingIx) {s : State} (hs : Kept s0 s) : KeptR s0 (execLinkTrain rx s) := by
  unfold execLinkTrain; apply serve_kept; with_reducible assumption; intros; apply runLinkTrain_kept; with_reducible assumption

theorem runBist_kept {s0 : State} (r : Nat) (found : BistResult) {s : State} (b : List Byte) (hs : Kept s0 s) :
    Kept s0 (runBist r found s b) := by
  unfold runBist; apply Kept.ite; apply endCmd_kept; with_reducible assumption; apply workStep_kept; apply setPhase_kept
  with_reducible assumption

theorem execBist_kept {s0 : State} (rx : RingIx) (found : BistResult) {s : State} (hs : Kept s0 s) :
    KeptR s0 (execBist rx found s) := by
  unfold execBist; apply serve_kept; with_reducible assumption; intros; apply runBist_kept; with_reducible assumption

theorem runBarrierTest_kept {s0 : State} (r : Nat) (longest : Nat) {s : State} (b : List Byte) (hs : Kept s0 s) :
    Kept s0 (runBarrierTest r longest s b) := by
  unfold runBarrierTest; dsimp only; apply Kept.ite; apply endCmd_kept; with_reducible assumption; apply waitPhase_kept; apply Kept.ite
  apply arriveSystem_kept; with_reducible assumption; with_reducible assumption

theorem execBarrierTest_kept {s0 : State} (rx : RingIx) (longest : Nat) {s : State} (hs : Kept s0 s) :
    KeptR s0 (execBarrierTest rx longest s) := by
  unfold execBarrierTest; apply serve_kept; with_reducible assumption; intros; apply runBarrierTest_kept; with_reducible assumption

theorem subtractRead_kept {s0 : State} {s : State} (shadow : State) (a : Nat) (hs : Kept s0 s) : Kept s0 (subtractRead s shadow a) := by
  unfold subtractRead
  refine Kept.foldl (fun y f h => ?_) hs
  split
  · exact State.setFld_kept _ _ h
  · exact Kept.ite (State.setFld_kept _ _ h) h
  · exact State.setFld_kept _ _ h
  · exact h

theorem stewardRead_kept {s0 : State} {s : State} (a : Nat) (hs : Kept s0 s) : Kept s0 (stewardRead s a).2 := by
  unfold stewardRead
  split
  · exact regRead_kept _ hs
  · split
    · exact hs
    · split
      · exact State.mark_kept _ hs
      · exact Kept.mk (KeptC.fold (subtractRead_kept _ _ (settleFor_kept _ hs)))

theorem readMany_kept {s0 : State} (a0 : Nat) {a1 : State} (a2 : Nat) (hs : Kept s0 a1) : Kept s0 (readMany a0 a1 a2).2 := by
  induction a0 generalizing a1 a2 with | zero => ?_ | succ n9 ih => ?_
  all_goals unfold readMany
  all_goals try dsimp only
  with_reducible assumption; apply ih; apply stewardRead_kept; with_reducible assumption

theorem execReadRegisters_kept {s0 : State} (addr : Word32) (count : Nat) {s : State} (hs : Kept s0 s) :
    KeptR s0 (execReadRegisters addr count s) := by
  unfold execReadRegisters; dsimp only; split; apply KeptR.next; apply State.send_kept; apply readMany_kept; with_reducible assumption
  apply KeptR.next; with_reducible assumption

theorem execShadowRefresh_kept {s0 : State} {s : State} (hs : Kept s0 s) : KeptR s0 (execShadowRefresh s) := by
  unfold execShadowRefresh; apply KeptR.next; split; apply Kept.mk; apply KeptC.fold; with_reducible assumption; with_reducible assumption

theorem execReadIdentity_kept {s0 : State} {s : State} (hs : Kept s0 s) : KeptR s0 (execReadIdentity s) := by
  unfold execReadIdentity; apply KeptR.next; split; apply State.send_kept; with_reducible assumption; with_reducible assumption

theorem execReadPortStatus_kept {s0 : State} {s : State} (hs : Kept s0 s) : KeptR s0 (execReadPortStatus s) := by
  unfold execReadPortStatus; apply KeptR.next; split; apply State.send_kept; with_reducible assumption; with_reducible assumption

theorem execXspiOtherCommand_kept {s0 : State} (opcode : Byte) (ext : Byte) {s : State} (hs : Kept s0 s) :
    KeptR s0 (execXspiOtherCommand opcode ext s) := by
  unfold execXspiOtherCommand; apply KeptR.next; split; apply State.mark_kept; with_reducible assumption; with_reducible assumption

theorem postWrite_kept {s0 : State} {s : State} (a : Nat) (v : Word32) (hs : Kept s0 s) : Kept s0 (postWrite s a v) := by
  unfold postWrite; split; apply Kept.mk; apply KeptC.fold; with_reducible assumption; apply State.mark_kept; with_reducible assumption

theorem postMany_kept {s0 : State} (a0 : Nat) {a1 : State} (a2 : Nat) (a3 : List Byte) (hs : Kept s0 a1) :
    Kept s0 (postMany a0 a1 a2 a3) := by
  induction a0 generalizing a1 a2 a3 with | zero => ?_ | succ n9 ih => ?_
  all_goals unfold postMany
  with_reducible assumption; apply ih; apply postWrite_kept; with_reducible assumption

theorem execWriteRegisters_kept {s0 : State} (addr : Word32) (bytes : List Byte) {s : State} (hs : Kept s0 s) :
    KeptR s0 (execWriteRegisters addr bytes s) := by
  unfold execWriteRegisters; dsimp only; split; apply KeptR.next; split; apply postMany_kept; with_reducible assumption
  apply State.mark_kept; apply postMany_kept; with_reducible assumption; apply KeptR.next; with_reducible assumption

theorem execPostedWrite_kept {s0 : State} {s : State} (hs : Kept s0 s) : KeptR s0 (execPostedWrite s) := by
  unfold execPostedWrite; split; apply KeptR.next; with_reducible assumption; apply KeptR.next; split; apply regWrite_kept; apply Kept.mk
  apply KeptC.fold; with_reducible assumption; with_reducible assumption

theorem execIndirectRead_kept {s0 : State} {s : State} (hs : Kept s0 s) : KeptR s0 (execIndirectRead s) := by
  unfold execIndirectRead; apply KeptR.next; apply regWrite_kept; with_reducible assumption

theorem execIndirectWrite_kept {s0 : State} {s : State} (hs : Kept s0 s) : KeptR s0 (execIndirectWrite s) := by
  unfold execIndirectWrite; apply KeptR.next; apply regWrite_kept; with_reducible assumption

theorem execIndirectAccessDone_kept {s0 : State} {s : State} (hs : Kept s0 s) : KeptR s0 (execIndirectAccessDone s) := by
  unfold execIndirectAccessDone; dsimp only; split; apply KeptR.next; with_reducible assumption; apply KeptR.next; apply regWrite_kept
  apply Kept.mk; apply KeptC.fold; apply State.setFld_kept; apply State.setFld_kept; apply State.setFld_kept; with_reducible assumption
  apply KeptR.next; apply State.setFld_kept; apply regRead_kept; apply Kept.mk; apply KeptC.fold; apply State.setFld_kept
  apply State.setFld_kept; apply State.setFld_kept; with_reducible assumption

theorem typeErr_kept {s0 : State} {s : State} (site : Nat) (lead : Nat) (hs : Kept s0 s) : Kept s0 (typeErr s site lead) := by
  unfold typeErr; apply State.bump_kept; with_reducible assumption

theorem cameBy_kept {s0 : State} {s : State} (x : Nat) (site : Nat) (lead : Nat) (hs : Kept s0 s) : Kept s0 (cameBy s x site lead) := by
  unfold cameBy; dsimp only; apply State.setCtx_kept; with_reducible assumption

theorem writePart_kept {s0 : State} (addr : Nat) (bytes : List Byte) {s : State} (base : Nat) (hs : Kept s0 s) :
    Kept s0 (writePart addr bytes s base) := by
  unfold writePart; split; apply Kept.getD; apply busWrite_kept; with_reducible assumption; with_reducible assumption; split
  apply Kept.getD; apply busWrite_kept; refine kept_of_optsnd2 (by with_reducible assumption) ?_; apply busRead_kept
  with_reducible assumption; refine kept_of_optsnd2 (by with_reducible assumption) ?_; apply busRead_kept; with_reducible assumption
  with_reducible assumption

theorem accessWrite_kept {s0 : State} {s : State} (addr : Nat) (bytes : List Byte) (hs : Kept s0 s) :
    Kept s0 (accessWrite s addr bytes) := by
  unfold accessWrite; dsimp only; split; split; apply Kept.foldl; intros; apply regWrite_kept; with_reducible assumption
  with_reducible assumption; with_reducible assumption; split; apply Kept.foldl; intros; apply writePart_kept; with_reducible assumption
  with_reducible assumption; with_reducible assumption

theorem regWords_kept {s0 : State} {a0 : State} (a1 : List Nat) (hs : Kept s0 a0) : Kept s0 (regWords a0 a1).2 := by
  induction a1 generalizing a0 with | nil => ?_ | cons x9 r9 ih => ?_
  all_goals unfold regWords
  all_goals try dsimp only
  with_reducible assumption; apply ih; apply regRead_kept; with_reducible assumption

theorem accessBytes_kept {s0 : State} {s : State} (addr : Nat) (n : Nat) (hs : Kept s0 s) :
    KeptO s0 ((accessBytes s addr n).map (fun p => p.2)) := by
  unfold accessBytes; dsimp only; split; split; apply KeptO.some_map; dsimp only; apply regWords_kept; with_reducible assumption
  exact KeptO.none_map _ _; split; apply KeptO.some_map; dsimp only; apply pkgWords_kept; with_reducible assumption
  exact KeptO.none_map _ _

theorem accessRead_kept {s0 : State} {s : State} (x : Nat) (addr : Nat) (n : Nat) (tag : Byte) (hs : Kept s0 s) :
    Kept s0 (accessRead s x addr n tag) := by
  unfold accessRead; split; apply reply_kept; refine kept_of_optsnd (by with_reducible assumption) ?_; apply accessBytes_kept
  with_reducible assumption; apply reply_kept; apply State.drawn_kept; with_reducible assumption

theorem giveBytes_kept {s0 : State} {s : State} (r : Nat) (second : Bool) (o : Nat) (bytes : List Byte) (hs : Kept s0 s) :
    Kept s0 (giveBytes s r second o bytes) := by
  unfold giveBytes; split; apply Kept.ite; apply setPhase_kept; with_reducible assumption; with_reducible assumption; apply Kept.ite
  apply setPhase_kept; with_reducible assumption; with_reducible assumption; with_reducible assumption

theorem takeData_kept {s0 : State} {s : State} (x : Nat) (tag : Byte) (offset : Nat) (err : Bool) (bytes : List Byte) (hs : Kept s0 s) :
    Kept s0 (takeData s x tag offset err bytes) := by
  unfold takeData; dsimp only; split; with_reducible assumption; split; with_reducible assumption; apply Kept.ite; apply Kept.ite
  apply hostFails_kept; apply State.setCtx_kept; with_reducible assumption; apply State.setCtx_kept; with_reducible assumption
  apply Kept.ite; with_reducible assumption; apply Kept.ite; apply giveBytes_kept; apply Kept.ite; apply State.setCtx_kept
  with_reducible assumption; apply State.setCtx_kept; with_reducible assumption; apply Kept.ite; apply State.setCtx_kept
  with_reducible assumption; apply State.setCtx_kept; with_reducible assumption

theorem accessFlit_kept {s0 : State} {s : State} (x : Nat) (f : Flit) (hs : Kept s0 s) : Kept s0 (accessFlit s x f) := by
  unfold accessFlit; split; apply accessWrite_kept; with_reducible assumption; apply accessRead_kept; with_reducible assumption
  apply takeData_kept; with_reducible assumption; with_reducible assumption

theorem drainAccess_kept {s0 : State} {s : State} (x : Nat) (a2 : Nat) (hs : Kept s0 s) : Kept s0 (drainAccess s x a2) := by
  induction a2 generalizing s x with | zero => ?_ | succ n9 ih => ?_
  all_goals unfold drainAccess
  all_goals try dsimp only
  with_reducible assumption; split; with_reducible assumption; apply Kept.ite; with_reducible assumption; apply ih; apply popBuf_kept
  apply accessFlit_kept; with_reducible assumption

theorem enterContext_kept {s0 : State} {s : State} (x : Nat) (f : Flit) (hs : Kept s0 s) : Kept s0 (enterContext s x f) := by
  unfold enterContext; dsimp only; split; apply drainDeliver_kept; apply noteBuf_kept; apply State.setCtx_kept; with_reducible assumption
  apply State.setMc_kept; apply noteBuf_kept; apply State.setCtx_kept; with_reducible assumption; apply Kept.ite; apply drainAccess_kept
  apply noteBuf_kept; apply State.setCtx_kept; with_reducible assumption; apply noteBuf_kept; apply State.setCtx_kept
  with_reducible assumption; apply noteBuf_kept; apply State.setCtx_kept; with_reducible assumption

theorem giveMember_kept {s0 : State} (m : Nat) (f : Flit) {s : State} (i : Nat) (hs : Kept s0 s) : Kept s0 (giveMember m f s i) := by
  unfold giveMember; dsimp only; apply Kept.ite; apply Kept.ite; split; apply typeErr_kept; with_reducible assumption
  with_reducible assumption; apply enterContext_kept; with_reducible assumption; apply State.setMc_kept; with_reducible assumption

theorem rejoin_kept {s0 : State} {s : State} (m : Nat) (hs : Kept s0 s) : Kept s0 (rejoin s m) := by
  unfold rejoin; dsimp only; apply Kept.foldl; intros; apply State.setFld_kept; with_reducible assumption; apply State.setMc_kept
  with_reducible assumption

theorem passHead_kept {s0 : State} {s : State} (m : Nat) (f : Flit) (hs : Kept s0 s) : Kept s0 (passHead s m f) := by
  unfold passHead; dsimp only; apply popBuf_kept; apply State.setMc_kept; apply Kept.foldl; intros; apply giveMember_kept
  with_reducible assumption; apply State.setMc_kept; with_reducible assumption

theorem pumpMc_kept {s0 : State} {s : State} (m : Nat) (a2 : Nat) (hs : Kept s0 s) : Kept s0 (pumpMc s m a2) := by
  induction a2 generalizing s m with | zero => ?_ | succ n9 ih => ?_
  all_goals unfold pumpMc
  all_goals try dsimp only
  with_reducible assumption; split; with_reducible assumption; apply Kept.ite; apply ih; apply passHead_kept; apply Kept.ite
  apply rejoin_kept; with_reducible assumption; with_reducible assumption; apply State.setMc_kept; apply Kept.ite; apply rejoin_kept
  with_reducible assumption; with_reducible assumption

theorem runGroup_kept {s0 : State} {s : State} (m : Nat) (hs : Kept s0 s) : Kept s0 (runGroup s m) := by
  unfold runGroup; apply pumpMc_kept; with_reducible assumption

theorem settleOnce_kept {s0 : State} {s : State} (hs : Kept s0 s) : Kept s0 (settleOnce s) := by
  unfold settleOnce; apply Kept.foldl; intros; apply Kept.ite; with_reducible assumption; apply runGroup_kept; with_reducible assumption
  with_reducible assumption

theorem settleGroups_kept {s0 : State} {s : State} (hs : Kept s0 s) : Kept s0 (settleGroups s) := by
  unfold settleGroups; apply Kept.foldl; intros; apply settleOnce_kept; with_reducible assumption; with_reducible assumption

theorem execDetachTimeout_kept {s0 : State} (mx : BitVec 10) {s : State} (hs : Kept s0 s) : KeptR s0 (execDetachTimeout mx s) := by
  unfold execDetachTimeout; dsimp only; apply KeptR.ite; apply KeptR.next; with_reducible assumption; apply KeptR.next
  apply settleGroups_kept; apply Kept.foldl; intros; apply detachMember_kept; with_reducible assumption; with_reducible assumption

theorem takeLoose_kept {s0 : State} {s : State} (site : Nat) (lead : Nat) (f : Flit) (hs : Kept s0 s) :
    Kept s0 (takeLoose s site lead f) := by
  unfold takeLoose; dsimp only; apply Kept.ite; apply typeErr_kept; with_reducible assumption; apply Kept.ite; apply State.bump_kept
  with_reducible assumption; apply Kept.ite; apply State.bump_kept; with_reducible assumption; apply settleGroups_kept
  apply enterContext_kept; apply cameBy_kept; with_reducible assumption

theorem wakeDeliver_kept {s0 : State} {s : State} (q : QueueId) (hs : Kept s0 s) : Kept s0 (wakeDeliver s q) := by
  unfold wakeDeliver; apply Kept.foldl; intros; split; apply drainDeliver_kept; with_reducible assumption; with_reducible assumption
  with_reducible assumption

theorem execCreditReturn_kept {s0 : State} (q : QueueId) {s : State} (hs : Kept s0 s) : KeptR s0 (execCreditReturn q s) := by
  unfold execCreditReturn; apply KeptR.next; apply settleGroups_kept; apply wakeDeliver_kept; apply returnCredit_kept
  with_reducible assumption

theorem execArbiterDecision_kept {s0 : State} (a : ArbId) (presented : List Requester) {s : State} (hs : Kept s0 s) :
    KeptR s0 (execArbiterDecision a presented s) := by
  unfold execArbiterDecision; apply KeptR.ite; apply KeptR.next; apply decideArb_kept; with_reducible assumption; apply KeptR.next
  with_reducible assumption

theorem execTransactionEnd_kept {s0 : State} (a : ArbId) {s : State} (hs : Kept s0 s) : KeptR s0 (execTransactionEnd a s) := by
  unfold execTransactionEnd; apply KeptR.ite; apply KeptR.next; apply settleGroups_kept; apply endTransaction_kept; apply sendGranted_kept
  with_reducible assumption; apply KeptR.next; with_reducible assumption

theorem takeCredit_kept {s0 : State} {s : State} (site : Nat) (lead : Nat) (x : Nat) (n : Nat) (hs : Kept s0 s) :
    Kept s0 (takeCredit s site lead x n) := by
  unfold takeCredit; dsimp only; apply settleGroups_kept; apply Kept.foldl; intros; apply State.setMc_kept; with_reducible assumption
  apply Kept.foldl; intros; split; apply State.setFld_kept; with_reducible assumption; with_reducible assumption; apply Kept.foldl; intros
  split; apply State.setTxLink_kept; with_reducible assumption; with_reducible assumption; with_reducible assumption

theorem takeFlit_kept {s0 : State} {s : State} (site : Nat) (lead : Nat) (reserved : Bool) (f : Flit) (hs : Kept s0 s) :
    Kept s0 (takeFlit s site lead reserved f) := by
  unfold takeFlit; split; apply typeErr_kept; with_reducible assumption; split; apply typeErr_kept; with_reducible assumption
  apply takeSys_kept; with_reducible assumption; apply takeCredit_kept; with_reducible assumption; with_reducible assumption
  apply takeLoose_kept; with_reducible assumption

theorem State.setHeld_kept {s0 : State} {s : State} (site : Nat) (lead : Nat) (l : List HeldFlit) (hs : Kept s0 s) :
    Kept s0 (State.setHeld s site lead l) := by
  unfold State.setHeld; apply Kept.mk; apply KeptC.fold; with_reducible assumption

theorem releaseHeld_kept {s0 : State} {s : State} (site : Nat) (lead : Nat) (a3 : Nat) (hs : Kept s0 s) :
    Kept s0 (releaseHeld s site lead a3) := by
  induction a3 generalizing s site lead with | zero => ?_ | succ n9 ih => ?_
  all_goals unfold releaseHeld
  with_reducible assumption; split; with_reducible assumption; split; apply Kept.ite; apply ih; apply takeFlit_kept
  apply State.setHeld_kept; with_reducible assumption; with_reducible assumption; apply Kept.ite; apply ih; apply State.setHeld_kept
  with_reducible assumption; with_reducible assumption

theorem acceptFlit_kept {s0 : State} {s : State} (site : Nat) (lane : Nat) (reserved : Bool) (f : Flit) (hs : Kept s0 s) :
    Kept s0 (acceptFlit s site lane reserved f) := by
  unfold acceptFlit; dsimp only; apply releaseHeld_kept; apply Kept.ite; apply takeFlit_kept; apply State.setHeld_kept; apply Kept.ite
  apply acknowledge_kept; apply State.setRetry_kept; with_reducible assumption; apply State.setRetry_kept; with_reducible assumption
  apply State.setHeld_kept; apply Kept.ite; apply acknowledge_kept; apply State.setRetry_kept; with_reducible assumption
  apply State.setRetry_kept; with_reducible assumption

theorem sequenced_kept {s0 : State} {s : State} (site : Nat) (lane : Nat) (seq : BitVec 8) (reserved : Bool) (f : Flit) (hs : Kept s0 s) :
    Kept s0 (sequenced s site lane seq reserved f) := by
  unfold sequenced; dsimp only; split; apply acceptFlit_kept; with_reducible assumption; split; with_reducible assumption
  apply beginNak_kept; with_reducible assumption

theorem beginSet_kept {s0 : State} {s : State} (x : Nat) (b : Beat) (hs : Kept s0 s) : Kept s0 (beginSet s x b) := by
  unfold beginSet; dsimp only; split; apply State.bump_kept; apply State.setCtx_kept; with_reducible assumption; apply State.mark_kept
  apply State.setCtx_kept; with_reducible assumption; apply State.setCtx_kept; with_reducible assumption

theorem endSet_kept {s0 : State} {s : State} (x : Nat) (hs : Kept s0 s) : Kept s0 (endSet s x) := by
  unfold endSet; dsimp only; split; apply State.setCtx_kept; with_reducible assumption; split; apply State.setCtx_kept
  with_reducible assumption; apply State.setCtx_kept; with_reducible assumption

theorem addToSet_kept {s0 : State} {s : State} (x : Nat) (b : Beat) (hs : Kept s0 s) : Kept s0 (addToSet s x b) := by
  unfold addToSet; dsimp only; split; apply State.setCtx_kept; with_reducible assumption; with_reducible assumption

theorem meetGroup_kept {s0 : State} {s : State} (x : Nat) (site : Nat) (lead : Nat) (hs : Kept s0 s) :
    Kept s0 (meetGroup s x site lead) := by
  unfold meetGroup; split; with_reducible assumption; apply startMeasure_kept; apply cameBy_kept; with_reducible assumption

theorem takeLocked_kept {s0 : State} {s : State} (site : Nat) (lead : Nat) (f : Flit) (b : Beat) (hs : Kept s0 s) :
    Kept s0 (takeLocked s site lead f b) := by
  unfold takeLocked; dsimp only; split; apply typeErr_kept; with_reducible assumption; split; apply State.bump_kept
  with_reducible assumption; split; with_reducible assumption; split; apply endSet_kept; apply addToSet_kept; split; apply beginSet_kept
  apply meetGroup_kept; with_reducible assumption; apply meetGroup_kept; with_reducible assumption; apply addToSet_kept; split
  apply beginSet_kept; apply meetGroup_kept; with_reducible assumption; apply meetGroup_kept; with_reducible assumption

theorem forwardBeat_kept {s0 : State} (site : Nat) (k : Nat) {s : State} (b : Beat) (hs : Kept s0 s) :
    Kept s0 (forwardBeat site k s b) := by
  unfold forwardBeat; dsimp only; split; apply State.setTxLink_kept; with_reducible assumption; apply State.bump_kept
  with_reducible assumption

theorem releaseRow_kept {s0 : State} {s : State} (x : Nat) (t : Nat) (row : List Beat) (hs : Kept s0 s) :
    Kept s0 (releaseRow s x t row) := by
  unfold releaseRow; dsimp only; split; apply Kept.foldl; intros; apply forwardBeat_kept; with_reducible assumption
  with_reducible assumption; apply releaseInto_kept; with_reducible assumption

theorem execLockedReceiveRelease_kept {s0 : State} (x : BitVec 14) {s : State} (hs : Kept s0 s) :
    KeptR s0 (execLockedReceiveRelease x s) := by
  unfold execLockedReceiveRelease; dsimp only; split; split; apply KeptR.next; apply releaseRow_kept; apply State.setCtx_kept
  apply State.at_kept; with_reducible assumption; apply KeptR.next; apply releaseRow_kept; apply State.bump_kept; apply State.setCtx_kept
  apply State.at_kept; with_reducible assumption; apply KeptR.next; with_reducible assumption

theorem badCheck_kept {s0 : State} {s : State} (h : FlitHdr) (hs : Kept s0 s) : Kept s0 (badCheck s h) := by
  unfold badCheck
  split
  · exact spoiled_kept _ _ hs
  · exact beginNak_kept _ _ _ (State.bump_kept _ _ hs)

theorem receive_kept {s0 : State} (h : FlitHdr) (ty : Nat) (b : FlitBody) {s : State} (run : State → State) (hs : Kept s0 s) (hf5 : ∀ y1, Kept s0 y1 → Kept s0 (run y1)) :
    KeptR s0 (receive h ty b s run) := by
  unfold receive; apply KeptR.ite; apply KeptR.next; with_reducible assumption; apply KeptR.ite; apply KeptR.next; with_reducible assumption
  apply KeptR.ite; apply KeptR.next; apply badCheck_kept; with_reducible assumption; apply KeptR.next; apply hf5; with_reducible assumption

theorem receiveLoose_kept {s0 : State} (h : FlitHdr) (b : FlitBody) (bad : Bool) {s : State} (hs : Kept s0 s) :
    KeptR s0 (receiveLoose h b bad s) := by
  unfold receiveLoose; apply receive_kept; with_reducible assumption; intros; split; apply typeErr_kept; with_reducible assumption
  apply sequenced_kept; with_reducible assumption

theorem receiveSys_kept {s0 : State} (h : FlitHdr) (subtype : Nat) (fs : List (Nat × Nat)) {s : State} (hs : Kept s0 s) :
    KeptR s0 (receiveSys h subtype fs s) := by
  unfold receiveSys; apply receiveLoose_kept; with_reducible assumption

theorem execNullFlit_kept {s0 : State} (h : FlitHdr) (ty : BitVec 4) {s : State} (hs : Kept s0 s) : KeptR s0 (execNullFlit h ty s) := by
  unfold execNullFlit; dsimp only; apply receive_kept; with_reducible assumption; intros; split; split; apply typeErr_kept
  with_reducible assumption; with_reducible assumption; split; with_reducible assumption; split; apply typeErr_kept
  with_reducible assumption; apply sequenced_kept; with_reducible assumption

theorem execBeatFlit_kept {s0 : State} (h : FlitHdr) (b : Beat) {s : State} (hs : Kept s0 s) : KeptR s0 (execBeatFlit h b s) := by
  unfold execBeatFlit; apply receive_kept; with_reducible assumption; intros; split; split; apply typeErr_kept; with_reducible assumption
  apply takeLocked_kept; with_reducible assumption; apply sequenced_kept; with_reducible assumption

theorem execWriteFlit_kept {s0 : State} (h : FlitHdr) (addr : BitVec 48) (bytes : List Byte) {s : State} (hs : Kept s0 s) :
    KeptR s0 (execWriteFlit h addr bytes s) := by
  unfold execWriteFlit; apply receiveLoose_kept; with_reducible assumption

theorem execReadFlit_kept {s0 : State} (h : FlitHdr) (addr : BitVec 48) (bytesM1 : BitVec 12) (tag : Byte) {s : State} (hs : Kept s0 s) :
    KeptR s0 (execReadFlit h addr bytesM1 tag s) := by
  unfold execReadFlit; apply receiveLoose_kept; with_reducible assumption

theorem execDataFlit_kept {s0 : State} (h : FlitHdr) (tag : Byte) (offset : BitVec 12) (err : Bool) (bytes : List Byte) {s : State} (hs : Kept s0 s) :
    KeptR s0 (execDataFlit h tag offset err bytes s) := by
  unfold execDataFlit; apply receiveLoose_kept; with_reducible assumption

theorem execNoticeFlit_kept {s0 : State} (h : FlitHdr) (payload : BitVec 256) {s : State} (hs : Kept s0 s) :
    KeptR s0 (execNoticeFlit h payload s) := by
  unfold execNoticeFlit; apply receiveLoose_kept; with_reducible assumption

theorem execCreditFlit_kept {s0 : State} (h : FlitHdr) (credits : BitVec 16) {s : State} (hs : Kept s0 s) :
    KeptR s0 (execCreditFlit h credits s) := by
  unfold execCreditFlit; apply receiveLoose_kept; with_reducible assumption

theorem execLinkFlit_kept {s0 : State} (h : FlitHdr) (ackSeq : BitVec 8) (nak : Bool) {s : State} (hs : Kept s0 s) :
    KeptR s0 (execLinkFlit h ackSeq nak s) := by
  unfold execLinkFlit; apply receive_kept; with_reducible assumption; intros; split; apply typeErr_kept; with_reducible assumption
  apply takeLink12_kept; with_reducible assumption

theorem execNego_kept {s0 : State} (h : FlitHdr) (gen : Byte) (cap : Word32) (endpoint : BitVec 10) (host : Bool) (tkClaim : Bool) (tkNum : BitVec 10) (width : BitVec 2) {s : State} (hs : Kept s0 s) :
    KeptR s0 (execNego h gen cap endpoint host tkClaim tkNum width s) := by
  unfold execNego; apply receiveSys_kept; with_reducible assumption

theorem execAnnounce_kept {s0 : State} (h : FlitHdr) (tkNum : BitVec 10) (seq : BitVec 16) {s : State} (hs : Kept s0 s) :
    KeptR s0 (execAnnounce h tkNum seq s) := by
  unfold execAnnounce; apply receiveSys_kept; with_reducible assumption

theorem execSched_kept {s0 : State} (h : FlitHdr) (code : Byte) (ref : BitVec 24) (a3 : Byte) (seq : BitVec 16) {s : State} (hs : Kept s0 s) :
    KeptR s0 (execSched h code ref a3 seq s) := by
  unfold execSched; apply receiveSys_kept; with_reducible assumption

theorem execSchedAck_kept {s0 : State} (h : FlitHdr) (refused : Bool) (sender : BitVec 10) (seq : BitVec 16) {s : State} (hs : Kept s0 s) :
    KeptR s0 (execSchedAck h refused sender seq s) := by
  unfold execSchedAck; apply receiveSys_kept; with_reducible assumption

theorem execArrive_kept {s0 : State} (h : FlitHdr) (sender : BitVec 10) (seq : BitVec 16) {s : State} (hs : Kept s0 s) :
    KeptR s0 (execArrive h sender seq s) := by
  unfold execArrive; apply receiveSys_kept; with_reducible assumption

theorem execSysRelease_kept {s0 : State} (h : FlitHdr) (seq : BitVec 16) {s : State} (hs : Kept s0 s) :
    KeptR s0 (execSysRelease h seq s) := by
  unfold execSysRelease; apply receiveSys_kept; with_reducible assumption

theorem execDetach_kept {s0 : State} (h : FlitHdr) (group : BitVec 10) (member : BitVec 3) (stream : BitVec 14) {s : State} (hs : Kept s0 s) :
    KeptR s0 (execDetach h group member stream s) := by
  unfold execDetach; apply receiveSys_kept; with_reducible assumption

theorem execRestripe_kept {s0 : State} (h : FlitHdr) (width : BitVec 2) {s : State} (hs : Kept s0 s) :
    KeptR s0 (execRestripe h width s) := by
  unfold execRestripe; apply receiveSys_kept; with_reducible assumption

theorem execEcho_kept {s0 : State} (h : FlitHdr) (isReply : Bool) (stamp : Word32) {s : State} (hs : Kept s0 s) :
    KeptR s0 (execEcho h isReply stamp s) := by
  unfold execEcho; apply receiveSys_kept; with_reducible assumption

theorem contextPart_kept {s0 : State} {s : State} (x : Nat) (link : LinkEcc) (hs : Kept s0 s) : Kept s0 (contextPart s x link) := by
  unfold contextPart; dsimp only; split; with_reducible assumption; split; apply Kept.ite; apply State.setCtx_kept; apply Kept.ite; split
  apply spoilAt_kept; apply Kept.foldl; intros; apply writePart_kept; with_reducible assumption; apply usePort_kept
  with_reducible assumption; with_reducible assumption; apply readPart_kept; with_reducible assumption; apply settleGroups_kept
  apply drainAccess_kept; apply popBuf_kept; split; apply reply_kept; apply State.setCtx_kept; apply Kept.ite; split; apply spoilAt_kept
  apply Kept.foldl; intros; apply writePart_kept; with_reducible assumption; apply usePort_kept; with_reducible assumption
  with_reducible assumption; apply readPart_kept; with_reducible assumption; apply State.setCtx_kept; apply Kept.ite; split
  apply spoilAt_kept; apply Kept.foldl; intros; apply writePart_kept; with_reducible assumption; apply usePort_kept
  with_reducible assumption; with_reducible assumption; apply readPart_kept; with_reducible assumption; with_reducible assumption

theorem hostAccess_kept {s0 : State} {s : State} (t : Nat) (addr : Nat) (write : Bool) (link : LinkEcc) (hs : Kept s0 s) :
    Kept s0 (hostAccess s t addr write link) := by
  unfold hostAccess; dsimp only; split; apply Kept.ite; apply noteStep_kept; apply State.bump_kept; apply Kept.getD; apply workPart_kept
  with_reducible assumption; with_reducible assumption; with_reducible assumption; apply Kept.ite; apply State.bump_kept
  apply contextPart_kept; with_reducible assumption; with_reducible assumption; with_reducible assumption

theorem execMemoryRead_kept {s0 : State} (t : MemIx) (addr : Nat) (a2 : Nat) (link : LinkEcc) {s : State} (hs : Kept s0 s) :
    KeptR s0 (execMemoryRead t addr a2 link s) := by
  unfold execMemoryRead; apply KeptR.ite; apply KeptR.next; with_reducible assumption; apply KeptR.ite; apply KeptR.next
  apply hostAccess_kept; with_reducible assumption; apply KeptR.ite; apply KeptR.next; apply State.bump_kept; apply patrolBlock_kept
  with_reducible assumption; apply KeptR.next; with_reducible assumption

theorem descAccess_kept {s0 : State} {s : State} (r : Nat) (i : Nat) (t : Nat) (addr : Nat) (link : LinkEcc) (hs : Kept s0 s) :
    Kept s0 (descAccess s r i t addr link) := by
  unfold descAccess; dsimp only; apply Kept.ite; apply retryPins_kept; apply writeAccess_kept; with_reducible assumption
  with_reducible assumption

theorem execMemoryWrite_kept {s0 : State} (t : MemIx) (addr : Nat) (a2 : List Word64) (link : LinkEcc) {s : State} (hs : Kept s0 s) :
    KeptR s0 (execMemoryWrite t addr a2 link s) := by
  unfold execMemoryWrite; apply KeptR.ite; apply KeptR.next; with_reducible assumption; split; apply KeptR.next; apply hostAccess_kept
  with_reducible assumption; apply KeptR.next; apply descAccess_kept; with_reducible assumption; apply KeptR.next; with_reducible assumption

end Sys2Proof.Machine
end

