-- ==== Sys2Proof/Laws/KeptStep.lean ====
section
/-!
SUPPORT. Laws/KeptStep.lean: every command keeps the waiting commands, the identity and the canonical form.
-/
namespace Sys2Proof.Machine

/-- What any command keeps (Laws/Kept.lean). -/
theorem exec_kept (i : Instr) (s : State) : KeptR s (exec i s) := by
  cases i with
  | crossingStart => exact execCrossingStart_kept (Kept.refl s)
  | timingSlot comma chars violation => exact execTimingSlot_kept comma chars violation (Kept.refl s)
  | nop => exact execNop_kept (Kept.refl s)
  | runStart ref a3 => exact execRunStart_kept ref a3 (Kept.refl s)
  | runStop ref a3 => exact execRunStop_kept ref a3 (Kept.refl s)
  | resync turn => exact execResync_kept turn (Kept.refl s)
  | resyncLoad => exact execResyncLoad_kept (Kept.refl s)
  | testPulse ref a3 => exact execTestPulse_kept ref a3 (Kept.refl s)
  | menuSelect ref a3 => exact execMenuSelect_kept ref a3 (Kept.refl s)
  | frost ref a3 => exact execFrost_kept ref a3 (Kept.refl s)
  | runStartEffect => exact execRunStartEffect_kept (Kept.refl s)
  | runStopEffect => exact execRunStopEffect_kept (Kept.refl s)
  | menuSelectEffect => exact execMenuSelectEffect_kept (Kept.refl s)
  | testPulseEffect => exact execTestPulseEffect_kept (Kept.refl s)
  | epochEffect => exact execEpochEffect_kept (Kept.refl s)
  | runStoppedLastVerdict => exact execRunStoppedLastVerdict_kept (Kept.refl s)
  | timingSignalPresent => exact execTimingSignalPresent_kept (Kept.refl s)
  | commaFound => exact execCommaFound_kept (Kept.refl s)
  | confirmComplete => exact execConfirmComplete_kept (Kept.refl s)
  | timingCodeViolation => exact execTimingCodeViolation_kept (Kept.refl s)
  | frequencyMeasurement hz => exact execFrequencyMeasurement_kept hz (Kept.refl s)
  | pllLock => exact execPllLock_kept (Kept.refl s)
  | pllLockTimeout => exact execPllLockTimeout_kept (Kept.refl s)
  | phaseAligned => exact execPhaseAligned_kept (Kept.refl s)
  | phaseTimeout => exact execPhaseTimeout_kept (Kept.refl s)
  | turnStartSeen gap => exact execTurnStartSeen_kept gap (Kept.refl s)
  | numberTimeout => exact execNumberTimeout_kept (Kept.refl s)
  | timingLaneLoss => exact execTimingLaneLoss_kept (Kept.refl s)
  | holdoverReturn phase num => exact execHoldoverReturn_kept phase num (Kept.refl s)
  | holdoverExpired => exact execHoldoverExpired_kept (Kept.refl s)
  | forcedRunStop => exact execForcedRunStop_kept (Kept.refl s)
  | timCtrlWrite v => exact execTimCtrlWrite_kept v (Kept.refl s)
  | intakeFrameStart n head number rest => exact execIntakeFrameStart_kept n head number rest (Kept.refl s)
  | intakeFrameArrival n data sum close a => exact execIntakeFrameArrival_kept n data sum close a (Kept.refl s)
  | waystationRelease => exact execWaystationRelease_kept (Kept.refl s)
  | stagedWaystationRelease n => exact execStagedWaystationRelease_kept n (Kept.refl s)
  | arrivalMeasurementEnd n => exact execArrivalMeasurementEnd_kept n (Kept.refl s)
  | contributionArrival v => exact execContributionArrival_kept v (Kept.refl s)
  | recordClose v => exact execRecordClose_kept v (Kept.refl s)
  | verdictLaunch v => exact execVerdictLaunch_kept v (Kept.refl s)
  | anchor a => exact execAnchor_kept a (Kept.refl s)
  | mac u => exact execMac_kept u (Kept.refl s)
  | macz u => exact execMacz_kept u (Kept.refl s)
  | grp u => exact execGrp_kept u (Kept.refl s)
  | clr u => exact execClr_kept u (Kept.refl s)
  | emit u => exact execEmit_kept u (Kept.refl s)
  | addin u => exact execAddin_kept u (Kept.refl s)
  | addinRowTaken u => exact execAddinRowTaken_kept u (Kept.refl s)
  | emitBusCycleFree u => exact execEmitBusCycleFree_kept u (Kept.refl s)
  | pass u => exact execPass_kept u (Kept.refl s)
  | dup u => exact execDup_kept u (Kept.refl s)
  | hold a => exact execHold_kept a (Kept.refl s)
  | holdEnd a => exact execHoldEnd_kept a (Kept.refl s)
  | sync a => exact execSync_kept a (Kept.refl s)
  | dropPkt a => exact execDropPkt_kept a (Kept.refl s)
  | menu a => exact execMenu_kept a (Kept.refl s)
  | act f => exact execAct_kept f (Kept.refl s)
  | rowx f => exact execRowx_kept f (Kept.refl s)
  | pin f => exact execPin_kept f (Kept.refl s)
  | norm f => exact execNorm_kept f (Kept.refl s)
  | expt f => exact execExpt_kept f (Kept.refl s)
  | rcp f => exact execRcp_kept f (Kept.refl s)
  | reduce f => exact execReduce_kept f (Kept.refl s)
  | pool f => exact execPool_kept f (Kept.refl s)
  | sort16 f => exact execSort16_kept f (Kept.refl s)
  | topk f => exact execTopk_kept f (Kept.refl s)
  | gather f => exact execGather_kept f (Kept.refl s)
  | scatter f => exact execScatter_kept f (Kept.refl s)
  | thresh f => exact execThresh_kept f (Kept.refl s)
  | funSourceWaitEnd f => exact execFunSourceWaitEnd_kept f (Kept.refl s)
  | funBlockedWaitEnd f => exact execFunBlockedWaitEnd_kept f (Kept.refl s)
  | tokenLoad k => exact execTokenLoad_kept k (Kept.refl s)
  | merge k => exact execMerge_kept k (Kept.refl s)
  | splitRows k => exact execSplitRows_kept k (Kept.refl s)
  | select k => exact execSelect_kept k (Kept.refl s)
  | route k => exact execRoute_kept k (Kept.refl s)
  | mask k => exact execMask_kept k (Kept.refl s)
  | pack k => exact execPack_kept k (Kept.refl s)
  | unpack k => exact execUnpack_kept k (Kept.refl s)
  | beatArrival u p => exact execBeatArrival_kept u p (Kept.refl s)
  | dropRest q => exact execDropRest_kept q (Kept.refl s)
  | injection k q => exact execInjection_kept k q (Kept.refl s)
  | creditReturn q => exact execCreditReturn_kept q (Kept.refl s)
  | writeCreditWaitEnd q => exact execWriteCreditWaitEnd_kept q (Kept.refl s)
  | arbiterDecision a presented => exact execArbiterDecision_kept a presented (Kept.refl s)
  | transactionEnd a => exact execTransactionEnd_kept a (Kept.refl s)
  | logFrameLo k v => exact execLogFrameLo_kept k v (Kept.refl s)
  | frameApplied k => exact execFrameApplied_kept k (Kept.refl s)
  | logBegin k => exact execLogBegin_kept k (Kept.refl s)
  | logDone k => exact execLogDone_kept k (Kept.refl s)
  | blockRelease k => exact execBlockRelease_kept k (Kept.refl s)
  | rgnStart r => exact execRgnStart_kept r (Kept.refl s)
  | rgnRelease r => exact execRgnRelease_kept r (Kept.refl s)
  | reconfigRelease r => exact execReconfigRelease_kept r (Kept.refl s)
  | commitRequest r => exact execCommitRequest_kept r (Kept.refl s)
  | commit r => exact execCommit_kept r (Kept.refl s)
  | freePllLocked r pll => exact execFreePllLocked_kept r pll (Kept.refl s)
  | logicPortWrite k j b => exact execLogicPortWrite_kept k j b (Kept.refl s)
  | logicPortTake k j => exact execLogicPortTake_kept k j (Kept.refl s)
  | bytePortStart k c => exact execBytePortStart_kept k c (Kept.refl s)
  | bytePortWriteByte k c b => exact execBytePortWriteByte_kept k c b (Kept.refl s)
  | bytePortReadByte k c ack => exact execBytePortReadByte_kept k c ack (Kept.refl s)
  | bytePortStop k c => exact execBytePortStop_kept k c (Kept.refl s)
  | bytePortDone d c resp => exact execBytePortDone_kept d c resp (Kept.refl s)
  | ufuseRead d => exact execUfuseRead_kept d (Kept.refl s)
  | ufuseProgram d => exact execUfuseProgram_kept d (Kept.refl s)
  | fuseProgramDone d => exact execFuseProgramDone_kept d (Kept.refl s)
  | windowWrite a v => exact execWindowWrite_kept a v (Kept.refl s)
  | windowRead a => exact execWindowRead_kept a (Kept.refl s)
  | loReadLatch r => exact execLoReadLatch_kept r (Kept.refl s)
  | rcRead addr => exact execRcRead_kept addr (Kept.refl s)
  | registerWrite addr v => exact execRegisterWrite_kept addr v (Kept.refl s)
  | loadImage r first second => exact execLoadImage_kept r first second (Kept.refl s)
  | loadLockWaitEnd r => exact execLoadLockWaitEnd_kept r (Kept.refl s)
  | verifyImage r image => exact execVerifyImage_kept r image (Kept.refl s)
  | quantise r weights => exact execQuantise_kept r weights (Kept.refl s)
  | writeMem r data => exact execWriteMem_kept r data (Kept.refl s)
  | readMem r => exact execReadMem_kept r (Kept.refl s)
  | copy r => exact execCopy_kept r (Kept.refl s)
  | armRun r => exact execArmRun_kept r (Kept.refl s)
  | disarm r => exact execDisarm_kept r (Kept.refl s)
  | selectMenu r => exact execSelectMenu_kept r (Kept.refl s)
  | frostHostCommand r => exact execFrostHostCommand_kept r (Kept.refl s)
  | frostRead r => exact execFrostRead_kept r (Kept.refl s)
  | spyDrain r => exact execSpyDrain_kept r (Kept.refl s)
  | attest r => exact execAttest_kept r (Kept.refl s)
  | scrub r => exact execScrub_kept r (Kept.refl s)
  | linkTrain r => exact execLinkTrain_kept r (Kept.refl s)
  | bist r found => exact execBist_kept r found (Kept.refl s)
  | barrierTest r longest => exact execBarrierTest_kept r longest (Kept.refl s)
  | hrgDb r v => exact execHrgDb_kept r v (Kept.refl s)
  | hrgEnable r v => exact execHrgEnable_kept r v (Kept.refl s)
  | descriptorFetch r bytes => exact execDescriptorFetch_kept r bytes (Kept.refl s)
  | engineStep => exact execEngineStep_kept (s := s) (Kept.refl s)
  | hostReadTimeout r => exact execHostReadTimeout_kept r (Kept.refl s)
  | readRegisters addr count => exact execReadRegisters_kept addr count (Kept.refl s)
  | writeRegisters addr bytes => exact execWriteRegisters_kept addr bytes (Kept.refl s)
  | readIdentity => exact execReadIdentity_kept (Kept.refl s)
  | readPortStatus => exact execReadPortStatus_kept (Kept.refl s)
  | postedWrite => exact execPostedWrite_kept (Kept.refl s)
  | shadowRefresh => exact execShadowRefresh_kept (Kept.refl s)
  | indirectRead => exact execIndirectRead_kept (Kept.refl s)
  | indirectWrite => exact execIndirectWrite_kept (Kept.refl s)
  | indirectAccessDone => exact execIndirectAccessDone_kept (Kept.refl s)
  | refresh t => exact execRefresh_kept t (Kept.refl s)
  | refreshRateRead t rate => exact execRefreshRateRead_kept t rate (Kept.refl s)
  | scrubNow t => exact execScrubNow_kept t (Kept.refl s)
  | patrolScrubRead t => exact execPatrolScrubRead_kept t (Kept.refl s)
  | memoryRead t addr words link => exact execMemoryRead_kept t addr words link (Kept.refl s)
  | memoryWrite t addr data link => exact execMemoryWrite_kept t addr data link (Kept.refl s)
  | cacheAccess r addr write => exact execCacheAccess_kept r addr write (Kept.refl s)
  | cacheFill r fill => exact execCacheFill_kept r fill (Kept.refl s)
  | invalidate r => exact execInvalidate_kept r (Kept.refl s)
  | invalidationDone r => exact execInvalidationDone_kept r (Kept.refl s)
  | arm r ix => exact execArm_kept r ix (Kept.refl s)
  | abort r ix => exact execAbort_kept r ix (Kept.refl s)
  | tileRequest r ix => exact execTileRequest_kept r ix (Kept.refl s)
  | transferComplete r ix => exact execTransferComplete_kept r ix (Kept.refl s)
  | handlePopWaitEnd r ix => exact execHandlePopWaitEnd_kept r ix (Kept.refl s)
  | handlePushWaitEnd r ix => exact execHandlePushWaitEnd_kept r ix (Kept.refl s)
  | strHqPush r q v => exact execStrHqPush_kept r q v (Kept.refl s)
  | strHqPop r q => exact execStrHqPop_kept r q (Kept.refl s)
  | leafArrive r => exact execLeafArrive_kept r (Kept.refl s)
  | barrierRelease => exact execBarrierRelease_kept (Kept.refl s)
  | barrierTimeout => exact execBarrierTimeout_kept (Kept.refl s)
  | recoverGo r v => exact execRecoverGo_kept r v (Kept.refl s)
  | laneUp l => exact execLaneUp_kept l (Kept.refl s)
  | trainingAttemptFailed l => exact execTrainingAttemptFailed_kept l (Kept.refl s)
  | marginMeasurement l h v => exact execMarginMeasurement_kept l h v (Kept.refl s)
  | lossOfLock l => exact execLossOfLock_kept l (Kept.refl s)
  | train l => exact execTrain_kept l (Kept.refl s)
  | lnkBondWrite site v => exact execLnkBondWrite_kept site v (Kept.refl s)
  | laserPowerChange site fibre2 power => exact execLaserPowerChange_kept site fibre2 power (Kept.refl s)
  | beatFrameSend site lane => exact execBeatFrameSend_kept site lane (Kept.refl s)
  | codewordReceived site lane errors past => exact execCodewordReceived_kept site lane errors past (Kept.refl s)
  | nullFlit h ty => exact execNullFlit_kept h ty (Kept.refl s)
  | beatFlit h b => exact execBeatFlit_kept h b (Kept.refl s)
  | writeFlit h addr bytes => exact execWriteFlit_kept h addr bytes (Kept.refl s)
  | readFlit h addr bytesM1 tag => exact execReadFlit_kept h addr bytesM1 tag (Kept.refl s)
  | dataFlit h tag offset err bytes => exact execDataFlit_kept h tag offset err bytes (Kept.refl s)
  | noticeFlit h payload => exact execNoticeFlit_kept h payload (Kept.refl s)
  | creditFlit h credits => exact execCreditFlit_kept h credits (Kept.refl s)
  | linkFlit h ackSeq nak => exact execLinkFlit_kept h ackSeq nak (Kept.refl s)
  | nego h gen cap endpoint host tkClaim tkNum width => exact execNego_kept h gen cap endpoint host tkClaim tkNum width (Kept.refl s)
  | announce h tkNum seq => exact execAnnounce_kept h tkNum seq (Kept.refl s)
  | sched h code ref a3 seq => exact execSched_kept h code ref a3 seq (Kept.refl s)
  | schedAck h refused sender seq => exact execSchedAck_kept h refused sender seq (Kept.refl s)
  | arrive h sender seq => exact execArrive_kept h sender seq (Kept.refl s)
  | sysRelease h seq => exact execSysRelease_kept h seq (Kept.refl s)
  | detach h group member stream => exact execDetach_kept h group member stream (Kept.refl s)
  | restripe h width => exact execRestripe_kept h width (Kept.refl s)
  | echo h reply stamp => exact execEcho_kept h reply stamp (Kept.refl s)
  | lockedWindow site lead => exact execLockedWindow_kept site lead (Kept.refl s)
  | lockedReceiveRelease x => exact execLockedReceiveRelease_kept x (Kept.refl s)
  | creditTimer x => exact execCreditTimer_kept x (Kept.refl s)
  | ackTimer site lane => exact execAckTimer_kept site lane (Kept.refl s)
  | nakRepeat site lane => exact execNakRepeat_kept site lane (Kept.refl s)
  | resendTimeout site lane => exact execResendTimeout_kept site lane (Kept.refl s)
  | detachTimeout m => exact execDetachTimeout_kept m (Kept.refl s)
  | linkReset site lead => exact execLinkReset_kept site lead (Kept.refl s)
  | announceTimer => exact execAnnounceTimer_kept (Kept.refl s)
  | tkKnownTimeout => exact execTkKnownTimeout_kept (Kept.refl s)
  | tkSend => exact execTkSend_kept (Kept.refl s)
  | detachClear => exact execDetachClear_kept (Kept.refl s)
  | porstRise straps => exact execPorstRise_kept straps (Kept.refl s)
  | porstFall => exact execPorstFall_kept (Kept.refl s)
  | refclkPresent => exact execRefclkPresent_kept (Kept.refl s)
  | flashTimeout => exact execFlashTimeout_kept (Kept.refl s)
  | reboot straps => exact execReboot_kept straps (Kept.refl s)
  | flashRead => exact execFlashRead_kept (Kept.refl s)
  | flashProgram => exact execFlashProgram_kept (Kept.refl s)
  | flashErase => exact execFlashErase_kept (Kept.refl s)
  | flashCommandDone => exact execFlashCommandDone_kept (Kept.refl s)
  | ownerProgram confirm => exact execOwnerProgram_kept confirm (Kept.refl s)
  | ownerProgramDone => exact execOwnerProgramDone_kept (Kept.refl s)
  | unitScrubRead u => exact execUnitScrubRead_kept u (Kept.refl s)
  | regionScrubRead r => exact execRegionScrubRead_kept r (Kept.refl s)
  | scrubNowRegion r => exact execScrubNowRegion_kept r (Kept.refl s)
  | fencedWrite u fenced => exact execFencedWrite_kept u fenced (Kept.refl s)
  | avsReading d slack => exact execAvsReading_kept d slack (Kept.refl s)
  | avsStepSettled d => exact execAvsStepSettled_kept d (Kept.refl s)
  | temperatureConversion temps => exact execTemperatureConversion_kept temps (Kept.refl s)
  | secondConversion r temp => exact execSecondConversion_kept r temp (Kept.refl s)
  | tripStop => exact execTripStop_kept (Kept.refl s)
  | brownout => exact execBrownout_kept (Kept.refl s)
  | vinRise => exact execVinRise_kept (Kept.refl s)
  | railsGood => exact execRailsGood_kept (Kept.refl s)
  | powerAverage vin iin pin => exact execPowerAverage_kept vin iin pin (Kept.refl s)
  | ov => exact execOv_kept (Kept.refl s)
  | oc => exact execOc_kept (Kept.refl s)
  | regFault d => exact execRegFault_kept d (Kept.refl s)
  | refclkLoss => exact execRefclkLoss_kept (Kept.refl s)
  | smbusReadIdentity => exact execSmbusReadIdentity_kept (Kept.refl s)
  | smbusReadStatus => exact execSmbusReadStatus_kept (Kept.refl s)
  | smbusReadVin => exact execSmbusReadVin_kept (Kept.refl s)
  | smbusReadCurrent => exact execSmbusReadCurrent_kept (Kept.refl s)
  | smbusReadPower => exact execSmbusReadPower_kept (Kept.refl s)
  | smbusReadPeak => exact execSmbusReadPeak_kept (Kept.refl s)
  | smbusReadTemperature => exact execSmbusReadTemperature_kept (Kept.refl s)
  | smbusReadBootStatus => exact execSmbusReadBootStatus_kept (Kept.refl s)
  | smbusAlertMask write => exact execSmbusAlertMask_kept write (Kept.refl s)
  | alertResponse => exact execAlertResponse_kept (Kept.refl s)
  | extest pins shifted => exact execExtest_kept pins shifted (Kept.refl s)
  | samplePreload pins shifted => exact execSamplePreload_kept pins shifted (Kept.refl s)
  | idcode => exact execIdcode_kept (Kept.refl s)
  | frsAddr offset => exact execFrsAddr_kept offset (Kept.refl s)
  | frsData => exact execFrsData_kept (Kept.refl s)
  | bypass code => exact execBypass_kept code (Kept.refl s)
  | trst => exact execTrst_kept (Kept.refl s)
  | frsArm => exact execFrsArm_kept (Kept.refl s)
  | frsRelease => exact execFrsRelease_kept (Kept.refl s)
  | frostCapture => exact execFrostCapture_kept (Kept.refl s)
  | laneSignalPresent l => exact execLaneSignalPresent_kept l (Kept.refl s)
  | lockRecovered l => exact execLockRecovered_kept l (Kept.refl s)
  | gpioLevelChange ix level => exact execGpioLevelChange_kept ix level (Kept.refl s)
  | xspiOtherCommand opcode ext => exact execXspiOtherCommand_kept opcode ext (Kept.refl s)
  | vinBelow10V => exact execVinBelow10V_kept (Kept.refl s)

end Sys2Proof.Machine
end

