-- ==== Sys2Proof/Laws/Store.lean ====
section
/-!
SUPPORT. Laws/Store.lean: reading a store, a memory tile, a cluster store and the flash after a write.
-/
namespace Sys2Proof.Machine

theorem Store.blank_put (m : Store) (i j : Nat) (v : Word64) : (m.put i v).blank j = m.blank j := rfl

@[simp] theorem Store.word_put (m : Store) (i : Nat) (v : Word64) : (m.put i v).word i = v := mget_mset_same _ _ _ _

theorem Store.word_put_other (m : Store) {i j : Nat} (v : Word64) (h : j ≠ i) : (m.put i v).word j = m.word j := mget_mset_other _ _ _ _ h

@[simp] theorem Store.check_put (m : Store) (i : Nat) (v : Word64) : (m.put i v).check i = none :=
  mget_mset_same (none : Option Ecc) m.ecc i none

theorem Store.check_put_other (m : Store) {i j : Nat} (v : Word64) (h : j ≠ i) : (m.put i v).check j = m.check j :=
  mget_mset_other (none : Option Ecc) none m.ecc none h

@[simp] theorem Store.word_putPoison (m : Store) (i : Nat) (v : Word64) : (m.putPoison i v).word i = v := mget_mset_same _ _ _ _

theorem Store.word_putPoison_other (m : Store) {i j : Nat} (v : Word64) (h : j ≠ i) : (m.putPoison i v).word j = m.word j :=
  mget_mset_other _ _ _ _ h

@[simp] theorem Store.check_putPoison (m : Store) (i : Nat) (v : Word64) : (m.putPoison i v).check i = some .uncorrectable :=
  mget_mset_same (none : Option Ecc) m.ecc i (some .uncorrectable)

theorem Store.check_putPoison_other (m : Store) {i j : Nat} (v : Word64) (h : j ≠ i) : (m.putPoison i v).check j = m.check j :=
  mget_mset_other (none : Option Ecc) none m.ecc (some .uncorrectable) h

theorem touchBlock_memTile (s : State) (t b u : Nat) : (touchBlock s t b).memTile u = s.memTile u := rfl

/-- A word written to a tile reads as written. -/
theorem tileWrite_word (s : State) (t w : Nat) (v : Word64) (p : Bool) : ((tileWrite s t w v p).memTile t).word w = v := by
  unfold tileWrite
  rw [State.setMemTile_memTile]
  cases p <;> simp

/-- Its check bits say clean, or poisoned. -/
theorem tileWrite_check (s : State) (t w : Nat) (v : Word64) (p : Bool) :
    ((tileWrite s t w v p).memTile t).check w = if p then some .uncorrectable else none := by
  unfold tileWrite
  rw [State.setMemTile_memTile]
  cases p <;> simp

/-- Every other word of the tile is as it was. -/
theorem tileWrite_word_other (s : State) (t : Nat) {w j : Nat} (v : Word64) (p : Bool) (h : j ≠ w) :
    ((tileWrite s t w v p).memTile t).word j = (s.memTile t).word j := by
  unfold tileWrite
  rw [State.setMemTile_memTile]
  cases p
  · exact Store.word_put_other _ v h
  · exact Store.word_putPoison_other _ v h

/-- Every other tile is as it was. -/
theorem tileWrite_other_tile (s : State) {t u : Nat} (w : Nat) (v : Word64) (p : Bool) (h : u ≠ t) :
    (tileWrite s t w v p).memTile u = s.memTile u := by
  unfold tileWrite
  rw [State.setMemTile_memTile_other _ _ _ _ h, touchBlock_memTile]

/-- A word written to a cluster store reads as written, poisoned or clean. -/
theorem storeRead_storeWrite (s : State) (k w : Nat) (v : Word64) (p : Bool) : storeRead (storeWrite s k w v p) k w = (v, p) := by
  unfold storeRead storeWrite
  rw [State.setCluster_cluster]
  cases p <;> simp

/-- Every other word of the cluster store is as it was. -/
theorem storeRead_storeWrite_other (s : State) (k : Nat) {w j : Nat} (v : Word64) (p : Bool) (h : j ≠ w) :
    storeRead (storeWrite s k w v p) k j = storeRead s k j := by
  unfold storeRead storeWrite
  rw [State.setCluster_cluster]
  cases p
  · simp [Store.word_put_other _ _ h, Store.check_put_other _ _ h]
  · simp [Store.word_putPoison_other _ _ h, Store.check_putPoison_other _ _ h]

/-- Every other cluster store is as it was. -/
theorem storeRead_storeWrite_cluster (s : State) {k l : Nat} (w j : Nat) (v : Word64) (p : Bool) (h : l ≠ k) :
    storeRead (storeWrite s k w v p) l j = storeRead s l j := by
  unfold storeRead storeWrite
  rw [State.setCluster_cluster_other _ _ _ _ h]

end Sys2Proof.Machine
end

