-- ==== Sys2Proof/WellFormed.lean ====
section
/-!
DEFINITION. WellFormed.lean: which commands the outside world can send: the operands that the spec bounds and their types do not.
-/
namespace Sys2Proof

/-- A transmit lane is one of 32 at most, a receive lane one of 48 (11_optical_tiles.md R274). -/
def laneOk (l : LaneId) : Bool := !l.tx || decide (l.lane.val < 32)

/-- The flit types that R299 reserves (12_elvaro_fabric.md). -/
def reservedType (ty : BitVec 4) : Bool := [6#4, 7#4, 11#4, 12#4, 13#4, 14#4, 15#4].contains ty

/-- A WRITE or DATA flit carries 1 to 24 bytes (12 R299). -/
def flitBytes (b : List Byte) : Bool := decide (1 ≤ b.length) && decide (b.length ≤ 24)

/-- An access has errors in different words of its own (10_staged_mode.md R247). -/
def linkOk (words : Nat) (l : LinkEcc) : Bool :=
  decide (l.corrected ≤ words) && l.passed.all (fun e => decide (e.1 < words)) && decide (l.passed.map (·.1)).Nodup

/-- The bits from `lo` up, `w` of them, of a payload. -/
def payloadBits (lo w : Nat) : BitVec 256 := BitVec.ofNat 256 (2 ^ lo * (2 ^ w - 1))

/-- `extra` holds no bit of the payload fields that the command names (12 R299). -/
def apart (h : FlitHdr) (named : BitVec 256) : Bool := decide (h.extra &&& named = 0)

/-- LINK and SYS flits have STREAM 0 (12 R297); a SYS flit's fields end below bit `n` (12 R321). -/
def streamless (h : FlitHdr) (n : Nat) : Bool := decide (h.stream = 0) && apart h (payloadBits 0 n)

/-- The command is one that can be sent. -/
def wellFormed : Instr → Bool
  | .crossingStart | .timingSlot _ _ _ | .nop | .runStart _ _ | .runStop _ _ | .resync _ | .resyncLoad | .testPulse _ _ | .menuSelect _ _
  | .frost _ _ | .runStartEffect | .runStopEffect | .menuSelectEffect | .testPulseEffect | .epochEffect | .runStoppedLastVerdict
  | .timingSignalPresent | .commaFound | .confirmComplete | .timingCodeViolation | .frequencyMeasurement _ | .pllLock | .pllLockTimeout
  | .phaseAligned | .phaseTimeout => true
  | .turnStartSeen gap => decide (1 ≤ gap)
  | .numberTimeout | .timingLaneLoss | .holdoverReturn _ _ | .holdoverExpired | .forcedRunStop | .timCtrlWrite _ => true
  -- 11 R279, R280: a start is at most five characters, and no frame brings more than 256 bytes, their CRC and its end.
  | .intakeFrameStart _ _ number rest => decide (number.length + rest.length ≤ 4)
  | .intakeFrameArrival _ data sum _ _ => decide (data.length + sum.length ≤ 260)
  | .waystationRelease | .stagedWaystationRelease _ | .arrivalMeasurementEnd _ | .contributionArrival _ | .recordClose _ | .verdictLaunch _
  | .anchor _ | .mac _ | .macz _ | .grp _ | .clr _ | .emit _ | .addin _ | .addinRowTaken _ | .emitBusCycleFree _ | .pass _ | .dup _
  | .hold _ | .holdEnd _ | .sync _ | .dropPkt _ | .menu _ | .act _ | .rowx _ | .pin _ | .norm _ | .expt _ | .rcp _ | .reduce _ | .pool _
  | .sort16 _ | .topk _ | .gather _ | .scatter _ | .thresh _ | .funSourceWaitEnd _ | .funBlockedWaitEnd _ | .tokenLoad _ | .merge _
  | .splitRows _ | .select _ | .route _ | .mask _ | .pack _ | .unpack _ | .beatArrival _ _ | .dropRest _ | .injection _ _ | .creditReturn _
  | .writeCreditWaitEnd _ => true
  | .arbiterDecision _ presented => decide presented.Nodup
  | .transactionEnd _ | .logFrameLo _ _ | .frameApplied _ | .logBegin _ | .logDone _ | .blockRelease _ | .rgnStart _ | .rgnRelease _
  | .reconfigRelease _ | .commitRequest _ | .commit _ | .freePllLocked _ _ | .logicPortWrite _ _ _ | .logicPortTake _ _
  | .bytePortStart _ _ | .bytePortWriteByte _ _ _ | .bytePortReadByte _ _ _ | .bytePortStop _ _ | .bytePortDone _ _ _ | .ufuseRead _
  | .ufuseProgram _ | .fuseProgramDone _ | .windowWrite _ _ | .windowRead _ | .loReadLatch _ | .rcRead _ | .registerWrite _ _
  | .loadImage _ _ _ | .loadLockWaitEnd _ | .verifyImage _ _ | .quantise _ _ | .writeMem _ _ | .readMem _ | .copy _ | .armRun _ | .disarm _
  | .selectMenu _ | .frostHostCommand _ | .frostRead _ | .spyDrain _ | .attest _ | .scrub _ | .linkTrain _ | .bist _ _ | .barrierTest _ _
  | .hrgDb _ _ | .hrgEnable _ _ => true
  | .descriptorFetch _ bytes => decide (bytes.length = 64)
  | .engineStep | .hostReadTimeout _ => true
  | .readRegisters _ count => decide (1 ≤ count)
  | .writeRegisters _ _ | .readIdentity | .readPortStatus | .postedWrite | .shadowRefresh | .indirectRead | .indirectWrite
  | .indirectAccessDone | .refresh _ | .refreshRateRead _ _ | .scrubNow _ | .patrolScrubRead _ => true
  | .memoryRead _ _ words link => decide (1 ≤ words) && linkOk words link
  | .memoryWrite _ _ data link => decide (1 ≤ data.length) && linkOk data.length link
  | .cacheFill _ fill => linkOk 32 fill.link
  | .cacheAccess _ _ _ | .invalidate _ | .invalidationDone _ | .arm _ _ | .abort _ _ | .tileRequest _ _ | .transferComplete _ _
  | .handlePopWaitEnd _ _ | .handlePushWaitEnd _ _ | .strHqPush _ _ _ | .strHqPop _ _ | .leafArrive _ | .barrierRelease | .barrierTimeout
  | .recoverGo _ _ => true
  | .laneUp l => laneOk l
  | .trainingAttemptFailed l => laneOk l
  | .marginMeasurement l _ _ => laneOk l
  | .lossOfLock l => laneOk l
  | .train l => laneOk l
  | .lnkBondWrite _ _ | .laserPowerChange _ _ _ | .beatFrameSend _ _ | .codewordReceived _ _ _ _ => true
  | .nullFlit _ ty => decide (ty = 0) || reservedType ty
  | .beatFlit h _ => apart h (payloadBits 0 208)
  | .writeFlit h _ bytes => flitBytes bytes && apart h (payloadBits 0 53 ||| payloadBits 64 (8 * bytes.length))
  | .readFlit h _ _ _ => apart h (payloadBits 0 68)
  | .dataFlit h _ _ _ bytes => flitBytes bytes && apart h (payloadBits 0 26 ||| payloadBits 64 (8 * bytes.length))
  | .noticeFlit h _ => apart h (payloadBits 0 256)
  | .creditFlit h _ => apart h (payloadBits 0 16)
  | .linkFlit h _ _ => streamless h 9
  | .nego h _ _ _ _ _ _ _ => streamless h 72
  | .announce h _ _ => streamless h 34
  | .sched h _ _ _ _ => streamless h 64
  | .schedAck h _ _ _ => streamless h 9 && apart h (payloadBits 16 26)
  | .arrive h _ _ => streamless h 8 && apart h (payloadBits 16 26)
  | .sysRelease h _ => streamless h 24
  | .detach h _ _ _ => streamless h 35
  | .restripe h _ => streamless h 10
  | .echo h _ _ => streamless h 9 && apart h (payloadBits 16 32)
  | .lockedWindow _ _ | .lockedReceiveRelease _ | .creditTimer _ | .ackTimer _ _ | .nakRepeat _ _ | .resendTimeout _ _ | .detachTimeout _
  | .linkReset _ _ | .announceTimer | .tkKnownTimeout | .tkSend | .detachClear | .porstRise _ | .porstFall | .refclkPresent | .flashTimeout
  | .reboot _ | .flashRead | .flashProgram | .flashErase | .flashCommandDone | .ownerProgram _ | .ownerProgramDone | .unitScrubRead _
  | .regionScrubRead _ | .scrubNowRegion _ | .fencedWrite _ _ | .avsReading _ _ | .avsStepSettled _ => true
  | .temperatureConversion temps => decide (temps.length = 64)
  | .secondConversion _ _ | .tripStop | .brownout | .vinRise | .railsGood | .powerAverage _ _ _ | .ov | .oc | .regFault _ | .refclkLoss
  | .smbusReadIdentity | .smbusReadStatus | .smbusReadVin | .smbusReadCurrent | .smbusReadPower | .smbusReadPeak | .smbusReadTemperature
  | .smbusReadBootStatus | .smbusAlertMask _ | .alertResponse | .extest _ _ | .samplePreload _ _ | .idcode | .frsAddr _ | .frsData
  | .bypass _ | .trst | .frsArm | .frsRelease | .frostCapture => true
  | .laneSignalPresent l => laneOk l
  | .lockRecovered l => laneOk l
  | .gpioLevelChange _ _ | .xspiOtherCommand _ _ | .vinBelow10V => true

end Sys2Proof
end

