-- ==== Sys2Proof/Tests/Slice0.lean ====
section
/-!
SUPPORT. Tests/Slice0.lean: WellFormed's checks, the spec's worked examples, and for every statement with hypotheses a state and operands
that meet them.
-/
namespace Sys2Proof.Tests
open Sys2Proof Sys2Proof.Machine

set_option Elab.async false

/-- Fields set, one after the other. -/
def F (s : State) (l : List (Fld × Nat)) : State := l.foldl (fun t e => t.setFld e.1 e.2) s
/-- A beat with this exponent and these row flags. -/
def bt (e : Nat) (first last : Bool) : Beat := ⟨0x003002001, BitVec.ofNat 6 e, 3, false, false, first, last⟩
/-- A small locked image, and a staged one. -/
def imL : Image :=
  { locked := true, cap := 0, n := 30, k := 4, l := 3, w := 10, f := 2, d := 1, e := 0, regions := 1, channels := 1, menus := 0x000F
    placements := [⟨[0], false, false⟩], lanes := [⟨50, 0, 2⟩], layers := [], steps := [], descInit := [], calendars := [], contexts := []
    digest := [] }
def imS : Image := { imL with locked := false, steps := [⟨0, false, false, false, true, 0⟩] }
/-- LOCKED, in crossing 5 of turns of 100, at the model's crossing 20. -/
def lk : State := { F {} [(fState, 7), (fTurnLen, 100), (fCurrent, 5), (fTurn, 9)] with clock := { now := 605, xseq := 20, xstart := 600, everLocked := true } }
/-- The same with a locked image, and with a run of it since crossing 18. -/
def lkIm : State := { lk with image := some imL }
def inL : State := { F lkIm [(fArmed, 1), (fRunning (.dot 0), 1)] with run := { started := true, start := 18, anchor0 := 18, count := 2 } }
/-- A staged run. -/
def inS : State := { F { lk with image := some imS } [(fArmed, 1)] with run := { started := true, start := 18, anchor0 := 18, count := 2 }, stage := { running := true } }
/-- The package after boot. -/
def on : State := F {} [(fBootState, 5), (fRailsGood, 1)]
def wyF (n : Nat) (w : WayLane) (s : State) : State := s.setWay n w
def lane50 : State := F inL [(fLaneState 1 2 false, 2)]
def vd : Verdict := ⟨17, 2, 9, 0xF, 1, 2, 3, []⟩
def vpol : State := F inL [(fVaPolicyLo 2, 6), (fVaAccept 2, 1), (fState, 8)]
def W (l : List (Nat × Nat)) : Word64 := BitVec.ofNat 64 (l.foldl (fun n e => n + e.2 * 2 ^ e.1) 0)
def dot0 (w : Word64) : State := { F inL [(fPeriod (.dot 0), 8)] with units := [(0, { play := { pc := 1, at_ := 600 }, tt := { words := [(1, w)] }, weight := { words := [(160, 0x1234)] }, mb := List.replicate 16 { exp := some 3 } })], portQ := [(1, { beats := [bt 4 true false, bt 4 false true] })] }
def fn0 (w : Word64) : State := { F inL [(fPeriod (.fn 0), 8), (fRunning (.fn 0), 1)] with funs := [(0, { play := { pc := 1, at_ := 600 }, tt := { words := [(1, w)] } })] }
def asS (s : State) : State := { s with image := some imS, stage := { running := true } }
def mac0 : Word64 := W [(58, 1), (56, 1), (55, 1), (52, 3), (46, 63), (37, 5), (36, 1), (34, 2)]
def grp0 : Word64 := W [(58, 3), (56, 1), (52, 15), (45, 127)]
def clr0 : Word64 := W [(58, 4), (42, 0x8001)]
def emit0 (d : Nat) : Word64 := W [(58, 5), (52, 2), (48, d)]
def add0 : Word64 := W [(58, 6), (52, 2)]
def busRow (due : Nat) : BusRow := { vals := List.replicate 32 5, exp := 3, expValid := true, sender := 1, due := due }
def dup0 : Word64 := W [(58, 8), (56, 1), (52, 0x6)]
def pass0 : Word64 := W [(58, 7), (56, 1), (54, 2)]
def hold0 : Word64 := W [(58, 9), (42, 0)]
def menu0 : Word64 := W [(58, 12), (57, 1), (53, 15)]
def drop0 : Word64 := W [(58, 11), (53, 2)]
def dropS (p : Bool) (l : List Beat) : State := { fn0 drop0 with bankQ := [(2, { beats := l, pkt := p })] }
def fq (w : Word64) (l : List (Nat × Queue)) : State := { fn0 w with bankQ := l }
def two : Queue := { beats := [bt 4 true false, bt 4 false true] }
def sort0 : Word64 := W [(58, 0x18), (53, 2), (48, 3), (27, 11), (0, 1)]
def scat0 : Word64 := W [(58, 0x1B), (53, 2), (48, 3), (27, 15), (5, 15), (0, 7)]
def thr0 : Word64 := W [(58, 0x1C), (53, 2), (44, 1), (37, 5), (27, 0)]
def red0 : Word64 := W [(58, 0x16), (53, 2), (48, 16), (44, 3), (37, 5), (27, 15), (0, 31)]
def sIn (asc : Nat) : FIn := ⟨W [(58, 0x18), (27, 4), (0, asc)], {}, 0, [.beat ⟨0x800FFF004003002001, 9, 3, true, true, true, true⟩], [], 0⟩
def sB : Beat := ⟨0x800FFF004003002001, 9, 3, true, true, true, true⟩
def sOut (asc : Nat) : Beat := (operate (sIn asc)).beats.headD zeroBeat
def fop : FunOp := ⟨sort0, 600, 0, 0, 0, [], [], 0⟩
def ste (op : Nat) (l : List (Fld × Nat)) (v : Steer) : State := { F inL ([(fSteEnable 0, 1), (fSteOp 0, op), (fSteTokq 0, 5), (fSteCntq 0, 6), (fSteOut 0 0, 15), (fSteOut 0 1, 9), (fQMode (.bank 0 15), 1), (fQDepth (.bank 0 15), 8)] ++ l) with steerQ := [(0, two)], clusters := [(0, { steer := v })] }
def tk (m : Nat) : Beat := ⟨BitVec.ofNat 192 m, 0, 3, false, true, true, true⟩
def opW (op dst : Nat) (l : List (Nat × Nat)) : Word64 := W ([(58, op), (53, 3), (48, dst), (27, 4)] ++ l)
def sI (op dst : Nat) (l : List (Nat × Nat)) : FIn := ⟨opW op dst l, {}, 0, [.beat sB], [], 0⟩
def sX (n : Nat) : Int := mantissa (([sB] : List Beat).getD (n / 16) zeroBeat) (n % 16)
def ixB : Beat := ⟨0xFFF007002000, 32, 3, false, false, true, true⟩
def ixN (n : Nat) : Int := mantissa (([ixB] : List Beat).getD (n / 16) zeroBeat) (n % 16)
def lb (e : Bool) : LinkBeat := ⟨0, 1, 606, bt 4 true false, e, false⟩
def full8 : Queue := { beats := List.replicate 8 (bt 4 false false) }
def thr : List Beat := [bt 1 false false, bt 2 false true, bt 3 true true]
def fh (len kind : Nat) : Word64 := W [(0, 1), (8, kind), (40, len)]
def fw (l : List Word64) (v : Logic) (st : Nat) : State := { F lk [(fLogState 0, st)] with clusters := [(0, { logic := { v with words := l } })] }
def lastW (l : List Word64) : Word32 := crc32 (l.flatMap (fun w => leBytes 8 w.toNat))
def ports (lo hi : Nat) : State := F lk [(fLogState 0, 2), (logPortsLo 0, lo), (logPortsHi 0, hi)]
def arb0 : State := { lk with memArb := [(0, { parked := [(.desc 63 63, 4), (.host, 5)] })] }
def up (s : State) : State := { F s [(fBootState, 5), (fRailsGood, 1)] with pins := { porst := true, vin := true, refclk := true } }
def ds (op : Nat) (l : List (Nat × Nat)) : List Byte := leBytes 64 (op + l.foldl (fun n e => n + e.2 * 2 ^ (8 * e.1)) 0)
def pair (b : List Byte) (s : State) : State := { F (up s) [(fHrgEnable 0, 1), (fSizeLog 0, 4), (fTail 0, 3)] with rings := [(0, { ahead := [(2, b)] })] }
def cmdAt (b : List Byte) (p : CmdPhase) (s : State) : State := { F (up s) [(fHrgEnable 0, 1), (fSizeLog 0, 4), (fRingActive 0, 1), (fPhase 0, 1)] with rings := [(0, { cur := some ⟨15, b, p⟩ })] }
def grpUp (s : State) : State := F s [(fTxFunc 4 0, 3), (fGrpUp 4 0, 1), (fLaneState 4 0 false, 2), (fLaneState 4 0 true, 2), (fBondWidth 4 0, 0), (fGrpWidth 4 0, 0)]
def img0 : List Byte := leBytes 64 (0x4D495754 + 2 ^ 32 * 1 + 2 ^ 40 * 1 + 2 ^ 48 * 0x40 + 2 ^ 96 * 30 + 2 ^ 104 * 1 + 2 ^ 112 * 2 + 2 ^ 128 * 16 + 2 ^ 144 * 1 + 2 ^ 152 * 1 + 2 ^ 160 * 8 + 2 ^ 176 * 1 + 2 ^ 192 * 1 + 2 ^ 200 * 1 + 2 ^ 224 * 1 + 2 ^ 352 * 64 + 2 ^ 384 * 64)
def ldB : List Byte := ds 1 [(0x18, 64)]
def pathed (s : State) : State := F (grpUp s) [(fHrgPath 0, 1), (fCtxKind 1, 4), (fCtxTarget 1, 4)]
def vfB : List Byte := ds 2 [(0x18, 64), (0x20, 0x1000)]
def quB : List Byte := ds 3 [(0x18, 32), (0x1C, 0)]
def lay0 : Layer := ⟨1, 32, 1, 32, [⟨0, 0, 0, 0, 0, 0, 32, 0, 0, 0⟩], [], true⟩
def imQ : Image := { imL with layers := [lay0] }
def wrB : List Byte := ds 0x10 [(0x10, 0x10000000008), (0x20, 8)]
def rdB : List Byte := ds 0x11 [(0x10, 0x5000), (0x18, 0x10000000008), (0x20, 8)]
def cpB : List Byte := ds 0x12 [(0x10, 0x10000000000), (0x18, 0x10000000008), (0x20, 8)]
def memP (s : State) : State := { s with memTiles := [(0, { words := [(1, 77)], ecc := [(1, some .uncorrectable)] })] }
def arB : List Byte := ds 0x20 []
def diB : List Byte := ds 0x21 []
def smB (ref a3 : Nat) : List Byte := ds 0x22 [(8, ref), (11, a3)]
def frB : List Byte := ds 0x31 [(0x10, 0x5000), (0x18, 0x41FFFF8), (0x20, 8)]
def spB : List Byte := ds 0x32 [(0x10, 0x5000), (0x18, 15), (0x1C, 2)]
def atB : List Byte := ds 0x40 [(0x10, 99), (0x30, 0x5000)]
def scB : List Byte := ds 0x41 [(0x10, 255), (0x11, 1)]
def ltB : List Byte := ds 0x50 [(0x10, 4), (0x11, 1), (0x18, 0xFFFFFFFFFFFFFFFF)]
def biB : List Byte := ds 0x51 [(0x10, 1)]
def baB : List Byte := ds 0x52 [(0x10, 0xFFFF)]
def frC : List Byte := ds 0x31 [(0x10, 0x5000), (0x18, 0x41FFFF8), (0x20, 16)]
def rd3 : List Byte := ds 0x11 [(0x10, 0x5000), (0x18, 0x100000000), (0x20, 24)]
def vfS : List Byte := ds 2 [(0x10, 0x100000008), (0x16, 1), (0x18, 20), (0x20, 0x7000)]
def qx : List Byte := (List.range 32).flatMap (fun i => [BitVec.ofNat 8 (i * 37), BitVec.ofNat 8 (0x3C + i % 4 + 128 * (i % 2))])
def wsA : List Int := [5, 2 ^ 150 + 12345678901234567890123, -(2 ^ 151) - 99]
def sc3 (ty : Nat) : Sect := ⟨0, ty, 0, 1, 2, 0, 0, 0, 24, leBytes 8 9 ++ leBytes 8 0x123456789 ++ leBytes 8 0⟩
def hd0 : Hdr := headerOf img0
def plM : Placement := ⟨[3], true, false⟩
def mem0 (l : List (Nat × Option Ecc)) : State := { lk with memTiles := [(0, { words := [(55, 77)], ecc := l })] }
def a40 : BitVec 48 := 0x10000000108
def lnw (pins : Nat) : CacheLine := ⟨0x100000001, 0, List.replicate 32 9, [], [], pins, 3, false⟩
def sn (src dst bytes ctrl : Nat) : List Word32 := [BitVec.ofNat 32 src, 0, BitVec.ofNat 32 dst, 0, BitVec.ofNat 32 bytes, 0, 0, 0, 0, 0, 0, BitVec.ofNat 32 ctrl]
def dsc (d : Desc) (s : State) : State := { s with regions := [(0, { descs := [(3, d)] })] }
def allArr (s : State) : State := { s with image := some { imS with placements := [⟨[0], false, false⟩] }, regions := [(0, { arrived := true })] }
def hostAt (m : Nat) (s : State) : State := { s with memArb := [(m, { busy := true, owner := some .host })] }
def rd2 : List Word32 := sn 0x10000000000 0 16 384
def cacheAt (d : Desc) (l : List CacheLine) (f : List CacheFillReq) (v : State) : State := { v with regions := [(0, { arb := { busy := true, owner := some .engine }, lines := l, fills := f, descs := [(3, d)] })] }
def dRead (st : ReqStatus) : Desc := { running := some rd2, requested := 16, reqs := [⟨0x100000000, 31, 0, 8, .waitFill⟩, ⟨0x100000001, 0, 8, 16, st⟩] }
def wr1 : List Word32 := [0, 0, 0x108, 0x100, 8, 0, 0, 0, 0, 0, 0, 48]
def dWrite : Desc := { running := some wr1, requested := 8 }
def wrS (q : List (Nat × Arbiter)) : State := { F (cacheAt dWrite [⟨0x100000001, 0, List.replicate 32 9, [], [], 1, 3, false⟩] [] inS) [(fBufKib 0 0, 1), (fBufBase 0 0, 16)] with clusters := [(0, { store := { words := [(16, 99)] } })], memArb := q }
def ctxAt (m : Nat) (f : FlitBody) (s : State) : State := { F (hostAt m s) [(fCtxKind 1, 4)] with ctxs := [(1, { buf := [⟨false, 1, true, true, false, f⟩] })] }
def moveAt (b : List Byte) (moved : Nat) (held : List (Word64 × Bool)) (s : State) : State := { F (hostAt 0 s) [(fEngineBusy, 1)] with rings := [(0, { cur := some ⟨2, b, .moving moved [] held none⟩ })] }
def moveW : List Byte := ds 0x10 [(0x10, 0x10000000008), (0x20, 64)]
def moveR : List Byte := ds 0x11 [(0x18, 0x10000000008), (0x20, 64)]
def cpC : List Byte := ds 0x12 [(0x10, 0x11000000000), (0x18, 0x10000000008), (0x20, 8)]
def fh0 : FlitHdr := ⟨4, 0, false, 1, 0, true, true, false, 0, 0, 0⟩
def sound (h : FlitHdr) (b : FlitBody) : FlitHdr := { h with check := flitCheck (headerOfFlit (typeOf b) h.locked h.stream h.seq h.first h.last h.epoch h.spare) (payloadCame h b) }
def fl (l : List (Fld × Nat)) : State := F (grpUp inL) l
def opn1 (kind : Nat) : State := fl [(fCtxKind 1, kind), (fCtxCredits 1, 127), (fCtxTarget 1, 0x1E00)]
def rets (r : Retry) (s : State) : State := { s with retries := [(128, r)] }
def cal0 : Calendar := ⟨4, 0, 5, 1, [⟨0, 3, 0, 9⟩]⟩
def calS (l : List Beat) : State := { fl [] with image := some { imL with calendars := [cal0] }, txLinks := [(16 * 4 + 3, { buffer := l })] }
def lrx (l : List HeldFrame) : State := { F (opn1 1) [(fCtxLocked 1, 1), (fCtxBeats 1, 0), (fRxW 1, 12)] with ctxs := [(1, { via := some (4, 0), next := 20, held := l })] }
def nulF : Flit := ⟨false, 3, true, true, false, .null⟩
def flashAt (b n v : Nat) : SMap Byte := (List.range n).map (fun i => (b + i, BitVec.ofNat 8 (v / 2 ^ (8 * i))))
def manifest0 : Nat := 0xa1ce0c7505f14d5588d3ebb3fc151f77b3a7d317a56ee2dc1b58cca2c3c2002478996647fc480ba6351bf277e26989c0c31ab5040338528a7e4f038d187bf27ca524c4b3fc2d1bf91d4140403f402d8dcaf271de25efec8f2b23862cd0a1f6fa00000000000000400000020000000002a524c4b3fc2d1bf91d4140403f402d8dcaf271de25efec8f2b23862cd0a1f6fa0000000000000040000002000000000100000000000000000000000000000000000000000000000000000000000000000000000000000000000000000000000000000000000000000000000000000000f551bf376840b6cbce5e316b5733ce2b169e0f7c4aebe78e9b7f1afee242e34f96c298d84539a1f4a033eb2d817d0377f240a463e5e6bcf847422ce1f2d1176b000000000000000201300001464e4d54
def item0 : Nat := 0x3e16ab61aa8b73abfe07bb9a8c58a815f46912cf6516a712c9b5ff12ae9f513078996647fc480ba6351bf277e26989c0c31ab5040338528a7e4f038d187bf27c
def wait0 : State := { F {} [(fRailsGood, 1)] with pins := { porst := true, vin := true }, flash := flashAt 0 304 manifest0 ++ flashAt 0x200 64 item0, fuses := { vendorHash := sha256 ({} : Fuses).idKey } }
def cellPos : Nat := 1052675
def onD0 (s : State) : State := { s with links := [⟨0, 1, 606, bt 4 true false, false, false⟩], memTiles := [(0, {})] }
def tmps (i : Nat) (v : Int) : List Int := (List.replicate 64 300).set i v
def unitE (u : Nat) (d : DotUnit) (s : State) : State := { F s [(fScrubEn (u / 64), 1)] with units := [(u, d)] }
def pfr (e : PendCmd) (s : State) : State := { s with pendTable := [e] }
def wrAsk : List Byte := ds 0x10 [(0x10, 0x10000000000), (0x18, 0x5000), (0x20, 64)]
def asked (s : State) : State := { F s [(fHrgPath 0, 1)] with rings := [(0, { cur := some ⟨2, wrAsk, .moving 8 [7] [(5, false)] none⟩ })], ctxs := [(1, { reads := [⟨9, 0, some 2, false, 16, 48, 1, true⟩] })] }
def hdr9 : FlitHdr := ⟨0, 0, false, 1, 0, true, true, false, 0, 0, 0⟩
def fword (op x : Nat) : Word64 := W [(58, op), (53, 2), (48, 3), (37, 9), (27, 11), (0, x)]

/-- No request of the region waits for an unpinned way, by evaluation. -/
theorem noPinWaits_of (s : State) (r : Nat)
    (h : (s.region r).descs.all (fun e => e.2.reqs.all (fun p => match p.status with | .waitPin _ => false | _ => true)) = true) :
    noPinWaits s r := by
  intro e he p hp c hc
  have := List.all_eq_true.mp (List.all_eq_true.mp h e he) p hp
  simp [hc] at this

/-- The items are the beats of a row. -/
theorem readsRow_of {w : Word64} {l : List TakenItem} {x : Nat → Int} {u : Int} (bs : List Beat) (h : l = bs.map .beat)
    (h' : bs.length = beatsFor (wLen w) ∧ u = ((bs.headD zeroBeat).exp.toNat : Int) - 32 ∧
      ∀ n : Nat, n < wLen w → x n = mantissa (bs.getD (n / 16) zeroBeat) (n % 16)) : readsRow w l x u := Or.inl ⟨bs, h, h'⟩

theorem beatRow_of {l : List TakenItem} {n : Nat} {x : Nat → Int} {e : BitVec 6} (bs : List Beat) (h : l = bs.map .beat)
    (h' : bs.length = beatsFor n ∧ (bs.headD zeroBeat).exp = e ∧
      ∀ j : Nat, j < n → x j = mantissa (bs.getD (j / 16) zeroBeat) (j % 16)) : beatRow l n x e := ⟨bs, h, h'⟩

/-! ### WellFormed refuses what cannot be sent -/

theorem test_illFormed :
    [Instr.turnStartSeen 0, .intakeFrameStart 0 idleBlock [] (List.replicate 5 idleBlock), .intakeFrameStart 0 idleBlock (List.replicate 5 idleBlock) [],
      .intakeFrameArrival 0 (List.replicate 261 idleBlock) [] idleBlock 0, .arbiterDecision (.cache 0) [.engine, .engine], .descriptorFetch 0 [1],
      .readRegisters 0 0, .memoryRead 0 0 0 ⟨0, []⟩, .memoryWrite 0 0 [] ⟨0, []⟩, .memoryRead 0 0 1 ⟨2, []⟩,
      .memoryRead 0 0 1 ⟨0, [(1, false)]⟩, .cacheFill 0 ⟨0, 0, [(3, true), (3, false)]⟩, .laneUp ⟨0, 32, true⟩, .nullFlit fh0 3,
      .beatFlit { fh0 with extra := 1 } (bt 0 true true), .writeFlit fh0 0 [], .dataFlit fh0 0 0 false (List.replicate 25 0),
      .linkFlit fh0 0 false, .linkFlit { fh0 with stream := 0, extra := 1 } 0 false, .temperatureConversion [0]].all
      (fun c => !wellFormed c) = true := by decide +kernel

theorem test_wellFormed :
    [Instr.turnStartSeen 1, .intakeFrameStart 0 (frameStart 1 2 3) [] [], .intakeFrameArrival 0 (List.replicate 256 idleBlock) (List.replicate 4 idleBlock) idleBlock 0,
      .arbiterDecision (.cache 0) [.engine, .unit 1], .memoryRead 0 0 2 ⟨1, [(1, false)]⟩, .laneUp ⟨0, 47, false⟩, .nullFlit fh0 7,
      .beatFlit { fh0 with extra := 2 ^ 208 } (bt 0 true true), .linkFlit { fh0 with stream := 0 } 0 false,
      .writeFlit fh0 0 (List.replicate 24 0)].all wellFormed = true := by decide +kernel

/-! ### Published values: CRC-32, SHA-256 (FIPS 180-4), ECDSA P-256 (RFC 6979, A.2.5) -/

theorem test_crc : crc32 [0x31, 0x32, 0x33, 0x34, 0x35, 0x36, 0x37, 0x38, 0x39] = 0xCBF43926 := by decide +kernel

theorem test_sha :
    beNat (sha256 [0x61, 0x62, 0x63]) = 0xba7816bf8f01cfea414140de5dae2223b00361a396177a9cb410ff61f20015ad := by decide +kernel

theorem test_sign :
    rfcSignature 0xC9AFA9D845BA75166B5C215767B1D6934E50C3DB36E89B127B8A622B120F6721 (sha256 [0x73, 0x61, 0x6d, 0x70, 0x6c, 0x65]) 1 =
      some (0xEFD48B2AACB6A8FD1140DD9CD45E81D69D2C877B56AAF991C34D0EA84EAF3716,
        0xF7CB1C942D657C41D436C7A1B6E29F65F3E900DBB9AFF4064DC4AB2F843ACDA8) := by decide +kernel

theorem test_verify :
    ecdsaVerify
      (beBytes 64 0x60FED4BA255A9D31C961EB74C6356D68C049B8923B61FA6CE669622E60F29FB67903FE1008B8BC99A41AE9E95628BC64F2F1B20C2D7E9F5177A3C294D4462299)
      (sha256 [0x73, 0x61, 0x6d, 0x70, 0x6c, 0x65])
      (beBytes 64 0xEFD48B2AACB6A8FD1140DD9CD45E81D69D2C877B56AAF991C34D0EA84EAF3716F7CB1C942D657C41D436C7A1B6E29F65F3E900DBB9AFF4064DC4AB2F843ACDA8) =
      true := by decide +kernel

/-! ### The spec's worked examples -/

/-- 03, "converting a W4B group": the scale word, and the seven codes. Weights are in units of 2^-149. -/
theorem test_quantiseScale :
    chooseScale ((floatUnits 0x3F000000).toList ++ (floatUnits 0xBEC00000).toList) 127 127 = (130, 16) := by decide +kernel

theorem test_quantiseCodes :
    [0x3F000000, 0xBEC00000, 0x3D7BE000, 0xBCB2C000, 0x3DCCCCCD, 0, 0xBE4CCCCD].map
      (fun v => codeFor defaultLevels (130, 16) 0 ((floatUnits v).getD 0)) = [15, 1, 8, 6, 9, 7, 3] := by decide +kernel

/-- 04, the MAC example: seven operands with the mantissas given add -41,801, whose residue is 3. -/
theorem test_macSum :
    let w : Store := { words := [(0, 0x379681F), (1, 0)] }
    let b : Beat := { bt 5 true true with mant := packMant [100, -3, 50, 7, -200, 5, 1000, 0, 0, 0, 0, 0, 0, 0, 0, 0] }
    (macSums w {} 0 defaultLevels 0 0 0 b).headD 0 = -41801 ∧ mod7 (-41801) = 3 := by decide +kernel

/-- 03, "group close and saturation": the three rows. -/
theorem test_groupClose :
    let g : Bank 28 := { rows := [1000032, 1000032, 1000032], res := [1, 1, 1], exp := some 27 }
    let m : Bank 48 := { rows := [0, BitVec.ofInt 48 (-3000000), 140737487355000], res := [0, 0, 0], exp := some 27 }
    ((addGroup m g [(130, 16), (130, 16), (130, 16)] false 8).1.rows.take 3).map (·.toNat) = [0xF7F6A, 0xFFFFFFE1B8AA, 0x7FFFFFFFFFFF] ∧
      (addGroup m g [(130, 16), (130, 16), (130, 16)] false 8).2 = 1 ∧
      (addGroup {} g [(130, 16)] false 8).1.exp = some 27 := by decide +kernel

/-- 03, "measured against pinned emission". -/
theorem test_emission :
    measuredExp [1015658, -1984342, 384, 640] (-13) = 29 ∧
      [1015658, -1984342, 384, 640].map (fun x => emitMant x (-13) 29) = [992, -1938, 0, 1] ∧
      [1015658, -1984342].map (fun x => emitMant x (-13) 27) = [2047, -2047] := by decide +kernel

/-- 05, "gathering three partial banks": row 0 of unit 0's bank. -/
theorem test_gather :
    let row (v : Int) (e : BitVec 6) (valid late : Bool) : BusRow := { vals := [BitVec.ofInt 48 v], exp := e, expValid := valid, late := late }
    let m0 : Bank 48 := { rows := [1015658], exp := some 27 }
    let m1 := (addBusRow m0 (row (-3) 29 true false)).1
    let m2 := (addBusRow m1 (row 1000006 25 true true)).1
    let m3 := (addBusRow m2 (row 0 0 false false)).1
    m1.rows.headD 0 = 1015646 ∧ m2.rows.headD 0 = 1265648 ∧ m2.late = true ∧ m3.rows.headD 0 = 1265648 ∧ m3.exp = some 27 := by decide +kernel

/-- 06, "ACT on a sum-bus row": the first output beat. -/
theorem test_act :
    let row : BusRow := { vals := [1265648, BitVec.ofInt 48 (-40000)], exp := 27, expValid := true }
    let st : Store := { words := [(0x800, 0x1E21), (0x800 + 63, 0x0001FFFD00000000), (0x800 + 103, 0x0008026800000000), (0x800 + 129, 0xFFFD0064)] }
    let y := (opAct ⟨0x420303A0F9004100, st, 0, [.row row], [], 0⟩).beats.headD zeroBeat
    y.mant.toNat % 2 ^ 24 = 0xFFB4DA ∧ y.exp = 29 := by decide +kernel

/-- 15, "squall, then trip": the verdict that leaves in the fallback turn. -/
theorem test_fallbackVerdict :
    let s : State := { F lk [(fVaPolicyLo 0, 0xAAA90000), (fVaAccept 0, 0x105), (fThermState, 2)] with thermal := { fallback := true } }
    formVerdict s 0 ⟨0, 0x2A5, 0, 0x20005, 0, 0, 1, []⟩ = 0x000392A500020105 := by decide +kernel

/-- 06, the example of R160 and R161: marked bits 8 to 15 take their policy. -/
theorem test_verdictWord :
    let s : State := F lk [(fVaPolicyLo 0, 0xAAA90000), (fVaAccept 0, 0x105)]
    formVerdict s 0 ⟨0, 0x2A5, 0, 0x20005, 0, 0xFF00, 1, []⟩ = 0x000352A500020105 := by decide +kernel

/-- 16, "a bank after a gather": row 0 and the state of main bank 0 of unit 1,432. -/
theorem test_frostWords :
    let b : Bank 48 := { rows := [1265648], res := [6], late := true, tag := 37, exp := some 27 }
    let s : State := { lk with units := [(1432, { mb := [b] })] }
    unitSegment s 1432 0x1000 = 0x0006000000134FF0 ∧ (unitSegment s 1432 0x210).toNat % 2 ^ 32 = 0x4B5B := by decide +kernel

/-! ### Hypotheses of the function words, each opcode -/

theorem witness_eachFunctionWord :
    ∀ p ∈ [(0x10, 0), (0x11, 0), (0x12, 0), (0x13, 0), (0x14, 0), (0x15, 0), (0x16, 31), (0x17, 0), (0x18, 1), (0x19, 3)],
      issuesNext (fq (fword p.1 p.2) [(2, two)]) (.fn 0) p.1 (fword p.1 p.2) 600 ∧ funsIdle (fq (fword p.1 p.2) [(2, two)]) 0 ∧
      takePlan (fword p.1 p.2) = [⟨0, false, .queue 2⟩] ∧
      headIs (fq (fword p.1 p.2) [(2, two)]) (.bank 0 2) (bt 4 true false) [bt 4 false true] 600 := by
  unfold issuesNext funsIdle headIs; decide +kernel

/-! ### The statements' hypotheses can be met -/


/-- The hypotheses of StepRunsFrontCommand can be met. -/
theorem witness_StepRunsFrontCommand :
    ∃ (c : Instr) (r : List Instr) (s : State), s.pending = c :: r :=
  ⟨.nop, [.crossingStart], { lk with pending := [.nop, .crossingStart] }, by decide +kernel⟩

/-- The hypotheses of StepTakesFrontKeepsFuses can be met. -/
theorem witness_StepTakesFrontKeepsFuses :
    (∃ (s : State) (t : State), step s = .next t) ∧
    (∃ (s : State) (t : State), step s = .next t) :=
  ⟨⟨{ lk with pending := [.vinRise, .nop] }, { lk with pending := [.nop], pins := { lk.pins with vin := true } }, (rfl)⟩,
    ⟨{ lk with pending := [.vinRise, .nop] }, { lk with pending := [.nop], pins := { lk.pins with vin := true } }, (rfl)⟩⟩

/-- The hypotheses of StepKeepsCanonicalForm can be met. -/
theorem witness_StepKeepsCanonicalForm :
    ∃ (s : State) (t : State), s.wf = true ∧ step s = .next t :=
  by refine ⟨{ lk with pending := [.vinRise, .nop] }, { lk with pending := [.nop], pins := { lk.pins with vin := true } }, ?_, (rfl)⟩; decide +kernel

/-- The hypotheses of CrossingStartCounts can be met. -/
theorem witness_CrossingStartCounts :
    ∃ (s : State), s.runs = true :=
  ⟨F inL [(fCurrent, 99)], by decide +kernel⟩

/-- The hypotheses of TimingSlotChecks can be met. -/
theorem witness_TimingSlotChecks :
    ∃ (s : State), s.runs = true :=
  ⟨lk, by decide +kernel⟩

/-- The hypotheses of ScheduledCommandsEnterTable can be met. -/
theorem witness_ScheduledCommandsEnterTable :
    (∃ (ref : BitVec 24) (a3 : Byte) (s : State) (c : Instr) (code : PendCode) (d : Nat), s.runs = true ∧ d = refDistance s ref ∧ (c, code) ∈ [(Instr.runStart ref a3, PendCode.runStart), (.runStop ref a3, .runStop), (.testPulse ref a3, .testPulse), (.menuSelect ref a3, .menuSelect), (.frost ref a3, .frost)] ∧ bits ref.toNat 0 12 < s.fld fTurnLen ∧ 2 ≤ d ∧ d < 2048 * s.fld fTurnLen ∧ s.pendTable.length < 16 ∧ ((code = .menuSelect → a3.toNat < 16)) ∧ ((code = .frost → a3.toNat < s.n)) ∧ ((∀ e ∈ s.pendTable, e.code = code → e.x ≠ s.clock.xseq + d))) ∧
    (∃ (ref : BitVec 24) (a3 : Byte) (s : State) (c : Instr) (code : PendCode), s.runs = true ∧ (c, code) ∈ [(Instr.runStart ref a3, PendCode.runStart), (.runStop ref a3, .runStop), (.testPulse ref a3, .testPulse), (.menuSelect ref a3, .menuSelect), (.frost ref a3, .frost)] ∧ ((refDistance s ref < 2 ∨ 2048 * s.fld fTurnLen ≤ refDistance s ref ∨ 16 ≤ s.pendTable.length ∨ (code = .frost ∧ s.n ≤ a3.toNat) ∨ (code = .menuSelect ∧ 16 ≤ a3.toNat) ∨ (∃ e ∈ s.pendTable, e.code = code ∧ e.x = s.clock.xseq + refDistance s ref)))) :=
  ⟨⟨0x009007, 29, lk, .frost 0x009007 29, .frost, 2, by decide +kernel⟩,
    ⟨0x009006, 0, lk, .runStart 0x009006 0, .runStart, by decide +kernel⟩⟩

/-- The hypotheses of ResyncLoadsTheTurn can be met. -/
theorem witness_ResyncLoadsTheTurn :
    (∃ (s : State), s.runs = true ∧ s.run.started = false) ∧
    (∃ (s : State), s.runs = true ∧ s.run.started = true) ∧
    (∃ (turn : Word32) (s : State), s.clock.resync = some turn) :=
  ⟨⟨lk, by decide +kernel⟩,
    ⟨inL, by decide +kernel⟩,
    ⟨77, { lk with clock := { lk.clock with resync := some 77 }, pendTable := [⟨.runStart, 25, 0, false, none⟩] }, by decide +kernel⟩⟩

/-- The hypotheses of RunStartsAndStops can be met. -/
theorem witness_RunStartsAndStops :
    (∃ (e : PendCmd) (s : State), dueCmd s .runStart = some e ∧ s.is fArmed = true ∧ s.run.started = false ∧ s.stagedImage = false ∧ s.run.restart = false) ∧
    (∃ (e : PendCmd) (s : State), dueCmd s .runStart = some e ∧ s.is fArmed = true ∧ s.run.started = false ∧ s.stagedImage = true ∧ s.run.restart = false) ∧
    (∃ (e : PendCmd) (s : State), dueCmd s .runStart = some e ∧ (s.is fArmed = false ∨ (s.run.started = true ∧ s.run.restart = false))) ∧
    (∃ (e : PendCmd) (s : State), dueCmd s .runStop = some e ∧ s.run.started = true ∧ s.run.stop = none ∧ ((∀ c ∈ s.pendTable, c.code = .runStart → c.x ≠ s.clock.xseq))) ∧
    (∃ (e : PendCmd) (c : PendCmd) (s : State), dueCmd s .runStop = some e ∧ s.run.started = true ∧ s.run.stop = none ∧ c ∈ s.pendTable ∧ c.code = .runStart ∧ c.x = s.clock.xseq) ∧
    (∃ (e : PendCmd) (s : State), dueCmd s .runStart = some e ∧ s.is fArmed = true ∧ s.run.restart = true) ∧
    (∃ (e : PendCmd) (s : State), dueCmd s .runStop = some e ∧ s.run.started = false) ∧
    (∃ (p : Nat) (s : State), s.run.started = true ∧ s.run.stop = some p ∧ p + latencyL s ≤ s.clock.xseq + 1 ∧ verdictsSent s p = true) :=
  ⟨⟨⟨.runStart, 20, 0, false, none⟩, { F lkIm [(fArmed, 1)] with pendTable := [⟨.runStart, 20, 0, false, none⟩] }, by decide +kernel⟩,
    ⟨⟨.runStart, 20, 0, false, none⟩, { F lk [(fArmed, 1)] with image := some imS, pendTable := [⟨.runStart, 20, 0, false, none⟩] }, by decide +kernel⟩,
    ⟨⟨.runStart, 20, 0, false, none⟩, { inL with pendTable := [⟨.runStart, 20, 0, false, none⟩] }, by decide +kernel⟩,
    ⟨⟨.runStop, 20, 0, false, none⟩, { inL with pendTable := [⟨.runStop, 20, 0, false, none⟩] }, by decide +kernel⟩,
    ⟨⟨.runStop, 20, 0, false, none⟩, ⟨.runStart, 20, 0, false, none⟩, { inL with pendTable := [⟨.runStop, 20, 0, false, none⟩, ⟨.runStart, 20, 0, false, none⟩] }, by decide +kernel⟩,
    ⟨⟨.runStart, 20, 0, false, none⟩, { inL with pendTable := [⟨.runStart, 20, 0, false, none⟩], run := { inL.run with restart := true } }, by decide +kernel⟩,
    ⟨⟨.runStop, 20, 0, false, none⟩, { lk with pendTable := [⟨.runStop, 20, 0, false, none⟩] }, by decide +kernel⟩,
    ⟨18, { inL with run := { inL.run with stop := some 18 } }, by decide +kernel⟩⟩

/-- The hypotheses of MenuSelectTakesEffect can be met. -/
theorem witness_MenuSelectTakesEffect :
    (∃ (a3 : Byte) (s : State), s.runs = true ∧ 16 ≤ a3.toNat) ∧
    (∃ (e : PendCmd) (im : Image) (s : State), dueCmd s .menuSelect = some e ∧ s.image = some im ∧ im.menus.getLsbD e.a3 = true) ∧
    (∃ (e : PendCmd) (s : State), dueCmd s .menuSelect = some e ∧ ((∀ im, s.image = some im → im.menus.getLsbD e.a3 = false))) :=
  ⟨⟨16, lk, by decide +kernel⟩,
    ⟨⟨.menuSelect, 20, 3, false, none⟩, imL, { lkIm with pendTable := [⟨.menuSelect, 20, 3, false, none⟩] }, by decide +kernel⟩,
    ⟨⟨.menuSelect, 20, 3, false, none⟩, { lk with pendTable := [⟨.menuSelect, 20, 3, false, none⟩] }, by decide +kernel⟩⟩

/-- The hypotheses of EffectsApplyInOrder can be met. -/
theorem witness_EffectsApplyInOrder :
    (∃ (e : PendCmd) (s : State), dueCmd s .testPulse = some e) ∧
    (∃ (e : PendCmd) (s : State), dueCmd s .epoch = some e ∧ s.run.started = false) ∧
    (∃ (e : PendCmd) (s : State), dueCmd s .epoch = some e ∧ s.run.started = true) ∧
    (∃ (s : State) (e : PendCmd), e ∈ s.pendTable ∧ e.x = s.clock.xseq ∧ e.code = .epoch) ∧
    (∃ (s : State) (e : PendCmd), e ∈ s.pendTable ∧ e.x = s.clock.xseq ∧ e.code = .runStop) ∧
    (∃ (s : State) (e : PendCmd), e ∈ s.pendTable ∧ e.x = s.clock.xseq ∧ e.code = .runStart) ∧
    (∃ (s : State) (e : PendCmd), e ∈ s.pendTable ∧ e.x = s.clock.xseq ∧ e.code = .menuSelect) ∧
    (∃ (s : State) (e : PendCmd), e ∈ s.pendTable ∧ e.x = s.clock.xseq ∧ e.code = .runStop) ∧
    (∃ (s : State) (e : PendCmd), e ∈ s.pendTable ∧ e.x = s.clock.xseq ∧ e.code = .runStop) :=
  ⟨⟨⟨.testPulse, 20, 255, false, none⟩, { lk with pendTable := [⟨.testPulse, 20, 255, false, none⟩] }, by decide +kernel⟩,
    ⟨⟨.epoch, 20, 0, false, none⟩, { lk with pendTable := [⟨.epoch, 20, 0, false, none⟩] }, by decide +kernel⟩,
    ⟨⟨.epoch, 20, 0, false, none⟩, { inL with pendTable := [⟨.epoch, 20, 0, false, none⟩] }, by decide +kernel⟩,
    ⟨{ inL with pendTable := [⟨.runStop, 20, 0, false, none⟩, ⟨.epoch, 20, 0, false, none⟩] }, ⟨.epoch, 20, 0, false, none⟩, by decide +kernel⟩,
    ⟨{ inL with pendTable := [⟨.runStart, 20, 0, false, none⟩, ⟨.runStop, 20, 0, false, none⟩] }, ⟨.runStop, 20, 0, false, none⟩, by decide +kernel⟩,
    ⟨{ inL with pendTable := [⟨.menuSelect, 20, 0, false, none⟩, ⟨.runStart, 20, 0, false, none⟩] }, ⟨.runStart, 20, 0, false, none⟩, by decide +kernel⟩,
    ⟨{ inL with pendTable := [⟨.testPulse, 20, 0, false, none⟩, ⟨.menuSelect, 20, 0, false, none⟩] }, ⟨.menuSelect, 20, 0, false, none⟩, by decide +kernel⟩,
    ⟨{ inL with pendTable := [⟨.menuSelect, 20, 0, false, none⟩, ⟨.runStop, 20, 0, false, none⟩] }, ⟨.runStop, 20, 0, false, none⟩, by decide +kernel⟩,
    ⟨{ inL with pendTable := [⟨.testPulse, 20, 0, false, none⟩, ⟨.runStop, 20, 0, false, none⟩] }, ⟨.runStop, 20, 0, false, none⟩, by decide +kernel⟩⟩

/-- The hypotheses of LockingFollowsItsEvents can be met. -/
theorem witness_LockingFollowsItsEvents :
    (∃ (s : State), s.fld fState = 0 ∧ s.is fEnable = true) ∧
    (∃ (s : State), s.fld fState = 1) ∧
    (∃ (s : State), s.fld fState = 2) ∧
    (∃ (hz : Word32) (s : State), s.fld fState = 3 ∧ 30000000 ≤ hz.toNat ∧ hz.toNat ≤ 45000000 ∧ s.n * hz.toNat ≤ gradeHz s) ∧
    (∃ (hz : Word32) (s : State), s.fld fState = 3 ∧ ((hz.toNat < 30000000 ∨ 45000000 < hz.toNat ∨ gradeHz s < s.n * hz.toNat))) ∧
    (∃ (s : State), s.fld fState = 4) ∧
    (∃ (s : State), s.fld fState = 5) ∧
    (∃ (s : State), s.fld fState ∈ [3, 4, 5, 6]) ∧
    (∃ (s : State), s.fld fState = 4) ∧
    (∃ (s : State), s.fld fState = 5) ∧
    (∃ (s : State), s.fld fState = 6 ∧ s.clock.firstTurnStart = false) ∧
    (∃ (gap : Nat) (s : State), s.fld fState = 6 ∧ s.clock.firstTurnStart = true ∧ 1 ≤ gap ∧ gap ≤ 4096) ∧
    (∃ (s : State), s.fld fState = 6 ∧ s.clock.firstTurnStart = true) :=
  ⟨⟨{}, by decide +kernel⟩,
    ⟨F {} [(fState, 1)], by decide +kernel⟩,
    ⟨F {} [(fState, 2)], by decide +kernel⟩,
    ⟨40000000, F {} [(fState, 3)], by decide +kernel⟩,
    ⟨45000001, F {} [(fState, 3)], by decide +kernel⟩,
    ⟨F {} [(fState, 4)], by decide +kernel⟩,
    ⟨F {} [(fState, 5)], by decide +kernel⟩,
    ⟨F {} [(fState, 6)], by decide +kernel⟩,
    ⟨F {} [(fState, 4)], by decide +kernel⟩,
    ⟨F {} [(fState, 5)], by decide +kernel⟩,
    ⟨F {} [(fState, 6)], by decide +kernel⟩,
    ⟨4096, { F {} [(fState, 6)] with clock := { firstTurnStart := true, everLocked := true } }, by decide +kernel⟩,
    ⟨{ F {} [(fState, 6)] with clock := { firstTurnStart := true } }, by decide +kernel⟩⟩

/-- The hypotheses of LossBeginsHoldover can be met. -/
theorem witness_LossBeginsHoldover :
    (∃ (s : State), s.runs = true) ∧
    (∃ (s : State), s.fld fState = 7 ∧ 3 ≤ s.clock.badCommas) :=
  ⟨⟨lk, by decide +kernel⟩,
    ⟨{ lk with clock := { lk.clock with badCommas := 3 } }, by decide +kernel⟩⟩

/-- The hypotheses of HoldoverEndsOrStops can be met. -/
theorem witness_HoldoverEndsOrStops :
    (∃ (phase : Int) (num : BitVec 12) (s : State), s.fld fState = 8 ∧ 16 ≤ s.clock.goodCommas ∧ s.run.forced = none ∧ phase.natAbs ≤ 25 ∧ num.toNat = s.fld fCurrent) ∧
    (∃ (phase : Int) (num : BitVec 12) (s : State), s.fld fState = 8 ∧ 16 ≤ s.clock.goodCommas ∧ s.run.forced = none ∧ ((25 < phase.natAbs ∨ num.toNat ≠ s.fld fCurrent)) ∧ s.run.started = true) ∧
    (∃ (s : State), s.fld fState = 8 ∧ s.clock.holdStart + 4096 ≤ s.clock.xseq ∧ s.run.forced = none ∧ s.run.started = true) ∧
    (∃ (s : State), s.fld fState = 8 ∧ s.clock.holdStart + 4096 ≤ s.clock.xseq ∧ s.run.forced = none ∧ s.run.started = false) ∧
    (∃ (s : State), s.run.forced ≠ none ∧ s.run.forcedAt < s.clock.xseq) :=
  ⟨⟨-25, 5, { F lk [(fState, 8)] with clock := { lk.clock with goodCommas := 16 } }, by decide +kernel⟩,
    ⟨26, 5, { F inL [(fState, 8)] with clock := { lk.clock with goodCommas := 16 } }, by decide +kernel⟩,
    ⟨{ F inL [(fState, 8)] with clock := { lk.clock with xseq := 4096 } }, by decide +kernel⟩,
    ⟨{ F lk [(fState, 8)] with clock := { lk.clock with xseq := 4096 } }, by decide +kernel⟩,
    ⟨{ F inL [(fState, 8)] with run := { inL.run with forced := some .holdoverExpired, forcedAt := 19 } }, by decide +kernel⟩⟩

/-- The hypotheses of TimCtrlWrites can be met. -/
theorem witness_TimCtrlWrites :
    (∃ (s : State), s.is fArmed = true) ∧
    (∃ (v : Word32) (s : State), s.is fArmed = false ∧ bits v.toNat 6 1 = 0) ∧
    (∃ (v : Word32) (s : State), s.is fArmed = false ∧ bits v.toNat 6 1 = 1 ∧ ((s.fld fState < 4 ∨ s.image ≠ none))) ∧
    (∃ (v : Word32) (s : State), s.is fArmed = false ∧ bits v.toNat 6 1 = 1 ∧ 4 ≤ s.fld fState ∧ s.image = none ∧ 24 ≤ bits v.toNat 8 6 ∧ bits v.toNat 8 6 ≤ 40 ∧ bits v.toNat 8 6 ≠ s.fld fNDefault) :=
  ⟨⟨inL, by decide +kernel⟩,
    ⟨0x0010200A, lk, by decide +kernel⟩,
    ⟨0x0010204A, F {} [(fState, 3)], by decide +kernel⟩,
    ⟨0x0010184A, lk, by decide +kernel⟩⟩

/-- The hypotheses of IntakeFramesArrive can be met. -/
theorem witness_IntakeFramesArrive :
    (∃ (n : IntakeLane) (head : Line) (number : List Line) (rest : List Line) (num : Nat) (seq : Nat) (bytesM1 : Nat) (s : State) (site : Nat) (lane : Nat), intakeLane s n.val = some (site, lane) ∧ laneState s site lane false = 2 ∧ (s.lane site lane false).lost = false ∧ s.runs = true ∧ (s.wayLane n.val).incoming = none ∧ startFields (s.is (fRxCoding site lane)) (head :: (number ++ rest)) = some (num, seq, bytesM1)) ∧
    (∃ (n : IntakeLane) (head : Line) (number : List Line) (rest : List Line) (s : State) (site : Nat) (lane : Nat), intakeLane s n.val = some (site, lane) ∧ (s.runs = false ∨ (s.wayLane n.val).incoming = none ∧ startFields (s.is (fRxCoding site lane)) (head :: (number ++ rest)) = none ∧ beginsFrame head = false)) ∧
    (∃ (n : IntakeLane) (head : Line) (number : List Line) (rest : List Line) (s : State) (site : Nat) (lane : Nat), intakeLane s n.val = some (site, lane) ∧ s.runs = true ∧ laneState s site lane false = 2 ∧ (s.lane site lane false).lost = false ∧ (s.wayLane n.val).incoming = none ∧ startFields (s.is (fRxCoding site lane)) (head :: (number ++ rest)) = none ∧ beginsFrame head = true) ∧
    (∃ (n : IntakeLane) (data : List Line) (sum : List Line) (close : Line) (payload : List Byte) (crc : Word32) (s : State) (site : Nat) (lane : Nat) (i : Incoming) (x : Nat), intakeLane s n.val = some (site, lane) ∧ (s.wayLane n.val).incoming = some i ∧ laneState s site lane false = 2 ∧ (s.lane site lane false).lost = false ∧ s.runs = true ∧ i.cls = .accept x ∧ frameOf (s.is (fRxCoding site lane)) i.bytesM1 (data ++ (sum ++ [close])) = some (payload, crc) ∧ ((frameBeatsF s = 0 ∨ payload.length ≤ 24 * frameBeatsF s)) ∧ crc32 payload = crc) ∧
    (∃ (n : IntakeLane) (data : List Line) (sum : List Line) (close : Line) (payload : List Byte) (crc : Word32) (s : State) (site : Nat) (lane : Nat) (i : Incoming), intakeLane s n.val = some (site, lane) ∧ (s.wayLane n.val).incoming = some i ∧ laneState s site lane false = 2 ∧ (s.lane site lane false).lost = false ∧ s.runs = true ∧ frameOf (s.is (fRxCoding site lane)) i.bytesM1 (data ++ (sum ++ [close])) = some (payload, crc) ∧ ((frameBeatsF s = 0 ∨ payload.length ≤ 24 * frameBeatsF s)) ∧ crc32 payload ≠ crc) ∧
    (∃ (n : IntakeLane) (data : List Line) (sum : List Line) (close : Line) (payload : List Byte) (crc : Word32) (s : State) (site : Nat) (lane : Nat) (i : Incoming), intakeLane s n.val = some (site, lane) ∧ (s.wayLane n.val).incoming = some i ∧ laneState s site lane false = 2 ∧ (s.lane site lane false).lost = false ∧ s.runs = true ∧ ((frameOf (s.is (fRxCoding site lane)) i.bytesM1 (data ++ (sum ++ [close])) = none ∨ (frameOf (s.is (fRxCoding site lane)) i.bytesM1 (data ++ (sum ++ [close])) = some (payload, crc) ∧ 0 < frameBeatsF s ∧ 24 * frameBeatsF s < payload.length)))) ∧
    (∃ (payload : List Byte), 1 ≤ payload.length ∧ payload.length ≤ 192) ∧
    (∃ (num : Nat) (seq : Nat) (bytesM1 : Nat), num < 4096 ∧ seq < 256 ∧ bytesM1 < 256) :=
  ⟨⟨50, frameStart 3 1 47, [], [], 3, 1, 47, F lane50 [(fRxCoding 1 2, 1)], 1, 2, by decide +kernel⟩,
    ⟨50, frameStart 3 1 47, [], [frameStart 3 1 47], { F lane50 [(fRxCoding 1 2, 1)] with clock := { lane50.clock with stopped := true } }, 1, 2, by decide +kernel⟩,
    ⟨50, .char true 0xFB, [], [], lane50, 1, 2, by decide +kernel⟩,
    ⟨50, dataBlocks 6 (List.replicate 48 7), [], terminate 0 0 (crc32 (List.replicate 48 7)), List.replicate 48 7, crc32 (List.replicate 48 7), wyF 50 { next := 20, incoming := some ⟨5, 1, 47, .accept 20⟩ } (F lane50 [(fRxCoding 1 2, 1)]), 1, 2, ⟨5, 1, 47, .accept 20⟩, 20, by decide +kernel⟩,
    ⟨50, [.char false 1], [.char false 0, .char false 0, .char false 0, .char false 0], .char true 0xFD, [1], 0, wyF 50 { next := 20, incoming := some ⟨5, 1, 0, .accept 20⟩ } (F lane50 [(fRxCoding 1 2, 0)]), 1, 2, ⟨5, 1, 0, .accept 20⟩, by decide +kernel⟩,
    ⟨50, [.char false 1], [.violation, .char false 0, .char false 0, .char false 0], .char true 0xFD, [1, 2], 0, wyF 50 { next := 20, incoming := some ⟨5, 1, 0, .late⟩ } (F lane50 [(fRxCoding 1 2, 0)]), 1, 2, ⟨5, 1, 0, .late⟩, by decide +kernel⟩,
    ⟨List.replicate 191 0xA5, by decide +kernel⟩,
    ⟨4095, 255, 255, by decide +kernel⟩⟩

/-- The hypotheses of WaystationReleasesAndMeasures can be met. -/
theorem witness_WaystationReleasesAndMeasures :
    (∃ (s : State), s.runs = true ∧ s.lockedImage = true ∧ s.inRun (wayNext s) = true ∧ wayNext s ≤ s.clock.xseq) ∧
    (∃ (b : LaneBind) (k : ClusterIx) (q : Fin 16) (s : State), s.runs = true ∧ s.lockedImage = true ∧ s.inRun (wayNext s) = true ∧ wayNext s ≤ s.clock.xseq ∧ lanesOf s = [b] ∧ b.lane < 384 ∧ b.cluster = k.val ∧ b.queue = q.val ∧ ((∀ h ∈ (s.wayLane b.lane).held, h.xseq = wayNext s → releaseOffset s < h.arrival)) ∧ qHold s (.bank k q) = false) ∧
    (∃ (n : IntakeLane) (p : Nat × Nat) (b : LaneBind) (k : ClusterIx) (q : Fin 16) (h : HeldFrame) (s : State), intakeLane s n.val = some p ∧ bindOf s n.val = some b ∧ b.cluster = k.val ∧ b.queue = q.val ∧ (s.wayLane n.val).held.find? (fun g => decide (g.xseq = (s.wayLane n.val).next)) = some h ∧ s.runs = true ∧ s.stagedImage = true ∧ s.inRun (s.wayLane n.val).next = true ∧ qHold s (.bank k q) = false ∧ noWaiter s (.bank k q)) ∧
    (∃ (n : IntakeLane) (site : Nat) (lane : Nat) (s : State), intakeLane s n.val = some (site, lane) ∧ (s.wayLane n.val).measuring = true ∧ s.fld fState = 7 ∧ s.is fArmed = false ∧ 65000 ≤ (s.wayLane n.val).measured) ∧
    (∃ (n : IntakeLane) (site : Nat) (lane : Nat) (s : State), intakeLane s n.val = some (site, lane) ∧ (s.wayLane n.val).measuring = true ∧ s.fld fState = 7 ∧ s.is fArmed = false ∧ (s.wayLane n.val).measured < 65000) :=
  ⟨⟨wyF 50 { next := 20, held := [⟨20, 5, [bt 0 true false, bt 0 false true], 3⟩] } inL, by decide +kernel⟩,
    ⟨⟨50, 0, 2⟩, 0, 2, wyF 50 { next := 20, held := [⟨20, 5, [bt 0 true false, bt 0 false true], 11⟩] } inL, by decide +kernel⟩,
    ⟨50, (1, 2), ⟨50, 0, 2⟩, 0, 2, ⟨20, 5, [bt 0 true false, bt 0 false true], 3⟩, wyF 50 { next := 20, held := [⟨20, 5, [bt 0 true false, bt 0 false true], 3⟩] } inS, by unfold noWaiter; decide +kernel⟩,
    ⟨50, 1, 2, wyF 50 { measuring := true, measured := 65000, aMin := 2, aMax := 9 } lk, by decide +kernel⟩,
    ⟨50, 1, 2, wyF 50 { measuring := true, measured := 64999, aMin := 2, aMax := 9 } lk, by decide +kernel⟩⟩

/-- The hypotheses of RecordsGatherAndClose can be met. -/
theorem witness_RecordsGatherAndClose :
    (∃ (v : VaIx) (c : Contribution) (s : State), s.contribs.filter (fun d => decide (d.va = v.val)) = [c] ∧ s.is (fVaEnable v.val) = true) ∧
    (∃ (v : VaIx) (r : VaRecord) (s : State), s.runs = true ∧ s.is (fVaEnable v.val) = true ∧ s.inRun (s.va v.val).nextClose = true ∧ ((∀ c ∈ s.contribs, c.va ≠ v.val)) ∧ r = mget {} (s.va v.val).records (s.numOf (s.va v.val).nextClose % 64) ∧ ((s.lockedImage = true ∨ (s.stagedImage = true ∧ (s.va v.val).closed = [] ∧ expected s v.val &&& ~~~r.cids = 0)))) :=
  ⟨⟨1, ⟨1, 5, 7, 4, 20, true, false, none, 700⟩, { F inL [(fVaEnable 1, 1)] with contribs := [⟨1, 5, 7, 4, 20, true, false, none, 700⟩] }, by decide +kernel⟩,
    ⟨1, { bits := 5, cids := 0x10 }, { F inL [(fVaEnable 1, 1), (fVaExpectLo 1, 0x30)] with vas := [(1, { nextClose := 20, records := [(5, { bits := 5, cids := 0x10 })] })] }, by decide +kernel⟩⟩

/-- The hypotheses of VerdictLeavesInItsLayout can be met. -/
theorem witness_VerdictLeavesInItsLayout :
    (∃ (v : VaIx) (c : Verdict) (r : List Verdict) (s : State), (s.va v.val).closed = c :: r ∧ ((s.stagedImage = true ∨ (s.runs = true ∧ c.xseq + latencyL s ≤ s.clock.xseq)))) ∧
    (∃ (va : Nat) (features : List (Nat × Beat)), va < 4 ∧ features.length < 8) ∧
    (∃ (va : Nat) (features : List (Nat × Beat)), va < 4 ∧ features.length < 8) ∧
    (∃ (va : Nat) (features : List (Nat × Beat)) (i : Nat) (j : Nat) (p : Nat × Beat), va < 4 ∧ features.length < 8 ∧ features[i]? = some p ∧ p.1 < 64 ∧ j < 4) ∧
    (∃ (va : Nat) (features : List (Nat × Beat)), va < 4 ∧ features.length < 8) ∧
    (∃ (g : Nat) (frame : List Line) (i : Nat) (slot : List Line), 0 < g ∧ (slotsOf g frame)[i]? = some slot) ∧
    (∃ (g : Nat) (frame : List Line) (i : Nat) (slot : List Line) (j : Nat), 0 < g ∧ (slotsOf g frame)[i]? = some slot ∧ j < g) ∧
    (∃ (v : VaIx) (c : Verdict) (w : Word64) (marked : Word32) (s : State) (i : Nat), w = formVerdict s v.val c ∧ marked = (if s.thermal.fallback = true then BitVec.allOnes 32 else c.mb ||| c.ml) ∧ i < 32) ∧
    (∃ (v : VaIx) (c : Verdict) (w : Word64) (marked : Word32) (s : State), w = formVerdict s v.val c ∧ marked = (if s.thermal.fallback = true then BitVec.allOnes 32 else c.mb ||| c.ml)) ∧
    (∃ (v : VaIx) (c : Verdict) (w : Word64) (marked : Word32) (s : State), w = formVerdict s v.val c ∧ marked = (if s.thermal.fallback = true then BitVec.allOnes 32 else c.mb ||| c.ml)) ∧
    (∃ (v : VaIx) (c : Verdict) (w : Word64) (marked : Word32) (s : State), w = formVerdict s v.val c ∧ marked = (if s.thermal.fallback = true then BitVec.allOnes 32 else c.mb ||| c.ml)) ∧
    (∃ (v : VaIx) (c : Verdict) (w : Word64) (marked : Word32) (s : State), w = formVerdict s v.val c ∧ marked = (if s.thermal.fallback = true then BitVec.allOnes 32 else c.mb ||| c.ml)) ∧
    (∃ (v : VaIx) (c : Verdict) (w : Word64) (marked : Word32) (s : State), w = formVerdict s v.val c ∧ marked = (if s.thermal.fallback = true then BitVec.allOnes 32 else c.mb ||| c.ml)) ∧
    (∃ (v : VaIx) (c : Verdict) (w : Word64) (marked : Word32) (s : State), w = formVerdict s v.val c ∧ marked = (if s.thermal.fallback = true then BitVec.allOnes 32 else c.mb ||| c.ml)) ∧
    (∃ (v : VaIx) (c : Verdict) (w : Word64) (marked : Word32) (s : State), w = formVerdict s v.val c ∧ marked = (if s.thermal.fallback = true then BitVec.allOnes 32 else c.mb ||| c.ml)) ∧
    (∃ (v : VaIx) (c : Verdict) (w : Word64) (marked : Word32) (s : State), w = formVerdict s v.val c ∧ marked = (if s.thermal.fallback = true then BitVec.allOnes 32 else c.mb ||| c.ml)) :=
  ⟨⟨2, ⟨17, 2, 9, 0xF, 1, 2, 3, []⟩, [], { inL with vas := [(2, { closed := [⟨17, 2, 9, 0xF, 1, 2, 3, []⟩], nextClose := 18 })] }, by decide +kernel⟩,
    ⟨3, [(5, bt 4 true false), (63, bt 9 false true)], by decide +kernel⟩,
    ⟨3, [(5, bt 4 true false), (63, bt 9 false true)], by decide +kernel⟩,
    ⟨3, [(5, bt 4 true false), (63, bt 9 false true)], 1, 3, (63, bt 9 false true), by decide +kernel⟩,
    ⟨3, [(5, bt 4 true false), (63, bt 9 false true)], by decide +kernel⟩,
    ⟨3, verdictFrame 1 5 [], 0, verdictFrame 1 5 [] ++ [idleBlock], by decide +kernel⟩,
    ⟨3, verdictFrame 1 5 [], 0, verdictFrame 1 5 [] ++ [idleBlock], 2, by decide +kernel⟩,
    ⟨2, vd, formVerdict vpol 2 vd, 3, vpol, 1, by decide +kernel⟩,
    ⟨2, vd, formVerdict vpol 2 vd, 3, vpol, by decide +kernel⟩,
    ⟨2, vd, formVerdict vpol 2 vd, 3, vpol, by decide +kernel⟩,
    ⟨2, vd, formVerdict vpol 2 vd, 3, vpol, by decide +kernel⟩,
    ⟨2, vd, formVerdict vpol 2 vd, 3, vpol, by decide +kernel⟩,
    ⟨2, vd, formVerdict vpol 2 vd, 3, vpol, by decide +kernel⟩,
    ⟨2, vd, formVerdict vpol 2 vd, 3, vpol, by decide +kernel⟩,
    ⟨2, vd, formVerdict vpol 2 vd, 3, vpol, by decide +kernel⟩,
    ⟨2, vd, formVerdict vpol 2 vd, 3, vpol, by decide +kernel⟩⟩

/-- The hypotheses of LanesTrain can be met. -/
theorem witness_LanesTrain :
    (∃ (l : LaneId) (s : State), laneExists s l = true ∧ laneState s l.site.val l.lane.val l.tx = 0 ∧ laneEnabled s l.site.val l.lane.val l.tx = true ∧ isTiming s l.site.val l.lane.val l.tx = false ∧ isPair s l.site.val l.lane.val = false ∧ (s.lane l.site.val l.lane.val l.tx).dropped = false ∧ ((s.tile l.site.val = 0 ∨ l.tx = true)) ∧ ((isLit s l.site.val l.lane.val = true ∨ (l.tx = false ∧ s.tile l.site.val = 0))) ∧ settingOk s l.site.val l.lane.val l.tx = true) ∧
    (∃ (l : LaneId) (s : State), laneExists s l = true ∧ laneState s l.site.val l.lane.val l.tx = 0 ∧ laneEnabled s l.site.val l.lane.val l.tx = true ∧ isTiming s l.site.val l.lane.val l.tx = false ∧ isPair s l.site.val l.lane.val = false ∧ (s.lane l.site.val l.lane.val l.tx).dropped = false ∧ ((s.tile l.site.val = 0 ∨ l.tx = true)) ∧ ((isLit s l.site.val l.lane.val = true ∨ (l.tx = false ∧ s.tile l.site.val = 0))) ∧ settingOk s l.site.val l.lane.val l.tx = false) ∧
    (∃ (l : LaneId) (s : State), laneExists s l = true ∧ isTiming s l.site.val l.lane.val l.tx = false ∧ ((laneState s l.site.val l.lane.val l.tx = 1 ∨ laneState s l.site.val l.lane.val l.tx = 3)) ∧ isPair s l.site.val l.lane.val = false) ∧
    (∃ (l : LaneId) (s : State), laneExists s l = true ∧ isTiming s l.site.val l.lane.val false = false ∧ isPair s l.site.val l.lane.val = true ∧ laneState s l.site.val l.lane.val false = 0 ∧ (s.lane l.site.val l.lane.val false).dropped = false ∧ isLit s l.site.val l.lane.val = true ∧ s.is (fRxEnable l.site.val l.lane.val) = true ∧ s.is (fTxEnable l.site.val l.lane.val) = true) ∧
    (∃ (l : LaneId) (s : State), laneExists s l = true ∧ isTiming s l.site.val l.lane.val false = false ∧ isPair s l.site.val l.lane.val = true ∧ laneState s l.site.val l.lane.val false = 0 ∧ (s.lane l.site.val l.lane.val false).dropped = false ∧ isLit s l.site.val l.lane.val = true ∧ ((s.is (fRxEnable l.site.val l.lane.val) = false ∨ s.is (fTxEnable l.site.val l.lane.val) = false))) ∧
    (∃ (l : LaneId) (lead : Nat) (s : State), laneExists s l = true ∧ isTiming s l.site.val l.lane.val false = false ∧ ((laneState s l.site.val l.lane.val false = 1 ∨ laneState s l.site.val l.lane.val false = 3)) ∧ isPair s l.site.val l.lane.val = true ∧ lead = leadOf s l.site.val l.lane.val ∧ hasFailed s l.site.val lead = false ∧ s.is (fGrpUp l.site.val lead) = true ∧ (s.retry l.site.val lead).waiting = []) ∧
    (∃ (l : LaneId) (tx : Bool) (s : State), laneExists s l = true ∧ tx = sideOf s l.site.val l.lane.val l.tx ∧ isTiming s l.site.val l.lane.val tx = false ∧ ((laneState s l.site.val l.lane.val tx = 1 ∨ laneState s l.site.val l.lane.val tx = 3)) ∧ (s.lane l.site.val l.lane.val tx).attempts < 2) ∧
    (∃ (l : LaneId) (s : State), laneExists s l = true ∧ isTiming s l.site.val l.lane.val l.tx = false ∧ ((laneState s l.site.val l.lane.val l.tx = 1 ∨ laneState s l.site.val l.lane.val l.tx = 3)) ∧ 2 ≤ (s.lane l.site.val l.lane.val l.tx).attempts ∧ isPair s l.site.val l.lane.val = false) :=
  ⟨⟨⟨1, 2, false⟩, F lk [(fRxEnable 1 2, 1), (fRxCoding 1 2, 0), (fRxRate 1 2, 2400)], by decide +kernel⟩,
    ⟨⟨1, 2, false⟩, F lk [(fRxEnable 1 2, 1), (fRxCoding 1 2, 0), (fRxRate 1 2, 2399)], by decide +kernel⟩,
    ⟨⟨1, 2, false⟩, F lk [(fLaneState 1 2 false, 3)], by decide +kernel⟩,
    ⟨⟨4, 2, true⟩, F lk [(fTxFunc 4 2, 3), (fRxEnable 4 2, 1), (fTxEnable 4 2, 1)], by decide +kernel⟩,
    ⟨⟨4, 2, true⟩, F lk [(fTxFunc 4 2, 3), (fRxEnable 4 2, 0), (fTxEnable 4 2, 1)], by decide +kernel⟩,
    ⟨⟨4, 2, true⟩, 2, F lk [(fTxFunc 4 2, 3), (fLaneState 4 2 true, 1), (fLaneState 4 2 false, 1), (fGrpUp 4 2, 1)], by decide +kernel⟩,
    ⟨⟨1, 2, false⟩, false, { F lk [(fLaneState 1 2 false, 1)] with lanes := [(laneKey 1 2 false, { attempts := 1 })] }, by decide +kernel⟩,
    ⟨⟨1, 2, false⟩, { F lk [(fLaneState 1 2 false, 1)] with lanes := [(laneKey 1 2 false, { attempts := 2 })] }, by decide +kernel⟩⟩

/-- The hypotheses of LanesRespondToEvents can be met. -/
theorem witness_LanesRespondToEvents :
    (∃ (l : LaneId) (s : State), laneExists s l = true ∧ l.tx = false ∧ laneState s l.site.val l.lane.val false = 2) ∧
    (∃ (l : LaneId) (s : State), laneExists s l = true ∧ l.tx = false ∧ laneState s l.site.val l.lane.val false = 2 ∧ isTiming s l.site.val l.lane.val false = false ∧ laneLocked s l.site.val l.lane.val false = false) ∧
    (∃ (l : LaneId) (s : State), laneExists s l = true ∧ l.tx = false ∧ laneState s l.site.val l.lane.val false = 2 ∧ laneLocked s l.site.val l.lane.val false = true) ∧
    (∃ (l : LaneId) (s : State), laneExists s l = true) ∧
    (∃ (l : LaneId) (tx : Bool) (s : State), laneExists s l = true ∧ laneLocked s l.site.val l.lane.val l.tx = false ∧ tx = sideOf s l.site.val l.lane.val l.tx ∧ isTiming s l.site.val l.lane.val tx = false ∧ laneState s l.site.val l.lane.val tx = 2) ∧
    (∃ (l : LaneId) (s : State), laneExists s l = true ∧ laneLocked s l.site.val l.lane.val l.tx = true) :=
  ⟨⟨⟨1, 2, false⟩, { F lk [(fLaneState 1 2 false, 2), (fRetrainH 1, 1)] with lanes := [(laneKey 1 2 false, { low := 2 })] }, by decide +kernel⟩,
    ⟨⟨1, 2, false⟩, F lk [(fLaneState 1 2 false, 2)], by decide +kernel⟩,
    ⟨⟨1, 2, false⟩, F inL [(fLaneState 1 2 false, 2)], by decide +kernel⟩,
    ⟨⟨1, 47, false⟩, { lk with lanes := [(laneKey 1 47 false, { lost := true })] }, by decide +kernel⟩,
    ⟨⟨1, 2, false⟩, false, F lk [(fLaneState 1 2 false, 2)], by decide +kernel⟩,
    ⟨⟨1, 2, false⟩, F inL [(fLaneState 1 2 false, 2)], by decide +kernel⟩⟩

/-- The hypotheses of BondLaserAndBeatFrames can be met. -/
theorem witness_BondLaserAndBeatFrames :
    (∃ (site : SiteIx) (s : State), s.tile site.val ≠ 2 ∧ ((∀ p ∈ tileLanes s site.val, laneLocked s site.val p.1 p.2 = false))) ∧
    (∃ (site : SiteIx) (p : Nat × Bool) (s : State), s.tile site.val ≠ 2 ∧ p ∈ tileLanes s site.val ∧ laneLocked s site.val p.1 p.2 = true) ∧
    (∃ (site : SiteIx) (s : State), s.tile site.val = 1) ∧
    (∃ (site : SiteIx) (s : State), s.tile site.val = 1) ∧
    (∃ (site : SiteIx) (lane : Fin 32) (b : Beat) (r : List Beat) (s : State), lane.val < txLanes s site.val ∧ funcOf s site.val lane.val = 2 ∧ laneState s site.val lane.val true = 2 ∧ (s.lane site.val lane.val true).egress = b :: r ∧ b.last = true ∧ s.is (fTxLoop site.val lane.val) = false ∧ fedUnready s 128 (edgeUnit site.val (s.fld (fTxLink site.val lane.val))) (site.val / 4) = false) ∧
    (∃ (i : Nat), i < 64) ∧
    (∃ (row : List Beat) (i : Nat) (j : Nat) (b : Beat), row[i]? = some b ∧ j < 4) :=
  ⟨⟨4, lk, by decide +kernel⟩,
    ⟨1, (2, false), inL, by decide +kernel⟩,
    ⟨4, F lk [(fTxNoLight 4 16, 1)], by decide +kernel⟩,
    ⟨4, lk, by decide +kernel⟩,
    ⟨4, 8, bt 0 true true, [bt 1 true true], { F lk [(fTxFunc 4 8, 2), (fLaneState 4 8 true, 2), (fBondNrz 4 1, 1), (fBondWidth 4 1, 0)] with lanes := [(laneKey 4 8 true, { egress := [bt 0 true true, bt 1 true true] })] }, by decide +kernel⟩,
    ⟨58, by decide +kernel⟩,
    ⟨[bt 5 true false, bt 6 false true], 1, 3, bt 6 false true, by decide +kernel⟩⟩

/-- The hypotheses of MacAddsProducts can be met. -/
theorem witness_MacAddsProducts :
    (∃ (c : Instr) (op : Nat) (clear : Bool) (u : UnitIx) (w : Word64) (t : Nat) (zp : Nat) (wue : Nat) (zue : Nat) (outs : List Nat) (b : Beat) (r : List Beat) (q : QueueId) (sums : List Int) (s : State), (c, op, clear) ∈ [(Instr.mac u, 1, false), (.macz u, 2, true)] ∧ issuesNext s (.dot u) op w t ∧ q = .port u (portOf (wf w 56 2)) ∧ headIs s q b r t ∧ (s.unit u.val).flight = [] ∧ (s.unit u.val).outLink = [] ∧ outs = (if wf w 36 1 = 1 then [wf w 34 2] else []) ∧ stagedLacking s u.val outs = [] ∧ ((∀ o ∈ outs, capturer s u.val o = none ∧ (neighbour u.val o).isSome = true)) ∧ zp = (wf w 46 6 + 32 * stagedHalf s) % 64 ∧ sums = macSums (s.unit u.val).weight (s.unit u.val).zp (s.fld (fFormat u.val)) (codebook s u.val) (effectiveRow s u.val (wf w 37 9)) zp (wf w 54 1) b ∧ wue = (s.unit u.val).weight.broken (32 * effectiveRow s u.val (wf w 37 9)) 32 ∧ zue = (s.unit u.val).zp.broken (4 * zp) 4) ∧
    (∃ (half : Nat) (o : Nat), o < 32 ∧ half < 2) ∧
    (∃ (half : Nat) (o : Nat), o < 32 ∧ half < 2) ∧
    (∃ (half : Nat) (o : Nat), o < 32 ∧ half < 2) ∧
    (∃ (g : Bank 28) (sums : List Int) (o : Nat), g.rows.length = 32 ∧ sums.length = 32 ∧ o < 32) ∧
    (∃ (g : Bank 28) (sums : List Int) (o : Nat), g.rows.length = 32 ∧ sums.length = 32 ∧ o < 32) ∧
    (∃ (g : Bank 28) (sums : List Int) (o : Nat), g.rows.length = 32 ∧ sums.length = 32 ∧ o < 32) ∧
    (∃ (g : Bank 28) (sums : List Int) (o : Nat), g.rows.length = 32 ∧ sums.length = 32 ∧ o < 32) ∧
    (∃ (g : Bank 28) (sums : List Int) (o : Nat), g.rows.length = 32 ∧ sums.length = 32 ∧ o < 32) :=
  ⟨⟨.mac 0, 1, false, 0, mac0, 600, 63, 0, 0, [2], bt 4 true false, [bt 4 false true], .port 0 .east, macSums ((dot0 mac0).unit (0 : UnitIx).val).weight ((dot0 mac0).unit (0 : UnitIx).val).zp ((dot0 mac0).fld (fFormat (0 : UnitIx).val)) (codebook (dot0 mac0) (0 : UnitIx).val) (effectiveRow (dot0 mac0) (0 : UnitIx).val (wf (mac0 : Word64) 37 9)) (63 : Nat) (wf (mac0 : Word64) 54 1) (bt 4 true false : Beat), dot0 mac0, by unfold issuesNext headIs; decide +kernel⟩,
    ⟨1, 0, by decide +kernel⟩,
    ⟨1, 0, by decide +kernel⟩,
    ⟨1, 0, by decide +kernel⟩,
    ⟨{ rows := List.replicate 32 5, exp := some 3, tag := 9 }, List.replicate 32 (-7), 31, by decide +kernel⟩,
    ⟨{ rows := List.replicate 32 5, exp := some 3, tag := 9 }, List.replicate 32 (-7), 31, by decide +kernel⟩,
    ⟨{ rows := List.replicate 32 5, exp := some 3, tag := 9 }, List.replicate 32 (-7), 31, by decide +kernel⟩,
    ⟨{ rows := List.replicate 32 5, exp := some 3, tag := 9 }, List.replicate 32 (-7), 31, by decide +kernel⟩,
    ⟨{ rows := List.replicate 32 5, exp := some 3, tag := 9 }, List.replicate 32 (-7), 31, by decide +kernel⟩⟩

/-- The hypotheses of GroupAndClearWrite can be met. -/
theorem witness_GroupAndClearWrite :
    (∃ (u : UnitIx) (w : Word64) (t : Nat) (sx : Nat) (ue : Nat) (b : Bank 28) (scales : List (Nat × Nat)) (s : State), issuesNext s (.dot u) 3 w t ∧ (s.unit u.val).flight = [] ∧ sx = (wf w 45 7 + 64 * stagedHalf s) % 128 ∧ scales = (List.range 32).map (scaleWord (s.unit u.val).scale sx) ∧ b = (s.unit u.val).gb.getD (wf w 56 2) {} ∧ ue = (s.unit u.val).scale.broken (8 * sx) 8 ∧ (s.unit u.val).mb.length = 16) ∧
    (∃ (u : UnitIx) (w : Word64) (t : Nat) (s : State), issuesNext s (.dot u) 4 w t ∧ (s.unit u.val).flight = [] ∧ (s.unit u.val).mb.length = 16) ∧
    (∃ (m : Bank 48) (g : Bank 28) (scales : List (Nat × Nat)) (q : Nat) (o : Nat) (eg : BitVec 6) (eb : BitVec 6) (a : Int), o < 32 ∧ g.exp = some eg ∧ eb = m.exp.getD eg ∧ a = (m.rows.getD o 0).toInt + scaleBy ((g.rows.getD o 0).toInt * (scales.getD o (0, 0)).1) (((scales.getD o (0, 0)).2 : Int) - 31 + q + eg.toNat - eb.toNat)) ∧
    (∃ (m : Bank 48) (g : Bank 28) (scales : List (Nat × Nat)) (q : Nat) (o : Nat) (eg : BitVec 6) (eb : BitVec 6) (a : Int), o < 32 ∧ g.exp = some eg ∧ eb = m.exp.getD eg ∧ a = (m.rows.getD o 0).toInt + scaleBy ((g.rows.getD o 0).toInt * (scales.getD o (0, 0)).1) (((scales.getD o (0, 0)).2 : Int) - 31 + q + eg.toNat - eb.toNat) ∧ (scales.getD o (0, 0)).1 = 0) ∧
    (∃ (m : Bank 48) (g : Bank 28) (scales : List (Nat × Nat)) (q : Nat) (o : Nat) (eg : BitVec 6) (eb : BitVec 6) (a : Int), o < 32 ∧ g.exp = some eg ∧ eb = m.exp.getD eg ∧ a = (m.rows.getD o 0).toInt + scaleBy ((g.rows.getD o 0).toInt * (scales.getD o (0, 0)).1) (((scales.getD o (0, 0)).2 : Int) - 31 + q + eg.toNat - eb.toNat) ∧ (scales.getD o (0, 0)).1 ≠ 0) ∧
    (∃ (m : Bank 48) (g : Bank 28) (scales : List (Nat × Nat)) (q : Nat) (o : Nat) (eg : BitVec 6) (eb : BitVec 6) (a : Int), o < 32 ∧ g.exp = some eg ∧ eb = m.exp.getD eg ∧ a = (m.rows.getD o 0).toInt + scaleBy ((g.rows.getD o 0).toInt * (scales.getD o (0, 0)).1) (((scales.getD o (0, 0)).2 : Int) - 31 + q + eg.toNat - eb.toNat)) ∧
    (∃ (m : Bank 48) (g : Bank 28) (scales : List (Nat × Nat)) (q : Nat) (o : Nat) (eg : BitVec 6) (eb : BitVec 6) (a : Int), o < 32 ∧ g.exp = some eg ∧ eb = m.exp.getD eg ∧ a = (m.rows.getD o 0).toInt + scaleBy ((g.rows.getD o 0).toInt * (scales.getD o (0, 0)).1) (((scales.getD o (0, 0)).2 : Int) - 31 + q + eg.toNat - eb.toNat)) :=
  ⟨⟨0, grp0, 600, 127, 0, {}, (List.range 32).map (scaleWord ((dot0 grp0).unit 0).scale 127), dot0 grp0, by unfold issuesNext; decide +kernel⟩,
    ⟨0, clr0, 600, dot0 clr0, by unfold issuesNext; decide +kernel⟩,
    ⟨{ rows := List.replicate 32 7, exp := some 9 }, { rows := List.replicate 32 5, exp := some 3, tag := 9 }, List.replicate 32 (5, 40), 2, 31, 3, 9, 7 + scaleBy (5 * (5, 40).1) ((((5, 40).2 : Nat) : Int) - 31 + 2 + 3 - 9), by decide +kernel⟩,
    ⟨{ rows := List.replicate 32 7, exp := some 9 }, { rows := List.replicate 32 5, exp := some 3, tag := 9 }, List.replicate 32 (0, 9), 2, 31, 3, 9, 7 + scaleBy (5 * (0, 9).1) ((((0, 9).2 : Nat) : Int) - 31 + 2 + 3 - 9), by decide +kernel⟩,
    ⟨{ rows := List.replicate 32 7, exp := some 9 }, { rows := List.replicate 32 5, exp := some 3, tag := 9 }, List.replicate 32 (5, 40), 2, 31, 3, 9, 7 + scaleBy (5 * (5, 40).1) ((((5, 40).2 : Nat) : Int) - 31 + 2 + 3 - 9), by decide +kernel⟩,
    ⟨{ rows := List.replicate 32 7, exp := some 9 }, { rows := List.replicate 32 5, exp := some 3, tag := 9 }, List.replicate 32 (5, 40), 2, 31, 3, 9, 7 + scaleBy (5 * (5, 40).1) ((((5, 40).2 : Nat) : Int) - 31 + 2 + 3 - 9), by decide +kernel⟩,
    ⟨{ rows := List.replicate 32 7, exp := some 9 }, { rows := List.replicate 32 5, exp := some 3, tag := 9 }, List.replicate 32 (5, 40), 2, 31, 3, 9, 7 + scaleBy (5 * (5, 40).1) ((((5, 40).2 : Nat) : Int) - 31 + 2 + 3 - 9), by decide +kernel⟩⟩

/-- The hypotheses of EmitAndAddinUseBus can be met. -/
theorem witness_EmitAndAddinUseBus :
    (∃ (u : UnitIx) (w : Word64) (t : Nat) (m : Bank 48) (s : State), issuesNext s (.dot u) 5 w t ∧ funsIdle s (u.val / 8) ∧ (s.cluster (u.val / 8)).bus = [] ∧ (s.unit u.val).flight = [] ∧ m = (s.unit u.val).mb.getD (wf w 52 4) {} ∧ ((∀ f : Nat, f < 2 → wf w 48 4 = 8 + f → (s.fun_ (2 * (u.val / 8) + f)).buf.length < 4)) ∧ ((s.stagedImage = true → claimedBelow s u.val t = false))) ∧
    (∃ (u : UnitIx) (w : Word64) (since : Nat) (t : Nat) (m : Bank 48) (s : State), plays s (.dot u) = true ∧ (s.play (.dot u)).wait = .emit since ∧ w = (s.tt (.dot u)).word (s.play (.dot u)).pc ∧ t = max since s.clock.now ∧ funsIdle s (u.val / 8) ∧ (s.cluster (u.val / 8)).bus = [] ∧ (s.unit u.val).flight = [] ∧ m = (s.unit u.val).mb.getD (wf w 52 4) {} ∧ ((∀ f : Nat, f < 2 → wf w 48 4 = 8 + f → (s.fun_ (2 * (u.val / 8) + f)).buf.length < 4)) ∧ claimedBelow s u.val t = false) ∧
    (∃ (u : UnitIx) (w : Word64) (t : Nat) (r : BusRow) (s : State), issuesNext s (.dot u) 6 w t ∧ 1 ≤ t ∧ funsIdle s (u.val / 8) ∧ (s.cluster (u.val / 8)).bus = [r] ∧ r.dest = u.val % 8 ∧ r.due = t ∧ (s.unit u.val).flight = []) ∧
    (∃ (u : UnitIx) (w : Word64) (t : Nat) (s : State), issuesNext s (.dot u) 6 w t ∧ funsIdle s (u.val / 8) ∧ (s.cluster (u.val / 8)).bus = [] ∧ s.stagedImage = false) ∧
    (∃ (u : UnitIx) (w : Word64) (t : Nat) (s : State), issuesNext s (.dot u) 6 w t ∧ funsIdle s (u.val / 8) ∧ (s.cluster (u.val / 8)).bus = [] ∧ s.stagedImage = true) ∧
    (∃ (u : UnitIx) (since : Nat) (r : BusRow) (s : State), plays s (.dot u) = true ∧ (s.play (.dot u)).wait = .addin since ∧ funsIdle s (u.val / 8) ∧ (s.cluster (u.val / 8)).bus = [r] ∧ r.dest = u.val % 8 ∧ since ≤ r.due ∧ (s.unit u.val).flight = []) ∧
    (∃ (r : BusRow), r.expValid = false) ∧
    (∃ (r : BusRow), r.expValid = false) ∧
    (∃ (m : Bank 48) (r : BusRow) (eb : BitVec 6) (o : Nat) (a : Int), r.expValid = true ∧ eb = m.exp.getD r.exp ∧ o < 32 ∧ a = (m.rows.getD o 0).toInt + scaleBy (r.vals.getD o 0).toInt ((r.exp.toNat : Int) - eb.toNat)) ∧
    (∃ (m : Bank 48) (r : BusRow) (eb : BitVec 6) (o : Nat) (a : Int), r.expValid = true ∧ eb = m.exp.getD r.exp ∧ o < 32 ∧ a = (m.rows.getD o 0).toInt + scaleBy (r.vals.getD o 0).toInt ((r.exp.toNat : Int) - eb.toNat)) ∧
    (∃ (m : Bank 48) (r : BusRow) (eb : BitVec 6) (o : Nat) (a : Int), r.expValid = true ∧ eb = m.exp.getD r.exp ∧ o < 32 ∧ a = (m.rows.getD o 0).toInt + scaleBy (r.vals.getD o 0).toInt ((r.exp.toNat : Int) - eb.toNat)) ∧
    (∃ (m : Bank 48) (r : BusRow) (eb : BitVec 6) (o : Nat) (a : Int), r.expValid = true ∧ eb = m.exp.getD r.exp ∧ o < 32 ∧ a = (m.rows.getD o 0).toInt + scaleBy (r.vals.getD o 0).toInt ((r.exp.toNat : Int) - eb.toNat)) ∧
    (∃ (m : Bank 48) (r : BusRow) (eb : BitVec 6) (o : Nat) (a : Int), r.expValid = true ∧ eb = m.exp.getD r.exp ∧ o < 32 ∧ a = (m.rows.getD o 0).toInt + scaleBy (r.vals.getD o 0).toInt ((r.exp.toNat : Int) - eb.toNat)) :=
  ⟨⟨0, emit0 9, 600, { exp := some 3 }, dot0 (emit0 9), by unfold issuesNext funsIdle; decide +kernel⟩,
    ⟨0, emit0 8, 603, 605, { exp := some 3 }, { dot0 (emit0 8) with units := [(0, { play := { pc := 1, at_ := 600, wait := .emit 603 }, tt := { words := [(1, emit0 8)] }, mb := List.replicate 16 { exp := some 3 } })] }, by unfold funsIdle; decide +kernel⟩,
    ⟨0, add0, 600, busRow 600, { dot0 add0 with clusters := [(0, { bus := [busRow 600] })] }, by unfold issuesNext funsIdle; decide +kernel⟩,
    ⟨0, add0, 600, dot0 add0, by unfold issuesNext funsIdle; decide +kernel⟩,
    ⟨0, add0, 600, asS (dot0 add0), by unfold issuesNext funsIdle; decide +kernel⟩,
    ⟨0, 602, busRow 602, { asS (dot0 add0) with units := [(0, { play := { pc := 1, at_ := 600, wait := .addin 602 }, tt := { words := [(1, add0)] } })], clusters := [(0, { bus := [busRow 602] })] }, by unfold funsIdle; decide +kernel⟩,
    ⟨{ sender := 3, due := 5, dest := 2, expValid := false, bad := true }, by decide +kernel⟩,
    ⟨{ sender := 3, due := 5, dest := 2, expValid := false, bad := true }, by decide +kernel⟩,
    ⟨{ rows := List.replicate 32 7, exp := some 9 }, { sender := 3, due := 5, dest := 2, expValid := true, exp := 7, vals := List.replicate 32 (-5), bad := true }, 9, 31, 7 + scaleBy (-5) (-2), by decide +kernel⟩,
    ⟨{ rows := List.replicate 32 7, exp := some 9 }, { sender := 3, due := 5, dest := 2, expValid := true, exp := 7, vals := List.replicate 32 (-5), bad := true }, 9, 31, 7 + scaleBy (-5) (-2), by decide +kernel⟩,
    ⟨{ rows := List.replicate 32 7, exp := some 9 }, { sender := 3, due := 5, dest := 2, expValid := true, exp := 7, vals := List.replicate 32 (-5), bad := true }, 9, 31, 7 + scaleBy (-5) (-2), by decide +kernel⟩,
    ⟨{ rows := List.replicate 32 7, exp := some 9 }, { sender := 3, due := 5, dest := 2, expValid := true, exp := 7, vals := List.replicate 32 (-5), bad := true }, 9, 31, 7 + scaleBy (-5) (-2), by decide +kernel⟩,
    ⟨{ rows := List.replicate 32 7, exp := some 9 }, { sender := 3, due := 5, dest := 2, expValid := true, exp := 7, vals := List.replicate 32 (-5), bad := true }, 9, 31, 7 + scaleBy (-5) (-2), by decide +kernel⟩⟩

/-- The hypotheses of PassAndDupSend can be met. -/
theorem witness_PassAndDupSend :
    (∃ (c : Instr) (op : Nat) (outs : List Nat) (u : UnitIx) (w : Word64) (t : Nat) (b : Beat) (r : List Beat) (q : QueueId) (s : State), (c, op, outs) ∈ [(Instr.pass u, 7, [wf w 54 2]), (.dup u, 8, (List.range 4).filter (fun i => decide (bits w.toNat (52 + i) 1 = 1)))] ∧ issuesNext s (.dot u) op w t ∧ q = .port u (portOf (wf w 56 2)) ∧ headIs s q b r t ∧ (s.unit u.val).outLink = [] ∧ stagedLacking s u.val outs = [] ∧ ((∀ o ∈ outs, capturer s u.val o = none ∧ (neighbour u.val o).isSome = true))) ∧
    (∃ (c : Instr) (op : Nat) (outs : List Nat) (u : UnitIx) (w : Word64) (t : Nat) (b : Beat) (r : List Beat) (q : QueueId) (s : State) (o : Nat) (k : Nat), (c, op, outs) ∈ [(Instr.pass u, 7, [wf w 54 2]), (.dup u, 8, (List.range 4).filter (fun i => decide (bits w.toNat (52 + i) 1 = 1)))] ∧ issuesNext s (.dot u) op w t ∧ q = .port u (portOf (wf w 56 2)) ∧ headIs s q b r t ∧ (s.unit u.val).outLink = [] ∧ stagedLacking s u.val outs = [] ∧ outs = [o] ∧ capturer s u.val o = some k) :=
  ⟨⟨.dup 0, 8, [1, 2], 0, dup0, 600, bt 4 true false, [bt 4 false true], .port 0 .east, dot0 dup0, by unfold issuesNext headIs; decide +kernel⟩,
    ⟨.pass 0, 7, [2], 0, pass0, 600, bt 4 true false, [bt 4 false true], .port 0 .east, (dot0 pass0).setRaw (clusterBase 0 + 0xC00 + 0x20 * 15 + 0x18) 0x3000, 2, 15, by unfold issuesNext headIs; decide +kernel⟩⟩

/-- The hypotheses of TimetableControlWords can be met. -/
theorem witness_TimetableControlWords :
    (∃ (a : Agent) (w : Word64) (t : Nat) (s : State), issuesNext s a 9 w t ∧ funsIdle s (aCluster a)) ∧
    (∃ (a : Agent) (n : Nat) (s : State), plays s a = true ∧ (s.play a).wait = .hold n) ∧
    (∃ (a : Agent) (w : Word64) (t : Nat) (s : State), issuesNext s a 0xC w t ∧ funsIdle s (aCluster a)) ∧
    (∃ (a : Agent) (s : State), plays s a = true ∧ (s.play a).wait = .none ∧ period s a ≤ (s.play a).pc ∧ funsIdle s (aCluster a)) ∧
    (∃ (a : Agent) (w : Word64) (t : Nat) (q : QueueId) (l : List Beat) (s : State) (pre : List Beat) (post : List Beat) (x : Beat), issuesNext s a 0xB w t ∧ funsIdle s (aCluster a) ∧ dropTarget a w = some q ∧ s.links = [] ∧ (s.cluster (aCluster a)).arrivals = [] ∧ (s.queue q).wrote = none ∧ (s.queue q).beats = l ∧ (s.queue q).pkt = true ∧ (s.queue q).discarding = false ∧ l = pre ++ x :: post ∧ ((∀ y ∈ pre, y.last = false)) ∧ x.last = true) ∧
    (∃ (a : Agent) (w : Word64) (t : Nat) (q : QueueId) (l : List Beat) (s : State), issuesNext s a 0xB w t ∧ funsIdle s (aCluster a) ∧ dropTarget a w = some q ∧ s.links = [] ∧ (s.cluster (aCluster a)).arrivals = [] ∧ (s.queue q).wrote = none ∧ (s.queue q).beats = l ∧ (s.queue q).pkt = true ∧ (s.queue q).discarding = false ∧ ((∀ y ∈ l, y.last = false))) ∧
    (∃ (a : Agent) (w : Word64) (t : Nat) (q : QueueId) (l : List Beat) (s : State), issuesNext s a 0xB w t ∧ funsIdle s (aCluster a) ∧ dropTarget a w = some q ∧ s.links = [] ∧ (s.cluster (aCluster a)).arrivals = [] ∧ (s.queue q).wrote = none ∧ (s.queue q).beats = l ∧ (s.queue q).pkt = false) :=
  ⟨⟨.fn 0, hold0, 600, fn0 hold0, by unfold issuesNext funsIdle; decide +kernel⟩,
    ⟨.dot 0, 650, { dot0 hold0 with units := [(0, { play := { pc := 1, at_ := 600, wait := .hold 650 }, tt := { words := [(1, hold0)] } })] }, by decide +kernel⟩,
    ⟨.fn 0, menu0, 600, fn0 menu0, by unfold issuesNext funsIdle; decide +kernel⟩,
    ⟨.dot 0, { dot0 hold0 with units := [(0, { play := { pc := 8, at_ := 607 } })] }, by unfold funsIdle; decide +kernel⟩,
    ⟨.fn 0, drop0, 600, .bank 0 2, [bt 1 false false, bt 2 false true, bt 3 true true], dropS true [bt 1 false false, bt 2 false true, bt 3 true true], [bt 1 false false], [bt 3 true true], bt 2 false true, by unfold issuesNext funsIdle; decide +kernel⟩,
    ⟨.fn 0, drop0, 600, .bank 0 2, [bt 1 false false], dropS true [bt 1 false false], by unfold issuesNext funsIdle; decide +kernel⟩,
    ⟨.fn 0, drop0, 600, .bank 0 2, [bt 3 true true], dropS false [bt 3 true true], by unfold issuesNext funsIdle; decide +kernel⟩⟩

/-- The hypotheses of AnchorStartsPasses can be met. -/
theorem witness_AnchorStartsPasses :
    (∃ (a : Agent) (s : State), s.runs = true ∧ s.stagedImage = false ∧ isAnchor s a = true ∧ s.is (fRunning a) = false ∧ enabledAgent s a = true ∧ s.run.started = true ∧ stopsAt s a = false) ∧
    (∃ (a : Agent) (s : State), s.runs = true ∧ s.stagedImage = false ∧ isAnchor s a = true ∧ s.is (fRunning a) = true ∧ stopsAt s a = false ∧ (s.play a).wait = .sync ∧ (s.play a).at_ < s.clock.xstart ∧ funsIdle s (aCluster a)) ∧
    (∃ (a : Agent) (s : State), s.runs = true ∧ s.stagedImage = false ∧ isAnchor s a = true ∧ s.is (fRunning a) = true ∧ stopsAt s a = true ∧ (s.play a).wait = .sync ∧ funsIdle s (aCluster a)) ∧
    (∃ (a : Agent) (n : Nat) (s : State), s.runs = true ∧ s.stagedImage = false ∧ isAnchor s a = true ∧ s.is (fRunning a) = true ∧ stopsAt s a = false ∧ (s.play a).wait = .hold n ∧ funsIdle s (aCluster a) ∧ mget false s.hazardsHeld (clusterRegion (aCluster a)) = true) ∧
    (∃ (a : Agent) (s : State), s.runs = true ∧ s.stagedImage = true ∧ s.stage.running = true ∧ s.is (fRunning a) = false ∧ enabledAgent s a = true ∧ (s.play a).at_ < s.stage.releasedAt) :=
  ⟨⟨.dot 0, F inL [(fPeriod (.dot 0), 512), (fRunning (.dot 0), 0), (fAgentEnable (.dot 0), 1), (fLag (.dot 0), 2), (fK (.dot 0), 1)], by decide +kernel⟩,
    ⟨.dot 0, { F inL [(fPeriod (.dot 0), 8)] with units := [(0, { play := { pc := 0, at_ := 599, wait := .sync } })] }, by unfold funsIdle; decide +kernel⟩,
    ⟨.dot 0, { F inL [(fPeriod (.dot 0), 8)] with units := [(0, { play := { pc := 0, at_ := 599, wait := .sync } })], run := { inL.run with stop := some 20 } }, by unfold funsIdle; decide +kernel⟩,
    ⟨.dot 0, 650, { F inL [(fPeriod (.dot 0), 8)] with units := [(0, { play := { pc := 3, at_ := 599, wait := .hold 650 } })], hazardsHeld := [(0, true)] }, by unfold funsIdle; decide +kernel⟩,
    ⟨.dot 0, { F inS [(fPeriod (.dot 0), 8), (fAgentEnable (.dot 0), 1)] with stage := { running := true, releasedAt := 600 }, units := [(0, { play := { at_ := 500 } })] }, by decide +kernel⟩⟩

/-- The hypotheses of FunctionWordRuns can be met. -/
theorem witness_FunctionWordRuns :
    (∃ (c : Instr) (op : Nat) (q : Nat) (f : FunIx) (w : Word64) (t : Nat) (b : Beat) (r : List Beat) (d : QueueId) (i : FIn) (beats : List Beat) (s : State), (c, op) ∈ [(Instr.act f, 0x10), (.rowx f, 0x11), (.pin f, 0x12), (.norm f, 0x13), (.expt f, 0x14), (.rcp f, 0x15), (.reduce f, 0x16), (.pool f, 0x17), (.sort16 f, 0x18), (.topk f, 0x19)] ∧ issuesNext s (.fn f) op w t ∧ funsIdle s (f.val / 2) ∧ s.stagedImage = false ∧ takePlan w = [⟨0, false, .queue q⟩] ∧ q < 16 ∧ headIs s (.bank (Fin.ofNat 512 (f.val / 2)) (Fin.ofNat 16 q)) b r t ∧ (s.cluster (f.val / 2)).bus = [] ∧ (s.fun_ f.val).outBusy = [] ∧ dstQueue f.val (wDst w) = some d ∧ qHold s d = false ∧ i = ⟨w, (s.cluster (f.val / 2)).store, s.fld (fActive (.fn f)), [.beat b], [], s.freeNext⟩ ∧ beats = (if streams w = true then [{ (operate i).beats.getD 0 zeroBeat with last := decide (1 = outBeats w) }] else (operate i).beats)) ∧
    (∃ (f : FunIx) (o : FunOp) (since : Nat) (q : Nat) (b : Beat) (r : List Beat) (s : State), plays s (.fn f) = true ∧ (s.play (.fn f)).wait = .source since ∧ since ≤ s.clock.now ∧ (s.fun_ f.val).op = some o ∧ (s.fun_ (f.val + 1 - 2 * (f.val % 2))).op = none ∧ (takePlan o.w)[o.next]? = some ⟨since - o.at_ - o.slip, false, .queue q⟩ ∧ o.at_ + o.slip ≤ since ∧ (takePlan o.w).length = o.next + 1 ∧ q < 16 ∧ headIs s (.bank (Fin.ofNat 512 (f.val / 2)) (Fin.ofNat 16 q)) b r s.clock.now) ∧
    (∃ (f : FunIx) (w : Word64) (since : Nat) (t0 : Nat) (s : State), plays s (.fn f) = true ∧ (s.play (.fn f)).wait = .output since ∧ funsIdle s (f.val / 2) ∧ w = (s.tt (.fn f)).word (s.play (.fn f)).pc ∧ t0 = max since s.clock.now ∧ outputFree s f.val w t0 = true) :=
  ⟨by refine ⟨.sort16 0, 0x18, 2, 0, sort0, 600, bt 4 true false, [bt 4 false true], .bank 0 3, ⟨sort0, {}, 0, [.beat (bt 4 true false)], [], 0⟩, (operate ⟨sort0, {}, 0, [.beat (bt 4 true false)], [], 0⟩).beats, fq sort0 [(2, two)], ?_, ?_, ?_, ?_, ?_, ?_, ?_, ?_, ?_, ?_, ?_, rfl, rfl⟩ <;> first | decide +kernel | (simp only [issuesNext, headIs, funsIdle]; decide +kernel),
    ⟨0, fop, 600, 2, bt 4 true false, [bt 4 false true], { fq sort0 [(2, two)] with funs := [(0, { play := { pc := 2, at_ := 601, wait := .source 600 }, tt := { words := [(1, sort0)] }, op := some fop })] }, by unfold headIs; decide +kernel⟩,
    ⟨0, sort0, 600, 605, { fq sort0 [(2, two)] with funs := [(0, { play := { pc := 1, at_ := 600, wait := .output 600 }, tt := { words := [(1, sort0)] } })] }, by unfold funsIdle; decide +kernel⟩⟩

/-- The hypotheses of IndexedAndSumWordsRun can be met. -/
theorem witness_IndexedAndSumWordsRun :
    (∃ (c : Instr) (op : Nat) (p : Nat) (q : Nat) (end_ : Nat) (f : FunIx) (w : Word64) (t : Nat) (b : Beat) (x : Beat) (r : List Beat) (y : List Beat) (d : QueueId) (i : FIn) (beats : List Beat) (s : State), (c, op, end_) ∈ [(Instr.gather f, 0x1A, t + 1), (.scatter f, 0x1B, t)] ∧ issuesNext s (.fn f) op w t ∧ funsIdle s (f.val / 2) ∧ s.stagedImage = false ∧ takePlan w = (if op = 0x1A then [⟨0, false, .queue q⟩, ⟨1, true, .queue p⟩] else [⟨0, false, .queue q⟩, ⟨0, true, .queue p⟩]) ∧ q < 16 ∧ p < 16 ∧ p ≠ q ∧ headIs s (.bank (Fin.ofNat 512 (f.val / 2)) (Fin.ofNat 16 q)) b r t ∧ headIs s (.bank (Fin.ofNat 512 (f.val / 2)) (Fin.ofNat 16 p)) x y t ∧ (s.cluster (f.val / 2)).bus = [] ∧ (s.fun_ f.val).outBusy = [] ∧ dstQueue f.val (wDst w) = some d ∧ qHold s d = false ∧ i = ⟨w, (s.cluster (f.val / 2)).store, s.fld (fActive (.fn f)), [.beat b], [.beat x], s.freeNext⟩ ∧ beats = (if op = 0x1A then [{ (operate i).beats.getD 0 zeroBeat with last := decide (1 = outBeats w) }] else (operate i).beats)) ∧
    (∃ (f : FunIx) (w : Word64) (t : Nat) (q : Nat) (bs : Nat) (mask : Nat) (feature : Option Beat) (b : Beat) (r : List Beat) (i : FIn) (s : State), issuesNext s (.fn f) 0x1C w t ∧ funsIdle s (f.val / 2) ∧ s.stagedImage = false ∧ takePlan w = [⟨0, false, .queue q⟩] ∧ q < 16 ∧ headIs s (.bank (Fin.ofNat 512 (f.val / 2)) (Fin.ofNat 16 q)) b r t ∧ (s.cluster (f.val / 2)).bus = [] ∧ i = ⟨w, (s.cluster (f.val / 2)).store, s.fld (fActive (.fn f)), [.beat b], [], s.freeNext⟩ ∧ (operate i).trigger = some (bs, mask, feature)) ∧
    (∃ (f : FunIx) (w : Word64) (t : Nat) (q : Nat) (row : BusRow) (b : Beat) (r : List Beat) (i : FIn) (s : State), issuesNext s (.fn f) 0x16 w t ∧ funsIdle s (f.val / 2) ∧ s.stagedImage = false ∧ takePlan w = [⟨0, false, .queue q⟩] ∧ q < 16 ∧ wDst w = 16 ∧ headIs s (.bank (Fin.ofNat 512 (f.val / 2)) (Fin.ofNat 16 q)) b r t ∧ (s.cluster (f.val / 2)).bus = [] ∧ i = ⟨w, (s.cluster (f.val / 2)).store, s.fld (fActive (.fn f)), [.beat b], [], s.freeNext⟩ ∧ (operate i).row = some row) :=
  ⟨by refine ⟨.scatter 0, 0x1B, 7, 2, 600, 0, scat0, 600, bt 4 true false, bt 4 true false, [bt 4 false true], [bt 4 false true], .bank 0 3, ⟨scat0, {}, 0, [.beat (bt 4 true false)], [.beat (bt 4 true false)], 0⟩, (operate ⟨scat0, {}, 0, [.beat (bt 4 true false)], [.beat (bt 4 true false)], 0⟩).beats, fq scat0 [(2, two), (7, two)], ?_, ?_, ?_, ?_, ?_, ?_, ?_, ?_, ?_, ?_, ?_, ?_, ?_, ?_, rfl, rfl⟩ <;> first | decide +kernel | (simp only [issuesNext, headIs, funsIdle]; decide +kernel),
    by refine ⟨0, thr0, 600, 2, ((operate ⟨thr0, {}, 0, [.beat (bt 4 true false)], [], 0⟩).trigger.getD (0, 0, none)).1, ((operate ⟨thr0, {}, 0, [.beat (bt 4 true false)], [], 0⟩).trigger.getD (0, 0, none)).2.1, ((operate ⟨thr0, {}, 0, [.beat (bt 4 true false)], [], 0⟩).trigger.getD (0, 0, none)).2.2, bt 4 true false, [bt 4 false true], ⟨thr0, {}, 0, [.beat (bt 4 true false)], [], 0⟩, fq thr0 [(2, two)], ?_, ?_, ?_, ?_, ?_, ?_, ?_, rfl, rfl⟩ <;> first | decide +kernel | (simp only [issuesNext, headIs, funsIdle]; decide +kernel),
    by refine ⟨0, red0, 600, 2, ((operate ⟨red0, {}, 0, [.beat (bt 4 true false)], [], 0⟩).row.getD {}), bt 4 true false, [bt 4 false true], ⟨red0, {}, 0, [.beat (bt 4 true false)], [], 0⟩, fq red0 [(2, two)], ?_, ?_, ?_, ?_, ?_, ?_, ?_, ?_, rfl, rfl⟩ <;> first | decide +kernel | (simp only [issuesNext, headIs, funsIdle]; decide +kernel)⟩

/-- The hypotheses of OperationsComputeRows can be met. -/
theorem witness_OperationsComputeRows :
    (∃ (x : Int) (v : Int) (n : Nat), 1 ≤ n ∧ v = scaleBy x (-(n : Int))) ∧
    (∃ (x : Int) (v : Int) (n : Nat), 1 ≤ n ∧ v = scaleBy x (-(n : Int)) ∧ 2 * (x - v * 2 ^ n).natAbs = 2 ^ n) ∧
    (∃ (i : FIn) (x : Nat → Int) (u : Int), readsRow i.w i.a x u ∧ opcode i.w = 0x11) ∧
    (∃ (i : FIn) (x : Nat → Int) (u : Int), readsRow i.w i.a x u ∧ opcode i.w = 0x12) ∧
    (∃ (i : FIn) (x : Nat → Int) (z : Nat → Int) (u : Int), readsRow i.w i.a x u ∧ opcode i.w = 0x10 ∧ ((∀ n : Nat, n < wLen i.w → z n = max (-32768) (min 32767 (scaleBy (x n) (u + 40 - (bits (tableAt i 0) 0 6 : Nat)) + (if wf i.w 14 1 = 1 then sext 16 (bits (tableAt i (129 + n / 4)) (16 * (n % 4)) 16) else 0)))))) ∧
    (∃ (i : FIn) (x : Nat → Int) (z : Nat → Int) (u : Int) (mx : Int), readsRow i.w i.a x u ∧ opcode i.w = 0x14 ∧ ((∃ n : Nat, n < wLen i.w ∧ x n = mx)) ∧ ((∀ n : Nat, n < wLen i.w → x n ≤ mx)) ∧ ((∀ n : Nat, n < wLen i.w → z n = max (-32768) (scaleBy (x n - mx) (u + 40 - (bits (tableAt i 0) 0 6 : Nat)))))) ∧
    (∃ (i : FIn) (x : Nat → Int) (g : Nat → Int) (o : Nat → Int) (u : Int) (tot : Int) (q : Int) (d : Int) (dn : Int) (k : Nat) (rho : Nat), readsRow i.w i.a x u ∧ opcode i.w = 0x13 ∧ tot = ((List.range (wLen i.w)).map x).sum ∧ q = ((List.range (wLen i.w)).map (fun n => x n * x n)).sum ∧ d = wLen i.w * q - tot * tot + 2 ^ wf i.w 14 5 ∧ d < 2 ^ (32 + 2 * k) ∧ ((0 < k → 2 ^ (30 + 2 * k) ≤ d)) ∧ dn = scaleBy d (-(2 * k : Nat)) ∧ (2 * (rho : Int) - 1) * (2 * rho - 1) * dn ≤ 2 ^ 96 ∧ 2 ^ 96 ≤ (2 * (rho : Int) + 1) * (2 * rho + 1) * dn ∧ ((rho % 2 = 1 → (2 * (rho : Int) - 1) * (2 * rho - 1) * dn < 2 ^ 96 ∧ 2 ^ 96 < (2 * (rho : Int) + 1) * (2 * rho + 1) * dn)) ∧ ((∀ n : Nat, n < wLen i.w → g n = sext 16 (bits (tableAt i (n / 4)) (16 * (n % 4)) 16) ∧ o n = sext 16 (bits (tableAt i ((wLen i.w + 3) / 4 + n / 4)) (16 * (n % 4)) 16)))) ∧
    (∃ (i : FIn) (x : Nat → Int) (u : Int) (tot : Int), readsRow i.w i.a x u ∧ opcode i.w = 0x15 ∧ tot = ((List.range (wLen i.w)).map x).sum ∧ tot ≤ 0) ∧
    (∃ (i : FIn) (x : Nat → Int) (u : Int) (tot : Int), readsRow i.w i.a x u ∧ opcode i.w = 0x15 ∧ tot = ((List.range (wLen i.w)).map x).sum ∧ tot ≤ 0) ∧
    (∃ (i : FIn) (x : Nat → Int) (u : Int) (tot : Int), readsRow i.w i.a x u ∧ opcode i.w = 0x15 ∧ tot = ((List.range (wLen i.w)).map x).sum ∧ tot ≤ 0) ∧
    (∃ (i : FIn) (x : Nat → Int) (u : Int) (tot : Int) (sn : Int) (k : Nat) (rho : Nat), readsRow i.w i.a x u ∧ opcode i.w = 0x15 ∧ tot = ((List.range (wLen i.w)).map x).sum ∧ 0 < tot ∧ tot < 2 ^ (24 + k) ∧ ((0 < k → 2 ^ (23 + k) ≤ tot)) ∧ sn = scaleBy tot (-(k : Int)) ∧ 2 * (2 ^ 48 - rho * sn).natAbs ≤ sn ∧ ((2 * (2 ^ 48 - rho * sn).natAbs = sn → rho % 2 = 0))) ∧
    (∃ (i : FIn) (x : Nat → Nat → Int) (u : Nat → Int) (y : Nat → Int) (m : Int) (per : Nat), opcode i.w = 0x17 ∧ per = (if wSrc i.w = 16 then 1 else beatsFor (wLen i.w)) ∧ ((∀ j : Nat, j < wNobj i.w → readsRow i.w (slice i.a (per * j) per) (x j) (u j) ∧ m ≤ u j)) ∧ ((∃ j : Nat, j < wNobj i.w ∧ u j = m)) ∧ ((wf i.w 6 1 = 1 → ∀ n : Nat, n < wLen i.w → y n = ((List.range (wNobj i.w)).map (fun j => x j n * 2 ^ (u j - m).toNat)).sum)) ∧ ((wf i.w 6 1 = 0 → ∀ n : Nat, n < wLen i.w → (∃ j : Nat, j < wNobj i.w ∧ y n = x j n * 2 ^ (u j - m).toNat) ∧ ∀ j : Nat, j < wNobj i.w → x j n * 2 ^ (u j - m).toNat ≤ y n))) ∧
    (∃ (i : FIn) (x : Nat → Int) (x' : Nat → Int) (y : Nat → Int) (v : Nat → Int) (u : Int) (u' : Int) (m : Int) (e : BitVec 6), opcode i.w = 0x16 ∧ wf i.w 5 2 = 0 ∧ readsRow i.w i.a x u ∧ ((i.b = [] ∧ m = u ∧ (∀ n : Nat, n < wLen i.w → y n = x n) ∨ i.b ≠ [] ∧ readsRow i.w i.b x' u' ∧ m = min u u' ∧ (∀ n : Nat, n < wLen i.w → y n = x n * 2 ^ (u - m).toNat + x' n * 2 ^ (u' - m).toNat))) ∧ ((∀ n : Nat, n < 32 → v n = (if n < wLen i.w then max (-(2 ^ 47)) (min (2 ^ 47 - 1) (scaleBy (y n) (m - ((e.toNat : Int) - 32 - wf i.w 8 6)))) else 0))) ∧ wf i.w 7 1 = 0 ∧ wDst i.w ≠ 16) ∧
    (∃ (i : FIn) (x : Nat → Int) (x' : Nat → Int) (y : Nat → Int) (v : Nat → Int) (u : Int) (u' : Int) (m : Int) (e : BitVec 6), opcode i.w = 0x16 ∧ wf i.w 5 2 = 0 ∧ readsRow i.w i.a x u ∧ ((i.b = [] ∧ m = u ∧ (∀ n : Nat, n < wLen i.w → y n = x n) ∨ i.b ≠ [] ∧ readsRow i.w i.b x' u' ∧ m = min u u' ∧ (∀ n : Nat, n < wLen i.w → y n = x n * 2 ^ (u - m).toNat + x' n * 2 ^ (u' - m).toNat))) ∧ ((∀ n : Nat, n < 32 → v n = (if n < wLen i.w then max (-(2 ^ 47)) (min (2 ^ 47 - 1) (scaleBy (y n) (m - ((e.toNat : Int) - 32 - wf i.w 8 6)))) else 0))) ∧ wDst i.w = 16 ∧ beatRow i.a (wLen i.w) x e) ∧
    (∃ (i : FIn) (x : Nat → Int) (x' : Nat → Int) (y : Nat → Int) (v : Nat → Int) (u : Int) (u' : Int) (m : Int) (e : BitVec 6), opcode i.w = 0x16 ∧ wf i.w 5 2 = 0 ∧ readsRow i.w i.a x u ∧ ((i.b = [] ∧ m = u ∧ (∀ n : Nat, n < wLen i.w → y n = x n) ∨ i.b ≠ [] ∧ readsRow i.w i.b x' u' ∧ m = min u u' ∧ (∀ n : Nat, n < wLen i.w → y n = x n * 2 ^ (u - m).toNat + x' n * 2 ^ (u' - m).toNat))) ∧ ((∀ n : Nat, n < 32 → v n = (if n < wLen i.w then max (-(2 ^ 47)) (min (2 ^ 47 - 1) (scaleBy (y n) (m - ((e.toNat : Int) - 32 - wf i.w 8 6)))) else 0))) ∧ wf i.w 7 1 = 1 ∧ wDst i.w ≠ 16 ∧ beatRow i.a (wLen i.w) x e) ∧
    (∃ (i : FIn) (x : Nat → Int) (x' : Nat → Int) (y : Nat → Int) (v : Nat → Int) (u : Int) (u' : Int) (m : Int) (e : BitVec 6), opcode i.w = 0x16 ∧ wf i.w 5 2 = 0 ∧ readsRow i.w i.a x u ∧ ((i.b = [] ∧ m = u ∧ (∀ n : Nat, n < wLen i.w → y n = x n) ∨ i.b ≠ [] ∧ readsRow i.w i.b x' u' ∧ m = min u u' ∧ (∀ n : Nat, n < wLen i.w → y n = x n * 2 ^ (u - m).toNat + x' n * 2 ^ (u' - m).toNat))) ∧ ((∀ n : Nat, n < 32 → v n = (if n < wLen i.w then max (-(2 ^ 47)) (min (2 ^ 47 - 1) (scaleBy (y n) (m - ((e.toNat : Int) - 32 - wf i.w 8 6)))) else 0))) ∧ wf i.w 7 1 = 1 ∧ wDst i.w ≠ 16 ∧ beatRow i.a (wLen i.w) x e) ∧
    (∃ (i : FIn) (x : Nat → Int) (x' : Nat → Int) (y : Nat → Int) (v : Nat → Int) (u : Int) (u' : Int) (m : Int) (e : BitVec 6) (n : Nat), opcode i.w = 0x16 ∧ wf i.w 5 2 = 0 ∧ readsRow i.w i.a x u ∧ ((i.b = [] ∧ m = u ∧ (∀ n : Nat, n < wLen i.w → y n = x n) ∨ i.b ≠ [] ∧ readsRow i.w i.b x' u' ∧ m = min u u' ∧ (∀ n : Nat, n < wLen i.w → y n = x n * 2 ^ (u - m).toNat + x' n * 2 ^ (u' - m).toNat))) ∧ ((∀ n : Nat, n < 32 → v n = (if n < wLen i.w then max (-(2 ^ 47)) (min (2 ^ 47 - 1) (scaleBy (y n) (m - ((e.toNat : Int) - 32 - wf i.w 8 6)))) else 0))) ∧ wf i.w 7 1 = 1 ∧ wDst i.w ≠ 16 ∧ beatRow i.a (wLen i.w) x e ∧ n < 32) ∧
    (∃ (i : FIn) (b : Beat) (y : Beat) (len : Nat), i.a = [.beat b] ∧ i.b = [] ∧ opcode i.w = 0x18 ∧ len = min 16 (wLen i.w) ∧ (operate i).beats.head? = some y) ∧
    (∃ (i : FIn) (b : Beat) (y : Beat) (len : Nat), i.a = [.beat b] ∧ i.b = [] ∧ opcode i.w = 0x18 ∧ len = min 16 (wLen i.w) ∧ (operate i).beats.head? = some y ∧ wf i.w 0 1 = 1) ∧
    (∃ (i : FIn) (b : Beat) (y : Beat) (len : Nat), i.a = [.beat b] ∧ i.b = [] ∧ opcode i.w = 0x18 ∧ len = min 16 (wLen i.w) ∧ (operate i).beats.head? = some y ∧ wf i.w 0 1 = 0) ∧
    (∃ (i : FIn) (b : Beat) (y : Beat) (len : Nat) (j : Nat), i.a = [.beat b] ∧ i.b = [] ∧ opcode i.w = 0x18 ∧ len = min 16 (wLen i.w) ∧ (operate i).beats.head? = some y ∧ len ≤ j ∧ j < 16) ∧
    (∃ (i : FIn) (b : Beat) (y : Beat) (len : Nat), i.a = [.beat b] ∧ i.b = [] ∧ opcode i.w = 0x18 ∧ len = min 16 (wLen i.w) ∧ (operate i).beats.head? = some y) ∧
    (∃ (i : FIn) (b : Beat) (y : Beat) (len : Nat), i.a = [.beat b] ∧ i.b = [] ∧ opcode i.w = 0x18 ∧ len = min 16 (wLen i.w) ∧ (operate i).beats.head? = some y) ∧
    (∃ (i : FIn) (b : Beat) (y : Beat) (len : Nat), i.a = [.beat b] ∧ i.b = [] ∧ opcode i.w = 0x18 ∧ len = min 16 (wLen i.w) ∧ (operate i).beats.head? = some y) ∧
    (∃ (i : FIn) (b : Beat) (y : Beat) (len : Nat), i.a = [.beat b] ∧ i.b = [] ∧ opcode i.w = 0x18 ∧ len = min 16 (wLen i.w) ∧ (operate i).beats.head? = some y) ∧
    (∃ (i : FIn) (b : Beat) (y : Beat) (len : Nat), i.a = [.beat b] ∧ i.b = [] ∧ opcode i.w = 0x18 ∧ len = min 16 (wLen i.w) ∧ (operate i).beats.head? = some y ∧ wf i.w 1 1 = 1) ∧
    (∃ (i : FIn) (x : Nat → Int) (e : BitVec 6) (k : Nat) (y : Beat), opcode i.w = 0x19 ∧ beatRow i.a (wLen i.w) x e ∧ k = min (wf i.w 0 4 + 1) (wLen i.w) ∧ (operate i).beats.head? = some y) ∧
    (∃ (i : FIn) (x : Nat → Int) (e : BitVec 6) (k : Nat) (y : Beat) (j : Nat), opcode i.w = 0x19 ∧ beatRow i.a (wLen i.w) x e ∧ k = min (wf i.w 0 4 + 1) (wLen i.w) ∧ (operate i).beats.head? = some y ∧ k ≤ j ∧ j < 16) ∧
    (∃ (i : FIn) (x : Nat → Int) (e : BitVec 6) (k : Nat) (y : Beat) (j : Nat), opcode i.w = 0x19 ∧ beatRow i.a (wLen i.w) x e ∧ k = min (wf i.w 0 4 + 1) (wLen i.w) ∧ (operate i).beats.head? = some y ∧ j < k) ∧
    (∃ (i : FIn) (x : Nat → Int) (e : BitVec 6) (k : Nat) (y : Beat) (j : Nat), opcode i.w = 0x19 ∧ beatRow i.a (wLen i.w) x e ∧ k = min (wf i.w 0 4 + 1) (wLen i.w) ∧ (operate i).beats.head? = some y ∧ j < k) ∧
    (∃ (i : FIn) (x : Nat → Int) (e : BitVec 6) (k : Nat) (y : Beat), opcode i.w = 0x19 ∧ beatRow i.a (wLen i.w) x e ∧ k = min (wf i.w 0 4 + 1) (wLen i.w) ∧ (operate i).beats.head? = some y ∧ wf i.w 4 1 = 1) ∧
    (∃ (i : FIn) (x : Nat → Int) (ix : Nat → Int) (e : BitVec 6) (d : BitVec 6), beatRow i.b (wNidx i.w) ix d ∧ opcode i.w = 0x1A ∧ beatRow i.a (wLen i.w) x e) ∧
    (∃ (i : FIn) (x : Nat → Int) (ix : Nat → Int) (e : BitVec 6) (d : BitVec 6), beatRow i.b (wNidx i.w) ix d ∧ opcode i.w = 0x1A ∧ beatRow i.a (wLen i.w) x e) ∧
    (∃ (i : FIn) (x : Nat → Int) (ix : Nat → Int) (e : BitVec 6) (d : BitVec 6), beatRow i.b (wNidx i.w) ix d ∧ opcode i.w = 0x1A ∧ beatRow i.a (wLen i.w) x e) ∧
    (∃ (i : FIn) (x : Nat → Int) (ix : Nat → Int) (e : BitVec 6) (d : BitVec 6) (j : Nat), beatRow i.b (wNidx i.w) ix d ∧ opcode i.w = 0x1A ∧ beatRow i.a (wLen i.w) x e ∧ j < 16 * (operate i).beats.length) ∧
    (∃ (i : FIn) (x : Nat → Int) (ix : Nat → Int) (e : BitVec 6) (d : BitVec 6), beatRow i.b (wNidx i.w) ix d ∧ opcode i.w = 0x1B ∧ beatRow i.a (wNidx i.w) x e) ∧
    (∃ (i : FIn) (x : Nat → Int) (ix : Nat → Int) (e : BitVec 6) (d : BitVec 6), beatRow i.b (wNidx i.w) ix d ∧ opcode i.w = 0x1B ∧ beatRow i.a (wNidx i.w) x e) ∧
    (∃ (i : FIn) (x : Nat → Int) (ix : Nat → Int) (e : BitVec 6) (d : BitVec 6) (n : Nat) (j : Nat), beatRow i.b (wNidx i.w) ix d ∧ opcode i.w = 0x1B ∧ beatRow i.a (wNidx i.w) x e ∧ n < 16 * (operate i).beats.length ∧ j < wNidx i.w ∧ ix j = n ∧ n < wLen i.w ∧ ((∀ l : Nat, j < l → l < wNidx i.w → ix l ≠ n))) ∧
    (∃ (i : FIn) (x : Nat → Int) (ix : Nat → Int) (e : BitVec 6) (d : BitVec 6) (n : Nat), beatRow i.b (wNidx i.w) ix d ∧ opcode i.w = 0x1B ∧ beatRow i.a (wNidx i.w) x e ∧ n < 16 * (operate i).beats.length ∧ (wLen i.w ≤ n ∨ (∀ j : Nat, j < wNidx i.w → ix j ≠ n))) ∧
    (∃ (i : FIn) (x : Nat → Int) (u : Int) (boff : Nat), opcode i.w = 0x1C ∧ readsRow i.w i.a x u ∧ boff = wf i.w 14 5 ∧ boff + wLen i.w ≤ 32) :=
  ⟨⟨5, scaleBy 5 (-1), 1, by decide +kernel⟩,
    ⟨5, scaleBy 5 (-1), 1, by decide +kernel⟩,
    by refine ⟨sI 0x11 2 [], sX, -23, (readsRow_of [sB] rfl (by decide +kernel)), ?_⟩; decide +kernel,
    by refine ⟨sI 0x12 2 [(37, 12)], sX, -23, (readsRow_of [sB] rfl (by decide +kernel)), ?_⟩; decide +kernel,
    by refine ⟨sI 0x10 2 [], sX, fun n => max (-32768) (min 32767 (scaleBy (sX n) (-23 + 40 - (bits (tableAt (sI 0x10 2 []) 0) 0 6 : Nat)) + (if wf (sI 0x10 2 []).w 14 1 = 1 then sext 16 (bits (tableAt (sI 0x10 2 []) (129 + n / 4)) (16 * (n % 4)) 16) else 0))), -23, (readsRow_of [sB] rfl (by decide +kernel)), ?_⟩; decide +kernel,
    by refine ⟨sI 0x14 2 [], sX, fun n => max (-32768) (scaleBy (sX n - 4) (-23 + 40 - (bits (tableAt (sI 0x14 2 []) 0) 0 6 : Nat))), -23, 4, (readsRow_of [sB] rfl (by decide +kernel)), ?_⟩; decide +kernel,
    by refine ⟨sI 0x13 2 [], sX, fun _ => 0, fun _ => 0, -23, 9, 31, 75, 75, 0, 16250965357404, (readsRow_of [sB] rfl (by decide +kernel)), ?_⟩; decide +kernel,
    by refine ⟨{ sI 0x15 2 [] with a := [.beat zeroBeat] }, fun _ => 0, -32, 0, (readsRow_of [zeroBeat] rfl (by decide +kernel)), ?_⟩; decide +kernel,
    by refine ⟨{ sI 0x15 2 [] with a := [.beat zeroBeat] }, fun _ => 0, -32, 0, (readsRow_of [zeroBeat] rfl (by decide +kernel)), ?_⟩; decide +kernel,
    by refine ⟨{ sI 0x15 2 [] with a := [.beat zeroBeat] }, fun _ => 0, -32, 0, (readsRow_of [zeroBeat] rfl (by decide +kernel)), ?_⟩; decide +kernel,
    by refine ⟨sI 0x15 2 [], sX, -23, 9, 9, 0, 31274997412295, (readsRow_of [sB] rfl (by decide +kernel)), ?_⟩; decide +kernel,
    by refine ⟨{ sI 0x17 2 [(0, 1), (6, 1)] with a := [.beat sB, .beat sB] }, fun _ => sX, fun _ => -23, fun n => 2 * sX n, -23, 1, ?_, ?_, (fun j hj => match j, hj with
      | 0, _ => ⟨readsRow_of [sB] rfl (by decide +kernel), by decide +kernel⟩
      | 1, _ => ⟨readsRow_of [sB] rfl (by decide +kernel), by decide +kernel⟩
      | _ + 2, h => absurd (Nat.lt_of_lt_of_eq h (show _ = 2 from by decide +kernel)) (by omega)), ?_⟩ <;> decide +kernel,
    by refine ⟨sI 0x16 2 [], sX, fun _ => 0, sX, fun n => if n < 5 then sX n else 0, -23, 0, -23, 9, ?_, ?_, (readsRow_of [sB] rfl (by decide +kernel)), (Or.inl ⟨rfl, rfl, fun n _ => rfl⟩), ?_⟩ <;> decide +kernel,
    by refine ⟨sI 0x16 16 [], sX, fun _ => 0, sX, fun n => if n < 5 then sX n else 0, -23, 0, -23, 9, ?_, ?_, (readsRow_of [sB] rfl (by decide +kernel)), (Or.inl ⟨rfl, rfl, fun n _ => rfl⟩), ?_, ?_, (beatRow_of [sB] rfl (by decide +kernel))⟩ <;> decide +kernel,
    by refine ⟨sI 0x16 2 [(7, 1)], sX, fun _ => 0, sX, fun n => if n < 5 then sX n else 0, -23, 0, -23, 9, ?_, ?_, (readsRow_of [sB] rfl (by decide +kernel)), (Or.inl ⟨rfl, rfl, fun n _ => rfl⟩), ?_, ?_, ?_, (beatRow_of [sB] rfl (by decide +kernel))⟩ <;> decide +kernel,
    by refine ⟨sI 0x16 2 [(7, 1)], sX, fun _ => 0, sX, fun n => if n < 5 then sX n else 0, -23, 0, -23, 9, ?_, ?_, (readsRow_of [sB] rfl (by decide +kernel)), (Or.inl ⟨rfl, rfl, fun n _ => rfl⟩), ?_, ?_, ?_, (beatRow_of [sB] rfl (by decide +kernel))⟩ <;> decide +kernel,
    by refine ⟨sI 0x16 2 [(7, 1)], sX, fun _ => 0, sX, fun n => if n < 5 then sX n else 0, -23, 0, -23, 9, 4, ?_, ?_, (readsRow_of [sB] rfl (by decide +kernel)), (Or.inl ⟨rfl, rfl, fun n _ => rfl⟩), ?_, ?_, ?_, (beatRow_of [sB] rfl (by decide +kernel)), ?_⟩ <;> decide +kernel,
    ⟨sIn 1, sB, sOut 1, 5, by decide +kernel⟩,
    ⟨sIn 1, sB, sOut 1, 5, by decide +kernel⟩,
    ⟨sIn 0, sB, sOut 0, 5, by decide +kernel⟩,
    ⟨sIn 1, sB, sOut 1, 5, 5, by decide +kernel⟩,
    ⟨sIn 1, sB, sOut 1, 5, by decide +kernel⟩,
    ⟨sIn 1, sB, sOut 1, 5, by decide +kernel⟩,
    ⟨sIn 1, sB, sOut 1, 5, by decide +kernel⟩,
    ⟨sIn 1, sB, sOut 1, 5, by decide +kernel⟩,
    ⟨⟨W [(58, 0x18), (27, 4), (0, 1), (1, 1)], {}, 0, [.beat sB], [], 0⟩, sB, (operate ⟨W [(58, 0x18), (27, 4), (0, 1), (1, 1)], {}, 0, [.beat sB], [], 0⟩).beats.headD zeroBeat, 5, by decide +kernel⟩,
    by refine ⟨sI 0x19 2 [(0, 2), (4, 1)], sX, 9, 3, (operate (sI 0x19 2 [(0, 2), (4, 1)])).beats.headD zeroBeat, ?_, (beatRow_of [sB] rfl (by decide +kernel)), ?_⟩ <;> decide +kernel,
    by refine ⟨sI 0x19 2 [(0, 2), (4, 1)], sX, 9, 3, (operate (sI 0x19 2 [(0, 2), (4, 1)])).beats.headD zeroBeat, 15, ?_, (beatRow_of [sB] rfl (by decide +kernel)), ?_⟩ <;> decide +kernel,
    by refine ⟨sI 0x19 2 [(0, 2), (4, 1)], sX, 9, 3, (operate (sI 0x19 2 [(0, 2), (4, 1)])).beats.headD zeroBeat, 2, ?_, (beatRow_of [sB] rfl (by decide +kernel)), ?_⟩ <;> decide +kernel,
    by refine ⟨sI 0x19 2 [(0, 2), (4, 1)], sX, 9, 3, (operate (sI 0x19 2 [(0, 2), (4, 1)])).beats.headD zeroBeat, 2, ?_, (beatRow_of [sB] rfl (by decide +kernel)), ?_⟩ <;> decide +kernel,
    by refine ⟨sI 0x19 2 [(0, 2), (4, 1)], sX, 9, 3, (operate (sI 0x19 2 [(0, 2), (4, 1)])).beats.headD zeroBeat, ?_, (beatRow_of [sB] rfl (by decide +kernel)), ?_⟩ <;> decide +kernel,
    by refine ⟨{ sI 0x1A 2 [(5, 3)] with b := [.beat ixB] }, sX, ixN, 9, 32, (beatRow_of [ixB] rfl (by decide +kernel)), ?_, (beatRow_of [sB] rfl (by decide +kernel))⟩; decide +kernel,
    by refine ⟨{ sI 0x1A 2 [(5, 3)] with b := [.beat ixB] }, sX, ixN, 9, 32, (beatRow_of [ixB] rfl (by decide +kernel)), ?_, (beatRow_of [sB] rfl (by decide +kernel))⟩; decide +kernel,
    by refine ⟨{ sI 0x1A 2 [(5, 3)] with b := [.beat ixB] }, sX, ixN, 9, 32, (beatRow_of [ixB] rfl (by decide +kernel)), ?_, (beatRow_of [sB] rfl (by decide +kernel))⟩; decide +kernel,
    by refine ⟨{ sI 0x1A 2 [(5, 3)] with b := [.beat ixB] }, sX, ixN, 9, 32, 1, (beatRow_of [ixB] rfl (by decide +kernel)), ?_, (beatRow_of [sB] rfl (by decide +kernel)), ?_⟩ <;> decide +kernel,
    by refine ⟨{ sI 0x1B 2 [(5, 3)] with b := [.beat ixB] }, sX, ixN, 9, 32, (beatRow_of [ixB] rfl (by decide +kernel)), ?_, (beatRow_of [sB] rfl (by decide +kernel))⟩; decide +kernel,
    by refine ⟨{ sI 0x1B 2 [(5, 3)] with b := [.beat ixB] }, sX, ixN, 9, 32, (beatRow_of [ixB] rfl (by decide +kernel)), ?_, (beatRow_of [sB] rfl (by decide +kernel))⟩; decide +kernel,
    by refine ⟨{ sI 0x1B 2 [(5, 3)] with b := [.beat ixB] }, sX, ixN, 9, 32, 2, 1, (beatRow_of [ixB] rfl (by decide +kernel)), ?_, (beatRow_of [sB] rfl (by decide +kernel)), ?_, ?_, ?_, ?_, (fun l h1 h2 => (show ∀ l : Nat, l < 4 → 1 < l → ixN l ≠ ((2 : Nat) : Int) from by decide +kernel) l (Nat.lt_of_lt_of_eq h2 (show _ = 4 from by decide +kernel)) h1)⟩ <;> decide +kernel,
    by refine ⟨{ sI 0x1B 2 [(5, 3)] with b := [.beat ixB] }, sX, ixN, 9, 32, 1, (beatRow_of [ixB] rfl (by decide +kernel)), ?_, (beatRow_of [sB] rfl (by decide +kernel)), ?_⟩ <;> decide +kernel,
    by refine ⟨sI 0x1C 2 [(14, 3), (19, 1)], sX, -23, 3, ?_, (readsRow_of [sB] rfl (by decide +kernel)), ?_⟩ <;> decide +kernel⟩

/-- The hypotheses of SteeringForwardsRows can be met. -/
theorem witness_SteeringForwardsRows :
    (∃ (c : Instr) (k : ClusterIx) (op : Nat) (i : Nat) (o : Nat) (t : Nat) (j : Nat) (b : Beat) (r : List Beat) (s : State), s.runs = true ∧ s.is (fSteEnable k.val) = true ∧ funsIdle s k.val ∧ s.fld (fSteOp k.val) = op ∧ t = max s.clock.now (s.steer k.val).busy ∧ (s.steer k.val).jobs = [] ∧ (s.steer k.val).waitSince = none ∧ (s.steer k.val).nextMap = none ∧ headIs s (steerIn k.val i) b r t ∧ ((c = .merge k ∧ op = 0 ∧ i ≤ s.fld (fSteNin k.val) ∧ o = s.fld (fSteOut k.val 0) ∧ (∀ n : Nat, n ≤ s.fld (fSteNin k.val) → n ≠ i → qReady s (steerIn k.val n) = true → (s.steer k.val).headAt.getD i 0 < (s.steer k.val).headAt.getD n 0 ∨ ((s.steer k.val).headAt.getD i 0 = (s.steer k.val).headAt.getD n 0 ∧ i < n)) ∨ c = .splitRows k ∧ op = 1 ∧ i = 0 ∧ j = (if (s.steer k.val).splitTag = some b.tag then (s.steer k.val).splitCount else 0) ∧ o = s.fld (fSteOut k.val (j % (s.fld (fSteNout k.val) + 1))))) ∧ maySend s (bankQ k.val o) = true) ∧
    (∃ (k : ClusterIx) (t : Nat) (b : Beat) (r : List Beat) (q : QueueId) (s : State), s.runs = true ∧ s.is (fSteEnable k.val) = true ∧ funsIdle s k.val ∧ 2 ≤ s.fld (fSteOp k.val) ∧ (s.steer k.val).token = none ∧ t = max s.clock.now (s.steer k.val).busy ∧ q = .bank k (Fin.ofNat 16 (s.fld (fSteTokq k.val))) ∧ headIs s q b r t) ∧
    (∃ (c : Instr) (k : ClusterIx) (op : Nat) (t : Nat) (out : Option Nat) (tok : Beat) (b : Beat) (r : List Beat) (s : State), s.runs = true ∧ s.is (fSteEnable k.val) = true ∧ funsIdle s k.val ∧ s.fld (fSteOp k.val) = op ∧ t = max s.clock.now (s.steer k.val).busy ∧ (s.steer k.val).token = some tok ∧ (s.steer k.val).jobs = [] ∧ (s.steer k.val).waitSince = none ∧ (s.steer k.val).nextMap = none ∧ headIs s (steerIn k.val 0) b r t ∧ ((c = .route k ∧ op = 3 ∧ out = (if bits tok.mant.toNat 0 12 ≤ s.fld (fSteNout k.val) then some (s.fld (fSteOut k.val (bits tok.mant.toNat 0 12))) else none) ∨ c = .mask k ∧ op = 4 ∧ out = (if bits tok.mant.toNat 0 1 = 1 then some (s.fld (fSteOut k.val 0)) else none) ∨ c = .pack k ∧ op = 5 ∧ out = (if tokenMask tok (s.steer k.val).slot = true then some (s.fld (fSteOut k.val 0)) else none) ∧ (s.steer k.val).slot + 1 < slotCount s k.val ∨ c = .unpack k ∧ op = 6 ∧ out = some (s.fld (fSteOut k.val 0)) ∧ tokenMask tok (s.steer k.val).slot = true ∧ (s.steer k.val).slot + 1 < slotCount s k.val)) ∧ ((∀ o : Nat, out = some o → maySend s (bankQ k.val o) = true))) ∧
    (∃ (k : ClusterIx) (t : Nat) (tok : Beat) (b : Beat) (r : List Beat) (s : State), s.runs = true ∧ s.is (fSteEnable k.val) = true ∧ funsIdle s k.val ∧ s.fld (fSteOp k.val) = 5 ∧ t = max s.clock.now (s.steer k.val).busy ∧ (s.steer k.val).token = some tok ∧ (s.steer k.val).jobs = [] ∧ (s.steer k.val).waitSince = none ∧ (s.steer k.val).nextMap = none ∧ headIs s (steerIn k.val 0) b r t ∧ b.last = true ∧ (s.steer k.val).slot + 1 = slotCount s k.val ∧ tokenMask tok (s.steer k.val).slot = false ∧ maySend s (bankQ k.val (s.fld (fSteCntq k.val))) = true) ∧
    (∃ (k : ClusterIx) (t : Nat) (tok : Beat) (s : State), s.runs = true ∧ s.is (fSteEnable k.val) = true ∧ funsIdle s k.val ∧ s.fld (fSteOp k.val) = 6 ∧ t = max s.clock.now (s.steer k.val).busy ∧ (s.steer k.val).token = some tok ∧ (s.steer k.val).jobs = [] ∧ (s.steer k.val).waitSince = none ∧ (s.steer k.val).nextMap = none ∧ (s.cluster k.val).arrivals = [] ∧ tokenMask tok (s.steer k.val).slot = false ∧ maySend s (bankQ k.val (s.fld (fSteOut k.val 0))) = true) ∧
    (∃ (k : ClusterIx) (t : Nat) (v : Nat) (tok : Beat) (b : Beat) (r : List Beat) (s : State), s.runs = true ∧ s.is (fSteEnable k.val) = true ∧ funsIdle s k.val ∧ s.fld (fSteOp k.val) = 2 ∧ t = max s.clock.now (s.steer k.val).busy ∧ (s.steer k.val).token = some tok ∧ (s.steer k.val).jobs = [] ∧ (s.steer k.val).waitSince = none ∧ (s.steer k.val).nextMap = none ∧ headIs s (steerIn k.val 0) b r t ∧ v = bits tok.mant.toNat 0 12 ∧ ((∀ i : Nat, i ≤ s.fld (fSteNin k.val) → qReady s (steerIn k.val i) = true)) ∧ maySend s (bankQ k.val (s.fld (fSteOut k.val 0))) = true) :=
  ⟨⟨.splitRows 0, 0, 1, 0, 9, 605, 1, bt 4 true false, [bt 4 false true], ste 1 [(fSteNout 0, 1)] { splitTag := some 3, splitCount := 1 }, by unfold headIs funsIdle; decide +kernel⟩,
    ⟨0, 605, bt 4 true false, [bt 4 false true], .bank 0 5, { ste 3 [] {} with bankQ := [(5, two)] }, by unfold headIs funsIdle; decide +kernel⟩,
    ⟨.pack 0, 0, 5, 605, some 15, tk 0x2, bt 4 true false, [bt 4 false true], ste 5 [] { token := some (tk 0x2), slot := 1 }, by unfold headIs funsIdle; decide +kernel⟩,
    ⟨0, 605, tk 0x0, bt 4 true true, [], { ste 5 [(fSteSlots 0, 2)] { token := some (tk 0x0), slot := 1, packed := 1 } with steerQ := [(0, { beats := [bt 4 true true] })] }, by unfold headIs funsIdle; decide +kernel⟩,
    ⟨0, 605, tk 0x1, ste 6 [(fSteSlots 0, 2), (fSteZbeats 0, 0)] { token := some (tk 0x1), slot := 1 }, by unfold funsIdle; decide +kernel⟩,
    ⟨0, 605, 0, tk 0x0, bt 4 true false, [bt 4 false true], ste 2 [] { token := some (tk 0x0) }, by unfold headIs funsIdle; decide +kernel⟩⟩

/-- The hypotheses of QueueEventsMoveBeats can be met. -/
theorem witness_QueueEventsMoveBeats :
    (∃ (u : UnitIx) (p : Port) (l : LinkBeat) (q : QueueId) (s : State), q = .port u p ∧ s.links.find? (fun x => decide (x.unit = u.val) && decide (x.port = portNat p)) = some l ∧ s.idleRegion (unitRegion u.val) = false ∧ l.injected = false ∧ s.is (fPtEn u.val (portNat p)) = false ∧ injector s u.val (portNat p) = none ∧ l.epoch = expects s u.val (portNat p) ∧ (s.queue q).discarding = false ∧ (s.queue q).beats.length < 8) ∧
    (∃ (u : UnitIx) (p : Port) (l : LinkBeat) (q : QueueId) (s : State), q = .port u p ∧ s.links.find? (fun x => decide (x.unit = u.val) && decide (x.port = portNat p)) = some l ∧ s.idleRegion (unitRegion u.val) = false ∧ l.injected = false ∧ s.is (fPtEn u.val (portNat p)) = false ∧ injector s u.val (portNat p) = none ∧ l.epoch = expects s u.val (portNat p) ∧ (s.queue q).discarding = false ∧ 8 ≤ (s.queue q).beats.length) ∧
    (∃ (u : UnitIx) (p : Port) (l : LinkBeat) (q : QueueId) (s : State), q = .port u p ∧ s.links.find? (fun x => decide (x.unit = u.val) && decide (x.port = portNat p)) = some l ∧ s.idleRegion (unitRegion u.val) = false ∧ l.injected = false ∧ s.is (fPtEn u.val (portNat p)) = false ∧ injector s u.val (portNat p) = none ∧ l.epoch ≠ expects s u.val (portNat p)) ∧
    (∃ (u : UnitIx) (p : Port) (l : LinkBeat) (q : QueueId) (s : State), q = .port u p ∧ s.links.find? (fun x => decide (x.unit = u.val) && decide (x.port = portNat p)) = some l ∧ s.idleRegion (unitRegion u.val) = false ∧ l.injected = false ∧ s.is (fPtEn u.val (portNat p)) = false ∧ injector s u.val (portNat p) = none ∧ l.epoch = expects s u.val (portNat p) ∧ (s.queue q).discarding = true) ∧
    (∃ (u : UnitIx) (p : Port) (l : LinkBeat) (q : QueueId) (s : State), q = .port u p ∧ s.links.find? (fun x => decide (x.unit = u.val) && decide (x.port = portNat p)) = some l ∧ s.idleRegion (unitRegion u.val) = false ∧ l.injected = false ∧ (injector s u.val (portNat p)).isSome = true) ∧
    (∃ (u : UnitIx) (p : Port) (l : LinkBeat) (q : QueueId) (s : State) (o : Nat) (h : Nat), q = .port u p ∧ s.links.find? (fun x => decide (x.unit = u.val) && decide (x.port = portNat p)) = some l ∧ s.idleRegion (unitRegion u.val) = false ∧ l.injected = false ∧ s.is (fPtEn u.val (portNat p)) = true ∧ injector s u.val (portNat p) = none ∧ o = s.fld (fPtOut u.val (portNat p)) ∧ (s.unit u.val).outLink = [] ∧ capturer s u.val o = none ∧ neighbour u.val o = some h) ∧
    (∃ (q : QueueId) (l : List Beat) (pre : List Beat) (post : List Beat) (x : Beat) (s : State), s.recovery = false ∧ funsIdle s (qCluster q) ∧ s.links = [] ∧ (s.cluster (qCluster q)).arrivals = [] ∧ (s.queue q).wrote = none ∧ (s.queue q).beats = l ∧ (s.queue q).discarding = false ∧ (s.queue q).pkt = true ∧ l = pre ++ x :: post ∧ ((∀ y ∈ pre, y.last = false)) ∧ x.last = true) ∧
    (∃ (q : QueueId) (l : List Beat) (s : State), s.recovery = false ∧ funsIdle s (qCluster q) ∧ s.links = [] ∧ (s.cluster (qCluster q)).arrivals = [] ∧ (s.queue q).wrote = none ∧ (s.queue q).beats = l ∧ (s.queue q).discarding = false ∧ (s.queue q).pkt = true ∧ ((∀ y ∈ l, y.last = false))) ∧
    (∃ (q : QueueId) (l : List Beat) (s : State), s.recovery = false ∧ funsIdle s (qCluster q) ∧ s.links = [] ∧ (s.cluster (qCluster q)).arrivals = [] ∧ (s.queue q).wrote = none ∧ (s.queue q).beats = l ∧ (s.queue q).discarding = false ∧ (s.queue q).pkt = false) ∧
    (∃ (k : ClusterIx) (q : Fin 16) (r : Nat) (t : Nat) (b : Beat) (l : List Beat) (dst : QueueId) (s : State), s.runs = true ∧ r = (s.raw (clusterBase k.val + 0xC00 + 0x20 * q.val + 0x18)).toNat ∧ bits r 5 1 = 1 ∧ t = s.clock.now ∧ ((∀ e ∈ (s.cluster k.val).injected, e.1 = q.val → e.2 < t)) ∧ funsIdle s k.val ∧ headIs s (.bank k q) b l t ∧ dst = .port (Fin.ofNat 4096 (8 * k.val + bits r 0 3)) (portOf (bits r 3 2)) ∧ (s.queue dst).beats.length < 8 ∧ maySend s dst = true ∧ noWaiter s dst) ∧
    (∃ (q : QueueId) (c : Nat) (r : List Nat) (s : State), (s.queue q).returning = c :: r ∧ ((∀ e ∈ s.ctxs, e.2.buf = [])) ∧ ((∀ e ∈ s.mcs, e.2.queue = []))) ∧
    (∃ (q : QueueId) (p : QueueId) (u : UnitIx) (since : Nat) (t : Nat) (h : Nat) (w : Word64) (b : Beat) (r : List Beat) (s : State), maySend s q = true ∧ creditWaiter s q = some (.dot u, since) ∧ plays s (.dot u) = true ∧ t = max since s.clock.now ∧ w = (s.tt (.dot u)).word (s.play (.dot u)).pc ∧ opcode w = 7 ∧ p = .port u (portOf (wf w 56 2)) ∧ headIs s p b r t ∧ (s.unit u.val).outLink = [] ∧ stagedLacking s u.val [wf w 54 2] = [] ∧ capturer s u.val (wf w 54 2) = none ∧ neighbour u.val (wf w 54 2) = some h) ∧
    (∃ (q : QueueId) (since : Nat) (b : Beat) (s : State), maySend s q = true ∧ creditWaiter s q = none ∧ (s.queue q).blocked = some (b, since) ∧ (s.queue q).waitSince = none) :=
  ⟨⟨0, .east, lb false, .port 0 .east, { inL with links := [lb false], portQ := [(1, { beats := List.replicate 7 (bt 4 false false) })] }, by decide +kernel⟩,
    ⟨0, .east, lb false, .port 0 .east, { inL with links := [lb false], portQ := [(1, full8)] }, by decide +kernel⟩,
    ⟨0, .east, lb true, .port 0 .east, { inL with links := [lb true] }, by decide +kernel⟩,
    ⟨0, .east, lb false, .port 0 .east, { inL with links := [lb false], portQ := [(1, { discarding := true })] }, by decide +kernel⟩,
    ⟨0, .east, lb false, .port 0 .east, { inL.setRaw (clusterBase 0 + 0xC00 + 0x20 * 3 + 0x18) 0x28 with links := [lb false] }, by decide +kernel⟩,
    ⟨0, .east, lb false, .port 0 .east, { F inL [(fPtEn 0 1, 1), (fPtOut 0 1, 2)] with links := [lb false] }, 2, 4, by decide +kernel⟩,
    ⟨.bank 0 2, thr, [bt 1 false false], [bt 3 true true], bt 2 false true, { inL with bankQ := [(2, { beats := thr, pkt := true })] }, by unfold funsIdle; decide +kernel⟩,
    ⟨.bank 0 2, [bt 1 false false], { inL with bankQ := [(2, { beats := [bt 1 false false], pkt := true })] }, by unfold funsIdle; decide +kernel⟩,
    ⟨.bank 0 2, thr, { inL with bankQ := [(2, { beats := thr })] }, by unfold funsIdle; decide +kernel⟩,
    ⟨0, 3, 0x27, 605, bt 4 true false, [bt 4 false true], .port 7 .north, { inL.setRaw (clusterBase 0 + 0xC00 + 0x20 * 3 + 0x18) 0x27 with bankQ := [(3, two)] }, by unfold headIs funsIdle noWaiter; decide +kernel⟩,
    ⟨.bank 0 2, 610, [611], { inL with bankQ := [(2, { taken := 1, returning := [610, 611] })] }, by decide +kernel⟩,
    ⟨.port 4 .north, .port 0 .east, 0, 604, 605, 4, pass0, bt 4 true false, [bt 4 false true], { asS (dot0 pass0) with units := [(0, { play := { pc := 1, at_ := 600, wait := .credit (.port 4 .north) 604 }, tt := { words := [(1, pass0)] } })] }, by unfold headIs; decide +kernel⟩,
    ⟨.bank 0 2, 604, bt 4 true false, { inL with bankQ := [(2, { blocked := some (bt 4 true false, 604) })] }, by decide +kernel⟩⟩

/-- The hypotheses of ArbitersGrantByRank can be met. -/
theorem witness_ArbitersGrantByRank :
    (∃ (a : ArbId) (ps : List Requester) (r : Requester) (here : Requester → Prop) (s : State), arbExists s a = true ∧ ((∀ x : Requester, here x ↔ (x ∈ ps ∧ asks s a x = true) ∨ ∃ c : Nat, (x, c) ∈ (s.arb a).parked)) ∧ (s.arb a).busy = false ∧ (s.arb a).emergency = false ∧ squallHolds s a = false ∧ ((∀ o : Requester, (s.arb a).owner = some o → ∃ x : Requester, here x ∧ x ≠ o)) ∧ here r ∧ ((∀ x : Requester, here x → x ≠ r → rankAt s a r < rankAt s a x))) ∧
    (∃ (a : ArbId) (s : State), arbExists s a = true ∧ (s.arb a).busy = true) ∧
    (∃ (a : ArbId) (o : Requester) (s : State), arbExists s a = true ∧ (s.arb a).busy = false ∧ (s.arb a).emergency = false ∧ squallHolds s a = false ∧ (s.arb a).owner = some o ∧ (s.arb a).parked = [] ∧ asks s a o = true) ∧
    (∃ (a : ArbId) (s : State), arbExists s a = true ∧ ((∀ (x : SiteIx) (y : Fin 32), a ≠ .egress x y)) ∧ ((∀ e ∈ s.mcs, e.2.queue = [])) ∧ (s.arb a).busy = true ∧ (s.arb a).emergency = false) ∧
    (∃ (site : SiteIx) (lead : Fin 32) (x : BitVec 14) (k : Nat) (j : Nat) (b : Beat) (r : List Beat) (s : State), s.tile site.val = 1 ∧ s.is (fGrpUp site.val lead.val) = true ∧ ((∀ e ∈ s.mcs, e.2.queue = [])) ∧ grantee s (.egress site lead) = some (.stream x) ∧ linkOfStream s site.val lead.val x.toNat = some k ∧ (s.txLink site.val k).loose = b :: r ∧ (s.retry site.val lead.val).waiting = [] ∧ nextLane s site.val (s.retry site.val lead.val).pos (ways s site.val lead.val) = some j) :=
  ⟨by refine ⟨.memory 0, [.host, .host], .desc 63 63, fun x => (x ∈ [Requester.host, Requester.host] ∧ asks arb0 (.memory 0) x = true) ∨ ∃ c : Nat, (x, c) ∈ (State.arb arb0 (.memory 0)).parked, arb0, ?_, (fun _ => Iff.rfl), ?_, ?_, ?_, (fun _ h => nomatch h), (Or.inr ⟨4, by decide +kernel⟩), (by
      rintro x (⟨hx, -⟩ | ⟨c, hc⟩) hn
      · obtain rfl : x = .host := by simpa using hx
        decide +kernel
      · rw [show (arb0.arb (.memory 0)).parked = [(.desc 63 63, 4), (.host, 5)] from by decide +kernel] at hc
        obtain ⟨rfl, -⟩ | ⟨rfl, -⟩ : (x = .desc 63 63 ∧ c = 4) ∨ (x = .host ∧ c = 5) := by simpa using hc
        · exact absurd rfl hn
        · decide +kernel)⟩ <;> decide +kernel,
    ⟨.memory 0, { lk with memArb := [(0, { busy := true, owner := some .host, parked := [(.desc 0 3, 3)] })] }, by decide +kernel⟩,
    ⟨.memory 0, .host, { F lk [(fCtxKind 1, 4)] with memArb := [(0, { owner := some .host })], ctxs := [(1, { buf := [⟨false, 1, true, true, false, .read 0x100000001B8 7 9⟩] })] }, by decide +kernel⟩,
    by refine ⟨.memory 1, { lk with memArb := [(1, { busy := true, owner := some .host, parked := [(.desc 0 2, 3)] })] }, ?_, (fun _ _ h => nomatch h), ?_⟩ <;> decide +kernel,
    ⟨4, 0, 1, 15, 0, bt 4 true false, [bt 4 false true], { fl [(fTxmapEn 4 15, 1), (fTxmapLead 4 15, 0), (fTxmapStream 4 15, 1)] with txLinks := [(16 * 4 + 15, { loose := [bt 4 true false, bt 4 false true], credit := 1 })], egressArb := [(128, { busy := true, owner := some (.stream 1) })] }, by decide +kernel⟩⟩

/-- The hypotheses of FramesConfigureBlocks can be met. -/
theorem witness_FramesConfigureBlocks :
    (∃ (k : ClusterIx) (lo : Word32) (w : Word64) (s : State), s.recovery = false ∧ w = BitVec.ofNat 64 (lo.toNat + 2 ^ 32 * (s.logic k.val).frameHi.toNat) ∧ ((s.logic k.val).words ++ [w]).length < frameLength (((s.logic k.val).words ++ [w]).headD 0).toNat + 2) ∧
    (∃ (k : ClusterIx) (lo : Word32) (w : Word64) (ws : List Word64) (s : State), s.recovery = false ∧ w = BitVec.ofNat 64 (lo.toNat + 2 ^ 32 * (s.logic k.val).frameHi.toNat) ∧ ws = (s.logic k.val).words ++ [w] ∧ frameLength (ws.headD 0).toNat + 2 ≤ ws.length ∧ frameCrcOk ws = true ∧ frameFormOk ws = true ∧ s.fld (fLogState k.val) = 1 ∧ (s.logic k.val).applying = none) ∧
    (∃ (k : ClusterIx) (lo : Word32) (w : Word64) (ws : List Word64) (s : State), s.recovery = false ∧ w = BitVec.ofNat 64 (lo.toNat + 2 ^ 32 * (s.logic k.val).frameHi.toNat) ∧ ws = (s.logic k.val).words ++ [w] ∧ frameLength (ws.headD 0).toNat + 2 ≤ ws.length ∧ frameCrcOk ws = false) ∧
    (∃ (k : ClusterIx) (lo : Word32) (w : Word64) (ws : List Word64) (s : State), s.recovery = false ∧ w = BitVec.ofNat 64 (lo.toNat + 2 ^ 32 * (s.logic k.val).frameHi.toNat) ∧ ws = (s.logic k.val).words ++ [w] ∧ frameLength (ws.headD 0).toNat + 2 ≤ ws.length ∧ (frameFormOk ws = false ∨ s.fld (fLogState k.val) ≠ 1)) ∧
    (∃ (k : ClusterIx) (ws : List Word64) (h : Nat) (s : State), (s.logic k.val).applying = some ws ∧ h = (ws.headD 0).toNat) ∧
    (∃ (k : ClusterIx) (s : State), s.recovery = false ∧ configRefused s (clusterRegion k.val) = true) ∧
    (∃ (k : ClusterIx) (s : State), s.recovery = false ∧ configRefused s (clusterRegion k.val) = false) ∧
    (∃ (k : ClusterIx) (s : State), s.recovery = false ∧ s.fld (fLogState k.val) = 1 ∧ (s.logic k.val).applying = none) ∧
    (∃ (k : ClusterIx) (s : State), s.recovery = false ∧ s.fld (fLogState k.val) = 3 ∧ s.runs = true ∧ s.is (fRgnBusy (clusterRegion k.val)) = false ∧ (s.logic k.val).doneAt ≤ lastBoundary s ∧ funsIdle s k.val ∧ (s.cluster k.val).arrivals = [] ∧ (s.cluster k.val).bus = []) :=
  ⟨⟨0, 0x0301, 0x10000000301, fw [] { frameHi := 0x100 } 1, by decide +kernel⟩,
    ⟨0, lastW [fh 1 3, 0], BitVec.ofNat 64 (lastW [fh 1 3, 0]).toNat, [fh 1 3, 0, BitVec.ofNat 64 (lastW [fh 1 3, 0]).toNat], fw [fh 1 3, 0] {} 1, by decide +kernel⟩,
    ⟨0, 0, 0, [fh 1 3, 0, 0], fw [fh 1 3, 0] {} 1, by decide +kernel⟩,
    ⟨0, lastW [fh 1 3, 0], BitVec.ofNat 64 (lastW [fh 1 3, 0]).toNat, [fh 1 3, 0, BitVec.ofNat 64 (lastW [fh 1 3, 0]).toNat], fw [fh 1 3, 0] {} 2, by decide +kernel⟩,
    ⟨0, fh 128 0 :: (List.replicate 128 (0x55 : Word64) ++ [0]), (fh 128 0).toNat, fw [] { applying := some (fh 128 0 :: (List.replicate 128 (0x55 : Word64) ++ [0])) } 1, by decide +kernel⟩,
    ⟨0, inL, by decide +kernel⟩,
    ⟨0, fw [5] {} 2, by decide +kernel⟩,
    ⟨0, fw [] {} 1, by decide +kernel⟩,
    ⟨0, fw [] { framed := true, doneAt := 599 } 3, by unfold funsIdle; decide +kernel⟩⟩

/-- The hypotheses of LogicCellsCompute can be met. -/
theorem witness_LogicCellsCompute :
    (∃ (v : Logic) (on : List Nat) (col : Nat) (row : Nat), row < 64 ∧ ((∃ e ∈ v.cells.words, e.1 / 2 = 64 * col + row)) ∧ bits (cellCtl v col row).toNat 5 2 ∈ on) ∧
    (∃ (v : Logic) (on : List Nat) (col : Nat) (row : Nat), row < 64 ∧ (((∀ e ∈ v.cells.words, e.1 / 2 ≠ 64 * col + row) ∨ bits (cellCtl v col row).toNat 5 2 ∉ on))) ∧
    (∃ (v : Logic) (m : Nat) (col : Nat) (row : Nat), muxSelect v m col row = 0) ∧
    (∃ (v : Logic) (vert : Bool) (col : Nat) (row : Nat), wireOf vert col row ∈ v.contended) ∧
    (∃ (ctl : Word64), ctl.getLsbD 0 = false) ∧
    (∃ (ctl : Word64), ctl.getLsbD 0 = true) :=
  ⟨⟨{ cells := { words := [(2 * (64 * 3 + 5), 0x8000000000000001), (2 * (64 * 3 + 5) + 1, 0x1DE)] }, routing := { words := [(2 * (64 * 3 + 5) + 1, 0x0)] }, flops := [(2 * (64 * 3 + 5), true)] }, [2], 3, 5, by decide +kernel⟩,
    ⟨{ cells := { words := [(2 * (64 * 3 + 5) + 1, 0x40)] }, flops := [(2 * (64 * 3 + 5), true)] }, [1], 3, 5, by decide +kernel⟩,
    ⟨{ routing := { words := [(2 * (64 * 3 + 5), 0x40)] } }, 0, 3, 5, by decide +kernel⟩,
    ⟨{ contended := [wireOf false 3 5] }, false, 3, 5, (List.mem_cons_self)⟩,
    ⟨0xFFFFFFFFFFFFFFFE, by decide +kernel⟩,
    ⟨1, by decide +kernel⟩⟩

/-- The hypotheses of RegionsReconfigureAndCommit can be met. -/
theorem witness_RegionsReconfigureAndCommit :
    (∃ (r : RegionIx) (s : State), s.recovery = false ∧ configRefused s r.val = true) ∧
    (∃ (r : RegionIx) (s : State), s.recovery = false ∧ configRefused s r.val = false ∧ s.links = [] ∧ ((∀ k : Nat, k / 8 = r.val → funsIdle s k ∧ (s.cluster k).arrivals = [] ∧ (s.cluster k).bus = []))) ∧
    (∃ (r : RegionIx) (s : State), s.recovery = false ∧ ((∃ c : Nat, c < 8 ∧ s.fld (fLogState (8 * r.val + c)) = 1))) ∧
    (∃ (r : RegionIx) (s : State), s.recovery = false ∧ ((∀ c : Nat, c < 8 → s.fld (fLogState (8 * r.val + c)) ≠ 1)) ∧ s.is (fRgnBusy r.val) = true) ∧
    (∃ (r : RegionIx) (a : Nat) (b : Nat) (s : State), (s.region r.val).releaseAt = some a ∧ (s.region r.val).toggledAt = some b ∧ s.is (fRgnBusy r.val) = true ∧ s.runs = true ∧ a ≤ lastBoundary s ∧ b + 1024 ≤ lastBoundary s) ∧
    (∃ (r : RegionIx) (s : State), s.recovery = false ∧ s.is (fRgnBusy r.val) = true) ∧
    (∃ (r : RegionIx) (s : State), s.recovery = false ∧ s.is (fRgnBusy r.val) = false ∧ s.is (fCommitPending r.val) = false ∧ s.runs = true) ∧
    (∃ (r : RegionIx) (req : Nat) (g : Nat) (v : Word32) (s : State), (s.region r.val).requestAt = some req ∧ ((s.runs = false ∨ (s.run.started = true ∧ s.stagedImage = true ∧ req < s.stage.releasedAt) ∨ (¬ (s.run.started = true ∧ s.stagedImage = true) ∧ req + 4 ≤ s.clock.xstart))) ∧ g < 4096 ∧ unitRegion g = r.val ∧ s.staged = [(unitBase g + 8, some v)] ∧ bits v.toNat 0 3 < 3) ∧
    (∃ (r : RegionIx) (p : Fin 2) (s : State), bits (s.raw (rgnPll r.val p.val)).toNat 16 1 = 1 ∧ pllOut (s.raw (rgnPll r.val p.val)).toNat = false) :=
  ⟨⟨0, inL, by decide +kernel⟩,
    by refine ⟨0, { F lk [(fEpoch 0, 1)] with bankQ := [(2, two)] }, ?_, ?_, ?_, (fun k _ => ⟨⟨rfl, rfl⟩, rfl, rfl⟩)⟩ <;> decide +kernel,
    ⟨0, F lk [(fLogState 7, 1)], by decide +kernel⟩,
    ⟨63, F lk [(fRgnBusy 63, 1), (fLogState (8 * 63), 3)], by decide +kernel⟩,
    ⟨0, 2000, 1500, { F lk [(fRgnBusy 0, 1)] with clock := { lk.clock with xstart := 3000 }, regions := [(0, { releaseAt := some 2000, toggledAt := some 1500 })] }, by decide +kernel⟩,
    ⟨0, F lk [(fRgnBusy 0, 1)], by decide +kernel⟩,
    ⟨0, lk, by decide +kernel⟩,
    ⟨0, 596, 63, 2, { lk with regions := [(0, { requestAt := some 596 })], staged := [(unitBase 63 + 8, some 2)] }, by decide +kernel⟩,
    ⟨0, 1, lk.setRaw (rgnPll 0 1) 0x10308, by decide +kernel⟩⟩

/-- The hypotheses of PortsAndHardBlocksAct can be met. -/
theorem witness_PortsAndHardBlocksAct :
    (∃ (k : ClusterIx) (j : Fin 4) (q : QueueId) (e : Nat) (s : State), writeTarget s k.val j.val = some q ∧ portEdge s k.val (4 + j.val) = some e ∧ s.fld (fLogState k.val) = 2 ∧ (s.cluster k.val).arrivals = [] ∧ funsIdle s k.val ∧ maySend s q = true) ∧
    (∃ (k : ClusterIx) (j : Fin 4) (q : QueueId) (b : Beat) (r : List Beat) (e : Nat) (s : State), readTarget s k.val j.val = some q ∧ portEdge s k.val j.val = some e ∧ s.fld (fLogState k.val) = 2 ∧ funsIdle s k.val ∧ headIs s q b r e) ∧
    (∃ (k : ClusterIx) (j : Fin 4) (s : State), portEdge s k.val (4 + j.val) = none) ∧
    (∃ (k : ClusterIx) (j : Fin 4) (s : State), portEdge s k.val j.val = none) ∧
    (∃ (r : Nat) (i : Nat) (c : Nat) (s : State), treeSrc s r i = 1 ∧ s.runs = true ∧ s.clock.xstart ≤ c) ∧
    (∃ (r : Nat) (i : Nat) (c : Nat) (s : State), treeSrc s r i = 1 ∧ s.runs = true ∧ s.clock.xstart ≤ c) ∧
    (∃ (r : Nat) (i : Nat) (c : Nat) (s : State) (x : Nat), treeSrc s r i = 1 ∧ s.runs = true ∧ s.clock.xstart ≤ c ∧ c ≤ x ∧ x < nextEdge s r i c) ∧
    (∃ (x : Instr) (k : ClusterIx) (c : ByteCtl) (op : Nat) (b : Byte) (ack : Bool) (s : State), (x, op, b) ∈ [(Instr.bytePortStart k c, 0, 0), (.bytePortWriteByte k c b, 1, b), (.bytePortReadByte k c ack, 2, if ack = true then 1 else 0), (.bytePortStop k c, 3, 0)] ∧ s.is (fCtlLent (k.val / 32) (ctlNat c)) = true ∧ s.fld (fCtlOwner (k.val / 32) (ctlNat c)) = k.val % 32 ∧ (binding s k.val).getLsbD (48 + ctlNat c) = true ∧ s.fld (fLogState k.val) = 2 ∧ mget none s.byteCmds (2 * (k.val / 32) + ctlNat c) = none) ∧
    (∃ (d : DieIx) (c : ByteCtl) (k : Nat) (op : Nat) (b : Byte) (s : State), mget none s.byteCmds (2 * d.val + ctlNat c) = some (k, op, b)) ∧
    (∃ (d : DieIx) (w : FuseWord) (s : State), s.recovery = false ∧ s.is (fFuseBusy d.val) = false ∧ w = mget {} s.fuses.user (1024 * d.val + s.fld (fFuseWord d.val))) ∧
    (∃ (d : DieIx) (w : FuseWord) (s : State), s.recovery = false ∧ s.is (fFuseBusy d.val) = false ∧ w = mget {} s.fuses.user (1024 * d.val + s.fld (fFuseWord d.val)) ∧ w.programmed = true) ∧
    (∃ (d : DieIx) (w : FuseWord) (s : State), s.recovery = false ∧ s.is (fFuseBusy d.val) = false ∧ w = mget {} s.fuses.user (1024 * d.val + s.fld (fFuseWord d.val)) ∧ w.programmed = false) ∧
    (∃ (d : DieIx) (key : Nat) (v : Word64) (s : State), mget none s.fusePend d.val = some (key, v)) ∧
    (∃ (s : State), s.extest = false) ∧
    (∃ (s : State), s.extest = true) :=
  ⟨by refine ⟨0, 0, .bank 0 15, 605, F (ports 0x0F000000 0x1000) [(fQMode (.bank 0 15), 1), (fQDepth (.bank 0 15), 8), (⟨rgnClk 0, 0, 32⟩, 0x05050505)], ?_, (by unfold portEdge portTree; generalize Config.portTree _ _ _ = x; revert x; decide +kernel), ?_⟩ <;> first | decide +kernel | (unfold funsIdle; decide +kernel),
    by refine ⟨0, 1, .bank 0 2, bt 4 true false, [bt 4 false true], 605, { F (ports 0x00020020 0) [(⟨rgnClk 0, 0, 32⟩, 0x05050505)] with bankQ := [(2, two)] }, ?_, (by unfold portEdge portTree; generalize Config.portTree _ _ _ = x; revert x; decide +kernel), ?_⟩ <;> first | decide +kernel | (simp only [headIs, funsIdle]; decide +kernel),
    ⟨0, 1, ports 0x00020020 0, (by unfold portEdge portTree; generalize Config.portTree _ _ _ = x; revert x; decide +kernel)⟩,
    ⟨0, 1, ports 0x00020020 0, (by unfold portEdge portTree; generalize Config.portTree _ _ _ = x; revert x; decide +kernel)⟩,
    ⟨0, 1, 633, F lk [(⟨rgnClk 0, 8, 8⟩, 0x1D)], by decide +kernel⟩,
    ⟨0, 1, 601, { F lk [(⟨rgnClk 0, 8, 8⟩, 0x1D)] with regions := [(0, { treeHold := [(1, 604)] })] }, by decide +kernel⟩,
    ⟨0, 1, 601, { F lk [(⟨rgnClk 0, 8, 8⟩, 0x1D)] with regions := [(0, { treeHold := [(1, 604)] })] }, 606, by decide +kernel⟩,
    ⟨.bytePortReadByte 0 .i2c true, 0, .i2c, 2, 1, true, F (ports 0 0x20000) [(fCtlLent 0 1, 1)], by decide +kernel⟩,
    ⟨0, .uart, 3, 2, 0, { lk with byteCmds := [(0, some (3, 2, 0))] }, by decide +kernel⟩,
    ⟨15, ⟨true, 0x123456789ABCDEF0, some .uncorrectable⟩, { F on [(fFuseWord 15, 1023)] with fuses := { user := [(1024 * 15 + 1023, ⟨true, 0x123456789ABCDEF0, some .uncorrectable⟩)] } }, by decide +kernel⟩,
    ⟨15, ⟨true, 5, none⟩, { F on [(fFuseWord 15, 1023)] with fuses := { user := [(1024 * 15 + 1023, ⟨true, 5, none⟩)] } }, by decide +kernel⟩,
    ⟨15, {}, { F on [(fFuseWord 15, 1023), (fFuseLo 15, 7)] with latchHi := [(hardBase 15 + 0x14, 0x80000000)] }, by decide +kernel⟩,
    ⟨0, 5, 9, { F on [(fFuseBusy 0, 1)] with fusePend := [(0, some (5, 9))] }, by decide +kernel⟩,
    ⟨lk, by decide +kernel⟩,
    ⟨{ lk with tap := { ir := 0 } }, by decide +kernel⟩⟩

/-- The hypotheses of WindowsReachMemories can be met. -/
theorem witness_WindowsReachMemories :
    (∃ (a : Agent) (k : Nat) (i : Nat) (s : State), k = winKind s a ∧ i = s.fld (fWinWord a) ∧ s.is (fRunning a) = false ∧ i < winSize a k) ∧
    (∃ (a : Agent) (k : Nat) (i : Nat) (s : State), k = winKind s a ∧ i = s.fld (fWinWord a) ∧ (s.is (fRunning a) = true ∨ winSize a k ≤ i)) ∧
    (∃ (a : Agent) (k : Nat) (i : Nat) (s : State), k = winKind s a ∧ i = s.fld (fWinWord a) ∧ answers s (fWinLo a).addr = true ∧ s.is (fRunning a) = false ∧ i < winSize a k) :=
  ⟨⟨.dot 5, 0, 16383, { F lk [(fWinWord (.dot 5), 16383), (fWinAuto (.dot 5), 1)] with units := [(5, { winHi := 9, weight := { ecc := [(16383, some .uncorrectable)] } })] }, by decide +kernel⟩,
    ⟨.fn 5, 3, 0, F lk [(fRunning (.fn 5), 1)], by decide +kernel⟩,
    ⟨.dot 5, 2, 255, { F lk [(fWinWord (.dot 5), 255), (fWinMem (.dot 5), 2)] with units := [(5, { zp := { words := [(255, 0x123456789ABCDEF0)] } })] }, by decide +kernel⟩⟩

/-- The hypotheses of RegistersReadAndWrite can be met. -/
theorem witness_RegistersReadAndWrite :
    (∃ (s : State), answers s 0x20014 = true) ∧
    (∃ (v : VaIx) (s : State), answers s (vaBase v.val + 0x1C) = true) ∧
    (∃ (addr : Word32) (s : State), 4 * (addr.toNat / 4) = 0x2001C ∧ answers s 0x2001C = true) ∧
    (∃ (n : IntakeLane) (addr : Word32) (s : State), s.recovery = false ∧ mapped s (wayBase n.val) = true ∧ 4 * (addr.toNat / 4) = wayBase n.val + 4) ∧
    (∃ (n : IntakeLane) (addr : Word32) (s : State), s.recovery = false ∧ mapped s (wayBase n.val) = true ∧ 4 * (addr.toNat / 4) = wayBase n.val + 0xC) ∧
    (∃ (c : Instr) (a : Agent) (k : ClusterIx) (g : RegionIx) (p : RingIx) (m : MemIx) (d : DieIx) (u : UnitIx) (q : QueueId) (l : LaneId) (e : SiteIx) (lead : Fin 32) (i : Fin 64) (h : Fin 16) (f : Bool) (v : Word32) (s : State), s.recovery = true ∧ c ∈ [Instr.windowWrite a v, .logFrameLo k v, .logBegin k, .logDone k, .ufuseRead d, .ufuseProgram d, .rgnStart g, .rgnRelease g, .commitRequest g, .recoverGo g v, .dropRest q, .invalidate g, .abort g i, .arm g i, .strHqPush g h v, .scrubNow m, .scrubNowRegion g, .fencedWrite u f, .timCtrlWrite v, .train l, .lnkBondWrite e v, .linkReset e lead, .detachClear, .hrgDb p v, .frsArm, .frsRelease, .tkSend]) ∧
    (∃ (addr : Word32) (a : Nat) (s : State), a = 4 * (addr.toNat / 4) ∧ ((answers s a = false ∨ mapped s a = false)) ∧ a ≠ 0x40004) ∧
    (∃ (addr : Word32) (s : State), 4 * (addr.toNat / 4) = 0x20004 ∧ answers s 0x20004 = true) ∧
    (∃ (addr : Word32), 4 * (addr.toNat / 4) = 0x1010C) ∧
    (∃ (u : UnitIx) (s : State), answers s (unitBase u.val) = true ∧ s.is (fRunning (.dot u)) = true) :=
  ⟨⟨{ lk with run := { count := 2 ^ 48 - 1 } }, by decide +kernel⟩,
    ⟨3, { lk with latchHi := [(vaBase 3 + 0x1C, 99)] }, by decide +kernel⟩,
    ⟨0x2001F, F lk [(fCommaErr, 255), (fLossCnt, 3)], by decide +kernel⟩,
    ⟨50, BitVec.ofNat 32 (wayBase 50 + 6), F lkIm [(fWayLow 50, 77), (fWayLast 50, 5)], by decide +kernel⟩,
    ⟨50, BitVec.ofNat 32 (wayBase 50 + 12), { F lkIm [(fWayMaxOcc 50, 77)] with way := [(50, { held := [⟨3, 1, [bt 0 true true], 40⟩] })] }, by decide +kernel⟩,
    ⟨.rgnRelease 3, .dot 0, 0, 3, 0, 0, 0, 0, .bank 0 0, ⟨0, 0, true⟩, 0, 0, 0, 0, false, 1, F lk [(fBootState, 6)], by decide +kernel⟩,
    ⟨0x60003, 0x60000, lk, by decide +kernel⟩,
    ⟨0x20006, F lk [(fLoss, 1)], by decide +kernel⟩,
    ⟨0x1010C, by decide +kernel⟩,
    ⟨0, inL, by decide +kernel⟩⟩

/-- The hypotheses of StewardPortServes can be met. -/
theorem witness_StewardPortServes :
    (∃ (s : State), stewardUp s = true) ∧
    (∃ (s : State), stewardUp s = true) ∧
    (∃ (s : State), stewardUp s = true) ∧
    (∃ (addr : Word32) (s : State), stewardUp s = true ∧ isLive (4 * (addr.toNat / 4)) = true) ∧
    (∃ (s : State), stewardUp s = true ∧ s.posted.length < 64) ∧
    (∃ (s : State), stewardUp s = true ∧ 64 ≤ s.posted.length) ∧
    (∃ (s : State), stewardUp s = true ∧ s.posted.length < 64) ∧
    (∃ (a : Nat) (v : Word32) (r : List (Nat × Word32)) (s : State), stewardUp s = true ∧ s.posted = (a, v) :: r ∧ a % 4 = 0 ∧ a < 2 ^ 32) ∧
    (∃ (s : State), answers s 0x32014 = true ∧ mapped s (4 * (s.fld fIndAddr / 4)) = true) ∧
    (∃ (s : State), answers s 0x32014 = true ∧ mapped s (4 * (s.fld fIndAddr / 4)) = true) ∧
    (∃ (s : State), s.indirect = some false ∧ answers s 0x20014 = true ∧ s.fld fIndAddr = 0x20014) ∧
    (∃ (op : Byte) (ext : Byte) (s : State), stewardUp s = true ∧ (op, ext) ∉ [(0xEE#8, 0x11#8), (0xDE#8, 0x21#8), (0x9F#8, 0x60#8), (0x05#8, 0xFA#8)]) :=
  ⟨⟨up lk, by decide +kernel⟩,
    ⟨up lk, by decide +kernel⟩,
    ⟨up lk, by decide +kernel⟩,
    ⟨0x20014, up inL, by decide +kernel⟩,
    ⟨{ up lk with posted := List.replicate 63 (0, 0) }, by decide +kernel⟩,
    ⟨{ up lk with posted := List.replicate 64 (0, 0) }, by decide +kernel⟩,
    ⟨{ up lk with posted := List.replicate 63 (0, 0) }, by decide +kernel⟩,
    ⟨0x1010C, 5, [(8, 9)], { up lk with posted := [(0x1010C, 5), (8, 9)] }, by decide +kernel⟩,
    ⟨(up lk).setFld fIndAddr 0x2000C, by decide +kernel⟩,
    ⟨(up lk).setFld fIndAddr 0x2000F, by decide +kernel⟩,
    ⟨{ (up inL).setFld fIndAddr 0x20014 with indirect := some false }, by decide +kernel⟩,
    ⟨0xEE, 0x12, up lk, by decide +kernel⟩⟩

/-- The hypotheses of RingsServeDescriptors can be met. -/
theorem witness_RingsServeDescriptors :
    (∃ (r : RingIx) (v : Word32) (s : State), s.recovery = false ∧ s.is (fHrgEnable r.val) = true ∧ bits v.toNat 0 12 < ringSize s r.val) ∧
    (∃ (r : RingIx) (v : Word32) (s : State), s.recovery = false ∧ (s.is (fHrgEnable r.val) = false ∨ ringSize s r.val ≤ bits v.toNat 0 12)) ∧
    (∃ (r : RingIx) (v : Word32) (s : State), s.recovery = false ∧ s.is (fRingActive r.val) = false ∧ (s.raw (ringBase r.val)).getLsbD 0 = false ∧ v.getLsbD 0 = true) ∧
    (∃ (r : RingIx) (v : Word32) (i : Nat) (b : List Byte) (l : List (Nat × List Byte)) (s : State), s.recovery = false ∧ s.is (fRingActive r.val) = false ∧ (s.raw (ringBase r.val)).getLsbD 0 = true ∧ v.getLsbD 0 = false ∧ (s.ring r.val).ahead = (i, b) :: l ∧ (s.ring r.val).cur = none) ∧
    (∃ (r : RingIx) (bytes : List Byte) (s : State), s.is (fHrgEnable r.val) = true ∧ pathHasGroup s r.val = true ∧ s.fld (fHead r.val) ≠ s.fld (fTail r.val) ∧ bytes.length = 64 ∧ heldDescs s < 64) ∧
    (∃ (r : RingIx) (i : Nat) (st : Nat) (bytes : List Byte) (res : Word64) (s : State), (s.ring r.val).cur = some ⟨i, bytes, .done st res⟩ ∧ onlyPair s r.val) ∧
    (∃ (r : RingIx) (i : Nat) (moved : Nat) (k : Nat) (w : Nat) (n : Nat) (bytes : List Byte) (given : List Byte) (bad : Option Nat) (p : Option Nat) (s : State), (s.ring r.val).cur = some ⟨i, bytes, .moving moved given [] bad⟩ ∧ onlyPair s r.val ∧ endingPair s = none ∧ opcodeOf bytes = 0x11 ∧ wholeWords bytes = true ∧ rangeOk s (opn bytes 0x18 6) (opn bytes 0x20 4) true = true ∧ placeOf s (opn bytes 0x18 6) = .store k w ∧ moved % 262144 = 0 ∧ moved < opn bytes 0x20 4 ∧ n = min 262144 (opn bytes 0x20 4 - moved) ∧ p = bad.or (((List.range (n / 8)).find? (fun j => (storeRead s k (w + moved / 8 + j)).2)).map (fun j => moved + 8 * j))) ∧
    (∃ (q : RingIx) (r : RingIx) (i : Nat) (moved : Nat) (bytes : List Byte) (given : List Byte) (held : List (Word64 × Bool)) (bad : Option Nat) (s : State), s.is fEngineBusy = false ∧ hasWork s q.val = true ∧ q.val < r.val ∧ (s.ring r.val).cur = some ⟨i, bytes, .moving moved given held bad⟩) ∧
    (∃ (r : RingIx) (op : Nat) (b : List Byte) (s : State), headCommand s r.val op b ∧ readsHost b = true) ∧
    (∃ (r : RingIx) (i : Nat) (moved : Nat) (bytes : List Byte) (given : List Byte) (held : List (Word64 × Bool)) (bad : Option Nat) (s : State), (s.ring r.val).cur = some ⟨i, bytes, .moving moved given held bad⟩ ∧ readsHost bytes = true) ∧
    (∃ (r : RingIx) (i : Nat) (bytes : List Byte) (given : List Byte) (later : List Byte) (prior : List Byte) (got : List Byte) (bad : List Nat) (s : State), (s.ring r.val).cur = some ⟨i, bytes, .reading given later prior got bad⟩ ∧ readsHost bytes = true) ∧
    (∃ (r : RingIx) (bad : Bool) (s : State), phaseOf s r.val = some (.waitLock bad)) ∧
    (∃ (c : Instr) (op : Nat) (r : RingIx) (b : List Byte) (s : State), (c, op) ∈ [(Instr.readMem r, 0x11), (.copy r, 0x12), (.armRun r, 0x20), (.disarm r, 0x21), (.selectMenu r, 0x22), (.frostHostCommand r, 0x30), (.frostRead r, 0x31), (.spyDrain r, 0x32), (.attest r, 0x40), (.scrub r, 0x41), (.linkTrain r, 0x50)] ∧ (s.ring r.val).cur = none ∧ (s.ring r.val).ahead.head?.map (fun e => e.2) = some b ∧ opcodeOf b = op ∧ engineServes s r.val = true ∧ validDesc b = false) ∧
    (∃ (c : Instr) (op : Nat) (r : RingIx) (b : List Byte) (s : State), (c, op) ∈ [(Instr.readMem r, 0x11), (.copy r, 0x12), (.armRun r, 0x20), (.disarm r, 0x21), (.selectMenu r, 0x22), (.frostHostCommand r, 0x30), (.frostRead r, 0x31), (.spyDrain r, 0x32), (.attest r, 0x40), (.scrub r, 0x41), (.linkTrain r, 0x50)] ∧ (s.ring r.val).cur = none ∧ (s.ring r.val).ahead.head?.map (fun e => e.2) = some b ∧ opcodeOf b = op ∧ engineServes s r.val = true ∧ validDesc b = true ∧ exclusive op = true ∧ s.is fEngineLocked = true ∧ s.fld fEngineLockRing ≠ r.val) :=
  ⟨⟨63, 15, F lk [(fHrgEnable 63, 1), (fSizeLog 63, 4)], by decide +kernel⟩,
    ⟨63, 16, F lk [(fHrgEnable 63, 1), (fSizeLog 63, 4)], by decide +kernel⟩,
    ⟨0, 0x1B, lk, by decide +kernel⟩,
    ⟨0, 0, 2, ds 0x20 [], [], pair (ds 0x20 []) lk, by decide +kernel⟩,
    ⟨0, ds 0x20 [], F (grpUp (up lk)) [(fHrgEnable 0, 1), (fSizeLog 0, 4), (fHead 0, 15), (fTail 0, 3), (fHrgPath 0, 1), (fCtxKind 1, 4), (fCtxTarget 1, 4)], by decide +kernel⟩,
    ⟨0, 15, 5, ds 0x20 [], 9, cmdAt (ds 0x20 []) (.done 5 9) lk, by unfold onlyPair; decide +kernel⟩,
    ⟨0, 15, 0, 0, 0, 24, rd3, [], none, some 8, { pathed (cmdAt rd3 (.moving 0 [] [] none) lk) with clusters := [(0, { store := { words := [(0, 7), (2, 9)], ecc := [(1, some .uncorrectable)] } })] }, by unfold onlyPair; decide +kernel⟩,
    ⟨0, 5, 2, 16, rd3, [], [], none, { lk with rings := [(0, { cur := some ⟨15, rd3, .moving 16 [] [] none⟩ }), (5, { cur := some ⟨2, rd3, .moving 16 [] [] none⟩ })] }, by decide +kernel⟩,
    ⟨0, 0x10, ds 0x10 [], pair (ds 0x10 []) lk, by unfold headCommand; decide +kernel⟩,
    ⟨0, 15, 16, ds 0x10 [(0x10, 0x10000000000), (0x18, 0x10000000008), (0x20, 24)], [], [], none, cmdAt (ds 0x10 [(0x10, 0x10000000000), (0x18, 0x10000000008), (0x20, 24)]) (.moving 16 [] [] none) lk, by decide +kernel⟩,
    ⟨0, 15, ds 1 [(0x10, 0x5000), (0x18, 100)], [], [], [], [5], [], cmdAt (ds 1 [(0x10, 0x5000), (0x18, 100)]) (.reading [] [] [] [5] []) lk, by decide +kernel⟩,
    ⟨0, false, cmdAt (ds 1 []) (.waitLock false) lkIm, by decide +kernel⟩,
    ⟨.armRun 0, 0x20, 0, ds 0x20 [(0x20, 1)], pair (ds 0x20 [(0x20, 1)]) lk, by decide +kernel⟩,
    ⟨.armRun 0, 0x20, 0, ds 0x20 [], F (pair (ds 0x20 []) lk) [(fEngineLocked, 1), (fEngineLockRing, 7)], by decide +kernel⟩⟩

/-- The hypotheses of ImagesLoadAndQuantise can be met. -/
theorem witness_ImagesLoadAndQuantise :
    (∃ (r : RingIx) (b : List Byte) (x : List Byte) (y : List Byte) (s : State) (w : State) (e : Nat × Nat), headCommand s r.val 1 b ∧ stopsRuns s = false ∧ bits (opn b 0x16 1) 0 1 = 0 ∧ 0 < opn b 0x18 4 ∧ 2 * opn b 0x18 4 ≤ 262144 ∧ x.length = opn b 0x18 4 ∧ pathHasGroup s r.val = true ∧ opn b 0x20 6 = 0 ∧ w = sourceBegun (takeLock (takeHead s r.val) r.val) r.val b x y ∧ imageError w x true = some e) ∧
    (∃ (r : RingIx) (b : List Byte) (x : List Byte) (y : List Byte) (s : State) (w : State), headCommand s r.val 1 b ∧ stopsRuns s = false ∧ bits (opn b 0x16 1) 0 1 = 0 ∧ 0 < opn b 0x18 4 ∧ 2 * opn b 0x18 4 ≤ 262144 ∧ x.length = opn b 0x18 4 ∧ pathHasGroup s r.val = true ∧ opn b 0x20 6 = 0 ∧ w = sourceBegun (takeLock (takeHead s r.val) r.val) r.val b x y ∧ imageError w x true = none ∧ y = x ∧ (headerOf x).n = s.n) ∧
    (∃ (r : RingIx) (b : List Byte) (x : List Byte) (y : List Byte) (s : State) (w : State), headCommand s r.val 1 b ∧ stopsRuns s = false ∧ bits (opn b 0x16 1) 0 1 = 0 ∧ 0 < opn b 0x18 4 ∧ 2 * opn b 0x18 4 ≤ 262144 ∧ x.length = opn b 0x18 4 ∧ pathHasGroup s r.val = true ∧ opn b 0x20 6 = 0 ∧ w = sourceBegun (takeLock (takeHead s r.val) r.val) r.val b x y ∧ imageError w x true = none ∧ y.length = x.length ∧ sha256 y ≠ sha256 x) ∧
    (∃ (r : RingIx) (b : List Byte) (x : List Byte) (s : State) (w : State), headCommand s r.val 2 b ∧ bits (opn b 0x16 1) 0 1 = 0 ∧ 0 < opn b 0x18 4 ∧ opn b 0x18 4 ≤ 262144 ∧ x.length = opn b 0x18 4 ∧ pathHasGroup s r.val = true ∧ w = writeDigest (sourceBegun (takeHead s r.val) r.val b x []) r.val b (sha256 x)) ∧
    (∃ (c : Instr) (op : Nat) (r : RingIx) (b : List Byte) (x : List Byte) (y : List Byte) (s : State), (c, op) ∈ [(Instr.loadImage r x y, 1), (.verifyImage r x, 2)] ∧ headCommand s r.val op b ∧ ((op = 1 → stopsRuns s = false)) ∧ ((opn b 0x18 4 = 0 ∨ (opn b 0x20 6 ≠ 0 ∧ pathHasGroup s r.val = false) ∨ (fromPackage b = false ∧ pathHasGroup s r.val = false) ∨ (fromPackage b = true ∧ (opn b 0x10 6 % 8 ≠ 0 ∨ rangeOk s (opn b 0x10 6) (opn b 0x18 4) true = false))))) ∧
    (∃ (r : RingIx) (b : List Byte) (y : List Byte) (n : Nat) (k : Nat) (w : Nat) (s : State), headCommand s r.val 2 b ∧ fromPackage b = true ∧ n = opn b 0x18 4 ∧ n ≤ 262144 ∧ opn b 0x10 6 % 8 = 0 ∧ rangeOk s (opn b 0x10 6) n true = true ∧ placeOf s (opn b 0x10 6) = .store k w ∧ opn b 0x20 6 ≠ 0 ∧ pathHasGroup s r.val = true ∧ y = ((List.range ((n + 7) / 8)).flatMap (fun i => leBytes 8 (storeRead s k (w + i)).1.toNat)).take n) ∧
    (∃ (r : RingIx) (b : List Byte) (s : State), headCommand s r.val 3 b ∧ (s.image = none ∨ s.lockedImage = false ∨ s.armed = true)) ∧
    (∃ (r : RingIx) (b : List Byte) (x : List Byte) (s : State) (im : Image) (l : Layer), headCommand s r.val 3 b ∧ s.image = some im ∧ im.locked = true ∧ s.armed = false ∧ im.layers[opn b 0x1C 2]? = some l ∧ ((∀ p ∈ l.places, ∀ g ∈ unitsOf im p, s.is (fRunning (.dot (Fin.ofNat 4096 g))) = false)) ∧ opn b 0x18 4 = l.out * l.inp ∧ layerOk im l = true ∧ formatsDiffer s im l = false ∧ layerRefused s im l = false ∧ bits (opn b 0x16 1) 0 1 = 0 ∧ x.length = l.out * l.inp * inWidth (bits (opn b 0x16 1) 1 2) ∧ 0 < x.length ∧ x.length ≤ 262144 ∧ pathHasGroup s r.val = true ∧ ((∀ i : Nat, i < l.out * l.inp → weightRefused (sourceWeight (bits (opn b 0x16 1) 1 2) x i) = false))) ∧
    (∃ (ws : List Int) (hi : Int) (lo : Int) (pos : Int) (neg : Int) (m : Nat) (x : Nat), 1 ≤ hi ∧ 1 ≤ lo ∧ ((∀ w ∈ ws, w ≤ pos ∧ -w ≤ neg)) ∧ ((pos = 0 ∨ 0 < pos ∧ pos ∈ ws)) ∧ ((neg = 0 ∨ 0 < neg ∧ -neg ∈ ws)) ∧ pos < 2 ^ 188 ∧ neg < 2 ^ 188 ∧ (m, x) = chooseScale ws hi lo ∧ pos = 0 ∧ neg = 0) ∧
    (∃ (ws : List Int) (hi : Int) (lo : Int) (pos : Int) (neg : Int) (m : Nat) (x : Nat), 1 ≤ hi ∧ 1 ≤ lo ∧ ((∀ w ∈ ws, w ≤ pos ∧ -w ≤ neg)) ∧ ((pos = 0 ∨ 0 < pos ∧ pos ∈ ws)) ∧ ((neg = 0 ∨ 0 < neg ∧ -neg ∈ ws)) ∧ pos < 2 ^ 188 ∧ neg < 2 ^ 188 ∧ (m, x) = chooseScale ws hi lo ∧ pos = 0 ∧ neg = 0) ∧
    (∃ (ws : List Int) (hi : Int) (lo : Int) (pos : Int) (neg : Int) (m : Nat) (x : Nat), 1 ≤ hi ∧ 1 ≤ lo ∧ ((∀ w ∈ ws, w ≤ pos ∧ -w ≤ neg)) ∧ ((pos = 0 ∨ 0 < pos ∧ pos ∈ ws)) ∧ ((neg = 0 ∨ 0 < neg ∧ -neg ∈ ws)) ∧ pos < 2 ^ 188 ∧ neg < 2 ^ 188 ∧ (m, x) = chooseScale ws hi lo ∧ 0 < pos + neg) ∧
    (∃ (ws : List Int) (hi : Int) (lo : Int) (pos : Int) (neg : Int) (m : Nat) (x : Nat), 1 ≤ hi ∧ 1 ≤ lo ∧ ((∀ w ∈ ws, w ≤ pos ∧ -w ≤ neg)) ∧ ((pos = 0 ∨ 0 < pos ∧ pos ∈ ws)) ∧ ((neg = 0 ∨ 0 < neg ∧ -neg ∈ ws)) ∧ pos < 2 ^ 188 ∧ neg < 2 ^ 188 ∧ (m, x) = chooseScale ws hi lo ∧ 0 < pos + neg) ∧
    (∃ (ws : List Int) (hi : Int) (lo : Int) (pos : Int) (neg : Int) (m : Nat) (x : Nat), 1 ≤ hi ∧ 1 ≤ lo ∧ ((∀ w ∈ ws, w ≤ pos ∧ -w ≤ neg)) ∧ ((pos = 0 ∨ 0 < pos ∧ pos ∈ ws)) ∧ ((neg = 0 ∨ 0 < neg ∧ -neg ∈ ws)) ∧ pos < 2 ^ 188 ∧ neg < 2 ^ 188 ∧ (m, x) = chooseScale ws hi lo ∧ 0 < pos + neg) ∧
    (∃ (ws : List Int) (hi : Int) (lo : Int) (pos : Int) (neg : Int) (m : Nat) (x : Nat), 1 ≤ hi ∧ 1 ≤ lo ∧ ((∀ w ∈ ws, w ≤ pos ∧ -w ≤ neg)) ∧ ((pos = 0 ∨ 0 < pos ∧ pos ∈ ws)) ∧ ((neg = 0 ∨ 0 < neg ∧ -neg ∈ ws)) ∧ pos < 2 ^ 188 ∧ neg < 2 ^ 188 ∧ (m, x) = chooseScale ws hi lo ∧ 0 < pos + neg) ∧
    (∃ (ws : List Int) (hi : Int) (lo : Int) (pos : Int) (neg : Int) (m : Nat) (x : Nat), 1 ≤ hi ∧ 1 ≤ lo ∧ ((∀ w ∈ ws, w ≤ pos ∧ -w ≤ neg)) ∧ ((pos = 0 ∨ 0 < pos ∧ pos ∈ ws)) ∧ ((neg = 0 ∨ 0 < neg ∧ -neg ∈ ws)) ∧ pos < 2 ^ 188 ∧ neg < 2 ^ 188 ∧ (m, x) = chooseScale ws hi lo ∧ 0 < pos + neg) ∧
    (∃ (ws : List Int) (hi : Int) (lo : Int) (pos : Int) (neg : Int) (m : Nat) (x : Nat) (y : Nat), 1 ≤ hi ∧ 1 ≤ lo ∧ ((∀ w ∈ ws, w ≤ pos ∧ -w ≤ neg)) ∧ ((pos = 0 ∨ 0 < pos ∧ pos ∈ ws)) ∧ ((neg = 0 ∨ 0 < neg ∧ -neg ∈ ws)) ∧ pos < 2 ^ 188 ∧ neg < 2 ^ 188 ∧ (m, x) = chooseScale ws hi lo ∧ 0 < pos + neg ∧ y < x) ∧
    (∃ (ws : List Int) (hi : Int) (lo : Int) (pos : Int) (neg : Int) (m : Nat) (x : Nat) (k : Nat), 1 ≤ hi ∧ 1 ≤ lo ∧ ((∀ w ∈ ws, w ≤ pos ∧ -w ≤ neg)) ∧ ((pos = 0 ∨ 0 < pos ∧ pos ∈ ws)) ∧ ((neg = 0 ∨ 0 < neg ∧ -neg ∈ ws)) ∧ pos < 2 ^ 188 ∧ neg < 2 ^ 188 ∧ (m, x) = chooseScale ws hi lo ∧ 0 < pos + neg ∧ 1 ≤ k ∧ k < m) ∧
    (∃ (ls : List Int) (sc : Nat × Nat) (w : Int) (z : Int) (d : Int) (n : Int) (k : Nat), ls ≠ [] ∧ ls.Pairwise (fun a b => a < b) ∧ k = codeFor ls sc z w ∧ d = (if sc.1 = 0 then 1 else sc.1 * 2 ^ (sc.2 + 118)) ∧ n = (if sc.1 = 0 then 0 else w)) ∧
    (∃ (ls : List Int) (sc : Nat × Nat) (w : Int) (z : Int) (d : Int) (n : Int) (k : Nat) (c : Nat), ls ≠ [] ∧ ls.Pairwise (fun a b => a < b) ∧ k = codeFor ls sc z w ∧ d = (if sc.1 = 0 then 1 else sc.1 * 2 ^ (sc.2 + 118)) ∧ n = (if sc.1 = 0 then 0 else w) ∧ c < ls.length) ∧
    (∃ (ls : List Int) (sc : Nat × Nat) (w : Int) (z : Int) (d : Int) (n : Int) (k : Nat) (c : Nat), ls ≠ [] ∧ ls.Pairwise (fun a b => a < b) ∧ k = codeFor ls sc z w ∧ d = (if sc.1 = 0 then 1 else sc.1 * 2 ^ (sc.2 + 118)) ∧ n = (if sc.1 = 0 then 0 else w) ∧ c < ls.length ∧ c ≠ k ∧ (n + (z - ls.getD k 0) * d).natAbs = (n + (z - ls.getD c 0) * d).natAbs) ∧
    (∃ (h : Hdr) (n : Nat) (p : Placement) (s : State) (t : State) (x : Sect) (u : UnitIx) (kind : Nat) (start : Nat) (ws : List Word64) (i : Nat), t = placeSection h n p s x ∧ u = Fin.ofNat 4096 (placedUnit p x.treg x.cluster x.unit) ∧ (x.typ, kind, start, ws) ∈ [(1, 3, 0, (w64s x.data).map (relabelDot p)), (3, 0, nAt x.data 0 4, w64s (x.data.drop 8)), (4, 1, nAt x.data 0 4, w64s (x.data.drop 8)), (5, 2, nAt x.data 0 4, w64s (x.data.drop 8))] ∧ i < ws.length) ∧
    (∃ (h : Hdr) (n : Nat) (p : Placement) (s : State) (t : State) (x : Sect) (u : UnitIx) (kind : Nat) (start : Nat) (ws : List Word64) (i : Nat), t = placeSection h n p s x ∧ u = Fin.ofNat 4096 (placedUnit p x.treg x.cluster x.unit) ∧ (x.typ, kind, start, ws) ∈ [(1, 3, 0, (w64s x.data).map (relabelDot p)), (3, 0, nAt x.data 0 4, w64s (x.data.drop 8)), (4, 1, nAt x.data 0 4, w64s (x.data.drop 8)), (5, 2, nAt x.data 0 4, w64s (x.data.drop 8))] ∧ (i < start ∨ start + ws.length ≤ i)) ∧
    (∃ (h : Hdr) (n : Nat) (p : Placement) (s : State) (t : State) (x : Sect) (u : UnitIx) (kind : Nat) (start : Nat) (ws : List Word64) (a : Agent) (k : Nat), t = placeSection h n p s x ∧ u = Fin.ofNat 4096 (placedUnit p x.treg x.cluster x.unit) ∧ (x.typ, kind, start, ws) ∈ [(1, 3, 0, (w64s x.data).map (relabelDot p)), (3, 0, nAt x.data 0 4, w64s (x.data.drop 8)), (4, 1, nAt x.data 0 4, w64s (x.data.drop 8)), (5, 2, nAt x.data 0 4, w64s (x.data.drop 8))] ∧ (a ≠ .dot u ∨ k < 3 ∧ k ≠ kind)) ∧
    (∃ (h : Hdr) (n : Nat) (p : Placement) (s : State) (t : State) (x : Sect) (u : UnitIx) (i : Nat) (a : Nat) (k : Nat), t = placeSection h n p s x ∧ u = Fin.ofNat 4096 (placedUnit p x.treg x.cluster x.unit) ∧ x.typ = 8 ∧ k = placedCluster p x.treg x.cluster ∧ i + 8 < x.data.length ∧ a = nAt x.data 0 4 + i) :=
  ⟨⟨0, ldB, List.replicate 64 0, [], pathed (pair ldB lk), sourceBegun (takeLock (takeHead (pathed (pair ldB lk)) 0) 0) 0 ldB (List.replicate 64 0) [], (0x0101, 0xFFFF), by unfold headCommand; decide +kernel⟩,
    ⟨0, ldB, img0, img0, pathed (pair ldB lk), sourceBegun (takeLock (takeHead (pathed (pair ldB lk)) 0) 0) 0 ldB img0 img0, by unfold headCommand; decide +kernel⟩,
    ⟨0, ldB, img0, List.replicate 64 1, pathed (pair ldB lk), sourceBegun (takeLock (takeHead (pathed (pair ldB lk)) 0) 0) 0 ldB img0 (List.replicate 64 1), by unfold headCommand; decide +kernel⟩,
    ⟨0, vfB, img0, pathed (pair vfB lk), writeDigest (sourceBegun (takeHead (pathed (pair vfB lk)) 0) 0 vfB img0 []) 0 vfB (sha256 img0), by unfold headCommand; decide +kernel⟩,
    ⟨.verifyImage 0 [] , 2, 0, ds 2 [(0x10, 0x5000), (0x18, 64)], [], [], pair (ds 2 [(0x10, 0x5000), (0x18, 64)]) lk, by unfold headCommand; decide +kernel⟩,
    ⟨0, vfS, ((List.range 3).flatMap (fun i => leBytes 8 (storeRead ({ pathed (pair vfS lk) with clusters := [(0, { store := { words := [(1, 7), (3, 9)] } })] }) 0 (1 + i)).1.toNat)).take 20, 20, 0, 1, { pathed (pair vfS lk) with clusters := [(0, { store := { words := [(1, 7), (3, 9)] } })] }, by unfold headCommand; decide +kernel⟩,
    ⟨0, quB, pair quB lk, by unfold headCommand; decide +kernel⟩,
    ⟨0, quB, qx, F (pathed (pair quB { lk with image := some imQ })) [(fFormat 0, 1)], imQ, lay0, by unfold headCommand; decide +kernel⟩,
    ⟨[0, 0], 7, 8, 0, 0, (chooseScale [0, 0] 7 8).1, (chooseScale [0, 0] 7 8).2, by decide +kernel⟩,
    ⟨[0, 0], 7, 8, 0, 0, (chooseScale [0, 0] 7 8).1, (chooseScale [0, 0] 7 8).2, by decide +kernel⟩,
    ⟨wsA, 7, 8, 2 ^ 150 + 12345678901234567890123, 2 ^ 151 + 99, (chooseScale wsA 7 8).1, (chooseScale wsA 7 8).2, by decide +kernel⟩,
    ⟨wsA, 7, 8, 2 ^ 150 + 12345678901234567890123, 2 ^ 151 + 99, (chooseScale wsA 7 8).1, (chooseScale wsA 7 8).2, by decide +kernel⟩,
    ⟨wsA, 7, 8, 2 ^ 150 + 12345678901234567890123, 2 ^ 151 + 99, (chooseScale wsA 7 8).1, (chooseScale wsA 7 8).2, by decide +kernel⟩,
    ⟨wsA, 7, 8, 2 ^ 150 + 12345678901234567890123, 2 ^ 151 + 99, (chooseScale wsA 7 8).1, (chooseScale wsA 7 8).2, by decide +kernel⟩,
    ⟨wsA, 7, 8, 2 ^ 150 + 12345678901234567890123, 2 ^ 151 + 99, (chooseScale wsA 7 8).1, (chooseScale wsA 7 8).2, by decide +kernel⟩,
    ⟨wsA, 7, 8, 2 ^ 150 + 12345678901234567890123, 2 ^ 151 + 99, (chooseScale wsA 7 8).1, (chooseScale wsA 7 8).2, (chooseScale wsA 7 8).2 - 1, by decide +kernel⟩,
    ⟨wsA, 7, 8, 2 ^ 150 + 12345678901234567890123, 2 ^ 151 + 99, (chooseScale wsA 7 8).1, (chooseScale wsA 7 8).2, (chooseScale wsA 7 8).1 - 1, by decide +kernel⟩,
    ⟨[-8, -3, 0, 1, 5], (3, 30), 9 * 2 ^ 147, -1, 3 * 2 ^ 148, 9 * 2 ^ 147, codeFor [-8, -3, 0, 1, 5] (3, 30) (-1) (9 * 2 ^ 147), by decide +kernel⟩,
    ⟨[-8, -3, 0, 1, 5], (3, 30), 9 * 2 ^ 147, -1, 3 * 2 ^ 148, 9 * 2 ^ 147, codeFor [-8, -3, 0, 1, 5] (3, 30) (-1) (9 * 2 ^ 147), 3, by decide +kernel⟩,
    ⟨[-8, -3, 0, 1, 5], (3, 30), 9 * 2 ^ 147, -1, 3 * 2 ^ 148, 9 * 2 ^ 147, codeFor [-8, -3, 0, 1, 5] (3, 30) (-1) (9 * 2 ^ 147), 3, by decide +kernel⟩,
    by refine ⟨hd0, 0, plM, lk, placeSection hd0 0 plM (lk) (sc3 3), sc3 3, Fin.ofNat 4096 (placedUnit plM 0 1 2), 0, 9, [0x123456789, 0], 0, rfl, ?_⟩; decide +kernel,
    by refine ⟨hd0, 0, plM, lk, placeSection hd0 0 plM (lk) (sc3 4), sc3 4, Fin.ofNat 4096 (placedUnit plM 0 1 2), 1, 9, [0x123456789, 0], 11, rfl, ?_⟩; decide +kernel,
    by refine ⟨hd0, 0, plM, lk, placeSection hd0 0 plM (lk) (sc3 4), sc3 4, Fin.ofNat 4096 (placedUnit plM 0 1 2), 1, 9, [0x123456789, 0], .dot (Fin.ofNat 4096 (placedUnit plM 0 1 2)), 2, rfl, ?_⟩; decide +kernel,
    by refine ⟨hd0, 0, plM, lk, placeSection hd0 0 plM (lk) (sc3 8), sc3 8, Fin.ofNat 4096 (placedUnit plM 0 1 2), 2, 11, placedCluster plM 0 1, rfl, ?_⟩; decide +kernel⟩

/-- The hypotheses of HostMovesMemory can be met. -/
theorem witness_HostMovesMemory :
    (∃ (r : RingIx) (b : List Byte) (data : List Byte) (a : Nat) (s : State), headCommand s r.val 0x10 b ∧ a = opn b 0x10 6 ∧ wholeWords b = true ∧ opn b 0x20 4 = 8 ∧ data.length = 8 ∧ rangeOk s a 8 false = true ∧ pathHasGroup s r.val = true ∧ hostMay s a = true) ∧
    (∃ (r : RingIx) (b : List Byte) (a : Nat) (s : State) (m : Nat) (w : Nat), headCommand s r.val 0x11 b ∧ a = opn b 0x18 6 ∧ wholeWords b = true ∧ opn b 0x20 4 = 8 ∧ rangeOk s a 8 true = true ∧ pathHasGroup s r.val = true ∧ hostMay s a = true ∧ placeOf s a = .tile m w) ∧
    (∃ (r : RingIx) (b : List Byte) (s : State) (m : Nat) (w : Nat) (n : Nat) (v : Nat), headCommand s r.val 0x12 b ∧ wholeWords b = true ∧ opn b 0x20 4 = 8 ∧ placeOf s (opn b 0x18 6) = .tile m w ∧ placeOf s (opn b 0x10 6) = .tile n v ∧ rangeOk s (opn b 0x10 6) 8 false = true ∧ rangeOk s (opn b 0x18 6) 8 true = true ∧ hostMay s (opn b 0x18 6) = true ∧ m ≠ n ∧ hostMay s (opn b 0x10 6) = true) ∧
    (∃ (r : RingIx) (b : List Byte) (s : State) (m : Nat) (w : Nat) (n : Nat) (v : Nat), headCommand s r.val 0x12 b ∧ wholeWords b = true ∧ opn b 0x20 4 = 8 ∧ placeOf s (opn b 0x18 6) = .tile m w ∧ placeOf s (opn b 0x10 6) = .tile n v ∧ rangeOk s (opn b 0x10 6) 8 false = true ∧ rangeOk s (opn b 0x18 6) 8 true = true ∧ hostMay s (opn b 0x18 6) = true ∧ m = n) ∧
    (∃ (r : RingIx) (b : List Byte) (a : Nat) (s : State), headCommand s r.val 0x11 b ∧ a = opn b 0x18 6 ∧ wholeWords b = true ∧ rangeOk s a (opn b 0x20 4) true = true ∧ pathHasGroup s r.val = true ∧ hostMay s a = false) :=
  ⟨⟨0, wrB, [1, 2, 3, 4, 5, 6, 7, 8], 0x10000000008, hostAt 0 (memP (pathed (pair wrB lk))), by unfold headCommand; decide +kernel⟩,
    ⟨0, rdB, 0x10000000008, hostAt 0 (memP (pathed (pair rdB lk))), 0, 1, by unfold headCommand; decide +kernel⟩,
    ⟨0, cpC, { memP (pathed (pair cpC lk)) with memArb := [(0, { busy := true, owner := some .host }), (1, { busy := true, owner := some .host })] }, 0, 1, 1, 0, by unfold headCommand; decide +kernel⟩,
    ⟨0, cpB, hostAt 0 (memP (pathed (pair cpB lk))), 0, 1, 0, 0, by unfold headCommand; decide +kernel⟩,
    ⟨0, rdB, 0x10000000008, memP (pathed (pair rdB lk)), by unfold headCommand; decide +kernel⟩⟩

/-- The hypotheses of HostCommandsTakeEffect can be met. -/
theorem witness_HostCommandsTakeEffect :
    (∃ (r : RingIx) (b : List Byte) (s : State), headCommand s r.val 0x20 b ∧ stopsRuns s = false ∧ armError (takeLock (takeHead s r.val) r.val) = none) ∧
    (∃ (r : RingIx) (b : List Byte) (s : State) (e : Nat × Nat), headCommand s r.val 0x20 b ∧ stopsRuns s = false ∧ armError (takeLock (takeHead s r.val) r.val) = some e) ∧
    (∃ (r : RingIx) (b : List Byte) (s : State), headCommand s r.val 0x21 b ∧ s.is fArmed = false) ∧
    (∃ (r : RingIx) (b : List Byte) (s : State), headCommand s r.val 0x21 b ∧ s.is fArmed = true ∧ s.run.started = true ∧ s.stagedImage = false ∧ s.run.stop = none ∧ s.pendTable.length < 16 ∧ ((∀ e ∈ s.pendTable, e.code = .runStop → e.x ≠ s.clock.xseq + 2))) ∧
    (∃ (r : RingIx) (b : List Byte) (s : State), headCommand s r.val 0x21 b ∧ s.is fArmed = true ∧ s.run.started = false) ∧
    (∃ (r : RingIx) (b : List Byte) (s : State), headCommand s r.val 0x21 b ∧ s.is fArmed = true ∧ s.run.started = true ∧ s.stagedImage = true) ∧
    (∃ (r : RingIx) (b : List Byte) (s : State), headCommand s r.val 0x21 b ∧ s.is fArmed = true ∧ s.run.started = true ∧ s.stagedImage = false ∧ s.run.stop ≠ none) ∧
    (∃ (r : RingIx) (b : List Byte) (s : State), headCommand s r.val 0x21 b ∧ s.is fArmed = true ∧ s.run.started = true ∧ s.stagedImage = false ∧ s.run.stop = none ∧ 16 ≤ s.pendTable.length) ∧
    (∃ (c : Instr) (op : Nat) (code : PendCode) (r : RingIx) (b : List Byte) (s : State), (c, op, code) ∈ [(Instr.selectMenu r, 0x22, PendCode.menuSelect), (.frostHostCommand r, 0x30, .frost)] ∧ headCommand s r.val op b ∧ ((code = .menuSelect → menuEnabled s (a3Of b) = true ∧ a3Of b < 16 ∧ (s.stagedImage = true → s.run.started = false))) ∧ accepts s code (refOf b) (a3Of b) = true) ∧
    (∃ (c : Instr) (op : Nat) (code : PendCode) (r : RingIx) (b : List Byte) (s : State), (c, op, code) ∈ [(Instr.selectMenu r, 0x22, PendCode.menuSelect), (.frostHostCommand r, 0x30, .frost)] ∧ headCommand s r.val op b ∧ ((code = .menuSelect → menuEnabled s (a3Of b) = true ∧ a3Of b < 16 ∧ (s.stagedImage = true → s.run.started = false))) ∧ accepts s code (refOf b) (a3Of b) = false) ∧
    (∃ (r : RingIx) (b : List Byte) (s : State), headCommand s r.val 0x31 b ∧ s.is fHeld = false) ∧
    (∃ (r : RingIx) (b : List Byte) (s : State), headCommand s r.val 0x31 b ∧ s.is fHeld = true ∧ opn b 0x18 4 % 8 = 0 ∧ opn b 0x20 4 = 8 ∧ opn b 0x18 4 + 8 ≤ 0x4200000 ∧ pathHasGroup s r.val = true) ∧
    (∃ (r : RingIx) (b : List Byte) (s : State), headCommand s r.val 0x31 b ∧ s.is fHeld = true ∧ ((opn b 0x18 4 % 8 ≠ 0 ∨ opn b 0x20 4 % 8 ≠ 0 ∨ opn b 0x20 4 = 0 ∨ 0x4200000 < opn b 0x18 4 + opn b 0x20 4 ∨ pathHasGroup s r.val = false))) ∧
    (∃ (r : RingIx) (b : List Byte) (rec_ : List Word64) (l : List (List Word64)) (s : State), headCommand s r.val 0x32 b ∧ pathHasGroup s r.val = true ∧ s.spy (bits (opn b 0x1C 1) 0 3) = ⟨rec_ :: l, []⟩ ∧ bits (opn b 0x1C 1) 3 1 = 0 ∧ 0 < rec_.length ∧ opn b 0x18 4 / 8 = rec_.length ∧ ((∀ x ∈ l, x ≠ []))) ∧
    (∃ (r : RingIx) (b : List Byte) (s : State), headCommand s r.val 0x40 b ∧ pathHasGroup s r.val = true) ∧
    (∃ (r : RingIx) (b : List Byte) (s : State), headCommand s r.val 0x41 b) ∧
    (∃ (r : RingIx) (b : List Byte) (s : State), headCommand s r.val 0x50 b) ∧
    (∃ (r : RingIx) (b : List Byte) (s : State), headCommand s r.val 0x51 b ∧ s.fld fRegime ≠ 0) ∧
    (∃ (r : RingIx) (b : List Byte) (s : State), headCommand s r.val 0x51 b ∧ s.fld fRegime = 0 ∧ opn b 0x10 1 = 1) ∧
    (∃ (r : RingIx) (found : BistResult) (i : Nat) (d : Nat) (bytes : List Byte) (left : List (Nat × Nat)) (s : State), (s.ring r.val).cur = some ⟨i, bytes, .testing found ((0, d) :: left)⟩ ∧ d < 16 ∧ opn bytes 0x10 1 = 1 ∧ onlyPair s r.val ∧ endingPair s = none) ∧
    (∃ (r : RingIx) (b : List Byte) (s : State), headCommand s r.val 0x52 b ∧ (s.image ≠ none ∨ s.armed = true)) ∧
    (∃ (r : RingIx) (b : List Byte) (s : State), headCommand s r.val 0x52 b ∧ s.image = none ∧ s.armed = false ∧ opn b 0x12 1 = 0) :=
  ⟨⟨0, arB, F (pair arB { lk with image := some imS }) [(fTrained lk 0, 1), (fTrained lk 1, 1)], by unfold headCommand; decide +kernel⟩,
    ⟨0, arB, pair arB lkIm, (armError (takeLock (takeHead (pair arB lkIm) 0) 0)).getD (0, 0), by unfold headCommand; decide +kernel⟩,
    ⟨0, diB, pair diB lk, by unfold headCommand; decide +kernel⟩,
    ⟨0, diB, pair diB inL, by unfold headCommand; decide +kernel⟩,
    ⟨0, diB, pair diB (F lkIm [(fArmed, 1)]), by unfold headCommand; decide +kernel⟩,
    ⟨0, diB, pair diB inS, by unfold headCommand; decide +kernel⟩,
    ⟨0, diB, pair diB { inL with run := { started := true, start := 18, anchor0 := 18, count := 2, stop := some 21 } }, by unfold headCommand; decide +kernel⟩,
    ⟨0, diB, pair diB { inL with pendTable := List.replicate 16 ⟨.testPulse, 21, 0, false, none⟩ }, by unfold headCommand; decide +kernel⟩,
    ⟨.selectMenu 0, 0x22, .menuSelect, 0, smB 0x009007 3, pair (smB 0x009007 3) lkIm, by unfold headCommand; decide +kernel⟩,
    ⟨.selectMenu 0, 0x22, .menuSelect, 0, smB 0x009006 3, pair (smB 0x009006 3) lkIm, by unfold headCommand; decide +kernel⟩,
    ⟨0, frB, pair frB lk, by unfold headCommand; decide +kernel⟩,
    ⟨0, frB, F (pathed (pair frB lk)) [(fHeld, 1)], by unfold headCommand; decide +kernel⟩,
    ⟨0, frC, F (pathed (pair frC lk)) [(fHeld, 1)], by unfold headCommand; decide +kernel⟩,
    ⟨0, spB, [5], [[6, 7]], { pathed (pair spB lk) with spies := [(2, ⟨[[5], [6, 7]], []⟩)] }, by unfold headCommand; decide +kernel⟩,
    ⟨0, atB, pathed (pair atB lk), by unfold headCommand; decide +kernel⟩,
    ⟨0, scB, pair scB lk, by unfold headCommand; decide +kernel⟩,
    ⟨0, ltB, pair ltB lk, by unfold headCommand; decide +kernel⟩,
    ⟨0, biB, F (pair biB lk) [(fRegime, 1)], by unfold headCommand; decide +kernel⟩,
    ⟨0, biB, pair biB lk, by unfold headCommand; decide +kernel⟩,
    ⟨0, ⟨[5, 300], 1, 1⟩, 2, 1, biB, [(0, 2)], { lk with rings := [(0, { cur := some ⟨2, biB, .testing ⟨[5, 300], 1, 1⟩ [(0, 1), (0, 2)]⟩ })] }, by unfold onlyPair; decide +kernel⟩,
    ⟨0, baB, pair baB lkIm, by unfold headCommand; decide +kernel⟩,
    ⟨0, baB, pair baB lk, by unfold headCommand; decide +kernel⟩⟩

/-- The hypotheses of MemoryTilesKeepWords can be met. -/
theorem witness_MemoryTilesKeepWords :
    (∃ (m : MemIx) (addr : Nat) (n : Nat) (x : Nat) (a : BitVec 48) (bytes : List Byte) (f : Flit) (s : State), memExists s m.val = true ∧ grantee s (.memory m) = some .host ∧ hostJob s m.val = some (.context x) ∧ s.fld (fCtxKind x) = 4 ∧ (s.ctx x).buf = [f] ∧ f.body = .write a bytes ∧ (s.ctx x).words = [] ∧ a.toNat % 8 = 0 ∧ bytes.length = 8 * n ∧ 1 ≤ n ∧ a.toNat % 64 + 8 * n ≤ 64 ∧ tileOf s a.toNat = some (m.val, addr / 8) ∧ groupsEmpty s ∧ (s.ctx x).due + 1 < 8) ∧
    (∃ (m : MemIx) (addr : Nat) (x : Nat) (a : BitVec 48) (tag : Byte) (link : LinkEcc) (e : Option Ecc) (f : Flit) (s : State), memExists s m.val = true ∧ grantee s (.memory m) = some .host ∧ hostJob s m.val = some (.context x) ∧ s.fld (fCtxKind x) = 4 ∧ (s.ctx x).buf = [f] ∧ f.body = .read a 7 tag ∧ (s.ctx x).words = [] ∧ a.toNat % 8 = 0 ∧ tileOf s a.toNat = some (m.val, addr / 8) ∧ groupsEmpty s ∧ (s.ctx x).due + 1 < 8 ∧ e = linkCheck ((s.memTile m.val).check (addr / 8)) (linkError link 0)) ∧
    (∃ (m : MemIx) (addr : Nat) (r : Nat) (moved : Nat) (a : Nat) (len : Nat) (given : List Byte) (held : List (Word64 × Bool)) (bad : Option Nat) (c : RingCmd) (s : State), memExists s m.val = true ∧ grantee s (.memory m) = some .host ∧ hostJob s m.val = some (.pair r) ∧ r = s.fld fEngineRing ∧ (s.ring r).cur = some c ∧ c.phase = .moving moved given held bad ∧ len = opn c.bytes 0x20 4 ∧ opcodeOf c.bytes = 0x10 ∧ a = opn c.bytes 0x10 6 + moved ∧ held ≠ [] ∧ held.any (fun p => p.2) = false ∧ tileOf s a = some (m.val, addr / 8) ∧ a % 8 = 0 ∧ a % 64 + 8 * held.length ≤ 64 ∧ moved + 8 * held.length < len ∧ moved % 262144 + 8 * held.length ≤ 262144) ∧
    (∃ (m : MemIx) (addr : Nat) (r : Nat) (moved : Nat) (a : Nat) (len : Nat) (given : List Byte) (held : List (Word64 × Bool)) (bad : Option Nat) (link : LinkEcc) (c : RingCmd) (s : State) (n : Nat), memExists s m.val = true ∧ grantee s (.memory m) = some .host ∧ hostJob s m.val = some (.pair r) ∧ r = s.fld fEngineRing ∧ (s.ring r).cur = some c ∧ c.phase = .moving moved given held bad ∧ len = opn c.bytes 0x20 4 ∧ opcodeOf c.bytes = 0x11 ∧ a = opn c.bytes 0x18 6 + moved ∧ held = [] ∧ tileOf s a = some (m.val, addr / 8) ∧ a % 8 = 0 ∧ n = min (len - moved) (min (262144 - moved % 262144) (64 - a % 64)) / 8 ∧ len % 8 = 0 ∧ moved % 8 = 0 ∧ moved < len ∧ link.passed = [] ∧ ((∀ j : Nat, j < n → (s.memTile m.val).check (addr / 8 + j) = none))) ∧
    (∃ (r : RegionIx) (q : Requester) (i : Nat) (w : Nat) (k : Nat) (v : Nat) (x : List Word32) (d : Desc) (m : MemIx) (addr : Nat) (s : State), memExists s m.val = true ∧ grantee s (.cache r) = some q ∧ grantedDesc s r.val q = some i ∧ grantee s (.memory m) = some (.desc r (Fin.ofNat 64 i)) ∧ i < 64 ∧ d = s.desc r.val i ∧ d.running = some x ∧ d.stopping = none ∧ d.reqs = [] ∧ d.pins = [] ∧ d.written = 0 ∧ d.requested = 8 ∧ snapIdxEn x = false ∧ snapSkind x = 6 ∧ snapDkind x = 0 ∧ placeOf s (snapDst x) = .tile m.val w ∧ addr / 8 = w ∧ bufferWord s r.val (bufferOf d 6 (snapSrc x)) (kindOffset 6 (snapSrc x)) = some (k, v) ∧ (s.cluster k).store.check v = none ∧ noPinWaits s r.val) ∧
    (∃ (m : MemIx) (addr : Nat) (s : State) (write : Bool), memExists s m.val = true ∧ ((∀ r a : Nat, hostJob s m.val = some (.pair r) → pairAccess s r = some (a, write) → tileOf s a ≠ some (m.val, addr / 8))) ∧ ((∀ x a : Nat, hostJob s m.val = some (.context x) → contextAccess s x = some (a, write) → tileOf s a ≠ some (m.val, addr / 8))) ∧ grantee s (.memory m) = some .host) ∧
    (∃ (m : MemIx) (s : State), memExists s m.val = true ∧ grantee s (.memory m) = none) ∧
    (∃ (m : MemIx) (s : State) (q : Requester), memExists s m.val = true ∧ grantee s (.memory m) = some q ∧ q ≠ .host) ∧
    (∃ (m : MemIx) (s : State), memExists s m.val = true ∧ s.is (fScrubEnM s m.val) = false ∧ s.is (fScrubNowM s m.val) = false ∧ grantee s (.memory m) = none) ∧
    (∃ (m : MemIx) (b : Nat) (link : LinkEcc) (s : State), memExists s m.val = true ∧ (s.is (fScrubEnM s m.val) = true ∨ s.is (fScrubNowM s m.val) = true) ∧ (s.arb (.memory m)).busy = false ∧ (s.arb (.memory m)).emergency = false ∧ (s.arb (.memory m)).parked = [] ∧ b = s.fld (fScrubBlock s m.val) ∧ link.passed = []) ∧
    (∃ (m : MemIx) (s : State), memExists s m.val = true ∧ (s.arb (.memory m)).emergency = false) ∧
    (∃ (m : MemIx) (s : State), memExists s m.val = true) ∧
    (∃ (m : MemIx) (s : State), memExists s m.val = true) ∧
    (∃ (m : MemIx) (b : Nat) (s : State), memExists s m.val = true ∧ (s.is (fScrubEnM s m.val) = true ∨ s.is (fScrubNowM s m.val) = true) ∧ (s.arb (.memory m)).busy = false ∧ (s.arb (.memory m)).emergency = false ∧ (s.arb (.memory m)).parked = [] ∧ b = s.fld (fScrubBlock s m.val)) :=
  ⟨by refine ⟨0, 0x130, 2, 1, 0x10000000130, [1, 2, 3, 4, 5, 6, 7, 8, 0, 0, 0, 0, 0, 0, 0, 0], ⟨false, 1, true, true, false, .write 0x10000000130 [1, 2, 3, 4, 5, 6, 7, 8, 0, 0, 0, 0, 0, 0, 0, 0]⟩, ctxAt 0 (.write 0x10000000130 [1, 2, 3, 4, 5, 6, 7, 8, 0, 0, 0, 0, 0, 0, 0, 0]) (mem0 [(38, some .uncorrectable)]), ?_, ?_, ?_, ?_, ?_, ?_, ?_, ?_, ?_, ?_, ?_, ?_, (fun _ => rfl), ?_⟩ <;> decide +kernel,
    by refine ⟨0, 440, 1, 0x100000001B8, 9, ⟨0, [(0, true)]⟩, some .uncorrectable, ⟨false, 1, true, true, false, .read 0x100000001B8 7 9⟩, ctxAt 0 (.read 0x100000001B8 7 9) (mem0 []), ?_, ?_, ?_, ?_, ?_, ?_, ?_, ?_, ?_, (fun _ => rfl), ?_⟩ <;> decide +kernel,
    ⟨0, 24, 0, 16, 0x10000000018, 64, [], [(7, false), (0, false)], none, ⟨2, moveW, .moving 16 [] [(7, false), (0, false)] none⟩, moveAt moveW 16 [(7, false), (0, false)] (mem0 [(3, some .uncorrectable)]), by decide +kernel⟩,
    ⟨0, 24, 0, 16, 0x10000000018, 64, [], [], none, ⟨1, []⟩, ⟨2, moveR, .moving 16 [] [] none⟩, moveAt moveR 16 [] (mem0 []), 5, by decide +kernel⟩,
    by refine ⟨0, .engine, 3, 33, 0, 16, wr1, dWrite, 0, 0x108, wrS [(0, { busy := true, owner := some (.desc 0 3) })], ?_, ?_, ?_, ?_, ?_, ?_, ?_, ?_, ?_, ?_, ?_, ?_, ?_, ?_, ?_, ?_, ?_, ?_, ?_, (noPinWaits_of _ _ (by decide +kernel))⟩ <;> decide +kernel,
    by refine ⟨0, 8, hostAt 0 (mem0 []), true, ?_, (fun _ _ h => by
      rw [show hostJob _ _ = none from by decide +kernel] at h
      cases h), (fun _ _ h => by
      rw [show hostJob _ _ = none from by decide +kernel] at h
      cases h), ?_⟩ <;> decide +kernel,
    ⟨0, mem0 [], by decide +kernel⟩,
    ⟨0, { mem0 [] with memArb := [(0, { busy := true, owner := some (.desc 0 3) })] }, .desc 0 3, by decide +kernel⟩,
    ⟨0, F (mem0 []) [(fScrubEnM lk 0, 0)], by decide +kernel⟩,
    ⟨0, 2 ^ 26 - 1, ⟨3, []⟩, F (mem0 [(56 * (2 ^ 26 - 1) + 3, some .correctable)]) [(fScrubEnM lk 0, 1), (fScrubBlock lk 0, 2 ^ 26 - 1)], by decide +kernel⟩,
    ⟨1, { lk with memArb := [(1, { busy := true, owner := some (.desc 0 3), parked := [(.host, 2)] })] }, by decide +kernel⟩,
    ⟨0, lk, by decide +kernel⟩,
    ⟨0, lk, by decide +kernel⟩,
    ⟨0, 0, F (mem0 [(55, some .correctable)]) [(fScrubEnM lk 0, 1)], by decide +kernel⟩⟩

/-- The hypotheses of CachesServeRegions can be met. -/
theorem witness_CachesServeRegions :
    (∃ (r : RegionIx) (q : Requester) (i : Nat) (x : List Word32) (l : LineReq) (c : CacheLine) (d : Desc) (addr : BitVec 48) (s : State), grantee s (.cache r) = some q ∧ grantedDesc s r.val q = some i ∧ d = s.desc r.val i ∧ d.running = some x ∧ d.stopping = none ∧ nextReq s r.val i = some l ∧ findLine (s.region r.val) l.line = some c ∧ c.weak = [] ∧ c.poison = [] ∧ ((∃ e ∈ d.reqs, e ≠ l ∧ e.lo ≤ d.written)) ∧ d.written < l.hi ∧ ((∀ p ∈ d.pins, d.written < p.2)) ∧ noPinWaits s r.val ∧ addr.toNat / 256 = l.line) ∧
    (∃ (r : RegionIx) (q : Requester) (i : Nat) (l : LineReq) (addr : BitVec 48) (s : State) (w : Nat) (v : Region), grantee s (.cache r) = some q ∧ grantedDesc s r.val q = some i ∧ (s.desc r.val i).stopping = none ∧ nextReq s r.val i = some l ∧ findLine (s.region r.val) l.line = none ∧ ((∀ f ∈ (s.region r.val).fills, f.addr ≠ l.line)) ∧ noPinWaits s r.val ∧ addr.toNat / 256 = l.line ∧ makeRoom (s.region r.val) (setOf l.line) = some (w, v)) ∧
    (∃ (r : RegionIx) (q : Requester) (i : Nat) (l : LineReq) (addr : BitVec 48) (s : State), grantee s (.cache r) = some q ∧ grantedDesc s r.val q = some i ∧ (s.desc r.val i).stopping = none ∧ nextReq s r.val i = some l ∧ findLine (s.region r.val) l.line = none ∧ ((∀ f ∈ (s.region r.val).fills, f.addr ≠ l.line)) ∧ noPinWaits s r.val ∧ addr.toNat / 256 = l.line ∧ makeRoom (s.region r.val) (setOf l.line) = none) ∧
    (∃ (r : RegionIx) (q : Requester) (i : Nat) (m : Nat) (w : Nat) (k : Nat) (v : Nat) (x : List Word32) (d : Desc) (addr : BitVec 48) (s : State), grantee s (.cache r) = some q ∧ grantedDesc s r.val q = some i ∧ d = s.desc r.val i ∧ d.running = some x ∧ d.stopping = none ∧ d.reqs = [] ∧ d.pins = [] ∧ d.written = 0 ∧ d.requested = 8 ∧ snapIdxEn x = false ∧ snapSkind x = 6 ∧ snapDkind x = 0 ∧ placeOf s (snapDst x) = .tile m w ∧ bufferWord s r.val (bufferOf d 6 (snapSrc x)) (kindOffset 6 (snapSrc x)) = some (k, v) ∧ (s.cluster k).store.check v = none ∧ noPinWaits s r.val ∧ addr.toNat / 256 = snapDst x / 256 ∧ grantee s (.memory (Fin.ofNat 8 m)) = some (.desc r (Fin.ofNat 64 i))) ∧
    (∃ (r : RegionIx) (q : Requester) (i : Nat) (m : Nat) (w : Nat) (k : Nat) (v : Nat) (x : List Word32) (d : Desc) (addr : BitVec 48) (s : State), grantee s (.cache r) = some q ∧ grantedDesc s r.val q = some i ∧ d = s.desc r.val i ∧ d.running = some x ∧ d.stopping = none ∧ d.reqs = [] ∧ d.pins = [] ∧ d.written = 0 ∧ d.requested = 8 ∧ snapIdxEn x = false ∧ snapSkind x = 6 ∧ snapDkind x = 0 ∧ placeOf s (snapDst x) = .tile m w ∧ bufferWord s r.val (bufferOf d 6 (snapSrc x)) (kindOffset 6 (snapSrc x)) = some (k, v) ∧ (s.cluster k).store.check v = none ∧ noPinWaits s r.val ∧ addr.toNat / 256 = snapDst x / 256 ∧ grantee s (.memory (Fin.ofNat 8 m)) ≠ some (.desc r (Fin.ofNat 64 i))) ∧
    (∃ (r : RegionIx) (addr : BitVec 48) (link : LinkEcc) (f : CacheFillReq) (i : Nat) (la : Nat) (t0 : Nat) (d : Desc) (e : LineReq) (l : LineReq) (x : List Word32) (s : State), la = addr.toNat / 256 ∧ t0 = lineTile la ∧ (s.region r.val).fills.find? (fun g => decide (g.addr = la)) = some f ∧ f.desc = i ∧ grantee s (.memory (Fin.ofNat 8 t0)) = some (.desc r (Fin.ofNat 64 i)) ∧ (s.region r.val).descs = [(i, d)] ∧ d.running = some x ∧ d.stopping = none ∧ d.reqs = [e, l] ∧ e.line ≠ la ∧ e.status = .waitFill ∧ l.line = la ∧ l.status = .waitFill ∧ e.lo ≤ d.written ∧ d.written < l.hi ∧ ((∀ p ∈ d.pins, d.written < p.2)) ∧ findLine (s.region r.val) la = none ∧ link.passed = [] ∧ ((∀ j : Nat, j < 32 → (s.memTile t0).check (lineWord la + j) = none))) ∧
    (∃ (r : RegionIx) (addr : BitVec 48) (s : State), ((∀ f ∈ (s.region r.val).fills, f.addr = addr.toNat / 256 → grantee s (.memory (Fin.ofNat 8 (lineTile f.addr))) ≠ some (.desc r (Fin.ofNat 64 f.desc))))) ∧
    (∃ (r : RegionIx) (s : State), noPinWaits s r.val) :=
  ⟨by refine ⟨0, .engine, 3, rd2, ⟨0x100000001, 0, 8, 16, .new⟩, lnw 0, dRead .new, a40, cacheAt (dRead .new) [lnw 0] [] inS, ?_, ?_, ?_, ?_, ?_, ?_, ?_, ?_, ?_, ?_, ?_, ?_, (noPinWaits_of _ _ (by decide +kernel)), ?_⟩ <;> decide +kernel,
    by refine ⟨0, .engine, 3, ⟨0x100000001, 0, 8, 16, .new⟩, a40, cacheAt (dRead .new) [] [⟨0x100000002, 1, 3⟩] inS, 0, (cacheAt (dRead .new) [] [⟨0x100000002, 1, 3⟩] inS).region 0, ?_, ?_, ?_, ?_, ?_, ?_, (noPinWaits_of _ _ (by decide +kernel)), ?_⟩ <;> decide +kernel,
    by refine ⟨0, .engine, 3, ⟨0x100000001, 0, 8, 16, .new⟩, a40, cacheAt (dRead .new) ((List.range 16).map (fun i => ⟨0x100000001 + 2048 * (i + 1), i, List.replicate 32 9, [], [], 1, 3, false⟩)) [] inS, ?_, ?_, ?_, ?_, ?_, ?_, (noPinWaits_of _ _ (by decide +kernel)), ?_⟩ <;> decide +kernel,
    by refine ⟨0, .engine, 3, 0, 33, 0, 16, wr1, dWrite, a40, wrS [(0, { busy := true, owner := some (.desc 0 3) })], ?_, ?_, ?_, ?_, ?_, ?_, ?_, ?_, ?_, ?_, ?_, ?_, ?_, ?_, ?_, (noPinWaits_of _ _ (by decide +kernel)), ?_⟩ <;> decide +kernel,
    by refine ⟨0, .engine, 3, 0, 33, 0, 16, wr1, dWrite, a40, wrS [(0, { busy := true, owner := some .host })], ?_, ?_, ?_, ?_, ?_, ?_, ?_, ?_, ?_, ?_, ?_, ?_, ?_, ?_, ?_, (noPinWaits_of _ _ (by decide +kernel)), ?_⟩ <;> decide +kernel,
    ⟨0, a40, ⟨3, []⟩, ⟨0x100000001, 7, 3⟩, 3, 0x100000001, 0, dRead .waitFill, ⟨0x100000000, 31, 0, 8, .waitFill⟩, ⟨0x100000001, 0, 8, 16, .waitFill⟩, rd2, { cacheAt (dRead .waitFill) [] [⟨0x100000001, 7, 3⟩, ⟨0x100000000, 1, 3⟩] inS with memArb := [(0, { busy := true, owner := some (.desc 0 3) })], memTiles := [(0, { words := [(33, 77)] })] }, by decide +kernel⟩,
    ⟨0, a40, cacheAt (dRead .waitFill) [] [⟨0x100000001, 7, 3⟩] inS, by decide +kernel⟩,
    ⟨0, cacheAt (dRead .new) [lnw 0, { lnw 2 with addr := 5 }] [] inS, (noPinWaits_of _ _ (by decide +kernel))⟩⟩

/-- The hypotheses of DescriptorsTransfer can be met. -/
theorem witness_DescriptorsTransfer :
    (∃ (r : RegionIx) (s : State), s.recovery = false ∧ s.stagedImage = true ∧ s.run.started = true ∧ s.idleRegion r.val = true) ∧
    (∃ (s : State), s.recovery = false ∧ ((s.stagedImage = false ∨ s.run.started = false))) ∧
    (∃ (r : RegionIx) (i : Fin 64) (s : State), s.recovery = false ∧ s.idleRegion r.val = false ∧ s.stagedImage = true ∧ s.run.started = true ∧ (s.desc r.val i.val).running = none ∧ snapError (snapshot s r.val i.val) = none ∧ snapInEn (snapshot s r.val i.val) = false) ∧
    (∃ (r : RegionIx) (i : Fin 64) (s : State), s.recovery = false ∧ s.idleRegion r.val = false ∧ s.stagedImage = true ∧ s.run.started = true ∧ (s.desc r.val i.val).running ≠ none) ∧
    (∃ (r : RegionIx) (i : Fin 64) (s : State), s.recovery = false ∧ s.idleRegion r.val = false ∧ (s.desc r.val i.val).running ≠ none ∧ inFlight s r.val i.val = true) ∧
    (∃ (r : RegionIx) (i : Fin 64) (s : State), s.recovery = false ∧ s.idleRegion r.val = false ∧ (s.desc r.val i.val).running ≠ none ∧ inFlight s r.val i.val = false ∧ noPinWaits s r.val) ∧
    (∃ (r : RegionIx) (i : Fin 64) (x : List Word32) (d : Desc) (s : State) (qs : List LineReq), d = s.desc r.val i.val ∧ d.running = some x ∧ s.runs = true ∧ d.waitPop = false ∧ d.waitPush = false ∧ d.stopping = none ∧ noPinWaits s r.val ∧ d.requested < snapBytes x ∧ tilesOpen d < 2 ∧ tileRequests s x d.requested (tileEnd x d.requested) = some qs) ∧
    (∃ (r : RegionIx) (i : Fin 64) (x : List Word32) (d : Desc) (s : State), d = s.desc r.val i.val ∧ d.running = some x ∧ s.runs = true ∧ d.waitPop = false ∧ d.waitPush = false ∧ d.stopping = none ∧ noPinWaits s r.val ∧ d.requested < snapBytes x ∧ tilesOpen d < 2 ∧ tileRequests s x d.requested (tileEnd x d.requested) = none) ∧
    (∃ (r : RegionIx) (i : Fin 64) (x : List Word32) (d : Desc) (s : State), d = s.desc r.val i.val ∧ d.running = some x ∧ s.runs = true ∧ d.waitPop = false ∧ d.waitPush = false ∧ d.stopping = none ∧ noPinWaits s r.val ∧ snapBytes x ≤ d.requested ∧ snapBytes x ≤ d.written ∧ snapOutEn x = false ∧ d.queued = none) ∧
    (∃ (r : RegionIx) (i : Fin 64) (x : List Word32) (d : Desc) (s : State) (k : Nat) (w : Nat) (k' : Nat) (w' : Nat), d = s.desc r.val i.val ∧ d.running = some x ∧ s.runs = true ∧ d.waitPop = false ∧ d.waitPush = false ∧ d.stopping = none ∧ noPinWaits s r.val ∧ snapBytes x = 8 ∧ d.requested = 8 ∧ d.written = 0 ∧ snapIdxEn x = false ∧ snapSkind x = 6 ∧ snapDkind x = 6 ∧ bufferWord s r.val (bufferOf d 6 (snapSrc x)) (kindOffset 6 (snapSrc x)) = some (k, w) ∧ bufferWord s r.val (bufferOf d 6 (snapDst x)) (kindOffset 6 (snapDst x)) = some (k', w') ∧ d.reqs = [] ∧ d.pins = [] ∧ d.queued = none ∧ d.moved = 0 ∧ snapOutEn x = false ∧ (s.cluster k).store.check w = none) ∧
    (∃ (r : RegionIx) (i : Fin 64) (x : List Word32) (h : BitVec 16) (l : List (BitVec 16)) (s : State), (s.desc r.val i.val).running = some x ∧ (s.desc r.val i.val).waitPop = true ∧ s.hq r.val (snapCtl x 20 4) = h :: l) ∧
    (∃ (r : RegionIx) (i : Fin 64) (x : List Word32) (h : BitVec 16) (l : List (BitVec 16)) (s : State), (s.desc r.val i.val).running = some x ∧ (s.desc r.val i.val).waitPush = true ∧ snapOutEn x = true ∧ s.hq r.val (snapCtl x 25 4) = l ∧ l.length < 16 ∧ (s.desc r.val i.val).handle = some h ∧ snapSkind x = 0 ∧ snapDkind x = 1 ∧ (s.desc r.val i.val).queued = none) ∧
    (∃ (r : RegionIx) (q : Fin 16) (s : State), (s.hq r.val q.val).length < 16) ∧
    (∃ (r : RegionIx) (q : Fin 16) (s : State), 16 ≤ (s.hq r.val q.val).length) ∧
    (∃ (r : RegionIx) (q : Fin 16) (s : State) (h : BitVec 16) (l : List (BitVec 16)), s.hq r.val q.val = h :: l) ∧
    (∃ (r : RegionIx) (q : Fin 16) (s : State), s.hq r.val q.val = []) :=
  ⟨⟨63, inS, by decide +kernel⟩,
    ⟨inL, by decide +kernel⟩,
    ⟨0, 3, F inS [(⟨descBase 0 3 + 0x10, 0, 32⟩, 8), (⟨descBase 0 3 + 0x2C, 0, 32⟩, 432)], by decide +kernel⟩,
    ⟨0, 3, dsc { running := some (sn 0 64 8 432), queued := some (sn 0 64 8 432) } inS, by decide +kernel⟩,
    ⟨0, 3, { cacheAt (dRead .new) [lnw 0] [] inS with regions := [(0, { arb := { busy := true, owner := some .engine, decisions := 5, grantedAt := 3 }, lines := [lnw 0], descs := [(3, dRead .new)] })] }, by decide +kernel⟩,
    by refine ⟨0, 3, F (dsc { running := some (sn 0 64 8 432), queued := some (sn 0 64 8 432) } inS) [(fBusy 0 3, 1), (fPending 0 3, 1)], ?_, ?_, ?_, ?_, (noPinWaits_of _ _ (by decide +kernel))⟩ <;> decide +kernel,
    by refine ⟨0, 3, [0x108, 0x100, 64, 0, 40000, 0, 0, 0, 0, 0, 0, 384], { running := some [0x108, 0x100, 64, 0, 40000, 0, 0, 0, 0, 0, 0, 384], requested := 32768 }, dsc { running := some [0x108, 0x100, 64, 0, 40000, 0, 0, 0, 0, 0, 0, 384], requested := 32768 } inS, (tileRequests inS [0x108, 0x100, 64, 0, 40000, 0, 0, 0, 0, 0, 0, 384] 32768 40000).getD [], ?_, ?_, ?_, ?_, ?_, ?_, (noPinWaits_of _ _ (by decide +kernel)), ?_⟩ <;> decide +kernel,
    by refine ⟨0, 3, [0, 0x150, 64, 0, 256, 0, 0, 0, 0, 0, 0, 384], { running := some [0, 0x150, 64, 0, 256, 0, 0, 0, 0, 0, 0, 384], requested := 0 }, dsc { running := some [0, 0x150, 64, 0, 256, 0, 0, 0, 0, 0, 0, 384], requested := 0 } inS, ?_, ?_, ?_, ?_, ?_, ?_, (noPinWaits_of _ _ (by decide +kernel)), ?_⟩ <;> decide +kernel,
    by refine ⟨0, 3, sn 0 64 8 432, { running := some (sn 0 64 8 432), requested := 8, written := 8 }, F (dsc { running := some (sn 0 64 8 432), requested := 8, written := 8 } inS) [(fBusy 0 3, 1)], ?_, ?_, ?_, ?_, ?_, ?_, (noPinWaits_of _ _ (by decide +kernel)), ?_⟩ <;> decide +kernel,
    by refine ⟨0, 3, sn 0 64 8 432, { running := some (sn 0 64 8 432), requested := 8 }, { F (dsc { running := some (sn 0 64 8 432), requested := 8 } inS) [(fBufKib 0 0, 1), (fBufBase 0 0, 16)] with clusters := [(0, { store := { words := [(16, 99)] } })] }, 0, 16, 1, 16, ?_, ?_, ?_, ?_, ?_, ?_, (noPinWaits_of _ _ (by decide +kernel)), ?_⟩ <;> decide +kernel,
    ⟨0, 3, sn 0 64 8 432, 7, [9], { inS with regions := [(0, { descs := [(3, { running := some (sn 0 64 8 432), waitPop := true })], hqs := [(0, [7, 9])] })] }, by decide +kernel⟩,
    ⟨0, 3, sn 0 0 8 0x20000040, 7, [9], { inS with regions := [(0, { descs := [(3, { running := some (sn 0 0 8 0x20000040), waitPush := true, handle := some 7, poisoned := true, requested := 8, written := 8 })], hqs := [(0, [9])] })] }, by decide +kernel⟩,
    ⟨0, 0, { inS with regions := [(0, { hqs := [(0, List.replicate 15 9)] })] }, by decide +kernel⟩,
    ⟨0, 0, { inS with regions := [(0, { hqs := [(0, List.replicate 16 9)] })] }, by decide +kernel⟩,
    ⟨0, 15, { inS with regions := [(0, { hqs := [(15, [7, 9])] })] }, 7, [9], by decide +kernel⟩,
    ⟨0, 15, inS, by decide +kernel⟩⟩

/-- The hypotheses of BarriersReleaseSteps can be met. -/
theorem witness_BarriersReleaseSteps :
    (∃ (r : RegionIx) (s : State), s.runs = true ∧ s.stage.running = true ∧ s.idleRegion r.val = false ∧ (s.region r.val).arrived = false ∧ regionAtSync s r.val = true ∧ waitsDescs s r.val = false ∧ (stepAt s s.stage.step).system = false) ∧
    (∃ (a : Nat) (i : Nat) (left : Nat) (s : State), s.stage.lastArrival = some a ∧ s.runs = true ∧ s.stage.running = true ∧ ((∀ q : Nat, q < 64 → leafIn s q = true)) ∧ (stepAt s s.stage.step).system = false ∧ (i, left) = nextStep s ∧ ((i ≠ 0 ∨ s.run.step0Stop = none)) ∧ i < 1024 ∧ ((∀ e ∈ s.regions, e.2.requestAt = none))) ∧
    (∃ (a : Nat) (s : State), s.stage.firstArrival = some a ∧ s.stage.running = true ∧ s.fld fStageCycles ≠ 0) ∧
    (∃ (r : RegionIx) (v : Word32) (i : Fin 8) (g : Nat) (s : State), v.getLsbD i.val = true ∧ noPinWaits s r.val ∧ g = 64 * r.val + 8 * bits v.toNat 8 3 + i.val) :=
  ⟨⟨0, F inS [(fRunning (.dot 0), 0)], by decide +kernel⟩,
    ⟨604, 0, 0, { allArr inS with stage := { running := true, releasedAt := 500, firstArrival := some 600, lastArrival := some 604 } }, by decide +kernel⟩,
    ⟨604, { F inS [(fStageCycles, 100)] with stage := { running := true, releasedAt := 500, firstArrival := some 604 } }, by decide +kernel⟩,
    by refine ⟨0, 0x180, 7, 15, inS, ?_, (noPinWaits_of _ _ (by decide +kernel)), ?_⟩ <;> decide +kernel⟩

/-- The hypotheses of FlitWordsAreLaidOut can be met. -/
theorem witness_FlitWordsAreLaidOut :
    (∃ (seq : BitVec 8) (f : Flit) (w : Nat), w = (sentWord seq f).toNat ∧ ((∀ a l, f.body = .write a l → l.length ≤ 24)) ∧ ((∀ tag o e l, f.body = .data tag o e l → l.length ≤ 24))) ∧
    (∃ (seq : BitVec 8) (f : Flit) (w : Nat), w = (sentWord seq f).toNat ∧ ((∀ a l, f.body = .write a l → l.length ≤ 24)) ∧ ((∀ tag o e l, f.body = .data tag o e l → l.length ≤ 24))) ∧
    (∃ (seq : BitVec 8) (f : Flit) (w : Nat), w = (sentWord seq f).toNat ∧ ((∀ a l, f.body = .write a l → l.length ≤ 24)) ∧ ((∀ tag o e l, f.body = .data tag o e l → l.length ≤ 24))) ∧
    (∃ (seq : BitVec 8) (f : Flit) (w : Nat), w = (sentWord seq f).toNat ∧ ((∀ a l, f.body = .write a l → l.length ≤ 24)) ∧ ((∀ tag o e l, f.body = .data tag o e l → l.length ≤ 24))) ∧
    (∃ (seq : BitVec 8) (f : Flit) (w : Nat), w = (sentWord seq f).toNat ∧ ((∀ a l, f.body = .write a l → l.length ≤ 24)) ∧ ((∀ tag o e l, f.body = .data tag o e l → l.length ≤ 24))) ∧
    (∃ (seq : BitVec 8) (f : Flit) (w : Nat), w = (sentWord seq f).toNat ∧ ((∀ a l, f.body = .write a l → l.length ≤ 24)) ∧ ((∀ tag o e l, f.body = .data tag o e l → l.length ≤ 24))) ∧
    (∃ (seq : BitVec 8) (f : Flit) (w : Nat), w = (sentWord seq f).toNat ∧ ((∀ a l, f.body = .write a l → l.length ≤ 24)) ∧ ((∀ tag o e l, f.body = .data tag o e l → l.length ≤ 24))) ∧
    (∃ (seq : BitVec 8) (f : Flit) (w : Nat), w = (sentWord seq f).toNat ∧ ((∀ a l, f.body = .write a l → l.length ≤ 24)) ∧ ((∀ tag o e l, f.body = .data tag o e l → l.length ≤ 24))) ∧
    (∃ (seq : BitVec 8) (f : Flit) (w : Nat), w = (sentWord seq f).toNat ∧ ((∀ a l, f.body = .write a l → l.length ≤ 24)) ∧ ((∀ tag o e l, f.body = .data tag o e l → l.length ≤ 24))) ∧
    (∃ (seq : BitVec 8) (f : Flit) (w : Nat), w = (sentWord seq f).toNat ∧ ((∀ a l, f.body = .write a l → l.length ≤ 24)) ∧ ((∀ tag o e l, f.body = .data tag o e l → l.length ≤ 24))) ∧
    (∃ (b : Beat) (p : Nat), p = payloadOf (.beat b)) ∧
    (∃ (b : Beat) (p : Nat), p = payloadOf (.beat b)) ∧
    (∃ (a : BitVec 48) (l : List Byte) (i : Nat) (p : Nat), p = payloadOf (.write a l) ∧ 0 < l.length ∧ l.length ≤ 24 ∧ i < l.length) ∧
    (∃ (a : BitVec 48) (l : List Byte) (i : Nat) (p : Nat), p = payloadOf (.write a l) ∧ 0 < l.length ∧ l.length ≤ 24 ∧ i < l.length) ∧
    (∃ (a : BitVec 48) (l : List Byte) (i : Nat) (p : Nat), p = payloadOf (.write a l) ∧ 0 < l.length ∧ l.length ≤ 24 ∧ i < l.length) ∧
    (∃ (a : BitVec 48) (l : List Byte) (i : Nat) (p : Nat), p = payloadOf (.write a l) ∧ 0 < l.length ∧ l.length ≤ 24 ∧ i < l.length) ∧
    (∃ (a : BitVec 48) (n : BitVec 12) (tag : Byte) (p : Nat), p = payloadOf (.read a n tag)) ∧
    (∃ (a : BitVec 48) (n : BitVec 12) (tag : Byte) (p : Nat), p = payloadOf (.read a n tag)) ∧
    (∃ (a : BitVec 48) (n : BitVec 12) (tag : Byte) (p : Nat), p = payloadOf (.read a n tag)) ∧
    (∃ (tag : Byte) (o : BitVec 12) (err : Bool) (l : List Byte) (i : Nat) (p : Nat), p = payloadOf (.data tag o err l) ∧ 0 < l.length ∧ l.length ≤ 24 ∧ i < l.length) ∧
    (∃ (tag : Byte) (o : BitVec 12) (err : Bool) (l : List Byte) (i : Nat) (p : Nat), p = payloadOf (.data tag o err l) ∧ 0 < l.length ∧ l.length ≤ 24 ∧ i < l.length) ∧
    (∃ (tag : Byte) (o : BitVec 12) (err : Bool) (l : List Byte) (i : Nat) (p : Nat), p = payloadOf (.data tag o err l) ∧ 0 < l.length ∧ l.length ≤ 24 ∧ i < l.length) ∧
    (∃ (tag : Byte) (o : BitVec 12) (err : Bool) (l : List Byte) (i : Nat) (p : Nat), p = payloadOf (.data tag o err l) ∧ 0 < l.length ∧ l.length ≤ 24 ∧ i < l.length) ∧
    (∃ (tag : Byte) (o : BitVec 12) (err : Bool) (l : List Byte) (i : Nat) (p : Nat), p = payloadOf (.data tag o err l) ∧ 0 < l.length ∧ l.length ≤ 24 ∧ i < l.length) ∧
    (∃ (tag : Byte) (o : BitVec 12) (err : Bool) (l : List Byte) (i : Nat) (p : Nat), p = payloadOf (.data tag o err l) ∧ 0 < l.length ∧ l.length ≤ 24 ∧ i < l.length) ∧
    (∃ (h : FlitHdr) (b : FlitBody), h.spare = 0 ∧ h.extra = 0 ∧ payloadOf b < 2 ^ 256) ∧
    (∃ (g : Nat) (i : Nat), i < g) ∧
    (∃ (g : Nat) (i : Nat), i < g) ∧
    (∃ (g : Nat) (i : Nat), i < g) ∧
    (∃ (flits : List (BitVec 320)) (k : Nat) (i : Nat), k < flits.length ∧ i < 32) ∧
    (∃ (flits : List (BitVec 320)) (k : Nat) (i : Nat), k < flits.length ∧ i < 32) ∧
    (∃ (flits : List (BitVec 320)) (k : Nat) (i : Nat), k < flits.length ∧ i < 32) ∧
    (∃ (flits : List (BitVec 320)) (k : Nat) (i : Nat), k < flits.length ∧ i < 32) :=
  ⟨by refine ⟨7, ⟨true, 0x3FFF, true, false, true, .write 0x10000000008 (List.replicate 24 0xA5)⟩, (sentWord (7 : BitVec 8) (⟨true, 0x3FFF, true, false, true, .write 0x10000000008 (List.replicate 24 0xA5)⟩ : Flit)).toNat, ?_, (by rintro _ _ ⟨⟩; decide), (by rintro _ _ _ _ ⟨⟩)⟩; decide +kernel,
    by refine ⟨7, ⟨true, 0x3FFF, true, false, true, .write 0x10000000008 (List.replicate 24 0xA5)⟩, (sentWord (7 : BitVec 8) (⟨true, 0x3FFF, true, false, true, .write 0x10000000008 (List.replicate 24 0xA5)⟩ : Flit)).toNat, ?_, (by rintro _ _ ⟨⟩; decide), (by rintro _ _ _ _ ⟨⟩)⟩; decide +kernel,
    by refine ⟨7, ⟨true, 0x3FFF, true, false, true, .write 0x10000000008 (List.replicate 24 0xA5)⟩, (sentWord (7 : BitVec 8) (⟨true, 0x3FFF, true, false, true, .write 0x10000000008 (List.replicate 24 0xA5)⟩ : Flit)).toNat, ?_, (by rintro _ _ ⟨⟩; decide), (by rintro _ _ _ _ ⟨⟩)⟩; decide +kernel,
    by refine ⟨7, ⟨true, 0x3FFF, true, false, true, .write 0x10000000008 (List.replicate 24 0xA5)⟩, (sentWord (7 : BitVec 8) (⟨true, 0x3FFF, true, false, true, .write 0x10000000008 (List.replicate 24 0xA5)⟩ : Flit)).toNat, ?_, (by rintro _ _ ⟨⟩; decide), (by rintro _ _ _ _ ⟨⟩)⟩; decide +kernel,
    by refine ⟨7, ⟨true, 0x3FFF, true, false, true, .write 0x10000000008 (List.replicate 24 0xA5)⟩, (sentWord (7 : BitVec 8) (⟨true, 0x3FFF, true, false, true, .write 0x10000000008 (List.replicate 24 0xA5)⟩ : Flit)).toNat, ?_, (by rintro _ _ ⟨⟩; decide), (by rintro _ _ _ _ ⟨⟩)⟩; decide +kernel,
    by refine ⟨7, ⟨true, 0x3FFF, true, false, true, .write 0x10000000008 (List.replicate 24 0xA5)⟩, (sentWord (7 : BitVec 8) (⟨true, 0x3FFF, true, false, true, .write 0x10000000008 (List.replicate 24 0xA5)⟩ : Flit)).toNat, ?_, (by rintro _ _ ⟨⟩; decide), (by rintro _ _ _ _ ⟨⟩)⟩; decide +kernel,
    by refine ⟨7, ⟨true, 0x3FFF, true, false, true, .write 0x10000000008 (List.replicate 24 0xA5)⟩, (sentWord (7 : BitVec 8) (⟨true, 0x3FFF, true, false, true, .write 0x10000000008 (List.replicate 24 0xA5)⟩ : Flit)).toNat, ?_, (by rintro _ _ ⟨⟩; decide), (by rintro _ _ _ _ ⟨⟩)⟩; decide +kernel,
    by refine ⟨7, ⟨true, 0x3FFF, true, false, true, .write 0x10000000008 (List.replicate 24 0xA5)⟩, (sentWord (7 : BitVec 8) (⟨true, 0x3FFF, true, false, true, .write 0x10000000008 (List.replicate 24 0xA5)⟩ : Flit)).toNat, ?_, (by rintro _ _ ⟨⟩; decide), (by rintro _ _ _ _ ⟨⟩)⟩; decide +kernel,
    by refine ⟨7, ⟨true, 0x3FFF, true, false, true, .write 0x10000000008 (List.replicate 24 0xA5)⟩, (sentWord (7 : BitVec 8) (⟨true, 0x3FFF, true, false, true, .write 0x10000000008 (List.replicate 24 0xA5)⟩ : Flit)).toNat, ?_, (by rintro _ _ ⟨⟩; decide), (by rintro _ _ _ _ ⟨⟩)⟩; decide +kernel,
    by refine ⟨7, ⟨true, 0x3FFF, true, false, true, .write 0x10000000008 (List.replicate 24 0xA5)⟩, (sentWord (7 : BitVec 8) (⟨true, 0x3FFF, true, false, true, .write 0x10000000008 (List.replicate 24 0xA5)⟩ : Flit)).toNat, ?_, (by rintro _ _ ⟨⟩; decide), (by rintro _ _ _ _ ⟨⟩)⟩; decide +kernel,
    ⟨bt 5 true false, payloadOf (.beat (bt 5 true false)), by decide +kernel⟩,
    ⟨bt 5 true false, payloadOf (.beat (bt 5 true false)), by decide +kernel⟩,
    ⟨0xFFFFFFFFFFFF, List.replicate 24 0xA5, 23, payloadOf (.write 0xFFFFFFFFFFFF (List.replicate 24 0xA5)), by decide +kernel⟩,
    ⟨0xFFFFFFFFFFFF, List.replicate 24 0xA5, 23, payloadOf (.write 0xFFFFFFFFFFFF (List.replicate 24 0xA5)), by decide +kernel⟩,
    ⟨0xFFFFFFFFFFFF, List.replicate 24 0xA5, 23, payloadOf (.write 0xFFFFFFFFFFFF (List.replicate 24 0xA5)), by decide +kernel⟩,
    ⟨0xFFFFFFFFFFFF, List.replicate 24 0xA5, 23, payloadOf (.write 0xFFFFFFFFFFFF (List.replicate 24 0xA5)), by decide +kernel⟩,
    ⟨0xFFFFFFFFFFFF, 0xFFF, 0x81, payloadOf (.read 0xFFFFFFFFFFFF 0xFFF 0x81), by decide +kernel⟩,
    ⟨0xFFFFFFFFFFFF, 0xFFF, 0x81, payloadOf (.read 0xFFFFFFFFFFFF 0xFFF 0x81), by decide +kernel⟩,
    ⟨0xFFFFFFFFFFFF, 0xFFF, 0x81, payloadOf (.read 0xFFFFFFFFFFFF 0xFFF 0x81), by decide +kernel⟩,
    ⟨0x81, 0xFFF, true, List.replicate 24 0xA5, 23, payloadOf (.data 0x81 0xFFF true (List.replicate 24 0xA5)), by decide +kernel⟩,
    ⟨0x81, 0xFFF, true, List.replicate 24 0xA5, 23, payloadOf (.data 0x81 0xFFF true (List.replicate 24 0xA5)), by decide +kernel⟩,
    ⟨0x81, 0xFFF, true, List.replicate 24 0xA5, 23, payloadOf (.data 0x81 0xFFF true (List.replicate 24 0xA5)), by decide +kernel⟩,
    ⟨0x81, 0xFFF, true, List.replicate 24 0xA5, 23, payloadOf (.data 0x81 0xFFF true (List.replicate 24 0xA5)), by decide +kernel⟩,
    ⟨0x81, 0xFFF, true, List.replicate 24 0xA5, 23, payloadOf (.data 0x81 0xFFF true (List.replicate 24 0xA5)), by decide +kernel⟩,
    ⟨0x81, 0xFFF, true, List.replicate 24 0xA5, 23, payloadOf (.data 0x81 0xFFF true (List.replicate 24 0xA5)), by decide +kernel⟩,
    ⟨sound fh0 (.beat (bt 5 true false)), .beat (bt 5 true false), by decide +kernel⟩,
    ⟨4, 3, by decide +kernel⟩,
    ⟨4, 3, by decide +kernel⟩,
    ⟨4, 3, by decide +kernel⟩,
    ⟨[sentWord 7 nulF, sentWord 8 nulF], 1, 31, by decide +kernel⟩,
    ⟨[sentWord 7 nulF, sentWord 8 nulF], 1, 31, by decide +kernel⟩,
    ⟨[sentWord 7 nulF, sentWord 8 nulF], 1, 31, by decide +kernel⟩,
    ⟨[sentWord 7 nulF, sentWord 8 nulF], 1, 31, by decide +kernel⟩⟩

/-- The hypotheses of FlitsAreReceived can be met. -/
theorem witness_FlitsAreReceived :
    (∃ (site : SiteIx) (lane : Fin 32) (errors : Nat) (limit : Nat) (r : Retry) (s : State), s.tile site.val = 1 ∧ laneListens s site.val lane.val = true ∧ r = s.retry site.val lane.val ∧ limit = (if shortCodes s site.val (leadOf s site.val lane.val) = true then 7 else 15) ∧ errors = 0) ∧
    (∃ (site : SiteIx) (lane : Fin 32) (errors : Nat) (limit : Nat) (r : Retry) (s : State), s.tile site.val = 1 ∧ laneListens s site.val lane.val = true ∧ r = s.retry site.val lane.val ∧ limit = (if shortCodes s site.val (leadOf s site.val lane.val) = true then 7 else 15) ∧ 0 < errors ∧ errors ≤ limit) ∧
    (∃ (site : SiteIx) (lane : Fin 32) (errors : Nat) (limit : Nat) (r : Retry) (s : State), s.tile site.val = 1 ∧ laneListens s site.val lane.val = true ∧ r = s.retry site.val lane.val ∧ limit = (if shortCodes s site.val (leadOf s site.val lane.val) = true then 7 else 15) ∧ limit < errors) ∧
    (∃ (h : FlitHdr) (b : Beat) (s : State), onLane s h ∧ checkOk h 1 (.beat b) = false) ∧
    (∃ (h : FlitHdr) (b : Beat) (s : State), onLane s h ∧ checkOk h 1 (.beat b) = true ∧ h.locked = false ∧ 128 ≤ (h.seq - (s.retry h.site.val h.lane.val).expect).toNat) ∧
    (∃ (h : FlitHdr) (b : Beat) (s : State), onLane s h ∧ checkOk h 1 (.beat b) = true ∧ h.locked = false ∧ 0 < (h.seq - (s.retry h.site.val h.lane.val).expect).toNat ∧ (h.seq - (s.retry h.site.val h.lane.val).expect).toNat < 128) ∧
    (∃ (h : FlitHdr) (b : Beat) (s : State), onLane s h ∧ checkOk h 1 (.beat b) = true ∧ h.locked = true ∧ reservedSet h 1 (.beat b) = true) ∧
    (∃ (h : FlitHdr) (ty : BitVec 4) (s : State), checkOk h ty.toNat .null = true ∧ onLane s h ∧ ty = 0 ∧ reservedSet h 0 .null = false) ∧
    (∃ (h : FlitHdr) (ty : BitVec 4) (s : State), checkOk h ty.toNat .null = true ∧ inTurn s h ∧ knownType ty.toNat = false) ∧
    (∃ (h : FlitHdr) (b : Beat) (q : QueueId) (s : State), inOrder s h (.beat b) ∧ openContext s h.stream.toNat 1 ∧ q = targetQueue s h.stream.toNat ∧ h.epoch = sysEpoch s ∧ qHold s q = false ∧ noWaiter s q ∧ groupsEmpty s) ∧
    (∃ (h : FlitHdr) (b : Beat) (q : QueueId) (s : State), inOrder s h (.beat b) ∧ openContext s h.stream.toNat 1 ∧ q = targetQueue s h.stream.toNat ∧ h.epoch ≠ sysEpoch s) ∧
    (∃ (h : FlitHdr) (b : Beat) (x : Nat) (q : Nat) (s : State), onLane s h ∧ soundFlit h (.beat b) ∧ h.locked = true ∧ x = h.stream.toNat ∧ 0 < x ∧ s.is (fCtxLocked x) = true ∧ s.fld (fCtxKind x) = 1 ∧ h.epoch = sysEpoch s ∧ s.runs = true ∧ s.is (fGrpUp h.site.val (leadH s h)) = true ∧ (s.ctx x).via = some (h.site.val, leadH s h) ∧ h.first = true ∧ h.last = true ∧ s.fld (fCtxBeats x) = 0 ∧ classifyTag s x b.tag.toNat = .accept q) ∧
    (∃ (h : FlitHdr) (addr : BitVec 48) (bytes : List Byte) (k : Nat) (w : Nat) (s : State), inOrder s h (.write addr bytes) ∧ openContext s h.stream.toNat 4 ∧ groupsEmpty s ∧ addr.toNat % 8 = 0 ∧ bytes.length = 8 ∧ placeOf s addr.toNat = .store k w) ∧
    (∃ (h : FlitHdr) (addr : BitVec 48) (bytes : List Byte) (m : Nat) (w : Nat) (s : State), inOrder s h (.write addr bytes) ∧ openContext s h.stream.toNat 4 ∧ groupsEmpty s ∧ addr.toNat % 8 = 0 ∧ bytes.length = 8 ∧ placeOf s addr.toNat = .tile m w) ∧
    (∃ (h : FlitHdr) (addr : BitVec 48) (tag : Byte) (k : Nat) (w : Nat) (s : State), inOrder s h (.read addr 7 tag) ∧ openContext s h.stream.toNat 4 ∧ groupsEmpty s ∧ addr.toNat % 8 = 0 ∧ placeOf s addr.toNat = .store k w) ∧
    (∃ (h : FlitHdr) (addr : BitVec 48) (tag : Byte) (m : Nat) (w : Nat) (s : State), inOrder s h (.read addr 7 tag) ∧ openContext s h.stream.toNat 4 ∧ groupsEmpty s ∧ addr.toNat % 8 = 0 ∧ placeOf s addr.toNat = .tile m w) ∧
    (∃ (h : FlitHdr) (addr : BitVec 48) (n : BitVec 12) (tag : Byte) (s : State), inOrder s h (.read addr n tag) ∧ openContext s h.stream.toNat 4 ∧ groupsEmpty s ∧ 2 ^ 32 ≤ addr.toNat ∧ ((∃ a ∈ wordsAt 8 addr.toNat (n.toNat + 1), placeOf s a = .none))) ∧
    (∃ (h : FlitHdr) (tag : Byte) (offset : BitVec 12) (bytes : List Byte) (payload : BitVec 256) (c : Instr) (b : FlitBody) (s : State), ((c = .dataFlit h tag offset false bytes ∧ b = .data tag offset false bytes ∧ 0 < bytes.length ∧ bytes.length ≤ 24 ∧ (∀ x ∈ (s.ctx h.stream.toNat).reads, x.sent = true → x.tag ≠ tag)) ∨ (c = .noticeFlit h payload ∧ b = .notice payload)) ∧ inOrder s h b ∧ openContext s h.stream.toNat 4 ∧ groupsEmpty s) ∧
    (∃ (h : FlitHdr) (tag : Byte) (offset : BitVec 12) (err : Bool) (bytes : List Byte) (given : List Byte) (x : HostRead) (i : Nat) (moved : Nat) (desc : List Byte) (held : List (Word64 × Bool)) (bad : Option Nat) (s : State), inOrder s h (.data tag offset err bytes) ∧ openContext s h.stream.toNat 4 ∧ groupsEmpty s ∧ 0 < bytes.length ∧ bytes.length ≤ 24 ∧ (s.ctx h.stream.toNat).reads = [x] ∧ x.sent = true ∧ x.tag = tag ∧ x.cmd = some i ∧ (s.ring x.pair).cur = some ⟨i, desc, .moving moved given held bad⟩ ∧ readsHost desc = true ∧ s.fld (fHrgPath x.pair) = h.stream.toNat ∧ err = false ∧ offset.toNat = x.got ∧ x.base + x.got = moved + 8 * held.length + given.length) ∧
    (∃ (h : FlitHdr) (tag : Byte) (offset : BitVec 12) (err : Bool) (bytes : List Byte) (given : List Byte) (x : HostRead) (i : Nat) (moved : Nat) (desc : List Byte) (held : List (Word64 × Bool)) (bad : Option Nat) (s : State), inOrder s h (.data tag offset err bytes) ∧ openContext s h.stream.toNat 4 ∧ groupsEmpty s ∧ 0 < bytes.length ∧ bytes.length ≤ 24 ∧ (s.ctx h.stream.toNat).reads = [x] ∧ x.sent = true ∧ x.tag = tag ∧ x.cmd = some i ∧ (s.ring x.pair).cur = some ⟨i, desc, .moving moved given held bad⟩ ∧ readsHost desc = true ∧ s.fld (fHrgPath x.pair) = h.stream.toNat ∧ err = true) ∧
    (∃ (h : FlitHdr) (credits : BitVec 16) (k : Fin 16) (s : State), inOrder s h (.credit credits) ∧ groupsEmpty s ∧ s.is (fTxmapEn h.site.val k.val) = true ∧ s.fld (fTxmapLead h.site.val k.val) = leadH s h ∧ s.fld (fTxmapStream h.site.val k.val) = h.stream.toNat) ∧
    (∃ (h : FlitHdr) (ack : BitVec 8) (r : Retry) (l : List (BitVec 8 × Nat × Flit)) (s : State), onLane s h ∧ h.locked = false ∧ r = s.retry h.site.val h.lane.val ∧ (s.retry h.site.val (leadH s h)).waiting = [] ∧ soundFlit h (.link ack false) ∧ l = r.unacked.filter (fun e => decide (128 ≤ (ack - e.1).toNat))) ∧
    (∃ (h : FlitHdr) (ack : BitVec 8) (r : Retry) (l : List (BitVec 8 × Nat × Flit)) (s : State), onLane s h ∧ h.locked = false ∧ r = s.retry h.site.val h.lane.val ∧ (s.retry h.site.val (leadH s h)).waiting = [] ∧ soundFlit h (.link ack true) ∧ l = r.unacked.filter (fun e => decide (128 ≤ (ack - 1 - e.1).toNat)) ∧ l ≠ [] ∧ ((∀ e ∈ l, e.2.1 < 15))) :=
  ⟨⟨4, 0, 0, 15, { codewords := 255 }, rets { codewords := 255 } (fl []), by decide +kernel⟩,
    ⟨4, 0, 7, 7, {}, fl [(fGrpLong 4 0, 0)], by decide +kernel⟩,
    ⟨4, 0, 8, 7, { expect := 9 }, rets { expect := 9 } (fl [(fGrpLong 4 0, 0)]), by decide +kernel⟩,
    ⟨fh0, bt 1 true true, fl [(fCtxLocked 1, 1), (fCtxKind 1, 1)], by unfold onLane; decide +kernel⟩,
    ⟨sound { fh0 with seq := 137 } (.beat (bt 1 true true)), bt 1 true true, rets { expect := 9 } (fl []), by unfold onLane; decide +kernel⟩,
    ⟨sound { fh0 with seq := 136 } (.beat (bt 1 true true)), bt 1 true true, rets { expect := 9 } (fl []), by unfold onLane; decide +kernel⟩,
    ⟨sound { fh0 with locked := true, spare := 1 } (.beat (bt 1 true true)), bt 1 true true, fl [], by unfold onLane; decide +kernel⟩,
    ⟨sound fh0 .null, 0, fl [], by unfold onLane; decide +kernel⟩,
    ⟨{ fh0 with check := flitCheck (headerOfFlit 15 false 1 0 true true false 0) 0 }, 15, fl [], by unfold inTurn inSequence onLane; decide +kernel⟩,
    by refine ⟨sound fh0 (.beat (bt 1 true true)), bt 1 true true, .bank 0 15, opn1 1, ?_, ?_, ?_, ?_, ?_, ?_, (fun _ => rfl)⟩ <;> first | decide +kernel | (simp only [inOrder, inTurn, inSequence, onLane, soundFlit, noWaiter, openContext]; decide +kernel),
    ⟨sound { fh0 with epoch := true } (.beat (bt 1 true true)), bt 1 true true, .bank 0 15, opn1 1, by unfold inOrder inTurn inSequence onLane soundFlit openContext; decide +kernel⟩,
    ⟨sound { fh0 with locked := true } (.beat { bt 1 true true with tag := 5 }), { bt 1 true true with tag := 5 }, 1, 20, { F (opn1 1) [(fCtxLocked 1, 1), (fCtxBeats 1, 0)] with ctxs := [(1, { via := some (4, 0), next := 20 })] }, by unfold onLane soundFlit; decide +kernel⟩,
    by refine ⟨sound fh0 (.write 0x100000008 [1, 2, 3, 4, 5, 6, 7, 8]), 0x100000008, [1, 2, 3, 4, 5, 6, 7, 8], 0, 1, opn1 4, ?_, ?_, (fun _ => rfl), ?_⟩ <;> first | decide +kernel | (simp only [inOrder, inTurn, inSequence, onLane, soundFlit, openContext]; decide +kernel),
    by refine ⟨sound fh0 (.write 0x10000000008 [1, 2, 3, 4, 5, 6, 7, 8]), 0x10000000008, [1, 2, 3, 4, 5, 6, 7, 8], 0, 1, memP (opn1 4), ?_, ?_, (fun _ => rfl), ?_⟩ <;> first | decide +kernel | (simp only [inOrder, inTurn, inSequence, onLane, soundFlit, openContext]; decide +kernel),
    by refine ⟨sound fh0 (.read 0x100000010 7 9), 0x100000010, 9, 0, 2, opn1 4, ?_, ?_, (fun _ => rfl), ?_⟩ <;> first | decide +kernel | (simp only [inOrder, inTurn, inSequence, onLane, soundFlit, openContext]; decide +kernel),
    by refine ⟨sound fh0 (.read 0x10000000010 7 9), 0x10000000010, 9, 0, 2, memP (opn1 4), ?_, ?_, (fun _ => rfl), ?_⟩ <;> first | decide +kernel | (simp only [inOrder, inTurn, inSequence, onLane, soundFlit, openContext]; decide +kernel),
    by refine ⟨sound fh0 (.read 0x100000000000 7 9), 0x100000000000, 7, 9, opn1 4, ?_, ?_, (fun _ => rfl), ?_⟩ <;> first | decide +kernel | (simp only [inOrder, inTurn, inSequence, onLane, soundFlit, openContext]; decide +kernel),
    by refine ⟨sound fh0 (.data 9 0 false (List.replicate 24 1)), 9, 0, List.replicate 24 1, 0, .dataFlit (sound fh0 (.data 9 0 false (List.replicate 24 1))) 9 0 false (List.replicate 24 1), .data 9 0 false (List.replicate 24 1), opn1 4, ?_, ?_, ?_, (fun _ => rfl)⟩ <;> first | decide +kernel | (simp only [inOrder, inTurn, inSequence, onLane, soundFlit, openContext]; decide +kernel),
    by refine ⟨sound fh0 (.data 9 1 false [3, 4]), 9, 1, false, [3, 4], [7], ⟨9, 0, some 2, false, 16, 48, 1, true⟩, 2, 8, wrAsk, [(5, false)], none, asked (opn1 4), ?_, ?_, (fun _ => rfl), ?_⟩ <;> first | decide +kernel | (simp only [inOrder, inTurn, inSequence, onLane, soundFlit, openContext]; decide +kernel),
    by refine ⟨sound fh0 (.data 9 1 true [3]), 9, 1, true, [3], [7], ⟨9, 0, some 2, false, 16, 48, 1, true⟩, 2, 8, wrAsk, [(5, false)], none, asked (opn1 4), ?_, ?_, (fun _ => rfl), ?_⟩ <;> first | decide +kernel | (simp only [inOrder, inTurn, inSequence, onLane, soundFlit, openContext]; decide +kernel),
    by refine ⟨sound fh0 (.credit 300), 300, 15, fl [(fTxmapEn 4 15, 1), (fTxmapLead 4 15, 0), (fTxmapStream 4 15, 1)], ?_, (fun _ => rfl), ?_⟩ <;> first | decide +kernel | (simp only [inOrder, inTurn, inSequence, onLane, soundFlit]; decide +kernel),
    ⟨sound fh0 (.link 1 false), 1, { nextSeq := 3, unacked := [(0, 0, nulF), (1, 2, nulF), (2, 14, nulF)] }, [(2, 14, nulF)], rets { nextSeq := 3, unacked := [(0, 0, nulF), (1, 2, nulF), (2, 14, nulF)] } (fl []), by unfold onLane soundFlit; decide +kernel⟩,
    ⟨sound fh0 (.link 1 true), 1, { nextSeq := 3, unacked := [(0, 0, nulF), (1, 2, nulF), (2, 14, nulF)] }, [(1, 2, nulF), (2, 14, nulF)], rets { nextSeq := 3, unacked := [(0, 0, nulF), (1, 2, nulF), (2, 14, nulF)] } (fl []), by unfold onLane soundFlit; decide +kernel⟩⟩

/-- The hypotheses of SystemControlTakesEffect can be met. -/
theorem witness_SystemControlTakesEffect :
    (∃ (h : FlitHdr) (gen : Byte) (cap : Word32) (endpoint : BitVec 10) (tkNum : BitVec 10) (host : Bool) (claim : Bool) (width : BitVec 2) (s : State), inSequence s h ∧ soundFlit h (sysBody 0x01 [(8, gen.toNat), (16, cap.toNat), (48, endpoint.toNat), (58, bit host), (59, bit claim), (60, tkNum.toNat), (70, width.toNat)]) ∧ gen ≠ 0) ∧
    (∃ (h : FlitHdr) (num : BitVec 10) (seq : BitVec 16) (s : State), inOrder s h (sysBody 0x02 [(8, num.toNat), (18, seq.toNat)]) ∧ s.is fTkActive = false ∧ s.is fTkKnown = false) ∧
    (∃ (h : FlitHdr) (num : BitVec 10) (seq : BitVec 16) (s : State), inOrder s h (sysBody 0x02 [(8, num.toNat), (18, seq.toNat)]) ∧ s.is fTkActive = false ∧ s.is fTkKnown = true ∧ s.fld fTkNum ≠ num.toNat) ∧
    (∃ (h : FlitHdr) (num : BitVec 10) (seq : BitVec 16) (s : State), inOrder s h (sysBody 0x02 [(8, num.toNat), (18, seq.toNat)]) ∧ s.is fTkActive = true ∧ num.toNat ≠ s.fld fPkgNum) ∧
    (∃ (h : FlitHdr) (code : Byte) (ref : BitVec 24) (a3 : Byte) (seq : BitVec 16) (c : PendCode) (s : State), inOrder s h (sysBody 0x03 [(8, code.toNat), (16, ref.toNat), (40, a3.toNat), (48, seq.toNat)]) ∧ sysCode code.toNat = some c ∧ accepts s c ref a3.toNat = true) ∧
    (∃ (h : FlitHdr) (code : Byte) (ref : BitVec 24) (a3 : Byte) (seq : BitVec 16) (c : PendCode) (s : State), inOrder s h (sysBody 0x03 [(8, code.toNat), (16, ref.toNat), (40, a3.toNat), (48, seq.toNat)]) ∧ sysCode code.toNat = some c ∧ accepts s c ref a3.toNat = false) ∧
    (∃ (h : FlitHdr) (refused : Bool) (sender : BitVec 10) (seq : BitVec 16) (s : State), inOrder s h (sysBody 0x04 [(8, bit refused), (16, sender.toNat), (26, seq.toNat)]) ∧ s.is fTkActive = true) ∧
    (∃ (h : FlitHdr) (sender : BitVec 10) (seq : BitVec 16) (s : State), inOrder s h (sysBody 0x05 [(16, sender.toNat), (26, seq.toNat)]) ∧ s.is fTkActive = true ∧ ((∀ e ∈ s.sys.arrivals, e.1 ≠ seq)) ∧ 1 < s.fld fTkBarrierN) ∧
    (∃ (h : FlitHdr) (sender : BitVec 10) (seq : BitVec 16) (s : State), inOrder s h (sysBody 0x05 [(16, sender.toNat), (26, seq.toNat)]) ∧ s.is fTkActive = true ∧ ((∀ e ∈ s.sys.arrivals, e.1 ≠ seq)) ∧ s.fld fTkBarrierN ≤ 1 ∧ s.stage.sysWait = false) ∧
    (∃ (h : FlitHdr) (seq : BitVec 16) (s : State), inOrder s h (sysBody 0x06 [(8, seq.toNat)]) ∧ s.stage.sysWait = true ∧ s.stage.barrierSeq % 65536 = seq.toNat ∧ s.stage.running = false) ∧
    (∃ (h : FlitHdr) (seq : BitVec 16) (s : State) (i : Nat) (left : Nat), inOrder s h (sysBody 0x06 [(8, seq.toNat)]) ∧ s.stage.sysWait = true ∧ s.stage.barrierSeq % 65536 = seq.toNat ∧ s.stage.running = true ∧ (i, left) = nextStep s ∧ (i ≠ 0 ∨ s.run.step0Stop = none)) ∧
    (∃ (h : FlitHdr) (seq : BitVec 16) (s : State), inOrder s h (sysBody 0x06 [(8, seq.toNat)]) ∧ (s.stage.sysWait = false ∨ s.stage.barrierSeq % 65536 ≠ seq.toNat)) ∧
    (∃ (h : FlitHdr) (group : BitVec 10) (member : BitVec 3) (stream : BitVec 14) (s : State), inOrder s h (sysBody 0x07 [(8, group.toNat), (18, member.toNat), (21, stream.toNat)])) ∧
    (∃ (h : FlitHdr) (width : BitVec 2) (s : State), inOrder s h (sysBody 0x08 [(8, width.toNat)]) ∧ width.toNat < s.fld (fGrpWidth h.site.val (leadH s h)) ∧ laneLocked s h.site.val (leadH s h) false = false) ∧
    (∃ (h : FlitHdr) (width : BitVec 2) (s : State), inOrder s h (sysBody 0x08 [(8, width.toNat)]) ∧ s.fld (fGrpWidth h.site.val (leadH s h)) ≤ width.toNat) ∧
    (∃ (h : FlitHdr) (stamp : Word32) (s : State) (j : Nat), inOrder s h (sysBody 0x09 [(8, 0), (16, stamp.toNat)]) ∧ goesOut s h.site.val (leadH s h) j) ∧
    (∃ (h : FlitHdr) (stamp : Word32) (s : State), inOrder s h (sysBody 0x09 [(8, 1), (16, stamp.toNat)]) ∧ s.fld (fHopNs h.site.val (leadH s h)) ≠ 0) ∧
    (∃ (h : FlitHdr) (stamp : Word32) (s : State), inOrder s h (sysBody 0x09 [(8, 1), (16, stamp.toNat)]) ∧ s.fld (fHopNs h.site.val (leadH s h)) = 0) ∧
    (∃ (s : State), s.is fTkActive = true) ∧
    (∃ (c : PendCode) (ref : BitVec 24) (s : State), sysCode (s.fld fTkCode) = some c ∧ ref = BitVec.ofNat 24 (s.fld fTkRef) ∧ (s.is fTkActive = false ∨ s.runs = false ∨ refDistance s ref < s.fld fTkLead ∨ 2048 * s.fld fTurnLen ≤ refDistance s ref ∨ (c = .epoch ∧ ∃ e, s.sys.lastEpoch = some e ∧ s.clock.xseq + refDistance s ref ≤ e + 4096 ∧ e ≤ s.clock.xseq + refDistance s ref + 4096))) ∧
    (∃ (c : PendCode) (ref : BitVec 24) (s : State), sysCode (s.fld fTkCode) = some c ∧ ref = BitVec.ofNat 24 (s.fld fTkRef) ∧ sendRefused s = false ∧ accepts s c ref (s.fld fTkA3) = true) :=
  ⟨⟨sound fh0 (sysBody 0x01 [(8, (7 : Byte).toNat), (16, (0xFFFFFFFF : Word32).toNat), (48, (5 : BitVec 10).toNat), (58, bit (true : Bool)), (59, bit (true : Bool)), (60, (1023 : BitVec 10).toNat), (70, (3 : BitVec 2).toNat)]), 7, 0xFFFFFFFF, 5, 1023, true, true, 3, fl [(fGrpUp 4 0, 0)], by unfold inSequence onLane soundFlit; decide +kernel⟩,
    ⟨sound fh0 (sysBody 0x02 [(8, (5 : BitVec 10).toNat), (18, (0xFFFF : BitVec 16).toNat)]), 5, 0xFFFF, fl [], by unfold inOrder inTurn inSequence onLane soundFlit; decide +kernel⟩,
    ⟨sound fh0 (sysBody 0x02 [(8, (5 : BitVec 10).toNat), (18, (0 : BitVec 16).toNat)]), 5, 0, fl [(fTkKnown, 1), (fTkNum, 4)], by unfold inOrder inTurn inSequence onLane soundFlit; decide +kernel⟩,
    ⟨sound fh0 (sysBody 0x02 [(8, (5 : BitVec 10).toNat), (18, (0 : BitVec 16).toNat)]), 5, 0, fl [(fTkActive, 1)], by unfold inOrder inTurn inSequence onLane soundFlit; decide +kernel⟩,
    ⟨sound fh0 (sysBody 0x03 [(8, (1 : Byte).toNat), (16, (0x009007 : BitVec 24).toNat), (40, (0 : Byte).toNat), (48, (0 : BitVec 16).toNat)]), 1, 0x009007, 0, 0, (sysCode 1).getD .runStart, fl [], by unfold inOrder inTurn inSequence onLane soundFlit; decide +kernel⟩,
    ⟨sound fh0 (sysBody 0x03 [(8, (1 : Byte).toNat), (16, (0x009006 : BitVec 24).toNat), (40, (0 : Byte).toNat), (48, (0 : BitVec 16).toNat)]), 1, 0x009006, 0, 0, (sysCode 1).getD .runStart, fl [], by unfold inOrder inTurn inSequence onLane soundFlit; decide +kernel⟩,
    ⟨sound fh0 (sysBody 0x04 [(8, bit (true : Bool)), (16, (3 : BitVec 10).toNat), (26, (0 : BitVec 16).toNat)]), true, 3, 0, fl [(fTkActive, 1), (fTkNacks, 65535)], by unfold inOrder inTurn inSequence onLane soundFlit; decide +kernel⟩,
    ⟨sound fh0 (sysBody 0x05 [(16, (3 : BitVec 10).toNat), (26, (4 : BitVec 16).toNat)]), 3, 4, { fl [(fTkActive, 1), (fTkBarrierN, 2)] with sys := { arrivals := [(5, [1])] } }, by unfold inOrder inTurn inSequence onLane soundFlit; decide +kernel⟩,
    ⟨sound fh0 (sysBody 0x05 [(16, (3 : BitVec 10).toNat), (26, (4 : BitVec 16).toNat)]), 3, 4, { fl [(fTkActive, 1), (fTkBarrierN, 1)] with sys := { arrivals := [(5, [1])] } }, by unfold inOrder inTurn inSequence onLane soundFlit; decide +kernel⟩,
    ⟨sound fh0 (sysBody 0x06 [(8, (0 : BitVec 16).toNat)]), 0, { fl [] with stage := { sysWait := true, barrierSeq := 65536 } }, by unfold inOrder inTurn inSequence onLane soundFlit; decide +kernel⟩,
    ⟨sound fh0 (sysBody 0x06 [(8, (3 : BitVec 16).toNat)]), 3, { asS (fl []) with stage := { running := true, sysWait := true, barrierSeq := 3 } }, 0, 0, by unfold inOrder inTurn inSequence onLane soundFlit; decide +kernel⟩,
    ⟨sound fh0 (sysBody 0x06 [(8, (4 : BitVec 16).toNat)]), 4, { asS (fl []) with stage := { running := true, sysWait := true, barrierSeq := 3 } }, by unfold inOrder inTurn inSequence onLane soundFlit; decide +kernel⟩,
    ⟨sound fh0 (sysBody 0x07 [(8, (1023 : BitVec 10).toNat), (18, (7 : BitVec 3).toNat), (21, (9 : BitVec 14).toNat)]), 1023, 7, 9, fl [], by unfold inOrder inTurn inSequence onLane soundFlit; decide +kernel⟩,
    ⟨sound fh0 (sysBody 0x08 [(8, (0 : BitVec 2).toNat)]), 0, { fl [(fBondWidth 4 0, 1), (fGrpWidth 4 0, 1), (fLaneState 4 1 false, 2)] with image := none }, by unfold inOrder inTurn inSequence onLane soundFlit; decide +kernel⟩,
    ⟨sound fh0 (sysBody 0x08 [(8, (0 : BitVec 2).toNat)]), 0, fl [], by unfold inOrder inTurn inSequence onLane soundFlit; decide +kernel⟩,
    ⟨sound fh0 (sysBody 0x09 [(8, 0), (16, (99 : Word32).toNat)]), 99, fl [], 0, by unfold inOrder inTurn inSequence onLane soundFlit goesOut; decide +kernel⟩,
    ⟨sound fh0 (sysBody 0x09 [(8, 1), (16, (99 : Word32).toNat)]), 99, fl [(fHopNs 4 0, 100)], by unfold inOrder inTurn inSequence onLane soundFlit; decide +kernel⟩,
    ⟨sound fh0 (sysBody 0x09 [(8, 1), (16, (99 : Word32).toNat)]), 99, fl [], by unfold inOrder inTurn inSequence onLane soundFlit; decide +kernel⟩,
    ⟨fl [(fTkActive, 1)], by decide +kernel⟩,
    ⟨(sysCode 1).getD .runStart, 0, fl [(fTkCode, 1)], by decide +kernel⟩,
    ⟨(sysCode 1).getD .runStart, 0x009060, fl [(fTkActive, 1), (fTkCode, 1), (fTkRef, 0x009060), (fTkLead, 0)], by decide +kernel⟩⟩

/-- The hypotheses of FabricTimersAct can be met. -/
theorem witness_FabricTimersAct :
    (∃ (site : SiteIx) (lead : Fin 32) (c : Calendar) (e : CalSlot) (j : Nat) (tag : Nat) (pos : Nat) (s : State), calendarOf s site.val lead.val = some c ∧ c.entries = [e] ∧ e.slot < c.slots ∧ pos = (s.retry site.val lead.val).pos + e.slot ∧ j = (ways s site.val lead.val).getD (pos % max 1 (ways s site.val lead.val).length) lead.val ∧ s.runs = true ∧ s.lockedImage = true ∧ s.window site.val lead.val ≤ s.clock.xseq ∧ tag = s.fld fCurrent % 64) ∧
    (∃ (x : BitVec 14) (i : Nat) (q : Nat) (u : Nat) (d : QueueId) (s : State) (h : HeldFrame), i = x.toNat ∧ q = (s.ctx i).next ∧ u = s.openAt q + s.fld (fRxW i) ∧ d = targetQueue s i ∧ s.runs = true ∧ s.lockedImage = true ∧ s.is (fCtxLocked i) = true ∧ s.fld (fCtxKind i) = 1 ∧ s.inRun q = true ∧ q ≤ s.clock.xseq ∧ qHold s d = false ∧ (s.ctx i).held.find? (fun g => decide (g.xseq = q) && decide (g.arrival ≤ s.fld (fRxW i))) = some h) ∧
    (∃ (x : BitVec 14) (i : Nat) (q : Nat) (u : Nat) (d : QueueId) (s : State), i = x.toNat ∧ q = (s.ctx i).next ∧ u = s.openAt q + s.fld (fRxW i) ∧ d = targetQueue s i ∧ s.runs = true ∧ s.lockedImage = true ∧ s.is (fCtxLocked i) = true ∧ s.fld (fCtxKind i) = 1 ∧ s.inRun q = true ∧ q ≤ s.clock.xseq ∧ qHold s d = false ∧ (s.ctx i).held.find? (fun g => decide (g.xseq = q) && decide (g.arrival ≤ s.fld (fRxW i))) = none ∧ s.fld (fCtxBeats i) = 0) ∧
    (∃ (x : BitVec 14) (site : Nat) (lead : Nat) (j : Nat) (s : State), (s.ctx x.toNat).via = some (site, lead) ∧ 0 < (s.ctx x.toNat).due ∧ goesOut s site lead j) ∧
    (∃ (site : SiteIx) (lane : Fin 32) (r : Retry) (s : State), s.tile site.val = 1 ∧ laneCarries s site.val lane.val = true ∧ r = s.retry site.val lane.val) ∧
    (∃ (site : SiteIx) (lane : Fin 32) (r : Retry) (s : State), s.tile site.val = 1 ∧ laneCarries s site.val lane.val = true ∧ r = s.retry site.val lane.val ∧ r.nak = true) ∧
    (∃ (site : SiteIx) (lane : Fin 32) (r : Retry) (s : State), s.tile site.val = 1 ∧ laneCarries s site.val lane.val = true ∧ r = s.retry site.val lane.val ∧ r.nak = false) ∧
    (∃ (site : SiteIx) (lane : Fin 32) (r : Retry) (s : State), s.tile site.val = 1 ∧ laneCarries s site.val lane.val = true ∧ r = s.retry site.val lane.val ∧ r.unacked = []) ∧
    (∃ (site : SiteIx) (lane : Fin 32) (r : Retry) (s : State), s.tile site.val = 1 ∧ laneCarries s site.val lane.val = true ∧ r = s.retry site.val lane.val ∧ r.unacked ≠ [] ∧ ((∀ e ∈ r.unacked, e.2.1 < 15))) ∧
    (∃ (site : SiteIx) (lane : Fin 32) (r : Retry) (s : State), s.tile site.val = 1 ∧ laneCarries s site.val lane.val = true ∧ r = s.retry site.val lane.val ∧ ((∃ e ∈ r.unacked, 15 ≤ e.2.1))) ∧
    (∃ (m : BitVec 10) (f : Flit) (s : State), (s.mc m.toNat).queue = [f] ∧ (s.mc m.toNat).waiting = true ∧ 0 < s.fld (fDetachUs m.toNat) ∧ ((∀ i ∈ mcMembers s m.toNat, s.is (fMemLocal m.toNat i) = false)) ∧ ((∀ n : Nat, n ≠ m.toNat → (s.mc n).queue = []))) ∧
    (∃ (site : SiteIx) (lead : Fin 32) (s : State), s.recovery = false ∧ s.tile site.val = 1 ∧ isLead s site.val lead.val = true ∧ laneLocked s site.val lead.val false = false) ∧
    (∃ (site : SiteIx) (lead : Fin 32) (s : State), s.recovery = false ∧ s.tile site.val = 1 ∧ isLead s site.val lead.val = true ∧ laneLocked s site.val lead.val false = true) :=
  ⟨⟨4, 0, cal0, ⟨0, 3, 0, 9⟩, 0, 5, (calS []).retry 4 0 |>.pos, calS [{ bt 0 true true with tag := 5 }], by decide +kernel⟩,
    ⟨1, 1, 20, 612, .bank 0 15, lrx [⟨20, 5, [bt 1 true true], 12⟩], ⟨20, 5, [bt 1 true true], 12⟩, by decide +kernel⟩,
    ⟨1, 1, 20, 612, .bank 0 15, lrx [⟨20, 5, [bt 1 true true], 13⟩], by decide +kernel⟩,
    ⟨1, 4, 0, 0, { opn1 1 with ctxs := [(1, { via := some (4, 0), due := 7 })] }, by unfold goesOut; decide +kernel⟩,
    ⟨4, 0, { sinceAck := 31, expect := 0 }, rets { sinceAck := 31, expect := 0 } (fl []), by decide +kernel⟩,
    ⟨4, 0, { nak := true }, rets { nak := true } (fl []), by decide +kernel⟩,
    ⟨4, 0, {}, fl [], by decide +kernel⟩,
    ⟨4, 0, {}, fl [], by decide +kernel⟩,
    ⟨4, 0, { unacked := [(0, 14, nulF)] }, rets { unacked := [(0, 14, nulF)] } (fl []), by decide +kernel⟩,
    ⟨4, 0, { unacked := [(0, 15, nulF)] }, rets { unacked := [(0, 15, nulF)] } (fl []), by decide +kernel⟩,
    by refine ⟨1, nulF, { fl [(fDetachUs 1, 1), (fMcMembers 1, 1)] with mcs := [(1, { queue := [nulF], waiting := true })] }, ?_, ?_, ?_, ?_, (fun n h => by
      change (mget ({} : McSt) [(1, { queue := [nulF], waiting := true })] n).queue = []
      simp [mget, show ¬ 1 = n from fun e => h e.symm])⟩ <;> decide +kernel,
    ⟨4, 0, fl [], by decide +kernel⟩,
    ⟨4, 0, { fl [] with image := some { imL with calendars := [cal0] } }, by decide +kernel⟩⟩

/-- The hypotheses of SuppliesStopAndStart can be met. -/
theorem witness_SuppliesStopAndStart :
    (∃ (s : State), s.pins.porst = true) ∧
    (∃ (s : State), s.pins.porst = false ∧ (¬ (bootWaits s ∧ s.pins.refclk = true))) ∧
    (∃ (straps : BitVec 4) (s : State), s.pins.porst = false ∧ bootWaits s ∧ s.pins.refclk = true ∧ straps.getLsbD 2 = true) ∧
    (∃ (straps : BitVec 4) (s : State), s.pins.porst = false ∧ bootWaits s ∧ s.pins.refclk = true ∧ straps.getLsbD 2 = false ∧ 2 ≤ s.flashDead) ∧
    (∃ (s : State) (n : Nat), bootWaits s ∧ s.pins.porst = true ∧ s.fld fStraps < 4 ∧ manifestError s false = (0, n)) ∧
    (∃ (s : State) (a : Nat × Nat) (b : Nat × Nat), bootWaits s ∧ s.pins.porst = true ∧ s.fld fStraps < 4 ∧ manifestError s false = a ∧ manifestError s true = b ∧ a.1 ≠ 0 ∧ b.1 ≠ 0 ∧ a.1 < 16 ∧ b.1 < 16) ∧
    (∃ (s : State), s.pins.vin = false) ∧
    (∃ (s : State), s.pins.vin = true ∧ s.pins.porst = false) ∧
    (∃ (s : State), s.pins.vin = false) ∧
    (∃ (s : State), s.pins.vin = true) ∧
    (∃ (c : Instr) (f : Fld) (s : State), (c, f) ∈ [(Instr.ov, fOv), (.oc, fOc)] ∧ supplied s = false) ∧
    (∃ (c : Instr) (f : Fld) (s : State), (c, f) ∈ [(Instr.ov, fOv), (.oc, fOc)] ∧ supplied s = true) ∧
    (∃ (s : State), supplied s = false) ∧
    (∃ (s : State), supplied s = true) ∧
    (∃ (s : State), s.fld fBootState ≠ 5) ∧
    (∃ (s : State), supplied s = true ∧ s.fld fBootState = 5) ∧
    (∃ (pin : BitVec 16) (s : State), s.pins.vin = true ∧ 10 * s.fld fWatts < pin.toNat) ∧
    (∃ (pin : BitVec 16) (s : State), s.pins.vin = true ∧ pin.toNat ≤ 10 * s.fld fWatts ∧ s.is fThrottle = true) :=
  ⟨⟨up lk, by decide +kernel⟩,
    ⟨{ wait0 with pins := { vin := true } }, by unfold bootWaits; decide +kernel⟩,
    ⟨4, { wait0 with pins := { vin := true, refclk := true } }, by unfold bootWaits; decide +kernel⟩,
    ⟨2, { wait0 with flashDead := 2, pins := { vin := true, refclk := true } }, by unfold bootWaits; decide +kernel⟩,
    ⟨wait0, 0, by unfold bootWaits; decide +kernel⟩,
    ⟨{ wait0 with flash := [(3, 1)] }, (2, 0), (2, 0), by unfold bootWaits; decide +kernel⟩,
    ⟨lk, by decide +kernel⟩,
    ⟨{ F {} [] with pins := { vin := true } }, by decide +kernel⟩,
    ⟨lk, by decide +kernel⟩,
    ⟨{ onD0 (up lkIm) with units := [(0, {})] }, by decide +kernel⟩,
    ⟨.oc, fOc, lk, by decide +kernel⟩,
    ⟨.ov, fOv, onD0 (up inL), by decide +kernel⟩,
    ⟨lk, by decide +kernel⟩,
    ⟨onD0 (up inL), by decide +kernel⟩,
    ⟨{ lk with pins := { refclk := true } }, by decide +kernel⟩,
    ⟨up inL, by decide +kernel⟩,
    ⟨65535, up (F inL [(fWatts, 900)]), by decide +kernel⟩,
    ⟨8000, up { F inL [(fWatts, 900), (fThrottle, 1), (fPeak, 9)] with thermal := { underLimit := 3 } }, by decide +kernel⟩⟩

/-- The hypotheses of TemperatureAndVoltageAct can be met. -/
theorem witness_TemperatureAndVoltageAct :
    (∃ (temps : List Int) (l : List Int) (hot : Int), l = (List.range 64).map (fun r => temps.getD r 0) ∧ hot = (hottest l).1) ∧
    (∃ (temps : List Int) (l : List Int) (hot : Int) (s : State), l = (List.range 64).map (fun r => temps.getD r 0) ∧ hot = (hottest l).1 ∧ s.fld fThermState = 0 ∧ hot < 392) ∧
    (∃ (temps : List Int) (l : List Int) (hot : Int) (s : State), l = (List.range 64).map (fun r => temps.getD r 0) ∧ hot = (hottest l).1 ∧ s.fld fThermState = 0 ∧ 392 ≤ hot ∧ hot < 480) ∧
    (∃ (temps : List Int) (l : List Int) (hot : Int) (s : State), l = (List.range 64).map (fun r => temps.getD r 0) ∧ hot = (hottest l).1 ∧ s.fld fThermState = 1 ∧ hot < 380 ∧ 99 ≤ s.thermal.below) ∧
    (∃ (temps : List Int) (l : List Int) (hot : Int) (s : State), l = (List.range 64).map (fun r => temps.getD r 0) ∧ hot = (hottest l).1 ∧ s.fld fThermState = 1 ∧ hot < 380 ∧ s.thermal.below < 99) ∧
    (∃ (temps : List Int) (l : List Int) (hot : Int), l = (List.range 64).map (fun r => temps.getD r 0) ∧ hot = (hottest l).1 ∧ 480 ≤ hot) ∧
    (∃ (r : RegionIx) (s : State), s.thermal.second.contains r.val = false) ∧
    (∃ (r : RegionIx) (temp : Int) (s : State), s.thermal.second.contains r.val = true ∧ 440 ≤ temp ∧ s.fld fThermState ≠ 2) ∧
    (∃ (r : RegionIx) (temp : Int) (s : State), s.thermal.second.contains r.val = true ∧ (hottest (s.thermal.latest.set r.val temp)).1 < 392 ∧ temp < 440 ∧ s.fld fThermState = 0) ∧
    (∃ (s : State), (s.thermal.stopNow = true ∨ (s.thermal.fallback = true ∧ s.fld fTurnLeft = 0) ∨ ((s.thermal.fallback = true ∨ s.thermal.fallbackNext = true) ∧ s.runs = false))) ∧
    (∃ (s : State), s.thermal.stopNow = false ∧ ((s.thermal.fallback = true → s.fld fTurnLeft ≠ 0)) ∧ ((s.runs = true ∨ (s.thermal.fallback = false ∧ s.thermal.fallbackNext = false)))) ∧
    (∃ (d : DieIx) (slack : BitVec 8) (mv : Nat) (s : State), s.runs = true ∧ (s.avsOf d.val).settling = false ∧ s.fld fThermState ≠ 2 ∧ mv = s.fld (fMv d.val) ∧ slack.toInt < 20 ∧ mv + 5 ≤ s.fuses.vmax ∧ mv + 5 < 1024) ∧
    (∃ (d : DieIx) (slack : BitVec 8) (mv : Nat) (s : State), s.runs = true ∧ (s.avsOf d.val).settling = false ∧ s.fld fThermState ≠ 2 ∧ mv = s.fld (fMv d.val) ∧ slack.toInt < 20 ∧ mv = s.fuses.vmax) ∧
    (∃ (d : DieIx) (slack : BitVec 8) (mv : Nat) (s : State), s.runs = true ∧ (s.avsOf d.val).settling = false ∧ s.fld fThermState ≠ 2 ∧ mv = s.fld (fMv d.val) ∧ 20 ≤ slack.toInt ∧ slack.toInt ≤ 40) ∧
    (∃ (d : DieIx) (slack : BitVec 8) (mv : Nat) (s : State), s.runs = true ∧ (s.avsOf d.val).settling = false ∧ s.fld fThermState ≠ 2 ∧ mv = s.fld (fMv d.val) ∧ 40 < slack.toInt ∧ 99 ≤ (s.avsOf d.val).high ∧ s.fuses.vmin + 5 ≤ mv) :=
  ⟨⟨tmps 7 (-5), (List.range 64).map (fun r => (tmps 7 (-5) : List Int).getD r 0), 300, by decide +kernel⟩,
    ⟨tmps 7 391, (List.range 64).map (fun r => (tmps 7 391 : List Int).getD r 0), 391, up lk, by decide +kernel⟩,
    ⟨tmps 7 450, (List.range 64).map (fun r => (tmps 7 450 : List Int).getD r 0), 450, up inL, by decide +kernel⟩,
    ⟨tmps 7 379, (List.range 64).map (fun r => (tmps 7 379 : List Int).getD r 0), 379, up { F inL [(fThermState, 1)] with thermal := { below := 99 } }, by decide +kernel⟩,
    ⟨tmps 7 379, (List.range 64).map (fun r => (tmps 7 379 : List Int).getD r 0), 379, up { F inL [(fThermState, 1)] with thermal := { below := 98 } }, by decide +kernel⟩,
    ⟨tmps 7 480, (List.range 64).map (fun r => (tmps 7 480 : List Int).getD r 0), 480, by decide +kernel⟩,
    ⟨5, up inL, by decide +kernel⟩,
    ⟨5, 440, up { F inL [(fThermState, 1)] with thermal := { second := [5], latest := tmps 5 441 } }, by decide +kernel⟩,
    ⟨5, 391, up { inL with thermal := { second := [5], latest := tmps 5 441 } }, by decide +kernel⟩,
    ⟨up { inL with thermal := { stopNow := true }, links := [⟨0, 1, 606, bt 4 true false, false, false⟩] }, by decide +kernel⟩,
    ⟨up inL, by decide +kernel⟩,
    ⟨2, 0xF0, 800, up (F inL [(fMv 2, 800)]), by decide +kernel⟩,
    ⟨2, 19, 900, up { F inL [(fMv 2, 900)] with avs := [(2, { lowAtMax := 9 })] }, by decide +kernel⟩,
    ⟨2, 40, 800, up (F inL [(fMv 2, 800)]), by decide +kernel⟩,
    ⟨2, 41, 655, up { F inL [(fMv 2, 655)] with avs := [(2, { high := 99 })] }, by decide +kernel⟩⟩

/-- The hypotheses of BootAndFlashCommandsAct can be met. -/
theorem witness_BootAndFlashCommandsAct :
    (∃ (s : State), s.flashCmd = none) ∧
    (∃ (s : State), s.flashCmd ≠ none) ∧
    (∃ (s : State), s.recovery = false ∧ (s.fld fBootState ≠ 5 ∨ s.is fArmed = true)) ∧
    (∃ (s : State), (s.recovery = true ∨ (s.fld fBootState = 5 ∧ s.is fArmed = false)) ∧ s.pins.refclk = false) ∧
    (∃ (c : Instr) (op : Nat) (s : State), (c, op) ∈ [(Instr.flashRead, 0), (.flashProgram, 1), (.flashErase, 2)] ∧ s.is fArmed = false ∧ s.flashCmd = none) ∧
    (∃ (c : Instr) (op : Nat) (s : State), (c, op) ∈ [(Instr.flashRead, 0), (.flashProgram, 1), (.flashErase, 2)] ∧ (s.is fArmed = true ∨ s.flashCmd ≠ none)) ∧
    (∃ (a : Nat) (len : Nat) (bytes : List Byte) (s : State) (op : Nat), s.extest = true ∧ s.flashCmd = some (op, a, len, bytes)) ∧
    (∃ (a : Nat) (len : Nat) (bytes : List Byte) (s : State), s.extest = false ∧ s.flashCmd = some (0, a, len, bytes) ∧ len < 256) ∧
    (∃ (a : Nat) (len : Nat) (bytes : List Byte) (s : State), s.extest = false ∧ s.flashCmd = some (1, a, len, bytes)) ∧
    (∃ (a : Nat) (len : Nat) (bytes : List Byte) (s : State), s.extest = false ∧ s.flashCmd = some (2, a, len, bytes)) ∧
    (∃ (confirm : Byte) (s : State), (s.fuses.ownerSet = true ∨ confirm ≠ 0xA5 ∨ s.is fArmed = true ∨ (∀ b ∈ stagedOwner s, b = 0))) ∧
    (∃ (confirm : Byte) (s : State), s.fuses.ownerSet = false ∧ confirm = 0xA5 ∧ s.is fArmed = false ∧ ((∃ b ∈ stagedOwner s, b ≠ 0)) ∧ s.trust.ownerNew = none) ∧
    (∃ (k : List Byte) (s : State), s.trust.ownerNew = some k) :=
  ⟨⟨up lk, by decide +kernel⟩,
    ⟨{ up lk with flashCmd := some (1, 0, 3, [1, 2, 3, 4]) }, by decide +kernel⟩,
    ⟨up inL, by decide +kernel⟩,
    ⟨{ up lkIm with pins := { vin := true, porst := true }, units := [(0, {})] }, by decide +kernel⟩,
    ⟨.flashProgram, 1, (up (F lk [(fFlAddr, 300), (fFlLen, 3)])).setRaw 0x40100 0x04030201, by decide +kernel⟩,
    ⟨.flashErase, 2, { up lk with flashCmd := some (0, 0, 3, []) }, by decide +kernel⟩,
    ⟨5, 3, [1, 2, 3, 4], { F (up lk) [(fFlBusy, 1)] with flashCmd := some (1, 5, 3, [1, 2, 3, 4]), tap := { ir := 0 } }, 1, by decide +kernel⟩,
    ⟨5, 3, [], { up lk with flashCmd := some (0, 5, 3, []), flash := [(6, 1), (8, 9), (9, 7)] }, by decide +kernel⟩,
    ⟨5, 3, [1, 2, 3, 4], { up lk with flashCmd := some (1, 5, 3, [1, 2, 3, 4]), flash := [(4, 8), (6, 1), (9, 7)] }, by decide +kernel⟩,
    ⟨0x10005, 0, [], { up lk with flashCmd := some (2, 0x10005, 0, []), flash := [(4, 8), (0x10000, 1), (0x1FFFF, 7), (0x20000, 3)] }, by decide +kernel⟩,
    ⟨0xA4, up lk, by decide +kernel⟩,
    ⟨0xA5, (up lk).setRaw 0x40264 0x100, by decide +kernel⟩,
    ⟨List.replicate 32 7, { up lk with trust := { ownerNew := some (List.replicate 32 7) } }, by decide +kernel⟩⟩

/-- The hypotheses of ScrubbersReadWords can be met. -/
theorem witness_ScrubbersReadWords :
    (∃ (u : UnitIx) (kind : Nat) (w : Nat) (r : Nat) (s : State), r = u.val / 64 ∧ s.is (fScrubEn r) = true ∧ (s.unit u.val).scrubPos + 1 < 18176 ∧ (kind, w) = unitPlace (s.unit u.val).scrubPos) ∧
    (∃ (r : RegionIx) (k : Nat) (w : Nat) (s : State), s.is (fScrubEn r.val) = true ∧ (s.region r.val).scrubPos < 1048576 ∧ k = 8 * r.val + (s.region r.val).scrubPos / 131072 ∧ w = (s.region r.val).scrubPos % 131072) ∧
    (∃ (r : RegionIx) (c : Nat) (w : Nat) (s : State), s.is (fScrubEn r.val) = true ∧ (6, c, 0, w) = regionPlace (s.region r.val).scrubPos ∧ w < 12288 ∧ c < 8 ∧ (s.cluster (8 * r.val + c)).logic.cells.check w = some .uncorrectable) ∧
    (∃ (s : State), s.recovery = true) ∧
    (∃ (s : State), s.recovery = false) ∧
    (∃ (s : State), s.recovery = true) ∧
    (∃ (s : State), s.recovery = false ∧ s.runs = true) ∧
    (∃ (s : State), s.recovery = false ∧ s.runs = false) :=
  ⟨⟨65, (unitPlace 5).1, (unitPlace 5).2, 1, unitE 65 (setUnitStore { scrubPos := 5 } (unitPlace 5).1 { ecc := [((unitPlace 5).2, some .correctable)] }) (up lk), by decide +kernel⟩,
    ⟨2, 17, 9, { F (up lk) [(fScrubEn 2, 1)] with regions := [(2, { scrubPos := 131072 + 9 })], clusters := [(17, { store := { ecc := [(9, some .uncorrectable)] } })] }, by decide +kernel⟩,
    ⟨2, 0, 3, { F (up lk) [(fScrubEn 2, 1)] with regions := [(2, { scrubPos := cellPos })], clusters := [(16, { logic := { cells := { ecc := [(3, some .uncorrectable)] } } })] }, by decide +kernel⟩,
    ⟨F lk [(fBootState, 6)], by decide +kernel⟩,
    ⟨{ up lk with regions := [(2, { scrubPos := 9 })], units := [(130, { scrubPos := 4 })] }, by decide +kernel⟩,
    ⟨F lk [(fBootState, 6)], by decide +kernel⟩,
    ⟨up lk, by decide +kernel⟩,
    ⟨up { lk with clock := { stopped := true } }, by decide +kernel⟩⟩

/-- The hypotheses of SmbusAndJtagAnswer can be met. -/
theorem witness_SmbusAndJtagAnswer :
    (∃ (c : Instr) (code : Byte) (count : List Byte) (l : List Byte) (a : Nat) (s : State), a = s.fld fSmbAddr ∧ (c, code, count, l) ∈ [(Instr.smbusReadIdentity, 0x00, [8], leBytes 4 (fromDies s (pkgPart s)) ++ leBytes 4 (fromDies s (s.raw 0x4).toNat)), (.smbusReadStatus, 0x01, [], leBytes 2 (if dieAlive s = true then s.statusWord else 2 ^ 4 * bits s.statusWord 4 3)), (.smbusReadVin, 0x02, [], leBytes 2 (s.fld fVin)), (.smbusReadCurrent, 0x03, [], leBytes 2 (s.fld fIin)), (.smbusReadPower, 0x04, [], leBytes 2 (s.fld fPin)), (.smbusReadTemperature, 0x06, [], leBytes 2 (fromDies s (low 16 (sext 11 (s.fld fHottest))))), (.smbusReadBootStatus, 0x07, [], leBytes 2 (fromDies s ((s.raw 0x40000).toNat % 2 ^ 16))), (.smbusAlertMask none, 0x08, [], leBytes 2 (s.fld fAlertMask))] ∧ smbUp s = true) ∧
    (∃ (c : Instr) (code : Byte) (count : List Byte) (l : List Byte) (a : Nat) (s : State), a = s.fld fSmbAddr ∧ (c, code, count, l) ∈ [(Instr.smbusReadIdentity, 0x00, [8], leBytes 4 (fromDies s (pkgPart s)) ++ leBytes 4 (fromDies s (s.raw 0x4).toNat)), (.smbusReadStatus, 0x01, [], leBytes 2 (if dieAlive s = true then s.statusWord else 2 ^ 4 * bits s.statusWord 4 3)), (.smbusReadVin, 0x02, [], leBytes 2 (s.fld fVin)), (.smbusReadCurrent, 0x03, [], leBytes 2 (s.fld fIin)), (.smbusReadPower, 0x04, [], leBytes 2 (s.fld fPin)), (.smbusReadTemperature, 0x06, [], leBytes 2 (fromDies s (low 16 (sext 11 (s.fld fHottest))))), (.smbusReadBootStatus, 0x07, [], leBytes 2 (fromDies s ((s.raw 0x40000).toNat % 2 ^ 16))), (.smbusAlertMask none, 0x08, [], leBytes 2 (s.fld fAlertMask))] ∧ smbUp s = false) ∧
    (∃ (s : State), smbUp s = true) ∧
    (∃ (s : State), smbUp s = true) ∧
    (∃ (s : State), smbUp s = true ∧ s.pins.alert = true) ∧
    (∃ (s : State), smbUp s = true ∧ s.pins.alert = false) ∧
    (∃ (s : State), s.pins.vin = true) ∧
    (∃ (s : State), s.pins.vin = true) ∧
    (∃ (c : Instr) (code : Byte) (dr : BitVec 102) (width : Nat) (s : State), (c, code, dr, width) ∈ [(Instr.idcode, 0x02, 0x1A7165B7, 32), (Instr.bypass 0xFF, 0xFF, 0, 1), (.bypass 0x03, 0x03, 0, 1)] ∧ s.pins.vin = false) ∧
    (∃ (c : Instr) (code : Byte) (dr : BitVec 102) (width : Nat) (s : State), (c, code, dr, width) ∈ [(Instr.idcode, 0x02, 0x1A7165B7, 32), (Instr.bypass 0xFF, 0xFF, 0, 1), (.bypass 0x03, 0x03, 0, 1)] ∧ s.pins.vin = true) ∧
    (∃ (s : State), s.pins.vin = true ∧ s.extest = false) ∧
    (∃ (s : State), s.pins.vin = true ∧ s.extest = false) ∧
    (∃ (s : State), s.pins.vin = true ∧ s.extest = false) ∧
    (∃ (s : State), s.pins.vin = true ∧ s.extest = false) :=
  ⟨⟨.smbusReadIdentity, 0, [8], leBytes 4 (fromDies (up (F lk [(fSmbAddr, 0x59)])) (pkgPart (up (F lk [(fSmbAddr, 0x59)])))) ++ leBytes 4 (fromDies (up (F lk [(fSmbAddr, 0x59)])) ((up (F lk [(fSmbAddr, 0x59)])).raw 0x4).toNat), (up (F lk [(fSmbAddr, 0x59)])).fld fSmbAddr, up (F lk [(fSmbAddr, 0x59)]), by decide +kernel⟩,
    ⟨.smbusReadVin, 2, [], leBytes 2 (({ F lk [(fVin, 12000)] with pins := { vin := true }, tap := { ir := 0 } }).fld fVin), ({ F lk [(fVin, 12000)] with pins := { vin := true }, tap := { ir := 0 } }).fld fSmbAddr, { F lk [(fVin, 12000)] with pins := { vin := true }, tap := { ir := 0 } }, by decide +kernel⟩,
    ⟨up (F lk [(fPeak, 5000), (fPin, 12)]), by decide +kernel⟩,
    ⟨up lk, by decide +kernel⟩,
    ⟨{ up lk with pins := { vin := true, alert := true } }, by decide +kernel⟩,
    ⟨up lk, by decide +kernel⟩,
    ⟨up lk, by decide +kernel⟩,
    ⟨up lk, by decide +kernel⟩,
    ⟨.idcode, 2, 0x1A7165B7, 32, lk, by decide +kernel⟩,
    ⟨.idcode, 2, 0x1A7165B7, 32, up lk, by decide +kernel⟩,
    ⟨up lk, by decide +kernel⟩,
    ⟨up lk, by decide +kernel⟩,
    ⟨up lk, by decide +kernel⟩,
    ⟨{ up lk with tap := { offset := 16 } }, by decide +kernel⟩⟩

/-- The hypotheses of FrostCapturesOnce can be met. -/
theorem witness_FrostCapturesOnce :
    (∃ (s : State), s.recovery = true) ∧
    (∃ (s : State), s.recovery = false ∧ s.n ≤ s.fld fFrsCycle) ∧
    (∃ (s : State), s.recovery = false ∧ s.fld fFrsCycle < s.n ∧ s.runs = true) ∧
    (∃ (s : State), s.recovery = false ∧ s.fld fFrsCycle < s.n ∧ s.runs = false ∧ s.is fHeld = false) ∧
    (∃ (s : State), s.recovery = false ∧ s.fld fFrsCycle < s.n ∧ s.runs = false ∧ s.is fHeld = true) ∧
    (∃ (s : State), s.recovery = true) ∧
    (∃ (s : State), s.recovery = false) ∧
    (∃ (e : PendCmd) (s : State), s.runs = true ∧ dueCmd s .frost = some e ∧ s.frostArmed = none ∧ ((∀ c ∈ s.pendTable, c.code = .frost → s.clock.xseq ≤ c.x)) ∧ s.is fHeld = false) ∧
    (∃ (e : PendCmd) (s : State), s.runs = true ∧ dueCmd s .frost = some e ∧ s.frostArmed = none ∧ ((∀ c ∈ s.pendTable, c.code = .frost → s.clock.xseq ≤ c.x)) ∧ s.is fHeld = true) ∧
    (∃ (x : Nat) (n : Nat) (s : State), s.runs = true ∧ s.frostArmed = some (x, n) ∧ x ≤ s.clock.xseq ∧ ((∀ c ∈ s.pendTable, c.code ≠ .frost)) ∧ s.is fHeld = false) ∧
    (∃ (e : PendCmd) (s : State), e ∈ s.pendTable ∧ e.code = .frost ∧ (s.runs = false ∨ e.x < s.clock.xseq)) :=
  ⟨⟨F lk [(fBootState, 6)], by decide +kernel⟩,
    ⟨up (F lk [(fFrsCycle, 63)]), by decide +kernel⟩,
    ⟨up (F lk [(fFrsCycle, 3)]), by decide +kernel⟩,
    ⟨up { F lk [(fFrsCycle, 3)] with clock := { stopped := true, now := 605 } }, by decide +kernel⟩,
    ⟨up { F lk [(fFrsCycle, 3), (fHeld, 1)] with clock := { stopped := true, now := 605 } }, by decide +kernel⟩,
    ⟨F lk [(fHeld, 1), (fBootState, 6)], by decide +kernel⟩,
    ⟨up (F lk [(fHeld, 1)]), by decide +kernel⟩,
    ⟨⟨.frost, 20, 67, true, none⟩, pfr ⟨.frost, 20, 67, true, none⟩ (up inL), by decide +kernel⟩,
    ⟨⟨.frost, 20, 67, true, none⟩, pfr ⟨.frost, 20, 67, true, none⟩ (up (F inL [(fHeld, 1)])), by decide +kernel⟩,
    ⟨20, 67, { up inL with frostArmed := some (20, 67) }, by decide +kernel⟩,
    ⟨⟨.frost, 19, 67, true, none⟩, pfr ⟨.frost, 19, 67, true, none⟩ (up inL), by decide +kernel⟩⟩

/-- The hypotheses of AbsentUnitsDoNothing can be met. -/
theorem witness_AbsentUnitsDoNothing :
    (∃ (h : FlitHdr) (b : Beat) (ty : BitVec 4) (addr : BitVec 48) (bytes : List Byte) (n : BitVec 12) (offset : BitVec 12) (tag : Byte) (err : Bool) (payload : BitVec 256) (v : BitVec 16) (ack : BitVec 8) (nak : Bool) (cap : Word32) (stamp : Word32) (num : BitVec 10) (endpoint : BitVec 10) (host : Bool) (claim : Bool) (width : BitVec 2) (member : BitVec 3) (stream : BitVec 14) (ref : BitVec 24) (c : Instr) (s : State), s.tile h.site.val ≠ 1 ∧ c ∈ [.nullFlit h ty, .beatFlit h b, .writeFlit h addr bytes, .readFlit h addr n tag, .dataFlit h tag offset err bytes, .noticeFlit h payload, .creditFlit h v, .linkFlit h ack nak, .nego h tag cap endpoint host claim num width, .announce h num v, .sched h tag ref ack v, .schedAck h err num v, .arrive h num v, .sysRelease h v, .detach h num member stream, .restripe h width, .echo h err stamp]) ∧
    (∃ (site : SiteIx) (lane : Fin 32) (errors : Nat) (past : Option (BitVec 8)) (fibre2 : Bool) (power : Option (BitVec 9)) (c : Instr) (s : State), s.tile site.val ≠ 1 ∧ c ∈ [.codewordReceived site lane errors past, .ackTimer site lane, .nakRepeat site lane, .resendTimeout site lane, .linkReset site lane, .laserPowerChange site fibre2 power]) ∧
    (∃ (l : LaneId) (h : BitVec 6) (v : BitVec 6) (c : Instr) (s : State), laneExists s l = false ∧ c ∈ [.laneSignalPresent l, .laneUp l, .trainingAttemptFailed l, .marginMeasurement l h v, .lossOfLock l, .lockRecovered l, .train l]) ∧
    (∃ (site : SiteIx) (s : State), s.tile site.val = 2) ∧
    (∃ (site : SiteIx) (lane : Fin 32) (s : State), txLanes s site.val ≤ lane.val) ∧
    (∃ (n : IntakeLane) (head : Line) (close : Line) (number : List Line) (rest : List Line) (data : List Line) (sum : List Line) (a : Nat) (c : Instr) (s : State), intakeLane s n.val = none ∧ c ∈ [.intakeFrameStart n head number rest, .intakeFrameArrival n data sum close a, .stagedWaystationRelease n, .arrivalMeasurementEnd n]) ∧
    (∃ (m : MemIx) (addr : Nat) (n : Nat) (data : List Word64) (link : LinkEcc) (rate : BitVec 3) (c : Instr) (s : State), memExists s m.val = false ∧ c ∈ [.memoryWrite m addr data link, .memoryRead m addr n link, .refresh m, .refreshRateRead m rate, .scrubNow m, .patrolScrubRead m]) ∧
    (∃ (a : ArbId) (s : State), arbExists s a = false) ∧
    (∃ (a : ArbId) (s : State), arbExists s a = false) :=
  ⟨⟨hdr9, bt 1 true true, 0, 0, [], 0, 0, 0, false, 0, 0, 0, false, 0, 0, 0, 0, false, false, 0, 0, 0, 0, .detach (hdr9 : FlitHdr) (0 : BitVec 10) (0 : BitVec 3) (0 : BitVec 14), lk, by decide +kernel⟩,
    ⟨0, 3, 0, none, true, none, .laserPowerChange (0 : SiteIx) (true : Bool) (none : Option (BitVec 9)), lk, by decide +kernel⟩,
    ⟨⟨0, 20, true⟩, 0, 0, .train (⟨0, 20, true⟩ : LaneId), lk, by decide +kernel⟩,
    ⟨7, lk, by decide +kernel⟩,
    ⟨0, 31, lk, by decide +kernel⟩,
    ⟨200, idleBlock, idleBlock, [], [], [], [], 0, .intakeFrameArrival (200 : IntakeLane) ([] : List Line) ([] : List Line) (idleBlock : Line) (0 : Nat), { lk with fuses := { variant := 1 } }, by decide +kernel⟩,
    ⟨7, 0, 1, [], ⟨0, []⟩, 0, .patrolScrubRead (7 : MemIx), lk, by decide +kernel⟩,
    ⟨.memory 7, lk, by decide +kernel⟩,
    ⟨.memory 7, lk, by decide +kernel⟩⟩

end Sys2Proof.Tests
end

/-!
The two ways in which a step gives a next state, and the canonical form that every step keeps.
-/
namespace Sys2Proof.Machine

/-- A step that gives a next state idles on an empty queue, or runs the command at the queue's front on the state with the rest. -/
theorem step_next_cases {s t : State} (h : step s = .next t) :
    s.pending = [] ∧ t = s ∨ ∃ c rest, s.pending = c :: rest ∧ exec c { s with pending := rest } = .next t := by
  unfold step at h
  split at h
  case h_1 hq =>
    cases h
    exact .inl ⟨hq, rfl⟩
  case h_2 c rest hq => exact .inr ⟨c, rest, hq, h⟩

/-- The waiting commands are no part of the canonical form. -/
@[simp] theorem State.wf_pending (s : State) (q : List Instr) : State.wf { s with pending := q } = s.wf := rfl

/-- A command that gives a next state keeps the canonical form. -/
theorem exec_wf {c : Instr} {s t : State} (hs : s.wf = true) (h : exec c s = .next t) : t.wf = true := by
  obtain ⟨-, -, hwf⟩ := exec_kept c s t h
  exact hwf hs

/-- Settles O3: an idle step changes nothing, and every command keeps the form (`exec_kept`). -/
theorem stepKeepsCanonicalForm : Obligations.StepKeepsCanonicalForm := by
  intro s t hs hstep
  obtain ⟨-, rfl⟩ | ⟨c, rest, -, hexec⟩ := step_next_cases hstep
  · exact hs
  · exact exec_wf ((State.wf_pending s rest).trans hs) hexec

end Sys2Proof.Machine

/-!
What a command does on a port, a lane or a memory tile that the order code does not have (00 R3, 11 R274):
nothing. One lemma for every loose flit and one for every system flit, one for each other command.
-/
namespace Sys2Proof.Machine

/-! ### Sites that are no port tile -/

section
variable {s : State} {h : FlitHdr} (hs : s.tile h.site.val ≠ 1)
include hs

/-- A flit at a site that is no port tile is not received, whatever its type and the effect that it would have. -/
theorem receive_of_no_port (ty : Nat) (b : FlitBody) (run : State → State) : receive h ty b s run = .next s := if_pos hs

theorem receiveLoose_of_no_port (b : FlitBody) (bad : Bool) : receiveLoose h b bad s = .next s := receive_of_no_port hs _ b _

theorem receiveSys_of_no_port (subtype : Nat) (fs : List (Nat × Nat)) : receiveSys h subtype fs s = .next s :=
  receiveLoose_of_no_port hs _ _

theorem execNullFlit_of_no_port (ty : BitVec 4) : execNullFlit h ty s = .next s := if_pos hs

theorem execBeatFlit_of_no_port (b : Beat) : execBeatFlit h b s = .next s := if_pos hs

theorem execLinkFlit_of_no_port (ack : BitVec 8) (nak : Bool) : execLinkFlit h ack nak s = .next s := if_pos hs

end

section
variable {s : State} {site : SiteIx} (hs : s.tile site.val ≠ 1)
include hs

theorem execCodewordReceived_of_no_port (lane : Fin 32) (errors : Nat) (past : Option (BitVec 8)) :
    execCodewordReceived site lane errors past s = .next s := if_pos hs

theorem execAckTimer_of_no_port (lane : Fin 32) : execAckTimer site lane s = .next s := if_pos hs

theorem execNakRepeat_of_no_port (lane : Fin 32) : execNakRepeat site lane s = .next s := if_pos hs

theorem execResendTimeout_of_no_port (lane : Fin 32) : execResendTimeout site lane s = .next s := if_pos hs

theorem execLinkReset_of_no_port (lane : Fin 32) : execLinkReset site lane s = .next s := by
  simp [execLinkReset, hs]

theorem execLaserPowerChange_of_no_port (fibre2 : Bool) (power : Option (BitVec 9)) :
    execLaserPowerChange site fibre2 power s = .next s := if_pos hs

end

/-! ### Lanes -/

section
variable {s : State} {l : LaneId} (hl : laneExists s l = false)
include hl

theorem execLaneSignalPresent_of_no_lane : execLaneSignalPresent l s = .next s := by simp [execLaneSignalPresent, hl]

theorem execLaneUp_of_no_lane : execLaneUp l s = .next s := by simp [execLaneUp, hl]

theorem execTrainingAttemptFailed_of_no_lane : execTrainingAttemptFailed l s = .next s := by simp [execTrainingAttemptFailed, hl]

theorem execMarginMeasurement_of_no_lane (h v : BitVec 6) : execMarginMeasurement l h v s = .next s := by
  simp [execMarginMeasurement, hl]

theorem execLossOfLock_of_no_lane : execLossOfLock l s = .next s := by simp [execLossOfLock, hl]

theorem execLockRecovered_of_no_lane : execLockRecovered l s = .next s := by simp [execLockRecovered, hl]

theorem execTrain_of_no_lane : execTrain l s = .next s := by simp [execTrain, hl]

end

/-- A memory tile's site has no optical bond. -/
theorem execLnkBondWrite_of_memory_site {s : State} {site : SiteIx} (hs : s.tile site.val = 2) (v : Word32) :
    execLnkBondWrite site v s = .next s := by
  simp [execLnkBondWrite, hs]

theorem execBeatFrameSend_of_no_transmit_lane {s : State} {site : SiteIx} {lane : Fin 32} (h : txLanes s site.val ≤ lane.val) :
    execBeatFrameSend site lane s = .next s := if_pos h

section
variable {s : State} {n : IntakeLane} (hn : intakeLane s n.val = none)
include hn

theorem execIntakeFrameStart_of_no_intake_lane (head : Line) (number rest : List Line) :
    execIntakeFrameStart n head number rest s = .next s := by simp [execIntakeFrameStart, hn]

theorem execIntakeFrameArrival_of_no_intake_lane (data sum : List Line) (close : Line) (a : Nat) :
    execIntakeFrameArrival n data sum close a s = .next s := by simp [execIntakeFrameArrival, hn]

theorem execStagedWaystationRelease_of_no_intake_lane : execStagedWaystationRelease n s = .next s := by
  simp [execStagedWaystationRelease, hn]

theorem execArrivalMeasurementEnd_of_no_intake_lane : execArrivalMeasurementEnd n s = .next s := by
  simp [execArrivalMeasurementEnd, hn]

end

/-! ### Memory tiles and arbiters -/

section
variable {s : State} {m : MemIx} (hm : memExists s m.val = false)
include hm

theorem execMemoryWrite_of_no_tile (addr : Nat) (data : List Word64) (link : LinkEcc) :
    execMemoryWrite m addr data link s = .next s := by simp [execMemoryWrite, hm]

theorem execMemoryRead_of_no_tile (addr n : Nat) (link : LinkEcc) : execMemoryRead m addr n link s = .next s := by
  simp [execMemoryRead, hm]

theorem execRefresh_of_no_tile : execRefresh m s = .next s := by simp [execRefresh, hm]

theorem execRefreshRateRead_of_no_tile (rate : BitVec 3) : execRefreshRateRead m rate s = .next s := by
  simp [execRefreshRateRead, hm]

theorem execScrubNow_of_no_tile : execScrubNow m s = .next s := by simp [execScrubNow, hm]

theorem execPatrolScrubRead_of_no_tile : execPatrolScrubRead m s = .next s := by simp [execPatrolScrubRead, hm]

end

section
variable {s : State} {a : ArbId} (ha : arbExists s a = false)
include ha

theorem execArbiterDecision_of_no_arbiter (ps : List Requester) : execArbiterDecision a ps s = .next s := by
  simp [execArbiterDecision, ha]

theorem execTransactionEnd_of_no_arbiter : execTransactionEnd a s = .next s := by simp [execTransactionEnd, ha]

end

/-- Settles O60: each command of the lists looks first at whether its unit exists, and stops there. -/
theorem absentUnitsDoNothing : Obligations.AbsentUnitsDoNothing := by
  refine ⟨?flits, ?ports, ?lanes, ?bonds, ?frames, ?intake, ?memory, ?arbiters⟩
  case flits =>
    intro h b ty addr bytes n offset tag err payload v ack nak cap stamp num endpoint host claim width member stream ref c s hs hc
    simp only [List.mem_cons, List.not_mem_nil, or_false] at hc
    rcases hc with rfl | rfl | rfl | rfl | rfl | rfl | rfl | rfl | rfl | rfl | rfl | rfl | rfl | rfl | rfl | rfl | rfl
    · exact execNullFlit_of_no_port hs ty
    · exact execBeatFlit_of_no_port hs b
    iterate 5 exact receiveLoose_of_no_port hs _ _
    · exact execLinkFlit_of_no_port hs ack nak
    all_goals exact receiveSys_of_no_port hs _ _
  case ports =>
    intro site lane errors past fibre2 power c s hs hc
    simp only [List.mem_cons, List.not_mem_nil, or_false] at hc
    rcases hc with rfl | rfl | rfl | rfl | rfl | rfl
    · exact execCodewordReceived_of_no_port hs lane errors past
    · exact execAckTimer_of_no_port hs lane
    · exact execNakRepeat_of_no_port hs lane
    · exact execResendTimeout_of_no_port hs lane
    · exact execLinkReset_of_no_port hs lane
    · exact execLaserPowerChange_of_no_port hs fibre2 power
  case lanes =>
    intro l h v c s hl hc
    simp only [List.mem_cons, List.not_mem_nil, or_false] at hc
    rcases hc with rfl | rfl | rfl | rfl | rfl | rfl | rfl
    · exact execLaneSignalPresent_of_no_lane hl
    · exact execLaneUp_of_no_lane hl
    · exact execTrainingAttemptFailed_of_no_lane hl
    · exact execMarginMeasurement_of_no_lane hl h v
    · exact execLossOfLock_of_no_lane hl
    · exact execLockRecovered_of_no_lane hl
    · exact execTrain_of_no_lane hl
  case bonds => exact fun _ v _ hs => execLnkBondWrite_of_memory_site hs v
  case frames => exact fun _ _ _ h => execBeatFrameSend_of_no_transmit_lane h
  case intake =>
    intro n head close number rest data sum a c s hn hc
    simp only [List.mem_cons, List.not_mem_nil, or_false] at hc
    rcases hc with rfl | rfl | rfl | rfl
    · exact execIntakeFrameStart_of_no_intake_lane hn head number rest
    · exact execIntakeFrameArrival_of_no_intake_lane hn data sum close a
    · exact execStagedWaystationRelease_of_no_intake_lane hn
    · exact execArrivalMeasurementEnd_of_no_intake_lane hn
  case memory =>
    intro m addr n data link rate c s hm hc
    simp only [List.mem_cons, List.not_mem_nil, or_false] at hc
    rcases hc with rfl | rfl | rfl | rfl | rfl | rfl
    · exact execMemoryWrite_of_no_tile hm addr data link
    · exact execMemoryRead_of_no_tile hm addr n link
    · exact execRefresh_of_no_tile hm
    · exact execRefreshRateRead_of_no_tile hm rate
    · exact execScrubNow_of_no_tile hm
    · exact execPatrolScrubRead_of_no_tile hm
  case arbiters =>
    exact fun _ ps _ ha => ⟨execArbiterDecision_of_no_arbiter ha ps, execTransactionEnd_of_no_arbiter ha⟩

end Sys2Proof.Machine

/-!
The package before PORST_N rises (17 R419, R421): nothing is written, so that every register reads its reset value. The reset
words of the four registers that ResetState reads are those of every order code (00 R3).
-/
namespace Sys2Proof.Machine

/-! ### Packages with nothing written -/

/-- With no register written and no memory tile touched, the canonical form holds. -/
theorem State.wf_of_unwritten {s : State} (hregs : s.regs = []) (htiles : s.memTiles = []) : s.wf = true := by
  simp [State.wf, hregs, htiles, risingKeys, mwf]

/-- With no register written and no SWAP in force, each register reads its reset value. -/
theorem State.raw_of_unwritten {s : State} (hregs : s.regs = []) (hswap : s.baseSwap = false) (a : Nat) : s.raw a = regReset s a := by
  simp [State.raw, State.swapped, hregs, hswap, mget]

theorem State.reset_wf : State.reset.wf = true := State.wf_of_unwritten rfl rfl

section
variable (f : Fld) {w : Word32} (hword : regReset State.reset f.addr = w)
include hword

/-- A field of the package at reset is a field of its register's reset word. -/
theorem State.fld_reset : State.reset.fld f = bits w.toNat f.lo f.w := by
  rw [State.fld, State.raw_of_unwritten rfl rfl, hword]

theorem State.is_reset : State.reset.is f = (bits w.toNat f.lo f.w == 1) := by
  rw [State.is, State.fld_reset f hword]

end

/-! ### Reset words -/

/-- PKG_MODE: no image in REGIME, not armed (01 R31). -/
theorem regReset_pkgMode (s : State) : regReset s 0x8 = 0 := rfl

/-- TIM_CTRL: ENABLE 1, N_DEFAULT 30, WEATHER 16 (02 R65). -/
theorem regReset_timCtrl (s : State) : regReset s 0x20000 = 0x00101E40 := rfl

/-- TIM_STATUS: DARK, and no error bit set (02 R46, R65). -/
theorem regReset_timStatus (s : State) : regReset s 0x20004 = 0 := rfl

/-- PWR_SMB: ADDR 0x58, ALERT_MASK 0x1E (17 R432). -/
theorem regReset_pwrSmb (s : State) : regReset s 0x10110 = 0x00001E58 := rfl

/-- Settles O4: each field is read off its register's reset word; the other parts are the initial values of the state's fields. -/
theorem resetState : Obligations.ResetState := by
  have state : State.reset.fld fState = 0 := (State.fld_reset fState (regReset_timStatus _)).trans rfl
  have enable : State.reset.is fEnable = true := (State.is_reset fEnable (regReset_timCtrl _)).trans rfl
  have nDefault : State.reset.fld fNDefault = 30 := (State.fld_reset fNDefault (regReset_timCtrl _)).trans rfl
  have weather : State.reset.fld fWeather = 16 := (State.fld_reset fWeather (regReset_timCtrl _)).trans rfl
  have alertMask : State.reset.fld fAlertMask = 0x1E := (State.fld_reset fAlertMask (regReset_pwrSmb _)).trans rfl
  have regime : State.reset.fld fRegime = 0 := (State.fld_reset fRegime (regReset_pkgMode _)).trans rfl
  have armed : State.reset.is fArmed = false := (State.is_reset fArmed (regReset_pkgMode _)).trans rfl
  exact ⟨State.reset_wf, rfl, state, rfl, rfl, rfl, enable, nDefault, weather, alertMask, regime, armed⟩

end Sys2Proof.Machine

/-!
The slots of the timing lane (02 R36 to R40, R50): the counters of TIM_ERR go up one by one, and the clock is what else changes.
-/
namespace Sys2Proof.Machine

/-! ### Fields that share no bit -/

/-- The field `g` lies in its register and shares no bit with `f`: `Fld.apart` as a check that evaluates. -/
def Fld.sep (f g : Fld) : Bool :=
  decide (g.lo + g.w ≤ 32) && (decide (g.addr ≠ f.addr) || (decide (g.lo + g.w ≤ f.lo) || decide (f.lo + f.w ≤ g.lo)))

theorem Fld.sep_iff (f g : Fld) : f.sep g = true ↔ g.lo + g.w ≤ 32 ∧ f.apart g := by
  simp only [Fld.sep, Fld.apart, Bool.and_eq_true, Bool.or_eq_true, decide_eq_true_eq]

theorem Fld.sep_of_addr_ne {f g : Fld} (hw : g.lo + g.w ≤ 32) (h : g.addr ≠ f.addr) : f.sep g = true := (Fld.sep_iff f g).mpr ⟨hw, .inl h⟩

section
variable (s : State) {f g : Fld} (h : f.sep g = true)
include h

theorem State.fld_setFld_sep (v : Nat) : (s.setFld f v).fld g = s.fld g :=
  State.fld_setFld_other s f g v ((Fld.sep_iff f g).mp h).1 ((Fld.sep_iff f g).mp h).2

theorem State.fld_bump_sep (n : Nat) : (s.bump f n).fld g = s.fld g := State.fld_setFld_sep s h _

theorem State.fld_mark_sep : (s.mark f).fld g = s.fld g := State.fld_setFld_sep s h _

end

/-! ### Counters that go up under a condition -/

/-- The state with a saturating counter raised where `b` holds: the shape in which the model counts an error. -/
def State.countIf (s : State) (b : Bool) (f : Fld) : State := if b then s.bump f else s

section
variable (s : State) (b : Bool) (f : Fld)

theorem State.fld_countIf (h : f.lo + f.w ≤ 32) :
    (s.countIf b f).fld f = if b then min (2 ^ f.w - 1) (s.fld f + 1) else s.fld f := by
  cases b
  · rfl
  · exact State.fld_bump s f 1 h

theorem State.fld_countIf_sep {g : Fld} (h : f.sep g = true) : (s.countIf b f).fld g = s.fld g := by
  cases b
  · rfl
  · exact State.fld_bump_sep s h 1

theorem State.countIf_clock : (s.countIf b f).clock = s.clock := by cases b <;> rfl

theorem regsSame_countIf {s0 s : State} {l : List Nat} (b : Bool) (f : Fld) (h : regsSame s0 s l) (ha : f.addr ∈ l) :
    regsSame s0 (s.countIf b f) l := by
  cases b
  · exact h
  · exact regsSame_bump f 1 h ha

end

/-! ### The clock -/

/-- The state with another clock. -/
def State.withClock (s : State) (c : Clock) : State := { s with clock := c }

section
variable (s : State) (c : Clock)

@[simp] theorem State.withClock_clock : (s.withClock c).clock = c := rfl

@[simp] theorem State.fld_withClock (f : Fld) : (s.withClock c).fld f = s.fld f := rfl

theorem State.withClock_withClock (d : Clock) : (s.withClock c).withClock d = s.withClock d := rfl

theorem State.countIf_withClock (b : Bool) (f : Fld) : (s.withClock c).countIf b f = (s.countIf b f).withClock c := by cases b <;> rfl

theorem regsSame_withClock {s0 s : State} {l : List Nat} (c : Clock) (h : regsSame s0 s l) : regsSame s0 (s.withClock c) l := h

end

/-! ### A slot -/

/-- What the comma of a slot does to the clock (R50, R51). -/
def commaClock (c : Comma) (k : Clock) : Clock :=
  if c = .bad then { k with badCommas := k.badCommas + 1, goodCommas := 0 } else { k with badCommas := 0, goodCommas := k.goodCommas + 1 }

theorem commaClock_badCommas (c : Comma) (k : Clock) : (commaClock c k).badCommas = if c = .bad then k.badCommas + 1 else 0 := by
  unfold commaClock
  split <;> rfl

/-- The slot's number or comma disagrees with the device's count where R38 has them compared (R41: not at the K28.1 that loads). -/
def slotDisagrees (c : Comma) (chars : BitVec 56) (s : State) : Bool :=
  decide (c ≠ .bad) && !slotAgrees c chars s && !(s.clock.resync.isSome && decide (c = .k281))

/-- The slot carries no command: it fails its parity or its code, or its code is reserved (R39, R40). -/
def slotRefused (c : Comma) (chars : BitVec 56) (violation : Bool) : Bool :=
  !(parityOk chars && !violation) || (decide (c ≠ .bad) && decide (6 < bits chars.toNat 0 8))

/-- EMPTY of a slot (R36). -/
def slotEmpty (c : Comma) (chars : BitVec 56) (violation : Bool) : Bool :=
  decide (c ≠ .bad) && (parityOk chars && !violation) && chars.getLsbD 20

/-- The state after a slot: up to three counters of TIM_ERR, and the clock. -/
def slotTaken (c : Comma) (chars : BitVec 56) (violation : Bool) (s : State) : State :=
  ((((s.countIf (decide (c = .bad)) fCommaErr).countIf (slotDisagrees c chars s) fNumErr).withClock
    { commaClock c s.clock with empty := slotEmpty c chars violation }).countIf (slotRefused c chars violation) fCmdErr)

theorem slotComma_eq (c : Comma) (s : State) :
    slotComma c s = (s.countIf (decide (c = .bad)) fCommaErr).withClock (commaClock c s.clock) := by
  by_cases h : c = .bad
  · rw [slotComma, commaClock, if_pos h, if_pos h, decide_eq_true h]
    rfl
  · rw [slotComma, commaClock, if_neg h, if_neg h, decide_eq_false h]
    rfl

theorem execTimingSlot_eq (c : Comma) (chars : BitVec 56) (violation : Bool) (s : State) :
    execTimingSlot c chars violation s =
      if !s.runs then .next s
      else
        let s2 := (slotComma c s).countIf (slotDisagrees c chars s) fNumErr
        .next ((s2.withClock { s2.clock with empty := slotEmpty c chars violation }).countIf (slotRefused c chars violation) fCmdErr) := rfl

theorem execTimingSlot_of_runs {s : State} (hr : s.runs = true) (c : Comma) (chars : BitVec 56) (violation : Bool) :
    execTimingSlot c chars violation s = .next (slotTaken c chars violation s) := by
  rw [execTimingSlot_eq, hr, slotComma_eq]
  simp only [Bool.not_true, Bool.false_eq_true, if_false, State.withClock_clock, State.countIf_withClock,
    State.withClock_withClock, slotTaken]

section
variable (c : Comma) (chars : BitVec 56) (violation : Bool) (s : State)

theorem slotTaken_clock : (slotTaken c chars violation s).clock = { commaClock c s.clock with empty := slotEmpty c chars violation } := by
  rw [slotTaken, State.countIf_clock, State.withClock_clock]

theorem slotTaken_frame : { slotTaken c chars violation s with regs := s.regs, clock := s.clock } = s := by
  unfold slotTaken
  cases slotRefused c chars violation <;> cases slotDisagrees c chars s <;> cases decide (c = Comma.bad) <;> rfl

theorem slotTaken_regs : regsSame s (slotTaken c chars violation s) [0x2001C] :=
  regsSame_countIf _ _ (regsSame_withClock _ (regsSame_countIf _ _ (regsSame_countIf _ _ (regsSame.refl s _) (.head _)) (.head _))) (.head _)

theorem slotTaken_commaErr :
    (slotTaken c chars violation s).fld fCommaErr = if c = .bad then min 255 (s.fld fCommaErr + 1) else s.fld fCommaErr := by
  rw [slotTaken, State.fld_countIf_sep _ _ _ (by decide), State.fld_withClock,
    State.fld_countIf_sep _ _ _ (by decide), State.fld_countIf _ _ _ (by decide)]
  simp [fCommaErr]

theorem slotTaken_numErr :
    (slotTaken c chars violation s).fld fNumErr = if slotDisagrees c chars s then min 255 (s.fld fNumErr + 1) else s.fld fNumErr := by
  rw [slotTaken, State.fld_countIf_sep _ _ _ (by decide), State.fld_withClock, State.fld_countIf _ _ _ (by decide),
    State.fld_countIf_sep _ _ _ (by decide)]
  rfl

theorem slotTaken_cmdErr :
    (slotTaken c chars violation s).fld fCmdErr = if slotRefused c chars violation then min 255 (s.fld fCmdErr + 1) else s.fld fCmdErr := by
  rw [slotTaken, State.fld_countIf _ _ _ (by decide), State.fld_withClock, State.fld_countIf_sep _ _ _ (by decide),
    State.fld_countIf_sep _ _ _ (by decide)]
  rfl

theorem slotTaken_lossCnt : (slotTaken c chars violation s).fld fLossCnt = s.fld fLossCnt := by
  rw [slotTaken, State.fld_countIf_sep _ _ _ (by decide), State.fld_withClock,
    State.fld_countIf_sep _ _ _ (by decide), State.fld_countIf_sep _ _ _ (by decide)]

end

theorem slotAgrees_iff (c : Comma) (chars : BitVec 56) (s : State) :
    slotAgrees c chars s = true ↔ bits chars.toNat 8 12 = s.fld fCurrent ∧ (c = .k281 ↔ s.fld fCurrent = 0) := by
  simp [slotAgrees]

theorem slotDisagrees_iff (c : Comma) (chars : BitVec 56) (s : State) :
    slotDisagrees c chars s = true ↔ c ≠ .bad ∧ ¬ (s.clock.resync.isSome = true ∧ c = .k281) ∧
      ¬ (bits chars.toNat 8 12 = s.fld fCurrent ∧ (c = .k281 ↔ s.fld fCurrent = 0)) := by
  rw [← slotAgrees_iff]
  simp only [slotDisagrees, Bool.and_eq_true, Bool.not_eq_true', Bool.and_eq_false_iff, decide_eq_true_eq, decide_eq_false_iff_not]
  cases slotAgrees c chars s <;> cases s.clock.resync.isSome <;> simp

theorem slotRefused_iff (c : Comma) (chars : BitVec 56) (violation : Bool) :
    slotRefused c chars violation = true ↔
      parityOk chars = false ∨ violation = true ∨ (c ≠ .bad ∧ 6 < bits chars.toNat 0 8) := by
  simp only [slotRefused, Bool.or_eq_true, Bool.and_eq_true, decide_eq_true_eq, Bool.not_and, Bool.not_not, Bool.not_eq_true', or_assoc]

/-- Settles O6: a slot leaves `slotTaken`, whose parts are read off one by one. -/
theorem timingSlotChecks : Obligations.TimingSlotChecks := by
  intro c chars violation s hr
  refine ⟨slotTaken c chars violation s, execTimingSlot_of_runs hr c chars violation, ?_, ?_, ?_, ?_, ?_,
    slotTaken_lossCnt c chars violation s, slotTaken_regs c chars violation s, slotTaken_frame c chars violation s⟩
  · intro h
    rw [slotTaken_clock, slotTaken_commaErr, commaClock, if_pos h, if_pos h]
    exact ⟨rfl, rfl, rfl⟩
  · intro h
    rw [slotTaken_clock, slotTaken_commaErr, commaClock, if_neg h, if_neg h]
    exact ⟨rfl, rfl, rfl⟩
  · simp only [slotTaken_numErr, slotDisagrees_iff]
  · simp only [slotTaken_cmdErr, slotRefused_iff]
  · rw [slotTaken_clock]
    simp only [slotEmpty, Bool.and_assoc]

end Sys2Proof.Machine

/-!
The pending table (02 R39 to R42): which commands enter it, what a discarded one leaves, and which one is due at its crossing.
-/
namespace Sys2Proof.Machine

/-! ### A command discarded and counted -/

theorem fld_bump_cmdErr (s : State) : (s.bump fCmdErr).fld fCmdErr = min 255 (s.fld fCmdErr + 1) := State.fld_bump s fCmdErr 1 (by decide)

theorem regsSame_bump_cmdErr (s : State) : regsSame s (s.bump fCmdErr) [0x2001C] := regsSame_bump fCmdErr 1 (regsSame.refl s _) (.head _)

/-! ### Commands that arrive -/

theorem accepts_iff (s : State) (code : PendCode) (ref : BitVec 24) (a3 : Nat) :
    accepts s code ref a3 = true ↔ s.runs = true ∧ bits ref.toNat 0 12 < s.fld fTurnLen ∧ 2 ≤ refDistance s ref ∧
      refDistance s ref < 2048 * s.fld fTurnLen ∧ (code = .frost → a3 < s.n) ∧ (code = .menuSelect → a3 < 16) ∧ s.pendTable.length < 16 ∧
      ∀ e ∈ s.pendTable, e.code = code → e.x ≠ s.clock.xseq + refDistance s ref := by
  simp only [accepts, Bool.and_eq_true, Bool.or_eq_true, decide_eq_true_eq, List.all_eq_true, Bool.not_eq_true', Bool.and_eq_false_imp,
    decide_eq_false_iff_not, and_assoc, imp_iff_not_or]

theorem schedule_of_accepts {s : State} {code : PendCode} {ref : BitVec 24} {a3 : Nat} (h : accepts s code ref a3 = true) (host : Bool)
    (disarm : Option Nat) :
    schedule s code ref a3 host disarm =
      { s with pendTable := s.pendTable ++ [⟨code, s.clock.xseq + refDistance s ref, a3, host, disarm⟩] } := if_pos h

theorem schedule_of_refused {s : State} {code : PendCode} {ref : BitVec 24} {a3 : Nat} (h : ¬ accepts s code ref a3 = true) (host : Bool)
    (disarm : Option Nat) : schedule s code ref a3 host disarm = s.bump fCmdErr := if_neg h

/-- The five scheduled commands of the timing lane differ in their code alone. -/
theorem exec_of_scheduled {ref : BitVec 24} {a3 : Byte} {s : State} {c : Instr} {code : PendCode} (hr : s.runs = true)
    (hc : (c, code) ∈ [(Instr.runStart ref a3, PendCode.runStart), (.runStop ref a3, .runStop), (.testPulse ref a3, .testPulse),
      (.menuSelect ref a3, .menuSelect), (.frost ref a3, .frost)]) :
    exec c s = .next (schedule s code ref a3.toNat false none) := by
  have hlane : laneCommand code ref a3 s = schedule s code ref a3.toNat false none := if_pos hr
  rw [← hlane]
  simp only [List.mem_cons, Prod.mk.injEq, List.not_mem_nil, or_false] at hc
  rcases hc with ⟨rfl, rfl⟩ | ⟨rfl, rfl⟩ | ⟨rfl, rfl⟩ | ⟨rfl, rfl⟩ | ⟨rfl, rfl⟩ <;> rfl

/-- Settles O7: the conditions are those of `accepts`, one by one. -/
theorem scheduledCommandsEnterTable : Obligations.ScheduledCommandsEnterTable := by
  refine ⟨fun _ => rfl, ?accepted, ?discarded⟩
  case accepted =>
    rintro ref a3 s c code _ hr rfl hc hnum h2 hfar hroom hmenu hfrost hnone
    rw [exec_of_scheduled hr hc, schedule_of_accepts ((accepts_iff s code ref a3.toNat).mpr ⟨hr, hnum, h2, hfar, hfrost, hmenu, hroom, hnone⟩)]
  case discarded =>
    intro ref a3 s c code hr hc hbad
    have hrefused : ¬ accepts s code ref a3.toNat = true := by
      intro ha
      obtain ⟨-, -, h2, hfar, hfrost, hmenu, hroom, hnone⟩ := (accepts_iff s code ref a3.toNat).mp ha
      rcases hbad with h | h | h | ⟨hf, h⟩ | ⟨hm, h⟩ | ⟨e, he, hcode, hx⟩
      · omega
      · omega
      · omega
      · have := hfrost hf
        omega
      · have := hmenu hm
        omega
      · exact hnone e he hcode hx
    refine ⟨s.bump fCmdErr, ?_, fld_bump_cmdErr s, State.fld_bump_sep s (by decide) 1, regsSame_bump_cmdErr s, rfl⟩
    rw [exec_of_scheduled hr hc, schedule_of_refused hrefused]

/-! ### RESYNC (R41) -/

theorem execResync_of_idle {s : State} (hr : s.runs = true) (hs : s.run.started = false) (turn : Word32) :
    execResync turn s = .next { s with clock := { s.clock with resync := some turn } } := by
  simp only [execResync, hr, hs, Bool.not_true, Bool.false_eq_true, if_false]

theorem execResync_of_started {s : State} (hr : s.runs = true) (hs : s.run.started = true) (turn : Word32) :
    execResync turn s = .next (s.bump fCmdErr) := by
  simp only [execResync, hr, hs, Bool.not_true, Bool.false_eq_true, if_false, if_true]

/-- What RESYNC_LOAD leaves: the count at its start, the turn given, and an empty table. -/
def resyncLoaded (turn : Word32) (s : State) : State :=
  { (s.setFld fCurrent 0).setFld fTurn turn.toNat with pendTable := [], clock := { s.clock with resync := none } }

theorem execResyncLoad_of_held {s : State} {turn : Word32} (h : s.clock.resync = some turn) :
    execResyncLoad s = .next (resyncLoaded turn s) := by
  simp only [execResyncLoad, h]
  rfl

theorem resyncLoaded_fld (turn : Word32) (s : State) (f : Fld) :
    (resyncLoaded turn s).fld f = ((s.setFld fCurrent 0).setFld fTurn turn.toNat).fld f := rfl

/-- Settles O8: a turn that is held is loaded, and one that arrives in a run is counted. -/
theorem resyncLoadsTheTurn : Obligations.ResyncLoadsTheTurn := by
  refine ⟨fun turn s hr hs => execResync_of_idle hr hs turn, ?started, ?load⟩
  case started =>
    exact fun turn s hr hs => ⟨_, execResync_of_started hr hs turn, fld_bump_cmdErr s, rfl, regsSame_bump_cmdErr s⟩
  case load =>
    intro turn s h
    refine ⟨resyncLoaded turn s, execResyncLoad_of_held h, ?_, ?_, rfl, rfl, ?_, ?_, rfl⟩
    · rw [resyncLoaded_fld, State.fld_setFld_sep _ (by decide), State.fld_setFld _ _ _ (by decide), Nat.zero_mod]
    · rw [resyncLoaded_fld, State.fld_setFld _ _ _ (by decide)]
      exact Nat.mod_eq_of_lt turn.isLt
    · rw [resyncLoaded_fld, State.fld_setFld_sep _ (by decide), State.fld_setFld_sep _ (by decide)]
    · have hregs := regsSame_setFld fTurn turn.toNat (regsSame_setFld fCurrent 0 (regsSame.refl s [0x2000C, 0x20010]) (.head _)) (.tail _ (.head _))
      exact hregs.trans (regsSame.of_parts _ rfl rfl rfl)

/-! ### The command due at its crossing -/

theorem dueCmd_eq_none {s : State} {code : PendCode} (h : ∀ e ∈ s.pendTable, e.code = code → e.x ≠ s.clock.xseq) : dueCmd s code = none := by
  have hfind : s.pendTable.find? (fun e => decide (e.code = code) && decide (e.x = s.clock.xseq)) = none := by
    simpa [List.find?_eq_none] using h
  rw [dueCmd, hfind, ite_self]

/-- A command that applies earlier and is pending for this crossing comes first (R42). -/
theorem dueCmd_eq_none_of_earlier {s : State} {e : PendCmd} {code : PendCode} (he : e ∈ s.pendTable) (hx : e.x = s.clock.xseq)
    (hrank : codeRank e.code < codeRank code) : dueCmd s code = none := by
  refine if_pos (List.any_eq_true.mpr ⟨e, he, ?_⟩)
  simp only [hx, hrank, decide_true, Bool.and_self]

theorem mem_dropCmd {s : State} {code : PendCode} {e : PendCmd} :
    e ∈ (dropCmd s code).pendTable ↔ e ∈ s.pendTable ∧ (e.code = code → e.x ≠ s.clock.xseq) := by
  simp [dropCmd, imp_iff_not_or]

/-- No command of the code names this crossing once it has been taken. -/
theorem dueCmd_eq_none_of_dropped {s t : State} {code : PendCode} (hx : t.clock.xseq = s.clock.xseq)
    (hp : ∀ e ∈ t.pendTable, e ∈ (dropCmd s code).pendTable) : dueCmd t code = none := by
  refine dueCmd_eq_none (fun e he hcode => ?_)
  rw [hx]
  exact (mem_dropCmd.mp (hp e he)).2 hcode

section
variable {s : State}

theorem execRunStopEffect_of_none (h : dueCmd s .runStop = none) : execRunStopEffect s = .next s := by simp only [execRunStopEffect, h]

theorem execRunStartEffect_of_none (h : dueCmd s .runStart = none) : execRunStartEffect s = .next s := by simp only [execRunStartEffect, h]

theorem execMenuSelectEffect_of_none (h : dueCmd s .menuSelect = none) : execMenuSelectEffect s = .next s := by
  simp only [execMenuSelectEffect, h]

theorem execTestPulseEffect_of_none (h : dueCmd s .testPulse = none) : execTestPulseEffect s = .next s := by
  simp only [execTestPulseEffect, h]

end

/-! ### MENU_SELECT at its crossing (R45) -/

/-- What a menu that comes in force leaves. -/
def menuTaken (e : PendCmd) (s : State) : State :=
  { dropCmd s .menuSelect with
    clock := { s.clock with menus := e.a3 :: s.clock.menus.drop 1 }
    stage := { s.stage with inForce := if e.host then e.a3 else s.stage.inForce } }

theorem execMenuSelectEffect_of_due {s : State} {e : PendCmd} (h : dueCmd s .menuSelect = some e) :
    execMenuSelectEffect s = .next (if menuEnabled s e.a3 then menuTaken e s else (dropCmd s .menuSelect).bump fCmdErr) := by
  have hmenu : menuEnabled (dropCmd s .menuSelect) e.a3 = menuEnabled s e.a3 := rfl
  simp only [execMenuSelectEffect, h, hmenu]
  cases menuEnabled s e.a3 <;> rfl

theorem menuEnabled_of_image {s : State} {im : Image} (h : s.image = some im) (m : Nat) : menuEnabled s m = im.menus.getLsbD m := by
  simp only [menuEnabled, h]

theorem menuEnabled_eq_false {s : State} {m : Nat} (h : ∀ im, s.image = some im → im.menus.getLsbD m = false) : menuEnabled s m = false := by
  cases hi : s.image with
  | none => simp only [menuEnabled, hi]
  | some im => rw [menuEnabled_of_image hi, h im hi]

/-- Settles O10: a menu above 15 is no menu, one that the image enables comes in force, and every other one is counted. -/
theorem menuSelectTakesEffect : Obligations.MenuSelectTakesEffect := by
  refine ⟨?arrives, ?enabled, ?ignored⟩
  case arrives =>
    intro ref a3 s hr h16
    have hrefused : ¬ accepts s .menuSelect ref a3.toNat = true := by
      intro ha
      obtain ⟨-, -, -, -, -, hmenu, -⟩ := (accepts_iff s .menuSelect ref a3.toNat).mp ha
      have := hmenu rfl
      omega
    refine ⟨s.bump fCmdErr, ?_, fld_bump_cmdErr s, rfl, regsSame_bump_cmdErr s, rfl⟩
    rw [exec_of_scheduled (ref := ref) (a3 := a3) (code := .menuSelect) hr (by simp), schedule_of_refused hrefused]
  case enabled =>
    intro e im s h hi hm
    refine ⟨menuTaken e s, ?_, rfl, rfl, dueCmd_eq_none_of_dropped (s := s) rfl (fun _ he => he), rfl⟩
    show execMenuSelectEffect s = _
    rw [execMenuSelectEffect_of_due h, menuEnabled_of_image hi, hm, if_pos rfl]
  case ignored =>
    intro e s h hm
    refine ⟨(dropCmd s .menuSelect).bump fCmdErr, ?_, fld_bump_cmdErr (dropCmd s .menuSelect), rfl,
      regsSame_bump_cmdErr (dropCmd s .menuSelect), rfl⟩
    show execMenuSelectEffect s = _
    rw [execMenuSelectEffect_of_due h, menuEnabled_eq_false hm, if_neg Bool.false_ne_true]

/-! ### TEST_PULSE and EPOCH at their crossing, and the order of R42 -/

theorem execTestPulseEffect_of_due {s : State} {e : PendCmd} (h : dueCmd s .testPulse = some e) :
    execTestPulseEffect s = .next { dropCmd s .testPulse with clock := { s.clock with tpulse := true, tcode := BitVec.ofNat 8 e.a3 } } := by
  simp only [execTestPulseEffect, h, dropCmd]

theorem execEpochEffect_of_due {s : State} {e : PendCmd} (h : dueCmd s .epoch = some e) :
    execEpochEffect s = .next (if s.run.started then (dropCmd s .epoch).mark fEpochErr
      else (dropCmd s .epoch).setFld fSysEpoch (1 - s.fld fSysEpoch)) := by
  simp only [execEpochEffect, h]
  rfl

/-- Settles O11: each effect is read off its own equation, and what comes later in R42's order finds no command due. -/
theorem effectsApplyInOrder : Obligations.EffectsApplyInOrder := by
  refine ⟨?pulse, ?toggles, ?inRun, ?order⟩
  case pulse =>
    exact fun e s h => ⟨_, execTestPulseEffect_of_due h, rfl, dueCmd_eq_none_of_dropped (s := s) rfl (fun _ he => he), rfl⟩
  case toggles =>
    intro e s h hs
    refine ⟨(dropCmd s .epoch).setFld fSysEpoch (1 - s.fld fSysEpoch), ?_, ?_,
      regsSame_setFld fSysEpoch _ (regsSame.refl (dropCmd s .epoch) _) (.head _), rfl⟩
    · show execEpochEffect s = _
      rw [execEpochEffect_of_due h, hs, if_neg Bool.false_ne_true]
    · have : 1 - s.fld fSysEpoch < 2 ^ 1 := by omega
      rw [State.fld_setFld _ _ _ (by decide)]
      exact Nat.mod_eq_of_lt this
  case inRun =>
    intro e s h hs
    refine ⟨(dropCmd s .epoch).mark fEpochErr, ?_, State.is_mark _ _ (by decide) rfl,
      State.fld_mark_sep (dropCmd s .epoch) (by decide), regsSame_mark fEpochErr (regsSame.refl (dropCmd s .epoch) _) (.head _), rfl⟩
    show execEpochEffect s = _
    rw [execEpochEffect_of_due h, hs, if_pos rfl]
  case order =>
    intro s e he hx
    have first {a : PendCode} (code : PendCode) (ha : e.code = a) (hrank : codeRank a < codeRank code) : dueCmd s code = none :=
      dueCmd_eq_none_of_earlier he hx (ha ▸ hrank)
    exact ⟨fun h => execRunStopEffect_of_none (first .runStop h (by decide)), fun h => execRunStartEffect_of_none (first .runStart h (by decide)),
      fun h => execMenuSelectEffect_of_none (first .menuSelect h (by decide)),
      fun h => execTestPulseEffect_of_none (first .testPulse h (by decide)),
      fun h => ⟨execMenuSelectEffect_of_none (first .menuSelect h (by decide)),
        execTestPulseEffect_of_none (first .testPulse h (by decide))⟩⟩

end Sys2Proof.Machine

/-!
Loss of the timing lane and the steps of the locking sequence (02 R46, R50, R51).
-/
namespace Sys2Proof.Machine

/-! ### A step of the locking sequence is entered -/

section
variable (s : State) (st : Nat)

theorem enterStep_state (h : st < 16) : (enterStep s st).fld fState = st := by
  rw [enterStep, State.fld_setFld_sep _ (by decide), State.fld_setFld _ _ _ (by decide)]
  exact Nat.mod_eq_of_lt h

theorem enterStep_fld {g : Fld} (hs : fState.sep g = true) (hn : fNActive.sep g = true) : (enterStep s st).fld g = s.fld g := by
  rw [enterStep, State.fld_setFld_sep _ hn, State.fld_setFld_sep _ hs]

theorem enterStep_is {g : Fld} (hs : fState.sep g = true) (hn : fNActive.sep g = true) : (enterStep s st).is g = s.is g := by
  rw [State.is, State.is, enterStep_fld s st hs hn]

theorem regsSame_enterStep {s0 s : State} {l : List Nat} (st : Nat) (h : regsSame s0 s l) (hl : 0x20004 ∈ l) : regsSame s0 (enterStep s st) l :=
  regsSame_setFld fNActive _ (regsSame_setFld fState st h hl) hl

end

/-! ### HOLDOVER begins (R50) -/

/-- LOSS is set and counted. -/
def lossCounted (s : State) : State := (s.mark fLoss).bump fLossCnt

/-- What the loss of the lane leaves. -/
def laneLost (s : State) : State :=
  let s1 := restartMeasures (enterStep (lossCounted s) 8)
  { s1 with clock := { s.clock with goodCommas := 0, holdStart := s.clock.xseq } }

theorem execTimingLaneLoss_of_lost {s : State} (h7 : s.fld fState = 7) (h3 : 3 ≤ s.clock.badCommas) :
    execTimingLaneLoss s = .next (laneLost s) := by
  have hc : (decide (s.fld fState = 7) && decide (3 ≤ s.clock.badCommas)) = true := by simp only [h7, h3, decide_true, Bool.and_self]
  exact if_pos hc

theorem laneLost_fld (s : State) (f : Fld) : (laneLost s).fld f = (enterStep (lossCounted s) 8).fld f := rfl

theorem laneLost_is (s : State) (f : Fld) : (laneLost s).is f = (enterStep (lossCounted s) 8).is f := rfl

theorem laneLost_regs (s : State) : regsSame s (laneLost s) [0x20004, 0x2001C] := by
  have hloss := regsSame_mark fLoss (regsSame.refl s [0x20004, 0x2001C]) (.head _)
  have hcount := regsSame_bump fLossCnt 1 hloss (.tail _ (.head _))
  exact (regsSame_enterStep 8 hcount (.head _)).trans (regsSame.of_parts _ rfl rfl rfl)

/-- Settles O13: a slot's clock is `commaClock`, and the third bad comma leaves `laneLost`. -/
theorem lossBeginsHoldover : Obligations.LossBeginsHoldover := by
  refine ⟨?slot, ?loss⟩
  case slot =>
    intro c chars violation s hr
    refine ⟨slotTaken c chars violation s, execTimingSlot_of_runs hr c chars violation, ?_⟩
    rw [slotTaken_clock]
    exact commaClock_badCommas c s.clock
  case loss =>
    intro s h7 h3
    refine ⟨laneLost s, execTimingLaneLoss_of_lost h7 h3, ?_, ?_, ?_, rfl, laneLost_regs s, rfl, rfl, rfl, rfl, rfl, rfl⟩
    · rw [laneLost_fld, enterStep_state _ _ (by decide)]
    · rw [laneLost_is, enterStep_is _ _ (by decide) (by decide), State.is, lossCounted, State.fld_bump_sep _ (by decide), ← State.is,
        State.is_mark _ _ (by decide) rfl]
    · rw [laneLost_fld, enterStep_fld _ _ (by decide) (by decide), lossCounted, State.fld_bump _ _ _ (by decide),
        State.fld_mark_sep _ (by decide)]
      rfl

end Sys2Proof.Machine

/-!
The lines of an intake frame read back as the frame that they were made of (11 R279, R280).
-/
namespace Sys2Proof.Machine

/-! ### Little-endian numbers -/

theorem leNat_lt (l : List Byte) : leNat l < 256 ^ l.length := by
  induction l with
  | nil => exact Nat.one_pos
  | cons b r ih =>
    have hb : b.toNat < 256 := b.isLt
    rw [leNat, List.length_cons, Nat.pow_succ]
    omega

@[simp] theorem length_leBytes (n v : Nat) : (leBytes n v).length = n := by
  induction n generalizing v with
  | zero => rfl
  | succ n ih => rw [leBytes, List.length_cons, ih]

/-- Bytes read back, with zeros behind them. -/
theorem leBytes_leNat (l : List Byte) (n : Nat) (h : l.length ≤ n) : leBytes n (leNat l) = l ++ List.replicate (n - l.length) 0 := by
  induction n generalizing l with
  | zero => rw [List.eq_nil_of_length_eq_zero (Nat.le_zero.mp h)]; rfl
  | succ n ih =>
    cases l with
    | nil =>
      have := ih [] (Nat.zero_le n)
      rw [leNat] at this ⊢
      rw [leBytes, Nat.zero_div, this]
      rfl
    | cons b r =>
      have hb : b.toNat < 256 := b.isLt
      have hhead : BitVec.ofNat 8 (b.toNat + 256 * leNat r) = b := by
        apply BitVec.eq_of_toNat_eq
        rw [BitVec.toNat_ofNat]
        omega
      have htail : (b.toNat + 256 * leNat r) / 256 = leNat r := by omega
      rw [leNat, leBytes, hhead, htail, ih r (Nat.le_of_succ_le_succ h), List.length_cons, Nat.add_sub_add_right]
      rfl

theorem leNat_leBytes (n v : Nat) (h : v < 256 ^ n) : leNat (leBytes n v) = v := by
  induction n generalizing v with
  | zero =>
    rw [Nat.pow_zero] at h
    rw [leBytes, leNat]
    omega
  | succ n ih =>
    rw [Nat.pow_succ] at h
    rw [leBytes, leNat, ih (v / 256) (by omega), BitVec.toNat_ofNat]
    omega

/-! ### Data blocks and characters -/

theorem allSome_map_some {α : Type} (l : List α) : allSome (l.map some) = some l := by
  induction l with
  | nil => rfl
  | cons a r ih => simp only [List.map_cons, allSome, ih]

/-- The payloads of the data blocks that carry these bytes. -/
def blockWords : Nat → List Byte → List Word64
  | 0, _ => []
  | n + 1, l => BitVec.ofNat 64 (leNat (l.take 8)) :: blockWords n (l.drop 8)

theorem dataBlocks_eq (n : Nat) (l : List Byte) : dataBlocks n l = (blockWords n l).map (.block false) := by
  induction n generalizing l with
  | zero => rfl
  | succ n ih => rw [dataBlocks, blockWords, ih, List.map_cons]

@[simp] theorem length_blockWords (n : Nat) (l : List Byte) : (blockWords n l).length = n := by
  induction n generalizing l with
  | zero => rfl
  | succ n ih => rw [blockWords, List.length_cons, ih]

theorem allSome_dataWord (ws : List Word64) : allSome ((ws.map (Line.block false)).map dataWord) = some ws := by
  rw [List.map_map]
  exact allSome_map_some ws

theorem allSome_dataChar (bs : List Byte) : allSome ((bs.map (Line.char false)).map dataChar) = some bs := by
  rw [List.map_map]
  exact allSome_map_some bs

/-- One data block gives its eight bytes, or those it has and zeros. -/
theorem blockWord_bytes (l : List Byte) (h : l.length ≤ 8) :
    leBytes 8 (BitVec.ofNat 64 (leNat l)).toNat = l ++ List.replicate (8 - l.length) 0 := by
  have hlt : leNat l < 2 ^ 64 := lt_of_lt_of_le (leNat_lt l) (Nat.pow_le_pow_right (by decide : 0 < 256) h)
  rw [BitVec.toNat_ofNat, Nat.mod_eq_of_lt hlt, leBytes_leNat l 8 h]

/-- Enough data blocks give the bytes back. -/
theorem blockWords_bytes (n : Nat) (l : List Byte) (h : l.length ≤ 8 * n) :
    ((blockWords n l).flatMap (fun w => leBytes 8 w.toNat)).take l.length = l := by
  induction n generalizing l with
  | zero => rw [List.eq_nil_of_length_eq_zero (Nat.le_zero.mp h)]; rfl
  | succ n ih =>
    have htake : (l.take 8).length ≤ 8 := List.length_take_le 8 l
    rw [blockWords, List.flatMap_cons, blockWord_bytes _ htake]
    by_cases hl : l.length ≤ 8
    · rw [List.take_of_length_le hl, List.append_assoc, List.take_left]
    · have h8 : (l.take 8).length = 8 := by rw [List.length_take]; omega
      have hdrop : (l.drop 8).length = l.length - 8 := List.length_drop
      have hrest := ih (l.drop 8) (by omega)
      rw [h8, Nat.sub_self, List.replicate_zero, List.append_nil, List.take_append, h8, List.take_of_length_le (by omega), ← hdrop, hrest,
        List.take_append_drop]

/-! ### The end of a frame -/

/-- The TERMINATE block of an intake frame. -/
theorem terminate_word (crc : Word32) :
    (BitVec.ofNat 64 (0xE1 + 2 ^ 8 * (0 % 4) + 2 ^ 10 * (0 % 8) + 2 ^ 16 * crc.toNat)).toNat = 0xE1 + 2 ^ 16 * crc.toNat := by
  have hc : crc.toNat < 2 ^ 32 := crc.isLt
  rw [BitVec.toNat_ofNat]
  omega

theorem terminate_kind (crc : Word32) : bits (0xE1 + 2 ^ 16 * crc.toNat) 0 8 = 0xE1 := by
  unfold bits
  omega

theorem terminate_crc (crc : Word32) : BitVec.ofNat 32 (bits (0xE1 + 2 ^ 16 * crc.toNat) 16 32) = crc := by
  have hc : crc.toNat < 2 ^ 32 := crc.isLt
  have hb : bits (0xE1 + 2 ^ 16 * crc.toNat) 16 32 = crc.toNat := by
    unfold bits
    omega
  rw [hb, BitVec.ofNat_toNat, BitVec.setWidth_eq]

/-! ### Whole frames -/

theorem blockFrame_of_lines (payload : List Byte) (crc : Word32) :
    blockFrame payload.length (dataBlocks ((payload.length + 7) / 8) payload ++ [terminate 0 0 crc]) = some (payload, crc) := by
  have hlen : ((blockWords ((payload.length + 7) / 8) payload).map (Line.block false)).length = (payload.length + 7) / 8 := by simp
  rw [blockFrame, dataBlocks_eq, List.take_left' hlen, List.drop_left' hlen, allSome_dataWord, terminate]
  simp only [terminate_word, terminate_kind, terminate_crc, if_true]
  rw [blockWords_bytes _ _ (by omega)]

theorem charFrame_of_lines (payload : List Byte) (crc : Word32) :
    charFrame payload.length (payload.map (Line.char false) ++ (leBytes 4 crc.toNat).map (.char false) ++ [.char true 0xFD]) = some (payload, crc) := by
  have hlen : ((payload ++ leBytes 4 crc.toNat).map (Line.char false)).length = payload.length + 4 := by simp
  rw [charFrame, ← List.map_append, List.take_left' hlen, List.drop_left' hlen, allSome_dataChar]
  simp only [if_true, List.take_left, List.drop_left]
  rw [leNat_leBytes 4 crc.toNat crc.isLt, BitVec.ofNat_toNat, BitVec.setWidth_eq]

/-- A frame laid out as R279 or R280 say is read as the payload and CRC-32 it was made of. -/
theorem frameOf_intakeLines (coding : Bool) (payload : List Byte) (h1 : 1 ≤ payload.length) (h192 : payload.length ≤ 192) :
    frameOf coding (payload.length - 1) (intakeLines coding payload) = some (payload, crc32 payload) := by
  rw [frameOf, if_neg (by omega), Nat.sub_add_cancel h1]
  cases coding with
  | true => exact blockFrame_of_lines payload (crc32 payload)
  | false => exact charFrame_of_lines payload (crc32 payload)

/-- The FRAME_START block gives its three fields back. -/
theorem startFields_frameStart {num seq bytesM1 : Nat} (hn : num < 4096) (hs : seq < 256) (hb : bytesM1 < 256) :
    startFields true [frameStart num seq bytesM1] = some (num, seq, bytesM1) := by
  have hword : (BitVec.ofNat 64 (0x33 + 2 ^ 8 * num + 2 ^ 20 * seq + 2 ^ 28 * bytesM1)).toNat = 0x33 + 2 ^ 8 * num + 2 ^ 20 * seq + 2 ^ 28 * bytesM1 := by
    rw [BitVec.toNat_ofNat]
    omega
  have hkind : bits (0x33 + 2 ^ 8 * num + 2 ^ 20 * seq + 2 ^ 28 * bytesM1) 0 8 = 0x33 := by unfold bits; omega
  have hnum : bits (0x33 + 2 ^ 8 * num + 2 ^ 20 * seq + 2 ^ 28 * bytesM1) 8 12 = num := by unfold bits; omega
  have hseq : bits (0x33 + 2 ^ 8 * num + 2 ^ 20 * seq + 2 ^ 28 * bytesM1) 20 8 = seq := by unfold bits; omega
  have hbytes : bits (0x33 + 2 ^ 8 * num + 2 ^ 20 * seq + 2 ^ 28 * bytesM1) 28 8 = bytesM1 := by unfold bits; omega
  simp only [frameStart, startFields, hword, hkind, hnum, hseq, hbytes, if_true]

end Sys2Proof.Machine

/-!
Intake frames (02 R54 to R58, 11 R281): what a start and an arrival leave of the waystation lane and of the counters.
-/
namespace Sys2Proof.Machine

/-! ### Intake lanes -/

theorem State.sitesOf_nodup (s : State) (kind : Nat) : (s.sitesOf kind).Nodup := List.nodup_range.filter _

theorem State.mem_sitesOf {s : State} {kind site : Nat} (h : site ∈ s.sitesOf kind) : site < 16 ∧ s.tile site = kind := by
  simpa [State.sitesOf] using h

/-- An intake lane is lane n mod 48 of the (n div 48)th intake tile. -/
theorem intakeLane_eq_some {s : State} {n site lane : Nat} (h : intakeLane s n = some (site, lane)) :
    (s.sitesOf 0)[n / 48]? = some site ∧ lane = n % 48 := by
  obtain ⟨x, hx, hp⟩ := Option.map_eq_some_iff.mp h
  cases hp
  exact ⟨hx, rfl⟩

/-- The lane's number is the one it has in the package (02 R53). -/
theorem intakeNumber_of_intakeLane {s : State} {n site lane : Nat} (h : intakeLane s n = some (site, lane)) : intakeNumber s site lane = n := by
  obtain ⟨hsite, rfl⟩ := intakeLane_eq_some h
  obtain ⟨hlt, rfl⟩ := List.getElem?_eq_some_iff.mp hsite
  rw [intakeNumber, (s.sitesOf_nodup 0).idxOf_getElem]
  omega

theorem breakFrame_of_none {s : State} {n site lane : Nat} (h : intakeLane s n = some (site, lane)) (hn : (s.wayLane n).incoming = none) :
    breakFrame s site lane = s := by
  rw [breakFrame, intakeNumber_of_intakeLane h]
  simp [hn]

theorem takesFrames_eq_true {s : State} {site lane : Nat} (h2 : laneState s site lane false = 2) (hl : (s.lane site lane false).lost = false)
    (hr : s.runs = true) : takesFrames s site lane = true := by
  simp only [takesFrames, h2, hl, hr, decide_true, Bool.not_false, Bool.and_self]

theorem takesFrames_of_stopped {s : State} (site lane : Nat) (hr : s.runs = false) : takesFrames s site lane = false := by
  simp only [takesFrames, hr, Bool.and_false]

/-! ### A frame begins (R57, R58) -/

section
variable (s : State) (n num seq bytesM1 : Nat)

theorem beginFrame_wayLane :
    (beginFrame s n num seq bytesM1).wayLane n = { s.wayLane n with incoming := some ⟨num, seq, bytesM1, classify s n num⟩ } := by
  unfold beginFrame
  cases classify s n num <;> exact State.setWay_wayLane s n _

theorem beginFrame_frame : { beginFrame s n num seq bytesM1 with regs := s.regs, way := s.way } = s := by
  unfold beginFrame
  cases classify s n num <;> rfl

/-- The counters of the lane that a class of R57 and R58 raises. -/
theorem beginFrame_regs : regsSame s (beginFrame s n num seq bytesM1) [wayBase n + 8, wayBase n + 0xC] := by
  have hset (v : WayLane) : regsSame s (s.setWay n v) [wayBase n + 8, wayBase n + 0xC] := regsSame.of_parts _ rfl rfl rfl
  unfold beginFrame
  cases classify s n num with
  | misnumbered => exact regsSame_bump _ _ (hset _) (.head _)
  | overrun => exact regsSame_mark _ (hset _) (.tail _ (.head _))
  | _ => exact hset _

theorem beginFrame_late : (beginFrame s n num seq bytesM1).fld (fWayLate n) = s.fld (fWayLate n) := by
  have hcount : (fWayMisnum n).sep (fWayLate n) = true := by simp [Fld.sep, fWayMisnum, fWayLate]
  have hmark : (fWayOverrun n).sep (fWayLate n) = true := by simp [Fld.sep, fWayOverrun, fWayLate]
  unfold beginFrame
  cases classify s n num with
  | misnumbered => exact State.fld_bump_sep _ hcount 1
  | overrun => exact State.fld_mark_sep _ hmark
  | _ => rfl

variable {s n num}

theorem beginFrame_misnum (h : classify s n num = .misnumbered) :
    (beginFrame s n num seq bytesM1).fld (fWayMisnum n) = min 65535 (s.fld (fWayMisnum n) + 1) := by
  simp only [beginFrame, h]
  exact State.fld_bump (s.setWay n _) (fWayMisnum n) 1 (by simp [fWayMisnum])

theorem beginFrame_overrun (h : classify s n num = .overrun) : (beginFrame s n num seq bytesM1).is (fWayOverrun n) = true := by
  simp only [beginFrame, h]
  exact State.is_mark _ _ (by simp [fWayOverrun]) rfl

end

theorem execIntakeFrameStart_of_start {s : State} {n : IntakeLane} {head : Line} {number rest : List Line} {site lane num seq bytesM1 : Nat}
    (hn : intakeLane s n.val = some (site, lane)) (ht : takesFrames s site lane = true) (hi : (s.wayLane n.val).incoming = none)
    (hs : startFields (s.is (fRxCoding site lane)) (head :: (number ++ rest)) = some (num, seq, bytesM1)) :
    execIntakeFrameStart n head number rest s = .next (beginFrame s n.val num seq bytesM1) := by
  simp only [execIntakeFrameStart, hn, ht, hs, breakFrame_of_none hn hi, Bool.not_true, Bool.false_eq_true, if_false]

theorem execIntakeFrameStart_of_no_start {s : State} {n : IntakeLane} {head : Line} {number rest : List Line} {site lane : Nat}
    (hn : intakeLane s n.val = some (site, lane)) (ht : takesFrames s site lane = true) (hi : (s.wayLane n.val).incoming = none)
    (hs : startFields (s.is (fRxCoding site lane)) (head :: (number ++ rest)) = none) :
    execIntakeFrameStart n head number rest s = .next (s.countIf (beginsFrame head) (fFrameErr site lane)) := by
  simp only [execIntakeFrameStart, hn, ht, hs, breakFrame_of_none hn hi, Bool.not_true, Bool.false_eq_true, if_false]
  rfl

theorem execIntakeFrameStart_of_deaf {s : State} {n : IntakeLane} {head : Line} {number rest : List Line} {site lane : Nat}
    (hn : intakeLane s n.val = some (site, lane)) (ht : takesFrames s site lane = false) : execIntakeFrameStart n head number rest s = .next s := by
  simp only [execIntakeFrameStart, hn, ht, Bool.not_false, if_true]

/-! ### The class of a frame -/

/-- The distance from the next release to the frame's crossing number, round the turn (R57). -/
def frameDistance (s : State) (r num : Nat) : Nat := (num + s.fld fTurnLen - s.numOf r % s.fld fTurnLen) % s.fld fTurnLen

/-- A frame of crossing x is held in the lane. -/
def heldAt (w : WayLane) (x : Nat) : Bool := w.held.any (fun h => decide (h.xseq = x))

theorem heldAt_eq_true {w : WayLane} {x : Nat} (h : ∃ g ∈ w.held, g.xseq = x) : heldAt w x = true := by simpa [heldAt] using h

theorem heldAt_eq_false {w : WayLane} {x : Nat} (h : ∀ g ∈ w.held, g.xseq ≠ x) : heldAt w x = false := by simpa [heldAt] using h

/-- R58 takes no frame that the lane has no room for. -/
def roomed (c : FrameClass) (need : Nat) : FrameClass :=
  match c with
  | .accept x => if 64 < need then .overrun else .accept x
  | other => other

section
variable {s : State} {n r d num : Nat} {b : LaneBind} (hr : nextRelease s (s.wayLane n).next = some r) (hb : bindOf s n = some b)
  (hd : d = frameDistance s r num)
include hr hb hd

theorem classify_of_next :
    classify s n num = roomed (judge s.run.started d (s.fld fTurnLen) (heldAt (s.wayLane n) (r + d)) (r + d))
      (((s.wayLane n).held.length + 1) * frameBeatsF s) := by
  subst hd
  simp only [classify, hr, hb]
  rfl

theorem classify_near (h7 : d ≤ 7) (hh : ∀ g ∈ (s.wayLane n).held, g.xseq ≠ r + d) :
    classify s n num = if 64 < ((s.wayLane n).held.length + 1) * frameBeatsF s then .overrun else .accept (r + d) := by
  rw [classify_of_next hr hb hd, heldAt_eq_false hh, judge, if_pos (by simp [h7]), roomed]

theorem classify_idle (hfar : 8 ≤ d ∨ ∃ g ∈ (s.wayLane n).held, g.xseq = r + d) (hs : s.run.started = false) : classify s n num = .ignored := by
  rw [classify_of_next hr hb hd, judge, if_neg, hs]
  · rfl
  · rcases hfar with h | h
    · simp; omega
    · simp [heldAt_eq_true h]

theorem classify_twice (h7 : d ≤ 7) (hh : ∃ g ∈ (s.wayLane n).held, g.xseq = r + d) (hs : s.run.started = true) :
    classify s n num = .misnumbered := by
  have h8 : ¬ 8 ≤ d := by omega
  rw [classify_of_next hr hb hd, heldAt_eq_true hh, judge, hs]
  simp [h8, roomed]

theorem classify_far (h8 : 8 ≤ d) (hs : s.run.started = true) :
    classify s n num = if s.fld fTurnLen ≤ d + 64 then .late else .misnumbered := by
  have h7 : ¬ d ≤ 7 := by omega
  rw [classify_of_next hr hb hd, judge, hs]
  by_cases ht : s.fld fTurnLen ≤ d + 64 <;> simp [h7, h8, ht, roomed]

end

/-! ### A frame arrives (11 R281, R282) -/

/-- The lane with no frame arriving. -/
def frameEnded (s : State) (n : Nat) : State := s.setWay n { s.wayLane n with incoming := none }

@[simp] theorem frameEnded_wayLane (s : State) (n : Nat) : (frameEnded s n).wayLane n = { s.wayLane n with incoming := none } :=
  State.setWay_wayLane s n _

section
variable {s : State} {n : IntakeLane} {data sum : List Line} {close : Line} {a site lane : Nat} {i : Incoming}
  (hn : intakeLane s n.val = some (site, lane)) (hi : (s.wayLane n.val).incoming = some i) (ht : takesFrames s site lane = true)
include hn hi ht

theorem execIntakeFrameArrival_of_no_format
    (hf : frameOf (s.is (fRxCoding site lane)) i.bytesM1 (data ++ (sum ++ [close])) = none) :
    execIntakeFrameArrival n data sum close a s = .next ((frameEnded s n.val).bump (fFrameErr site lane)) := by
  simp only [execIntakeFrameArrival, hn, hi, ht, hf, Bool.not_true, Bool.false_eq_true, if_false]
  rfl

variable {payload : List Byte} {crc : Word32}
  (hf : frameOf (s.is (fRxCoding site lane)) i.bytesM1 (data ++ (sum ++ [close])) = some (payload, crc))
include hf

theorem execIntakeFrameArrival_of_long (h0 : 0 < frameBeatsF s) (hlong : 24 * frameBeatsF s < payload.length) :
    execIntakeFrameArrival n data sum close a s = .next ((frameEnded s n.val).bump (fFrameErr site lane)) := by
  simp only [execIntakeFrameArrival, hn, hi, ht, hf, h0, hlong, Bool.not_true, Bool.false_eq_true, if_false, decide_true, Bool.and_self, if_true]
  rfl

variable (hfits : frameBeatsF s = 0 ∨ payload.length ≤ 24 * frameBeatsF s)
include hfits

theorem execIntakeFrameArrival_of_fits :
    execIntakeFrameArrival n data sum close a s =
      if crc32 payload ≠ crc then .next ((frameEnded s n.val).bump (fCrcErr site lane))
      else .next (endFrame (frameEnded s n.val) site lane n.val i payload a) := by
  have hlen : (decide (0 < frameBeatsF s) && decide (24 * frameBeatsF s < payload.length)) = false := by
    simp
    omega
  simp only [execIntakeFrameArrival, hn, hi, ht, hf, hlen, Bool.not_true, Bool.false_eq_true, if_false]
  rfl

end

section
variable (w : WayLane) (on : Bool) (a : Nat)

theorem measureArrival_held : (measureArrival w on a).held = w.held := by unfold measureArrival; split <;> rfl

theorem measureArrival_incoming : (measureArrival w on a).incoming = w.incoming := by unfold measureArrival; split <;> rfl

theorem measureArrival_lastSeq : (measureArrival w on a).lastSeq = w.lastSeq := by unfold measureArrival; split <;> rfl

end

/-- The lane sequence number does not follow the one before (R281). -/
def seqBroken (last : Option Nat) (seq : Nat) : Bool :=
  match last with
  | some q => decide (seq ≠ (q + 1) % 256)
  | none => false

/-- The waystation lane after a clean frame's arrival has been measured. -/
def measuredLane (s : State) (n : Nat) (i : Incoming) (a : Nat) : WayLane :=
  measureArrival { s.wayLane n with lastSeq := some i.seq } (decide (s.fld fState = 7) && !s.armed) a

/-- The lane with one more frame present. -/
def WayLane.withFrame (v : WayLane) (h : HeldFrame) : WayLane := { v with held := v.held ++ [h] }

/-- The frame of crossing x as it becomes present (R282). -/
def presentFrame (s : State) (i : Incoming) (payload : List Byte) (x a : Nat) : HeldFrame :=
  ⟨x, i.num, frameRow payload (frameBeatsF s) (s.numOf x % 64), a⟩

section
variable (s : State) (site lane n : Nat) (i : Incoming) (payload : List Byte) (a : Nat) {x : Nat} (hx : i.cls = .accept x)
include hx

theorem endFrame_of_accept :
    endFrame s site lane n i payload a =
      ((s.countIf (seqBroken (s.wayLane n).lastSeq i.seq) (fSeqGap site lane)).setWay n
        ((measuredLane s n i a).withFrame (presentFrame s i payload x a))).raise (fWayMaxOcc n)
          (((measuredLane s n i a).withFrame (presentFrame s i payload x a)).held.length * frameBeatsF s) := by
  have hway : (s.countIf (seqBroken (s.wayLane n).lastSeq i.seq) (fSeqGap site lane)).wayLane n = s.wayLane n := by
    cases seqBroken (s.wayLane n).lastSeq i.seq <;> rfl
  have hlane : measureArrival { (s.countIf (seqBroken (s.wayLane n).lastSeq i.seq) (fSeqGap site lane)).wayLane n with lastSeq := some i.seq }
      (decide (s.fld fState = 7) && !s.armed) a = measuredLane s n i a := by rw [hway, measuredLane]
  rw [← hlane]
  unfold endFrame
  simp only [hx]
  rfl

theorem endFrame_wayLane :
    (endFrame s site lane n i payload a).wayLane n = (measuredLane s n i a).withFrame (presentFrame s i payload x a) := by
  rw [endFrame_of_accept s site lane n i payload a hx, State.raise]
  split <;> exact State.setWay_wayLane _ n _

theorem endFrame_frame : { endFrame s site lane n i payload a with regs := s.regs, way := s.way } = s := by
  rw [endFrame_of_accept s site lane n i payload a hx, State.raise, State.countIf]
  split <;> split <;> rfl

theorem endFrame_seqGap (hsep : (fWayMaxOcc n).sep (fSeqGap site lane) = true) :
    (endFrame s site lane n i payload a).fld (fSeqGap site lane) =
      if seqBroken (s.wayLane n).lastSeq i.seq then min 255 (s.fld (fSeqGap site lane) + 1) else s.fld (fSeqGap site lane) := by
  rw [endFrame_of_accept s site lane n i payload a hx, State.raise]
  have hcount := State.fld_countIf s (seqBroken (s.wayLane n).lastSeq i.seq) (fSeqGap site lane) (by simp [fSeqGap])
  split
  · rw [State.fld_setFld_sep _ hsep]
    exact hcount
  · exact hcount

end

/-- The waystation's registers lie below those of the tiles. -/
theorem wayMaxOcc_sep_seqGap (n : IntakeLane) (site lane : Nat) : (fWayMaxOcc n.val).sep (fSeqGap site lane) = true := by
  have hn := n.isLt
  refine Fld.sep_of_addr_ne (by simp [fSeqGap]) ?_
  simp only [fWayMaxOcc, fSeqGap, wayBase, rxBase, siteBase]
  omega

theorem frameErr_sep_crcErr (site lane : Nat) : (fFrameErr site lane).sep (fCrcErr site lane) = true := by simp [Fld.sep, fFrameErr, fCrcErr]

theorem crcErr_sep_frameErr (site lane : Nat) : (fCrcErr site lane).sep (fFrameErr site lane) = true := by simp [Fld.sep, fFrameErr, fCrcErr]

theorem fld_bump_frameErr (s : State) (site lane : Nat) :
    (s.bump (fFrameErr site lane)).fld (fFrameErr site lane) = min 255 (s.fld (fFrameErr site lane) + 1) :=
  State.fld_bump s (fFrameErr site lane) 1 (by simp [fFrameErr])

theorem fld_bump_crcErr (s : State) (site lane : Nat) :
    (s.bump (fCrcErr site lane)).fld (fCrcErr site lane) = min 65535 (s.fld (fCrcErr site lane) + 1) :=
  State.fld_bump s (fCrcErr site lane) 1 (by simp [fCrcErr])

/-- What a start that counts FRAME_ERR alone leaves. -/
theorem frameErr_of_no_start {s : State} {n : IntakeLane} {head : Line} {number rest : List Line} {site lane : Nat}
    (hn : intakeLane s n.val = some (site, lane)) (ht : takesFrames s site lane = true) (hi : (s.wayLane n.val).incoming = none)
    (hs : startFields (s.is (fRxCoding site lane)) (head :: (number ++ rest)) = none) (hb : beginsFrame head = true) :
    ∃ t, exec (.intakeFrameStart n head number rest) s = .next t ∧ t.fld (fFrameErr site lane) = min 255 (s.fld (fFrameErr site lane) + 1) ∧
      regsSame s t [(fFrameErr site lane).addr] ∧ { t with regs := s.regs } = s := by
  refine ⟨s.bump (fFrameErr site lane), ?_, fld_bump_frameErr s site lane, regsSame_bump _ 1 (regsSame.refl s _) (.head _), rfl⟩
  show execIntakeFrameStart n head number rest s = _
  rw [execIntakeFrameStart_of_no_start hn ht hi hs, State.countIf, if_pos hb]

/-- A start holds the frame as arriving, with its class. -/
theorem frameStart_classified {s : State} {n : IntakeLane} {head : Line} {number rest : List Line} {site lane num seq bytesM1 : Nat}
    (hn : intakeLane s n.val = some (site, lane)) (ht : takesFrames s site lane = true) (hi : (s.wayLane n.val).incoming = none)
    (hs : startFields (s.is (fRxCoding site lane)) (head :: (number ++ rest)) = some (num, seq, bytesM1)) :
    exec (.intakeFrameStart n head number rest) s = .next (beginFrame s n.val num seq bytesM1) :=
  execIntakeFrameStart_of_start hn ht hi hs

/-- A frame that is discarded with FRAME_ERR. -/
theorem frameErr_of_arrival {s : State} {n : IntakeLane} {data sum : List Line} {close : Line} {a site lane : Nat}
    (he : execIntakeFrameArrival n data sum close a s = .next ((frameEnded s n.val).bump (fFrameErr site lane))) :
    ∃ t, exec (.intakeFrameArrival n data sum close a) s = .next t ∧ t.wayLane n.val = { s.wayLane n.val with incoming := none } ∧
      t.fld (fFrameErr site lane) = min 255 (s.fld (fFrameErr site lane) + 1) ∧ t.fld (fCrcErr site lane) = s.fld (fCrcErr site lane) ∧
      { t with regs := s.regs, way := s.way } = s :=
  ⟨_, he, frameEnded_wayLane s n.val, fld_bump_frameErr (frameEnded s n.val) site lane,
    State.fld_bump_sep (frameEnded s n.val) (frameErr_sep_crcErr site lane) 1, rfl⟩

/-- Settles O16: a start leaves `beginFrame`, whose class is `classify`'s; an arrival leaves `endFrame` or one counter; and the lines of a frame
read back. -/
theorem intakeFramesArrive : Obligations.IntakeFramesArrive := by
  refine ⟨?start, ?noStart, ?arrival, fun coding payload h1 h192 => frameOf_intakeLines coding payload h1 h192,
    fun num seq bytesM1 hn hs hb => startFields_frameStart hn hs hb⟩
  case start =>
    intro n head number rest num seq bytesM1 s site lane hn h2 hl hr hi hs
    refine ⟨beginFrame s n.val num seq bytesM1, ⟨num, seq, bytesM1, classify s n.val num⟩,
      frameStart_classified hn (takesFrames_eq_true h2 hl hr) hi hs, beginFrame_wayLane s n.val num seq bytesM1, rfl, rfl, rfl, ?_,
      beginFrame_late s n.val num seq bytesM1, beginFrame_regs s n.val num seq bytesM1, beginFrame_frame s n.val num seq bytesM1⟩
    intro r d b hnext hbind hd
    refine ⟨fun h7 hh hroom => ?_, fun h7 hh hfull => ?_, fun h7 hh hrun => ?_, fun h7 hh hrun => classify_idle hnext hbind hd (.inr hh) hrun,
      fun h8 ht hrun => ?_, fun h8 ht hrun => ?_, fun h8 hrun => classify_idle hnext hbind hd (.inl h8) hrun⟩
    · exact (classify_near hnext hbind hd h7 hh).trans (if_neg (Nat.not_lt.mpr hroom))
    · have hc := (classify_near hnext hbind hd h7 hh).trans (if_pos hfull)
      exact ⟨hc, beginFrame_overrun seq bytesM1 hc⟩
    · have hc := classify_twice hnext hbind hd h7 hh hrun
      exact ⟨hc, beginFrame_misnum seq bytesM1 hc⟩
    · exact (classify_far hnext hbind hd h8 hrun).trans (if_pos ht)
    · have hc := (classify_far hnext hbind hd h8 hrun).trans (if_neg (Nat.not_le.mpr ht))
      exact ⟨hc, beginFrame_misnum seq bytesM1 hc⟩
  case noStart =>
    intro n head number rest s site lane hn
    refine ⟨?_, fun hr h2 hl hi hs hb => frameErr_of_no_start hn (takesFrames_eq_true h2 hl hr) hi hs hb⟩
    rintro (hr | ⟨hi, hs, hb⟩)
    · exact execIntakeFrameStart_of_deaf hn (takesFrames_of_stopped site lane hr)
    · show execIntakeFrameStart n head number rest s = _
      cases ht : takesFrames s site lane with
      | false => exact execIntakeFrameStart_of_deaf hn ht
      | true => rw [execIntakeFrameStart_of_no_start hn ht hi hs, State.countIf, hb, if_neg Bool.false_ne_true]
  case arrival =>
    intro n data sum close payload crc a s site lane i hn hi h2 hl hr
    have ht := takesFrames_eq_true h2 hl hr
    refine ⟨fun x hx hf hfits hcrc => ?_, fun hf hfits hcrc => ?_, ?_⟩
    · refine ⟨endFrame (frameEnded s n.val) site lane n.val i payload a, ?_, ?_, ?_, ?_, ?_,
        congrArg (fun u : State => { u with regs := s.regs, way := s.way }) (endFrame_frame (frameEnded s n.val) site lane n.val i payload a hx)⟩
      · show execIntakeFrameArrival n data sum close a s = _
        rw [execIntakeFrameArrival_of_fits hn hi ht hf hfits, if_neg (not_not.mpr hcrc)]
      · rw [endFrame_wayLane _ site lane n.val i payload a hx]
        simp only [WayLane.withFrame, measuredLane, measureArrival_incoming, frameEnded_wayLane]
      · rw [endFrame_wayLane _ site lane n.val i payload a hx]
        simp only [WayLane.withFrame, measuredLane, measureArrival_held, frameEnded_wayLane]
        rfl
      · rw [endFrame_wayLane _ site lane n.val i payload a hx]
        simp only [WayLane.withFrame, measuredLane, measureArrival_lastSeq]
      · rw [endFrame_seqGap _ site lane n.val i payload a hx (wayMaxOcc_sep_seqGap n site lane), frameEnded_wayLane]
        cases (s.wayLane n.val).lastSeq with
        | none => rfl
        | some q => by_cases hq : i.seq = (q + 1) % 256 <;> simp only [seqBroken, hq, ne_eq, not_true, not_false_eq_true, decide_true, decide_false,
            Bool.false_eq_true, if_true, if_false] <;> rfl
    · refine ⟨(frameEnded s n.val).bump (fCrcErr site lane), ?_, frameEnded_wayLane s n.val, fld_bump_crcErr (frameEnded s n.val) site lane,
        State.fld_bump_sep (frameEnded s n.val) (crcErr_sep_frameErr site lane) 1, rfl⟩
      show execIntakeFrameArrival n data sum close a s = _
      rw [execIntakeFrameArrival_of_fits hn hi ht hf hfits, if_pos hcrc]
    · rintro (hf | ⟨hf, h0, hlong⟩)
      · exact frameErr_of_arrival (execIntakeFrameArrival_of_no_format hn hi ht hf)
      · exact frameErr_of_arrival (execIntakeFrameArrival_of_long hn hi ht hf h0 hlong)

end Sys2Proof.Machine

/-!
The waystation lets crossings go (02 R55, R56, R61), and the measurement of a lane's arrivals ends (11 R291).
-/
namespace Sys2Proof.Machine

/-! ### Beats on their way into a queue of the bank (R55) -/

/-- A row on its way into a queue, a beat a cycle from t on. -/
def rowArrivals (q : QueueId) (t : Nat) (ps : List (Nat × Beat)) : List QueueArrival := ps.map (fun p => ⟨q, t + p.1, 5, p.2⟩)

/-- The beats of `ps` leave one after the other: `releaseInto` for the row that it numbers. -/
def releaseBeats (q : QueueId) (t : Nat) (s : State) (ps : List (Nat × Beat)) : State :=
  ps.foldl (fun x p => sendArrival (spendCredit x q) (qCluster q) q (t + p.1) 5 p.2) s

theorem releaseInto_eq (s : State) (q : QueueId) (t : Nat) (row : List Beat) :
    releaseInto s q t row = releaseBeats q t s ((List.range row.length).zip row) := rfl

theorem spendCredit_of_drop {s : State} {q : QueueId} (h : qHold s q = false) : spendCredit s q = s := by
  rw [spendCredit, h, if_neg Bool.false_ne_true]

/-- A release into a queue of the bank changes its cluster and the bank alone. -/
theorem releaseBeats_frame (k : ClusterIx) (j : Fin 16) (t : Nat) (s : State) (ps : List (Nat × Beat)) :
    { releaseBeats (.bank k j) t s ps with clusters := s.clusters, bankQ := s.bankQ } = s := by
  refine foldl_keeps (fun u : State => { u with clusters := s.clusters, bankQ := s.bankQ } = s) (fun u p hu => ?_) rfl
  unfold spendCredit
  split <;> exact hu

/-- Into a DROP queue it changes the cluster alone: the beats are on their way, behind what was. -/
theorem releaseBeats_of_drop {s : State} {q : QueueId} (h : qHold s q = false) (t : Nat) (ps : List (Nat × Beat)) :
    { releaseBeats q t s ps with clusters := s.clusters } = s ∧
      ((releaseBeats q t s ps).cluster (qCluster q)).arrivals = (s.cluster (qCluster q)).arrivals ++ rowArrivals q t ps := by
  induction ps generalizing s with
  | nil => exact ⟨rfl, (List.append_nil _).symm⟩
  | cons p r ih =>
    have hsend : releaseBeats q t s (p :: r) = releaseBeats q t (sendArrival s (qCluster q) q (t + p.1) 5 p.2) r := by
      rw [releaseBeats, List.foldl_cons, spendCredit_of_drop h]
      rfl
    obtain ⟨hframe, harr⟩ := ih (s := sendArrival s (qCluster q) q (t + p.1) 5 p.2) h
    refine ⟨?_, ?_⟩
    · rw [hsend]
      exact (congrArg (fun u : State => { u with clusters := s.clusters }) hframe :)
    · rw [hsend, harr, sendArrival, State.setCluster_cluster, rowArrivals, rowArrivals, List.map_cons, List.append_assoc]
      rfl

theorem regs_of_clusters_frame {s t : State} (h : { t with clusters := s.clusters } = s) : t.regs = s.regs ∧ t.fuses = s.fuses ∧ t.baseSwap = s.baseSwap :=
  ⟨(congrArg State.regs h :), (congrArg State.fuses h :), (congrArg State.baseSwap h :)⟩

/-! ### The margin of a release (R54) -/

section
variable (s : State) (n m : Nat)

theorem noteMargin_frame : { noteMargin s n m with regs := s.regs } = s := by
  unfold noteMargin State.lower
  split <;> rfl

theorem noteMargin_wayLane (j : Nat) : (noteMargin s n m).wayLane j = s.wayLane j :=
  (congrArg (fun u : State => u.wayLane j) (noteMargin_frame s n m) :)

theorem wayLow_sep_wayLast : (fWayLow n).sep (fWayLast n) = true := by simp [Fld.sep, fWayLast, fWayLow]

theorem noteMargin_last : (noteMargin s n m).fld (fWayLast n) = m % 2 ^ 13 := by
  have hset : (s.setFld (fWayLast n) m).fld (fWayLast n) = m % 2 ^ 13 := State.fld_setFld s (fWayLast n) m (by simp [fWayLast])
  unfold noteMargin State.lower
  split
  · rw [State.fld_setFld_sep _ (wayLow_sep_wayLast n), hset]
  · exact hset

theorem noteMargin_low_zero : (noteMargin s n 0).fld (fWayLow n) = 0 := by
  unfold noteMargin State.lower
  split
  · rw [State.fld_setFld _ _ _ (by simp [fWayLow]), Nat.zero_mod]
  · omega

theorem noteMargin_fld {f : Fld} (h : f.addr ≠ wayBase n + 4) (hw : f.lo + f.w ≤ 32) : (noteMargin s n m).fld f = s.fld f := by
  have hlast : (fWayLast n).sep f = true := Fld.sep_of_addr_ne hw h
  have hlow : (fWayLow n).sep f = true := Fld.sep_of_addr_ne hw h
  unfold noteMargin State.lower
  split
  · rw [State.fld_setFld_sep _ hlow, State.fld_setFld_sep _ hlast]
  · rw [State.fld_setFld_sep _ hlast]

theorem regsSame_noteMargin {s0 s : State} {l : List Nat} (n m : Nat) (h : regsSame s0 s l) (hl : wayBase n + 4 ∈ l) :
    regsSame s0 (noteMargin s n m) l := by
  have hlast := regsSame_setFld (fWayLast n) m h hl
  unfold noteMargin State.lower
  split
  · exact regsSame_setFld (fWayLow n) m hlast hl
  · exact hlast

end

/-! ### One lane releases a crossing (R55, R56) -/

/-- The queue that a mapped lane feeds. -/
def boundQueue (b : LaneBind) : QueueId := .bank (Fin.ofNat 512 b.cluster) (Fin.ofNat 16 b.queue)

/-- The lane has let crossing x go. -/
def hasReleased (w : WayLane) (x : Nat) : Prop := w.next = x + 1 ∧ ∀ h ∈ w.held, h.xseq ≠ x

theorem hasReleased_of_filter {w : WayLane} {x : Nat} {l : List HeldFrame} (hn : w.next = x + 1)
    (hh : w.held = l.filter (fun g => decide (g.xseq ≠ x))) : hasReleased w x := by
  refine ⟨hn, fun h hmem => ?_⟩
  rw [hh] at hmem
  exact of_decide_eq_true (List.mem_filter.mp hmem).2

/-- What a release of a lane is: beats into its queue, the lane past the crossing, and counters. -/
theorem releaseLane_cases (x t : Nat) (s : State) (b : LaneBind) :
    ∃ (row : List Beat) (w : WayLane) (late : Bool) (m : Nat),
      releaseLane x t s b = noteMargin (((releaseInto s (boundQueue b) t row).setWay b.lane w).countIf late (fWayLate b.lane)) b.lane m ∧
        hasReleased w x := by
  unfold releaseLane
  dsimp only
  split
  · next h _ => exact ⟨h.beats, _, false, _, rfl, hasReleased_of_filter rfl rfl⟩
  · exact ⟨_, _, true, _, rfl, hasReleased_of_filter rfl rfl⟩

theorem releaseInto_bound_frame (s : State) (b : LaneBind) (t : Nat) (row : List Beat) :
    { releaseInto s (boundQueue b) t row with clusters := s.clusters, bankQ := s.bankQ } = s := releaseBeats_frame _ _ t s _

section
variable (x t : Nat) (s : State) (b : LaneBind)

theorem releaseLane_wayLane : hasReleased ((releaseLane x t s b).wayLane b.lane) x := by
  obtain ⟨row, w, late, m, he, hw⟩ := releaseLane_cases x t s b
  have hway : (((releaseInto s (boundQueue b) t row).setWay b.lane w).countIf late (fWayLate b.lane)).wayLane b.lane = w := by
    cases late <;> exact State.setWay_wayLane _ b.lane w
  rw [he, noteMargin_wayLane, hway]
  exact hw

theorem releaseLane_other {n : Nat} (h : b.lane ≠ n) : (releaseLane x t s b).wayLane n = s.wayLane n := by
  obtain ⟨row, w, late, m, he, -⟩ := releaseLane_cases x t s b
  have hset : (((releaseInto s (boundQueue b) t row).setWay b.lane w).countIf late (fWayLate b.lane)).wayLane n =
      (releaseInto s (boundQueue b) t row).wayLane n := by
    cases late <;> exact State.setWay_wayLane_other _ b.lane n w h.symm
  rw [he, noteMargin_wayLane, hset]
  exact (congrArg (fun u : State => u.wayLane n) (releaseInto_bound_frame s b t row) :)

/-- A lane's release changes registers, the waystation, clusters and the queue bank alone. -/
theorem releaseLane_frame : { releaseLane x t s b with regs := s.regs, way := s.way, clusters := s.clusters, bankQ := s.bankQ } = s := by
  obtain ⟨row, w, late, m, he, -⟩ := releaseLane_cases x t s b
  have hnote := congrArg (fun u : State => { u with regs := s.regs, way := s.way, clusters := s.clusters, bankQ := s.bankQ })
    (noteMargin_frame (((releaseInto s (boundQueue b) t row).setWay b.lane w).countIf late (fWayLate b.lane)) b.lane m)
  have hinto := congrArg (fun u : State => { u with regs := s.regs, way := s.way, clusters := s.clusters, bankQ := s.bankQ })
    (releaseInto_bound_frame s b t row)
  rw [he]
  refine hnote.trans ?_
  cases late <;> exact hinto

end

/-! ### All mapped lanes release it -/

/-- Every lane of the list has let crossing x go, and every other lane is as it was. -/
theorem releaseLanes_wayLane (x t : Nat) (l : List LaneBind) (s : State) :
    (∀ b ∈ l, hasReleased ((l.foldl (releaseLane x t) s).wayLane b.lane) x) ∧
      ∀ n : Nat, (∀ b ∈ l, b.lane ≠ n) → (l.foldl (releaseLane x t) s).wayLane n = s.wayLane n := by
  induction l generalizing s with
  | nil => exact ⟨fun b hb => absurd hb List.not_mem_nil, fun _ _ => rfl⟩
  | cons a r ih =>
    obtain ⟨hin, hout⟩ := ih (releaseLane x t s a)
    rw [List.foldl_cons]
    refine ⟨fun b hb => ?_, fun n hn => ?_⟩
    · by_cases hagain : ∃ c ∈ r, c.lane = b.lane
      · obtain ⟨c, hc, he⟩ := hagain
        exact he ▸ hin c hc
      · have hba : b = a := by
          rcases List.mem_cons.mp hb with h | h
          · exact h
          · exact absurd ⟨b, h, rfl⟩ hagain
        rw [hout b.lane (fun c hc he => hagain ⟨c, hc, he⟩), hba]
        exact releaseLane_wayLane x t s a
    · rw [hout n (fun b hb => hn b (.tail _ hb)), releaseLane_other x t s a (hn a (.head _))]

theorem releaseLanes_frame (x t : Nat) (l : List LaneBind) (s : State) :
    { l.foldl (releaseLane x t) s with regs := s.regs, way := s.way, clusters := s.clusters, bankQ := s.bankQ } = s :=
  foldl_keeps (fun u : State => { u with regs := s.regs, way := s.way, clusters := s.clusters, bankQ := s.bankQ } = s)
    (fun u b hu => (congrArg (fun v : State => { v with regs := s.regs, way := s.way, clusters := s.clusters, bankQ := s.bankQ })
      (releaseLane_frame x t u b)).trans hu) rfl

theorem execWaystationRelease_of_due {s : State} (hr : s.runs = true) (hl : s.lockedImage = true) (hin : s.inRun (wayNext s) = true)
    (hx : wayNext s ≤ s.clock.xseq) :
    execWaystationRelease s = .next ((lanesOf s).foldl (releaseLane (wayNext s) (s.openAt (wayNext s) + releaseOffset s))
      (s.at (s.openAt (wayNext s) + releaseOffset s))) := by
  have hc : (s.runs && s.lockedImage && s.inRun (wayNext s) && decide (wayNext s ≤ s.clock.xseq)) = true := by
    simp only [hr, hl, hin, hx, decide_true, Bool.and_self]
  exact if_pos hc

/-! ### A crossing that is absent (R56) -/

/-- The zero beats of a late crossing, numbered. -/
theorem zip_absentRow (f tag : Nat) (late : Bool) :
    (List.range (absentRow f tag late).length).zip (absentRow f tag late) = (List.range f).map (fun j =>
      (j, { mant := 0, exp := 0, tag := BitVec.ofNat 6 tag, bad := !late, late := late, first := decide (j = 0), last := decide (j + 1 = f) })) := by
  rw [absentRow, List.length_map, List.length_range, List.zip_map_right, List.zip_eq_zipWith, List.zipWith_self]
  simp

theorem releaseLane_of_absent {x t : Nat} {s : State} {b : LaneBind}
    (h : ∀ g ∈ (s.wayLane b.lane).held, g.xseq = x → releaseOffset s < g.arrival) :
    releaseLane x t s b = noteMargin (((releaseInto s (boundQueue b) t (absentRow (frameBeatsF s) (s.numOf x % 64) true)).setWay b.lane
      { outdate (s.wayLane b.lane) x with held := (s.wayLane b.lane).held.filter (fun g => decide (g.xseq ≠ x)), next := x + 1 }).bump
        (fWayLate b.lane)) b.lane 0 := by
  have hfind : (s.wayLane b.lane).held.find? (fun g => decide (g.xseq = x) && decide (g.arrival ≤ releaseOffset s)) = none := by
    simpa [List.find?_eq_none] using h
  simp only [releaseLane, hfind]
  rfl

theorem boundQueue_eq {b : LaneBind} {k : ClusterIx} {q : Fin 16} (hk : b.cluster = k.val) (hq : b.queue = q.val) : boundQueue b = .bank k q := by
  rw [boundQueue, hk, hq]
  congr 1 <;> exact Fin.ofNat_val_eq_self _

theorem noteMargin_cluster (s : State) (n m k : Nat) : (noteMargin s n m).cluster k = s.cluster k :=
  (congrArg (fun u : State => u.cluster k) (noteMargin_frame s n m) :)

/-- A late crossing is counted, with margin 0, and its zero beats are on their way. -/
theorem releaseLane_absent_counts {x t : Nat} {s : State} {b : LaneBind} {k : ClusterIx} {q : Fin 16}
    (h : ∀ g ∈ (s.wayLane b.lane).held, g.xseq = x → releaseOffset s < g.arrival) (hk : b.cluster = k.val) (hq : b.queue = q.val)
    (hdrop : qHold s (.bank k q) = false) :
    (releaseLane x t s b).fld (fWayLate b.lane) = min 65535 (s.fld (fWayLate b.lane) + 1) ∧ (releaseLane x t s b).fld (fWayLast b.lane) = 0 ∧
      (releaseLane x t s b).fld (fWayLow b.lane) = 0 ∧
      ((releaseLane x t s b).cluster k.val).arrivals = (s.cluster k.val).arrivals ++ (List.range (frameBeatsF s)).map (fun j =>
        ⟨.bank k q, t + j, 5, ⟨0, 0, BitVec.ofNat 6 (s.numOf x % 64), false, true, decide (j = 0), decide (j + 1 = frameBeatsF s)⟩⟩) := by
  rw [releaseLane_of_absent h, boundQueue_eq hk hq, releaseInto_eq, zip_absentRow]
  obtain ⟨hframe, harr⟩ := releaseBeats_of_drop hdrop t ((List.range (frameBeatsF s)).map (fun j =>
    (j, ({ mant := 0, exp := 0, tag := BitVec.ofNat 6 (s.numOf x % 64), bad := !true, late := true
           first := decide (j = 0), last := decide (j + 1 = frameBeatsF s) } : Beat))))
  obtain ⟨hregs, hfuses, hswap⟩ := regs_of_clusters_frame hframe
  refine ⟨?_, ?_, noteMargin_low_zero _ _, ?_⟩
  · rw [noteMargin_fld _ _ _ (by simp [fWayLate]) (by simp [fWayLate]), State.fld_bump _ _ _ (by simp [fWayLate])]
    exact congrArg (fun v => min 65535 (v + 1)) (State.fld_congr (s := s) hregs hfuses hswap (fWayLate b.lane))
  · rw [noteMargin_last, Nat.zero_mod]
  · rw [noteMargin_cluster]
    refine harr.trans ?_
    rw [rowArrivals, List.map_map]
    rfl

/-! ### Staged mode (R61) -/

theorem chargeQueue_of_noWaiter {s : State} {q : QueueId} (h : noWaiter s q) (t : Nat) : chargeQueue s q t = s := by
  obtain ⟨hw, hb⟩ := h
  simp only [chargeQueue, hw, hb]

/-- With no writer waiting, the end of a wait writes the queue back as it was. -/
theorem endWait_of_noWaiter {s : State} {q : QueueId} (h : noWaiter s q) (t : Nat) : endWait s q t = s.setQueue q (s.queue q) := by
  have hcharge := chargeQueue_of_noWaiter h t
  obtain ⟨hw, -⟩ := h
  have hq : ({ s.queue q with waitSince := none } : Queue) = s.queue q := by rw [← hw]
  unfold endWait
  rw [hcharge]
  exact congrArg (s.setQueue q) hq

theorem mget_mset_id {α : Type} [DecidableEq α] (d : α) (m : SMap α) (k j : Nat) : mget d (mset d m k (mget d m k)) j = mget d m j := by
  by_cases h : j = k
  · rw [h, mget_mset_same]
  · exact mget_mset_other d d m _ h

/-- A queue written back as it was changes none. -/
theorem State.setQueue_queue_self (s : State) (q p : QueueId) : (s.setQueue q (s.queue q)).queue p = s.queue p := by
  cases q with
  | port u i => cases p with
    | port => exact mget_mset_id _ _ _ _
    | _ => rfl
  | bank k i => cases p with
    | bank => exact mget_mset_id _ _ _ _
    | _ => rfl
  | steer k i => cases p with
    | steer => exact mget_mset_id _ _ _ _
    | _ => rfl

/-- The lane past the frame that leaves. -/
def leftLane (s : State) (n : Nat) (h : HeldFrame) : WayLane :=
  { s.wayLane n with
    held := (s.wayLane n).held.filter (fun g => decide (g.xseq ≠ (s.wayLane n).next)), leaving := some ⟨s.clock.now, h⟩
    next := (s.wayLane n).next + 1 }

/-- What a frame that leaves changes beside its margin: its queue is written back, its beats are on their way, and the lane is past it. -/
def stagedOut (s : State) (n : Nat) (q : QueueId) (h : HeldFrame) : State :=
  (releaseInto (s.setQueue q (s.queue q)) q s.clock.now h.beats).setWay n (leftLane s n h)

/-- A complete frame leaves into a DROP queue that nobody waits for. -/
theorem execStagedWaystationRelease_of_ready {n : IntakeLane} {p : Nat × Nat} {b : LaneBind} {h : HeldFrame} {s : State}
    (hn : intakeLane s n.val = some p) (hb : bindOf s n.val = some b)
    (hf : (s.wayLane n.val).held.find? (fun g => decide (g.xseq = (s.wayLane n.val).next)) = some h) (hr : s.runs = true)
    (hst : s.stagedImage = true) (hin : s.inRun (s.wayLane n.val).next = true) (hdrop : qHold s (boundQueue b) = false)
    (hw : noWaiter s (boundQueue b)) :
    execStagedWaystationRelease n s = .next (noteMargin (stagedOut s n.val (boundQueue b) h) n.val (releaseOffset s - h.arrival)) := by
  have hdrop' : qHold s (.bank (Fin.ofNat 512 b.cluster) (Fin.ofNat 16 b.queue)) = false := hdrop
  rw [stagedOut, ← endWait_of_noWaiter hw s.clock.now]
  simp only [execStagedWaystationRelease, hn, hb, hf, hr, hst, hin, hdrop', Bool.not_false, Bool.true_or, Bool.and_self, if_true]
  rfl

section
variable {s : State} {k : ClusterIx} {q : Fin 16} (hdrop : qHold s (.bank k q) = false) (n : Nat) (h : HeldFrame)
include hdrop

/-- The state before the lane is past the frame differs from the one with the queue written back in its clusters alone. -/
theorem stagedOut_base :
    { stagedOut s n (.bank k q) h with clusters := s.clusters, way := s.way } = s.setQueue (.bank k q) (s.queue (.bank k q)) :=
  (congrArg (fun u : State => { u with way := s.way })
    (releaseBeats_of_drop (s := s.setQueue (.bank k q) (s.queue (.bank k q))) hdrop s.clock.now ((List.range h.beats.length).zip h.beats)).1 :)

theorem stagedOut_queue (p : QueueId) : (stagedOut s n (.bank k q) h).queue p = s.queue p := by
  have hbase := (congrArg (fun u : State => u.queue p) (stagedOut_base hdrop n h) :)
  refine Eq.trans ?_ (hbase.trans (State.setQueue_queue_self s (.bank k q) p))
  cases p <;> rfl

theorem stagedOut_regs (l : List Nat) : regsSame s (stagedOut s n (.bank k q) h) l :=
  regsSame.of_parts l (congrArg State.regs (stagedOut_base hdrop n h) :) (congrArg State.fuses (stagedOut_base hdrop n h) :)
    (congrArg State.baseSwap (stagedOut_base hdrop n h) :)

theorem stagedOut_frame : { stagedOut s n (.bank k q) h with way := s.way, clusters := s.clusters, bankQ := s.bankQ } = s :=
  (congrArg (fun u : State => { u with bankQ := s.bankQ }) (stagedOut_base hdrop n h) :)

theorem stagedOut_arrivals :
    ((stagedOut s n (.bank k q) h).cluster k.val).arrivals =
      (s.cluster k.val).arrivals ++ rowArrivals (.bank k q) s.clock.now ((List.range h.beats.length).zip h.beats) :=
  (releaseBeats_of_drop (s := s.setQueue (.bank k q) (s.queue (.bank k q))) hdrop s.clock.now ((List.range h.beats.length).zip h.beats)).2

end

theorem noteMargin_queue (s : State) (n m : Nat) (p : QueueId) : (noteMargin s n m).queue p = s.queue p := by
  have hq := (congrArg (fun u : State => u.queue p) (noteMargin_frame s n m) :)
  refine Eq.trans ?_ hq
  cases p <;> rfl

theorem stagedOut_wayLane (s : State) (n : Nat) (q : QueueId) (h : HeldFrame) : (stagedOut s n q h).wayLane n = leftLane s n h :=
  State.setWay_wayLane _ n _

/-! ### The end of a measurement (11 R291) -/

/-- The lane's measurement is over. -/
def measureEnded (s : State) (n : Nat) : State := s.setWay n { s.wayLane n with measuring := false }

/-- The least and the greatest arrival, where any frame was measured. -/
def arrivalsShown (s : State) (n : Nat) : State :=
  if (s.wayLane n).measured = 0 then measureEnded s n
  else ((measureEnded s n).setFld (fWayAMax n) (s.wayLane n).aMax).setFld (fWayAMin n) (s.wayLane n).aMin

theorem execArrivalMeasurementEnd_of_measuring {n : IntakeLane} {site lane : Nat} {s : State} (hn : intakeLane s n.val = some (site, lane))
    (hm : (s.wayLane n.val).measuring = true) (h7 : s.fld fState = 7) (ha : s.is fArmed = false) :
    execArrivalMeasurementEnd n s = .next (if 65000 ≤ (s.wayLane n.val).measured then (arrivalsShown s n.val).mark (fWayTrained n.val)
      else ((arrivalsShown s n.val).setFld (fWayTrained n.val) 0).mark (fArrFail site lane)) := by
  have ha' : s.armed = false := ha
  simp only [execArrivalMeasurementEnd, hn, hm, h7, ha', decide_true, Bool.not_false, Bool.and_self, if_true]
  rw [apply_ite Host.Outcome.next]
  rfl

section
variable (s : State) (n : Nat)

theorem arrivalsShown_wayLane : (arrivalsShown s n).wayLane n = { s.wayLane n with measuring := false } := by
  unfold arrivalsShown
  split <;> exact State.setWay_wayLane s n _

theorem arrivalsShown_frame : { arrivalsShown s n with regs := s.regs, way := s.way } = s := by
  unfold arrivalsShown
  split <;> rfl

theorem arrivalsShown_regs : regsSame s (arrivalsShown s n) [wayBase n, wayBase n + 0xC] := by
  have hend : regsSame s (measureEnded s n) [wayBase n, wayBase n + 0xC] := regsSame.of_parts _ rfl rfl rfl
  unfold arrivalsShown
  split
  · exact hend
  · exact regsSame_setFld (fWayAMin n) _ (regsSame_setFld (fWayAMax n) _ hend (.head _)) (.head _)

variable {s n}

theorem arrivalsShown_aMax (h : (s.wayLane n).measured ≠ 0) : (arrivalsShown s n).fld (fWayAMax n) = (s.wayLane n).aMax % 2 ^ 13 := by
  have hsep : (fWayAMin n).sep (fWayAMax n) = true := by simp [Fld.sep, fWayAMin, fWayAMax]
  rw [arrivalsShown, if_neg h, State.fld_setFld_sep _ hsep, State.fld_setFld _ _ _ (by simp [fWayAMax])]
  rfl

theorem arrivalsShown_aMin (h : (s.wayLane n).measured ≠ 0) : (arrivalsShown s n).fld (fWayAMin n) = (s.wayLane n).aMin % 2 ^ 13 := by
  rw [arrivalsShown, if_neg h, State.fld_setFld _ _ _ (by simp [fWayAMin])]
  rfl

end

/-- TRAINED is set at the end of a measurement of enough frames. -/
theorem measurement_trains {n : IntakeLane} {site lane : Nat} {s : State} (hn : intakeLane s n.val = some (site, lane))
    (hm : (s.wayLane n.val).measuring = true) (h7 : s.fld fState = 7) (ha : s.is fArmed = false) (hmany : 65000 ≤ (s.wayLane n.val).measured) :
    ∃ t, exec (.arrivalMeasurementEnd n) s = .next t ∧ t.is (fWayTrained n.val) = true ∧
      t.fld (fWayAMax n.val) = (s.wayLane n.val).aMax % 2 ^ 13 ∧ t.fld (fWayAMin n.val) = (s.wayLane n.val).aMin % 2 ^ 13 ∧
      t.wayLane n.val = { s.wayLane n.val with measuring := false } ∧ regsSame s t [wayBase n.val, wayBase n.val + 0xC] ∧
      { t with regs := s.regs, way := s.way } = s := by
  have hsome : (s.wayLane n.val).measured ≠ 0 := by omega
  have hmax : (fWayTrained n.val).sep (fWayAMax n.val) = true := by simp [Fld.sep, fWayTrained, fWayAMax]
  have hmin : (fWayTrained n.val).sep (fWayAMin n.val) = true := by simp [Fld.sep, fWayTrained, fWayAMin]
  refine ⟨(arrivalsShown s n.val).mark (fWayTrained n.val), ?_, State.is_mark _ _ (by simp [fWayTrained]) rfl, ?_, ?_,
    arrivalsShown_wayLane s n.val, regsSame_mark _ (arrivalsShown_regs s n.val) (.tail _ (.head _)), arrivalsShown_frame s n.val⟩
  · show execArrivalMeasurementEnd n s = _
    rw [execArrivalMeasurementEnd_of_measuring hn hm h7 ha, if_pos hmany]
  · rw [State.fld_mark_sep _ hmax, arrivalsShown_aMax hsome]
  · rw [State.fld_mark_sep _ hmin, arrivalsShown_aMin hsome]

/-- ARR_FAIL is set, and TRAINED cleared, at the end of one of too few. -/
theorem measurement_fails {n : IntakeLane} {site lane : Nat} {s : State} (hn : intakeLane s n.val = some (site, lane))
    (hm : (s.wayLane n.val).measuring = true) (h7 : s.fld fState = 7) (ha : s.is fArmed = false) (hfew : (s.wayLane n.val).measured < 65000) :
    ∃ t, exec (.arrivalMeasurementEnd n) s = .next t ∧ t.is (fWayTrained n.val) = false ∧ t.is (fArrFail site lane) = true ∧
      t.wayLane n.val = { s.wayLane n.val with measuring := false } ∧ { t with regs := s.regs, way := s.way } = s := by
  have hsep : (fArrFail site lane).sep (fWayTrained n.val) = true := by
    have := n.isLt
    refine Fld.sep_of_addr_ne (by simp [fWayTrained]) ?_
    simp only [fWayTrained, fArrFail, wayBase, rxBase, siteBase]
    omega
  refine ⟨((arrivalsShown s n.val).setFld (fWayTrained n.val) 0).mark (fArrFail site lane), ?_, ?_, State.is_mark _ _ (by simp [fArrFail]) rfl,
    arrivalsShown_wayLane s n.val, arrivalsShown_frame s n.val⟩
  · show execArrivalMeasurementEnd n s = _
    rw [execArrivalMeasurementEnd_of_measuring hn hm h7 ha, if_neg (Nat.not_le.mpr hfew)]
  · rw [State.is, State.fld_mark_sep _ hsep, State.fld_setFld _ _ _ (by simp [fWayTrained])]
    rfl

/-- Settles O17: a release is one `releaseLane` per mapped lane, or in staged mode of one lane; a measurement ends by the number of its frames. -/
theorem waystationReleasesAndMeasures : Obligations.WaystationReleasesAndMeasures := by
  refine ⟨?release, ?late, ?staged, fun n site lane s hn hm h7 ha => ⟨measurement_trains hn hm h7 ha, measurement_fails hn hm h7 ha⟩⟩
  case release =>
    intro s hr hl hin hx
    obtain ⟨hgone, hkept⟩ := releaseLanes_wayLane (wayNext s) (s.openAt (wayNext s) + releaseOffset s) (lanesOf s)
      (s.at (s.openAt (wayNext s) + releaseOffset s))
    have hframe := releaseLanes_frame (wayNext s) (s.openAt (wayNext s) + releaseOffset s) (lanesOf s)
      (s.at (s.openAt (wayNext s) + releaseOffset s))
    exact ⟨_, execWaystationRelease_of_due hr hl hin hx, hgone, hkept, (congrArg (fun u : State => u.clock.now) hframe :),
      (congrArg State.units hframe :), (congrArg State.memTiles hframe :)⟩
  case late =>
    intro b k q s hr hl hin hx hlanes _ hk hq hlate hdrop
    refine ⟨_, execWaystationRelease_of_due hr hl hin hx, ?_⟩
    rw [hlanes, List.foldl_cons, List.foldl_nil]
    exact releaseLane_absent_counts (s := s.at (s.openAt (wayNext s) + releaseOffset s)) hlate hk hq hdrop
  case staged =>
    intro n p b k q h s hn hb hk hq hf hr hst hin hdrop hw
    have hbq := boundQueue_eq hk hq
    rw [← hbq] at hdrop hw
    refine ⟨_, execStagedWaystationRelease_of_ready hn hb hf hr hst hin hdrop hw, ?_, ?_, ?_, noteMargin_last _ _ _, ?_, ?_, ?_⟩
    · rw [noteMargin_wayLane, stagedOut_wayLane]
      rfl
    · intro g hg
      rw [noteMargin_wayLane, stagedOut_wayLane] at hg
      exact of_decide_eq_true (List.mem_filter.mp hg).2
    all_goals rw [hbq] at hdrop ⊢
    · rw [noteMargin_cluster, stagedOut_arrivals hdrop]
      rfl
    · exact regsSame_noteMargin _ _ (stagedOut_regs hdrop n.val h _) (.head _)
    · exact fun p' => (noteMargin_queue _ _ _ p').trans (stagedOut_queue hdrop n.val h p')
    · have hnote := noteMargin_frame (stagedOut s n.val (.bank k q) h) n.val (releaseOffset s - h.arrival)
      have hregs := congrArg (fun u : State => { u with regs := s.regs, way := s.way, clusters := s.clusters, bankQ := s.bankQ }) hnote
      exact hregs.trans (congrArg (fun u : State => { u with regs := s.regs }) (stagedOut_frame hdrop n.val h))

end Sys2Proof.Machine

/-!
The logic blocks play their edges (08 R192, R196): what that leaves alone, and what it does not. Before its edges a block takes in what has
come to its cluster by then, so that a crossing start moves beats that were on their way to the cluster's queues.
-/
namespace Sys2Proof.Machine

/-! ### Playing a block -/

/-- The state without what an edge of a logic block changes: the blocks themselves, what the pads show, and the free values drawn. -/
def State.sansLogic (s : State) : State × (Nat → Cluster) :=
  ({ s with clusters := [], out := [], freeNext := 0 }, fun k => { s.cluster k with logic := {} })

@[simp] theorem State.setLogic_sansLogic (s : State) (k : Nat) (v : Logic) : (s.setLogic k v).sansLogic = s.sansLogic := by
  refine Prod.ext rfl (funext fun j => ?_)
  show ({ (s.setLogic k v).cluster j with logic := {} } : Cluster) = { s.cluster j with logic := {} }
  by_cases h : j = k
  · rw [h, State.setLogic, State.setCluster_cluster]
  · rw [State.setLogic, State.setCluster_cluster_other _ _ _ _ h]

@[simp] theorem State.drawn_sansLogic (s : State) : s.drawn.sansLogic = s.sansLogic := rfl

@[simp] theorem State.send_sansLogic (s : State) (o : Out) : (s.send o).sansLogic = s.sansLogic := rfl

/-- A fold leaves alone what each of its steps does. -/
theorem foldl_sansLogic {α : Type} (f : State → α → State) (hf : ∀ y a, (f y a).sansLogic = y.sansLogic) (l : List α) (s : State) :
    (l.foldl f s).sansLogic = s.sansLogic :=
  foldl_keeps (fun u : State => u.sansLogic = s.sansLogic) (fun y a hy => (hf y a).trans hy) rfl

@[simp] theorem showPads_sansLogic (s : State) (p : Nat → Bool) : (showPads s p).sansLogic = s.sansLogic := by
  unfold showPads
  split
  · rfl
  · exact foldl_sansLogic _ (fun t i => State.send_sansLogic t (.pad i (padOf t i))) _ s

@[simp] theorem loadFlops_sansLogic (s : State) (k : Nat) (inp : Nat → Bool) (on : List Nat) : (loadFlops s k inp on).sansLogic = s.sansLogic := by
  unfold loadFlops
  split
  · rfl
  · exact State.setLogic_sansLogic s k _

@[simp] theorem playFree_sansLogic (s : State) (k n c : Nat) (trees : List Nat) : (playFree s k n c trees).sansLogic = s.sansLogic :=
  foldl_sansLogic _ (fun y _ => foldl_sansLogic _ (fun _ _ => loadFlops_sansLogic _ k _ _) _ y) _ s

@[simp] theorem playEdge_sansLogic (s : State) (k n c : Nat) : (playEdge s k n c).sansLogic = s.sansLogic := by simp [playEdge]

@[simp] theorem playStopped_sansLogic (s : State) (k : Nat) : (playStopped s k).sansLogic = s.sansLogic := by
  unfold playStopped
  rw [showPads_sansLogic]
  refine foldl_sansLogic _ (fun y _ => ?_) _ s
  rw [State.drawn_sansLogic]
  exact foldl_sansLogic _ (fun _ _ => loadFlops_sansLogic _ k _ _) _ y

/-- A block plays its edges from what has come to its cluster. -/
theorem playLogic_of_due {s : State} {k t : Nat} (hst : s.fld (fLogState k) = 2) (hcells : (s.logic k).cells.words ≠ []) (hr : s.runs = true)
    (ht : (s.logic k).playedTo < t) : (playLogic s k t).sansLogic = (settleAll s k (t - 1)).sansLogic := by
  have hcfg : ¬ (s.fld (fLogState k) ≠ 2 ∨ (s.logic k).cells.words.isEmpty = true) := by simp [hst, hcells]
  have hrun : ¬ (!s.runs) = true := by simp [hr]
  unfold playLogic
  rw [if_neg hcfg, if_neg hrun, if_neg (Nat.not_le.mpr ht)]
  dsimp only
  rw [showPads_sansLogic, State.setLogic_sansLogic, State.drawn_sansLogic]
  exact foldl_sansLogic _ (fun _ _ => playEdge_sansLogic _ _ _ _) _ _

/-- A block plays nothing that changes more than logic when nothing of its cluster is due. -/
theorem playLogic_sansLogic {s : State} {k t : Nat} (h : (settleAll s k (t - 1)).sansLogic = s.sansLogic) :
    (playLogic s k t).sansLogic = s.sansLogic := by
  by_cases hcfg : s.fld (fLogState k) ≠ 2 ∨ (s.logic k).cells.words.isEmpty = true
  · rw [playLogic, if_pos hcfg]
  · by_cases hr : s.runs = true
    · by_cases ht : (s.logic k).playedTo < t
      · rw [not_or, not_not] at hcfg
        refine (playLogic_of_due hcfg.1 (fun he => hcfg.2 ?_) hr ht).trans h
        rw [he]
        rfl
      · rw [playLogic, if_neg hcfg, if_neg (by simp [hr]), if_pos (Nat.not_lt.mp ht)]
    · rw [playLogic, if_neg hcfg, if_pos (by simp [hr])]
      exact playStopped_sansLogic s k

/-! ### A crossing opens with the queue bank as it is -/

section
variable (s : State)

theorem openCrossing_bankQ : (openCrossing s).bankQ = s.bankQ := rfl

theorem stepCount_bankQ : (stepCount s).bankQ = s.bankQ := by
  unfold stepCount
  split <;> rfl

theorem stepRun_bankQ : (stepRun s).bankQ = s.bankQ := by
  unfold stepRun
  split <;> rfl

theorem stepTurn_bankQ : (stepTurn s).bankQ = s.bankQ := by
  unfold stepTurn
  split
  · rfl
  · split <;> rfl

theorem takeFences_bankQ : (takeFences s).bankQ = s.bankQ := by
  have hfold : (s.fencePend.foldl (fun t p => t.setFld (fFenced p.1) (bit p.2)) s).bankQ = s.bankQ :=
    foldl_keeps (fun u : State => u.bankQ = s.bankQ) (fun u p hu => by simp only [State.setFld_frame, hu]) rfl
  exact hfold

theorem takeHazards_bankQ : (takeHazards s).bankQ = s.bankQ := by
  refine foldl_keeps (fun u : State => u.bankQ = s.bankQ) (fun u e hu => ?_) rfl
  split <;> exact hu

theorem stepMeasures_bankQ : (stepMeasures s).bankQ = s.bankQ := by
  refine foldl_keeps (fun u : State => u.bankQ = s.bankQ) (fun u e hu => ?_) rfl
  dsimp only
  repeat' split
  all_goals simp only [State.setFld_frame, State.mark_frame, State.setCtx_frame, hu]

/-- After the blocks have played, a crossing start leaves the queue bank alone. -/
theorem execCrossingStart_bankQ {t : State} (hr : s.runs = true) (h : execCrossingStart s = .next t) :
    t.bankQ = (playBlocks s (fun _ => true) (s.clock.xstart + s.n)).bankQ := by
  rw [execCrossingStart, if_pos hr] at h
  cases h
  rw [stepMeasures_bankQ, takeHazards_bankQ, takeFences_bankQ, stepTurn_bankQ, stepRun_bankQ, stepCount_bankQ, openCrossing_bankQ]

end

/-! ### A beat on its way to a queue -/

/-- LOCKED in crossing 5 of turns of 100, from cycle 600 on: block 0 is configured, and a beat is to reach queue 2 of its cluster's bank in cycle
610. -/
def beatOnItsWay : State :=
  let s := ((((({} : State).setFld fState 7).setFld fTurnLen 100).setFld fCurrent 5).setFld (fLogState 0) 2).setFld (fQDepth (.bank 0 2)) 8
  { s with
    clock := { now := 605, xseq := 20, xstart := 600, everLocked := true }
    clusters := [(0, { arrivals := [⟨.bank 0 2, 610, 5, zeroBeat⟩], logic := { cells := { words := [(1, 1)] }, playedTo := 600 } })] }

theorem beatOnItsWay_runs : beatOnItsWay.runs = true := by decide +kernel

/-- By the end of the crossing the beat is in its queue. -/
theorem beatOnItsWay_arrives : (settleAll beatOnItsWay 0 629).bankQ.isEmpty = false := by decide +kernel

theorem beatOnItsWay_plays :
    (playBlocks beatOnItsWay (fun _ => true) (beatOnItsWay.clock.xstart + beatOnItsWay.n)).bankQ = (settleAll beatOnItsWay 0 629).bankQ := by
  have hst : beatOnItsWay.fld (fLogState 0) = 2 := by decide +kernel
  have hn : beatOnItsWay.n = 30 := by decide +kernel
  have hplay := playLogic_of_due (t := 630) hst (List.cons_ne_nil _ _) beatOnItsWay_runs (show (600 : Nat) < 630 by decide)
  rw [hn]
  exact (congrArg (fun p => p.1.bankQ) hplay :)

/-- Refutes O5: the block of `beatOnItsWay` plays up to cycle 630, and takes in the beat of cycle 610 first; the statement has a crossing start
leave the queue bank as it was. -/
theorem not_crossingStartCounts : ¬ Obligations.CrossingStartCounts := by
  intro h
  obtain ⟨t, hexec, -, -, -, -, -, -, -, -, -, -, hframe⟩ := h beatOnItsWay beatOnItsWay_runs
  have hsame : t.bankQ = beatOnItsWay.bankQ := (congrArg State.bankQ hframe :)
  have hmoved := (execCrossingStart_bankQ beatOnItsWay beatOnItsWay_runs hexec).trans beatOnItsWay_plays
  have harrives := beatOnItsWay_arrives
  rw [← hmoved, hsame] at harrives
  exact Bool.noConfusion harrives

end Sys2Proof.Machine

/-!
What the array at work leaves alone. The units, queues, links, lanes and their registers lie in one part of the state; the low registers, the
clock, the run, the pending table and the staged run's progress lie beside it. `sansLanes` leaves out the lanes alone, `sansUnits` the agents too,
`beside` the whole array, and one equation per operation says that the operation stays within what is left out.
-/
namespace Sys2Proof.Machine

/-! ### Register words below the arrays -/

/-- An address at or above the blocks of the waystation: of no block of the package itself. -/
def highAddr (a : Nat) : Prop := 0x21000 ≤ a

/-- A field of such a register. -/
def Fld.high (f : Fld) : Prop := highAddr f.addr

/-- The words of the registers below. -/
def lowRegs (m : SMap Word32) : SMap Word32 := m.filter (fun e => decide (e.1 < 0x21000))

theorem lowRegs_merase {a : Nat} (m : SMap Word32) (h : highAddr a) : lowRegs (merase m a) = lowRegs m := by
  rw [lowRegs, lowRegs, merase, List.filter_filter]
  refine List.filter_congr fun e _ => ?_
  unfold highAddr at h
  by_cases he : e.1 < 0x21000
  · have hne : e.1 ≠ a := by omega
    simp [he, hne]
  · simp [he]

theorem lowRegs_minsert {a : Nat} (m : SMap Word32) (v : Word32) (h : highAddr a) : lowRegs (minsert m a v) = lowRegs m := by
  have hout : decide (a < 0x21000) = false := decide_eq_false (Nat.not_lt.mpr h)
  induction m with
  | nil => simp [lowRegs, minsert, hout]
  | cons e r ih =>
    simp only [lowRegs] at ih ⊢
    rw [minsert]
    split
    · rw [List.filter_cons_of_neg (by simpa using hout)]
    · simp only [List.filter_cons, ih]

theorem lowRegs_mset {a : Nat} (d : Word32) (m : SMap Word32) (v : Word32) (h : highAddr a) : lowRegs (mset d m a v) = lowRegs m := by
  unfold mset
  split
  · exact lowRegs_merase m h
  · rw [lowRegs_minsert _ _ h, lowRegs_merase _ h]

theorem mget_lowRegs {a : Nat} (d : Word32) (m : SMap Word32) (h : a < 0x21000) : mget d (lowRegs m) a = mget d m a := by
  induction m with
  | nil => rfl
  | cons e r ih =>
    simp only [lowRegs] at ih ⊢
    by_cases he : e.1 < 0x21000
    · rw [List.filter_cons_of_pos (by simpa using he), mget, mget, ih]
    · have hne : e.1 ≠ a := by omega
      rw [List.filter_cons_of_neg (by simpa using he), mget, if_neg hne, ih]

/-! ### Parts of a state -/

/-- The state without the lanes, the waystation, and the register words of the arrays. -/
def State.sansLanes (s : State) : State := { s with regs := lowRegs s.regs, lanes := [], way := [] }

/-- The state without the agents, too. -/
def State.sansUnits (s : State) : State := { s.sansLanes with units := [], funs := [] }

/-- The state without the arrays: their queues, links, buses, regions and arbiters, what is staged for them, and what they have sent, too. -/
def State.beside (s : State) : State :=
  { s.sansUnits with
    staged := [], clusters := [], portQ := [], bankQ := [], steerQ := [], links := [], contribs := [], regions := [], memArb := []
    egressArb := [], txLinks := [], out := [], freeNext := 0 }

theorem State.sansUnits_of_sansLanes {s t : State} (h : t.sansLanes = s.sansLanes) : t.sansUnits = s.sansUnits := by
  rw [State.sansUnits, h, State.sansUnits]

theorem State.beside_of_sansUnits {s t : State} (h : t.sansUnits = s.sansUnits) : t.beside = s.beside := by
  rw [State.beside, h, State.beside]

theorem State.beside_of_sansLogic {s t : State} (h : t.sansLogic = s.sansLogic) : t.beside = s.beside :=
  (congrArg (fun p : State × (Nat → Cluster) => p.1.beside) h :)

theorem State.raw_of_beside {s t : State} {a : Nat} (h : t.beside = s.beside) (ha : a < 0x21000) : t.raw a = s.raw a := by
  have hregs : lowRegs t.regs = lowRegs s.regs := (congrArg State.regs h :)
  have hswap : t.baseSwap = s.baseSwap := (congrArg State.baseSwap h :)
  have hfuses : t.fuses = s.fuses := (congrArg State.fuses h :)
  rw [State.raw, State.raw, State.swapped, State.swapped, hswap, regReset_congr hfuses, ← mget_lowRegs _ t.regs ha, hregs,
    mget_lowRegs _ s.regs ha]

theorem State.fld_of_beside {s t : State} {f : Fld} (h : t.beside = s.beside) (ha : f.addr < 0x21000) : t.fld f = s.fld f := by
  rw [State.fld, State.fld, State.raw_of_beside h ha]

theorem State.kept_of_beside {s t : State} (h : t.beside = s.beside) :
    t.run = s.run ∧ t.memTiles = s.memTiles ∧ t.image = s.image ∧ t.fuses = s.fuses := by
  refine ⟨?_, ?_, ?_, ?_⟩
  · exact (congrArg State.run h :)
  · exact (congrArg State.memTiles h :)
  · exact (congrArg State.image h :)
  · exact (congrArg State.fuses h :)

theorem foldl_sansLanes {α : Type} (f : State → α → State) (hf : ∀ y a, (f y a).sansLanes = y.sansLanes) (l : List α) (s : State) :
    (l.foldl f s).sansLanes = s.sansLanes :=
  foldl_keeps (fun u : State => u.sansLanes = s.sansLanes) (fun y a hy => (hf y a).trans hy) rfl

theorem foldl_sansUnits {α : Type} (f : State → α → State) (hf : ∀ y a, (f y a).sansUnits = y.sansUnits) (l : List α) (s : State) :
    (l.foldl f s).sansUnits = s.sansUnits :=
  foldl_keeps (fun u : State => u.sansUnits = s.sansUnits) (fun y a hy => (hf y a).trans hy) rfl

theorem foldl_beside {α : Type} (f : State → α → State) (hf : ∀ y a, (f y a).beside = y.beside) (l : List α) (s : State) :
    (l.foldl f s).beside = s.beside :=
  foldl_keeps (fun u : State => u.beside = s.beside) (fun y a hy => (hf y a).trans hy) rfl

/-! ### Where the registers of the arrays lie -/

@[simp] theorem Fld.high_mk (a lo w : Nat) : Fld.high ⟨a, lo, w⟩ = highAddr a := rfl

@[simp] theorem highAddr_add {a : Nat} (h : highAddr a) (n : Nat) : highAddr (a + n) := Nat.le_trans h (Nat.le_add_right a n)

@[simp] theorem dieBase_high (d : Nat) : highAddr (dieBase d) := by
  unfold highAddr dieBase
  omega

@[simp] theorem siteBase_high (n : Nat) : highAddr (siteBase n) := by
  unfold highAddr siteBase
  omega

@[simp] theorem wayBase_high (n : Nat) : highAddr (wayBase n) := by
  unfold highAddr wayBase
  omega

@[simp] theorem regionBase_high (r : Nat) : highAddr (regionBase r) := by simp [regionBase]
@[simp] theorem clusterBase_high (k : Nat) : highAddr (clusterBase k) := by simp [clusterBase]
@[simp] theorem unitBase_high (g : Nat) : highAddr (unitBase g) := by simp [unitBase]
@[simp] theorem funBase_high (f : Nat) : highAddr (funBase f) := by simp [funBase]
@[simp] theorem steBase_high (k : Nat) : highAddr (steBase k) := by simp [steBase]
@[simp] theorem descBase_high (r i : Nat) : highAddr (descBase r i) := by simp [descBase]
@[simp] theorem rxBase_high (n j : Nat) : highAddr (rxBase n j) := by simp [rxBase]
@[simp] theorem txBase_high (n j : Nat) : highAddr (txBase n j) := by simp [txBase]
@[simp] theorem grpBase_high (n j : Nat) : highAddr (grpBase n j) := by simp [grpBase]
@[simp] theorem txmapBase_high (n j : Nat) : highAddr (txmapBase n j) := by simp [txmapBase]

@[simp] theorem qBase_high (q : QueueId) : highAddr (qBase q) := by cases q <;> simp [qBase]
@[simp] theorem aBase_high (a : Agent) : highAddr (aBase a) := by cases a <;> simp [aBase]

@[simp] theorem fHazCount_high (r n : Nat) : (fHazCount r n).high := by
  unfold fHazCount
  split <;> simp

@[simp] theorem hazardFields_high (r : Nat) :
    (fHazKind r).high ∧ (fHazValid r).high ∧ (fHazCluster r).high ∧ (fHazAgent r).high ∧ (fHazObject r).high ∧ (fHazCrossing r).high ∧
      (fHazCycle r).high ∧ (fHazPc r).high := by
  simp [fHazKind, fHazValid, fHazCluster, fHazAgent, fHazObject, fHazCrossing, fHazCycle, fHazPc]

@[simp] theorem queueFields_high (q : QueueId) :
    (fQMaxOcc q).high ∧ (fQOverrun q).high ∧ (fQOver q).high ∧ (fQBlocked q).high ∧ (fQDiscard q).high ∧ (fQCollide q).high ∧
      (fQUnderrun q).high ∧ (fQUnder q).high ∧ (fQCfgErr q).high := by
  unfold fQMaxOcc fQOverrun fQOver fQBlocked fQDiscard fQCollide fQUnderrun fQUnder fQCfgErr
  by_cases h : isBank q = true <;> simp [h]

@[simp] theorem agentFields_high (a : Agent) : (fRunning a).high ∧ (fStarved a).high ∧ (fBlocked a).high := by
  simp [fRunning, fStarved, fBlocked]

@[simp] theorem arrayFields_high (k : Nat) :
    (fSatCnt k).high ∧ (fBusCollide k).high ∧ (fUntaken k).high ∧ (fBusLost k).high ∧ (fOutPort k).high ∧ (fFunSat k).high ∧ (fTblUe k).high ∧
      (fRange k).high ∧ (fOutCollide k).high ∧ (fUnconnected k).high ∧ (fStale k).high := by
  simp [fSatCnt, fBusCollide, fUntaken, fBusLost, fOutPort, fFunSat, fTblUe, fRange, fOutCollide, fUnconnected, fStale]

@[simp] theorem fWayTrained_high (n : Nat) : (fWayTrained n).high := by simp [fWayTrained]

@[simp] theorem laneFields_high (n j : Nat) :
    (fTxOverrun n j).high ∧ (fTxDrop n j).high ∧ (fTxDropBuf n j).high ∧ (fRetrains n j).high ∧ (fFrameErr n j).high ∧ (fGrpUp n j).high := by
  simp [fTxOverrun, fTxDrop, fTxDropBuf, fRetrains, fFrameErr, fGrpUp]

@[simp] theorem laneSideFields_high (n j : Nat) (tx : Bool) : (fLaneState n j tx).high ∧ (laneCfgErr n j tx).high := by
  unfold fLaneState laneCfgErr
  cases tx <;> simp [fTxState, fTxCfgErr, fRxCfgErr]

/-! ### Writes of registers and parts -/

section
variable (s : State)

theorem State.setRaw_sansLanes {a : Nat} (h : highAddr a) (v : Word32) : (s.setRaw a v).sansLanes = s.sansLanes := by
  have hregs : lowRegs (s.setRaw a v).regs = lowRegs s.regs := lowRegs_mset _ _ _ h
  show ({ s with regs := lowRegs (s.setRaw a v).regs, lanes := [], way := [] } : State) = s.sansLanes
  rw [hregs]
  rfl

@[simp] theorem State.setFld_sansLanes {f : Fld} (h : f.high) (v : Nat) : (s.setFld f v).sansLanes = s.sansLanes := s.setRaw_sansLanes h _
@[simp] theorem State.bump_sansLanes {f : Fld} (h : f.high) (n : Nat) : (s.bump f n).sansLanes = s.sansLanes := s.setFld_sansLanes h _
@[simp] theorem State.mark_sansLanes {f : Fld} (h : f.high) : (s.mark f).sansLanes = s.sansLanes := s.setFld_sansLanes h _
@[simp] theorem State.setWay_sansLanes (n : Nat) (w : WayLane) : (s.setWay n w).sansLanes = s.sansLanes := (rfl)
@[simp] theorem State.setLane_sansLanes (n j : Nat) (tx : Bool) (v : LaneSt) : (s.setLane n j tx v).sansLanes = s.sansLanes := (rfl)

@[simp] theorem State.setFld_sansUnits {f : Fld} (h : f.high) (v : Nat) : (s.setFld f v).sansUnits = s.sansUnits :=
  State.sansUnits_of_sansLanes (s.setFld_sansLanes h v)
@[simp] theorem State.bump_sansUnits {f : Fld} (h : f.high) (n : Nat) : (s.bump f n).sansUnits = s.sansUnits := s.setFld_sansUnits h _
@[simp] theorem State.setUnit_sansUnits (g : Nat) (u : DotUnit) : (s.setUnit g u).sansUnits = s.sansUnits := (rfl)
@[simp] theorem State.setFun_sansUnits (f : Nat) (u : FunUnit) : (s.setFun f u).sansUnits = s.sansUnits := (rfl)

@[simp] theorem State.setPlay_sansUnits (a : Agent) (p : Play) : (s.setPlay a p).sansUnits = s.sansUnits := by
  cases a <;> rfl

@[simp] theorem State.setRaw_beside {a : Nat} (h : highAddr a) (v : Word32) : (s.setRaw a v).beside = s.beside :=
  State.beside_of_sansUnits (State.sansUnits_of_sansLanes (s.setRaw_sansLanes h v))
@[simp] theorem State.setFld_beside {f : Fld} (h : f.high) (v : Nat) : (s.setFld f v).beside = s.beside := s.setRaw_beside h _
@[simp] theorem State.bump_beside {f : Fld} (h : f.high) (n : Nat) : (s.bump f n).beside = s.beside := s.setFld_beside h _
@[simp] theorem State.mark_beside {f : Fld} (h : f.high) : (s.mark f).beside = s.beside := s.setFld_beside h _

@[simp] theorem State.raise_beside {f : Fld} (h : f.high) (v : Nat) : (s.raise f v).beside = s.beside := by
  unfold State.raise
  split
  · exact s.setFld_beside h v
  · rfl

@[simp] theorem State.setUnit_beside (g : Nat) (u : DotUnit) : (s.setUnit g u).beside = s.beside := (rfl)
@[simp] theorem State.setFun_beside (f : Nat) (u : FunUnit) : (s.setFun f u).beside = s.beside := (rfl)
@[simp] theorem State.setPlay_beside (a : Agent) (p : Play) : (s.setPlay a p).beside = s.beside := by cases a <;> rfl
@[simp] theorem State.setCluster_beside (k : Nat) (c : Cluster) : (s.setCluster k c).beside = s.beside := (rfl)
@[simp] theorem State.setRegion_beside (r : Nat) (v : Region) : (s.setRegion r v).beside = s.beside := (rfl)
@[simp] theorem State.setQueue_beside (q : QueueId) (v : Queue) : (s.setQueue q v).beside = s.beside := by cases q <;> rfl
@[simp] theorem State.setLane_beside (n j : Nat) (tx : Bool) (v : LaneSt) : (s.setLane n j tx v).beside = s.beside := (rfl)
@[simp] theorem State.setTxLink_beside (n k : Nat) (v : TxLink) : (s.setTxLink n k v).beside = s.beside := (rfl)
@[simp] theorem State.setSteer_beside (k : Nat) (v : Steer) : (s.setSteer k v).beside = s.beside := (rfl)
@[simp] theorem State.setLogic_beside (k : Nat) (v : Logic) : (s.setLogic k v).beside = s.beside := (rfl)
@[simp] theorem State.drawn_beside : s.drawn.beside = s.beside := (rfl)
@[simp] theorem State.send_beside (o : Out) : (s.send o).beside = s.beside := (rfl)
@[simp] theorem State.links_beside (l : List LinkBeat) : ({ s with links := l } : State).beside = s.beside := (rfl)
@[simp] theorem State.contribs_beside (l : List Contribution) : ({ s with contribs := l } : State).beside = s.beside := (rfl)
@[simp] theorem State.regions_beside (m : SMap Region) : ({ s with regions := m } : State).beside = s.beside := (rfl)

end

end Sys2Proof.Machine

/-!
How a run ends (02 R43): what the agents and lanes do at its end stays in their own part of the state.
-/
namespace Sys2Proof.Machine

section
variable (s : State)

/-! ### The agents -/

@[simp] theorem chargeWait_sansUnits (a : Agent) : (chargeWait s a).sansUnits = s.sansUnits := by
  unfold chargeWait
  dsimp only
  split <;> simp

@[simp] theorem stopAgent_sansUnits (a : Agent) : (stopAgent s a).sansUnits = s.sansUnits := by simp [stopAgent]

@[simp] theorem chargeWaits_sansUnits : (chargeWaits s).sansUnits = s.sansUnits :=
  (foldl_sansUnits _ (fun y _ => chargeWait_sansUnits y _) _ _).trans (foldl_sansUnits _ (fun y _ => chargeWait_sansUnits y _) _ s)

@[simp] theorem stopStaged_sansUnits : (stopStaged s).sansUnits = s.sansUnits := by
  unfold stopStaged
  split
  · exact (foldl_sansUnits _ (fun y _ => stopAgent_sansUnits y _) _ _).trans
      ((foldl_sansUnits _ (fun y _ => stopAgent_sansUnits y _) _ _).trans (chargeWaits_sansUnits s))
  · rfl

/-! ### The lanes -/

section
variable (site lane : Nat)

@[simp] theorem setLaneState_sansLanes (tx : Bool) (v : Nat) : (setLaneState s site lane tx v).sansLanes = s.sansLanes := by
  unfold setLaneState
  dsimp only
  split <;> simp

@[simp] theorem noteGroup_sansLanes : (noteGroup s site lane).sansLanes = s.sansLanes := by
  unfold noteGroup
  dsimp only
  split <;> simp

@[simp] theorem breakFrame_sansLanes : (breakFrame s site lane).sansLanes = s.sansLanes := by
  unfold breakFrame
  dsimp only
  split <;> simp

@[simp] theorem voidMeasure_sansLanes : (voidMeasure s site lane).sansLanes = s.sansLanes := by
  unfold voidMeasure
  dsimp only
  split <;> simp

@[simp] theorem cutLane_sansLanes (tx : Bool) : (cutLane s site lane tx).sansLanes = s.sansLanes := by
  unfold cutLane
  split <;> simp

@[simp] theorem beginTraining_sansLanes (tx : Bool) : (beginTraining s site lane tx).sansLanes = s.sansLanes := by
  unfold beginTraining
  dsimp only
  repeat' split
  all_goals simp

@[simp] theorem retrain_sansLanes (tx : Bool) : (retrain s site lane tx).sansLanes = s.sansLanes := by
  unfold retrain
  dsimp only
  split
  · rfl
  · split
    · rw [noteGroup_sansLanes, cutLane_sansLanes]
      split <;> simp
    · split <;> simp

end

@[simp] theorem loosenLanes_sansLanes (before : State) : (loosenLanes before s).sansLanes = s.sansLanes := by
  refine foldl_sansLanes _ (fun y p => ?_) _ s
  dsimp only
  split <;> simp

end

/-! ### The end of a run -/

/-- The state with the run over and the staged run's progress ended, and of the pending commands those that no DISARM entered. -/
def State.runOver (s : State) : State :=
  { s.setFld fArmed 0 with
    run := { s.run with started := false, forced := none, restart := false, step0Stop := none }
    stage := { s.stage with running := false, sysWait := false }
    pendTable := s.pendTable.filter (fun e => e.disarm.isNone) }

section
variable (s : State)

theorem endRun_sansUnits : (endRun s).sansUnits = (stopStaged (finishDisarm s)).runOver.sansUnits :=
  State.sansUnits_of_sansLanes (loosenLanes_sansLanes (stopStaged (finishDisarm s)).runOver (stopStaged (finishDisarm s)))

/-- The parts of the package that no agent, lane or barrier holds. -/
theorem State.parts_of_sansUnits {s t : State} (h : t.sansUnits = s.sansUnits) :
    t.clock = s.clock ∧ t.clusters = s.clusters ∧ t.portQ = s.portQ ∧ t.bankQ = s.bankQ ∧ t.steerQ = s.steerQ ∧ t.links = s.links ∧
      t.contribs = s.contribs ∧ t.vas = s.vas ∧ t.memTiles = s.memTiles ∧ t.image = s.image ∧ t.fuses = s.fuses := by
  refine ⟨?_, ?_, ?_, ?_, ?_, ?_, ?_, ?_, ?_, ?_, ?_⟩
  · exact (congrArg State.clock h :)
  · exact (congrArg State.clusters h :)
  · exact (congrArg State.portQ h :)
  · exact (congrArg State.bankQ h :)
  · exact (congrArg State.steerQ h :)
  · exact (congrArg State.links h :)
  · exact (congrArg State.contribs h :)
  · exact (congrArg State.vas h :)
  · exact (congrArg State.memTiles h :)
  · exact (congrArg State.image h :)
  · exact (congrArg State.fuses h :)

theorem State.runOver_parts :
    s.runOver.clock = s.clock ∧ s.runOver.clusters = s.clusters ∧ s.runOver.portQ = s.portQ ∧ s.runOver.bankQ = s.bankQ ∧
      s.runOver.steerQ = s.steerQ ∧ s.runOver.links = s.links ∧ s.runOver.contribs = s.contribs ∧ s.runOver.vas = s.vas ∧
      s.runOver.memTiles = s.memTiles ∧ s.runOver.image = s.image ∧ s.runOver.fuses = s.fuses := ⟨rfl, rfl, rfl, rfl, rfl, rfl, rfl, rfl, rfl, rfl, rfl⟩

theorem finishDisarm_parts :
    (finishDisarm s).clock = s.clock ∧ (finishDisarm s).clusters = s.clusters ∧ (finishDisarm s).portQ = s.portQ ∧
      (finishDisarm s).bankQ = s.bankQ ∧ (finishDisarm s).steerQ = s.steerQ ∧ (finishDisarm s).links = s.links ∧
      (finishDisarm s).contribs = s.contribs ∧ (finishDisarm s).vas = s.vas ∧ (finishDisarm s).memTiles = s.memTiles ∧
      (finishDisarm s).image = s.image ∧ (finishDisarm s).fuses = s.fuses := ⟨rfl, rfl, rfl, rfl, rfl, rfl, rfl, rfl, rfl, rfl, rfl⟩

theorem endRun_frame :
    (endRun s).clock = s.clock ∧ (endRun s).clusters = s.clusters ∧ (endRun s).portQ = s.portQ ∧ (endRun s).bankQ = s.bankQ ∧
      (endRun s).steerQ = s.steerQ ∧ (endRun s).links = s.links ∧ (endRun s).contribs = s.contribs ∧ (endRun s).vas = s.vas ∧
      (endRun s).memTiles = s.memTiles ∧ (endRun s).image = s.image ∧ (endRun s).fuses = s.fuses := by
  have hend := State.parts_of_sansUnits (endRun_sansUnits s)
  have hstop := State.parts_of_sansUnits (stopStaged_sansUnits (finishDisarm s))
  have hover := (stopStaged (finishDisarm s)).runOver_parts
  simpa only [hover, hstop, finishDisarm_parts] using hend

theorem State.runOver_run : s.runOver.run = { s.run with started := false, forced := none, restart := false, step0Stop := none } := rfl

theorem finishDisarm_run : (finishDisarm s).run = s.run := rfl

theorem endRun_run : (endRun s).run = { s.run with started := false, forced := none, restart := false, step0Stop := none } := by
  obtain ⟨hend, -⟩ := State.kept_of_beside (State.beside_of_sansUnits (endRun_sansUnits s))
  obtain ⟨hstop, -⟩ := State.kept_of_beside (State.beside_of_sansUnits (stopStaged_sansUnits (finishDisarm s)))
  rw [hend, State.runOver_run, hstop, finishDisarm_run]

theorem endRun_stage_running : (endRun s).stage.running = false := (congrArg (fun u : State => u.stage.running) (endRun_sansUnits s) :)

/-- The registers of the package keep their values at the end of a run, but for ARMED. -/
theorem endRun_fld {f : Fld} (ha : f.addr < 0x21000) (hf : f.lo + f.w ≤ 32) (hsep : fArmed.apart f) : (endRun s).fld f = s.fld f :=
  calc (endRun s).fld f = (stopStaged (finishDisarm s)).runOver.fld f := State.fld_of_beside (State.beside_of_sansUnits (endRun_sansUnits s)) ha
    _ = ((stopStaged (finishDisarm s)).setFld fArmed 0).fld f := rfl
    _ = (stopStaged (finishDisarm s)).fld f := State.fld_setFld_other _ _ _ _ hf hsep
    _ = (finishDisarm s).fld f := State.fld_of_beside (State.beside_of_sansUnits (stopStaged_sansUnits (finishDisarm s))) ha
    _ = s.fld f := rfl

theorem endRun_armed : (endRun s).is fArmed = false := by
  have hfld : (endRun s).fld fArmed = 0 :=
    calc (endRun s).fld fArmed = (stopStaged (finishDisarm s)).runOver.fld fArmed :=
          State.fld_of_beside (State.beside_of_sansUnits (endRun_sansUnits s)) (by decide)
      _ = ((stopStaged (finishDisarm s)).setFld fArmed 0).fld fArmed := rfl
      _ = 0 := State.fld_setFld _ _ _ (by decide)
  rw [State.is, hfld]
  rfl

end

/-- RUN_STOPPED_LAST_VERDICT once it is due. -/
theorem execRunStoppedLastVerdict_of_due {s : State} {p : Nat} (hstarted : s.run.started = true) (hstop : s.run.stop = some p)
    (hlate : p + latencyL s ≤ s.clock.xseq + 1) (hsent : verdictsSent s p = true) :
    execRunStoppedLastVerdict s = .next (endRun (tidyWay { s with way := mmap {} stopWay s.way })) := by
  simp only [execRunStoppedLastVerdict, hstop]
  rw [if_pos (by simp [hstarted, hlate, hsent])]

end Sys2Proof.Machine

/-!
What settles in the array stays in the array: one equation per operation of queues, links, buses and function units, over the part of the state
that lies beside it (`State.beside`).
-/
namespace Sys2Proof.Machine

section
variable (s : State)

/-! ### Hazards and queues -/

@[simp] theorem hazard_beside (kind : Nat) (who : Who) (object t : Nat) : (hazard s kind who object t).beside = s.beside := by
  unfold hazard
  dsimp only
  split
  · split <;> simp
  · rfl

section
variable (q : QueueId)

@[simp] theorem giveCredits_beside (n t : Nat) : (giveCredits s q n t).beside = s.beside := by
  unfold giveCredits
  dsimp only
  split <;> simp

@[simp] theorem noteOcc_beside (t : Nat) : (noteOcc s q t).beside = s.beside := by
  unfold noteOcc
  dsimp only
  split
  · split <;> simp
  · rfl

@[simp] theorem noteOver_beside (t : Nat) : (noteOver s q t).beside = s.beside := by
  unfold noteOver
  split
  · split <;> simp
  · rfl

@[simp] theorem noteQueue_beside (t : Nat) : (noteQueue s q t).beside = s.beside := by simp [noteQueue]

@[simp] theorem noteQueues_beside (p : QueueId → Bool) (t : Nat) : (noteQueues s p t).beside = s.beside :=
  foldl_beside _ (fun y q => noteQueue_beside y q t) _ s

@[simp] theorem chargeQueue_beside (t : Nat) : (chargeQueue s q t).beside = s.beside := by
  unfold chargeQueue
  dsimp only
  split
  · rw [State.setQueue_beside, State.bump_beside _ (by simp)]
    split <;> simp
  · split <;> simp

@[simp] theorem noteWait_beside (t : Nat) : (noteWait s q t).beside = s.beside := by
  unfold noteWait
  split <;> simp

@[simp] theorem writeQueue_beside (b : Beat) (who : Who) (t : Nat) : (writeQueue s q b who t).beside = s.beside := by
  unfold writeQueue
  dsimp only
  split
  · simp
  · split <;> simp

@[simp] theorem spendCredit_beside : (spendCredit s q).beside = s.beside := by
  unfold spendCredit
  split <;> simp

@[simp] theorem takeOver_beside (t : Nat) : (takeOver s q t).beside = s.beside := by
  unfold takeOver
  dsimp only
  split
  · split <;> simp
  · rfl

@[simp] theorem underRead_beside (who : Who) (t : Nat) : (underRead s q who t).beside = s.beside := by simp [underRead]

@[simp] theorem lostRead_beside (who : Who) (t : Nat) : (lostRead s q who t).beside = s.beside := by simp [lostRead]

@[simp] theorem readQueue_beside (pop : Bool) (who : Who) (t : Nat) : (readQueue s q pop who t).2.2.beside = s.beside := by
  unfold readQueue
  dsimp only
  split
  · simp
  · split
    · split <;> simp
    · simp

@[simp] theorem purgeQueue_beside : (purgeQueue s q).beside = s.beside := by simp [purgeQueue]

end

/-! ### Links and arrivals -/

@[simp] theorem setBuf_beside (site k : Nat) (t : TileBuf) (l : List Beat) : (setBuf s site k t l).beside = s.beside := by
  cases t <;> simp [setBuf]

@[simp] theorem tileSend_beside (g site k : Nat) (b : Beat) : (tileSend s g site k b).beside = s.beside := by
  unfold tileSend
  split
  · simp
  · split
    · simp
    · split <;> simp

@[simp] theorem sendArrival_beside (k : Nat) (q : QueueId) (due writer : Nat) (b : Beat) : (sendArrival s k q due writer b).beside = s.beside := by
  simp [sendArrival]

section
variable (g o : Nat) (b : Beat) (epoch : Bool)

@[simp] theorem launch_beside (t : Nat) : (launch s g o b epoch t).beside = s.beside := by
  unfold launch
  split
  · simp
  · split
    · exact s.links_beside _
    · simp

@[simp] theorem relaunch_beside (took : Bool) (t : Nat) : (relaunch s g o b epoch took t).beside = s.beside := by
  unfold relaunch
  dsimp only
  split
  · simp
  · rw [launch_beside]
    exact s.links_beside _
  · split <;> simp

@[simp] theorem sendBeat_beside (rank t pc : Nat) : (sendBeat s g o b epoch rank t pc).beside = s.beside := by
  unfold sendBeat
  dsimp only
  split
  · simp
  · split <;> simp

end

@[simp] theorem deliver_beside (l : LinkBeat) : (deliver s l).beside = s.beside := by
  unfold deliver
  dsimp only
  repeat' split
  all_goals simp

@[simp] theorem settleBeats_beside (p : LinkBeat → Bool) (fuel : Nat) : (settleBeats s p fuel).beside = s.beside := by
  induction fuel generalizing s with
  | zero => rfl
  | succ fuel ih =>
    rw [settleBeats]
    split
    · rfl
    · rw [ih, deliver_beside]
      exact s.links_beside _

@[simp] theorem settlePorts_beside (g : Nat) (ps : List Nat) (bound : Nat) : (settlePorts s g ps bound).beside = s.beside :=
  settleBeats_beside s _ _

@[simp] theorem settlePass_beside (fuel g o t : Nat) : (settlePass s fuel g o t).beside = s.beside := by
  induction fuel generalizing s g o t with
  | zero => rfl
  | succ fuel ih =>
    rw [settlePass]
    split
    · rfl
    · split
      · rfl
      · rw [settlePorts_beside]
        refine foldl_beside _ (fun y p => ?_) _ s
        split
        · exact ih y _ _ _
        · rfl

@[simp] theorem settlePort_beside (g p bound : Nat) : (settlePort s g p bound).beside = s.beside := by
  unfold settlePort
  dsimp only
  rw [settlePorts_beside]
  split <;> simp

@[simp] theorem settleLinks_beside (bound fuel : Nat) : (settleLinks s bound fuel).beside = s.beside := settleBeats_beside s _ _

@[simp] theorem noteHead_beside (a : QueueArrival) (wasEmpty : Bool) : (noteHead s a wasEmpty).beside = s.beside := by
  unfold noteHead
  split
  · split <;> simp
  · rfl

theorem landOne_beside (p : State × List (QueueId × Nat)) (a : QueueArrival) : (landOne p a).1.beside = p.1.beside := by
  unfold landOne
  dsimp only
  split <;> simp

/-- A fold over a state and what it gathers leaves alone what each of its steps does. -/
theorem foldl_fst_beside {α β : Type} (f : State × β → α → State × β) (hf : ∀ p a, (f p a).1.beside = p.1.beside) (l : List α) (p : State × β) :
    (l.foldl f p).1.beside = p.1.beside :=
  foldl_keeps (fun u : State × β => u.1.beside = p.1.beside) (fun y a hy => (hf y a).trans hy) rfl

@[simp] theorem settleCluster_beside (k bound : Nat) : (settleCluster s k bound).beside = s.beside :=
  foldl_fst_beside _ landOne_beside _ _

@[simp] theorem settleQueue_beside (q : QueueId) (bound : Nat) : (settleQueue s q bound).beside = s.beside := by
  cases q <;> simp [settleQueue]

@[simp] theorem readAt_beside (q : QueueId) (pop : Bool) (who : Who) (t : Nat) : (readAt s q pop who t).2.2.beside = s.beside := by
  simp [readAt]

@[simp] theorem readRanked_beside (q : QueueId) (behind : Bool) (who : Who) (t : Nat) : (readRanked s q behind who t).2.2.beside = s.beside := by
  unfold readRanked
  dsimp only
  split <;> simp

/-! ### Banks and the sum bus -/

@[simp] theorem settleUnit_beside (g bound : Nat) : (settleUnit s g bound).beside = s.beside := by
  unfold settleUnit
  dsimp only
  split <;> simp

@[simp] theorem enterBuffer_beside (f : Nat) (r : BusRow) : (enterBuffer s f r).beside = s.beside := by
  unfold enterBuffer
  dsimp only
  split <;> simp

theorem passRow_beside (k : Nat) (p : State × List BusRow) (r : BusRow) : (passRow k p r).1.beside = p.1.beside := by
  unfold passRow
  split
  · simp
  · split <;> simp

@[simp] theorem settleBus_beside (k bound : Nat) : (settleBus s k bound).beside = s.beside := by
  unfold settleBus
  dsimp only
  rw [State.setCluster_beside]
  exact foldl_fst_beside _ (passRow_beside k) _ _

@[simp] theorem settleBusAt_beside (k c : Nat) (dests : List Nat) : (settleBusAt s k c dests).beside = s.beside := by
  unfold settleBusAt
  dsimp only
  refine (foldl_beside _ (fun y r => enterBuffer_beside y _ r) _ _).trans ?_
  simp

@[simp] theorem placeRow_beside (k : Nat) (r : BusRow) : (placeRow s k r).beside = s.beside := by
  unfold placeRow
  dsimp only
  split
  · simp
  · split <;> simp

/-! ### Function units -/

section
variable (f : Nat) (o : FunOp)

@[simp] theorem pushBeat_beside (p : Nat × Beat) : (pushBeat f o s p).beside = s.beside := by
  unfold pushBeat
  dsimp only
  split
  · rfl
  · repeat' split
    all_goals simp

@[simp] theorem streamNow_beside (flush : Bool) : (streamNow s f o flush).beside = s.beside := by
  unfold streamNow
  dsimp only
  rw [State.setFun_beside]
  exact foldl_beside _ (fun y j => pushBeat_beside y f o _) _ s

@[simp] theorem contribute_beside (out : FOut) : (contribute s f o out).beside = s.beside := by
  unfold contribute
  dsimp only
  split
  · rfl
  · exact s.contribs_beside _

@[simp] theorem placeReduce_beside (out : FOut) : (placeReduce s f o out).beside = s.beside := by
  unfold placeReduce
  dsimp only
  split
  · rfl
  · rw [placeRow_beside]
    repeat' split
    all_goals simp

theorem State.freeNext_beside (n : Nat) : ({ s with freeNext := n } : State).beside = s.beside := rfl

@[simp] theorem finishOp_beside : (finishOp s f o).beside = s.beside := by
  unfold finishOp
  dsimp only
  rw [State.freeNext_beside, State.setFun_beside, State.bump_beside _ (by simp), State.bump_beside _ (by simp), State.bump_beside _ (by simp),
    placeReduce_beside, contribute_beside]
  split
  · rfl
  · exact foldl_beside _ (fun y p => pushBeat_beside y f o p) _ s

@[simp] theorem readySource_beside (src : Src) (c : Nat) : (readySource s f src c).beside = s.beside := by
  unfold readySource
  dsimp only
  split
  · simp
  · rfl
  · split <;> simp

@[simp] theorem takeItem_beside (src : Src) (c : Nat) : (takeItem s f src c).2.beside = s.beside := by
  unfold takeItem
  dsimp only
  repeat' split
  all_goals simp

@[simp] theorem takeStep_beside (t : Take) (c : Nat) : (takeStep s f o t c).beside = s.beside := by
  unfold takeStep
  dsimp only
  repeat' split
  all_goals simp

end

@[simp] theorem runTakes_beside (k bound fuel : Nat) : (runTakes s k bound fuel).beside = s.beside := by
  induction fuel generalizing s with
  | zero => rfl
  | succ fuel ih =>
    rw [runTakes]
    dsimp only
    repeat' split
    all_goals simp [ih]

@[simp] theorem settleFuns_beside (k bound : Nat) : (settleFuns s k bound).beside = s.beside := runTakes_beside s _ _ _

@[simp] theorem settleAll_beside (k bound : Nat) : (settleAll s k bound).beside = s.beside := by simp [settleAll]

/-! ### Steering maps and logic blocks -/

@[simp] theorem takeMap_beside (k : Nat) (m0 m1 : Word32) : (takeMap s k m0 m1).beside = s.beside := by simp [takeMap]

@[simp] theorem showPads_beside (p : Nat → Bool) : (showPads s p).beside = s.beside := State.beside_of_sansLogic (showPads_sansLogic s p)

@[simp] theorem playLogic_beside (k t : Nat) : (playLogic s k t).beside = s.beside := by
  unfold playLogic
  dsimp only
  split
  · rfl
  · split
    · exact State.beside_of_sansLogic (playStopped_sansLogic s k)
    · split
      · rfl
      · rw [showPads_beside, State.setLogic_beside, State.drawn_beside]
        exact (foldl_beside _ (fun y i => State.beside_of_sansLogic (playEdge_sansLogic y k _ _)) _ _).trans (settleAll_beside s k _)

@[simp] theorem playBlocks_beside (p : Nat → Bool) (t : Nat) : (playBlocks s p t).beside = s.beside :=
  foldl_beside _ (fun y k => playLogic_beside y k t) _ s

/-! ### What a stop does first -/

@[simp] theorem landDue_beside (t : Nat) : (landDue s t).beside = s.beside := by
  unfold landDue
  dsimp only
  refine (foldl_beside _ (fun y e => settleUnit_beside y _ t) _ _).trans ?_
  refine (foldl_beside _ (fun y e => (settleBus_beside _ _ t).trans (settleCluster_beside y _ t)) _ _).trans ?_
  exact (foldl_beside _ (fun y e => settleFuns_beside y _ t) _ _).trans (settleLinks_beside s t _)

@[simp] theorem haltAgents_beside : (haltAgents s).beside = s.beside := by
  have hcharged : (chargeWaits (landDue s (s.clock.now - 1))).beside = s.beside :=
    (State.beside_of_sansUnits (chargeWaits_sansUnits _)).trans (landDue_beside s _)
  unfold haltAgents
  dsimp only
  refine (foldl_beside _ (fun y e => ?_) _ _).trans ((foldl_beside _ (fun y e => ?_) _ _).trans hcharged)
  · simp
  · simp

@[simp] theorem haltClusters_beside : (haltClusters s).beside = s.beside := by
  refine foldl_beside _ (fun y e => ?_) _ s
  dsimp only
  split <;> simp

end

end Sys2Proof.Machine

/-!
What a step of a staged run opens with (10 R268): commits, cache invalidations and arming stay in the array.
-/
namespace Sys2Proof.Machine

section
variable (s : State)

/-! ### Commits -/

@[simp] theorem unstage_beside (a : Nat) : (unstage s a).beside = s.beside := (rfl)

theorem takeStaged_beside {a : Nat} (h : highAddr a) : (takeStaged s a).beside = s.beside := by
  unfold takeStaged
  split
  · rfl
  · rw [State.setRaw_beside _ h, unstage_beside]

@[simp] theorem loadCredits_beside (q : QueueId) : (loadCredits s q).beside = s.beside := by simp [loadCredits]

@[simp] theorem commitFields_high (r : Nat) : (fCommitRefused r).high ∧ (fCommitPending r).high ∧ (fCommitCrossing r).high := by
  simp [fCommitRefused, fCommitPending, fCommitCrossing]

theorem formatAddrs_high {g a : Nat} (h : a ∈ formatAddrs g) : highAddr a := by
  simp only [formatAddrs, List.mem_cons, List.not_mem_nil, or_false] at h
  rcases h with rfl | rfl | rfl | rfl | rfl <;> simp

/-- Staged values of the array's registers take effect within the array. -/
theorem foldl_takeStaged_beside {l : List Nat} (h : ∀ a ∈ l, highAddr a) : (l.foldl takeStaged s).beside = s.beside := by
  induction l generalizing s with
  | nil => rfl
  | cons a r ih =>
    rw [List.foldl_cons, ih _ (fun b hb => h b (.tail _ hb)), takeStaged_beside s (h a (.head _))]

theorem foldl_unstage_beside (l : List Nat) : (l.foldl unstage s).beside = s.beside := foldl_beside _ (fun y a => unstage_beside y a) l s

@[simp] theorem commitFormat_beside (g : Nat) : (commitFormat s g).beside = s.beside := by
  unfold commitFormat
  dsimp only
  split
  · rfl
  · split
    · rw [State.mark_beside _ (by simp), foldl_unstage_beside]
    · exact foldl_takeStaged_beside s (fun a ha => formatAddrs_high ha)

@[simp] theorem commitMode_beside (q : QueueId) : (commitMode s q).beside = s.beside := by
  unfold commitMode
  split
  · rfl
  · split
    · simp
    · rw [loadCredits_beside, takeStaged_beside _ (by simp), settleQueue_beside]

@[simp] theorem commitUnit_beside (g : Nat) : (commitUnit s g).beside = s.beside := by
  refine (foldl_beside _ (fun y p => commitMode_beside y _) _ _).trans ?_
  rw [takeStaged_beside _ (by simp), commitFormat_beside]

@[simp] theorem bankAddr_high (k q : Nat) : highAddr (bankAddr k q) := by simp [bankAddr]

@[simp] theorem commitQueue_beside (k q : Nat) (x : QSet) : (commitQueue s k q x).beside = s.beside := by
  have htaken : (takeStaged (takeStaged s (bankAddr k q)) (bankAddr k q + 0x18)).beside = s.beside := by
    rw [takeStaged_beside _ (by simp), takeStaged_beside _ (by simp)]
  unfold commitQueue
  dsimp only
  split
  · rfl
  · split
    · simp
    · split <;> simp [htaken]

@[simp] theorem commitBank_beside (k : Nat) : (commitBank s k).beside = s.beside := foldl_beside _ (fun y q => commitQueue_beside y k q _) _ s

@[simp] theorem commitMap_beside (k : Nat) (m0 m1 : Word32) : (commitMap s k m0 m1).beside = s.beside := by
  unfold commitMap
  dsimp only
  split <;> simp

@[simp] theorem commitSteer_beside (k : Nat) : (commitSteer s k).beside = s.beside := by
  unfold commitSteer
  dsimp only
  split
  · rfl
  · split <;> simp

@[simp] theorem commitCluster_beside (k : Nat) : (commitCluster s k).beside = s.beside := by
  unfold commitCluster
  dsimp only
  rw [commitSteer_beside]
  refine (foldl_beside _ (fun y i => commitMode_beside y _) _ _).trans ((foldl_beside _ (fun y u => commitUnit_beside y _) _ _).trans ?_)
  split <;> simp

@[simp] theorem rgnClk_high (r : Nat) : highAddr (rgnClk r) := by simp [rgnClk]
@[simp] theorem rgnPll_high (r i : Nat) : highAddr (rgnPll r i) := by simp [rgnPll]

@[simp] theorem commitPll_beside (r i : Nat) : (commitPll s r i).beside = s.beside := by
  have htaken : (takeStaged s (rgnPll r i)).beside = s.beside := takeStaged_beside s (by simp)
  unfold commitPll
  dsimp only
  split
  · rfl
  · split
    · exact htaken
    · rw [State.setFld_beside _ (by simp), State.setFld_beside _ (by simp), htaken]

@[simp] theorem switchTrees_beside (old : State) (r : Nat) : (switchTrees old s r).beside = s.beside :=
  foldl_beside _ (fun y _ => by rw [State.drawn_beside, State.setRegion_beside]) _ s

@[simp] theorem commitClocks_beside (r : Nat) : (commitClocks s r).beside = s.beside := by
  unfold commitClocks
  dsimp only
  split
  · rfl
  · split
    · rw [State.mark_beside _ (by simp)]
      exact foldl_unstage_beside s _
    · simp [takeStaged_beside]

@[simp] theorem finishCommit_beside (r : Nat) : (finishCommit s r).beside = s.beside := by
  have hregion : (commitRegion s r).beside = s.beside := by
    unfold commitRegion
    dsimp only
    rw [State.setFld_beside _ (by simp), commitClocks_beside]
    exact foldl_beside _ (fun y c => commitCluster_beside y _) _ s
  simp [finishCommit, hregion]

@[simp] theorem commitWaiting_beside : (commitWaiting s).beside = s.beside := by
  refine foldl_beside _ (fun y e => ?_) _ s
  split <;> simp

/-! ### Caches and descriptors -/

@[simp] theorem fInvBusy_high (r : Nat) : (fInvBusy r).high := by simp [fInvBusy]

@[simp] theorem invalidateCache_beside (r : Nat) : (invalidateCache s r).beside = s.beside := by simp [invalidateCache]

@[simp] theorem arbBase_high (a : ArbId) : highAddr (arbBase a s) := by
  unfold arbBase
  split
  · simp
  · simp
  · split
    · unfold highAddr
      omega
    · simp

@[simp] theorem arbFields_high (a : ArbId) : (fMaxWait (arbBase a s)).high ∧ (fDead (arbBase a s)).high := by simp [fMaxWait, fDead]

@[simp] theorem setArb_beside (a : ArbId) (v : Arbiter) : (s.setArb a v).beside = s.beside := by cases a <;> rfl

@[simp] theorem withdrawRequest_beside (a : ArbId) (q : Requester) : (withdrawRequest s a q).beside = s.beside := by
  unfold withdrawRequest
  dsimp only
  split
  · simp
  · split <;> simp

@[simp] theorem withdrawDesc_beside (r i : Nat) (x : List Word32) : (withdrawDesc s r i x).beside = s.beside := by
  refine (foldl_beside _ (fun y m => withdrawRequest_beside y _ _) _ _).trans ?_
  split <;> simp

@[simp] theorem descFields_high (r i : Nat) :
    (fBusy r i).high ∧ (fPending r i).high ∧ (fOverwritten r i).high ∧ (fDone r i).high ∧ (fErr r i).high ∧ (fMoved r i).high := by
  simp [fBusy, fPending, fOverwritten, fDone, fErr, fMoved]

@[simp] theorem setDesc_beside (r i : Nat) (d : Desc) : (s.setDesc r i d).beside = s.beside := (rfl)
@[simp] theorem setHq_beside (r q : Nat) (l : List (BitVec 16)) : (s.setHq r q l).beside = s.beside := (rfl)

@[simp] theorem stopDesc_beside (r i code : Nat) : (stopDesc s r i code).beside = s.beside := by
  unfold stopDesc
  dsimp only
  split <;> simp [releasePins]

@[simp] theorem startDesc_beside (r i : Nat) (x : List Word32) : (startDesc s r i x).beside = s.beside := by
  unfold startDesc
  dsimp only
  repeat' split
  all_goals simp

@[simp] theorem armDesc_beside (r i : Nat) : (armDesc s r i).beside = s.beside := by
  unfold armDesc
  dsimp only
  repeat' split
  all_goals simp

@[simp] theorem advanceSide_beside (r i : Nat) (dst : Bool) : (advanceSide s r i dst).beside = s.beside := by
  unfold advanceSide
  dsimp only
  rw [State.setFld_beside _ (by cases dst <;> simp), State.setFld_beside _ (by cases dst <;> simp)]

@[simp] theorem armStep_beside (r i : Nat) : (armStep s r i).beside = s.beside := by
  unfold armStep
  dsimp only
  repeat' split
  all_goals simp

@[simp] theorem armMask_beside (m : Word64) : (armMask s m).beside = s.beside :=
  foldl_beside _ (fun y r => foldl_beside _ (fun x i => armStep_beside x r i) _ y) _ s

@[simp] theorem reloadDescs_beside : (reloadDescs s).beside = s.beside := by
  unfold reloadDescs
  split
  · rfl
  · refine (foldl_beside _ (fun y e => foldl_beside _ (fun x j => ?_) _ y) _ _).trans ?_
    · rw [State.setRaw_beside _ (by simp)]
    · exact s.regions_beside _

end

end Sys2Proof.Machine

/-!
How a run starts, restarts and stops at its crossing (02 R43, R44).
-/
namespace Sys2Proof.Machine

/-! ### A run begins -/

section
variable (s : State)

theorem beginRun_runNum : (beginRun s).fld fRunNum = (s.fld fRunNum + 1) % 2 ^ 32 :=
  calc (beginRun s).fld fRunNum = (s.setFld fRunNum ((s.fld fRunNum + 1) % 2 ^ 32)).fld fRunNum := rfl
    _ = (s.fld fRunNum + 1) % 2 ^ 32 % 2 ^ 32 := State.fld_setFld _ _ _ (by decide)
    _ = (s.fld fRunNum + 1) % 2 ^ 32 := Nat.mod_mod _ _

theorem beginRun_regs : regsSame s (beginRun s) [0x40218] :=
  (regsSame_setFld fRunNum ((s.fld fRunNum + 1) % 2 ^ 32) (regsSame.refl s _) (.head _)).trans (regsSame.of_parts _ rfl rfl rfl)

/-- The lanes that wait for a run's first crossing change the waystation, the assemblers and the contexts alone. -/
theorem armLanes_frame : { armLanes s with way := s.way, vas := s.vas, ctxs := s.ctxs } = s := by
  have hways : { (lanesOf s).foldl (fun t b => t.setWay b.lane (dropEarlier s.clock.xseq (t.wayLane b.lane))) s with
      way := s.way, vas := s.vas, ctxs := s.ctxs } = s :=
    foldl_keeps (fun u : State => { u with way := s.way, vas := s.vas, ctxs := s.ctxs } = s) (fun _ _ hu => hu) rfl
  have hvas := foldl_keeps (fun u : State => { u with way := s.way, vas := s.vas, ctxs := s.ctxs } = s)
    (f := fun t v => t.setVa v { nextClose := s.clock.xseq }) (l := List.range 4) (fun _ _ hu => hu) hways
  unfold armLanes
  dsimp only
  split
  · exact foldl_keeps (fun u : State => { u with way := s.way, vas := s.vas, ctxs := s.ctxs } = s) (fun _ _ hu => hu) hvas
  · exact hvas

/-- A run that begins with the lanes of the map waiting for it. -/
def runBegun : State := armLanes (beginRun (dropCmd s .runStart))

theorem runBegun_frame :
    { runBegun s with regs := s.regs, run := s.run, pendTable := s.pendTable, way := s.way, vas := s.vas, ctxs := s.ctxs } = s :=
  (congrArg (fun u : State => { u with regs := s.regs, run := s.run, pendTable := s.pendTable, way := s.way, vas := s.vas, ctxs := s.ctxs })
    (armLanes_frame (beginRun (dropCmd s .runStart))) :)

theorem runBegun_run : (runBegun s).run = (beginRun s).run := (congrArg State.run (armLanes_frame (beginRun (dropCmd s .runStart))) :)

theorem runBegun_pendTable : (runBegun s).pendTable = (dropCmd s .runStart).pendTable :=
  (congrArg State.pendTable (armLanes_frame (beginRun (dropCmd s .runStart))) :)

theorem runBegun_clock : (runBegun s).clock = s.clock := (congrArg State.clock (runBegun_frame s) :)

theorem runBegun_stagedImage : (runBegun s).stagedImage = s.stagedImage := (congrArg State.stagedImage (runBegun_frame s) :)

theorem runBegun_raw (a : Nat) : (runBegun s).raw a = (beginRun s).raw a :=
  have hframe := armLanes_frame (beginRun (dropCmd s .runStart))
  State.raw_congr (congrArg State.regs hframe :) (congrArg State.fuses hframe :) (congrArg State.baseSwap hframe :) a

theorem runBegun_runNum : (runBegun s).fld fRunNum = (s.fld fRunNum + 1) % 2 ^ 32 := by
  rw [← beginRun_runNum, State.fld, State.fld, runBegun_raw]

theorem runBegun_regs : regsSame s (runBegun s) [0x40218] := fun a ha => (runBegun_raw s a).trans (beginRun_regs s a ha)

end

/-! ### RUN_START and RUN_STOP at their crossing -/

section
variable {s : State} {e : PendCmd}

theorem execRunStartEffect_of_due (h : dueCmd s .runStart = some e) :
    execRunStartEffect s = .next (if s.armed && s.run.restart then beginRun (dropCmd s .runStart)
      else if s.armed && !s.run.started then
        if s.stagedImage then openStep (runBegun s) 0 (stepAt (runBegun s) 0).rpt s.clock.xstart else runBegun s
      else (dropCmd s .runStart).bump fCmdErr) := by
  have hstaged : (armLanes (beginRun (dropCmd s .runStart))).stagedImage = s.stagedImage := runBegun_stagedImage s
  have hclock : (armLanes (beginRun (dropCmd s .runStart))).clock = s.clock := runBegun_clock s
  have harmed : (dropCmd s .runStart).armed = s.armed := rfl
  have hrun : (dropCmd s .runStart).run = s.run := rfl
  simp only [execRunStartEffect, h, hstaged, hclock, harmed, hrun, runBegun]
  split
  · rfl
  · split <;> rfl

/-- With a run to stop, RUN_STOP is half of a restart where a RUN_START names its crossing, and else it takes effect. -/
theorem execRunStopEffect_of_due (h : dueCmd s .runStop = some e) :
    execRunStopEffect s = .next (if s.run.started && s.run.stop.isNone then
        if (dropCmd s .runStop).pendTable.any (fun e => decide (e.code = .runStart) && decide (e.x = s.clock.xseq)) then
          { dropCmd s .runStop with run := { s.run with restart := true } }
        else { dropCmd s .runStop with
          run := { s.run with stop := some s.clock.xseq }
          pendTable := (dropCmd s .runStop).pendTable.filter (fun c => c.disarm.isNone) }
      else (dropCmd s .runStop).bump fCmdErr) := by
  have hrun : (dropCmd s .runStop).run = s.run := rfl
  have hclock : (dropCmd s .runStop).clock = s.clock := rfl
  simp only [execRunStopEffect, h, hrun, hclock]
  split
  · split <;> rfl
  · rfl

end

/-! ### A staged run opens its first step -/

/-- From `s`, step `i` of the staged run has opened, and the run, the pending table and the crossing are as they were. -/
def StepOpen (s : State) (i : Nat) (t : State) : Prop :=
  t.run = s.run ∧ t.pendTable = s.pendTable ∧ t.clock.xseq = s.clock.xseq ∧ t.stage.running = true ∧ t.stage.step = i

section
variable {s u v : State} {i : Nat}

theorem StepOpen.of_beside (h : StepOpen s i u) (hb : v.beside = u.beside) : StepOpen s i v := by
  obtain ⟨hrun, hpend, hx, hrunning, hstep⟩ := h
  have hstage : v.stage = u.stage := (congrArg State.stage hb :)
  refine ⟨(congrArg State.run hb :).trans hrun, (congrArg State.pendTable hb :).trans hpend,
    (congrArg (fun t : State => t.clock.xseq) hb :).trans hx, ?_, ?_⟩
  · rw [hstage, hrunning]
  · rw [hstage, hstep]

theorem StepOpen.setFld (h : StepOpen s i u) (f : Fld) (n : Nat) : StepOpen s i (u.setFld f n) := h

theorem StepOpen.swapHalves (h : StepOpen s i u) : StepOpen s i (swapHalves u) := h

theorem StepOpen.takeMenu (h : StepOpen s i u) : StepOpen s i (takeMenu u) := by
  unfold Machine.takeMenu
  split
  · exact h
  · exact h

theorem StepOpen.ite (f : State → State) (hf : ∀ w, StepOpen s i w → StepOpen s i (f w)) (c : Prop) [Decidable c] (h : StepOpen s i u) :
    StepOpen s i (if c then f u else u) := by
  split
  · exact hf u h
  · exact h

end

theorem openStep_opens (s : State) (i left t : Nat) : StepOpen s i (openStep s i left t) := by
  unfold openStep
  refine StepOpen.of_beside ?armed (armMask_beside _ _)
  refine StepOpen.ite takeMenu (fun _ h => h.takeMenu) _ ?invalidated
  refine StepOpen.ite ((List.range 64).foldl invalidateCache) (fun w h => h.of_beside (foldl_beside _ invalidateCache_beside _ w)) _ ?swapped
  refine StepOpen.ite swapHalves (fun _ h => h.swapHalves) _ ?committed
  refine StepOpen.of_beside (StepOpen.setFld ?reloaded fStageStep i) (commitWaiting_beside _)
  exact StepOpen.ite reloadDescs (fun w h => h.of_beside (reloadDescs_beside w)) _ ⟨rfl, rfl, rfl, rfl, rfl⟩

/-! ### Starts and stops -/

/-- A RUN_START that names the crossing is still pending once the RUN_STOP has been taken. -/
theorem runStart_pending_iff (s : State) :
    (dropCmd s .runStop).pendTable.any (fun e => decide (e.code = .runStart) && decide (e.x = s.clock.xseq)) = true ↔
      ∃ c ∈ s.pendTable, c.code = .runStart ∧ c.x = s.clock.xseq := by
  simp only [List.any_eq_true, Bool.and_eq_true, decide_eq_true_eq, mem_dropCmd]
  constructor
  · rintro ⟨c, ⟨hc, -⟩, hcode, hx⟩
    exact ⟨c, hc, hcode, hx⟩
  · rintro ⟨c, hc, hcode, hx⟩
    exact ⟨c, ⟨hc, fun h => by simp [hcode] at h⟩, hcode, hx⟩

/-- Settles O9: each effect is a branch of its equation, and the end of the run keeps to the agents' part of the state. -/
theorem runStartsAndStops : Obligations.RunStartsAndStops := by
  refine ⟨?start, ?staged, ?startIgnored, ?stop, ?half, ?restart, ?stopIgnored, ?ended⟩
  case start =>
    intro e s h harmed hidle hlocked hfresh
    refine ⟨runBegun s, ?_, ?_, ?_, ?_, ?_, runBegun_runNum s, ?_, runBegun_regs s, runBegun_frame s⟩
    · show execRunStartEffect s = _
      rw [execRunStartEffect_of_due h]
      simp [State.armed, harmed, hidle, hlocked, hfresh]
    · rw [runBegun_run]; rfl
    · rw [runBegun_run]; rfl
    · rw [runBegun_run]; rfl
    · rw [runBegun_run]; rfl
    · exact dueCmd_eq_none_of_dropped (s := s) (by rw [runBegun_clock]) (fun c hc => runBegun_pendTable s ▸ hc)
  case staged =>
    intro e s h harmed hidle hstaged hfresh
    obtain ⟨hrun, hpend, hx, hrunning, hstep⟩ := openStep_opens (runBegun s) 0 (stepAt (runBegun s) 0).rpt s.clock.xstart
    rw [runBegun_run] at hrun
    rw [runBegun_pendTable] at hpend
    rw [runBegun_clock] at hx
    refine ⟨_, ?_, congrArg Run.started hrun, congrArg Run.start hrun, congrArg Run.count hrun, congrArg Run.stop hrun, hrunning, hstep,
      dueCmd_eq_none_of_dropped (s := s) hx (fun c hc => hpend ▸ hc)⟩
    show execRunStartEffect s = _
    rw [execRunStartEffect_of_due h]
    simp [State.armed, harmed, hidle, hstaged, hfresh]
  case startIgnored =>
    intro e s h hno
    refine ⟨(dropCmd s .runStart).bump fCmdErr, ?_, fld_bump_cmdErr (dropCmd s .runStart), regsSame_bump_cmdErr (dropCmd s .runStart), rfl⟩
    show execRunStartEffect s = _
    rw [execRunStartEffect_of_due h]
    rcases hno with harmed | ⟨hstarted, hfresh⟩
    · simp [State.armed, harmed]
    · simp [hstarted, hfresh]
  case stop =>
    intro e s h hstarted hgoing hnone
    have hlone : ¬ (dropCmd s .runStop).pendTable.any (fun e => decide (e.code = .runStart) && decide (e.x = s.clock.xseq)) = true := by
      rw [runStart_pending_iff]
      rintro ⟨c, hc, hcode, hx⟩
      exact hnone c hc hcode hx
    refine ⟨{ dropCmd s .runStop with
      run := { s.run with stop := some s.clock.xseq }
      pendTable := (dropCmd s .runStop).pendTable.filter (fun c => c.disarm.isNone) }, ?_, rfl,
      dueCmd_eq_none_of_dropped (s := s) rfl (fun c hc => (List.mem_filter.mp hc).1), rfl⟩
    show execRunStopEffect s = _
    rw [execRunStopEffect_of_due h, if_pos (by simp [hstarted, hgoing]), if_neg hlone]
  case half =>
    intro e c s h hstarted hgoing hc hcode hx
    refine ⟨{ dropCmd s .runStop with run := { s.run with restart := true } }, ?_, rfl, rfl⟩
    show execRunStopEffect s = _
    rw [execRunStopEffect_of_due h, if_pos (by simp [hstarted, hgoing]), if_pos ((runStart_pending_iff s).mpr ⟨c, hc, hcode, hx⟩)]
  case restart =>
    intro e s h harmed hrestart
    refine ⟨beginRun (dropCmd s .runStart), ?_, rfl, rfl, rfl, rfl, if_pos hrestart, beginRun_runNum (dropCmd s .runStart),
      beginRun_regs (dropCmd s .runStart), rfl⟩
    show execRunStartEffect s = _
    rw [execRunStartEffect_of_due h, if_pos (by simp [State.armed, harmed, hrestart])]
  case stopIgnored =>
    intro e s h hidle
    refine ⟨(dropCmd s .runStop).bump fCmdErr, ?_, fld_bump_cmdErr (dropCmd s .runStop), regsSame_bump_cmdErr (dropCmd s .runStop), rfl⟩
    show execRunStopEffect s = _
    rw [execRunStopEffect_of_due h, if_neg (by simp [hidle])]
  case ended =>
    intro p s hstarted hstop hlate hsent
    obtain ⟨hclock, -, hportQ, hbankQ, -, -, -, -, hmem, -, -⟩ := endRun_frame (tidyWay { s with way := mmap {} stopWay s.way })
    refine ⟨_, execRunStoppedLastVerdict_of_due hstarted hstop hlate hsent, ?_, endRun_armed _, ?_,
      endRun_fld _ (by decide) (by decide) (.inl (by decide)), endRun_stage_running _, hmem, hclock, hportQ, hbankQ⟩
    · rw [endRun_run]
    · rw [endRun_run]; rfl

end Sys2Proof.Machine

/-!
A package with nothing left in flight: no function unit at work, no beat or row on its way in a cluster. There the logic blocks' edges take in
nothing, and locking resumes from SEARCH with the queues and links as they are (02 R51, R52).
-/
namespace Sys2Proof.Machine

/-! ### Nothing on its way -/

/-- No function unit is at an operation. -/
def idleFuns (s : State) : Prop := ∀ f, (s.fun_ f).op = none

/-- No beat or row is on its way in a cluster. -/
def stillClusters (s : State) : Prop := ∀ k, (s.cluster k).arrivals = [] ∧ (s.cluster k).bus = []

/-- Nothing of the clusters is due, ever. -/
def quiet (s : State) : Prop := idleFuns s ∧ stillClusters s

theorem quiet_of_sansLogic {s t : State} (h : t.sansLogic = s.sansLogic) (hq : quiet s) : quiet t := by
  obtain ⟨hfuns, hstill⟩ := hq
  refine ⟨fun f => ?_, fun k => ⟨?_, ?_⟩⟩
  · exact (congrArg (fun p : State × (Nat → Cluster) => (p.1.fun_ f).op) h :).trans (hfuns f)
  · exact (congrArg (fun p : State × (Nat → Cluster) => (p.2 k).arrivals) h :).trans (hstill k).1
  · exact (congrArg (fun p : State × (Nat → Cluster) => (p.2 k).bus) h :).trans (hstill k).2

/-- Writing a cluster as it is, but for its block, changes the block alone. -/
theorem setCluster_sansLogic {s : State} {k : Nat} {c : Cluster} (h : ({ c with logic := {} } : Cluster) = { s.cluster k with logic := {} }) :
    (s.setCluster k c).sansLogic = s.sansLogic := by
  refine Prod.ext rfl (funext fun j => ?_)
  show ({ (s.setCluster k c).cluster j with logic := {} } : Cluster) = { s.cluster j with logic := {} }
  by_cases hj : j = k
  · rw [hj, State.setCluster_cluster, h]
  · rw [State.setCluster_cluster_other _ _ _ _ hj]

section
variable {s : State}

theorem takesLeft_of_idle (h : idleFuns s) (k : Nat) : takesLeft s k = 0 := by simp [takesLeft, h _]

theorem settleFuns_of_idle (h : idleFuns s) (k bound : Nat) : settleFuns s k bound = s := by
  rw [settleFuns, takesLeft_of_idle h, runTakes]

theorem settleCluster_of_still (h : stillClusters s) (k bound : Nat) : (settleCluster s k bound).sansLogic = s.sansLogic := by
  have hempty : (s.cluster k).arrivals = [] := (h k).1
  have heq : settleCluster s k bound = s.setCluster k { s.cluster k with arrivals := [] } := by simp [settleCluster, sortArrivals, hempty]
  rw [heq]
  refine setCluster_sansLogic ?_
  rw [← hempty]

theorem settleBus_of_still (h : stillClusters s) (k bound : Nat) : (settleBus s k bound).sansLogic = s.sansLogic := by
  have hempty : (s.cluster k).bus = [] := (h k).2
  have heq : settleBus s k bound = s.setCluster k { s.cluster k with bus := [] } := by simp [settleBus, hempty]
  rw [heq]
  refine setCluster_sansLogic ?_
  rw [← hempty]

theorem settleBusAt_of_quiet (h : quiet s) (k c : Nat) (dests : List Nat) : (settleBusAt s k c dests).sansLogic = s.sansLogic := by
  have hbus := settleBus_of_still h.2 k (c - 1)
  have hempty : ((settleBus s k (c - 1)).cluster k).bus = [] := ((quiet_of_sansLogic hbus h).2 k).2
  have heq : settleBusAt s k c dests = (settleBus s k (c - 1)).setCluster k { (settleBus s k (c - 1)).cluster k with bus := [] } := by
    simp [settleBusAt, hempty]
  rw [heq]
  refine Eq.trans (setCluster_sansLogic ?_) hbus
  rw [← hempty]

theorem settleAll_of_quiet (h : quiet s) (k bound : Nat) : (settleAll s k bound).sansLogic = s.sansLogic := by
  have hcluster := settleCluster_of_still h.2 k bound
  rw [settleAll, settleFuns_of_idle h.1]
  exact (settleBusAt_of_quiet (quiet_of_sansLogic hcluster h) k bound [8, 9]).trans hcluster

/-- Where nothing is due the blocks' edges change the blocks, the pads and the free values alone. -/
theorem playBlocks_of_quiet (h : quiet s) (p : Nat → Bool) (t : Nat) : (playBlocks s p t).sansLogic = s.sansLogic :=
  foldl_keeps (fun u : State => u.sansLogic = s.sansLogic)
    (fun _ k hu => (playLogic_sansLogic (settleAll_of_quiet (quiet_of_sansLogic hu h) k _)).trans hu) rfl

end

/-! ### Locking resumes from SEARCH -/

/-- The state without its registers and what SEARCH changes: the count and what is pending in it, the measurements, the voltages, the alert, and
what the blocks' edges change. -/
def State.sansTiming (s : State) : State :=
  { s with regs := [], clock := {}, pendTable := [], way := [], ctxs := [], avs := [], pins := {}, clusters := [], out := [], freeNext := 0 }

theorem State.sansTiming_of_sansLogic {s t : State} (h : t.sansLogic = s.sansLogic) : t.sansTiming = s.sansTiming :=
  (congrArg (fun p : State × (Nat → Cluster) => p.1.sansTiming) h :)

theorem State.raw_of_sansLogic {s t : State} (h : t.sansLogic = s.sansLogic) (a : Nat) : t.raw a = s.raw a := by
  have hregs : t.regs = s.regs := (congrArg (fun p : State × (Nat → Cluster) => p.1.regs) h :)
  have hfuses : t.fuses = s.fuses := (congrArg (fun p : State × (Nat → Cluster) => p.1.fuses) h :)
  have hswap : t.baseSwap = s.baseSwap := (congrArg (fun p : State × (Nat → Cluster) => p.1.baseSwap) h :)
  exact State.raw_congr hregs hfuses hswap a

section
variable (s : State)

@[simp] theorem State.setFld_sansTiming (f : Fld) (v : Nat) : (s.setFld f v).sansTiming = s.sansTiming := (rfl)

@[simp] theorem enterStep_sansTiming (st : Nat) : (enterStep s st).sansTiming = s.sansTiming := by simp [enterStep]

theorem State.avs_sansTiming (m : SMap Avs) : ({ s with avs := m } : State).sansTiming = s.sansTiming := rfl

theorem State.avs_raw (m : SMap Avs) (a : Nat) : ({ s with avs := m } : State).raw a = s.raw a := rfl

@[simp] theorem holdVoltage_sansTiming : (holdVoltage s).sansTiming = s.sansTiming := by
  unfold holdVoltage
  dsimp only
  rw [State.avs_sansTiming]
  exact foldl_keeps (fun u : State => u.sansTiming = s.sansTiming)
    (fun u d hu => by rw [State.setFld_sansTiming, State.setFld_sansTiming, hu]) rfl

theorem holdVoltage_raw {a : Nat} (ha : a < 0x1000000) : (holdVoltage s).raw a = s.raw a := by
  have hother (d : Nat) : a ≠ avsBase d := by
    unfold avsBase dieBase
    omega
  unfold holdVoltage
  dsimp only
  rw [State.avs_raw]
  exact foldl_keeps (fun u : State => u.raw a = s.raw a)
    (fun u d hu => by rw [State.raw_setFld_other _ _ (hother d), State.raw_setFld_other _ _ (hother d), hu]) rfl

@[simp] theorem withAlert_sansTiming (before : State) : (withAlert before s).sansTiming = s.sansTiming := by
  unfold withAlert
  split <;> rfl

theorem withAlert_fld (before : State) (f : Fld) : (withAlert before s).fld f = s.fld f := by
  unfold withAlert
  split <;> rfl

@[simp] theorem restartMeasures_sansTiming : (restartMeasures s).sansTiming = s.sansTiming := (rfl)

theorem restartMeasures_raw (a : Nat) : (restartMeasures s).raw a = s.raw a := rfl

theorem leaveCount_sansTiming : (leaveCount s).sansTiming = (playBlocks s (fun _ => true) s.clock.now).sansTiming := rfl

theorem leaveCount_raw (a : Nat) : (leaveCount s).raw a = (playBlocks s (fun _ => true) s.clock.now).raw a := rfl

/-- The state with LANE in effect. -/
def State.withLane (lane : Nat) : State := { s with clock := { s.clock with lane := lane } }

theorem State.withLane_sansTiming (lane : Nat) : (s.withLane lane).sansTiming = s.sansTiming := rfl

theorem State.withLane_raw (lane a : Nat) : (s.withLane lane).raw a = s.raw a := rfl

/-- The state in which SEARCH is entered. -/
def searchFrom : State := (holdVoltage (restartMeasures (leaveCount s))).withLane (s.fld fLane)

theorem toSearch_eq : toSearch s = withAlert s (enterStep (searchFrom s) (bit (s.is (fRxEnable 0 (s.fld fLane))))) := rfl

end

section
variable {s : State}

theorem searchFrom_sansTiming (h : quiet s) : (searchFrom s).sansTiming = s.sansTiming := by
  rw [searchFrom, State.withLane_sansTiming, holdVoltage_sansTiming, restartMeasures_sansTiming, leaveCount_sansTiming]
  exact State.sansTiming_of_sansLogic (playBlocks_of_quiet h _ _)

theorem searchFrom_raw (h : quiet s) {a : Nat} (ha : a < 0x1000000) : (searchFrom s).raw a = s.raw a := by
  rw [searchFrom, State.withLane_raw, holdVoltage_raw _ ha, restartMeasures_raw, leaveCount_raw]
  exact State.raw_of_sansLogic (playBlocks_of_quiet h _ _) a

/-- What SEARCH leaves alone, once nothing is in flight. -/
theorem toSearch_sansTiming (h : quiet s) : (toSearch s).sansTiming = s.sansTiming := by
  rw [toSearch_eq, withAlert_sansTiming, enterStep_sansTiming, searchFrom_sansTiming h]

theorem toSearch_fld (h : quiet s) {f : Fld} (ha : f.addr < 0x1000000) (hs : fState.sep f = true) (hn : fNActive.sep f = true) :
    (toSearch s).fld f = s.fld f := by
  rw [toSearch_eq, withAlert_fld, enterStep_fld _ _ hs hn, State.fld, searchFrom_raw h ha, State.fld]

/-- SEARCH is entered, or DARK where the lane's own ENABLE holds it. -/
theorem toSearch_state (h : quiet s) : (toSearch s).fld fState = bit ((toSearch s).is (fRxEnable 0 ((toSearch s).fld fLane))) := by
  have hlane : (toSearch s).fld fLane = s.fld fLane := toSearch_fld h (by decide) (by decide) (by decide)
  have hlow : (fRxEnable 0 (s.fld fLane)).addr < 0x1000000 ∧ (fRxEnable 0 (s.fld fLane)).addr ≠ 0x20004 := by
    have hlt : s.fld fLane < 2 ^ 6 := State.fld_lt s fLane
    show 0x80000 + 0 * 0x1000 + 0x100 + s.fld fLane * 0x20 < 0x1000000 ∧ 0x80000 + 0 * 0x1000 + 0x100 + s.fld fLane * 0x20 ≠ 0x20004
    omega
  have hen : (toSearch s).is (fRxEnable 0 (s.fld fLane)) = s.is (fRxEnable 0 (s.fld fLane)) := by
    rw [State.is, State.is, toSearch_fld h hlow.1 (Fld.sep_of_addr_ne (Nat.le_of_ble_eq_true rfl) hlow.2)
      (Fld.sep_of_addr_ne (Nat.le_of_ble_eq_true rfl) hlow.2)]
  have hbit : bit (s.is (fRxEnable 0 (s.fld fLane))) < 16 := by
    cases s.is (fRxEnable 0 (s.fld fLane)) <;> decide
  rw [hlane, hen, toSearch_eq, withAlert_fld, enterStep_state _ _ hbit]

end

end Sys2Proof.Machine

/-!
A failed relock and the stop it forces (02 R51, R52): what is in flight is discarded, which leaves the package quiet, and locking resumes.
-/
namespace Sys2Proof.Machine

/-! ### No function unit at an operation -/

section
variable {s : State}

theorem idleFuns_of_funs {t : State} (hf : t.funs = s.funs) (h : idleFuns s) : idleFuns t := fun f =>
  (congrArg (fun m => (mget ({} : FunUnit) m f).op) hf :).trans (h f)

theorem idleFuns_setFun (h : idleFuns s) (f : Nat) {u : FunUnit} (hu : u.op = none) : idleFuns (s.setFun f u) := by
  intro j
  by_cases hj : j = f
  · rw [hj, State.setFun_fun, hu]
  · rw [State.setFun_fun_other _ _ _ _ hj, h j]

theorem idleFuns_setPlay (h : idleFuns s) (a : Agent) (p : Play) : idleFuns (s.setPlay a p) := by
  cases a with
  | dot u => exact h
  | fn f => exact idleFuns_setFun h f.val (h f.val)

theorem idleFuns_bump (h : idleFuns s) (f : Fld) (n : Nat) : idleFuns (s.bump f n) := h

theorem idleFuns_chargeWait (h : idleFuns s) (a : Agent) : idleFuns (chargeWait s a) := by
  unfold chargeWait
  dsimp only
  split
  · exact idleFuns_setPlay (idleFuns_bump h _ _) _ _
  · exact idleFuns_setPlay (idleFuns_bump h _ _) _ _
  · exact idleFuns_setPlay (idleFuns_bump (idleFuns_bump h _ _) _ _) _ _
  · exact idleFuns_setPlay (idleFuns_bump h _ _) _ _
  · refine idleFuns_setFun (idleFuns_bump h _ _) _ ?_
    rw [h, Option.map_none]
  · exact h

theorem idleFuns_chargeWaits (h : idleFuns s) : idleFuns (chargeWaits s) :=
  foldl_keeps idleFuns (fun _ _ hy => idleFuns_chargeWait hy _) (foldl_keeps idleFuns (fun _ _ hy => idleFuns_chargeWait hy _) h)

theorem idleFuns_setFld (h : idleFuns s) (f : Fld) (n : Nat) : idleFuns (s.setFld f n) := h

theorem idleFuns_stopAgent (h : idleFuns s) (a : Agent) : idleFuns (stopAgent s a) := idleFuns_setPlay (idleFuns_setFld h _ _) a {}

theorem idleFuns_stopStaged (h : idleFuns s) : idleFuns (stopStaged s) := by
  unfold stopStaged
  split
  · exact foldl_keeps idleFuns (fun _ _ hy => idleFuns_stopAgent hy _)
      (foldl_keeps idleFuns (fun _ _ hy => idleFuns_stopAgent hy _) (idleFuns_chargeWaits h))
  · exact h

/-- What is quiet is quiet at the end of its run. -/
theorem quiet_endRun (h : quiet s) : quiet (endRun s) := by
  obtain ⟨hidle, hstill⟩ := h
  have hstop : idleFuns (stopStaged (finishDisarm s)) := idleFuns_stopStaged (s := finishDisarm s) hidle
  obtain ⟨-, hclusters, -⟩ := endRun_frame s
  have hfuns : (endRun s).funs = (stopStaged (finishDisarm s)).funs :=
    (congrArg State.funs (loosenLanes_sansLanes (stopStaged (finishDisarm s)).runOver (stopStaged (finishDisarm s))) :)
  refine ⟨idleFuns_of_funs hfuns hstop, fun k => ?_⟩
  have hk : (endRun s).cluster k = s.cluster k := (congrArg (fun m => mget ({} : Cluster) m k) hclusters :)
  rw [hk]
  exact hstill k

end

/-! ### Every agent and cluster stops -/

/-- One function unit of `haltAgents` stops. -/
def haltFun (t : State) (e : Nat × FunUnit) : State :=
  (t.setFld (fRunning (.fn (Fin.ofNat 1024 e.1))) 0).setFun e.1 { e.2 with play := {}, op := none, buf := [], lastRow := {}, outBusy := [] }

/-- One cluster of `haltClusters` stops. -/
def haltCluster (t : State) (e : Nat × Cluster) : State :=
  let c := t.cluster e.1
  let v := c.steer
  let t1 := t.setCluster e.1 { c with
    bus := []
    arrivals := []
    injected := []
    steer := { v with token := none, jobs := [], splitCount := 0, splitTag := none, slot := 0, packed := 0, waitSince := none } }
  match v.nextMap with
  | some (m0, m1) => takeMap t1 e.1 m0 m1
  | none => t1

section
variable (t : State)

theorem State.setFld_fun (f : Fld) (v j : Nat) : (t.setFld f v).fun_ j = t.fun_ j := rfl

theorem State.setRaw_cluster (a : Nat) (v : Word32) (j : Nat) : (t.setRaw a v).cluster j = t.cluster j := rfl

theorem haltFun_op_same (e : Nat × FunUnit) : ((haltFun t e).fun_ e.1).op = none := by rw [haltFun, State.setFun_fun]

theorem haltFun_op (e : Nat × FunUnit) {f : Nat} (h : (t.fun_ f).op = none) : ((haltFun t e).fun_ f).op = none := by
  by_cases hf : f = e.1
  · rw [hf, haltFun_op_same]
  · rw [haltFun, State.setFun_fun_other _ _ _ _ hf, State.setFld_fun, h]

theorem haltFuns_op {l : SMap FunUnit} {f : Nat} (h : (∃ e ∈ l, e.1 = f) ∨ (t.fun_ f).op = none) : ((l.foldl haltFun t).fun_ f).op = none := by
  induction l generalizing t with
  | nil => exact h.resolve_left (by simp)
  | cons e r ih =>
    refine ih (haltFun t e) ?_
    rcases h with ⟨x, hx, rfl⟩ | h
    · rcases List.mem_cons.mp hx with rfl | hr
      · exact .inr (haltFun_op_same t x)
      · exact .inl ⟨x, hr, rfl⟩
    · exact .inr (haltFun_op t e h)

/-- An unlisted key reads as the empty value. -/
theorem mget_eq_or_listed {α : Type} (d : α) (m : SMap α) (k : Nat) : (∃ e ∈ m, e.1 = k) ∨ mget d m k = d := by
  rcases mget_mem d m k with h | h
  · exact .inr h
  · exact .inl ⟨_, h, rfl⟩

theorem idleFuns_haltAgents (s : State) : idleFuns (haltAgents s) := by
  intro f
  unfold haltAgents
  extract_lets s0 s1
  refine haltFuns_op s1 ?_
  rcases mget_eq_or_listed ({} : FunUnit) s1.funs f with h | h
  · exact .inl h
  · exact .inr (congrArg FunUnit.op h)

/-- A cluster with nothing on its way. -/
def Cluster.still (c : Cluster) : Prop := c.arrivals = [] ∧ c.bus = []

theorem takeMap_still {k j : Nat} (m0 m1 : Word32) (h : (t.cluster j).still) : ((takeMap t k m0 m1).cluster j).still := by
  unfold takeMap
  by_cases hj : j = k
  · rw [hj] at h ⊢
    rw [State.setSteer, State.setCluster_cluster, State.setRaw_cluster, State.setRaw_cluster]
    exact h
  · rw [State.setSteer, State.setCluster_cluster_other _ _ _ _ hj, State.setRaw_cluster, State.setRaw_cluster]
    exact h

theorem haltCluster_still_same (e : Nat × Cluster) : ((haltCluster t e).cluster e.1).still := by
  unfold haltCluster
  dsimp only
  split
  · refine takeMap_still _ _ _ ?_
    rw [State.setCluster_cluster]
    exact ⟨rfl, rfl⟩
  · rw [State.setCluster_cluster]
    exact ⟨rfl, rfl⟩

theorem haltCluster_still (e : Nat × Cluster) {k : Nat} (h : (t.cluster k).still) : ((haltCluster t e).cluster k).still := by
  by_cases hk : k = e.1
  · rw [hk]
    exact haltCluster_still_same t e
  · unfold haltCluster
    dsimp only
    split
    · refine takeMap_still _ _ _ ?_
      rw [State.setCluster_cluster_other _ _ _ _ hk]
      exact h
    · rw [State.setCluster_cluster_other _ _ _ _ hk]
      exact h

theorem haltClusters_still {l : SMap Cluster} {k : Nat} (h : (∃ e ∈ l, e.1 = k) ∨ (t.cluster k).still) :
    ((l.foldl haltCluster t).cluster k).still := by
  induction l generalizing t with
  | nil => exact h.resolve_left (by simp)
  | cons e r ih =>
    refine ih (haltCluster t e) ?_
    rcases h with ⟨x, hx, rfl⟩ | h
    · rcases List.mem_cons.mp hx with rfl | hr
      · exact .inr (haltCluster_still_same t x)
      · exact .inl ⟨x, hr, rfl⟩
    · exact .inr (haltCluster_still t e h)

theorem stillClusters_haltClusters (s : State) : stillClusters (haltClusters s) := by
  intro k
  refine haltClusters_still s ?_
  rcases mget_eq_or_listed ({} : Cluster) s.clusters k with h | h
  · exact .inl h
  · exact .inr ((congrArg Cluster.still h).mpr ⟨rfl, rfl⟩)

theorem haltClusters_funs (s : State) : (haltClusters s).funs = s.funs := by
  refine foldl_keeps (fun u : State => u.funs = s.funs) (fun u e hu => ?_) rfl
  dsimp only
  split
  · simp only [takeMap, State.setSteer, State.setCluster_frame, State.setRaw_frame, hu]
  · exact hu

end

/-! ### What is in flight is discarded -/

section
variable (s : State)

/-- The agents and clusters at a stop. -/
def allHalted : State := haltClusters (haltAgents (noteQueues s (fun _ => true) (s.clock.now + 1)))

theorem allHalted_beside : (allHalted s).beside = s.beside := by simp [allHalted]

/-- The state with links, queues, contributions, assemblers, waystation and receive queues emptied. -/
def State.emptied (s1 : State) : State :=
  { s1 with
    links := [], portQ := [], bankQ := [], steerQ := [], contribs := [], vas := []
    way := mmap {} stopWay s1.way
    txLinks := s1.txLinks.foldl (fun m e => mset {} m e.1 { e.2 with buffer := [] }) []
    ctxs := s1.ctxs.foldl (fun m e => mset {} m e.1 { e.2 with held := [], leaving := none, arriving := [], arrivingClass := none }) [] }

theorem quiet_emptied {s : State} (h : quiet s) : quiet s.emptied := h

theorem emptied_raw (a : Nat) : s.emptied.raw a = s.raw a := rfl

/-- All data in flight is gone, and the waystation is in canonical form. -/
def cleared : State := tidyWay (discardFlight s)

theorem cleared_eq : cleared s = tidyWay (allHalted s).emptied := rfl

theorem tidyWay_raw (a : Nat) : (tidyWay s).raw a = s.raw a := rfl

theorem quiet_tidyWay {s : State} (h : quiet s) : quiet (tidyWay s) := h

theorem quiet_allHalted : quiet (allHalted s) :=
  ⟨idleFuns_of_funs (haltClusters_funs _) (idleFuns_haltAgents _), stillClusters_haltClusters _⟩

theorem quiet_cleared : quiet (cleared s) := by
  rw [cleared_eq]
  exact quiet_tidyWay (quiet_emptied (quiet_allHalted s))

theorem cleared_fld {f : Fld} (ha : f.addr < 0x21000) : (cleared s).fld f = s.fld f := by
  rw [State.fld, State.fld, cleared_eq, tidyWay_raw, emptied_raw, State.raw_of_beside (allHalted_beside s) ha]

theorem tidyWay_emptied_parts :
    (tidyWay s.emptied).links = [] ∧ (tidyWay s.emptied).portQ = [] ∧ (tidyWay s.emptied).bankQ = [] ∧ (tidyWay s.emptied).steerQ = [] ∧
      (tidyWay s.emptied).contribs = [] ∧ (tidyWay s.emptied).vas = [] := ⟨rfl, rfl, rfl, rfl, rfl, rfl⟩

theorem tidyWay_emptied_kept :
    (tidyWay s.emptied).run = s.run ∧ (tidyWay s.emptied).memTiles = s.memTiles ∧ (tidyWay s.emptied).image = s.image ∧
      (tidyWay s.emptied).fuses = s.fuses := ⟨rfl, rfl, rfl, rfl⟩

theorem cleared_parts :
    (cleared s).links = [] ∧ (cleared s).portQ = [] ∧ (cleared s).bankQ = [] ∧ (cleared s).steerQ = [] ∧ (cleared s).contribs = [] ∧
      (cleared s).vas = [] := tidyWay_emptied_parts (allHalted s)

theorem cleared_kept :
    (cleared s).run = s.run ∧ (cleared s).memTiles = s.memTiles ∧ (cleared s).image = s.image ∧ (cleared s).fuses = s.fuses := by
  have hhalted := State.kept_of_beside (allHalted_beside s)
  have hkept := tidyWay_emptied_kept (allHalted s)
  rw [cleared_eq]
  simpa only [hhalted] using hkept

end

end Sys2Proof.Machine

/-!
How HOLDOVER ends (02 R51, R52): in LOCKED, in a run that is to stop, or in SEARCH with nothing in flight.
-/
namespace Sys2Proof.Machine

/-! ### SEARCH from a package with nothing in flight -/

/-- Nothing is on a link, in a queue, or on its way to an assembler. -/
def State.noFlight (s : State) : Prop := s.links = [] ∧ s.portQ = [] ∧ s.bankQ = [] ∧ s.steerQ = [] ∧ s.contribs = []

/-- What `toSearch` leaves of a state it starts from. -/
theorem State.parts_of_sansTiming {s t : State} (h : t.sansTiming = s.sansTiming) :
    (s.noFlight → t.noFlight) ∧ t.vas = s.vas ∧ t.run = s.run ∧ t.memTiles = s.memTiles ∧ t.image = s.image ∧ t.fuses = s.fuses := by
  refine ⟨fun hs => ?_, ?_, ?_, ?_, ?_, ?_⟩
  · obtain ⟨hlinks, hport, hbank, hsteer, hcontribs⟩ := hs
    exact ⟨(congrArg State.links h :).trans hlinks, (congrArg State.portQ h :).trans hport, (congrArg State.bankQ h :).trans hbank,
      (congrArg State.steerQ h :).trans hsteer, (congrArg State.contribs h :).trans hcontribs⟩
  · exact (congrArg State.vas h :)
  · exact (congrArg State.run h :)
  · exact (congrArg State.memTiles h :)
  · exact (congrArg State.image h :)
  · exact (congrArg State.fuses h :)

theorem cleared_noFlight (s : State) : (cleared s).noFlight := by
  obtain ⟨hlinks, hport, hbank, hsteer, hcontribs, -⟩ := cleared_parts s
  exact ⟨hlinks, hport, hbank, hsteer, hcontribs⟩

/-! ### A stop at once -/

section
variable (s : State)

/-- The state without the stop that its run waits for. -/
def State.unstopped : State := { s with run := { s.run with stop := none } }

theorem stopAtOnce_eq : stopAtOnce s = endRun (cleared s).unstopped := rfl

theorem unstopped_parts :
    (s.noFlight → s.unstopped.noFlight) ∧ s.unstopped.vas = s.vas ∧ s.unstopped.memTiles = s.memTiles ∧ s.unstopped.image = s.image ∧
      s.unstopped.fuses = s.fuses := ⟨id, rfl, rfl, rfl, rfl⟩

theorem unstopped_count : s.unstopped.run.count = s.run.count := rfl

theorem quiet_unstopped {s : State} (h : quiet s) : quiet s.unstopped := h

theorem quiet_stopAtOnce : quiet (stopAtOnce s) := by
  rw [stopAtOnce_eq]
  exact quiet_endRun (quiet_unstopped (quiet_cleared s))

/-- The end of a run leaves the arrays empty that were. -/
theorem endRun_noFlight {s : State} (h : s.noFlight) : (endRun s).noFlight := by
  obtain ⟨hlinks, hport, hbank, hsteer, hcontribs⟩ := h
  obtain ⟨-, -, hportQ, hbankQ, hsteerQ, hl, hc, -⟩ := endRun_frame s
  exact ⟨hl.trans hlinks, hportQ.trans hport, hbankQ.trans hbank, hsteerQ.trans hsteer, hc.trans hcontribs⟩

theorem stopAtOnce_noFlight : (stopAtOnce s).noFlight := by
  rw [stopAtOnce_eq]
  exact endRun_noFlight ((unstopped_parts (cleared s)).1 (cleared_noFlight s))

theorem endRun_over (s : State) : (endRun s).run.started = false ∧ (endRun s).run.forced = none ∧ (endRun s).run.count = s.run.count := by
  rw [endRun_run]
  exact ⟨rfl, rfl, rfl⟩

theorem stopAtOnce_run :
    (stopAtOnce s).run.started = false ∧ (stopAtOnce s).run.forced = none ∧ (stopAtOnce s).run.count = s.run.count := by
  obtain ⟨hrun, -⟩ := cleared_kept s
  obtain ⟨hstarted, hforced, hcount⟩ := endRun_over (cleared s).unstopped
  rw [unstopped_count, hrun] at hcount
  rw [stopAtOnce_eq]
  exact ⟨hstarted, hforced, hcount⟩

theorem stopAtOnce_parts :
    (stopAtOnce s).vas = [] ∧ (stopAtOnce s).memTiles = s.memTiles ∧ (stopAtOnce s).image = s.image ∧ (stopAtOnce s).fuses = s.fuses := by
  obtain ⟨-, -, -, -, -, hvas⟩ := cleared_parts s
  obtain ⟨-, hmem, himage, hfuses⟩ := cleared_kept s
  obtain ⟨-, uvas, umem, uimage, ufuses⟩ := unstopped_parts (cleared s)
  obtain ⟨-, -, -, -, -, -, -, evas, emem, eimage, efuses⟩ := endRun_frame (cleared s).unstopped
  rw [stopAtOnce_eq]
  exact ⟨evas.trans (uvas.trans hvas), emem.trans (umem.trans hmem), eimage.trans (uimage.trans himage), efuses.trans (ufuses.trans hfuses)⟩

end

/-! ### HOLDOVER_RETURN and HOLDOVER_EXPIRED -/

section
variable {s : State} {phase : Int} {num : BitVec 12}

/-- HOLDOVER_RETURN where the lane has returned. -/
theorem execHoldoverReturn_of_returned (h8 : s.fld fState = 8) (h16 : 16 ≤ s.clock.goodCommas) (hforced : s.run.forced = none) :
    execHoldoverReturn phase num s = .next (if phase.natAbs ≤ 25 ∧ num.toNat = s.fld fCurrent
      then (enterStep s 7).withClock { s.clock with badCommas := 0, goodCommas := 0 } else failLock .relockFail fRelockFail s) := by
  rw [execHoldoverReturn, if_pos (by simp [h8, h16, hforced])]
  simp only [Bool.and_eq_true, decide_eq_true_eq]
  split
  · rfl
  · rfl

theorem execHoldoverExpired_of_late (h8 : s.fld fState = 8) (hlate : s.clock.holdStart + 4096 ≤ s.clock.xseq) (hforced : s.run.forced = none) :
    execHoldoverExpired s = .next (failLock .holdoverExpired fHoldExpired s) := if_pos (by simp [h8, hlate, hforced])

/-- The state with the run to stop at the next crossing start, and why. -/
def State.stopForced (s : State) (why : ForcedStop) (f : Fld) : State :=
  { s.mark f with run := { s.run with forced := some why, forcedAt := s.clock.xseq } }

theorem failLock_of_started (h : s.run.started = true) (why : ForcedStop) (f : Fld) : failLock why f s = s.stopForced why f := by
  have hmark : (s.mark f).run.started = true := h
  rw [failLock, if_pos hmark]
  rfl

theorem failLock_of_idle (h : s.run.started = false) (why : ForcedStop) (f : Fld) : failLock why f s = toSearch (cleared (s.mark f)) := by
  have hmark : ¬ (s.mark f).run.started = true := by
    rw [Bool.not_eq_true]
    exact h
  rw [failLock, if_neg hmark]
  rfl

/-- A run that is to stop sets its flag, and HOLDOVER goes on until it has. -/
theorem stopForced_facts (why : ForcedStop) {f : Fld} (hw : f.lo + f.w ≤ 32) (h1 : f.w = 1) (ha : f.addr = 0x20004) (hs : f.sep fState = true)
    (h8 : s.fld fState = 8) :
    (s.stopForced why f).is f = true ∧ (s.stopForced why f).fld fState = 8 ∧ regsSame s (s.stopForced why f) [0x20004] :=
  ⟨State.is_mark s f hw h1, (State.fld_mark_sep s hs).trans h8,
    (regsSame_mark f (regsSame.refl s _) (by simp [ha])).trans (regsSame.of_parts _ rfl rfl rfl)⟩

end

/-- FORCED_RUN_STOP once its crossing has come. -/
theorem execForcedRunStop_of_due {s : State} (h : s.run.forced ≠ none) (hx : s.run.forcedAt < s.clock.xseq) :
    execForcedRunStop s = .next (toSearch (stopAtOnce s)) := by
  have hsome : s.run.forced.isSome = true := Option.isSome_iff_ne_none.mpr h
  exact if_pos (by simp [hsome, hx])

/-- Settles O14: a return that agrees enters LOCKED, a started run is marked to stop, and each way to SEARCH starts from a package that is quiet. -/
theorem holdoverEndsOrStops : Obligations.HoldoverEndsOrStops := by
  refine ⟨?returns, ?disagrees, ?expiresInRun, ?expiresIdle, ?forced⟩
  case returns =>
    intro phase num s h8 h16 hforced hphase hnum
    refine ⟨(enterStep s 7).withClock { s.clock with badCommas := 0, goodCommas := 0 }, ?_, ?_, rfl,
      regsSame_withClock _ (regsSame_enterStep 7 (regsSame.refl s _) (.head _)), rfl⟩
    · show execHoldoverReturn phase num s = _
      rw [execHoldoverReturn_of_returned h8 h16 hforced, if_pos ⟨hphase, hnum⟩]
    · rw [State.fld_withClock, enterStep_state _ _ (by decide)]
  case disagrees =>
    intro phase num s h8 h16 hforced hoff hstarted
    obtain ⟨his, hstate, hregs⟩ := stopForced_facts .relockFail (f := fRelockFail) (by decide) rfl rfl (by decide) h8
    refine ⟨s.stopForced .relockFail fRelockFail, ?_, his, rfl, hstate, hregs, rfl⟩
    show execHoldoverReturn phase num s = _
    rw [execHoldoverReturn_of_returned h8 h16 hforced, if_neg (by omega), failLock_of_started hstarted]
  case expiresInRun =>
    intro s h8 hlate hforced hstarted
    obtain ⟨his, hstate, hregs⟩ := stopForced_facts .holdoverExpired (f := fHoldExpired) (by decide) rfl rfl (by decide) h8
    refine ⟨s.stopForced .holdoverExpired fHoldExpired, ?_, his, rfl, hstate, hregs, rfl⟩
    show execHoldoverExpired s = _
    rw [execHoldoverExpired_of_late h8 hlate hforced, failLock_of_started hstarted]
  case expiresIdle =>
    intro s h8 hlate hforced hidle
    have hquiet := quiet_cleared (s.mark fHoldExpired)
    obtain ⟨hflight, -⟩ := State.parts_of_sansTiming (toSearch_sansTiming hquiet)
    obtain ⟨hlinks, hport, hbank, hsteer, hcontribs⟩ := hflight (cleared_noFlight (s.mark fHoldExpired))
    refine ⟨toSearch (cleared (s.mark fHoldExpired)), ?_, ?_, toSearch_state hquiet, hlinks, hport, hbank, hsteer, hcontribs⟩
    · show execHoldoverExpired s = _
      rw [execHoldoverExpired_of_late h8 hlate hforced, failLock_of_idle hidle]
    · have hmark : (s.mark fHoldExpired).is fHoldExpired = true := State.is_mark s fHoldExpired (by decide) rfl
      rw [State.is, toSearch_fld hquiet (by decide) (by decide) (by decide), cleared_fld _ (by decide)]
      exact hmark
  case forced =>
    intro s hforced hx
    have hquiet := quiet_stopAtOnce s
    obtain ⟨hflight, hvas, hrun, hmem, himage, hfuses⟩ := State.parts_of_sansTiming (toSearch_sansTiming hquiet)
    obtain ⟨hlinks, hport, hbank, hsteer, hcontribs⟩ := hflight (stopAtOnce_noFlight s)
    obtain ⟨hstarted, hnone, hcount⟩ := stopAtOnce_run s
    obtain ⟨kvas, kmem, kimage, kfuses⟩ := stopAtOnce_parts s
    refine ⟨toSearch (stopAtOnce s), execForcedRunStop_of_due hforced hx, ?_, ?_, ?_, toSearch_state hquiet, ?_, hlinks, hport, hbank, hsteer,
      hcontribs, hvas.trans kvas, hmem.trans kmem, himage.trans kimage, hfuses.trans kfuses⟩
    · rw [hrun, hstarted]
    · rw [hrun, hnone]
    · have harmed : (stopAtOnce s).is fArmed = false := by
        rw [stopAtOnce_eq]
        exact endRun_armed _
      rw [State.is, toSearch_fld hquiet (by decide) (by decide) (by decide)]
      exact harmed
    · rw [hrun, hcount]

end Sys2Proof.Machine

/-!
Numbers held as two's-complement fields, and fields packed side by side into one number (00 R12, 06 R154).
-/
namespace Sys2Proof.Machine

/-! ### Two's complement -/

/-- `w` bits hold the integer in two's complement. -/
def fitsIn (w : Nat) (v : Int) : Prop := -(2 ^ (w - 1) : Nat) ≤ v ∧ v < (2 ^ (w - 1) : Nat)

theorem low_lt (w : Nat) (v : Int) : low w v < 2 ^ w := by
  have hpos : (0 : Int) < (2 ^ w : Nat) := by exact_mod_cast Nat.two_pow_pos w
  have h0 := Int.emod_nonneg v hpos.ne'
  have h1 := Int.emod_lt_of_pos v hpos
  unfold low
  omega

/-- The low bits of an integer that fits in them read back as it. -/
theorem sext_low {w : Nat} {v : Int} (hw : 0 < w) (h : fitsIn w v) : sext w (low w v) = v := by
  obtain ⟨hlo, hhi⟩ := h
  have hdouble : 2 ^ (w - 1) * 2 = 2 ^ w := Nat.two_pow_pred_mul_two hw
  have hmod : v % (2 ^ w : Nat) = if 0 ≤ v then v else v + (2 ^ w : Nat) := by
    split
    · exact Int.emod_eq_of_lt ‹_› (by omega)
    · rw [← Int.add_emod_right]
      exact Int.emod_eq_of_lt (by omega) (by omega)
  have hlt := low_lt w v
  rw [sext, Nat.mod_eq_of_lt hlt]
  unfold low at hlt ⊢
  rw [hmod] at hlt ⊢
  split <;> split <;> omega

theorem fitsIn_sext {w : Nat} (v : Nat) (hw : 0 < w) : fitsIn w (sext w v) := by
  have hdouble : 2 ^ (w - 1) * 2 = 2 ^ w := Nat.two_pow_pred_mul_two hw
  have hlt := Nat.mod_lt v (Nat.two_pow_pos w)
  simp only [fitsIn, sext]
  split <;> omega

theorem fitsIn_mantissa (b : Beat) (i : Nat) : fitsIn 12 (mantissa b i) := fitsIn_sext _ (by decide)

theorem fitsIn_zero (w : Nat) : fitsIn w 0 := by
  have := Nat.two_pow_pos (w - 1)
  unfold fitsIn
  omega

theorem mem_getD_of {α : Type} {p : α → Prop} {l : List α} {d : α} (hd : p d) (hl : ∀ a ∈ l, p a) (i : Nat) : p (l.getD i d) := by
  rw [List.getD_eq_getElem?_getD]
  cases h : l[i]? with
  | none => exact hd
  | some a => exact hl a (List.mem_of_getElem? h)

/-! ### Fields side by side -/

/-- The number whose field i of `w` bits is `f i`, for i below n. -/
def packed (w : Nat) (f : Nat → Nat) (n : Nat) : Nat := (List.range n).foldl (fun a i => a + 2 ^ (w * i) * f i) 0

theorem packed_succ (w : Nat) (f : Nat → Nat) (n : Nat) : packed w f (n + 1) = packed w f n + 2 ^ (w * n) * f n := by
  simp [packed, List.range_succ]

section
variable {w : Nat} {f : Nat → Nat} (hf : ∀ i, f i < 2 ^ w)
include hf

theorem packed_lt (n : Nat) : packed w f n < 2 ^ (w * n) := by
  induction n with
  | zero => simp [packed]
  | succ n ih =>
    calc packed w f (n + 1) = packed w f n + 2 ^ (w * n) * f n := packed_succ w f n
      _ < 2 ^ (w * n) * (f n + 1) := by rw [Nat.mul_succ]; omega
      _ ≤ 2 ^ (w * n) * 2 ^ w := Nat.mul_le_mul_left _ (hf n)
      _ = 2 ^ (w * (n + 1)) := by rw [← Nat.pow_add, Nat.mul_succ]

/-- A packed field reads back. -/
theorem bits_packed {n k : Nat} (hk : k < n) : bits (packed w f n) (w * k) w = f k := by
  induction n with
  | zero => omega
  | succ n ih =>
    rw [packed_succ]
    rcases Nat.lt_succ_iff_lt_or_eq.mp hk with h | rfl
    · obtain ⟨d, rfl⟩ := Nat.exists_eq_add_of_lt h
      have hsplit : 2 ^ (w * (k + d + 1)) * f (k + d + 1) = 2 ^ (w * k) * (2 ^ w * (2 ^ (w * d) * f (k + d + 1))) := by
        rw [← Nat.mul_assoc, ← Nat.mul_assoc, ← Nat.pow_add, ← Nat.pow_add]
        congr 2
        ring
      rw [← ih h, bits, bits, hsplit, Nat.add_mul_div_left _ _ (Nat.two_pow_pos _), Nat.add_mul_mod_self_left]
    · rw [bits, Nat.add_mul_div_left _ _ (Nat.two_pow_pos _), Nat.div_eq_of_lt (packed_lt hf k), Nat.zero_add, Nat.mod_eq_of_lt (hf k)]

end

/-- Bits of bits. -/
theorem bits_bits {a n : Nat} (v : Nat) {b m : Nat} (h : b + m ≤ n) : bits (bits v a n) b m = bits v (a + b) m := by
  apply Nat.eq_of_testBit_eq
  intro i
  rw [testBit_bits, testBit_bits, testBit_bits, Nat.add_assoc]
  by_cases hi : i < m
  · rw [decide_eq_true (by omega : b + i < n), Bool.true_and]
  · simp [hi]

/-! ### Mantissas of a beat -/

/-- A beat whose field was packed from these mantissas holds them. -/
theorem mantissa_packMant {b : Beat} {l : List Int} (hb : b.mant = packMant l) (hl : ∀ v ∈ l, fitsIn 12 v) {k : Nat} (hk : k < 16) :
    mantissa b k = l.getD k 0 := by
  have hfield (i : Nat) : low 12 (l.getD i 0) < 2 ^ 12 := low_lt 12 _
  have hnat : b.mant.toNat = packed 12 (fun i => low 12 (l.getD i 0)) 16 := by
    rw [hb, packMant, BitVec.toNat_ofNat]
    exact Nat.mod_eq_of_lt (packed_lt hfield 16)
  rw [mantissa, hnat, bits_packed hfield hk, sext_low (by decide) (mem_getD_of (fitsIn_zero 12) hl k)]

end Sys2Proof.Machine

/-!
Rows as integers (06 R143): what an operation reads from beats and from a sum-bus row.
-/
namespace Sys2Proof.Machine

/-! ### Beats laid end to end -/

theorem beatsFor_mul (n : Nat) : n ≤ 16 * beatsFor n := by
  unfold beatsFor
  omega

/-- The first n values of x. -/
def firstN {α : Type} (n : Nat) (x : Nat → α) : List α := (List.range n).map x

section
variable {α : Type}

@[simp] theorem length_firstN (n : Nat) (x : Nat → α) : (firstN n x).length = n := by simp [firstN]

theorem firstN_congr {n : Nat} {x y : Nat → α} (h : ∀ j, j < n → x j = y j) : firstN n x = firstN n y :=
  List.map_congr_left (fun j hj => h j (List.mem_range.mp hj))

theorem map_firstN {β : Type} (n : Nat) (x : Nat → α) (g : α → β) : (firstN n x).map g = firstN n (fun j => g (x j)) := List.map_map

theorem mem_firstN {n : Nat} {x : Nat → α} {v : α} : v ∈ firstN n x ↔ ∃ j, j < n ∧ x j = v := by simp [firstN]

theorem take_firstN (k n : Nat) (x : Nat → α) : (firstN n x).take k = firstN (min k n) x := by
  rw [firstN, ← List.map_take, List.take_range, firstN]

theorem getD_firstN (n : Nat) (x : Nat → α) (d : α) (j : Nat) : (firstN n x).getD j d = if j < n then x j else d := by
  rw [List.getD_eq_getElem?_getD, firstN]
  split
  · simp [*]
  · simp [*]

theorem getD_firstN_lt {n : Nat} (x : Nat → α) (d : α) {j : Nat} (h : j < n) : (firstN n x).getD j d = x j := by
  rw [getD_firstN, if_pos h]

end

theorem allMants_cons (b : Beat) (l : List TakenItem) : allMants (.beat b :: l) = mantissas b ++ allMants l := rfl

/-- Every mantissa of these beats, counted through. -/
theorem allMants_beats (bs : List Beat) :
    allMants (bs.map .beat) = firstN (16 * bs.length) (fun n => mantissa (bs.getD (n / 16) zeroBeat) (n % 16)) := by
  induction bs with
  | nil => rfl
  | cons b r ih =>
    have hlen : 16 * (b :: r).length = 16 + 16 * r.length := by rw [List.length_cons]; omega
    have hhead : (List.range 16).map (fun n => mantissa ((b :: r).getD (n / 16) zeroBeat) (n % 16)) = mantissas b := by
      refine List.map_congr_left (fun n hn => ?_)
      have h := List.mem_range.mp hn
      rw [Nat.div_eq_of_lt h, Nat.mod_eq_of_lt h, List.getD_cons_zero]
    rw [List.map_cons, allMants_cons, ih, hlen, firstN, firstN, List.range_add, List.map_append, List.map_map, hhead]
    congr 1
    refine List.map_congr_left (fun n _ => ?_)
    have hdiv : (16 + n) / 16 = n / 16 + 1 := by omega
    rw [Function.comp_apply, hdiv, Nat.add_mod_left, List.getD_cons_succ]

theorem ofNat_toNat_exp (e : BitVec 6) : BitVec.ofNat 6 e.toNat = e := (BitVec.ofNat_toNat 6 e).trans (BitVec.setWidth_eq e)

theorem headD_beats (bs : List Beat) : itemBeat ((bs.map .beat).headD (.beat zeroBeat)) = bs.headD zeroBeat := by
  cases bs <;> rfl

section
variable {l : List TakenItem} {n : Nat} {x : Nat → Int} {e : BitVec 6}

/-- The mantissas of a row in beats. -/
theorem beatRow.take_allMants (h : beatRow l n x e) : (allMants l).take n = firstN n x := by
  obtain ⟨bs, rfl, hlen, -, hx⟩ := h
  have := beatsFor_mul n
  rw [allMants_beats, take_firstN, Nat.min_eq_left (by omega)]
  exact (firstN_congr hx).symm

/-- The exponent of a row in beats is that of its first beat. -/
theorem beatRow.exp_head (h : beatRow l n x e) : (itemBeat (l.headD (.beat zeroBeat))).exp = e := by
  obtain ⟨bs, rfl, -, he, -⟩ := h
  rw [headD_beats, he]

theorem beatRow.fits (h : beatRow l n x e) {j : Nat} (hj : j < n) : fitsIn 12 (x j) := by
  obtain ⟨bs, -, -, -, hx⟩ := h
  exact hx j hj ▸ fitsIn_mantissa _ _

/-- A row of one element or more begins with a beat of its exponent. -/
theorem beatRow.eq_cons (h : beatRow l n x e) (hn : 0 < n) : ∃ b r, l = .beat b :: r ∧ b.exp = e := by
  obtain ⟨bs, rfl, hlen, he, -⟩ := h
  cases bs with
  | nil =>
    have := beatsFor_mul n
    rw [List.length_nil] at hlen
    omega
  | cons b r => exact ⟨b, r.map .beat, rfl, he⟩

end

/-! ### What an operation word reads -/

theorem wLen_pos (w : Word64) : 0 < wLen w := Nat.succ_pos _

theorem wLen_le (w : Word64) : wLen w ≤ 1024 := Nat.mod_lt _ (by decide)

section
variable {w : Word64} {l : List TakenItem} {x : Nat → Int} {u : Int}

/-- The row as the operations see it. -/
theorem readsRow.rowOf_eq (h : readsRow w l x u) (free : Nat) : rowOf l (wLen w) (wQin w) free = (firstN (wLen w) x, u) := by
  rcases h with ⟨bs, hl, hlen, hu, hx⟩ | ⟨r, rfl, hvalid, hlen, hu, hx⟩ | ⟨r, rfl, hvalid, hu, hx⟩
  · have hrow : beatRow l (wLen w) x (bs.headD zeroBeat).exp := ⟨bs, hl, hlen, rfl, hx⟩
    obtain ⟨b, r, rfl, he⟩ := hrow.eq_cons (wLen_pos w)
    rw [rowOf, hrow.take_allMants, he, hu]
  · have hvals : rowValues r (wLen w) free = firstN (wLen w) x := by
      refine firstN_congr (fun j hj => ?_)
      rw [hvalid, hx j hj, if_neg (by decide), if_pos (by omega)]
    rw [rowOf, hvals, if_pos hvalid, hu]
  · have hvals : rowValues r (wLen w) free = firstN (wLen w) x := by
      refine firstN_congr (fun j hj => ?_)
      rw [hvalid, hx j hj, if_pos (by decide)]
    rw [rowOf, hvals, if_neg (by simp [hvalid]), hu]
    rfl

/-- No unit of a row lies below 2^-95. -/
theorem readsRow.unit_ge (h : readsRow w l x u) : -95 ≤ u := by
  have hq : wQin w < 64 := Nat.mod_lt _ (by decide)
  rcases h with ⟨bs, -, -, hu, -⟩ | ⟨r, -, -, -, hu, -⟩ | ⟨r, -, -, hu, -⟩ <;> omega

end

end Sys2Proof.Machine

/-!
Rounding and emission (03 R77, R80 to R82): the nearest integer, the measured exponent, and the beats of an emitted row.
-/
namespace Sys2Proof.Machine

/-! ### Rounding -/

/-- v is the integer nearest to a / b, ties to even. -/
def isNearest (a b v : Int) : Prop := 2 * |a - v * b| ≤ b ∧ (2 * |a - v * b| = b → v % 2 = 0)

/-- There is one nearest integer. -/
theorem isNearest.unique {a b v v' : Int} (hb : 0 < b) (h : isNearest a b v) (h' : isNearest a b v') : v = v' := by
  have key {p q : Int} (hp : isNearest a b p) (hq : isNearest a b q) : p ≤ q := by
    by_contra hlt
    have hstep : q * b + b ≤ p * b := by nlinarith
    have h1 := neg_abs_le (a - p * b)
    have h2 := le_abs_self (a - q * b)
    have hpe := hp.2 (by linarith [hp.1, hq.1])
    have hqe := hq.2 (by linarith [hp.1, hq.1])
    have htwo : q * b + 2 * b ≤ p * b := by nlinarith [(by omega : q + 2 ≤ p)]
    linarith [hp.1, hq.1]
  exact le_antisymm (key h h') (key h' h)

/-- A shift with rounding gives the nearest integer. -/
theorem isNearest_rneShift (x : Int) {n : Nat} (hn : 1 ≤ n) : isNearest x (2 ^ n : Nat) (rneShift x n) := by
  have hdouble : ((2 ^ n : Nat) : Int) = 2 * (2 ^ (n - 1) : Nat) := by
    rw [← Nat.two_pow_pred_mul_two hn]; push_cast; ring
  have hpos : (0 : Int) < (2 ^ (n - 1) : Nat) := by exact_mod_cast Nat.two_pow_pos (n - 1)
  have hdm := Int.mul_ediv_add_emod x (2 ^ n : Nat)
  have h0 := Int.emod_nonneg x (by omega : ((2 ^ n : Nat) : Int) ≠ 0)
  have h1 := Int.emod_lt_of_pos x (by omega : (0 : Int) < (2 ^ n : Nat))
  rw [rneShift, if_neg (by omega)]
  generalize ((2 ^ (n - 1) : Nat) : Int) = h at *
  generalize ((2 ^ n : Nat) : Int) = d at *
  generalize x / d = f at *
  have hr : x - f * d = x % d := by linarith [mul_comm d f]
  have hup : x - (f + 1) * d = x % d - d := by linarith [mul_comm d f]
  simp only [hr]
  unfold isNearest
  split
  · rw [hup, abs_of_nonpos (by omega)]
    omega
  · rw [hr, abs_of_nonneg h0]
    omega

theorem scaleBy_natCast (x : Int) (n : Nat) : scaleBy x n = x * 2 ^ n := by
  simp [scaleBy]

theorem scaleBy_neg (x : Int) (n : Nat) : scaleBy x (-(n : Int)) = rneShift x n := by
  unfold scaleBy
  split
  · have hn : n = 0 := by omega
    simp [hn, rneShift]
  · simp

theorem isNearest_scaleBy_neg (x : Int) {n : Nat} (hn : 1 ≤ n) : isNearest x (2 ^ n : Nat) (scaleBy x (-(n : Int))) :=
  scaleBy_neg x n ▸ isNearest_rneShift x hn

theorem scaleBy_zero_left (k : Int) : scaleBy 0 k = 0 := by
  unfold scaleBy rneShift
  have := Nat.two_pow_pos ((-k).toNat - 1)
  split
  · simp
  · split
    · rfl
    · simp

/-! ### Mantissas and exponents -/

theorem emitMant_eq (x u : Int) (e : Nat) : emitMant x u e = max (-2047) (min 2047 (scaleBy x (u + 32 - e))) := by
  unfold emitMant
  simp only
  split
  · omega
  · split <;> omega

theorem fitsIn_emitMant (x u : Int) (e : Nat) : fitsIn 12 (emitMant x u e) := by
  rw [emitMant_eq, fitsIn]
  omega

theorem fitsAt_iff (xs : List Int) (u : Int) (e : Nat) : fitsAt xs u e = true ↔ ∀ x ∈ xs, (scaleBy x (u + 32 - e)).natAbs ≤ 2047 := by
  have h (x : Int) : (decide (-2047 ≤ scaleBy x (u + 32 - e)) && decide (scaleBy x (u + 32 - e) ≤ 2047)) = true ↔
      (scaleBy x (u + 32 - e)).natAbs ≤ 2047 := by
    rw [Bool.and_eq_true, decide_eq_true_iff, decide_eq_true_iff]
    omega
  simp only [fitsAt, List.all_eq_true, h]

/-- The measured exponent is the least that limits no element, or 63 (R81). -/
theorem measuredExp_spec (xs : List Int) (u : Int) :
    measuredExp xs u < 64 ∧ (∀ f : Nat, f < measuredExp xs u → ∃ x ∈ xs, 2047 < (scaleBy x (u + 32 - f)).natAbs) ∧
      (measuredExp xs u < 63 → ∀ x ∈ xs, (scaleBy x (u + 32 - measuredExp xs u)).natAbs ≤ 2047) := by
  have notFit {f : Nat} (h : ¬ fitsAt xs u f = true) : ∃ x ∈ xs, 2047 < (scaleBy x (u + 32 - f)).natAbs := by
    rw [fitsAt_iff] at h
    push Not at h
    exact h
  unfold measuredExp
  split
  case isTrue hzero =>
    refine ⟨by decide, fun f hf => absurd hf (Nat.not_lt_zero f), fun _ x hx => ?_⟩
    rw [of_decide_eq_true (List.all_eq_true.mp hzero x hx), scaleBy_zero_left]
    decide
  case isFalse =>
    cases hfind : (List.range 64).find? (fitsAt xs u) with
    | none =>
      refine ⟨by decide, fun f hf => notFit ?_, fun h => absurd h (by decide)⟩
      exact List.find?_eq_none.mp hfind f (List.mem_range.mpr (Nat.lt_succ_of_lt hf))
    | some e =>
      obtain ⟨hfit, hlt, hleast⟩ := List.find?_range_eq_some.mp hfind
      refine ⟨List.mem_range.mp hlt, fun f hf => notFit (by simpa using hleast f hf), fun _ => (fitsAt_iff xs u e).mp hfit⟩

/-! ### Emitted beats -/

section
variable (ms : List Int) (n e : Nat) (tag : BitVec 6) (bad late : Nat → Bool)

@[simp] theorem length_beatsOf : (beatsOf ms n e tag bad late).length = n := by simp [beatsOf]

variable {ms n e tag bad late}

theorem exp_beatsOf {y : Beat} (h : y ∈ beatsOf ms n e tag bad late) : y.exp = BitVec.ofNat 6 e := by
  obtain ⟨j, -, rfl⟩ := List.mem_map.mp h
  rfl

theorem bad_beatsOf {y : Beat} (h : y ∈ beatsOf ms n e tag bad late) : ∃ j, y.bad = bad j := by
  obtain ⟨j, -, rfl⟩ := List.mem_map.mp h
  exact ⟨j, rfl⟩

theorem getD_beatsOf {j : Nat} (h : j < n) :
    (beatsOf ms n e tag bad late).getD j zeroBeat =
      ⟨packMant (slice ms (16 * j) 16), BitVec.ofNat 6 e, tag, bad j, late j, decide (j = 0), decide (j + 1 = n)⟩ :=
  getD_firstN_lt _ _ h

/-- The mantissas of a row's beats, counted through: the row's, and zeros behind. -/
theorem mantissa_beatsOf (hms : ∀ v ∈ ms, fitsIn 12 v) {j : Nat} (h : j < 16 * n) :
    mantissa ((beatsOf ms n e tag bad late).getD (j / 16) zeroBeat) (j % 16) = ms.getD j 0 := by
  have hslice : ∀ v ∈ slice ms (16 * (j / 16)) 16, fitsIn 12 v := fun v hv => hms v (List.mem_of_mem_drop (List.mem_of_mem_take hv))
  have hmod : j % 16 < 16 := Nat.mod_lt j (by decide)
  rw [getD_beatsOf (by omega), mantissa_packMant rfl hslice hmod, slice, List.getD_eq_getElem?_getD, List.getElem?_take_of_lt hmod,
    List.getElem?_drop, Nat.div_add_mod, ← List.getD_eq_getElem?_getD]

end

section
variable {measured : Bool} {eout eout' : Nat} (len : Nat) (x : Nat → Int) (u : Int) (tag : BitVec 6) (bad late : Nat → Bool)

/-- The beats of an emission step are the emission of the row (R80 to R82). -/
theorem emitsRow_beatsOf (hlt : eout < 64) (heq : measured = false → eout = eout') :
    emitsRow (beatsOf (emitRow measured eout (firstN len x) u).1 (beatsFor len) (emitRow measured eout (firstN len x) u).2 tag bad late)
      measured eout' len x u := by
  obtain ⟨hm, hleast, hfits⟩ := measuredExp_spec (firstN len x) u
  have hfst : (emitRow measured eout (firstN len x) u).1 =
    firstN len (fun j => emitMant (x j) u (emitRow measured eout (firstN len x) u).2) := map_firstN len x _
  have he : (emitRow measured eout (firstN len x) u).2 = if measured = true then measuredExp (firstN len x) u else eout := rfl
  rw [hfst]
  generalize (emitRow measured eout (firstN len x) u).2 = e at *
  have he64 : e < 64 := by rw [he]; split <;> assumption
  refine ⟨length_beatsOf _ _ _ _ _ _, e, he64, ?exponent, ?pinned, ?measuredRow, ?mantissas, ?marks⟩
  case exponent =>
    intro y hy
    rw [exp_beatsOf hy, BitVec.toNat_ofNat, Nat.mod_eq_of_lt he64]
  case pinned =>
    intro h
    rw [he, h]
    exact heq h
  case measuredRow =>
    rintro rfl
    rw [if_pos rfl] at he
    rw [he]
    refine ⟨fun f hf => ?_, fun h63 n hn => hfits h63 _ (mem_firstN.mpr ⟨n, hn, rfl⟩)⟩
    obtain ⟨v, hv, hlimit⟩ := hleast f hf
    obtain ⟨n, hn, rfl⟩ := mem_firstN.mp hv
    exact ⟨n, hn, hlimit⟩
  case mantissas =>
    intro j hj
    rw [length_beatsOf] at hj
    have hms : ∀ v ∈ firstN len (fun j => emitMant (x j) u e), fitsIn 12 v := by
      intro v hv
      obtain ⟨n, -, rfl⟩ := mem_firstN.mp hv
      exact fitsIn_emitMant _ _ _
    rw [mantissa_beatsOf hms hj, getD_firstN, emitMant_eq]
  case marks =>
    intro j hj
    rw [length_beatsOf] at hj ⊢
    rw [getD_beatsOf hj]
    exact ⟨rfl, rfl⟩

end

section
variable (i : FIn) (x : Nat → Int) (u : Int) (bad : Bool)

theorem wEout_lt (w : Word64) : wEout w < 64 := Nat.mod_lt _ (by decide)

theorem emitAll_emitsRow {measured : Bool} {eout : Nat} (h : measured = false → wEout i.w = eout) (len : Nat) :
    emitsRow (emitAll i measured (firstN len x) u bad) measured eout len x u := by
  have := emitsRow_beatsOf len x u (firstTag i) (fun _ => anyBad i || bad) (fun _ => anyLate i) (wEout_lt i.w) h
  rw [emitAll, length_firstN]
  exact this

theorem emitByBeat_emitsRow (measured : Bool) (len : Nat) :
    emitsRow (emitByBeat i measured (firstN len x) u bad) measured (wEout i.w) len x u := by
  rw [emitByBeat, length_firstN]
  exact emitsRow_beatsOf len x u _ _ _ (wEout_lt i.w) (fun _ => rfl)

end

end Sys2Proof.Machine

/-!
The operations that emit one row from one (06 R146 to R149): ROWX, PIN, ACT, EXPT, NORM and RCP.
-/
namespace Sys2Proof.Machine

/-! ### The operation of an opcode (06 R146) -/

section
variable {i : FIn}

theorem operate_act (h : opcode i.w = 0x10) : operate i = opAct i := by simp only [operate, h]
theorem operate_rowx (h : opcode i.w = 0x11) : operate i = opRowx i := by simp only [operate, h]
theorem operate_pin (h : opcode i.w = 0x12) : operate i = opPin i := by simp only [operate, h]
theorem operate_norm (h : opcode i.w = 0x13) : operate i = opNorm i := by simp only [operate, h]
theorem operate_expt (h : opcode i.w = 0x14) : operate i = opExpt i := by simp only [operate, h]
theorem operate_rcp (h : opcode i.w = 0x15) : operate i = opRcp i := by simp only [operate, h]
theorem operate_reduce (h : opcode i.w = 0x16) : operate i = opReduce i := by simp only [operate, h]
theorem operate_pool (h : opcode i.w = 0x17) : operate i = opPool i := by simp only [operate, h]
theorem operate_sort16 (h : opcode i.w = 0x18) : operate i = opSort16 i := by simp only [operate, h]
theorem operate_topk (h : opcode i.w = 0x19) : operate i = opTopk i := by simp only [operate, h]
theorem operate_gather (h : opcode i.w = 0x1A) : operate i = opGather i := by simp only [operate, h]
theorem operate_scatter (h : opcode i.w = 0x1B) : operate i = opScatter i := by simp only [operate, h]
theorem operate_thresh (h : opcode i.w = 0x1C) : operate i = opThresh i := by simp only [operate, h]

end

/-! ### Sums and extremes of rows -/

theorem foldl_squares_eq_sum (l : List Int) : l.foldl (fun a v => a + v * v) 0 = (l.map (fun v => v * v)).sum := by
  rw [List.sum_eq_foldl, List.foldl_map]

theorem foldl_max_headD {l : List Int} {m d : Int} (hm : m ∈ l) (hle : ∀ v ∈ l, v ≤ m) : l.foldl max (l.headD d) = m := by
  have h : l.max? = some m := List.max?_eq_some_iff.mpr ⟨hm, hle⟩
  cases l with
  | nil => cases h
  | cons a r => simpa [List.max?] using h

theorem foldl_min_headD {l : List Int} {m d : Int} (hm : m ∈ l) (hle : ∀ v ∈ l, m ≤ v) : l.foldl min (l.headD d) = m := by
  have h : l.min? = some m := List.min?_eq_some_iff.mpr ⟨hm, hle⟩
  cases l with
  | nil => cases h
  | cons a r => simpa [List.min?] using h

/-! ### ROWX, PIN, ACT and EXPT -/

section
variable {i : FIn} {x z : Nat → Int} {u : Int} (hrow : readsRow i.w i.a x u)
include hrow

theorem rowx_emitsRow (h : opcode i.w = 0x11) : emitsRow (operate i).beats true 0 (wLen i.w) x u := by
  rw [operate_rowx h, opRowx, hrow.rowOf_eq]
  exact emitAll_emitsRow i x u false (fun hf => absurd hf (by decide)) (wLen i.w)

theorem pin_emitsRow (h : opcode i.w = 0x12) : emitsRow (operate i).beats false (wEout i.w) (wLen i.w) x u := by
  rw [operate_pin h, opPin, hrow.rowOf_eq]
  exact emitByBeat_emitsRow i x u false false (wLen i.w)

omit hrow in
theorem sat16_eq (v : Int) : sat16 v = max (-32768) (min 32767 v) := by
  unfold sat16
  split
  · omega
  · split <;> omega

omit hrow in
/-- The piecewise-linear function reads slope and intercept of one segment. -/
theorem pwl_eq (v : Int) : pwl i v = pieceAtZ i v := by
  simp only [pwl, bits_bits _ (by decide : 0 + 16 ≤ 32), bits_bits _ (by decide : 16 + 16 ≤ 32), Nat.add_zero]
  rfl

theorem act_emitsRow (h : opcode i.w = 0x10)
    (hz : ∀ n : Nat, n < wLen i.w → z n = max (-32768) (min 32767 (scaleBy (x n) (u + 40 - (bits (tableAt i 0) 0 6 : Nat)) +
      (if wf i.w 14 1 = 1 then sext 16 (bits (tableAt i (129 + n / 4)) (16 * (n % 4)) 16) else 0)))) :
    emitsRow (operate i).beats (wMeasured i.w) (wEout i.w) (wLen i.w) (fun n => pieceAtZ i (z n)) ((bits (tableAt i 0) 8 6 : Nat) - 40) := by
  have hpieces : ((List.range (firstN (wLen i.w) x).length).map (fun j => sat16 (scaleBy ((firstN (wLen i.w) x).getD j 0)
      (u + 40 - (bits (tableWord i 0) 0 6 : Nat)) + (if decide (wf i.w 14 1 = 1) = true then
        sext 16 (bits (tableWord i (129 + j / 4)) (16 * (j % 4)) 16) else 0)))).map (pwl i) = firstN (wLen i.w) (fun n => pieceAtZ i (z n)) := by
    rw [length_firstN, List.map_map]
    refine firstN_congr (fun n hn => ?_)
    rw [Function.comp_apply, pwl_eq, getD_firstN_lt _ _ hn, sat16_eq, hz n hn]
    simp only [decide_eq_true_iff]
    rfl
  rw [operate_act h, opAct, hrow.rowOf_eq]
  simp only [hpieces]
  exact emitByBeat_emitsRow i _ _ _ (wMeasured i.w) (wLen i.w)

theorem expt_emitsRow {mx : Int} (h : opcode i.w = 0x14) (hmem : ∃ n : Nat, n < wLen i.w ∧ x n = mx) (hle : ∀ n : Nat, n < wLen i.w → x n ≤ mx)
    (hz : ∀ n : Nat, n < wLen i.w → z n = max (-32768) (scaleBy (x n - mx) (u + 40 - (bits (tableAt i 0) 0 6 : Nat)))) :
    emitsRow (operate i).beats (wMeasured i.w) (wEout i.w) (wLen i.w) (fun n => pieceAtZ i (z n)) ((bits (tableAt i 0) 8 6 : Nat) - 40) := by
  have hmax : (firstN (wLen i.w) x).foldl max ((firstN (wLen i.w) x).headD 0) = mx := by
    refine foldl_max_headD (mem_firstN.mpr hmem) (fun v hv => ?_)
    obtain ⟨n, hn, rfl⟩ := mem_firstN.mp hv
    exact hle n hn
  have hpieces : ((firstN (wLen i.w) x).map (fun v => max (-32768) (scaleBy (v - mx) (u + 40 - (bits (tableWord i 0) 0 6 : Nat))))).map (pwl i) =
      firstN (wLen i.w) (fun n => pieceAtZ i (z n)) := by
    rw [map_firstN, map_firstN]
    refine firstN_congr (fun n hn => ?_)
    rw [pwl_eq, hz n hn]
    rfl
  rw [operate_expt h, opExpt, hrow.rowOf_eq]
  simp only [hmax, hpieces]
  exact emitAll_emitsRow i _ _ _ (fun _ => rfl) (wLen i.w)

end

/-! ### NORM -/

theorem bitlen_le_iff (n k : Nat) : bitlen n ≤ k ↔ n < 2 ^ k := by
  unfold bitlen
  split
  · next h => simp [h]
  · next h => rw [Nat.succ_le_iff, Nat.log2_lt h]

theorem isqrt_step {n N r : Nat} (hlo : r * r ≤ n) (hhi : n < (r + 2 ^ N) * (r + 2 ^ N)) :
    let s := (List.range N).foldr (fun k r => if (r + 2 ^ k) * (r + 2 ^ k) ≤ n then r + 2 ^ k else r) r
    s * s ≤ n ∧ n < (s + 1) * (s + 1) := by
  induction N generalizing r with
  | zero => exact ⟨hlo, hhi⟩
  | succ N ih =>
    rw [List.range_succ, List.foldr_append, List.foldr_cons, List.foldr_nil]
    split
    · next h =>
      refine ih h ?_
      rwa [Nat.add_assoc, ← Nat.two_mul, ← Nat.pow_succ']
    · next h => exact ih hlo (Nat.lt_of_not_le h)

theorem isqrt_spec {n : Nat} (h : n < 2 ^ 128) : isqrt n * isqrt n ≤ n ∧ n < (isqrt n + 1) * (isqrt n + 1) :=
  isqrt_step (by omega) (by omega)

/-- rho is the integer nearest to 2^47 / sqrt(d), ties to even, said of squares (R148). -/
def isRsqrt47 (d : Int) (rho : Nat) : Prop :=
  (2 * (rho : Int) - 1) * (2 * rho - 1) * d ≤ 2 ^ 96 ∧ 2 ^ 96 ≤ (2 * (rho : Int) + 1) * (2 * rho + 1) * d ∧
    (rho % 2 = 1 → (2 * (rho : Int) - 1) * (2 * rho - 1) * d < 2 ^ 96 ∧ 2 ^ 96 < (2 * (rho : Int) + 1) * (2 * rho + 1) * d)

theorem square_mul_lt {s t d : Int} (hd : 0 < d) (hs : 0 ≤ s) (h : s < t) : s * s * d < t * t * d :=
  mul_lt_mul_of_pos_right (mul_self_lt_mul_self hs h) hd

theorem isRsqrt47.unique {d : Int} {p q : Nat} (hd : 0 < d) (hp : isRsqrt47 d p) (hq : isRsqrt47 d q) : p = q := by
  have key {p q : Nat} (hp : isRsqrt47 d p) (hq : isRsqrt47 d q) : p ≤ q := by
    obtain ⟨hplo, -, hpodd⟩ := hp
    obtain ⟨-, hqhi, hqodd⟩ := hq
    by_contra hlt
    rcases (by omega : p = q + 1 ∨ q + 1 < p) with rfl | hfar
    · have hsame : (2 * ((q + 1 : Nat) : Int) - 1) = 2 * q + 1 := by push_cast; ring
      rw [hsame] at hplo hpodd
      rcases Nat.mod_two_eq_zero_or_one q with heven | hodd
      · exact absurd (hpodd (by omega)).1 (by omega)
      · exact absurd (hqodd hodd).2 (by omega)
    · have := square_mul_lt hd (by omega) (by omega : 2 * (q : Int) + 1 < 2 * p - 1)
      omega
  exact le_antisymm (key hp hq) (key hq hp)

/-- Where there is a nearest integer, `rsqrt47` gives one. -/
theorem isRsqrt47_rsqrt47 {d : Nat} (hd : 0 < d) (hmax : d ≤ 2 ^ 96) : isRsqrt47 d (rsqrt47 d) := by
  have hquot : 2 ^ 94 / d < 2 ^ 128 := lt_of_le_of_lt (Nat.div_le_self _ _) (by decide)
  obtain ⟨hlo, hhi⟩ := isqrt_spec hquot
  have hd' : (0 : Int) < d := by exact_mod_cast hd
  rw [Nat.le_div_iff_mul_le hd] at hlo
  rw [Nat.div_lt_iff_lt_mul hd] at hhi
  unfold rsqrt47
  generalize isqrt (2 ^ 94 / d) = r at *
  have hbelow : (2 * (r : Int)) * (2 * r) * d ≤ 2 ^ 96 := by
    have : (r : Int) * r * d ≤ 2 ^ 94 := by exact_mod_cast hlo
    linarith
  have habove : (2 : Int) ^ 96 < (2 * (r : Int) + 2) * (2 * r + 2) * d := by
    have : (2 : Int) ^ 94 < ((r : Int) + 1) * (r + 1) * d := by exact_mod_cast hhi
    linarith
  have hmid : ((2 * r + 1) * (2 * r + 1) * d : Nat) = (2 * (r : Int) + 1) * (2 * r + 1) * d := by push_cast; rfl
  have hnext := square_mul_lt hd' (by omega : 0 ≤ 2 * (r : Int) + 2) (by omega : 2 * (r : Int) + 2 < 2 * r + 3)
  simp only
  split
  · next hup =>
    have hr1 : 2 * ((r + 1 : Nat) : Int) - 1 = 2 * r + 1 := by push_cast; ring
    have hr3 : 2 * ((r + 1 : Nat) : Int) + 1 = 2 * r + 3 := by push_cast; ring
    rw [isRsqrt47, hr1, hr3]
    refine ⟨by omega, by omega, fun hodd => ⟨by omega, by omega⟩⟩
  · next hup =>
    have hprev : (2 * (r : Int) - 1) * (2 * r - 1) * d ≤ 2 ^ 96 ∧ (r % 2 = 1 → (2 * (r : Int) - 1) * (2 * r - 1) * d < 2 ^ 96) := by
      rcases Nat.eq_zero_or_pos r with rfl | hpos
      · exact ⟨by norm_num; exact_mod_cast hmax, fun h => absurd h (by decide)⟩
      · have := square_mul_lt hd' (by omega : 0 ≤ 2 * (r : Int) - 1) (by omega : 2 * (r : Int) - 1 < 2 * r)
        exact ⟨by omega, fun _ => by omega⟩
    refine ⟨hprev.1, by omega, fun hodd => ⟨hprev.2 hodd, by omega⟩⟩

theorem isRsqrt47.eq_rsqrt47 {d rho : Nat} (hd : 0 < d) (h : isRsqrt47 d rho) : rsqrt47 d = rho := by
  have hd' : (0 : Int) < d := by exact_mod_cast hd
  have hodd : (1 : Int) ≤ (2 * (rho : Int) - 1) * (2 * rho - 1) := Int.add_one_le_iff.mpr (mul_self_pos.mpr (by omega))
  have hmax : (d : Int) ≤ 2 ^ 96 := le_trans (le_mul_of_one_le_left hd'.le hodd) h.1
  exact (isRsqrt47_rsqrt47 hd (by exact_mod_cast hmax)).unique hd' h

/-- The shift that brings a number to its leading bits: to 32 bits of it by an even shift (R148). -/
theorem evenShift_eq {d k : Nat} (hlt : d < 2 ^ (32 + 2 * k)) (hge : 0 < k → 2 ^ (30 + 2 * k) ≤ d) : 2 * ((bitlen d - 32 + 1) / 2) = 2 * k := by
  have hup := (bitlen_le_iff d (32 + 2 * k)).mpr hlt
  have hdown : 0 < k → 30 + 2 * k < bitlen d := fun hk => by
    have := mt (bitlen_le_iff d (30 + 2 * k)).mp (Nat.not_lt.mpr (hge hk))
    omega
  omega

theorem norm_emitsRow {i : FIn} {x g o : Nat → Int} {u tot q d dn : Int} {k rho : Nat} (hrow : readsRow i.w i.a x u) (h : opcode i.w = 0x13)
    (htot : tot = (firstN (wLen i.w) x).sum) (hq : q = (firstN (wLen i.w) (fun n => x n * x n)).sum)
    (hd : d = wLen i.w * q - tot * tot + 2 ^ wf i.w 14 5) (hlt : d < 2 ^ (32 + 2 * k)) (hge : 0 < k → 2 ^ (30 + 2 * k) ≤ d)
    (hdn : dn = scaleBy d (-(2 * k : Nat))) (hrho : isRsqrt47 dn rho)
    (htable : ∀ n : Nat, n < wLen i.w → g n = sext 16 (bits (tableAt i (n / 4)) (16 * (n % 4)) 16) ∧
      o n = sext 16 (bits (tableAt i ((wLen i.w + 3) / 4 + n / 4)) (16 * (n % 4)) 16)) :
    emitsRow (operate i).beats (wMeasured i.w) (wEout i.w) (wLen i.w)
      (fun n => scaleBy ((wLen i.w * x n - tot) * rho) (-(35 + k : Nat)) * g n + o n * 65536) (-24) := by
  have hdnpos : 0 < dn := by
    by_contra hneg
    have := mul_nonpos_of_nonneg_of_nonpos (mul_self_nonneg (2 * (rho : Int) + 1)) (not_lt.mp hneg)
    exact absurd hrho.2.1 (by omega)
  rw [scaleBy_neg] at hdn
  have hdpos : 0 < d := by
    rcases Nat.eq_zero_or_pos k with rfl | hk
    · rw [hdn] at hdnpos
      exact hdnpos
    · exact lt_of_lt_of_le (by positivity) (hge hk)
  lift d to Nat using hdpos.le
  lift dn to Nat using hdnpos.le
  have hshift : 2 * ((bitlen d - 32 + 1) / 2) = 2 * k :=
    evenShift_eq (by exact_mod_cast hlt) (fun hk => by exact_mod_cast hge hk)
  have hsum : (firstN (wLen i.w) x).foldl (· + ·) 0 = tot := by rw [← List.sum_eq_foldl, htot]
  have hsquares : (firstN (wLen i.w) x).foldl (fun a v => a + v * v) 0 = q := by rw [foldl_squares_eq_sum, map_firstN, hq]
  have hvar : ((wLen i.w : Int) * q - tot * tot + (2 ^ wf i.w 14 5 : Nat)).toNat = d := by push_cast; rw [← hd]; rfl
  have hrsqrt : rsqrt47 (rneShift (d : Int) (2 * k)).toNat = rho := by
    rw [← hdn]
    exact hrho.eq_rsqrt47 (by exact_mod_cast hdnpos)
  rw [operate_norm h, opNorm, hrow.rowOf_eq]
  simp only [hsum, hsquares, hvar, hshift, hrsqrt, Nat.mul_div_cancel_left k (by decide : 0 < 2)]
  refine (congrArg (fun ys => emitsRow (emitAll i (wMeasured i.w) ys (-24) _) _ _ _ _ _) ?_).mpr
    (emitAll_emitsRow i _ _ _ (fun _ => rfl) (wLen i.w))
  refine firstN_congr (fun n hn => ?_)
  rw [getD_firstN_lt _ _ hn, scaleBy_neg, (htable n hn).1, (htable n hn).2]
  rfl

/-! ### RCP -/

/-- `nearest` gives the nearest integer. -/
theorem isNearest_nearest (a : Nat) {b : Nat} (hb : 0 < b) : isNearest a b (nearest a b) := by
  have hdm := Nat.div_add_mod a b
  have hlt := Nat.mod_lt a hb
  have hr : (a : Int) - (a / b : Nat) * b = (a % b : Nat) := by
    have : ((b * (a / b) + a % b : Nat) : Int) = a := by rw [hdm]
    push_cast at this ⊢
    linarith
  have hup : (a : Int) - (a / b + 1 : Nat) * b = (a % b : Nat) - b := by push_cast at hr ⊢; linarith
  unfold nearest isNearest
  simp only
  split
  · rw [hup, abs_of_nonpos (by omega)]
    omega
  · rw [hr, abs_of_nonneg (by omega)]
    omega

/-- The shift that brings a number to its 24 leading bits (R149). -/
theorem leadShift_eq {s k : Nat} (hlt : s < 2 ^ (24 + k)) (hge : 0 < k → 2 ^ (23 + k) ≤ s) : bitlen s - 24 = k := by
  have hup := (bitlen_le_iff s (24 + k)).mpr hlt
  have hdown : 0 < k → 23 + k < bitlen s := fun hk => by
    have := mt (bitlen_le_iff s (23 + k)).mp (Nat.not_lt.mpr (hge hk))
    omega
  omega

section
variable {i : FIn} {x : Nat → Int} {u tot : Int} (hrow : readsRow i.w i.a x u) (h : opcode i.w = 0x15) (htot : tot = (firstN (wLen i.w) x).sum)
include hrow h htot

/-- A sum that is not positive has no reciprocal: RCP emits marked zeros and counts. -/
theorem rcp_of_nonpos (hpos : tot ≤ 0) :
    emitsRow (operate i).beats (wMeasured i.w) (wEout i.w) (wLen i.w) (fun _ => 0) u ∧ (∀ y ∈ (operate i).beats, y.bad = true) ∧
      (operate i).range = 1 := by
  have hzero : (firstN (wLen i.w) x).map (fun _ => (0 : Int)) = firstN (wLen i.w) (fun _ => 0) := map_firstN _ _ _
  rw [operate_rcp h, opRcp, hrow.rowOf_eq]
  simp only [← List.sum_eq_foldl, ← htot, if_pos hpos, hzero]
  refine ⟨?_, fun y hy => ?_, trivial⟩
  · have := emitAll_emitsRow i (fun _ => 0) (-48) true (measured := wMeasured i.w) (fun _ => rfl) (wLen i.w)
    simpa only [emitsRow, scaleBy_zero_left] using this
  · obtain ⟨j, hj⟩ := bad_beatsOf hy
    rw [hj, Bool.or_true]

theorem rcp_of_pos {sn : Int} {k rho : Nat} (hpos : 0 < tot) (hlt : tot < 2 ^ (24 + k)) (hge : 0 < k → 2 ^ (23 + k) ≤ tot)
    (hsn : sn = scaleBy tot (-(k : Int))) (hrho : isNearest (2 ^ 48) sn rho) :
    emitsRow (operate i).beats (wMeasured i.w) (wEout i.w) (wLen i.w) (fun n => x n * rho) (-48 - k) := by
  have hsnpos : 0 < sn := by
    rcases Nat.eq_zero_or_pos k with rfl | hk
    · rw [hsn, scaleBy_neg]
      exact hpos
    · have hnear := (isNearest_scaleBy_neg tot hk).1
      have hk2 := hge hk
      rw [← hsn] at hnear
      by_contra hneg
      have hprod := mul_nonpos_of_nonpos_of_nonneg (not_lt.mp hneg) (by positivity : (0 : Int) ≤ (2 ^ k : Nat))
      have habs := le_abs_self (tot - sn * (2 ^ k : Nat))
      have hpow : (2 : Int) ^ (23 + k) = 2 ^ 23 * (2 ^ k : Nat) := by push_cast; exact pow_add _ _ _
      have hkpos : (0 : Int) < (2 ^ k : Nat) := by positivity
      omega
  rw [scaleBy_neg] at hsn
  lift tot to Nat using hpos.le
  lift sn to Nat using hsnpos.le
  have hsn0 : 0 < sn := by exact_mod_cast hsnpos
  have hshift : bitlen tot - 24 = k := leadShift_eq (by exact_mod_cast hlt) (fun hk => by exact_mod_cast hge hk)
  have hnearest : nearest (2 ^ 48) sn = rho := by
    have := (isNearest_nearest (2 ^ 48) hsn0).unique hsnpos (by exact_mod_cast hrho)
    exact_mod_cast this
  rw [operate_rcp h, opRcp, hrow.rowOf_eq]
  simp only [← List.sum_eq_foldl, ← htot, if_neg (not_le.mpr hpos), Int.toNat_natCast, hshift, ← hsn, hnearest, map_firstN]
  exact emitAll_emitsRow i _ _ _ (fun _ => rfl) (wLen i.w)

end

end Sys2Proof.Machine

/-!
The operations that emit one row from several (06 R146, R154): POOL and REDUCE.
-/
namespace Sys2Proof.Machine

/-! ### POOL -/

section
variable {i : FIn} {x : Nat → Nat → Int} {u : Nat → Int}

theorem poolRows_eq (hrows : ∀ j, j < wNobj i.w → readsRow i.w (slice i.a ((if wSrc i.w = 16 then 1 else beatsFor (wLen i.w)) * j)
      (if wSrc i.w = 16 then 1 else beatsFor (wLen i.w))) (x j) (u j)) :
    poolRows i = firstN (wNobj i.w) (fun j => (firstN (wLen i.w) (x j), u j)) :=
  firstN_congr (fun j hj => (hrows j hj).rowOf_eq i.free)

variable {y : Nat → Int} {m : Int}

/-- POOL emits the sum or the maximum of its rows, brought to the finest of their units. -/
theorem pool_emitsRow (h : opcode i.w = 0x17) (hpool : poolRows i = firstN (wNobj i.w) (fun j => (firstN (wLen i.w) (x j), u j)))
    (hle : ∀ j, j < wNobj i.w → m ≤ u j) (hmem : ∃ j, j < wNobj i.w ∧ u j = m)
    (hsum : wf i.w 6 1 = 1 → ∀ n, n < wLen i.w → y n = (firstN (wNobj i.w) (fun j => x j n * 2 ^ (u j - m).toNat)).sum)
    (hmax : wf i.w 6 1 = 0 → ∀ n, n < wLen i.w → (∃ j, j < wNobj i.w ∧ y n = x j n * 2 ^ (u j - m).toNat) ∧
      ∀ j, j < wNobj i.w → x j n * 2 ^ (u j - m).toNat ≤ y n) :
    emitsRow (operate i).beats (wMeasured i.w) (wEout i.w) (wLen i.w) y m := by
  have hunit : (firstN (wNobj i.w) u).foldl min ((firstN (wNobj i.w) u).headD 0) = m := by
    refine foldl_min_headD (mem_firstN.mpr hmem) (fun v hv => ?_)
    obtain ⟨j, hj, rfl⟩ := mem_firstN.mp hv
    exact hle j hj
  rw [operate_pool h, opPool, hpool]
  simp only [map_firstN, hunit]
  refine (congrArg (fun ys => emitsRow (emitAll i (wMeasured i.w) ys m false) _ _ _ _ _) ?_).mpr
    (emitAll_emitsRow i y m false (fun _ => rfl) (wLen i.w))
  refine firstN_congr (fun n hn => ?_)
  have hcol : firstN (wNobj i.w) (fun j => (firstN (wLen i.w) (fun n => x j n * ((2 ^ (u j - m).toNat : Nat) : Int))).getD n 0) =
      firstN (wNobj i.w) (fun j => x j n * 2 ^ (u j - m).toNat) :=
    firstN_congr (fun j _ => by rw [getD_firstN_lt _ _ hn]; push_cast; rfl)
  rw [hcol]
  split
  · next h1 => rw [← List.sum_eq_foldl, hsum (of_decide_eq_true h1) n hn]
  · next h1 =>
    have h0 : wf i.w 6 1 = 0 := by
      have hlt : wf i.w 6 1 < 2 ^ 1 := Nat.mod_lt _ (by decide)
      have hne : wf i.w 6 1 ≠ 1 := fun hc => h1 (decide_eq_true hc)
      omega
    obtain ⟨⟨j, hj, hyj⟩, hall⟩ := hmax h0 n hn
    refine foldl_max_headD (mem_firstN.mpr ⟨j, hj, hyj.symm⟩) (fun v hv => ?_)
    obtain ⟨k, hk, rfl⟩ := mem_firstN.mp hv
    exact hall k hk

end

/-! ### The rows of REDUCE -/

section
variable {i : FIn} {l : List TakenItem} {x : Nat → Int} {u : Int}

/-- A row of REDUCE that is not wide. -/
theorem reduceIn_row (hrow : readsRow i.w l x u) :
    (reduceIn i l false).2.1 = u ∧ ∀ j, j < wLen i.w → (reduceIn i l false).1.getD j 0 = x j := by
  have hrowOf := hrow.rowOf_eq i.free
  rcases hrow with ⟨bs, hl, hlen, hu, hx⟩ | ⟨r, rfl, hvalid, hlen, hu, hx⟩ | ⟨r, rfl, hvalid, hu, hx⟩
  · have hbeats : beatRow l (wLen i.w) x (bs.headD zeroBeat).exp := ⟨bs, hl, hlen, rfl, hx⟩
    obtain ⟨b, r, rfl, -⟩ := hbeats.eq_cons (wLen_pos i.w)
    simp only [reduceIn, Bool.false_eq_true, if_false, hrowOf]
    exact ⟨trivial, fun j hj => getD_firstN_lt x 0 hj⟩
  · simp only [reduceIn, Nat.min_eq_right hlen, hrowOf]
    exact ⟨trivial, fun j hj => getD_firstN_lt x 0 hj⟩
  · simp only [reduceIn, rowOf, rowValues, hvalid]
    refine ⟨by rw [hu]; rfl, fun j hj => ?_⟩
    rw [hx j hj]
    exact (getD_firstN _ _ _ _).trans (ite_self 0)

/-- A row of REDUCE in beats has the exponent field of its first beat. -/
theorem reduceIn_exp {e : BitVec 6} (hrow : beatRow l (wLen i.w) x e) : (reduceIn i l false).2.2 = (e.toNat, true) := by
  obtain ⟨b, r, rfl, rfl⟩ := hrow.eq_cons (wLen_pos i.w)
  rfl

end

/-- y, in units of 2^m, is the sum of the one or two rows that REDUCE reads, the first of them x in units of 2^u. -/
def reducesTo (i : FIn) (x : Nat → Int) (u : Int) (y : Nat → Int) (m : Int) : Prop :=
  i.b = [] ∧ m = u ∧ (∀ n : Nat, n < wLen i.w → y n = x n) ∨
    ∃ x' u', i.b ≠ [] ∧ readsRow i.w i.b x' u' ∧ m = min u u' ∧
      ∀ n : Nat, n < wLen i.w → y n = x n * 2 ^ (u - m).toNat + x' n * 2 ^ (u' - m).toNat

theorem sat48_eq (v : Int) : sat48 v = max (-(2 ^ 47)) (min (2 ^ 47 - 1) v) := by
  unfold sat48 max48 min48
  split
  · omega
  · split <;> omega

theorem fitsIn_sat48 (v : Int) : fitsIn 48 (sat48 v) := by
  rw [sat48_eq, fitsIn]
  omega

section
variable {i : FIn} {x y : Nat → Int} {u m : Int} (hrow : readsRow i.w i.a x u) (hy : reducesTo i x u y m)
include hrow hy

theorem reduce_unit : (if i.b.isEmpty = true then (reduceIn i i.a false).2.1 else min (reduceIn i i.a false).2.1 (reduceIn i i.b false).2.1) = m := by
  rw [(reduceIn_row hrow).1]
  rcases hy with ⟨hb, hm, -⟩ | ⟨x', u', hb, hrow', hm, -⟩
  · rw [if_pos (List.isEmpty_iff.mpr hb), hm]
  · rw [if_neg (mt List.isEmpty_iff.mp hb), (reduceIn_row hrow').1, hm]

theorem reduce_values {n : Nat} (hn : n ≤ wLen i.w) :
    (List.range n).map (fun j => (reduceIn i i.a false).1.getD j 0 * ((2 ^ ((reduceIn i i.a false).2.1 - m).toNat : Nat) : Int) +
      (if i.b.isEmpty = true then 0 else (reduceIn i i.b false).1.getD j 0 * ((2 ^ ((reduceIn i i.b false).2.1 - m).toNat : Nat) : Int))) =
      firstN n y := by
  obtain ⟨hunit, hvals⟩ := reduceIn_row hrow
  refine firstN_congr (fun j hj => ?_)
  rw [hunit, hvals j (hj.trans_le hn)]
  rcases hy with ⟨hb, rfl, hyx⟩ | ⟨x', u', hb, hrow', -, hyx⟩
  · rw [if_pos (List.isEmpty_iff.mpr hb), hyx j (hj.trans_le hn), Int.sub_self, Int.toNat_zero, pow_zero]
    omega
  · obtain ⟨hunit', hvals'⟩ := reduceIn_row hrow'
    rw [if_neg (mt List.isEmpty_iff.mp hb), hunit', hvals' j (hj.trans_le hn), hyx j (hj.trans_le hn)]
    push_cast
    rfl

end

/-! ### Wide rows (R154) -/

section
variable {vals : List Int} {e : Nat} {tag : BitVec 6} {bad late : Bool}

theorem exp_wideBeats {z : Beat} (h : z ∈ wideBeats vals e tag bad late) : z.exp = BitVec.ofNat 6 e := by
  obtain ⟨j, -, rfl⟩ := List.mem_map.mp h
  rfl

theorem value_wideBeats (hvals : ∀ v ∈ vals, fitsIn 48 v) {n : Nat} (hn : n < 32) :
    sext 48 (bits ((wideBeats vals e tag bad late).getD (n / 4) zeroBeat).mant.toNat (48 * (n % 4)) 48) = vals.getD n 0 := by
  have hfield (k : Nat) : low 48 (vals.getD (4 * (n / 4) + k) 0) < 2 ^ 48 := low_lt 48 _
  have hbeat : ((wideBeats vals e tag bad late).getD (n / 4) zeroBeat).mant =
      BitVec.ofNat 192 (packed 48 (fun k => low 48 (vals.getD (4 * (n / 4) + k) 0)) 4) :=
    congrArg Beat.mant (getD_firstN_lt _ zeroBeat (by omega : n / 4 < 8))
  rw [hbeat, BitVec.toNat_ofNat, Nat.mod_eq_of_lt (packed_lt hfield 4), bits_packed hfield (Nat.mod_lt n (by decide)), Nat.div_add_mod,
    sext_low (by decide) (mem_getD_of (fitsIn_zero 48) hvals n)]

end

/-! ### REDUCE -/

section
variable {i : FIn} {x y v : Nat → Int} {u m : Int} (h : opcode i.w = 0x16) (hnarrow : wf i.w 5 2 = 0) (hrow : readsRow i.w i.a x u)
  (hy : reducesTo i x u y m)

theorem wf_narrow {w : Word64} (h : wf w 5 2 = 0) : decide (wf w 5 1 = 1) = false ∧ decide (wf w 6 1 = 1) = false := by
  unfold wf bits at *
  rw [decide_eq_false_iff_not, decide_eq_false_iff_not]
  omega

include h hnarrow hrow hy

theorem reduce_emitsRow (hout : wf i.w 7 1 = 0) (hdst : wDst i.w ≠ 16) :
    emitsRow (operate i).beats (wMeasured i.w) (wEout i.w) (wLen i.w) y m := by
  obtain ⟨ha, hb⟩ := wf_narrow hnarrow
  have hwide : decide (wf i.w 7 1 = 1) = false := by rw [hout]; rfl
  rw [operate_reduce h, opReduce]
  simp only [ha, hb, hwide, decide_eq_false hdst, Bool.or_self, Bool.not_false, Bool.and_self, if_true, Bool.false_eq_true, if_false,
    reduce_unit hrow hy, reduce_values hrow hy le_rfl]
  exact emitAll_emitsRow i y m false (fun _ => rfl) (wLen i.w)

variable {e : BitVec 6}
  (hv : ∀ n : Nat, n < 32 → v n =
    (if n < wLen i.w then max (-(2 ^ 47)) (min (2 ^ 47 - 1) (scaleBy (y n) (m - ((e.toNat : Int) - 32 - wf i.w 8 6)))) else 0))
  (hbeats : beatRow i.a (wLen i.w) x e)

omit h hnarrow hrow hy in
include hv in
/-- The 32 saturated values of a wide result or a sum-bus row. -/
theorem reduce_saturated {n : Nat} (hn : n < 32) :
    (((firstN (min 32 (wLen i.w)) y).map (fun a => scaleBy a (m - ((e.toNat : Int) - 32 - (wf i.w 8 6 : Nat))))).map sat48).getD n 0 = v n := by
  rw [map_firstN, map_firstN, getD_firstN, hv n hn, sat48_eq]
  exact if_congr (by omega) rfl rfl

omit h hnarrow hrow hy in
theorem fitsIn_map_sat48 (l : List Int) : ∀ a ∈ l.map sat48, fitsIn 48 a := by
  intro a ha
  obtain ⟨b, -, rfl⟩ := List.mem_map.mp ha
  exact fitsIn_sat48 b

include hv hbeats

theorem reduce_onBus (hdst : wDst i.w = 16) :
    ∃ r, (operate i).row = some r ∧ r.exp = e ∧ r.expValid = true ∧ ∀ n : Nat, n < 32 → (r.vals.getD n 0).toInt = v n := by
  obtain ⟨ha, hb⟩ := wf_narrow hnarrow
  rw [operate_reduce h, opReduce]
  simp only [ha, hb, decide_eq_true hdst, Bool.or_true, Bool.not_true, Bool.and_false, if_true, Bool.false_eq_true, if_false,
    reduce_unit hrow hy, reduce_values hrow hy (Nat.min_le_right 32 (wLen i.w)), reduceIn_exp hbeats]
  refine ⟨_, rfl, ofNat_toNat_exp e, rfl, fun n hn => ?_⟩
  have hfits := mem_getD_of (fitsIn_zero 48) (fitsIn_map_sat48
    ((firstN (min 32 (wLen i.w)) y).map (fun a => scaleBy a (m - ((e.toNat : Int) - 32 - (wf i.w 8 6 : Nat)))))) n
  rw [show (List.range 32).map _ = firstN 32 _ from rfl, getD_firstN_lt _ _ hn, BitVec.toInt_ofInt_eq_self (by decide) hfits.1 hfits.2]
  exact reduce_saturated hv hn

theorem reduce_wide (hout : wf i.w 7 1 = 1) (hdst : wDst i.w ≠ 16) :
    (operate i).beats.length = 8 ∧ (∀ z ∈ (operate i).beats, z.exp = e) ∧
      ∀ n : Nat, n < 32 → sext 48 (bits ((operate i).beats.getD (n / 4) zeroBeat).mant.toNat (48 * (n % 4)) 48) = v n := by
  obtain ⟨ha, hb⟩ := wf_narrow hnarrow
  rw [operate_reduce h, opReduce]
  simp only [ha, hb, decide_eq_true hout, decide_eq_false hdst, Bool.true_or, Bool.not_true, Bool.false_and, if_true, Bool.false_eq_true,
    if_false, reduce_unit hrow hy, reduce_values hrow hy (Nat.min_le_right 32 (wLen i.w)), reduceIn_exp hbeats]
  refine ⟨rfl, fun z hz => ?_, fun n hn => ?_⟩
  · rw [exp_wideBeats hz, ofNat_toNat_exp]
  · rw [value_wideBeats (fitsIn_map_sat48 _) hn]
    exact reduce_saturated hv hn

end

end Sys2Proof.Machine

/-!
The operations that order mantissas (06 R150): SORT16 and TOPK.
-/
namespace Sys2Proof.Machine

/-! ### The stable order -/

/-- p goes before q: by the key of its value, and of equal keys the lower index first. -/
def goesBefore (key : Int → Int) (p q : Int × Nat) : Prop := key p.1 < key q.1 ∨ key p.1 = key q.1 ∧ p.2 < q.2

theorem insertBy_perm (before : Int × Nat → Int × Nat → Bool) (p : Int × Nat) (l : List (Int × Nat)) : (insertBy before p l).Perm (p :: l) := by
  induction l with
  | nil => exact .refl _
  | cons q r ih =>
    rw [insertBy]
    split
    · exact .refl _
    · exact (ih.cons q).trans (.swap p q r)

section
variable {before : Int × Nat → Int × Nat → Bool} {key : Int → Int} (hbefore : ∀ p q, before p q = true ↔ key p.1 < key q.1)
include hbefore

/-- A pair of the highest index so far goes to its place. -/
theorem insertBy_pairwise {p : Int × Nat} {l : List (Int × Nat)} (hl : l.Pairwise (goesBefore key)) (hp : ∀ q ∈ l, q.2 < p.2) :
    (insertBy before p l).Pairwise (goesBefore key) := by
  induction l with
  | nil => exact List.pairwise_singleton _ _
  | cons q r ih =>
    obtain ⟨hq, hr⟩ := List.pairwise_cons.mp hl
    rw [insertBy]
    split
    · next hpq =>
      have hlt := (hbefore p q).mp hpq
      refine List.pairwise_cons.mpr ⟨fun z hz => .inl ?_, hl⟩
      rcases List.mem_cons.mp hz with rfl | hzr
      · exact hlt
      · rcases hq z hzr with h | ⟨h, -⟩ <;> omega
    · next hpq =>
      have hle := mt (hbefore p q).mpr hpq
      refine List.pairwise_cons.mpr ⟨fun z hz => ?_, ih hr (fun z hz => hp z (List.mem_cons_of_mem q hz))⟩
      rcases List.mem_cons.mp ((insertBy_perm before p r).mem_iff.mp hz) with rfl | hzr
      · have hidx := hp q List.mem_cons_self
        unfold goesBefore
        omega
      · exact hq z hzr

theorem foldl_insertBy {l acc : List (Int × Nat)} (hacc : acc.Pairwise (goesBefore key)) (hl : l.Pairwise (fun p q => p.2 < q.2))
    (hlater : ∀ p ∈ l, ∀ q ∈ acc, q.2 < p.2) :
    (l.foldl (fun acc p => insertBy before p acc) acc).Perm (acc ++ l) ∧
      (l.foldl (fun acc p => insertBy before p acc) acc).Pairwise (goesBefore key) := by
  induction l generalizing acc with
  | nil => exact ⟨by rw [List.append_nil]; rfl, hacc⟩
  | cons p r ih =>
    obtain ⟨hpr, hr⟩ := List.pairwise_cons.mp hl
    have hperm := insertBy_perm before p acc
    have hins := insertBy_pairwise hbefore hacc (hlater p List.mem_cons_self)
    obtain ⟨hperm', hsorted⟩ := ih hins hr (fun s hs q hq => by
      rcases List.mem_cons.mp (hperm.mem_iff.mp hq) with rfl | hqa
      · exact hpr s hs
      · exact hlater s (List.mem_cons_of_mem p hs) q hqa)
    exact ⟨hperm'.trans ((hperm.append_right r).trans List.perm_middle.symm), hsorted⟩

end

/-! ### A sorted row -/

/-- L holds the elements of a row with their indices, in the stable order. -/
def isSorted (key : Int → Int) (n : Nat) (x : Nat → Int) (L : List (Int × Nat)) : Prop :=
  L.Perm (firstN n (fun j => (x j, j))) ∧ L.Pairwise (goesBefore key)

theorem zip_range_firstN {n N : Nat} (x : Nat → Int) (h : n ≤ N) : (firstN n x).zip (List.range N) = firstN n (fun j => (x j, j)) := by
  apply List.ext_getElem
  · simp [h]
  · intro j _ _
    simp [firstN]

theorem isSorted_sortBy {before : Int × Nat → Int × Nat → Bool} {key : Int → Int} (hbefore : ∀ p q, before p q = true ↔ key p.1 < key q.1)
    (n : Nat) (x : Nat → Int) : isSorted key n x (sortBy before (firstN n (fun j => (x j, j)))) := by
  refine foldl_insertBy (acc := []) hbefore List.Pairwise.nil ?_ (fun _ _ q hq => absurd hq List.not_mem_nil)
  rw [firstN, List.pairwise_map]
  exact List.pairwise_lt_range

section
variable {key : Int → Int} {n : Nat} {x : Nat → Int} {L : List (Int × Nat)} (h : isSorted key n x L)
include h

theorem isSorted.length_eq : L.length = n := h.1.length_eq.trans (length_firstN _ _)

/-- An entry is an element of the row with its index. -/
theorem isSorted.entry {j : Nat} (hj : j < n) : (L.getD j (0, 0)).2 < n ∧ (L.getD j (0, 0)).1 = x (L.getD j (0, 0)).2 := by
  have hlen : j < L.length := h.length_eq ▸ hj
  rw [List.getD_eq_getElem _ _ hlen]
  obtain ⟨k, hk, he⟩ := mem_firstN.mp (h.1.mem_iff.mp (List.getElem_mem hlen))
  rw [← he]
  exact ⟨hk, rfl⟩

theorem isSorted.ordered {j k : Nat} (hjk : j < k) (hk : k < n) : goesBefore key (L.getD j (0, 0)) (L.getD k (0, 0)) := by
  have hlen := h.length_eq
  rw [List.getD_eq_getElem _ _ (by omega), List.getD_eq_getElem _ _ (by omega)]
  exact List.pairwise_iff_getElem.mp h.2 j k (by omega) (by omega) hjk

/-- Two entries have different indices, of equal values the lower first. -/
theorem isSorted.indices {j k : Nat} (hjk : j < k) (hk : k < n) : (L.getD j (0, 0)).2 ≠ (L.getD k (0, 0)).2 ∧
    ((L.getD j (0, 0)).1 = (L.getD k (0, 0)).1 → (L.getD j (0, 0)).2 < (L.getD k (0, 0)).2) := by
  have hord := h.ordered hjk hk
  have htie (he : (L.getD j (0, 0)).1 = (L.getD k (0, 0)).1) : (L.getD j (0, 0)).2 < (L.getD k (0, 0)).2 := by
    rcases hord with hlt | ⟨-, hlt⟩
    · rw [he] at hlt
      exact absurd hlt (lt_irrefl _)
    · exact hlt
  refine ⟨fun hidx => ?_, htie⟩
  have hval : (L.getD j (0, 0)).1 = (L.getD k (0, 0)).1 := by rw [(h.entry (hjk.trans hk)).2, (h.entry hk).2, hidx]
  exact absurd (htie hval) (by omega)

theorem isSorted.values_perm : (L.map (·.1)).Perm (firstN n x) := by
  have := h.1.map (·.1)
  rwa [map_firstN] at this

/-- As many entries as elements of the row have a property. -/
theorem isSorted.countP_eq (p : Int → Bool) : L.countP (fun q => p q.1) = ((List.range n).filter (fun j => p (x j))).length := by
  rw [h.1.countP_eq, firstN, List.countP_map, List.countP_eq_length_filter]
  rfl

theorem isSorted.fits {w : Nat} (hx : ∀ j, j < n → fitsIn w (x j)) : ∀ v ∈ L.map (·.1), fitsIn w v := by
  intro v hv
  obtain ⟨j, hj, rfl⟩ := mem_firstN.mp (h.values_perm.mem_iff.mp hv)
  exact hx j hj

theorem isSorted.fits_index (hn : n ≤ 1024) : ∀ v ∈ L.map (fun q => (q.2 : Int)), fitsIn 12 v := by
  intro v hv
  obtain ⟨q, hq, rfl⟩ := List.mem_map.mp hv
  obtain ⟨j, hj, rfl⟩ := mem_firstN.mp (h.1.mem_iff.mp hq)
  unfold fitsIn
  omega

end

section
variable {n : Nat} {x : Nat → Int} {L : List (Int × Nat)} (h : isSorted Neg.neg n x L) {j : Nat}
include h

theorem isSorted.falling {k : Nat} (hjk : j ≤ k) (hk : k < n) : (L.getD k (0, 0)).1 ≤ (L.getD j (0, 0)).1 := by
  rcases hjk.eq_or_lt with rfl | hlt
  · exact le_rfl
  · rcases h.ordered hlt hk with hgt | ⟨heq, -⟩ <;> omega

variable (hj : j < n)
include hj

/-- In falling order, at most j elements are greater than entry j. -/
theorem isSorted.count_greater : ((List.range n).filter (fun k => decide ((L.getD j (0, 0)).1 < x k))).length ≤ j := by
  rw [← h.countP_eq (fun v => decide ((L.getD j (0, 0)).1 < v))]
  have hsplit : L.countP (fun q => decide ((L.getD j (0, 0)).1 < q.1)) =
      (L.take j).countP (fun q => decide ((L.getD j (0, 0)).1 < q.1)) + (L.drop j).countP (fun q => decide ((L.getD j (0, 0)).1 < q.1)) := by
    rw [← List.countP_append, List.take_append_drop]
  have hbehind : (L.drop j).countP (fun q => decide ((L.getD j (0, 0)).1 < q.1)) = 0 := by
    refine List.countP_eq_zero.mpr (fun q hq => ?_)
    obtain ⟨k, hk, rfl⟩ := List.mem_iff_getElem.mp hq
    rw [List.length_drop, h.length_eq] at hk
    rw [List.getElem_drop, ← List.getD_eq_getElem L (0, 0), decide_eq_true_iff]
    exact not_lt.mpr (h.falling (Nat.le_add_right j k) (by omega))
  have htake : (L.take j).countP (fun q => decide ((L.getD j (0, 0)).1 < q.1)) ≤ j :=
    List.countP_le_length.trans (List.length_take_le j L)
  omega

/-- In falling order, more than j elements are as great as entry j. -/
theorem isSorted.count_atLeast : j < ((List.range n).filter (fun k => decide ((L.getD j (0, 0)).1 ≤ x k))).length := by
  rw [← h.countP_eq (fun v => decide ((L.getD j (0, 0)).1 ≤ v))]
  have hlen := h.length_eq
  have hfront : (L.take (j + 1)).countP (fun q => decide ((L.getD j (0, 0)).1 ≤ q.1)) = (L.take (j + 1)).length := by
    refine List.countP_eq_length.mpr (fun q hq => ?_)
    obtain ⟨k, hk, rfl⟩ := List.mem_iff_getElem.mp hq
    rw [List.length_take] at hk
    rw [List.getElem_take, ← List.getD_eq_getElem L (0, 0), decide_eq_true_iff]
    exact h.falling (by omega) hj
  have hle := (List.take_sublist (j + 1) L).countP_le (p := fun q => decide ((L.getD j (0, 0)).1 ≤ q.1))
  rw [hfront, List.length_take] at hle
  omega

end

/-! ### The value beat and the index beat -/

section
variable {i : FIn} {L : List (Int × Nat)} {idx : Bool} {y : Beat}

theorem sortedBeats_head (h : (sortedBeats i L idx).head? = some y) :
    y.mant = packMant (L.map (·.1)) ∧ y.exp = (itemBeat (i.a.headD (.beat zeroBeat))).exp ∧ y.tag = firstTag i ∧ y.bad = anyBad i ∧
      y.late = anyLate i ∧ (idx = true → ∃ z, sortedBeats i L idx = [y, z] ∧ z.mant = packMant (L.map (fun p => (p.2 : Int))) ∧ z.exp = 32) := by
  cases idx with
  | true =>
    obtain rfl := Option.some.inj h
    exact ⟨rfl, rfl, rfl, rfl, rfl, fun _ => ⟨_, rfl, rfl, rfl⟩⟩
  | false =>
    obtain rfl := Option.some.inj h
    exact ⟨rfl, rfl, rfl, rfl, rfl, fun h => nomatch h⟩

/-- Mantissa j of a value beat is the value of entry j. -/
theorem mantissa_values {b : Beat} (hb : b.mant = packMant (L.map (·.1))) (hL : ∀ v ∈ L.map (·.1), fitsIn 12 v) {j : Nat} (hj : j < 16) :
    mantissa b j = (L.getD j (0, 0)).1 :=
  (mantissa_packMant hb hL hj).trans (List.getD_map L (0, 0) Prod.fst)

/-- Mantissa j of an index beat is the index of entry j. -/
theorem mantissa_indices {b : Beat} (hb : b.mant = packMant (L.map (fun p => (p.2 : Int)))) (hL : ∀ v ∈ L.map (fun p => (p.2 : Int)), fitsIn 12 v)
    {j : Nat} (hj : j < 16) : mantissa b j = ((L.getD j (0, 0)).2 : Int) :=
  (mantissa_packMant hb hL hj).trans (List.getD_map L (0, 0) (fun p => (p.2 : Int)))

end

/-! ### SORT16 -/

theorem take_mantissas (b : Beat) {k : Nat} (hk : k ≤ 16) : (mantissas b).take k = firstN k (mantissa b) := by
  rw [show mantissas b = firstN 16 (mantissa b) from rfl, take_firstN, Nat.min_eq_left hk]

theorem firstN_getD {α : Type} (l : List α) (d : α) : firstN l.length (fun j => l.getD j d) = l := by
  apply List.ext_getElem
  · simp
  · intro j _ hj
    simp [firstN, hj]


section
variable {i : FIn} {b y : Beat} (ha : i.a = [.beat b]) (h : opcode i.w = 0x18)

/-- The entries that SORT16 puts in order. -/
def sort16Entries (i : FIn) (b : Beat) : List (Int × Nat) :=
  sortBy (fun p q => if decide (wf i.w 0 1 = 1) = true then decide (p.1 < q.1) else decide (q.1 < p.1))
    (firstN (min 16 (wLen i.w)) (fun j => (mantissa b j, j)))

/-- The key of SORT16: rising or falling. -/
def sort16Key (i : FIn) (v : Int) : Int := if wf i.w 0 1 = 1 then v else -v

theorem isSorted_sort16 (i : FIn) (b : Beat) : isSorted (sort16Key i) (min 16 (wLen i.w)) (mantissa b) (sort16Entries i b) := by
  refine isSorted_sortBy (fun p q => ?_) _ _
  unfold sort16Key
  by_cases hup : wf i.w 0 1 = 1
  · simp [hup]
  · simp [hup]

theorem sort16_perm (i : FIn) (b : Beat) : ((sort16Entries i b).map (·.1)).Perm (firstN (min 16 (wLen i.w)) (mantissa b)) :=
  (isSorted_sort16 i b).values_perm

theorem sort16_rising (i : FIn) (b : Beat) (hup : wf i.w 0 1 = 1) : ((sort16Entries i b).map (·.1)).Pairwise (fun p q => p ≤ q) := by
  refine List.pairwise_map.mpr ((isSorted_sort16 i b).2.imp (fun {p q} hpq => ?_))
  simp only [goesBefore, sort16Key, if_pos hup] at hpq
  omega

theorem sort16_falling (i : FIn) (b : Beat) (hup : wf i.w 0 1 = 0) : ((sort16Entries i b).map (·.1)).Pairwise (fun p q => q ≤ p) := by
  refine List.pairwise_map.mpr ((isSorted_sort16 i b).2.imp (fun {p q} hpq => ?_))
  simp only [goesBefore, sort16Key, if_neg (by omega : ¬ wf i.w 0 1 = 1)] at hpq
  omega

include ha h

theorem sort16_beats : (operate i).beats = sortedBeats i (sort16Entries i b) (decide (wf i.w 1 1 = 1)) := by
  have hall : (allMants i.a).take (min 16 (wLen i.w)) = firstN (min 16 (wLen i.w)) (mantissa b) := by
    rw [ha, allMants_cons, show allMants [] = [] from rfl, List.append_nil, take_mantissas b (Nat.min_le_left _ _)]
  rw [operate_sort16 h, opSort16]
  simp only [hall, zip_range_firstN _ (Nat.min_le_left 16 (wLen i.w))]
  rfl

variable (hb : i.b = []) (hy : (operate i).beats.head? = some y)
include hb hy

/-- The value beat of SORT16: the entries in order, zeros behind, and the rest of the beat it took. -/
theorem sort16_value : (∀ j, j < 16 → mantissa y j = ((sort16Entries i b).getD j (0, 0)).1) ∧ y.tag = b.tag ∧ y.exp = b.exp ∧ y.bad = b.bad ∧
    y.late = b.late := by
  rw [sort16_beats ha h] at hy
  obtain ⟨hmant, hexp, htag, hbad, hlate, -⟩ := sortedBeats_head hy
  have hfits := (isSorted_sort16 i b).fits (fun j _ => fitsIn_mantissa b j)
  refine ⟨fun j hj => mantissa_values hmant hfits hj, ?_, ?_, ?_, ?_⟩
  · rw [htag, firstTag, ha]; rfl
  · rw [hexp, ha]; rfl
  · rw [hbad, anyBad, ha, hb]; exact Bool.or_false _
  · rw [hlate, anyLate, ha, hb]; exact Bool.or_false _

theorem sort16_take : (mantissas y).take (min 16 (wLen i.w)) = (sort16Entries i b).map (·.1) := by
  obtain ⟨hval, -⟩ := sort16_value ha h hb hy
  have hlen := (isSorted_sort16 i b).length_eq
  rw [take_mantissas y (Nat.min_le_left _ _)]
  conv_rhs => rw [← firstN_getD (sort16Entries i b) (0, 0), map_firstN, hlen]
  exact firstN_congr (fun j hj => hval j (by omega))

/-- The index beat of SORT16. -/
theorem sort16_index (hidx : wf i.w 1 1 = 1) : ∃ z, (operate i).beats = [y, z] ∧ z.exp = 32 ∧
    (∀ j : Nat, j < min 16 (wLen i.w) → 0 ≤ mantissa z j ∧ mantissa z j < (min 16 (wLen i.w) : Nat) ∧
      mantissa y j = mantissa b (mantissa z j).toNat) ∧
    ∀ j k : Nat, j < k → k < min 16 (wLen i.w) → mantissa z j ≠ mantissa z k ∧ (mantissa y j = mantissa y k → mantissa z j < mantissa z k) := by
  obtain ⟨hval, -⟩ := sort16_value ha h hb hy
  have hsorted := isSorted_sort16 i b
  rw [sort16_beats ha h] at hy ⊢
  obtain ⟨-, -, -, -, -, hpair⟩ := sortedBeats_head hy
  obtain ⟨z, hz, hzmant, hzexp⟩ := hpair (decide_eq_true hidx)
  have hindex {j : Nat} (hj : j < 16) := mantissa_indices hzmant (hsorted.fits_index (by omega)) hj
  refine ⟨z, hz, hzexp, fun j hj => ?_, fun j k hjk hk => ?_⟩
  · obtain ⟨hlt, hxj⟩ := hsorted.entry hj
    rw [hval j (by omega), hindex (by omega), hxj]
    exact ⟨by omega, by omega, rfl⟩
  · obtain ⟨hne, htie⟩ := hsorted.indices hjk hk
    rw [hval j (by omega), hval k (by omega), hindex (by omega), hindex (by omega)]
    exact ⟨by omega, fun he => by exact_mod_cast htie he⟩

end

/-! ### TOPK -/

section
variable {i : FIn} {x : Nat → Int}

/-- All the entries of a TOPK row, the greatest first. -/
def topkEntries (i : FIn) (x : Nat → Int) : List (Int × Nat) :=
  sortBy (fun p q => decide (q.1 < p.1)) (firstN (wLen i.w) (fun j => (x j, j)))

theorem isSorted_topk (i : FIn) (x : Nat → Int) : isSorted Neg.neg (wLen i.w) x (topkEntries i x) := by
  refine isSorted_sortBy (fun p q => ?_) _ _
  rw [decide_eq_true_iff]
  omega

theorem getD_take {α : Type} (l : List α) (d : α) {j k : Nat} (hj : j < k) : (l.take k).getD j d = l.getD j d := by
  rw [List.getD_eq_getElem?_getD, List.getElem?_take_of_lt hj, List.getD_eq_getElem?_getD]

variable {e : BitVec 6} {y : Beat} (h : opcode i.w = 0x19) (hrow : beatRow i.a (wLen i.w) x e)
include h hrow

theorem topk_beats : (operate i).beats = sortedBeats i ((topkEntries i x).take (wf i.w 0 4 + 1)) (decide (wf i.w 4 1 = 1)) := by
  rw [operate_topk h, opTopk]
  simp only [hrow.take_allMants, zip_range_firstN _ (wLen_le i.w)]
  rfl

variable (hy : (operate i).beats.head? = some y)
include hy

/-- The value beat of TOPK: the first entries, zeros behind. -/
theorem topk_value : y.exp = e ∧
    ∀ j, j < 16 → mantissa y j = if j < min (wf i.w 0 4 + 1) (wLen i.w) then ((topkEntries i x).getD j (0, 0)).1 else 0 := by
  rw [topk_beats h hrow] at hy
  obtain ⟨hmant, hexp, -⟩ := sortedBeats_head hy
  have hfits : ∀ v ∈ ((topkEntries i x).take (wf i.w 0 4 + 1)).map (·.1), fitsIn 12 v := fun v hv =>
    (isSorted_topk i x).fits (fun j hj => hrow.fits hj) v (List.mem_of_mem_take (List.map_take ▸ hv))
  refine ⟨hexp.trans hrow.exp_head, fun j hj => ?_⟩
  rw [mantissa_values hmant hfits hj]
  split
  · next hlt => rw [getD_take _ _ (by omega)]
  · next hge =>
    have hlen := (isSorted_topk i x).length_eq
    rw [List.getD_eq_default _ _ (by rw [List.length_take]; omega)]

/-- The index beat of TOPK. -/
theorem topk_index (hidx : wf i.w 4 1 = 1) : ∃ z, (operate i).beats = [y, z] ∧ z.exp = 32 ∧
    (∀ j : Nat, j < min (wf i.w 0 4 + 1) (wLen i.w) → 0 ≤ mantissa z j ∧ mantissa z j < wLen i.w ∧ mantissa y j = x (mantissa z j).toNat) ∧
    ∀ j l : Nat, j < l → l < min (wf i.w 0 4 + 1) (wLen i.w) → mantissa y j = mantissa y l → mantissa z j < mantissa z l := by
  have hcount : wf i.w 0 4 < 16 := Nat.mod_lt _ (by decide)
  obtain ⟨-, hval⟩ := topk_value h hrow hy
  have hsorted := isSorted_topk i x
  rw [topk_beats h hrow] at hy ⊢
  obtain ⟨-, -, -, -, -, hpair⟩ := sortedBeats_head hy
  obtain ⟨z, hz, hzmant, hzexp⟩ := hpair (decide_eq_true hidx)
  have hfits : ∀ v ∈ ((topkEntries i x).take (wf i.w 0 4 + 1)).map (fun q => (q.2 : Int)), fitsIn 12 v := fun v hv =>
    hsorted.fits_index (wLen_le i.w) v (List.mem_of_mem_take (List.map_take ▸ hv))
  have hindex {j : Nat} (hj : j < wf i.w 0 4 + 1) : mantissa z j = ((topkEntries i x).getD j (0, 0)).2 := by
    rw [mantissa_indices hzmant hfits (by omega), getD_take _ _ hj]
  refine ⟨z, hz, hzexp, fun j hj => ?_, fun j l hjl hl heq => ?_⟩
  · obtain ⟨hlt, hxj⟩ := hsorted.entry (by omega : j < wLen i.w)
    rw [hval j (by omega), if_pos hj, hindex (by omega), hxj]
    exact ⟨by omega, by omega, rfl⟩
  · obtain ⟨-, htie⟩ := hsorted.indices hjl (by omega : l < wLen i.w)
    rw [hval j (by omega), hval l (by omega), if_pos (by omega), if_pos hl] at heq
    rw [hindex (by omega), hindex (by omega)]
    exact_mod_cast htie heq

end

end Sys2Proof.Machine

/-!
The operations that move mantissas by index and that compare them (06 R151, R158): GATHER, SCATTER and THRESH.
-/
namespace Sys2Proof.Machine

/-! ### GATHER and SCATTER -/

section
variable {i : FIn} {x ix : Nat → Int} {e d : BitVec 6} (hidx : beatRow i.b (wNidx i.w) ix d)
include hidx

theorem badIndices_eq : badIndices i = ((List.range (wNidx i.w)).filter (fun n => decide (ix n < 0) || decide (wLen i.w ≤ ix n))).length := by
  rw [badIndices, indices, hidx.take_allMants, firstN, List.filter_map, List.length_map]
  rfl

/-- Element j of GATHER is the data at index j, or 0 where the index names none. -/
theorem gather_spec (h : opcode i.w = 0x1A) (hrow : beatRow i.a (wLen i.w) x e) :
    (operate i).beats.length = beatsFor (wNidx i.w) ∧ (∀ y ∈ (operate i).beats, y.exp = e) ∧
      (operate i).range = ((List.range (wNidx i.w)).filter (fun n => decide (ix n < 0) || decide (wLen i.w ≤ ix n))).length ∧
      ∀ j : Nat, j < 16 * (operate i).beats.length → mantissa ((operate i).beats.getD (j / 16) zeroBeat) (j % 16) =
        (if j < wNidx i.w ∧ 0 ≤ ix j ∧ ix j < wLen i.w then x (ix j).toNat else 0) := by
  have hpick (v : Int) : (if 0 ≤ v then (firstN (wLen i.w) x).getD v.toNat 0 else 0) = if 0 ≤ v ∧ v < wLen i.w then x v.toNat else 0 := by
    rw [getD_firstN, ← ite_and]
    exact if_congr (by omega) rfl rfl
  rw [operate_gather h, opGather]
  simp only [indices, hidx.take_allMants, hrow.take_allMants, map_firstN, hrow.exp_head, hpick, length_beatsOf]
  refine ⟨trivial, fun y hy => (exp_beatsOf hy).trans (ofNat_toNat_exp e), badIndices_eq hidx, fun j hj => ?_⟩
  have hfits : ∀ v ∈ firstN (wNidx i.w) (fun j => if 0 ≤ ix j ∧ ix j < wLen i.w then x (ix j).toNat else 0), fitsIn 12 v := by
    intro v hv
    obtain ⟨k, -, rfl⟩ := mem_firstN.mp hv
    split
    · exact hrow.fits (by omega)
    · exact fitsIn_zero 12
  rw [mantissa_beatsOf hfits hj, getD_firstN, ← ite_and]

end

/-- SCATTER's moves of the first n elements, each to the place that its index names. -/
def scattered (len : Nat) (x ix : Nat → Int) (n : Nat) : List Int :=
  (firstN n (fun j => (ix j, x j))).foldl (fun r p => if 0 ≤ p.1 ∧ p.1 < (len : Int) then r.set p.1.toNat p.2 else r) (List.replicate len 0)

theorem scattered_succ (len : Nat) (x ix : Nat → Int) (n : Nat) : scattered len x ix (n + 1) =
    if 0 ≤ ix n ∧ ix n < len then (scattered len x ix n).set (ix n).toNat (x n) else scattered len x ix n := by
  simp only [scattered, firstN, List.range_succ, List.map_append, List.foldl_append, List.map_cons, List.map_nil, List.foldl_cons, List.foldl_nil]

@[simp] theorem length_scattered (len : Nat) (x ix : Nat → Int) (n : Nat) : (scattered len x ix n).length = len := by
  induction n with
  | zero => exact List.length_replicate
  | succ n ih =>
    rw [scattered_succ]
    split
    · rw [List.length_set, ih]
    · exact ih

theorem getD_scattered_succ {len : Nat} (x ix : Nat → Int) (n : Nat) {k : Nat} (hk : k < len) :
    (scattered len x ix (n + 1)).getD k 0 = if ix n = k then x n else (scattered len x ix n).getD k 0 := by
  rw [scattered_succ]
  split
  · next hin =>
    rw [List.getD_eq_getElem?_getD, List.getElem?_set, length_scattered]
    by_cases hix : ix n = k
    · have htoNat : (ix n).toNat = k := by omega
      rw [if_pos hix, if_pos htoNat, if_pos (htoNat ▸ hk), Option.getD_some]
    · have htoNat : (ix n).toNat ≠ k := by omega
      rw [if_neg hix, if_neg htoNat, ← List.getD_eq_getElem?_getD]
  · next hout => rw [if_neg (by omega)]

/-- The last element whose index names a place stays there. -/
theorem getD_scattered_last {len n j k : Nat} {x ix : Nat → Int} (hk : k < len) (hj : j < n) (hix : ix j = k)
    (hlast : ∀ l, j < l → l < n → ix l ≠ k) : (scattered len x ix n).getD k 0 = x j := by
  induction n with
  | zero => omega
  | succ n ih =>
    rw [getD_scattered_succ x ix n hk]
    rcases Nat.lt_succ_iff_lt_or_eq.mp hj with hlt | rfl
    · rw [if_neg (hlast n hlt n.lt_succ_self), ih hlt (fun l hjl hl => hlast l hjl (Nat.lt_succ_of_lt hl))]
    · rw [if_pos hix]

/-- A place that no index names stays 0. -/
theorem getD_scattered_unnamed {len n k : Nat} {x ix : Nat → Int} (hk : len ≤ k ∨ ∀ j, j < n → ix j ≠ k) : (scattered len x ix n).getD k 0 = 0 := by
  rcases Nat.lt_or_ge k len with hlt | hge
  · replace hk := hk.resolve_left (by omega)
    induction n with
    | zero => simp [scattered, firstN, hlt]
    | succ n ih => rw [getD_scattered_succ x ix n hlt, if_neg (hk n n.lt_succ_self), ih (fun j hj => hk j (Nat.lt_succ_of_lt hj))]
  · exact List.getD_eq_default _ _ (by rw [length_scattered]; exact hge)

theorem zip_firstN {α β : Type} (n : Nat) (x : Nat → α) (y : Nat → β) : (firstN n x).zip (firstN n y) = firstN n (fun j => (x j, y j)) := by
  rw [firstN, firstN, List.zip_map']
  rfl

section
variable {i : FIn} {x ix : Nat → Int} {e d : BitVec 6}

theorem fitsIn_scattered {len n : Nat} (hx : ∀ j, j < n → fitsIn 12 (x j)) : ∀ v ∈ scattered len x ix n, fitsIn 12 v := by
  induction n with
  | zero =>
    intro v hv
    rw [List.eq_of_mem_replicate hv]
    exact fitsIn_zero 12
  | succ n ih =>
    intro v hv
    have hprev := ih (fun j hj => hx j (Nat.lt_succ_of_lt hj))
    rw [scattered_succ] at hv
    split at hv
    · rcases List.mem_or_eq_of_mem_set hv with hmem | rfl
      · exact hprev v hmem
      · exact hx n n.lt_succ_self
    · exact hprev v hv

theorem scatter_spec (hidx : beatRow i.b (wNidx i.w) ix d) (h : opcode i.w = 0x1B) (hrow : beatRow i.a (wNidx i.w) x e) :
    (operate i).beats.length = beatsFor (wLen i.w) ∧ (∀ y ∈ (operate i).beats, y.exp = e) ∧
      ∀ n : Nat, n < 16 * (operate i).beats.length →
        mantissa ((operate i).beats.getD (n / 16) zeroBeat) (n % 16) = (scattered (wLen i.w) x ix (wNidx i.w)).getD n 0 := by
  rw [operate_scatter h, opScatter]
  simp only [indices, hidx.take_allMants, hrow.take_allMants, zip_firstN, hrow.exp_head, length_beatsOf]
  refine ⟨trivial, fun y hy => (exp_beatsOf hy).trans (ofNat_toNat_exp e), fun n hn => ?_⟩
  exact mantissa_beatsOf (fitsIn_scattered (fun j hj => hrow.fits hj)) hn

end

/-! ### THRESH -/

theorem scaled_le_iff {a b : Int} {m u v : Int} (hu : m ≤ u) (hv : m ≤ v) (hm : -128 ≤ m) :
    a * 2 ^ (u - m).toNat ≤ b * 2 ^ (v - m).toNat ↔ a * 2 ^ (u + 128).toNat ≤ b * 2 ^ (v + 128).toNat := by
  have hsplit {t : Int} (ht : m ≤ t) (c : Int) : c * 2 ^ (t + 128).toNat = c * 2 ^ (t - m).toNat * 2 ^ (m + 128).toNat := by
    rw [show (t + 128).toNat = (t - m).toNat + (m + 128).toNat by omega, pow_add, mul_assoc]
  rw [hsplit hu, hsplit hv, mul_le_mul_iff_left₀ (by positivity)]

/-- The comparison of THRESH, both sides in units of 2^-128. -/
theorem threshBit_iff {x u : Int} (a : Nat) (hu : -128 ≤ u) {v th : Int} (hv : v = x * 2 ^ (u + 128).toNat)
    (hth : th = sext 16 (bits a 0 16) * 2 ^ (bits a 16 6 + 96)) : threshBit x u a = true ↔
      (bits a 22 2 = 0 ∧ th ≤ v ∨ bits a 22 2 = 1 ∧ th < v ∨ bits a 22 2 = 2 ∧ v ≤ th ∨ bits a 22 2 = 3 ∧ v < th) := by
  have hexp : bits a 16 6 + 96 = (((bits a 16 6 : Nat) : Int) - 32 + 128).toNat := by omega
  have hmode : bits a 22 2 < 4 := Nat.mod_lt _ (by decide)
  have hle := Int.min_le_left u ((bits a 16 6 : Nat) - 32)
  have hle' := Int.min_le_right u ((bits a 16 6 : Nat) - 32)
  have hmin : -128 ≤ min u ((bits a 16 6 : Nat) - 32) := by omega
  rw [hexp] at hth
  unfold threshBit
  simp only [Nat.cast_pow, Nat.cast_ofNat]
  have hup := scaled_le_iff (a := sext 16 (bits a 0 16)) (b := x) hle' hle hmin
  have hdown := scaled_le_iff (a := x) (b := sext 16 (bits a 0 16)) hle hle' hmin
  rw [← hv, ← hth] at hup hdown
  have habove := lt_iff_lt_of_le_iff_le hdown
  have hbelow := lt_iff_lt_of_le_iff_le hup
  generalize bits a 22 2 = mode at *
  match mode, hmode with
  | 0, _ => simp [hup]
  | 1, _ => simp [habove]
  | 2, _ => simp [hdown]
  | 3, _ => simp [hbelow]

/-- The bits that THRESH sends: bit `boff + j` where `p j` holds. -/
theorem foldl_bits_eq (p : Nat → Bool) (boff n : Nat) :
    (List.range n).foldl (fun a j => a + (if p j = true then 2 ^ (boff + j) else 0)) 0 = 2 ^ boff * packed 1 (fun j => bit (p j)) n := by
  induction n with
  | zero => rfl
  | succ n ih =>
    rw [List.range_succ, List.foldl_append, ih, packed_succ, List.foldl_cons, List.foldl_nil, Nat.mul_add, ← Nat.mul_assoc, ← Nat.pow_add,
      Nat.one_mul]
    cases p n <;> simp [bit]

theorem bit_lt (b : Bool) : bit b < 2 ^ 1 := by cases b <;> decide

theorem bits_shift (v boff n w : Nat) : bits (2 ^ boff * v) (boff + n) w = bits v n w := by
  rw [bits, bits, Nat.pow_add, Nat.mul_div_mul_left _ _ (Nat.two_pow_pos boff)]

/-- What THRESH contributes: a bit for each element that passes, their mask and the feature. -/
theorem thresh_trigger {i : FIn} {x : Nat → Int} {u : Int} (h : opcode i.w = 0x1C) (hrow : readsRow i.w i.a x u)
    (hroom : wf i.w 14 5 + wLen i.w ≤ 32) : ∃ (p : Nat → Bool) (first : Beat),
      (∀ n, n < wLen i.w → p n = threshBit (x n) u (bits (tableAt i (16 * i.menu + n / 2)) (32 * (n % 2)) 32)) ∧
      (∀ b l, i.a = .beat b :: l → first = b) ∧
      (operate i).trigger = some (2 ^ wf i.w 14 5 * packed 1 (fun j => bit (p j)) (wLen i.w), (2 ^ wLen i.w - 1) * 2 ^ wf i.w 14 5,
        if wf i.w 19 1 = 1 then some first else none) := by
  have hlen : min (wLen i.w) (32 - wf i.w 14 5) = wLen i.w := by omega
  rw [operate_thresh h, opThresh, hrow.rowOf_eq]
  simp only [hlen, foldl_bits_eq]
  refine ⟨_, _, ?bits, ?first, rfl⟩
  case bits =>
    intro n hn
    rw [getD_firstN_lt _ _ hn]
    rfl
  case first =>
    intro b l ha
    rw [ha]

end Sys2Proof.Machine

/-!
What the operations compute (O31), assembled from the operations' own lemmas.
-/
namespace Sys2Proof.Machine

/-- Settles O31: the operations that emit a row form it from `firstN` of what they read, those that order or move mantissas lay out a list of
them, and THRESH packs its comparisons; each effect is then read off the lemma of its operation. -/
theorem operationsComputeRows : Obligations.OperationsComputeRows := by
  refine ⟨?rounding, ?rowxPin, ?actExpt, ?norm, ?rcp, ?pool, ?reduce, ?sort16, ?topk, ?gatherScatter, ?thresh⟩
  case rounding =>
    intro x v n
    refine ⟨scaleBy_natCast x n, ?_⟩
    rintro hn rfl
    have hnear := isNearest_scaleBy_neg x hn
    have hpow : (2 : Int) ^ n = (2 ^ n : Nat) := (Nat.cast_pow 2 n).symm
    simp only [isNearest, Int.abs_eq_natAbs] at hnear
    rw [hpow]
    generalize 2 ^ n = d at *
    exact ⟨by omega, fun h => hnear.2 (by omega)⟩
  case rowxPin =>
    intro i x u hrow
    exact ⟨rowx_emitsRow hrow, pin_emitsRow hrow⟩
  case actExpt =>
    intro i x z u mx hrow
    exact ⟨act_emitsRow hrow, expt_emitsRow hrow⟩
  case norm =>
    intro i x g o u tot q d dn k rho hrow h htot hq hd hlt hge hdn hlo hhi hodd htable
    exact norm_emitsRow hrow h htot hq hd hlt hge hdn ⟨hlo, hhi, hodd⟩ htable
  case rcp =>
    intro i x u tot sn k rho hrow h htot
    refine ⟨rcp_of_nonpos hrow h htot, fun hpos hlt hge hsn hnear htie => rcp_of_pos hrow h htot hpos hlt hge hsn ?_⟩
    rw [isNearest, Int.abs_eq_natAbs]
    exact ⟨hnear, fun heq => by exact_mod_cast htie heq⟩
  case pool =>
    rintro i x u y m per h rfl hrows hmem hsum hmax
    exact pool_emitsRow h (poolRows_eq (fun j hj => (hrows j hj).1)) (fun j hj => (hrows j hj).2) hmem hsum hmax
  case reduce =>
    intro i x x' y v u u' m e h hnarrow hrow hy hv
    have hsum : reducesTo i x u y m := hy.imp_right (fun hb => ⟨x', u', hb⟩)
    exact ⟨reduce_emitsRow h hnarrow hrow hsum, fun hdst hbeats => reduce_onBus h hnarrow hrow hsum hv hbeats hdst,
      fun hout hdst hbeats => reduce_wide h hnarrow hrow hsum hv hbeats hout hdst⟩
  case sort16 =>
    rintro i b y len ha hb h rfl hy
    obtain ⟨hval, htag, hexp, hbad, hlate⟩ := sort16_value ha h hb hy
    rw [sort16_take ha h hb hy, take_mantissas b (Nat.min_le_left _ _)]
    refine ⟨sort16_perm i b, sort16_rising i b, sort16_falling i b, fun j hlen hj => ?_, htag, hexp, hbad, hlate, sort16_index ha h hb hy⟩
    rw [hval j hj, List.getD_eq_default _ _ (by rw [(isSorted_sort16 i b).length_eq]; exact hlen)]
  case topk =>
    rintro i x e k y h hrow rfl hy
    have hcount : wf i.w 0 4 < 16 := Nat.mod_lt _ (by decide)
    obtain ⟨hexp, hval⟩ := topk_value h hrow hy
    refine ⟨hexp, fun j hk hj => ?_, fun j hj => ?_, topk_index h hrow hy⟩
    · rw [hval j hj, if_neg (by omega)]
    · rw [hval j (by omega), if_pos hj]
      exact ⟨(isSorted_topk i x).count_greater (by omega), (isSorted_topk i x).count_atLeast (by omega)⟩
  case gatherScatter =>
    intro i x ix e d hidx
    refine ⟨gather_spec hidx, fun h hrow => ?_⟩
    obtain ⟨hlen, hexp, hval⟩ := scatter_spec hidx h hrow
    refine ⟨hlen, hexp, fun n hn => ⟨fun j hj hix hlt hlast => ?_, fun hnone => ?_⟩⟩
    · rw [hval n hn]
      exact getD_scattered_last hlt hj hix hlast
    · rw [hval n hn]
      exact getD_scattered_unnamed hnone
  case thresh =>
    rintro i x u boff h hrow rfl hroom
    obtain ⟨p, first, hp, hfirst, htrigger⟩ := thresh_trigger h hrow hroom
    have hfield (j : Nat) : bit (p j) < 2 ^ 1 := bit_lt (p j)
    refine ⟨_, _, htrigger, ?_, Nat.mul_mod_right _ _, fun hfeat => if_neg (by omega), fun b l hfeat ha => ?_, fun n a v th hn ha hv hth => ?_⟩
    · have hlt := packed_lt hfield (wLen i.w)
      rw [Nat.one_mul] at hlt
      rw [Nat.pow_add]
      exact Nat.mul_lt_mul_of_pos_left hlt (Nat.two_pow_pos _)
    · rw [if_pos hfeat, hfirst b l ha]
    · have hbit : bits (packed 1 (fun j => bit (p j)) (wLen i.w)) n 1 = bit (p n) := by
        have := bits_packed hfield hn
        rwa [Nat.one_mul] at this
      have hunit := hrow.unit_ge
      rw [bits_shift, hbit, hp n hn, ← ha, ← threshBit_iff a (by omega) hv hth]
      cases threshBit (x n) u a <;> decide

end Sys2Proof.Machine

/-!
An anchor reads word 0 as it starts a pass (04 R104, R105, R107): where no SYNC has played that word before, its check bits are counted then.
-/
namespace Sys2Proof.Machine

/-! ### The fetch of word 0 -/

/-- A correctable word is counted, and changes nothing else (R104). -/
theorem fetchWord_of_correctable {s : State} {u : UnitIx} {pc : Nat} (h : (s.tt (.dot u)).check pc = some .correctable) (t : Nat) :
    fetchWord s (.dot u) pc t = s.bump (fCe u.val) := by
  simp only [fetchWord, h]

/-- A pass writes RUNNING and no other register, once its word 0 has been read. -/
theorem startPass_fld_of_apart {s : State} {a : Agent} {f : Fld} (hwait : (s.play a).wait ≠ .sync) (hf : f.lo + f.w ≤ 32)
    (hsep : (fRunning a).apart f) (t : Nat) : (startPass s a t).fld f = (fetchWord s a 0 (t - 1)).fld f := by
  rw [startPass, if_neg hwait]
  calc ((((fetchWord s a 0 (t - 1)).at t).mark (fRunning a)).setPlay a ⟨1, t, .none⟩).fld f
    _ = (((fetchWord s a 0 (t - 1)).at t).mark (fRunning a)).fld f := by cases a <;> rfl
    _ = ((fetchWord s a 0 (t - 1)).at t).fld f := State.fld_mark_other _ _ _ hf hsep
    _ = (fetchWord s a 0 (t - 1)).fld f := rfl

/-- A first pass counts a correctable word 0 in DOT_ECC.CE. -/
theorem startPass_counts_correctable {s : State} {u : UnitIx} (hwait : (s.play (.dot u)).wait ≠ .sync)
    (hc : (s.tt (.dot u)).check 0 = some .correctable) (t : Nat) :
    (startPass s (.dot u) t).fld (fCe u.val) = min 255 (s.fld (fCe u.val) + 1) := by
  have hsep : (fRunning (.dot u)).apart (fCe u.val) := .inl (by simp only [fRunning, fCe, aBase]; omega)
  rw [startPass_fld_of_apart hwait (show 0 + 8 ≤ 32 by decide) hsep, fetchWord_of_correctable hc]
  exact State.fld_bump s (fCe u.val) 1 (show 0 + 8 ≤ 32 by decide)

/-! ### An anchor at which a unit starts -/

/-- In locked mode an enabled agent that is not running starts at its anchor while the run lasts (R106, R107). -/
theorem execAnchor_of_first {s : State} {a : Agent} (hruns : s.runs = true) (hlocked : s.stagedImage = false) (hanchor : isAnchor s a = true)
    (hidle : s.is (fRunning a) = false) (hen : enabledAgent s a = true) (hstarted : s.run.started = true) (hgoes : stopsAt s a = false) :
    execAnchor a s = .next (startPass s a s.clock.xstart) := by
  simp [execAnchor, anchorLocked, hruns, hlocked, hanchor, hidle, hen, hstarted, hgoes]

/-- LOCKED at the first crossing of a run: dot unit 0 is enabled with a timetable of 8 words, and reads word 0 with a single-bit error. -/
def word0Upset : State :=
  let s := (((({} : State).setFld fState 7).setFld fTurnLen 100).setFld (fPeriod (.dot 0)) 8).setFld (fAgentEnable (.dot 0)) 1
  { s with
    clock := { now := 600, xseq := 20, xstart := 600, everLocked := true }
    run := { started := true, start := 20, anchor0 := 20 }
    units := [(0, { tt := { ecc := [(0, some .correctable)] } })] }

/-- Refutes O28: at the anchor the unit of `word0Upset` reads its word 0 and counts the corrected error in DOT_ECC.CE, as R104 has it; the
statement lets the first pass write the register of RUNNING alone. -/
theorem not_anchorStartsPasses : ¬ Obligations.AnchorStartsPasses := by
  rintro ⟨hfirst, -⟩
  have hruns : word0Upset.runs = true := by decide +kernel
  have hlocked : word0Upset.stagedImage = false := rfl
  have hanchor : isAnchor word0Upset (.dot 0) = true := by decide +kernel
  have hidle : word0Upset.is (fRunning (.dot 0)) = false := by decide +kernel
  have hen : enabledAgent word0Upset (.dot 0) = true := by decide +kernel
  obtain ⟨t, hexec, -, -, -, hregs, -⟩ := hfirst (.dot 0) word0Upset hruns hlocked hanchor hidle hen rfl rfl
  have hstart : exec (.anchor (.dot 0)) word0Upset = .next (startPass word0Upset (.dot 0) 600) :=
    execAnchor_of_first hruns hlocked hanchor hidle hen rfl rfl
  obtain rfl : startPass word0Upset (.dot 0) 600 = t := Host.Outcome.next.inj (hstart.symm.trans hexec)
  have hcount : (startPass word0Upset (.dot 0) 600).fld (fCe 0) = min 255 (word0Upset.fld (fCe 0) + 1) :=
    startPass_counts_correctable (u := 0) (by decide +kernel) rfl 600
  have hclear : word0Upset.fld (fCe 0) = 0 := by decide +kernel
  have hsame : (startPass word0Upset (.dot 0) 600).fld (fCe 0) = word0Upset.fld (fCe 0) :=
    congrArg (fun w : Word32 => bits w.toNat 0 8) (hregs (fCe 0).addr (by decide +kernel))
  omega

end Sys2Proof.Machine

/-!
A dot unit's word as it issues (04 R104, 05 R112 to R114): what the issue and the hazard detector leave, and the one bank write of a unit that had
nothing in flight.
-/
namespace Sys2Proof.Machine

/-! ### The word that issues -/

/-- A word that the unit has an instruction for, and that reads clean, does not act as NOP (R104, R113, R135). -/
theorem actsAsNop_of_issuesNext {s : State} {u : UnitIx} {op : Nat} {w : Word64} {t : Nat} (h : issuesNext s (.dot u) op w t)
    (hop : op ∈ [1, 2, 3, 4, 5, 6, 7, 8, 9, 0xB, 0xC]) : actsAsNop s (.dot u) = false := by
  obtain ⟨-, -, -, -, -, rfl, rfl, hclean⟩ := h
  have hrange : opcode ((s.tt (.dot u)).word (s.play (.dot u)).pc) ≠ 0 ∧ opcode ((s.tt (.dot u)).word (s.play (.dot u)).pc) ≠ 0x0A ∧
      opcode ((s.tt (.dot u)).word (s.play (.dot u)).pc) < 0x0D := by
    simp only [List.mem_cons, List.not_mem_nil, or_false] at hop
    omega
  obtain ⟨h0, h10, h13⟩ := hrange
  simp [actsAsNop, reservedOp, isDot, hclean, h0, h10, h13]

/-- No word before a word that does not act as NOP is left to play. -/
theorem skipIdle_of_not_nop {s : State} {a : Agent} (h : actsAsNop s a = false) (fuel : Nat) : skipIdle s a fuel = s := by
  cases fuel with
  | zero => rfl
  | succ n => simp [skipIdle, h]

/-- The word issues at its cycle, and its fetch records nothing. -/
theorem issue_of_issuesNext {s : State} {u : UnitIx} {op : Nat} {w : Word64} {t : Nat} (h : issuesNext s (.dot u) op w t)
    (hop : op ∈ [1, 2, 3, 4, 5, 6, 7, 8, 9, 0xB, 0xC]) : issue s (.dot u) op = some (s.at t, w, t) := by
  have hnop := actsAsNop_of_issuesNext h hop
  obtain ⟨hplays, hwait, rfl, hpc, hlt, rfl, rfl, hclean⟩ := h
  have hres : reservedOp (.dot u) (opcode ((s.tt (.dot u)).word (s.play (.dot u)).pc)) = false := by
    simp only [actsAsNop, Bool.or_eq_false_iff] at hnop
    exact hnop.2
  have hfetched : fetched s (.dot u) = s := by simp [fetched, fetchWord, hclean, hres]
  simp [issue, hplays, catchUp, skipIdle_of_not_nop hnop, hwait, hpc, hlt, hfetched]

/-! ### Parts of the state -/

section
variable (s : State)

@[simp] theorem State.unit_at (t g : Nat) : (s.at t).unit g = s.unit g := (rfl)
@[simp] theorem State.cluster_at (t k : Nat) : (s.at t).cluster k = s.cluster k := (rfl)
@[simp] theorem State.play_at (t : Nat) (a : Agent) : (s.at t).play a = s.play a := by cases a <;> rfl
@[simp] theorem State.fld_at (t : Nat) (f : Fld) : (s.at t).fld f = s.fld f := (rfl)
@[simp] theorem State.is_at (t : Nat) (f : Fld) : (s.at t).is f = s.is f := (rfl)

@[simp] theorem State.unit_bump (f : Fld) (n g : Nat) : (s.bump f n).unit g = s.unit g := (rfl)
@[simp] theorem State.cluster_bump (f : Fld) (n k : Nat) : (s.bump f n).cluster k = s.cluster k := (rfl)
@[simp] theorem State.play_bump (f : Fld) (n : Nat) (a : Agent) : (s.bump f n).play a = s.play a := by cases a <;> rfl

@[simp] theorem State.unit_countIf (b : Bool) (f : Fld) (g : Nat) : (s.countIf b f).unit g = s.unit g := by cases b <;> rfl
@[simp] theorem State.cluster_countIf (b : Bool) (f : Fld) (k : Nat) : (s.countIf b f).cluster k = s.cluster k := by cases b <;> rfl
@[simp] theorem State.play_countIf (b : Bool) (f : Fld) (a : Agent) : (s.countIf b f).play a = s.play a := by cases a <;> cases b <;> rfl

@[simp] theorem State.unit_setCluster (k : Nat) (c : Cluster) (g : Nat) : (s.setCluster k c).unit g = s.unit g := (rfl)
@[simp] theorem State.play_setCluster (k : Nat) (c : Cluster) (a : Agent) : (s.setCluster k c).play a = s.play a := by cases a <;> rfl
@[simp] theorem State.fld_setCluster (k : Nat) (c : Cluster) (f : Fld) : (s.setCluster k c).fld f = s.fld f := (rfl)

@[simp] theorem State.cluster_setUnit (g : Nat) (v : DotUnit) (k : Nat) : (s.setUnit g v).cluster k = s.cluster k := (rfl)
@[simp] theorem State.fld_setUnit (g : Nat) (v : DotUnit) (f : Fld) : (s.setUnit g v).fld f = s.fld f := (rfl)

@[simp] theorem State.cluster_setPlay (u : UnitIx) (p : Play) (k : Nat) : (s.setPlay (.dot u) p).cluster k = s.cluster k := (rfl)
@[simp] theorem State.fld_setPlay (u : UnitIx) (p : Play) (f : Fld) : (s.setPlay (.dot u) p).fld f = s.fld f := (rfl)
@[simp] theorem State.unit_setPlay (u : UnitIx) (p : Play) : (s.setPlay (.dot u) p).unit u.val = { s.unit u.val with play := p } :=
  State.setUnit_unit _ _ _
theorem State.unit_setPlay_other (u : UnitIx) (p : Play) {g : Nat} (h : g ≠ u.val) : (s.setPlay (.dot u) p).unit g = s.unit g :=
  State.setUnit_unit_other _ _ _ _ h
theorem State.play_dot (u : UnitIx) : s.play (.dot u) = (s.unit u.val).play := (rfl)
@[simp] theorem State.play_setPlay (u : UnitIx) (p : Play) : (s.setPlay (.dot u) p).play (.dot u) = p := by
  rw [State.play_dot, State.unit_setPlay]

/-- A counter raised changes the registers alone. -/
theorem State.bump_shape (f : Fld) (n : Nat) : ∃ m, s.bump f n = { s with regs := m } := ⟨_, rfl⟩

theorem State.countIf_shape (b : Bool) (f : Fld) : ∃ m, s.countIf b f = { s with regs := m } := by
  cases b
  · exact ⟨s.regs, rfl⟩
  · exact s.bump_shape f 1

theorem regsSame_setUnit {s s0 : State} {l : List Nat} (h : regsSame s0 s l) (g : Nat) (v : DotUnit) : regsSame s0 (s.setUnit g v) l := h

theorem regsSame_setCluster {s s0 : State} {l : List Nat} (h : regsSame s0 s l) (k : Nat) (c : Cluster) : regsSame s0 (s.setCluster k c) l := h

theorem regsSame_played {s s0 : State} {l : List Nat} (h : regsSame s0 s l) (u : UnitIx) (t : Nat) (p : Play) :
    regsSame s0 ((s.at t).setPlay (.dot u) p) l := h

theorem regsSame_nextWord {s s0 : State} {l : List Nat} (h : regsSame s0 s l) (u : UnitIx) (d : Nat) :
    regsSame s0 (nextWord s (.dot u) d) l := h

/-- After the word the unit is at the next one. -/
theorem nextWord_unit (u : UnitIx) (d : Nat) : (nextWord s (.dot u) d).unit u.val =
    { s.unit u.val with play := ⟨(s.play (.dot u)).pc + 1, (s.play (.dot u)).at_ + d, .none⟩ } := by
  rw [nextWord, State.unit_setPlay, State.unit_at]

theorem nextWord_play (u : UnitIx) (d : Nat) : (nextWord s (.dot u) d).play (.dot u) =
    ⟨(s.play (.dot u)).pc + 1, (s.play (.dot u)).at_ + d, .none⟩ := State.play_setPlay _ _ _

theorem nextWord_unit_other (u : UnitIx) (d : Nat) {g : Nat} (h : g ≠ u.val) : (nextWord s (.dot u) d).unit g = s.unit g := by
  rw [nextWord, State.unit_setPlay_other _ _ _ h, State.unit_at]

@[simp] theorem nextWord_fld (u : UnitIx) (d : Nat) (f : Fld) : (nextWord s (.dot u) d).fld f = s.fld f := (rfl)

/-- A cluster written as it is leaves every cluster as it was. -/
theorem State.cluster_setCluster_self (k j : Nat) : (s.setCluster k (s.cluster k)).cluster j = s.cluster j := mget_mset_id _ _ _ _

end

/-! ### The hazard detector's registers -/

/-- The registers of a region's hazard detector (R241). -/
def hazardRegs (r : Nat) : List Nat :=
  [regionBase r + 0x1204, regionBase r + 0x1208, regionBase r + 0x120C, regionBase r + 0x1210, regionBase r + 0x1214]

theorem mem_hazardRegs_iff {r a : Nat} : a ∈ hazardRegs r ↔ a = regionBase r + 0x1204 ∨ a = regionBase r + 0x1208 ∨
    a = regionBase r + 0x120C ∨ a = regionBase r + 0x1210 ∨ a = regionBase r + 0x1214 := by
  simp only [hazardRegs, List.mem_cons, List.not_mem_nil, or_false]

theorem fHazCount_addr_mem (r kind : Nat) : (fHazCount r kind).addr ∈ hazardRegs r := by
  rw [mem_hazardRegs_iff]
  unfold fHazCount
  split <;> simp only [true_or, or_true]

/-- A hazard changes the detector's registers alone (R241). -/
theorem hazard_regs (s : State) (kind : Nat) (who : Who) (object t : Nat) :
    regsSame s (hazard s kind who object t) (hazardRegs (clusterRegion who.k)) := by
  have hrec : regionBase (clusterRegion who.k) + 0x1204 ∈ hazardRegs (clusterRegion who.k) := mem_hazardRegs_iff.mpr (.inl rfl)
  have hpc : regionBase (clusterRegion who.k) + 0x1208 ∈ hazardRegs (clusterRegion who.k) := mem_hazardRegs_iff.mpr (.inr (.inl rfl))
  have hbump := regsSame_bump (s := s) _ 1 (regsSame.refl s _) (fHazCount_addr_mem (clusterRegion who.k) kind)
  unfold hazard
  dsimp only
  split
  · split
    · exact hbump
    · exact regsSame_setFld _ _ (regsSame_setFld _ _ (regsSame_setFld _ _ (regsSame_setFld _ _ (regsSame_setFld _ _
        (regsSame_setFld _ _ (regsSame_mark _ (regsSame_setFld _ _ hbump hrec) hrec) hrec) hrec) hrec) hrec) hpc) hpc
  · exact regsSame.refl s _

theorem hazard_unit (s : State) (kind : Nat) (who : Who) (object t g : Nat) : (hazard s kind who object t).unit g = s.unit g := by
  have hunits : (hazard s kind who object t).units = s.units := by
    unfold hazard
    dsimp only
    split
    · split <;> simp
    · rfl
  rw [State.unit, hunits, State.unit]

/-- A dot unit's registers are none of the detector's. -/
theorem hazard_fld_unit (s : State) (kind : Nat) (who : Who) (object t : Nat) {f : Fld} {g d : Nat} (hf : f.addr = unitBase g + d)
    (hk : who.k = g / 8) : (hazard s kind who object t).fld f = s.fld f := by
  have hother : f.addr ∉ hazardRegs (clusterRegion who.k) := by
    rw [mem_hazardRegs_iff, hf, hk]
    simp only [unitBase, clusterBase, clusterRegion]
    omega
  rw [State.fld, hazard_regs s kind who object t _ hother, State.fld]

/-! ### A unit with nothing in flight -/

section
variable {s : State} {g : Nat} (h : (s.unit g).flight = [])
include h

theorem settleUnit_of_noFlight (bound : Nat) : settleUnit s g bound = s := by simp [settleUnit, h]

theorem openGroup_of_noFlight (gb t : Nat) : openGroup (s.unit g) gb t = false := by simp [openGroup, h]

theorem openMain_of_noFlight (mb t : Nat) : openMain (s.unit g) mb t = false := by simp [openMain, h]

/-- A bank write that meets none of its bank is no hazard (R240). -/
theorem addFlight_of_noFlight (a : Agent) (f : Flight) : addFlight s a g f = s.setUnit g { s.unit g with flight := [f] } := by
  simp [addFlight, h]

end

/-- The one bank write in flight lands at its cycle, and not before. -/
theorem settleUnit_unit_of_flight {s : State} {g : Nat} {f : Flight} (h : (s.unit g).flight = [f]) (bound : Nat) :
    (settleUnit s g bound).unit g = if f.due ≤ bound then (landWrite { s.unit g with flight := [] } f.write).1 else s.unit g := by
  by_cases hdue : f.due ≤ bound
  · have hkept : isLost [f] f = false := by cases hw : f.write <;> simp [isLost, losesTo, hw]
    have hland : landAll (s.unit g) bound = ((landWrite { s.unit g with flight := [] } f.write).1,
        0 + (landWrite { s.unit g with flight := [] } f.write).2) := by
      simp [landAll, h, hdue, insertFlight, hkept]
    simp [settleUnit, h, hdue, hland]
  · simp [settleUnit, h, hdue]

/-- Changing an entry by what it holds is changing it. -/
theorem modAt_getD {α : Type} (l : List α) (i : Nat) (d : α) (f : α → α) : modAt l i (fun _ => f (l.getD i d)) = modAt l i f := by
  induction l generalizing i with
  | nil => rfl
  | cons a r ih =>
    cases i with
    | zero => rfl
    | succ i => exact congrArg (a :: ·) (ih i)

section
variable (v : DotUnit)

theorem landWrite_grp (mb : Nat) (g : Bank 28) (scales : List (Nat × Nat)) (bad : Bool) (q : Nat) :
    (landWrite v (.grp mb g scales bad q)).1 = { v with mb := modAt v.mb mb (fun m => (addGroup m g scales bad q).1) } := by
  rw [landWrite, modAt_getD v.mb mb {} (fun m => (addGroup m g scales bad q).1)]

theorem landWrite_clr (mask : BitVec 16) :
    (landWrite v (.clr mask)).1 = { v with mb := (List.range 16).map (fun i => if mask.getLsbD i then {} else v.mb.getD i {}) } := (rfl)

theorem landWrite_addin (mb : Nat) (r : BusRow) :
    (landWrite v (.addin mb r)).1 = { v with mb := modAt v.mb mb (fun m => (addBusRow m r).1) } := by
  rw [landWrite, modAt_getD v.mb mb {} (fun m => (addBusRow m r).1)]

end

/-! ### A row of a main bank -/

/-- A row takes a contribution and is limited to 48 bits (03 R74). -/
theorem addRow_toInt (v : BitVec 48) (r : Nat) (d : Int) : (addRow v r d).1.toInt = max (-(2 ^ 47)) (min (2 ^ 47 - 1) (v.toInt + d)) := by
  have hfits := fitsIn_sat48 (v.toInt + d)
  rw [← sat48_eq]
  exact BitVec.toInt_ofInt_eq_self (by decide) hfits.1 hfits.2

end Sys2Proof.Machine

/-!
GRP and CLR (05 R121 to R124): what the words leave in the unit and its counters, and a main bank with a scaled group added (03 R74, R76).
-/
namespace Sys2Proof.Machine

/-! ### GRP -/

section
variable (s : State) (u : UnitIx) (w : Word64) (t : Nat)

/-- The scale set that a GRP word names (R122, 10 R263). -/
def grpSet : Nat := (wf w 45 7 + 64 * stagedHalf s) % 128

/-- The scale words of that set, one for each row. -/
def grpScales : List (Nat × Nat) := (List.range 32).map (scaleWord (s.unit u.val).scale (grpSet s w))

/-- The group bank that a GRP word names. -/
def grpBank : Bank 28 := (s.unit u.val).gb.getD (wf w 56 2) {}

/-- How many words of the scale set read uncorrectable (04 R104). -/
def grpBroken : Nat := (s.unit u.val).scale.broken (8 * grpSet s w) 8

/-- The write of the main bank that a GRP word issues. -/
def grpWrite : BankWrite :=
  .grp (wf w 52 4) (grpBank s u w) (grpScales s u w) (decide (0 < grpBroken s u w)) (s.fld (fBankQ u.val (wf w 52 4)))

/-- The state once the check bits of the scale set have been counted. -/
def grpCounted : State :=
  (s.bump (fCe u.val) ((s.unit u.val).scale.corrected (8 * grpSet s w) 8)).bump (fScaleUe u.val) (grpBroken s u w)

/-- The state with the write on its way, if the word acts (R123). -/
def grpIssued : State :=
  if grpActs (grpBank s u w) (grpScales s u w) then
    ((grpCounted s u w).setUnit u.val { s.unit u.val with flight := [⟨t + 3, grpWrite s u w⟩] }).countIf
      (groupMismatch (grpBank s u w) (grpScales s u w)) (fResGroup u.val)
  else grpCounted s u w

/-- Counting check bits moves no fraction point. -/
theorem grpCounted_fld_bankQ : (grpCounted s u w).fld (fBankQ u.val (wf w 52 4)) = s.fld (fBankQ u.val (wf w 52 4)) := by
  have hlt : wf w 52 4 < 16 := Nat.mod_lt _ (by decide)
  have hapart (lo n : Nat) : Fld.sep ⟨unitBase u.val + 0x5C, lo, n⟩ (fBankQ u.val (wf w 52 4)) = true :=
    Fld.sep_of_addr_ne (by simp only [fBankQ]; omega) (by simp only [fBankQ]; omega)
  exact (State.fld_bump_sep _ (hapart 16 8) _).trans (State.fld_bump_sep _ (hapart 0 8) _)

@[simp] theorem grpCounted_unit (g : Nat) : (grpCounted s u w).unit g = s.unit g := by simp only [grpCounted, State.unit_bump]

theorem grpCounted_regs : regsSame s (grpCounted s u w) [unitBase u.val + 0x5C] :=
  regsSame_bump _ _ (regsSame_bump _ _ (regsSame.refl s _) (.head _)) (.head _)

theorem grpCounted_shape : ∃ m, grpCounted s u w = { s with regs := m } := by
  obtain ⟨m, hm⟩ := s.bump_shape (fCe u.val) ((s.unit u.val).scale.corrected (8 * grpSet s w) 8)
  obtain ⟨n, hn⟩ := ({ s with regs := m } : State).bump_shape (fScaleUe u.val) (grpBroken s u w)
  exact ⟨n, by rw [grpCounted, hm, hn]⟩

theorem grpCounted_scaleUe : (grpCounted s u w).fld (fScaleUe u.val) = min 255 (s.fld (fScaleUe u.val) + grpBroken s u w) := by
  have hsep : (fCe u.val).sep (fScaleUe u.val) = true := by simp [Fld.sep, fCe, fScaleUe]
  rw [grpCounted, State.fld_bump _ (fScaleUe u.val) _ (show 16 + 8 ≤ 32 by decide), State.fld_bump_sep _ hsep]
  rfl

/-- GRP writes the unit, the counter of its mismatches and the counters of check bits, and nothing else. -/
theorem grpIssued_shape : ∃ m us, grpIssued s u w t = { s with regs := m, units := us } := by
  obtain ⟨m, hm⟩ := grpCounted_shape s u w
  unfold grpIssued
  rw [hm]
  split
  · obtain ⟨n, hn⟩ := (({ s with regs := m } : State).setUnit u.val { s.unit u.val with flight := [⟨t + 3, grpWrite s u w⟩] }).countIf_shape
      (groupMismatch (grpBank s u w) (grpScales s u w)) (fResGroup u.val)
    exact ⟨n, _, hn⟩
  · exact ⟨m, s.units, rfl⟩

theorem grpIssued_regs : regsSame s (grpIssued s u w t) [unitBase u.val + 0x58, unitBase u.val + 0x5C] := by
  have hcounted := (grpCounted_regs s u w).mono (m := [unitBase u.val + 0x58, unitBase u.val + 0x5C]) (fun _ ha => .tail _ ha)
  unfold grpIssued
  split
  · exact regsSame_countIf _ _ (regsSame_setUnit hcounted _ _) (.head _)
  · exact hcounted

theorem grpIssued_unit_other {g : Nat} (hg : g ≠ u.val) : (grpIssued s u w t).unit g = s.unit g := by
  unfold grpIssued
  split
  · rw [State.unit_countIf, State.setUnit_unit_other _ _ _ _ hg, grpCounted_unit]
  · exact grpCounted_unit s u w g

theorem grpIssued_scaleUe : (grpIssued s u w t).fld (fScaleUe u.val) = min 255 (s.fld (fScaleUe u.val) + grpBroken s u w) := by
  have hsep : (fResGroup u.val).sep (fScaleUe u.val) = true := Fld.sep_of_addr_ne (show 16 + 8 ≤ 32 by decide) (by simp [fResGroup, fScaleUe])
  unfold grpIssued
  split
  · rw [State.fld_countIf_sep _ _ _ hsep, State.fld_setUnit, grpCounted_scaleUe]
  · exact grpCounted_scaleUe s u w

theorem grpIssued_resGroup : (grpIssued s u w t).fld (fResGroup u.val) =
    if grpActs (grpBank s u w) (grpScales s u w) = true ∧ groupMismatch (grpBank s u w) (grpScales s u w) = true then
      min 65535 (s.fld (fResGroup u.val) + 1) else s.fld (fResGroup u.val) := by
  have hcounted : (grpCounted s u w).fld (fResGroup u.val) = s.fld (fResGroup u.val) := by
    rw [State.fld, grpCounted_regs s u w _ (by simp [fResGroup]), State.fld]
  unfold grpIssued
  split
  next hacts =>
    rw [State.fld_countIf _ _ _ (show 0 + 16 ≤ 32 by decide), State.fld_setUnit, hcounted]
    simp only [hacts, true_and]
    rfl
  next hacts => rw [if_neg (fun h => hacts h.1), hcounted]

section
variable (h : (s.unit u.val).flight = [])
include h

/-- With nothing in flight GRP meets no open bank (R123, 04 R98). -/
theorem playGrp_of_noFlight : playGrp s u w t = nextWord (grpIssued s u w t) (.dot u) 1 := by
  have hcounted : ((grpCounted s u w).unit u.val).flight = [] := by rw [grpCounted_unit, h]
  have hadd := addFlight_of_noFlight hcounted (.dot u) ⟨t + 3, grpWrite s u w⟩
  rw [grpCounted_unit, grpWrite, ← grpCounted_fld_bankQ s u w] at hadd
  unfold playGrp grpIssued
  dsimp only
  rw [settleUnit_of_noFlight h]
  simp only [openGroup_of_noFlight h, openMain_of_noFlight h, Bool.false_eq_true, if_false]
  rw [grpWrite, ← grpCounted_fld_bankQ s u w]
  unfold State.countIf
  unfold grpCounted grpBroken grpBank grpScales grpSet at hadd ⊢
  rw [hadd]

theorem grpIssued_unit : (grpIssued s u w t).unit u.val =
    { s.unit u.val with flight := if grpActs (grpBank s u w) (grpScales s u w) = true then [⟨t + 3, grpWrite s u w⟩] else [] } := by
  unfold grpIssued
  split
  · rw [State.unit_countIf, State.setUnit_unit]
  · rw [grpCounted_unit, ← h]

end

end

theorem grpIssued_play {s : State} {u : UnitIx} (h : (s.unit u.val).flight = []) (w : Word64) (t : Nat) :
    (grpIssued s u w t).play (.dot u) = s.play (.dot u) := by
  rw [State.play_dot, grpIssued_unit s u w t h, State.play_dot]

/-- The banks after GRP: the main bank named takes the scaled group at cycle t + 3, if the word acts, and nothing else changes. -/
theorem settleUnit_grpIssued {s : State} {u : UnitIx} (h : (s.unit u.val).flight = []) (w : Word64) (t bound : Nat) :
    ((settleUnit (nextWord (grpIssued s u w t) (.dot u) 1) u.val bound).unit u.val).gb = (s.unit u.val).gb ∧
    ((settleUnit (nextWord (grpIssued s u w t) (.dot u) 1) u.val bound).unit u.val).mb =
      if grpActs (grpBank s u w) (grpScales s u w) = true ∧ t + 3 ≤ bound then
        modAt (s.unit u.val).mb (wf w 52 4) (fun m => (addGroup m (grpBank s u w) (grpScales s u w) (decide (0 < grpBroken s u w))
          (s.fld (fBankQ u.val (wf w 52 4)))).1)
      else (s.unit u.val).mb := by
  have hunit := nextWord_unit (grpIssued s u w t) u 1
  rw [grpIssued_unit s u w t h] at hunit
  have hgb := congrArg DotUnit.gb hunit
  have hmb := congrArg DotUnit.mb hunit
  have hflight := congrArg DotUnit.flight hunit
  dsimp only at hgb hmb hflight
  by_cases hacts : grpActs (grpBank s u w) (grpScales s u w) = true
  · rw [if_pos hacts] at hflight
    rw [settleUnit_unit_of_flight hflight]
    by_cases hdue : t + 3 ≤ bound
    · rw [if_pos hdue, if_pos ⟨hacts, hdue⟩, grpWrite, landWrite_grp]
      exact ⟨hgb, by rw [hmb]⟩
    · rw [if_neg hdue, if_neg (fun hc => hdue hc.2)]
      exact ⟨hgb, hmb⟩
  · rw [if_neg hacts] at hflight
    rw [settleUnit_of_noFlight hflight, if_neg (fun hc => hacts hc.1)]
    exact ⟨hgb, hmb⟩

/-! ### CLR -/

/-- The state once CLR's write is on its way (R124). -/
def clrIssued (s : State) (u : UnitIx) (w : Word64) (t : Nat) : State :=
  s.setUnit u.val { s.unit u.val with flight := [⟨t, .clr (BitVec.ofNat 16 (wf w 42 16))⟩] }

/-- Bit i of CLR's mask (R124). -/
theorem clrMask_getLsbD (w : Word64) {i : Nat} (hi : i < 16) :
    (BitVec.ofNat 16 (wf w 42 16)).getLsbD i = decide (bits w.toNat (42 + i) 1 = 1) := by
  have hbit : w.toNat.testBit (42 + i) = decide (bits w.toNat (42 + i) 1 = 1) := Nat.testBit_eq_decide_div_mod_eq
  rw [BitVec.getLsbD_ofNat, wf, testBit_bits, hbit]
  simp only [hi, decide_true, Bool.true_and]

/-- The banks after CLR: those of the mask are clear from cycle t on, and the group banks are as they were. -/
theorem settleUnit_clrIssued (s : State) (u : UnitIx) (w : Word64) (t bound : Nat) :
    ((settleUnit (nextWord (clrIssued s u w t) (.dot u) 1) u.val bound).unit u.val).gb = (s.unit u.val).gb ∧
    ∀ i : Nat, t ≤ bound → i < 16 → ((settleUnit (nextWord (clrIssued s u w t) (.dot u) 1) u.val bound).unit u.val).mb.getD i {} =
      if bits w.toNat (42 + i) 1 = 1 then {} else (s.unit u.val).mb.getD i {} := by
  have hunit := nextWord_unit (clrIssued s u w t) u 1
  rw [clrIssued, State.setUnit_unit, ← clrIssued] at hunit
  have hgb := congrArg DotUnit.gb hunit
  have hmb := congrArg DotUnit.mb hunit
  have hflight := congrArg DotUnit.flight hunit
  dsimp only at hgb hmb hflight
  rw [settleUnit_unit_of_flight hflight, landWrite_clr]
  refine ⟨?_, fun i hdue hi => ?_⟩
  · split <;> exact hgb
  · rw [if_pos hdue]
    dsimp only
    rw [hmb, show (List.range 16).map _ = firstN 16 _ from rfl, getD_firstN_lt _ _ hi, clrMask_getLsbD w hi]
    simp only [decide_eq_true_eq]

/-! ### The scaled group -/

/-- A main bank takes a group whose exponent is set: every enabled row the scaled group's row, limited to 48 bits, and the marks of both (03 R74, R76). -/
theorem addGroup_spec (m : Bank 48) (g : Bank 28) (scales : List (Nat × Nat)) (bad : Bool) (q : Nat) {o : Nat} {eg eb : BitVec 6} {a : Int}
    (ho : o < 32) (hg : g.exp = some eg) (heb : eb = m.exp.getD eg) (ha : a = (m.rows.getD o 0).toInt +
      scaleBy ((g.rows.getD o 0).toInt * (scales.getD o (0, 0)).1) (((scales.getD o (0, 0)).2 : Int) - 31 + q + eg.toNat - eb.toNat)) :
    (addGroup m g scales bad q).1.exp = some eb ∧
    ((scales.getD o (0, 0)).1 = 0 → (addGroup m g scales bad q).1.rows.getD o 0 = m.rows.getD o 0) ∧
    ((scales.getD o (0, 0)).1 ≠ 0 → ((addGroup m g scales bad q).1.rows.getD o 0).toInt = max (-(2 ^ 47)) (min (2 ^ 47 - 1) a)) ∧
    (addGroup m g scales bad q).1.late = (m.late || g.late) ∧ (addGroup m g scales bad q).1.tag = (if m.exp = none then g.tag else m.tag) := by
  have hrow : (addGroup m g scales bad q).1.rows.getD o 0 = if (scales.getD o (0, 0)).1 = 0 then m.rows.getD o 0
      else (addRow (m.rows.getD o 0) (m.res.getD o 0) (a - (m.rows.getD o 0).toInt)).1 := by
    subst heb ha
    rw [addGroup, hg, Option.getD_some, List.map_map, show (List.range 32).map _ = firstN 32 _ from rfl, getD_firstN_lt _ _ ho, add_sub_cancel_left]
    exact apply_ite Prod.fst _ _ _
  refine ⟨?_, fun h0 => ?_, fun h0 => ?_, rfl, ?_⟩
  · rw [heb, addGroup, hg]
    rfl
  · rw [hrow, if_pos h0]
  · rw [hrow, if_neg h0, addRow_toInt, add_sub_cancel]
  · simp only [addGroup, Option.isNone_iff_eq_none]

/-- Settles O24: GRP leaves `grpIssued` and CLR `clrIssued`, whose one bank write then lands; the sum is `addGroup_spec`. -/
theorem groupAndClearWrite : Obligations.GroupAndClearWrite := by
  unfold Obligations.GroupAndClearWrite
  refine ⟨?grp, ?clr, ?sum⟩
  case grp =>
    intro u w t sx ue b scales s hissue hflight hsx hscales hb hue hmb
    subst hsx hscales hb hue
    have hat : ((s.at t).unit u.val).flight = [] := hflight
    have hexec : exec (.grp u) s = .next (nextWord (grpIssued (s.at t) u w t) (.dot u) 1) := by
      show execGrp u s = _
      rw [execGrp, issue_of_issuesNext hissue (by decide), ← playGrp_of_noFlight (s.at t) u w t hat]
    obtain ⟨-, -, hcycle, -⟩ := hissue
    have hbanks := settleUnit_grpIssued hat w t
    refine ⟨_, hexec, ?play, fun bound hdue hacts => ?lands, fun bound hnot => ?waits, fun bound => (hbanks bound).1, ?scaleUe, ?resGroup,
      fun v hv => ?others, ?regs, ?frame⟩
    case play => rw [nextWord_play, grpIssued_play hat, State.play_at, hcycle]
    case lands => exact (hbanks bound).2.trans (if_pos ⟨hacts, hdue⟩)
    case waits =>
      refine (hbanks bound).2.trans (if_neg fun hc => ?_)
      obtain ⟨hacts, hdue⟩ := hc
      rcases hnot with hearly | hidle
      · omega
      · exact Bool.false_ne_true (hidle.symm.trans hacts)
    case scaleUe => exact grpIssued_scaleUe (s.at t) u w t
    case resGroup => exact grpIssued_resGroup (s.at t) u w t
    case others => rw [nextWord_unit_other _ _ _ hv, grpIssued_unit_other _ _ _ _ hv, State.unit_at]
    case regs => exact regsSame_nextWord (grpIssued_regs (s.at t) u w t) u 1
    case frame =>
      obtain ⟨m, us, hshape⟩ := grpIssued_shape (s.at t) u w t
      rw [hshape]
      rfl
  case clr =>
    intro u w t s hissue hflight hmb
    have hat : ((s.at t).unit u.val).flight = [] := hflight
    have hexec : exec (.clr u) s = .next (nextWord (clrIssued (s.at t) u w t) (.dot u) 1) := by
      show execClr u s = _
      rw [execClr, issue_of_issuesNext hissue (by decide)]
      dsimp only
      rw [settleUnit_of_noFlight hat, addFlight_of_noFlight hat, clrIssued]
    obtain ⟨-, -, hcycle, -⟩ := hissue
    have hbanks := settleUnit_clrIssued (s.at t) u w t
    refine ⟨_, hexec, ?_, fun bound i hdue hi => (hbanks bound).2 i hdue hi, fun bound => (hbanks bound).1, fun v hv => ?_, rfl⟩
    · rw [nextWord_play, State.play_dot, clrIssued, State.setUnit_unit]
      simp only [State.unit_at, ← State.play_dot, hcycle]
    · rw [nextWord_unit_other _ _ _ hv, clrIssued, State.setUnit_unit_other _ _ _ _ hv, State.unit_at]
  case sum => exact fun m g scales bad q o eg eb a ho hg heb ha => addGroup_spec m g scales bad q ho hg heb ha

end Sys2Proof.Machine

/-!
EMIT and ADDIN on the sum bus (05 R125 to R129): the bus as the word finds it, the row that EMIT places, and the row that ADDIN takes (03 R75).
-/
namespace Sys2Proof.Machine

/-! ### A cluster with nothing due -/

theorem settleFuns_of_funsIdle {s : State} {k : Nat} (h : funsIdle s k) (bound : Nat) : settleFuns s k bound = s := by
  obtain ⟨h0, h1⟩ := h
  have hleft : takesLeft s k = 0 := by simp [takesLeft, h0, h1]
  rw [settleFuns, hleft, runTakes]

/-- Rows whose bus cycles are still to come stay on the bus. -/
theorem settleBus_of_later {s : State} {k bound : Nat} (h : ∀ r ∈ (s.cluster k).bus, bound < r.due) :
    settleBus s k bound = s.setCluster k (s.cluster k) := by
  have hdue : (s.cluster k).bus.filter (fun r => decide (r.due ≤ bound)) = [] :=
    List.filter_eq_nil_iff.mpr (fun r hr => by simpa using h r hr)
  have hkept : (s.cluster k).bus.filter (fun r => decide (bound < r.due)) = (s.cluster k).bus :=
    List.filter_eq_self.mpr (fun r hr => by simpa using h r hr)
  rw [settleBus, hdue, hkept]
  rfl

/-- The cluster as an EMIT or ADDIN of cycle t finds it: nothing has been due before. -/
theorem settled_of_quiet {s : State} {k t : Nat} (hfuns : funsIdle s k) (hbus : ∀ r ∈ (s.cluster k).bus, t - 1 < r.due) :
    settleBus (settleFuns s k (t - 1)) k (t - 1) = s.setCluster k (s.cluster k) := by
  rw [settleFuns_of_funsIdle hfuns, settleBus_of_later hbus]

/-! ### Who else claims a bus cycle (R129) -/

/-- The state with another array time and these clusters. -/
def State.retimed (s : State) (n : Nat) (c : SMap Cluster) : State := { s with clusters := c, clock := { s.clock with now := n } }

section
variable (s : State) (n : Nat) (c : SMap Cluster)

@[simp] theorem State.unit_retimed (g : Nat) : (s.retimed n c).unit g = s.unit g := (rfl)
@[simp] theorem State.fun_retimed (f : Nat) : (s.retimed n c).fun_ f = s.fun_ f := (rfl)
@[simp] theorem State.play_retimed (a : Agent) : (s.retimed n c).play a = s.play a := by cases a <;> rfl
@[simp] theorem State.tt_retimed (a : Agent) : (s.retimed n c).tt a = s.tt a := by cases a <;> rfl
@[simp] theorem period_retimed (a : Agent) : period (s.retimed n c) a = period s a := (rfl)
@[simp] theorem plays_retimed (a : Agent) : plays (s.retimed n c) a = plays s a := (rfl)
@[simp] theorem State.bump_retimed (f : Fld) (k : Nat) : (s.retimed n c).bump f k = (s.bump f k).retimed n c := (rfl)
@[simp] theorem State.setUnit_retimed (g : Nat) (v : DotUnit) : (s.retimed n c).setUnit g v = (s.setUnit g v).retimed n c := (rfl)

theorem settleUnit_retimed (g bound : Nat) : settleUnit (s.retimed n c) g bound = (settleUnit s g bound).retimed n c := by
  simp only [settleUnit, State.unit_retimed, State.setUnit_retimed, State.bump_retimed, apply_ite (State.retimed · n c)]

theorem poisonAgent_retimed (a : Agent) (t : Nat) : poisonAgent (s.retimed n c) a t = (poisonAgent s a t).retimed n c := by
  cases a with
  | dot u => simp only [poisonAgent, settleUnit_retimed, State.unit_retimed, State.setUnit_retimed]
  | fn f => rfl

theorem fetchWord_retimed (a : Agent) (pc t : Nat) : fetchWord (s.retimed n c) a pc t = (fetchWord s a pc t).retimed n c := by
  unfold fetchWord
  rw [State.tt_retimed]
  cases a <;> rcases (s.tt _).check pc with _ | _ | _ <;> simp only [State.bump_retimed, poisonAgent_retimed]

theorem fetched_retimed (a : Agent) : fetched (s.retimed n c) a = (fetched s a).retimed n c := by
  simp only [fetched, State.play_retimed, State.tt_retimed, fetchWord_retimed, poisonAgent_retimed, apply_ite (State.retimed · n c)]

theorem nextWord_retimed (a : Agent) (d : Nat) : nextWord (s.retimed n c) a d = (nextWord s a d).retimed (max n (s.play a).at_) c := by
  cases a <;> rfl

theorem skipIdle_retimed (a : Agent) (fuel : Nat) : ∃ m, skipIdle (s.retimed n c) a fuel = (skipIdle s a fuel).retimed m c := by
  induction fuel generalizing s n with
  | zero => exact ⟨n, rfl⟩
  | succ fuel ih =>
    have hnop : actsAsNop (s.retimed n c) a = actsAsNop s a := by simp only [actsAsNop, State.play_retimed, State.tt_retimed]
    unfold skipIdle
    dsimp only
    rw [State.play_retimed, period_retimed, hnop]
    split
    · rw [fetched_retimed, nextWord_retimed]
      exact ih _ _
    · exact ⟨n, rfl⟩

/-- Neither the array time nor the clusters tell which EMIT a unit issues. -/
theorem emitsAt_retimed (g t : Nat) : emitsAt (s.retimed n c) g t = emitsAt s g t := by
  obtain ⟨m, hm⟩ := skipIdle_retimed s n c (.dot (Fin.ofNat 4096 g)) 512
  simp only [emitsAt, hm, State.play_retimed, State.tt_retimed, plays_retimed, period_retimed]

theorem comingTakes_retimed (f due : Nat) (pc t fuel : Nat) : comingTakes (s.retimed n c) f due pc t fuel = comingTakes s f due pc t fuel := by
  induction fuel generalizing pc t with
  | zero => rfl
  | succ fuel ih => simp only [comingTakes, ih, period_retimed, State.fun_retimed]

theorem busTakesBy_retimed (f due : Nat) : busTakesBy (s.retimed n c) f due = busTakesBy s f due := by
  simp only [busTakesBy, comingTakes_retimed, State.fun_retimed]

theorem reduceClaim_retimed (f : Nat) : reduceClaim (s.retimed n c) f = reduceClaim s f := (rfl)

variable (hc : ∀ k, mget {} c k = s.cluster k)
include hc

theorem busClaimed_retimed (k dest due : Nat) : busClaimed (s.retimed n c) k dest due = busClaimed s k dest due := by
  have hk : (s.retimed n c).cluster k = s.cluster k := hc k
  have htaken : busTaken (s.retimed n c) k dest due = busTaken s k dest due := by
    unfold busTaken
    dsimp only
    rw [hk, busTakesBy_retimed, State.fun_retimed]
  rw [busClaimed, htaken, reduceClaim_retimed, reduceClaim_retimed, busClaimed]

theorem claimedBelow_retimed (g t : Nat) : claimedBelow (s.retimed n c) g t = claimedBelow s g t := by
  unfold claimedBelow
  simp only [emitsAt_retimed, busClaimed_retimed s n c hc]

end

/-- A bus with no row is free for a row to a unit, or to a function unit whose buffer has room, while no REDUCE claims it (R129, 06 R152). -/
theorem busClaimed_of_empty {s : State} {k dest : Nat} (hfuns : funsIdle s k) (hbus : (s.cluster k).bus = [])
    (hbuf : ∀ f : Nat, f < 2 → dest = 8 + f → (s.fun_ (2 * k + f)).buf.length < 4) (due : Nat) : busClaimed s k dest due = false := by
  obtain ⟨h0, h1⟩ := hfuns
  have hroom : dest = 8 ∨ dest = 9 → (s.fun_ (2 * k + (dest - 8))).buf.length < 4 := by
    rintro (rfl | rfl)
    · exact hbuf 0 (by decide) rfl
    · exact hbuf 1 (by decide) rfl
  have htaken : busTaken s k dest due = false := by
    simp only [busTaken, hbus, List.any_nil, List.filter_nil, List.length_nil, Bool.false_or, Bool.and_eq_false_imp, decide_eq_true_eq,
      decide_eq_false_iff_not]
    intro hd
    have := hroom hd
    omega
  simp [busClaimed, htaken, reduceClaim, h0, h1]

/-! ### EMIT -/

theorem placeRow_of_empty {s : State} {k : Nat} (h : (s.cluster k).bus = []) (r : BusRow) :
    placeRow s k r = s.setCluster k { s.cluster k with bus := [r] } := by
  simp [placeRow, h]

section
variable (s : State) (u : UnitIx) (w : Word64) (t : Nat)

/-- The main bank that an EMIT word names. -/
def sentBank : Bank 48 := (s.unit u.val).mb.getD (wf w 52 4) {}

/-- The row that an EMIT word puts on the bus for cycle t + 2 (R126). -/
def sentRow : BusRow :=
  { bankRow (sentBank s u w) (s.is (fFenced u.val)) (u.val % 8) (wf w 48 4) (t + 2) with pc := (s.play (.dot u)).pc }

/-- What an EMIT word of cycle t leaves where nothing is in flight and the bus is free. -/
def emitted : State :=
  (((s.countIf (emitMismatch (sentBank s u w)) (fResEmit u.val)).setCluster (u.val / 8)
    { s.cluster (u.val / 8) with bus := [sentRow s u w t] }).at t).setPlay (.dot u) ⟨(s.play (.dot u)).pc + 1, t + 1, .none⟩

theorem emitAt_of_free (hflight : (s.unit u.val).flight = []) (hbus : (s.cluster (u.val / 8)).bus = []) :
    emitAt s u w t = emitted s u w t := by
  have hfold : (if emitMismatch (sentBank s u w) = true then s.bump (fResEmit u.val) else s) =
    s.countIf (emitMismatch (sentBank s u w)) (fResEmit u.val) := rfl
  have hfenced : (s.countIf (emitMismatch (sentBank s u w)) (fResEmit u.val)).is (fFenced u.val) = s.is (fFenced u.val) := by
    have hsep : (fResEmit u.val).sep (fFenced u.val) = true := Fld.sep_of_addr_ne (show 0 + 1 ≤ 32 by decide) (by simp [fResEmit, fFenced])
    rw [State.is, State.fld_countIf_sep _ _ _ hsep, State.is]
  have hplace := placeRow_of_empty (s := s.countIf (emitMismatch (sentBank s u w)) (fResEmit u.val)) (k := u.val / 8)
    (by rw [State.cluster_countIf, hbus]) (sentRow s u w t)
  rw [State.cluster_countIf] at hplace
  unfold emitAt
  dsimp only
  rw [settleUnit_of_noFlight hflight]
  simp only [openMain_of_noFlight hflight, Bool.false_eq_true, if_false]
  rw [← sentBank, hfold, hfenced, ← sentRow, hplace]
  simp only [State.play_setCluster, State.play_countIf]
  rfl

theorem emitted_play : (emitted s u w t).play (.dot u) = ⟨(s.play (.dot u)).pc + 1, t + 1, .none⟩ := State.play_setPlay _ _ _

theorem emitted_bus : ((emitted s u w t).cluster (u.val / 8)).bus = [sentRow s u w t] := by
  rw [emitted, State.cluster_setPlay, State.cluster_at, State.setCluster_cluster]

theorem emitted_banks (v : Nat) : ((emitted s u w t).unit v).mb = (s.unit v).mb ∧ ((emitted s u w t).unit v).gb = (s.unit v).gb := by
  by_cases hv : v = u.val
  · subst hv
    rw [emitted, State.unit_setPlay, State.unit_at, State.unit_setCluster, State.unit_countIf]
    exact ⟨rfl, rfl⟩
  · rw [emitted, State.unit_setPlay_other _ _ _ hv, State.unit_at, State.unit_setCluster, State.unit_countIf]
    exact ⟨rfl, rfl⟩

theorem emitted_regs : regsSame s (emitted s u w t) [unitBase u.val + 0x58] :=
  regsSame_played (regsSame_setCluster (regsSame_countIf _ _ (regsSame.refl s _) (.head _)) _ _) u _ _

theorem emitted_resEmit : (emitted s u w t).fld (fResEmit u.val) =
    if emitMismatch (sentBank s u w) = true then min 65535 (s.fld (fResEmit u.val) + 1) else s.fld (fResEmit u.val) := by
  rw [emitted, State.fld_setPlay, State.fld_at, State.fld_setCluster, State.fld_countIf _ _ _ (show 16 + 16 ≤ 32 by decide)]
  rfl

/-- EMIT writes the counter of mismatches, its unit, its cluster and the array time, and nothing else. -/
theorem emitted_shape : ∃ m us cs n, emitted s u w t = { s with regs := m, units := us, clusters := cs, clock := { s.clock with now := n } } := by
  obtain ⟨m, hm⟩ := s.countIf_shape (emitMismatch (sentBank s u w)) (fResEmit u.val)
  rw [emitted, hm]
  exact ⟨_, _, _, _, rfl⟩

end

/-! ### ADDIN -/

/-- What an ADDIN word leaves that takes the only row on the bus at cycle t (R127). -/
def rowTaken (s : State) (u : UnitIx) (mb : Nat) (r : BusRow) (t : Nat) : State :=
  (((s.setCluster (u.val / 8) { s.cluster (u.val / 8) with bus := [] }).setUnit u.val
    { s.unit u.val with flight := [⟨t + 1, .addin mb r⟩] }).at t).setPlay (.dot u) ⟨(s.play (.dot u)).pc + 1, t + 1, .none⟩

section
variable {s : State} {u : UnitIx}

theorem takeRow_of_only {r : BusRow} (hbus : (s.cluster (u.val / 8)).bus = [r]) (hflight : (s.unit u.val).flight = []) (mb t : Nat) :
    takeRow s u mb r t = rowTaken s u mb r t := by
  have herased : (s.cluster (u.val / 8)).bus.erase r = [] := by rw [hbus, List.erase_cons_head]
  have hx : ((s.setCluster (u.val / 8) { s.cluster (u.val / 8) with bus := [] }).unit u.val).flight = [] := by rw [State.unit_setCluster, hflight]
  unfold takeRow
  dsimp only
  rw [herased, settleUnit_of_noFlight hx]
  simp only [openMain_of_noFlight hx, Bool.false_eq_true, if_false]
  rw [addFlight_of_noFlight hx, State.unit_setCluster]
  rw [State.play_dot, State.setUnit_unit]
  rfl

variable (s u)

theorem rowTaken_unit (mb : Nat) (r : BusRow) (t : Nat) : (rowTaken s u mb r t).unit u.val =
    { s.unit u.val with play := ⟨(s.play (.dot u)).pc + 1, t + 1, .none⟩, flight := [⟨t + 1, .addin mb r⟩] } := by
  rw [rowTaken, State.unit_setPlay, State.unit_at, State.setUnit_unit]

theorem rowTaken_play (mb : Nat) (r : BusRow) (t : Nat) : (rowTaken s u mb r t).play (.dot u) = ⟨(s.play (.dot u)).pc + 1, t + 1, .none⟩ :=
  State.play_setPlay _ _ _

theorem rowTaken_regs (mb : Nat) (r : BusRow) (t : Nat) (l : List Nat) : regsSame s (rowTaken s u mb r t) l :=
  regsSame_played (regsSame_setUnit (regsSame_setCluster (regsSame.refl s l) _ _) _ _) u _ _

theorem rowTaken_fld (mb : Nat) (r : BusRow) (t : Nat) (f : Fld) : (rowTaken s u mb r t).fld f = s.fld f := (rfl)

/-- ADDIN writes its unit, its cluster and the array time, and nothing else. -/
theorem rowTaken_shape (mb : Nat) (r : BusRow) (t : Nat) :
    ∃ us cs n, rowTaken s u mb r t = { s with units := us, clusters := cs, clock := { s.clock with now := n } } := ⟨_, _, _, rfl⟩

theorem rowTaken_bus (mb : Nat) (r : BusRow) (t : Nat) : ((rowTaken s u mb r t).cluster (u.val / 8)).bus = [] := by
  rw [rowTaken, State.cluster_setPlay, State.cluster_at, State.cluster_setUnit, State.setCluster_cluster]

/-- The row lands in the main bank named at cycle t + 1, and not before. -/
theorem settleUnit_rowTaken (mb : Nat) (r : BusRow) (t bound : Nat) : ((settleUnit (rowTaken s u mb r t) u.val bound).unit u.val).mb =
    if t + 1 ≤ bound then modAt (s.unit u.val).mb mb (fun m => (addBusRow m r).1) else (s.unit u.val).mb := by
  have hunit := rowTaken_unit s u mb r t
  have hmb := congrArg DotUnit.mb hunit
  rw [settleUnit_unit_of_flight (congrArg DotUnit.flight hunit), landWrite_addin]
  split
  · dsimp only at hmb ⊢
    rw [hmb]
  · exact hmb

end

/-! ### The row added -/

theorem addBusRow_of_unset (m : Bank 48) {r : BusRow} (h : r.expValid = false) :
    (addBusRow m r).1 = { m with bad := m.bad || r.bad, late := m.late || r.late } ∧ (addBusRow m r).2 = 0 := by
  simp [addBusRow, h]

/-- A row with an exponent is scaled to the bank's and added, limited to 48 bits (03 R75, R76). -/
theorem addBusRow_spec (m : Bank 48) (r : BusRow) {eb : BitVec 6} {o : Nat} {a : Int} (hv : r.expValid = true) (heb : eb = m.exp.getD r.exp)
    (ho : o < 32) (ha : a = (m.rows.getD o 0).toInt + scaleBy (r.vals.getD o 0).toInt ((r.exp.toNat : Int) - eb.toNat)) :
    ((addBusRow m r).1.rows.getD o 0).toInt = max (-(2 ^ 47)) (min (2 ^ 47 - 1) a) ∧ (addBusRow m r).1.exp = some eb ∧
      (addBusRow m r).1.tag = (if m.exp = none then r.tag else m.tag) ∧ (addBusRow m r).1.bad = (m.bad || r.bad) ∧
      (addBusRow m r).1.late = (m.late || r.late) := by
  subst heb ha
  rw [addBusRow, if_neg (by simp [hv])]
  refine ⟨?_, rfl, ?_, rfl, rfl⟩
  · dsimp only
    rw [List.map_map, show (List.range 32).map _ = firstN 32 _ from rfl, getD_firstN_lt _ _ ho]
    exact addRow_toInt _ _ _
  · simp only [Option.isNone_iff_eq_none]

/-! ### The words and the ends of their waits -/

/-- The unit's cluster written as it is, which is what EMIT and ADDIN find where no row of it is due. -/
def found (s : State) (u : UnitIx) : State := s.setCluster (u.val / 8) (s.cluster (u.val / 8))

theorem found_bus (s : State) (u : UnitIx) : ((found s u).cluster (u.val / 8)).bus = (s.cluster (u.val / 8)).bus := by
  rw [found, State.setCluster_cluster]

@[simp] theorem found_unit (s : State) (u : UnitIx) (g : Nat) : (found s u).unit g = s.unit g := (rfl)
@[simp] theorem found_play (s : State) (u : UnitIx) (a : Agent) : (found s u).play a = s.play a := by rw [found, State.play_setCluster]
@[simp] theorem found_fld (s : State) (u : UnitIx) (f : Fld) : (found s u).fld f = s.fld f := (rfl)

theorem found_regs (s : State) (u : UnitIx) (n : Nat) (l : List Nat) : regsSame s (found (s.at n) u) l := regsSame_setCluster (regsSame.refl _ _) _ _

theorem sentRow_found (s : State) (u : UnitIx) (w : Word64) (t : Nat) : sentRow (found s u) u w t = sentRow s u w t := by
  simp only [sentRow, sentBank, found_unit, found_play, State.is, found_fld]

theorem sentRow_at (s : State) (u : UnitIx) (w : Word64) (n t : Nat) : sentRow (s.at n) u w t = sentRow s u w t := by
  simp only [sentRow, sentBank, State.unit_at, State.play_at, State.is_at]

theorem sentRow_bump (s : State) (u : UnitIx) (w : Word64) (t k : Nat) {f : Fld} (h : f.sep (fFenced u.val) = true) :
    sentRow (s.bump f k) u w t = sentRow s u w t := by
  simp only [sentRow, sentBank, State.unit_bump, State.play_bump, State.is, State.fld_bump_sep s h]

theorem claimedBelow_found (s : State) (u : UnitIx) (n t : Nat) : claimedBelow (found (s.at n) u) u.val t = claimedBelow s u.val t :=
  claimedBelow_retimed s (max s.clock.now n) _ (State.cluster_setCluster_self s _) u.val t

section
variable {s : State} {u : UnitIx}

/-- EMIT issues at once where the bus is free, and in staged mode no unit before it claims the cycle (R125, R129). -/
theorem execEmit_of_free {w : Word64} {t : Nat} (hissue : issuesNext s (.dot u) 5 w t) (hfuns : funsIdle s (u.val / 8))
    (hbus : (s.cluster (u.val / 8)).bus = []) (hflight : (s.unit u.val).flight = [])
    (hbuf : ∀ f : Nat, f < 2 → wf w 48 4 = 8 + f → (s.fun_ (2 * (u.val / 8) + f)).buf.length < 4)
    (hbelow : s.stagedImage = true → claimedBelow s u.val t = false) : execEmit u s = .next (emitted (found (s.at t) u) u w t) := by
  have hsettled : settleBus (settleFuns (s.at t) (u.val / 8) (t - 1)) (u.val / 8) (t - 1) = found (s.at t) u :=
    settled_of_quiet (s := s.at t) hfuns (by simp [hbus])
  have hclaimed : busClaimed (found (s.at t) u) (u.val / 8) (wf w 48 4) (t + 2) = false :=
    busClaimed_of_empty (s := found (s.at t) u) hfuns (by rw [found_bus, State.cluster_at, hbus]) hbuf _
  have hgoes : ((found (s.at t) u).stagedImage && (busClaimed (found (s.at t) u) (u.val / 8) (wf w 48 4) (t + 2) ||
      claimedBelow (found (s.at t) u) u.val t)) = false := by
    rw [hclaimed, claimedBelow_found, Bool.false_or, Bool.and_eq_false_imp]
    exact hbelow
  rw [execEmit, issue_of_issuesNext hissue (by decide)]
  dsimp only
  rw [hsettled, hgoes, if_neg Bool.false_ne_true, emitAt_of_free (found (s.at t) u) u w t hflight (by rw [found_bus, State.cluster_at, hbus])]

/-- A waiting EMIT issues at the first cycle that is free (R129). -/
theorem execEmitBusCycleFree_of_free {w : Word64} {since t : Nat} (hplays : plays s (.dot u) = true) (hwait : (s.play (.dot u)).wait = .emit since)
    (hw : w = (s.tt (.dot u)).word (s.play (.dot u)).pc) (ht : t = max since s.clock.now) (hfuns : funsIdle s (u.val / 8))
    (hbus : (s.cluster (u.val / 8)).bus = []) (hflight : (s.unit u.val).flight = [])
    (hbuf : ∀ f : Nat, f < 2 → wf w 48 4 = 8 + f → (s.fun_ (2 * (u.val / 8) + f)).buf.length < 4)
    (hbelow : claimedBelow s u.val t = false) :
    execEmitBusCycleFree u s = .next (emitted ((found s u).bump (fBlocked (.dot u)) (t - since)) u w t) := by
  have hsettled : settleBus (settleFuns s (u.val / 8) (t - 1)) (u.val / 8) (t - 1) = found s u := settled_of_quiet hfuns (by simp [hbus])
  have hclaimed : busClaimed (found s u) (u.val / 8) (wf w 48 4) (t + 2) = false :=
    busClaimed_of_empty (s := found s u) hfuns (by rw [found_bus, hbus]) hbuf _
  have hother : claimedBelow (found s u) u.val t = false :=
    (claimedBelow_retimed s s.clock.now _ (State.cluster_setCluster_self s _) u.val t).trans hbelow
  have hfree : freeEmit (found s u) u.val (wf w 48 4) t 64 = t := by rw [freeEmit, hclaimed, hother]; rfl
  unfold execEmitBusCycleFree
  dsimp only
  rw [hwait]
  dsimp only
  rw [← hw, ← ht, hsettled, hfree, hplays, hclaimed, hother]
  simp only [Bool.not_false, Bool.and_self, if_true]
  rw [emitAt_of_free _ u w t (by rw [State.unit_bump]; exact hflight) (by rw [State.cluster_bump, found_bus, hbus])]

/-- ADDIN takes the row of its own cycle (R127). -/
theorem execAddin_of_row {w : Word64} {t : Nat} {r : BusRow} (hissue : issuesNext s (.dot u) 6 w t) (hpos : 1 ≤ t) (hfuns : funsIdle s (u.val / 8))
    (hbus : (s.cluster (u.val / 8)).bus = [r]) (hdest : r.dest = u.val % 8) (hdue : r.due = t) (hflight : (s.unit u.val).flight = []) :
    execAddin u s = .next (rowTaken (found (s.at t) u) u (wf w 52 4) r t) := by
  have hlater : t - 1 < r.due := by omega
  have hsettled : settleBus (settleFuns (s.at t) (u.val / 8) (t - 1)) (u.val / 8) (t - 1) = found (s.at t) u :=
    settled_of_quiet (s := s.at t) hfuns (by simpa [hbus] using hlater)
  have hx : ((found (s.at t) u).cluster (u.val / 8)).bus = [r] := by rw [found_bus, State.cluster_at, hbus]
  have hrow : rowFor (found (s.at t) u) u.val t = some r := by simp [rowFor, hx, hdest, hdue]
  rw [execAddin, issue_of_issuesNext hissue (by decide)]
  dsimp only
  rw [hsettled, hrow]
  dsimp only
  rw [takeRow_of_only hx hflight]

/-- With no row an ADDIN counts and goes on in locked mode, and waits in staged mode (R127, R128). -/
theorem execAddin_of_empty {w : Word64} {t : Nat} (hissue : issuesNext s (.dot u) 6 w t) (hfuns : funsIdle s (u.val / 8))
    (hbus : (s.cluster (u.val / 8)).bus = []) : execAddin u s = .next (if s.stagedImage = true
      then (found (s.at t) u).setPlay (.dot u) ⟨(s.play (.dot u)).pc, t, .addin t⟩
      else nextWord (hazard ((found (s.at t) u).bump (fStarved (.dot u))) 1 (whoOf (found (s.at t) u) (.dot u)) (wf w 52 4) t) (.dot u) 1) := by
  have hsettled : settleBus (settleFuns (s.at t) (u.val / 8) (t - 1)) (u.val / 8) (t - 1) = found (s.at t) u :=
    settled_of_quiet (s := s.at t) hfuns (by simp [hbus])
  have hrow : rowFor (found (s.at t) u) u.val t = none := by simp [rowFor, found_bus, hbus]
  rw [execAddin, issue_of_issuesNext hissue (by decide)]
  dsimp only
  rw [hsettled, hrow]
  dsimp only
  exact (apply_ite Host.Outcome.next _ _ _).symm

/-- A waiting ADDIN takes the row that comes for its unit (R128). -/
theorem execAddinRowTaken_of_row {since : Nat} {r : BusRow} (hplays : plays s (.dot u) = true) (hwait : (s.play (.dot u)).wait = .addin since)
    (hfuns : funsIdle s (u.val / 8)) (hbus : (s.cluster (u.val / 8)).bus = [r]) (hdest : r.dest = u.val % 8) (hdue : since ≤ r.due)
    (hflight : (s.unit u.val).flight = []) : execAddinRowTaken u s = .next (rowTaken (s.bump (fStarved (.dot u)) (r.due - since)) u
      (wf ((s.tt (.dot u)).word (s.play (.dot u)).pc) 52 4) r r.due) := by
  have hrows : rowsFor s u.val since = [r] := by simp [rowsFor, hbus, hdest, hdue, insertRow]
  unfold execAddinRowTaken
  dsimp only
  rw [hwait]
  dsimp only
  rw [settleFuns_of_funsIdle hfuns, hrows]
  dsimp only
  rw [if_pos hplays, takeRow_of_only (by rw [State.cluster_bump, hbus]) (by rw [State.unit_bump, hflight])]

end

/-- Settles O25: EMIT and the end of its wait leave `emitted`, ADDIN and the end of its wait `rowTaken`; the sum is `addBusRow_spec`. -/
theorem emitAndAddinUseBus : Obligations.EmitAndAddinUseBus := by
  unfold Obligations.EmitAndAddinUseBus
  refine ⟨?emit, ?free, ?addin, ?empty, ?taken, fun m r eb => ⟨addBusRow_of_unset m, fun o a hv heb ho ha => addBusRow_spec m r hv heb ho ha⟩⟩
  case emit =>
    intro u w t m s hissue hfuns hbus hflight hm hbuf hbelow
    subst hm
    refine ⟨_, execEmit_of_free hissue hfuns hbus hflight hbuf hbelow, ?_, ?_, ?_, fun v => ?_,
      (found_regs s u t _).trans (emitted_regs _ u w t), ?_⟩
    · rw [emitted_play, found_play, State.play_at]
    · rw [emitted_bus, sentRow_found, sentRow_at]
      rfl
    · rw [emitted_resEmit, sentBank, found_unit, State.unit_at, found_fld, State.fld_at]
    · have hbanks := emitted_banks (found (s.at t) u) u w t v
      rwa [found_unit, State.unit_at] at hbanks
    · obtain ⟨m, us, cs, n, hshape⟩ := emitted_shape (found (s.at t) u) u w t
      rw [hshape]
      rfl
  case free =>
    intro u w since t m s hplays hwait hw ht hfuns hbus hflight hm hbuf hbelow
    subst hm
    have hsep : (fBlocked (.dot u)).sep (fFenced u.val) = true :=
      Fld.sep_of_addr_ne (show 0 + 1 ≤ 32 by decide) (by simp [fBlocked, fFenced, aBase, isDot])
    have hcount : regsSame s ((found s u).bump (fBlocked (.dot u)) (t - since)) [unitBase u.val + 0x58, unitBase u.val + 0x60] :=
      regsSame_bump _ _ (regsSame_setCluster (regsSame.refl s _) _ _) (.tail _ (.head _))
    have hregs := emitted_regs ((found s u).bump (fBlocked (.dot u)) (t - since)) u w t
    refine ⟨_, execEmitBusCycleFree_of_free hplays hwait hw ht hfuns hbus hflight hbuf hbelow, ?_, ?_, ?_,
      hcount.trans (hregs.mono (fun _ ha => List.mem_append_left [_] ha)), ?_⟩
    · rw [emitted_play, State.play_bump, found_play]
    · rw [emitted_bus, sentRow_bump _ _ _ _ _ hsep, sentRow_found]
      rfl
    · rw [State.fld, hregs _ (by simp [fBlocked, aBase, isDot]), ← State.fld,
        State.fld_bump _ (fBlocked (.dot u)) _ (show 16 + 16 ≤ 32 by decide), found_fld]
      rfl
    · obtain ⟨m, us, cs, n, hshape⟩ := emitted_shape ((found s u).bump (fBlocked (.dot u)) (t - since)) u w t
      obtain ⟨k, hk⟩ := (found s u).bump_shape (fBlocked (.dot u)) (t - since)
      rw [hshape, hk]
      rfl
  case addin =>
    intro u w t r s hissue hpos hfuns hbus hdest hdue hflight
    refine ⟨_, execAddin_of_row hissue hpos hfuns hbus hdest hdue hflight, ?_, rowTaken_bus _ _ _ _ _, fun bound hlands => ?_,
      fun bound hearly => ?_, ?_⟩
    · rw [rowTaken_play, found_play, State.play_at]
    · rw [settleUnit_rowTaken, if_pos hlands, found_unit, State.unit_at]
      exact (modAt_getD (s.unit u.val).mb (wf w 52 4) {} (fun m => (addBusRow m r).1)).symm
    · rw [settleUnit_rowTaken, if_neg (by omega), found_unit, State.unit_at]
    · obtain ⟨us, cs, n, hshape⟩ := rowTaken_shape (found (s.at t) u) u (wf w 52 4) r t
      rw [hshape]
      rfl
  case empty =>
    intro u w t s hissue hfuns hbus
    have hexec := execAddin_of_empty hissue hfuns hbus
    obtain ⟨-, -, hcycle, -⟩ := hissue
    refine ⟨fun hlocked => ?_, fun hstaged => ?_⟩
    · rw [hlocked, if_neg Bool.false_ne_true] at hexec
      refine ⟨_, hexec, ?_, ?_, ?_⟩
      · rw [nextWord_play, State.play_dot, hazard_unit, State.unit_bump, found_unit, State.unit_at, ← State.play_dot, hcycle]
      · rw [nextWord_fld, hazard_fld_unit (g := u.val) (d := 0x60) _ _ _ _ _ rfl rfl,
          State.fld_bump _ (fStarved (.dot u)) 1 (show 0 + 16 ≤ 32 by decide), found_fld, State.fld_at]
        rfl
      · rw [nextWord_unit, hazard_unit, State.unit_bump, found_unit, State.unit_at]
    · rw [hstaged, if_pos rfl] at hexec
      exact ⟨_, hexec, State.play_setPlay _ _ _, rfl⟩
  case taken =>
    intro u since r s hplays hwait hfuns hbus hdest hdue hflight
    refine ⟨_, execAddinRowTaken_of_row hplays hwait hfuns hbus hdest hdue hflight, ?_, rowTaken_bus _ _ _ _ _, ?_, ?_,
      (regsSame_bump _ _ (regsSame.refl s _) (.head _)).trans (rowTaken_regs _ u _ r r.due _), ?_⟩
    · rw [rowTaken_play, State.play_bump]
    · rw [rowTaken_unit]
    · rw [rowTaken_fld, State.fld_bump _ (fStarved (.dot u)) _ (show 0 + 16 ≤ 32 by decide)]
      rfl
    · obtain ⟨us, cs, n, hshape⟩ := rowTaken_shape (s.bump (fStarved (.dot u)) (r.due - since)) u
        (wf ((s.tt (.dot u)).word (s.play (.dot u)).pc) 52 4) r r.due
      obtain ⟨k, hk⟩ := s.bump_shape (fStarved (.dot u)) (r.due - since)
      rw [hshape, hk]

end Sys2Proof.Machine

/-!
MAC and PASS at a full port: a beat that reaches the port in the cycle of the read takes the entry that the read frees (07 R170), so that the port
holds one beat more than what stood behind its head.
-/
namespace Sys2Proof.Machine

/-- Beat number i of a port's eight. -/
def queuedBeat (i : Nat) : Beat := ⟨BitVec.ofNat 192 i, 4, 3, false, false, false, false⟩

/-- LOCKED, in a run: dot unit 0 issues `w` in cycle 600. Its east port is full, and a ninth beat has reached it in that cycle. -/
def fullPort (w : Word64) : State :=
  let s := (((({} : State).setFld fState 7).setFld fTurnLen 100).setFld (fPeriod (.dot 0)) 8).mark (fRunning (.dot 0))
  { s with
    clock := { now := 600, xseq := 20, xstart := 600, everLocked := true }
    run := { started := true, start := 18, anchor0 := 18 }
    units := [(0, { play := { pc := 1, at_ := 600 }, tt := { words := [(1, w)] } })]
    portQ := [(1, { beats := (List.range 8).map queuedBeat, excess := some (queuedBeat 8, ⟨0, 0, 1⟩, 600) })] }

/-- How many beats a queue holds after a command. -/
def heldAfter (r : Res) (q : QueueId) : Nat :=
  match r with
  | .next t => (t.queue q).beats.length
  | _ => 0

/-- MAC with its pop, from the east port, to group bank 0. -/
def macEast : Word64 := 1 <<< 58 ||| 1 <<< 56 ||| 1 <<< 55

/-- PASS from the east port to the south. -/
def passEast : Word64 := 7 <<< 58 ||| 1 <<< 56 ||| 2 <<< 54

/-- The head of the full port: the word that issues has no part in it. -/
theorem fullPort_head (w : Word64) : headIs (fullPort w) (.port 0 .east) (queuedBeat 0) (((List.range 8).map queuedBeat).drop 1) 600 := by
  have hpass : passPort (fullPort 0) (.port 0 .east) = false := by decide +kernel
  exact ⟨rfl, rfl, rfl, Nat.zero_le _, rfl, rfl, hpass⟩

/-- Refutes O23: the MAC of `fullPort` pops the head, and the ninth beat enters; the statement has the port hold what stood behind the head. -/
theorem not_macAddsProducts : ¬ Obligations.MacAddsProducts := by
  rintro ⟨hmac, -, -⟩
  have hissue : issuesNext (fullPort macEast) (.dot 0) 1 macEast 600 := by unfold issuesNext; decide +kernel
  obtain ⟨t, hexec, -, hbeats, -⟩ := hmac (.mac 0) 1 false 0 macEast 600 _ _ _ [] (queuedBeat 0) _ (.port 0 .east) _ (fullPort macEast)
    (.head _) hissue (by decide +kernel) (fullPort_head macEast) rfl rfl (by decide +kernel) rfl (by simp) rfl rfl rfl rfl
  have hheld : heldAfter (exec (.mac 0) (fullPort macEast)) (.port 0 .east) = 8 := by decide +kernel
  rw [hexec, heldAfter, hbeats] at hheld
  exact absurd hheld (by decide +kernel)

/-- Refutes O26: the PASS of `fullPort` takes the head, and the ninth beat enters; the statement has the port hold what stood behind the head. -/
theorem not_passAndDupSend : ¬ Obligations.PassAndDupSend := by
  intro h
  have hissue : issuesNext (fullPort passEast) (.dot 0) 7 passEast 600 := by unfold issuesNext; decide +kernel
  obtain ⟨hsends, -⟩ := h (.pass 0) 7 [wf passEast 54 2] 0 passEast 600 (queuedBeat 0) _ (.port 0 .east) (fullPort passEast)
    (.head _) hissue (by decide +kernel) (fullPort_head passEast) rfl rfl
  obtain ⟨t, hexec, -, hbeats, -⟩ := hsends (by decide +kernel)
  have hheld : heldAfter (exec (.pass 0) (fullPort passEast)) (.port 0 .east) = 8 := by decide +kernel
  rw [hexec, heldAfter, hbeats] at hheld
  exact absurd hheld (by decide +kernel)

end Sys2Proof.Machine

/-!
SYNC reads word 0 of the timetable, and counts what its check bits say as for any word (04 R104, R105; 05 R135).
-/
namespace Sys2Proof.Machine

/-- The pass has ended: SYNC reads word 0 and waits for the next anchor (R105). -/
theorem execSync_of_ended {s : State} {u : UnitIx} (hplays : plays s (.dot u) = true) (hwait : (s.play (.dot u)).wait = .none)
    (hend : period s (.dot u) ≤ (s.play (.dot u)).pc) : execSync (.dot u) s = .next (((fetchWord s (.dot u) 0 (s.play (.dot u)).at_).at
      (s.play (.dot u)).at_).setPlay (.dot u) ⟨0, (s.play (.dot u)).at_, .sync⟩) := by
  have hskip : skipIdle (catchUp s (.dot u)) (.dot u) 512 = s := by simp [catchUp, skipIdle, Nat.not_lt.mpr hend]
  simp [execSync, hplays, hskip, hwait, hend]

/-- A SYNC that reads a correctable word 0 counts it in DOT_ECC.CE. -/
theorem execSync_counts_correctable {s t : State} {u : UnitIx} (hplays : plays s (.dot u) = true) (hwait : (s.play (.dot u)).wait = .none)
    (hend : period s (.dot u) ≤ (s.play (.dot u)).pc) (hc : (s.tt (.dot u)).check 0 = some .correctable) (h : execSync (.dot u) s = .next t) :
    t.fld (fCe u.val) = min 255 (s.fld (fCe u.val) + 1) := by
  rw [execSync_of_ended hplays hwait hend, fetchWord_of_correctable hc] at h
  obtain rfl := Host.Outcome.next.inj h
  rw [State.fld_setPlay, State.fld_at]
  exact State.fld_bump s (fCe u.val) 1 (show 0 + 8 ≤ 32 by decide)

/-- LOCKED, in a run: dot unit 0 has played the 7 words of its pass, and reads word 0 with a single-bit error. -/
def passOver : State :=
  { word0Upset.mark (fRunning (.dot 0)) with units := [(0, { play := { pc := 8, at_ := 607 }, tt := { ecc := [(0, some .correctable)] } })] }

/-- Refutes O27: the SYNC of `passOver` reads word 0 and counts the corrected error in DOT_ECC.CE, as R104 has it; the statement lets SYNC write no
register. -/
theorem not_timetableControlWords : ¬ Obligations.TimetableControlWords := by
  rintro ⟨-, -, -, hsync, -⟩
  have hplays : plays passOver (.dot 0) = true := by decide +kernel
  have hend : period passOver (.dot 0) ≤ (passOver.play (.dot 0)).pc := by decide +kernel
  obtain ⟨t, hexec, -, -, hframe⟩ := hsync (.dot 0) passOver hplays rfl hend ⟨rfl, rfl⟩
  have hword : (passOver.tt (.dot 0)).check 0 = some .correctable := by decide +kernel
  have hcount : t.fld (fCe 0) = min 255 (passOver.fld (fCe 0) + 1) := execSync_counts_correctable (u := 0) hplays rfl hend hword hexec
  have hclear : passOver.fld (fCe 0) = 0 := by decide +kernel
  have hsame : t.fld (fCe 0) = passOver.fld (fCe 0) := 
    State.fld_congr (congrArg State.regs hframe) (congrArg State.fuses hframe) (congrArg State.baseSwap hframe) _
  omega

end Sys2Proof.Machine

/-!
The assemblers (06 R159 to R161): a contribution that comes in the cycle in which the record of its tag closes, and what the lanes of a group send of
a verdict frame.
-/
namespace Sys2Proof.Machine

/-! ### A contribution that comes too late (R159) -/

/-- Where no function unit has been at work, no contribution is still to be formed. -/
theorem formContribs_of_noFuns {s : State} (h : s.funs = []) (v bound : Nat) : formContribs s v bound = s := by
  simp only [formContribs, h, List.foldl_nil]

/-- The only contribution on its way to an assembler is the next one that arrives there. -/
theorem nextContribution_of_only {s : State} {v : Nat} {c : Contribution} (h : s.contribs.filter (fun d => decide (d.va = v)) = [c]) :
    nextContribution s v c.due = some c := by
  have hdue : s.contribs.filter (fun d => decide (d.va = v) && decide (d.due ≤ c.due)) = [c] := by
    simp only [Bool.and_comm (decide (_ = v)), ← List.filter_filter, h, le_refl, decide_true, List.filter_cons_of_pos, List.filter_nil]
  simp only [nextContribution, hdue, List.foldl_cons, List.foldl_nil]

/-- A contribution that comes when the record of its tag closes, or should have closed, stays on its way: it belongs to a later crossing. -/
theorem execContributionArrival_of_tooLate {s : State} {v : VaIx} {c : Contribution} (hfuns : s.funs = [])
    (honly : s.contribs.filter (fun d => decide (d.va = v.val)) = [c]) (hlate : comesTooLate s c = true) :
    execContributionArrival v s = .next s := by
  simp [execContributionArrival, honly, hfuns, formContribs_of_noFuns hfuns, nextContribution_of_only honly, hlate]

/-- A locked image of 30 cycles a crossing that answers a crossing 10 crossings on, less 4 cycles. -/
def answersIn10 : Image :=
  { locked := true, cap := 0, n := 30, k := 1, l := 10, w := 0, f := 1, d := 0, e := 4, regions := 1, channels := 1, menus := 1, placements := []
    lanes := [], layers := [], steps := [], descInit := [], calendars := [], contexts := [], digest := [] }

/-- Trigger bit 0 of crossing 10, from CID 4, for assembler 0: it reaches it in cycle 596. -/
def bitOf10 : Contribution := ⟨0, 1, 1, 4, 10, false, false, none, 596⟩

/-- LOCKED in crossing 19, in a run since crossing 5: assembler 0 is enabled, and its record of crossing 10 closes in cycle 596. -/
def closing10 : State :=
  let s := (((({} : State).setFld fState 7).setFld fTurnLen 100).setFld fCurrent 19).mark (fVaEnable 0)
  { s with
    clock := { now := 590, xseq := 19, xstart := 570, everLocked := true }
    run := { started := true, start := 5, anchor0 := 5 }
    image := some answersIn10
    contribs := [bitOf10]
    vas := [(0, { nextClose := 10 })] }

/-- Refutes O18: the contribution of `closing10` reaches its assembler in the cycle in which crossing 10 closes, so that it waits for that close; the
statement has it taken. -/
theorem not_recordsGatherAndClose : ¬ Obligations.RecordsGatherAndClose := by
  rintro ⟨hgather, -⟩
  obtain ⟨t, r, hexec, htaken, -⟩ := hgather 0 bitOf10 closing10 rfl (by decide +kernel)
  have hstays : exec (.contributionArrival 0) closing10 = .next closing10 :=
    execContributionArrival_of_tooLate (s := closing10) (v := 0) (c := bitOf10) rfl rfl (by decide +kernel)
  obtain rfl : closing10 = t := Host.Outcome.next.inj (hstays.symm.trans hexec)
  exact absurd htaken (by decide)

/-! ### What the lanes send of a verdict frame (11 R279, R286) -/

/-- LOCKED in crossing 20: assembler 0 holds the verdict of crossing 17, and lane 0 of tile 1, a group of its own that is UP, carries it. -/
def verdictDue : State :=
  let s := ((((({} : State).setFld fState 7).setFld fTurnLen 100).setFld (fTxFunc 1 0) 1).setFld (fTxRate 1 0) 9600).setFld (fTxState 1 0) 2
  { s with
    clock := { now := 600, xseq := 20, xstart := 600, everLocked := true }
    vas := [(0, { closed := [⟨17, 17, 0, 1, 0, 0, 0, []⟩] })] }

/-- How many records of what the package sends a command leaves. -/
def sentAfter (r : Res) : Nat :=
  match r with
  | .next t => t.out.length
  | _ => 0

/-- Refutes O19: the verdict of `verdictDue` leaves, and after it the blocks that the group's lane sends; the statement has the verdict sent last. -/
theorem not_verdictLeavesInItsLayout : ¬ Obligations.VerdictLeavesInItsLayout := by
  rintro ⟨hlaunch, -⟩
  obtain ⟨t, w, hexec, -, hout, -⟩ := hlaunch 0 _ [] verdictDue rfl (.inr (by decide +kernel))
  have hsent : sentAfter (exec (.verdictLaunch 0) verdictDue) = 2 := by decide +kernel
  rw [hexec, sentAfter, hout, List.length_cons] at hsent
  exact absurd hsent (by decide)

end Sys2Proof.Machine

/-!
Words and steering units at a full queue: a beat that reaches the queue in the cycle of the read takes the entry that the read frees (07 R170), so
that the queue holds one beat more than what stood behind its head.
-/
namespace Sys2Proof.Machine

/-- A queue that holds its eight beats, and that a ninth has reached in cycle 600. -/
def fullQueue : Queue := { beats := (List.range 8).map queuedBeat, excess := some (queuedBeat 8, ⟨0, 12, 0⟩, 600) }

/-- What stands behind the head of a full queue. -/
def behindHead : List Beat := ((List.range 8).map queuedBeat).drop 1

/-- A command that leaves eight beats in the queue has let the ninth in. -/
theorem ninth_enters {r : Res} {t : State} {q : QueueId} (hheld : heldAfter r q = 8) (hexec : r = .next t) : (t.queue q).beats ≠ behindHead := by
  intro hbehind
  rw [hexec, heldAfter, hbehind] at hheld
  exact absurd hheld (by decide)

/-! ### Function units -/

/-- LOCKED, in a run: function unit 0 issues `w` in cycle 600. Queue 2 of its cluster's bank is full, and queue 7 holds one beat. -/
def fullBank (w : Word64) : State :=
  let s := ((((({} : State).setFld fState 7).setFld fTurnLen 100).setFld (fPeriod (.fn 0)) 8).mark (fRunning (.fn 0))).setFld (fQDepth (.bank 0 2)) 8
  { s with
    clock := { now := 600, xseq := 20, xstart := 600, everLocked := true }
    run := { started := true, start := 18, anchor0 := 18 }
    funs := [(0, { play := { pc := 1, at_ := 600 }, tt := { words := [(1, w)] } })]
    bankQ := [(2, fullQueue), (7, { beats := [queuedBeat 0] })] }

/-- ROWX of a row of 16 from queue 2 to queue 3. -/
def rowxFrom2 : Word64 := 0x11 <<< 58 ||| 2 <<< 53 ||| 3 <<< 48 ||| 15 <<< 27

/-- SCATTER of a row of 16 from queue 2 by the indices of queue 7, to queue 3. -/
def scatterFrom2 : Word64 := 0x1B <<< 58 ||| 2 <<< 53 ||| 3 <<< 48 ||| 15 <<< 27 ||| 15 <<< 5 ||| 7

/-- The head of the full queue: the word that issues has no part in it. -/
theorem fullBank_head (w : Word64) : headIs (fullBank w) (.bank 0 2) (queuedBeat 0) behindHead 600 :=
  ⟨rfl, rfl, rfl, Nat.zero_le _, rfl, rfl, rfl⟩

/-- Refutes O29: the ROWX of `fullBank` takes the head, and the ninth beat enters; the statement has the queue hold what stood behind the head. -/
theorem not_functionWordRuns : ¬ Obligations.FunctionWordRuns := by
  rintro ⟨hruns, -⟩
  have hissue : issuesNext (fullBank rowxFrom2) (.fn 0) 0x11 rowxFrom2 600 := by unfold issuesNext; decide +kernel
  obtain ⟨t, hexec, -, -, hbeats, -⟩ := hruns (.rowx 0) 0x11 2 0 rowxFrom2 600 (queuedBeat 0) behindHead (.bank 0 3) _ _ (fullBank rowxFrom2)
    (.tail _ (.head _)) hissue ⟨rfl, rfl⟩ rfl (by decide +kernel) (by decide) (fullBank_head rowxFrom2) rfl rfl (by decide +kernel)
    (by decide +kernel) rfl rfl
  have hheld : heldAfter (exec (.rowx 0) (fullBank rowxFrom2)) (.bank 0 2) = 8 := by decide +kernel
  exact ninth_enters hheld hexec hbeats

/-- Refutes O30: the SCATTER of `fullBank` takes the head, and the ninth beat enters; the statement has the queue hold what stood behind the head. -/
theorem not_indexedAndSumWordsRun : ¬ Obligations.IndexedAndSumWordsRun := by
  rintro ⟨hruns, -⟩
  have hissue : issuesNext (fullBank scatterFrom2) (.fn 0) 0x1B scatterFrom2 600 := by unfold issuesNext; decide +kernel
  have hindex : headIs (fullBank scatterFrom2) (.bank 0 7) (queuedBeat 0) [] 600 := ⟨rfl, rfl, rfl, Nat.zero_le _, rfl, rfl, rfl⟩
  obtain ⟨t, hexec, -, hbeats, -⟩ := hruns (.scatter 0) 0x1B 7 2 600 0 scatterFrom2 600 (queuedBeat 0) (queuedBeat 0) behindHead [] (.bank 0 3)
    _ _ (fullBank scatterFrom2) (.tail _ (.head _)) hissue ⟨rfl, rfl⟩ rfl (by decide +kernel) (by decide) (by decide) (by decide)
    (fullBank_head scatterFrom2) hindex rfl rfl (by decide +kernel) (by decide +kernel) rfl rfl
  have hheld : heldAfter (exec (.scatter 0) (fullBank scatterFrom2)) (.bank 0 2) = 8 := by decide +kernel
  exact ninth_enters hheld hexec hbeats

/-! ### Steering units -/

/-- LOCKED: the steering unit of cluster 0 splits rows, and its input 0 is full. -/
def fullInput : State :=
  let s := (((({} : State).setFld fState 7).setFld fTurnLen 100).setFld (fSteOp 0) 1).mark (fSteEnable 0)
  { s with
    clock := { now := 600, xseq := 20, xstart := 600, everLocked := true }
    steerQ := [(0, fullQueue)] }

/-- Refutes O32: the SPLIT of `fullInput` forwards the head of input 0, and the ninth beat enters; the statement has the input hold what stood behind
the head. -/
theorem not_steeringForwardsRows : ¬ Obligations.SteeringForwardsRows := by
  rintro ⟨hforward, -⟩
  have hhead : headIs fullInput (steerIn 0 0) (queuedBeat 0) behindHead 600 := ⟨rfl, rfl, rfl, Nat.zero_le _, rfl, rfl, rfl⟩
  obtain ⟨t, hexec, -, hbeats, -⟩ := hforward (.splitRows 0) 0 1 0 0 600 0 (queuedBeat 0) behindHead fullInput (by decide +kernel)
    (by decide +kernel) ⟨rfl, rfl⟩ (by decide +kernel) rfl rfl rfl rfl hhead (.inr ⟨rfl, rfl, rfl, by decide +kernel, by decide +kernel⟩) (by decide +kernel)
  have hheld : heldAfter (exec (.splitRows 0) fullInput) (.steer 0 0) = 8 := by decide +kernel
  exact ninth_enters hheld hexec hbeats

end Sys2Proof.Machine

/-!
Credits and arbiters. A credit that reaches a waiting writer ends its wait (07 R173), and squall leaves every second position of a light-lane group
without a new loose flit (15 R391).
-/
namespace Sys2Proof.Machine

/-! ### The return of a credit -/

/-- LOCKED: the east port of unit 0 is a HOLD queue whose eight credits are spent. Its writer has waited since cycle 601, and a credit reaches it in
cycle 610. -/
def waitedPort : State :=
  let s := ((({} : State).setFld fState 7).setFld fTurnLen 100).mark (fQMode (.port 0 .east))
  { s with
    clock := { now := 605, xseq := 20, xstart := 600, everLocked := true }
    portQ := [(1, { beats := (List.range 7).map queuedBeat, taken := 8, returning := [610], waitSince := some 601 })] }

/-- Since when the writer of a queue waits for credit after a command. -/
def waitAfter (r : Res) (q : QueueId) : Option Nat :=
  match r with
  | .next t => (t.queue q).waitSince
  | _ => none

/-- Refutes O33: the CREDIT_RETURN of `waitedPort` ends the writer's wait; the statement has the queue keep it. -/
theorem not_queueEventsMoveBeats : ¬ Obligations.QueueEventsMoveBeats := by
  rintro ⟨-, -, -, hreturn, -⟩
  obtain ⟨t, hexec, hqueue, -⟩ := hreturn (.port 0 .east) 610 [] waitedPort rfl (by decide +kernel) (by decide +kernel)
  have hended : waitAfter (exec (.creditReturn (.port 0 .east)) waitedPort) (.port 0 .east) = none := by decide +kernel
  have hwaits : (waitedPort.queue (.port 0 .east)).waitSince = some 601 := by decide +kernel
  rw [hexec, waitAfter, hqueue] at hended
  exact absurd (hwaits.symm.trans hended) (by decide)

/-! ### The position of a granted flit -/

/-- Squall: group 0 of light tile 4 works on lanes 0 and 1, its last new flit took position 0, and its egress is granted to stream 1, whose edge link
15 holds a beat and a credit. -/
def squallGroup : State :=
  let s := (((({} : State).setFld fThermState 1).mark (fGrpUp 4 0)).setFld (fBondWidth 4 0) 1).setFld (fGrpWidth 4 0) 1
  let up := (s.setFld (fLaneState 4 0 false) 2).setFld (fLaneState 4 1 false) 2
  { (up.mark (fTxmapEn 4 15)).setFld (fTxmapStream 4 15) 1 with
    egressArb := [(32 * 4, { busy := true, owner := some (.stream 1) })]
    retries := [(32 * 4, { pos := 1, rested := false })]
    txLinks := [(16 * 4 + 15, { loose := [queuedBeat 0], credit := 1 })] }

/-- The lane of a sent flit. -/
def laneOf : Out → Option Nat
  | .flit _ lane _ _ _ => some lane
  | _ => none

/-- The lane of the flit that a command has sent last. -/
def laneAfter (r : Res) : Option Nat :=
  match r with
  | .next t => t.out.head?.bind laneOf
  | _ => none

/-- Refutes O34: the TRANSACTION_END of `squallGroup` leaves position 1 to NULL, so that the flit goes by lane 0; the statement sends it by lane 1, in
the first position of a lane with room. -/
theorem not_arbitersGrantByRank : ¬ Obligations.ArbitersGrantByRank := by
  rintro ⟨-, -, -, -, hegress⟩
  obtain ⟨t, q, hexec, -, -, -, hout, -⟩ := hegress 4 0 1 15 1 (queuedBeat 0) [] squallGroup (by decide +kernel) (by decide +kernel) (by decide +kernel)
    (by decide +kernel) (by decide +kernel) (by decide +kernel) (by decide +kernel) (by decide +kernel)
  have hlane : laneAfter (exec (.transactionEnd (.egress 4 0)) squallGroup) = some 0 := by decide +kernel
  rw [hexec, laneAfter, hout] at hlane
  exact absurd hlane (by simp [laneOf])

end Sys2Proof.Machine

/-!
The cells of a logic block (08 R192 to R195): what an edge loads into each flip-flop, and the values that read 0.
-/
namespace Sys2Proof.Machine

section
variable (v : Logic) (inp : Nat → Bool)

/-- What flip-flop B, or A, of cell c loads at an edge of its tree. -/
def cellLoad (c : Nat) (b : Bool) : Bool :=
  flopNext (cellCtl v (c / 64) (c % 64)) b (mget false v.flops (2 * c + bit b)) (flopInput v inp b (c / 64) (c % 64))
    (muxValue v inp 14 (c / 64) (c % 64)) (muxValue v inp 15 (c / 64) (c % 64))

/-- The flip-flops with both of cell c loaded. -/
def loadCell (m : SMap Bool) (c : Nat) : SMap Bool :=
  mset false (mset false m (2 * c) (cellLoad v inp c false)) (2 * c + 1) (cellLoad v inp c true)

/-- The cells on the trees `on` that hold a configuration word. -/
def edgeCells (on : List Nat) : List Nat :=
  ((v.cells.words.map (fun e => e.1 / 2)).eraseDups).filter (fun c => on.contains (bits (cellCtl v (c / 64) (c % 64)).toNat 5 2))

theorem edgeFlops_eq_foldl (on : List Nat) : edgeFlops v inp on = (edgeCells v on).foldl (loadCell v inp) v.flops := (rfl)

theorem mem_edgeCells_iff (on : List Nat) (c : Nat) :
    c ∈ edgeCells v on ↔ (∃ e ∈ v.cells.words, e.1 / 2 = c) ∧ bits (cellCtl v (c / 64) (c % 64)).toNat 5 2 ∈ on := by
  simp only [edgeCells, List.mem_filter, List.mem_eraseDups, List.mem_map, List.contains_iff_mem]

theorem mget_loadCell_same (m : SMap Bool) (c : Nat) (b : Bool) : mget false (loadCell v inp m c) (2 * c + bit b) = cellLoad v inp c b := by
  cases b with
  | false =>
    rw [loadCell, mget_mset_other _ _ _ _ (show 2 * c + bit false ≠ 2 * c + 1 by simp [bit])]
    exact mget_mset_same _ _ _ _
  | true => exact mget_mset_same _ _ _ _

theorem mget_loadCell_other (m : SMap Bool) {c d : Nat} (h : d ≠ c) (b : Bool) :
    mget false (loadCell v inp m c) (2 * d + bit b) = mget false m (2 * d + bit b) := by
  have hb : bit b ≤ 1 := by cases b <;> decide
  rw [loadCell, mget_mset_other _ _ _ _ (by omega), mget_mset_other _ _ _ _ (by omega)]

/-- What a cell loads hangs on the flip-flops before the edge alone, so that the order of the cells does not matter. -/
theorem mget_foldl_loadCell (l : List Nat) (m : SMap Bool) (c : Nat) (b : Bool) :
    mget false (l.foldl (loadCell v inp) m) (2 * c + bit b) = if c ∈ l then cellLoad v inp c b else mget false m (2 * c + bit b) := by
  induction l generalizing m with
  | nil => simp
  | cons d r ih =>
    rw [List.foldl_cons, ih]
    by_cases hr : c ∈ r
    · simp [hr]
    · by_cases hd : c = d
      · simp [hd, mget_loadCell_same]
      · simp [hr, hd, mget_loadCell_other v inp m hd]

theorem mget_edgeFlops (on : List Nat) (c : Nat) (b : Bool) : mget false (edgeFlops v inp on) (2 * c + bit b) =
    if c ∈ edgeCells v on then cellLoad v inp c b else mget false v.flops (2 * c + bit b) := by
  rw [edgeFlops_eq_foldl, mget_foldl_loadCell]

/-- SR goes before CE (R192). -/
theorem cellLoad_eq {col row : Nat} (h : row < 64) (b : Bool) : cellLoad v inp (64 * col + row) b =
    if (cellCtl v col row).getLsbD 8 = true ∧ muxValue v inp 15 col row = true then (cellCtl v col row).getLsbD (if b = true then 4 else 3)
    else if (cellCtl v col row).getLsbD 7 = true ∧ muxValue v inp 14 col row = false then mget false v.flops (2 * (64 * col + row) + bit b)
    else flopInput v inp b col row := by
  have hcol : (64 * col + row) / 64 = col := by omega
  have hrow : (64 * col + row) % 64 = row := by omega
  simp only [cellLoad, hcol, hrow, flopNext, Bool.and_eq_true, Bool.not_eq_true']

theorem mem_edgeCells_place_iff {col row : Nat} (h : row < 64) (on : List Nat) :
    64 * col + row ∈ edgeCells v on ↔ (∃ e ∈ v.cells.words, e.1 / 2 = 64 * col + row) ∧ bits (cellCtl v col row).toNat 5 2 ∈ on := by
  have hcol : (64 * col + row) / 64 = col := by omega
  have hrow : (64 * col + row) % 64 = row := by omega
  rw [mem_edgeCells_iff, hcol, hrow]

theorem muxValue_of_select_zero {m col row : Nat} (h : muxSelect v m col row = 0) : muxValue v inp m col row = false := by
  simp [muxValue, h]

/-- The length-12 wires are the nets 6 and 7 of a box; the guard switches a contended one off (R195). -/
theorem netValue_of_contended {vert : Bool} {col row : Nat} (h : wireOf vert col row ∈ v.contended) (fuel : Nat) :
    netValue v inp (fuel + 1) (.wire (6 + bit vert) col row) = false := by
  have hvert : decide (6 + bit vert = 7) = vert := by cases vert <;> rfl
  have hlong : ¬ 6 + bit vert < 6 := by omega
  have hoff : v.contended.contains (wireOf vert col row) = true := List.contains_iff_mem.mpr h
  rw [netValue]
  simp only [hlong, hvert, hoff, if_true, if_false]

end

theorem cellTable_of_whole {ctl : Word64} (h : ctl.getLsbD 0 = false) (table : Word64) (i : BitVec 6) :
    cellTable table ctl i = (table.getLsbD i.toNat, table.getLsbD i.toNat) := by
  rw [cellTable, h, if_neg Bool.false_ne_true]

/-- Split in two, each half is a table of the first five inputs. -/
theorem cellTable_of_split {ctl : Word64} (h : ctl.getLsbD 0 = true) (table : Word64) (i : BitVec 6) :
    cellTable table ctl i = (table.getLsbD (bits i.toNat 0 5), table.getLsbD (32 + bits i.toNat 0 5)) := by
  have hbits : bits i.toNat 0 5 = i.toNat % 32 := by simp [bits]
  rw [cellTable, h, if_pos rfl, hbits]

/-- Settles O36: a flip-flop reads what its cell loads, where the edge reaches the cell, and else what it held (`mget_edgeFlops`). -/
theorem logicCellsCompute : Obligations.LogicCellsCompute := by
  refine ⟨?flops, ?selects, ?wires, ?tables⟩
  case flops =>
    intro v inp on col row b hrow
    rw [mget_edgeFlops]
    refine ⟨fun hword htree => ?_, fun hout => if_neg ?_⟩
    · rw [if_pos ((mem_edgeCells_place_iff v hrow on).mpr ⟨hword, htree⟩), cellLoad_eq v inp hrow]
    · rw [mem_edgeCells_place_iff v hrow]
      rintro ⟨⟨e, he, hc⟩, htree⟩
      exact hout.elim (fun h => h e he hc) (fun h => h htree)
  case selects => exact fun v inp _ _ _ h => muxValue_of_select_zero v inp h
  case wires => exact fun v inp _ fuel _ _ h => netValue_of_contended v inp h fuel
  case tables => exact fun table _ i => ⟨fun h => cellTable_of_whole h table i, fun h => cellTable_of_split h table i⟩

end Sys2Proof.Machine

/-!
A block's state and its registers (08 R205 to R210): what reads and writes of the block leave alone, and where its registers lie.
-/
namespace Sys2Proof.Machine

/-! ### The block of a cluster -/

section
variable (s : State) (k : Nat)

@[simp] theorem State.logic_setLogic (v : Logic) : (s.setLogic k v).logic k = v := by
  rw [State.logic, State.setLogic, State.setCluster_cluster]

@[simp] theorem State.logic_setFld (f : Fld) (n : Nat) : (s.setFld f n).logic k = s.logic k := (rfl)
@[simp] theorem State.logic_bump (f : Fld) (n : Nat) : (s.bump f n).logic k = s.logic k := (rfl)
@[simp] theorem State.logic_mark (f : Fld) : (s.mark f).logic k = s.logic k := (rfl)
@[simp] theorem State.fld_setLogic (v : Logic) (f : Fld) : (s.setLogic k v).fld f = s.fld f := (rfl)
@[simp] theorem State.is_setLogic (v : Logic) (f : Fld) : (s.setLogic k v).is f = s.is f := (rfl)

@[simp] theorem State.cluster_setFld (f : Fld) (n j : Nat) : (s.setFld f n).cluster j = s.cluster j := (rfl)
@[simp] theorem State.queue_setFld (f : Fld) (n : Nat) (q : QueueId) : (s.setFld f n).queue q = s.queue q := by cases q <;> rfl
@[simp] theorem State.queue_setLogic (v : Logic) (q : QueueId) : (s.setLogic k v).queue q = s.queue q := by cases q <;> rfl

theorem State.setFld_setLogic (v : Logic) (f : Fld) (n : Nat) : (s.setLogic k v).setFld f n = (s.setFld f n).setLogic k v := (rfl)

theorem State.setFld_setLogic_frame (v : Logic) (f : Fld) (n : Nat) :
    { (s.setFld f n).setLogic k v with regs := s.regs, clusters := s.clusters } = s := (rfl)

theorem State.cluster_setLogic_other (v : Logic) {j : Nat} (h : j ≠ k) : (s.setLogic k v).cluster j = s.cluster j :=
  State.setCluster_cluster_other _ _ _ _ h

theorem State.logic_congr {s t : State} (h : t.clusters = s.clusters) : t.logic k = s.logic k := by
  rw [State.logic, State.cluster, h, State.logic, State.cluster]

end

/-! ### What the package sends, and its byte ports -/

/-- The state with these commands at the byte ports. -/
def State.withByteCmds (s : State) (m : SMap (Option (Nat × Nat × Byte))) : State := { s with byteCmds := m }

/-- The state with this sent. -/
def State.withOut (s : State) (o : List Out) : State := { s with out := o }

section
variable (s : State) (m : SMap (Option (Nat × Nat × Byte))) (o : List Out)

theorem State.setFld_withByteCmds (f : Fld) (n : Nat) : (s.withByteCmds m).setFld f n = (s.setFld f n).withByteCmds m := (rfl)

@[simp] theorem State.fld_withByteCmds (f : Fld) : (s.withByteCmds m).fld f = s.fld f := (rfl)
@[simp] theorem State.logic_withByteCmds (k : Nat) : (s.withByteCmds m).logic k = s.logic k := (rfl)
@[simp] theorem State.cluster_withByteCmds (k : Nat) : (s.withByteCmds m).cluster k = s.cluster k := (rfl)
@[simp] theorem State.fld_withOut (f : Fld) : (s.withOut o).fld f = s.fld f := (rfl)
@[simp] theorem State.logic_withOut (k : Nat) : (s.withOut o).logic k = s.logic k := (rfl)
@[simp] theorem State.cluster_withOut (k : Nat) : (s.withOut o).cluster k = s.cluster k := (rfl)
@[simp] theorem State.queue_withOut (q : QueueId) : (s.withOut o).queue q = s.queue q := by cases q <;> rfl

end

/-! ### Writes of registers alone -/

/-- From `s` to `t` the registers alone have changed. -/
def onlyRegs (s t : State) : Prop := ∃ m, t = { s with regs := m }

section
variable {s t : State}

theorem onlyRegs.refl : onlyRegs s s := ⟨s.regs, rfl⟩

theorem onlyRegs.setFld (h : onlyRegs s t) (f : Fld) (n : Nat) : onlyRegs s (t.setFld f n) := by
  obtain ⟨m, rfl⟩ := h
  exact ⟨_, rfl⟩

theorem onlyRegs.mark (h : onlyRegs s t) (f : Fld) : onlyRegs s (t.mark f) := h.setFld f 1

theorem onlyRegs.bump (h : onlyRegs s t) (f : Fld) (n : Nat) : onlyRegs s (t.bump f n) := h.setFld f _

theorem onlyRegs.hazard (h : onlyRegs s t) (kind : Nat) (who : Who) (object c : Nat) : onlyRegs s (hazard t kind who object c) := by
  unfold Machine.hazard
  dsimp only
  split
  · split
    · exact h.bump _ _
    · exact ((((((((h.bump _ _).setFld _ _).mark _).setFld _ _).setFld _ _).setFld _ _).setFld _ _).setFld _ _).setFld _ _
  · exact h

/-- Everything but the registers is as it was. -/
theorem onlyRegs.frame (h : onlyRegs s t) : { t with regs := s.regs } = s := by
  obtain ⟨m, rfl⟩ := h
  rfl

end

/-! ### A sticky bit set under a condition -/

/-- The state with a sticky bit set where `b` holds. -/
def State.markIf (s : State) (b : Bool) (f : Fld) : State := if b then s.mark f else s

section
variable (s : State) (b : Bool) (f : Fld)

@[simp] theorem State.logic_markIf (k : Nat) : (s.markIf b f).logic k = s.logic k := by cases b <;> rfl

theorem State.is_markIf_sep {g : Fld} (h : f.sep g = true) : (s.markIf b f).is g = s.is g := by
  cases b
  · rfl
  · exact congrArg (· == 1) (State.fld_mark_sep s h)

theorem onlyRegs.markIf {s t : State} (h : onlyRegs s t) (b : Bool) (f : Fld) : onlyRegs s (t.markIf b f) := by
  cases b
  · exact h
  · exact h.mark f

theorem regsSame_markIf {s0 s : State} {l : List Nat} (b : Bool) (f : Fld) (h : regsSame s0 s l) (ha : f.addr ∈ l) :
    regsSame s0 (s.markIf b f) l := by
  cases b
  · exact h
  · exact regsSame_mark f h ha

end

/-! ### Where the registers lie -/

section
variable (k : Nat)

theorem logState_sep_applied : (fLogState k).sep (fApplied k) = true :=
  Fld.sep_of_addr_ne (Nat.le_of_ble_eq_true rfl) (by simp only [fLogState, fApplied]; omega)

theorem applied_sep_logState : (fApplied k).sep (fLogState k) = true :=
  Fld.sep_of_addr_ne (Nat.le_of_ble_eq_true rfl) (by simp only [fLogState, fApplied]; omega)

theorem logFrameErr_sep_logCrcErr : (fLogFrameErr k).sep (fLogCrcErr k) = true := by simp [Fld.sep, fLogFrameErr, fLogCrcErr]

/-- A block's registers are none of a region's. -/
theorem logBase_ne_regionBase (r : Nat) {a b : Nat} (ha : a < 0x1000) (hb : b < 0x20000) : logBase k + a ≠ regionBase r + b := by
  simp only [logBase, clusterBase, regionBase, dieBase]
  omega

theorem regionField_sep_logState {f : Fld} {r b : Nat} (hf : f.addr = regionBase r + b) (hb : b < 0x20000) : f.sep (fLogState k) = true :=
  Fld.sep_of_addr_ne (Nat.le_of_ble_eq_true rfl) (by rw [hf]; exact logBase_ne_regionBase k r (by decide) hb)

theorem regionField_sep_applied {f : Fld} {r b : Nat} (hf : f.addr = regionBase r + b) (hb : b < 0x20000) : f.sep (fApplied k) = true :=
  Fld.sep_of_addr_ne (Nat.le_of_ble_eq_true rfl) (by rw [hf]; exact logBase_ne_regionBase k r (by decide) hb)

end

end Sys2Proof.Machine

/-!
The frame port of a block (08 R205 to R207): the words gathered, the checks of a whole frame, and what an applied frame writes.
-/
namespace Sys2Proof.Machine

/-! ### A frame that is refused -/

/-- The state after a whole frame that fails its check word or its form: the frame dropped, and the error bits set. -/
def State.frameRefused (s : State) (k : Nat) (crc form : Bool) : State :=
  ((s.setLogic k { s.logic k with words := [] }).markIf (!crc) (fLogCrcErr k)).markIf (!form) (fLogFrameErr k)

section
variable (s : State) (k : Nat) (crc form : Bool)

theorem State.frameRefused_logic : (s.frameRefused k crc form).logic k = { s.logic k with words := [] } := by
  rw [State.frameRefused, State.logic_markIf, State.logic_markIf, State.logic_setLogic]

theorem State.frameRefused_crcErr : (s.frameRefused k false form).is (fLogCrcErr k) = true := by
  rw [State.frameRefused, State.is_markIf_sep _ _ _ (logFrameErr_sep_logCrcErr k)]
  exact State.is_mark _ _ (Nat.le_of_ble_eq_true rfl) rfl

theorem State.frameRefused_frameErr : (s.frameRefused k crc false).is (fLogFrameErr k) = true :=
  State.is_mark _ _ (Nat.le_of_ble_eq_true rfl) rfl

theorem State.frameRefused_regs : regsSame s (s.frameRefused k crc form) [(fLogCrcErr k).addr] :=
  regsSame_markIf _ _ (regsSame_markIf _ _ (regsSame.of_parts _ rfl rfl rfl) (.head _)) (.head _)

theorem State.frameRefused_frame : { s.frameRefused k crc form with regs := s.regs, clusters := s.clusters } = s := by
  obtain ⟨m, hm⟩ : onlyRegs (s.setLogic k { s.logic k with words := [] }) (s.frameRefused k crc form) :=
    (onlyRegs.refl.markIf (!crc) (fLogCrcErr k)).markIf (!form) (fLogFrameErr k)
  rw [hm]
  rfl

end

/-! ### A word completes (R205, R207) -/

section
variable {s : State} {k : Nat} {lo : Word32} {ws : List Word64}
  (hws : ws = (s.logic k).words ++ [BitVec.ofNat 64 (lo.toNat + 2 ^ 32 * (s.logic k).frameHi.toNat)])
include hws

theorem writeFrameLo_of_short (h : ws.length < frameLength (ws.headD 0).toNat + 2) :
    writeFrameLo s k lo = s.setLogic k { s.logic k with words := ws } := by
  subst hws
  exact if_pos h

/-- A whole frame that passes its checks is being applied from then on. -/
theorem writeFrameLo_of_sound (h : frameLength (ws.headD 0).toNat + 2 ≤ ws.length) (hcrc : frameCrcOk ws = true)
    (hform : (frameFormOk ws && decide (s.fld (fLogState k) = 1)) = true) (hidle : (s.logic k).applying = none) :
    ∃ c, writeFrameLo s k lo = { s with clusters := c } ∧
      (writeFrameLo s k lo).logic k = { s.logic k with words := [], applying := some ws } := by
  have hfinish : finishFrame (s.setLogic k { s.logic k with words := [] }) k = s.setLogic k { s.logic k with words := [] } := by
    simp [finishFrame, hidle]
  have heq : writeFrameLo s k lo = (s.setLogic k { s.logic k with words := [] }).setLogic k { s.logic k with words := [], applying := some ws } := by
    subst hws
    unfold writeFrameLo
    dsimp only
    rw [if_neg (Nat.not_lt.mpr h), hcrc, hform, hfinish, Bool.and_self, if_pos rfl, State.logic_setLogic]
  rw [heq]
  exact ⟨_, rfl, State.logic_setLogic _ _ _⟩

/-- A whole frame that fails one is dropped, and its error bits are set. -/
theorem writeFrameLo_of_refused (h : frameLength (ws.headD 0).toNat + 2 ≤ ws.length)
    (hbad : (frameCrcOk ws && (frameFormOk ws && decide (s.fld (fLogState k) = 1))) = false) :
    writeFrameLo s k lo = s.frameRefused k (frameCrcOk ws) (frameFormOk ws && decide (s.fld (fLogState k) = 1)) := by
  subst hws
  unfold writeFrameLo
  dsimp only
  rw [if_neg (Nat.not_lt.mpr h), hbad, if_neg Bool.false_ne_true]
  simp only [State.frameRefused, State.markIf, Bool.not_eq_true', ← Bool.not_eq_true, ite_not]

end

/-! ### A frame applies (R206, R207) -/

section
variable (s : State) (k : Nat)

/-- The guard changes the block's contended wires, and registers. -/
theorem guardColumn_logic (col : Nat) : ∃ l, (guardColumn s k col).logic k = { s.logic k with contended := l } := by
  unfold guardColumn
  dsimp only
  split
  · exact ⟨_, State.logic_setLogic _ _ _⟩
  · split
    · exact ⟨_, State.logic_setLogic _ _ _⟩
    · exact ⟨_, by rw [State.logic_setFld, State.logic_setFld, State.logic_setFld, State.logic_mark, State.logic_setLogic]⟩

theorem guardColumn_applied (col : Nat) : (guardColumn s k col).fld (fApplied k) = s.fld (fApplied k) := by
  have hsep {f : Fld} (h : f.addr = logBase k + 4) : f.sep (fApplied k) = true :=
    Fld.sep_of_addr_ne (Nat.le_of_ble_eq_true rfl) (by simp only [h, fApplied]; omega)
  unfold guardColumn
  dsimp only
  split
  · rfl
  · split
    · rfl
    · rw [State.fld_setFld_sep _ (hsep rfl), State.fld_setFld_sep _ (hsep rfl), State.fld_setFld_sep _ (hsep rfl),
        State.fld_mark_sep _ (hsep rfl), State.fld_setLogic]

theorem stageWrite_clusters (a : Nat) (v : Word32) : (stageWrite s a v).clusters = s.clusters := by
  unfold stageWrite
  split <;> simp

theorem stageWrite_applied (a : Nat) (v : Word32) : (stageWrite s a v).fld (fApplied k) = s.fld (fApplied k) := by
  unfold stageWrite
  split
  · exact State.fld_mark_sep s (regionField_sep_applied k (r := regionOf a) (b := 0x1008) rfl (by decide))
  · rfl

variable (ws : List Word64)

theorem applyFrame_applying : ((applyFrame s k ws).logic k).applying = (s.logic k).applying := by
  unfold applyFrame
  dsimp only
  split
  · rw [State.logic_setLogic]
    rfl
  · obtain ⟨l, hl⟩ := guardColumn_logic (s.setLogic k { s.logic k with
      routing := (s.logic k).routing.putAll (128 * frameColumn (ws.headD 0).toNat) (slice ws 1 (frameLength (ws.headD 0).toNat))
      framed := true }) k (frameColumn (ws.headD 0).toNat)
    rw [hl, State.logic_setLogic]
  · rw [State.logic_congr k ((stageWrite_clusters _ _ _).trans ((stageWrite_clusters _ _ _).trans (stageWrite_clusters _ _ _)))]
  · rw [State.logic_setFld, State.logic_setFld, State.logic_setLogic]

theorem applyFrame_applied : (applyFrame s k ws).fld (fApplied k) = s.fld (fApplied k) := by
  have hsep {f : Fld} {a : Nat} (ha : a ≠ 0x10) (h : f.addr = logBase k + a) : f.sep (fApplied k) = true :=
    Fld.sep_of_addr_ne (Nat.le_of_ble_eq_true rfl) (by simp only [h, fApplied]; omega)
  unfold applyFrame
  dsimp only
  split
  · rfl
  · rw [guardColumn_applied, State.fld_setLogic]
  · rw [stageWrite_applied, stageWrite_applied, stageWrite_applied]
  · rw [State.fld_setFld_sep _ (hsep (a := 0x18) (by decide) rfl), State.fld_setFld_sep _ (hsep (a := 0x14) (by decide) rfl), State.fld_setLogic]

/-- A cell column (KIND 0). -/
theorem applyFrame_of_cells (h : frameKind (ws.headD 0).toNat = 0) : (applyFrame s k ws).logic k = holdFlops { s.logic k with
    cells := (s.logic k).cells.putAll (128 * frameColumn (ws.headD 0).toNat) ((ws.drop 1).take (frameLength (ws.headD 0).toNat))
    framed := true } := by
  unfold applyFrame
  dsimp only
  rw [h]
  exact State.logic_setLogic _ _ _

/-- A routing column (KIND 1). -/
theorem applyFrame_of_routing (h : frameKind (ws.headD 0).toNat = 1) : ∃ l, (applyFrame s k ws).logic k = { s.logic k with
    routing := (s.logic k).routing.putAll (128 * frameColumn (ws.headD 0).toNat) ((ws.drop 1).take (frameLength (ws.headD 0).toNat))
    framed := true, contended := l } := by
  unfold applyFrame
  dsimp only
  rw [h]
  obtain ⟨l, hl⟩ := guardColumn_logic (s.setLogic k { s.logic k with
    routing := (s.logic k).routing.putAll (128 * frameColumn (ws.headD 0).toNat) (slice ws 1 (frameLength (ws.headD 0).toNat))
    framed := true }) k (frameColumn (ws.headD 0).toNat)
  exact ⟨l, hl.trans (by rw [State.logic_setLogic]; rfl)⟩

end

/-- The state in which a frame that was being applied is written to its block: no longer being applied, and counted. -/
def State.frameTaken (s : State) (k : Nat) : State := (s.setLogic k { s.logic k with applying := none }).bump (fApplied k)

section
variable {s : State} {k : Nat} {ws : List Word64}

theorem State.frameTaken_logic (s : State) (k : Nat) : (s.frameTaken k).logic k = { s.logic k with applying := none } := by
  rw [State.frameTaken, State.logic_bump, State.logic_setLogic]

theorem State.frameTaken_applied (s : State) (k : Nat) : (s.frameTaken k).fld (fApplied k) = min 65535 (s.fld (fApplied k) + 1) :=
  State.fld_bump _ _ _ (Nat.le_of_ble_eq_true rfl)

theorem finishFrame_of_applying (h : (s.logic k).applying = some ws) : finishFrame s k = applyFrame (s.frameTaken k) k ws := by
  simp only [finishFrame, h, State.frameTaken]

theorem finishFrame_of_idle (h : (s.logic k).applying = none) : finishFrame s k = s := by
  simp only [finishFrame, h]

end

end Sys2Proof.Machine

/-!
A block's configuration and release (08 R208 to R210): BEGIN, DONE, and the purge of the queues that its write ports feed.
-/
namespace Sys2Proof.Machine

/-! ### BEGIN -/

section
variable (s : State) (k : Nat)

/-- Pads change what has been sent alone. -/
theorem showPads_shape (p : Nat → Bool) : ∃ o, showPads s p = s.withOut o := by
  unfold showPads
  split
  · exact ⟨s.out, rfl⟩
  · refine foldl_keeps (fun u : State => ∃ o, u = s.withOut o) (fun u i hu => ?_) ⟨s.out, rfl⟩
    obtain ⟨o, rfl⟩ := hu
    exact ⟨_, rfl⟩

/-- A block's byte-port exchanges are abandoned, and nothing else changes. -/
theorem abandonBytes_shape (l : List Nat) : ∃ m, l.foldl (fun t c =>
    if borrows t k c then { t with byteCmds := mset none t.byteCmds (2 * (k / 32) + c) none } else t) s = s.withByteCmds m := by
  refine foldl_keeps (fun u : State => ∃ m, u = s.withByteCmds m) (fun u c hu => ?_) ⟨s.byteCmds, rfl⟩
  obtain ⟨m, rfl⟩ := hu
  split
  · exact ⟨_, rfl⟩
  · exact ⟨m, rfl⟩

/-- The state of a block that configures, but for its pads and its byte ports. -/
def State.configuring : State :=
  (((s.setFld (fLogState k) 1).setFld (fApplied k) 0).setFld (fCfgUe (clusterRegion k) (k % 8)) 0).setLogic k
    (holdFlops { s.logic k with words := [], done := false })

theorem enterConfig_shape : ∃ m o, enterConfig s k = ((s.configuring k).withByteCmds m).withOut o := by
  obtain ⟨m, hm⟩ := abandonBytes_shape (((s.setFld (fLogState k) 1).setFld (fApplied k) 0).setLogic k
    (holdFlops { s.logic k with words := [], done := false })) k [0, 1]
  obtain ⟨o, ho⟩ := showPads_shape ((s.configuring k).withByteCmds m) (padsOf ((s.configuring k).withByteCmds m) k)
  have hue : (⟨regionBase (clusterRegion k) + 0x1404, 8 + k % 8, 1⟩ : Fld) = fCfgUe (clusterRegion k) (k % 8) := rfl
  refine ⟨m, o, ?_⟩
  unfold enterConfig
  dsimp only
  rw [hm, State.setFld_withByteCmds, State.setFld_setLogic, hue]
  exact ho

theorem enterConfig_state : (enterConfig s k).fld (fLogState k) = 1 := by
  obtain ⟨m, o, h⟩ := enterConfig_shape s k
  rw [h, State.fld_withOut, State.fld_withByteCmds, State.configuring, State.fld_setLogic,
    State.fld_setFld_sep _ (regionField_sep_logState k (f := fCfgUe (clusterRegion k) (k % 8)) rfl (by decide)),
    State.fld_setFld_sep _ (applied_sep_logState k), State.fld_setFld _ _ _ (Nat.le_of_ble_eq_true rfl)]
  rfl

theorem enterConfig_applied : (enterConfig s k).fld (fApplied k) = 0 := by
  obtain ⟨m, o, h⟩ := enterConfig_shape s k
  rw [h, State.fld_withOut, State.fld_withByteCmds, State.configuring, State.fld_setLogic,
    State.fld_setFld_sep _ (regionField_sep_applied k (f := fCfgUe (clusterRegion k) (k % 8)) rfl (by decide)),
    State.fld_setFld _ _ _ (Nat.le_of_ble_eq_true rfl), Nat.zero_mod]

theorem enterConfig_logic : (enterConfig s k).logic k = holdFlops { s.logic k with words := [], done := false } := by
  obtain ⟨m, o, h⟩ := enterConfig_shape s k
  rw [h, State.logic_withOut, State.logic_withByteCmds, State.configuring, State.logic_setLogic]

theorem enterConfig_cluster {j : Nat} (hj : j ≠ k) : (enterConfig s k).cluster j = s.cluster j := by
  obtain ⟨m, o, h⟩ := enterConfig_shape s k
  rw [h, State.cluster_withOut, State.cluster_withByteCmds, State.configuring, State.cluster_setLogic_other _ _ _ hj, State.cluster_setFld,
    State.cluster_setFld, State.cluster_setFld]

end

/-! ### Queues that a purge leaves alone -/

/-- From `s` to `t` no cluster has changed, and no queue but `q`. -/
def onlyQueue (q : QueueId) (s t : State) : Prop := t.clusters = s.clusters ∧ ∀ p : QueueId, p ≠ q → t.queue p = s.queue p

section
variable {q : QueueId} {s t u : State}

theorem onlyQueue.trans (h : onlyQueue q s t) (h' : onlyQueue q t u) : onlyQueue q s u := by
  obtain ⟨hc, hq⟩ := h
  obtain ⟨hc', hq'⟩ := h'
  exact ⟨hc'.trans hc, fun p hp => (hq' p hp).trans (hq p hp)⟩

theorem onlyQueue.of_regs (h : onlyRegs s t) : onlyQueue q s t := by
  obtain ⟨m, rfl⟩ := h
  exact ⟨rfl, fun p _ => by cases p <;> rfl⟩

theorem onlyQueue.refl : onlyQueue q s s := .of_regs .refl

end

theorem portNat_lt (p : Port) : portNat p < 4 := by cases p <;> decide

theorem portOf_portNat (p : Port) : portOf (portNat p) = p := by cases p <;> rfl

theorem portNat_inj {p p' : Port} (h : portNat p = portNat p') : p = p' := by rw [← portOf_portNat p, h, portOf_portNat]

section
variable (s : State) (q : QueueId)

theorem State.queue_setQueue_same (v : Queue) : (s.setQueue q v).queue q = v := by
  cases q <;> exact mget_mset_same _ _ _ _

theorem State.queue_setQueue_other {p : QueueId} (v : Queue) (h : p ≠ q) : (s.setQueue q v).queue p = s.queue p := by
  cases q with
  | port u i =>
    cases p with
    | port u' i' =>
      refine mget_mset_other _ _ _ _ (fun hkey => h ?_)
      have hi := portNat_lt i
      have hi' := portNat_lt i'
      rw [Fin.ext (show u'.val = u.val by omega), portNat_inj (show portNat i' = portNat i by omega)]
    | bank | steer => rfl
  | bank k j =>
    cases p with
    | bank k' j' =>
      refine mget_mset_other _ _ _ _ (fun hkey => h ?_)
      rw [Fin.ext (show k'.val = k.val by omega), Fin.ext (show j'.val = j.val by omega)]
    | port | steer => rfl
  | steer k j =>
    cases p with
    | steer k' j' =>
      refine mget_mset_other _ _ _ _ (fun hkey => h ?_)
      rw [Fin.ext (show k'.val = k.val by omega), Fin.ext (show j'.val = j.val by omega)]
    | port | bank => rfl

theorem onlyQueue_setQueue (v : Queue) : onlyQueue q s (s.setQueue q v) :=
  ⟨by cases q <;> rfl, fun _ hp => State.queue_setQueue_other s q v hp⟩

theorem onlyQueue_noteOcc (t : Nat) : onlyQueue q s (noteOcc s q t) := by
  unfold noteOcc State.raise
  dsimp only
  split
  · split
    · split
      · exact (onlyQueue_setQueue s q _).trans (.of_regs (onlyRegs.refl.setFld _ _))
      · exact onlyQueue_setQueue s q _
    · exact .refl
  · exact .refl

theorem onlyQueue_noteOver (t : Nat) : onlyQueue q s (noteOver s q t) := by
  unfold noteOver
  split
  · split
    · exact (onlyQueue_setQueue s q _).trans (.of_regs (((onlyRegs.refl.mark _).bump _ _).hazard _ _ _ _))
    · exact .refl
  · exact .refl

theorem onlyQueue_chargeQueue (t : Nat) : onlyQueue q s (chargeQueue s q t) := by
  have hcount (u : State) (n : Nat) (v : Queue) : onlyQueue q u ((u.bump (fQBlocked q) n).setQueue q v) :=
    (onlyQueue.of_regs (onlyRegs.refl.bump _ _)).trans (onlyQueue_setQueue _ q v)
  unfold chargeQueue
  dsimp only
  split
  · split
    · exact (hcount _ _ _).trans (hcount _ _ _)
    · exact hcount _ _ _
  · split
    · exact hcount _ _ _
    · exact .refl

theorem onlyQueue_purgeQueue : onlyQueue q s (purgeQueue s q) :=
  (((onlyQueue_noteOcc s q _).trans (onlyQueue_noteOver _ q _)).trans (onlyQueue_chargeQueue _ q _)).trans (onlyQueue_setQueue _ q _)

theorem purgeQueue_queue : (purgeQueue s q).queue q = {} := State.queue_setQueue_same _ _ _

end

theorem foldl_purgeQueue_clusters (l : List QueueId) (s : State) : (l.foldl purgeQueue s).clusters = s.clusters :=
  foldl_keeps (fun u : State => u.clusters = s.clusters) (fun u q hu => (onlyQueue_purgeQueue u q).1.trans hu) rfl

/-- A purged queue stays empty while others are purged. -/
theorem foldl_purgeQueue_queue {l : List QueueId} {s : State} {q : QueueId} (h : q ∈ l ∨ s.queue q = {}) :
    (l.foldl purgeQueue s).queue q = {} := by
  induction l generalizing s with
  | nil => exact h.resolve_left (by simp)
  | cons p r ih =>
    refine ih ?_
    by_cases hp : q = p
    · exact .inr (hp ▸ purgeQueue_queue s p)
    · obtain ⟨-, hother⟩ := onlyQueue_purgeQueue s p
      exact h.imp (fun hmem => (List.mem_cons.mp hmem).resolve_left hp) (fun hq => (hother q hp).trans hq)

/-! ### BLOCK_RELEASE -/

section
variable {s : State} {k : Nat} (hfuns : funsIdle s k) (harr : (s.cluster k).arrivals = []) (hbus : (s.cluster k).bus = [])
include hfuns harr hbus

/-- Where nothing is on its way, what settles changes no cluster. -/
theorem settleAll_cluster_of_still (bound j : Nat) : (settleAll s k bound).cluster j = s.cluster j := by
  have hcluster : settleCluster s k bound = s.setCluster k (s.cluster k) := by
    have hself : ({ s.cluster k with arrivals := [] } : Cluster) = s.cluster k := by rw [← harr]
    simp [settleCluster, sortArrivals, harr, hself]
  have hk : (s.setCluster k (s.cluster k)).cluster k = s.cluster k := State.setCluster_cluster _ _ _
  have hbus' : ((s.setCluster k (s.cluster k)).cluster k).bus = [] := by rw [hk, hbus]
  have hsettled : settleBus (s.setCluster k (s.cluster k)) k (bound - 1) = (s.setCluster k (s.cluster k)).setCluster k (s.cluster k) := by
    rw [settleBus_of_later (by rw [hbus']; simp), hk]
  have hall : settleAll s k bound = ((s.setCluster k (s.cluster k)).setCluster k (s.cluster k)).setCluster k (s.cluster k) := by
    have hself : ({ s.cluster k with bus := [] } : Cluster) = s.cluster k := by rw [← hbus]
    rw [settleAll, settleFuns_of_funsIdle hfuns, hcluster, settleBusAt, hsettled]
    simp [hbus, hself]
  rw [hall]
  by_cases hj : j = k
  · rw [hj, State.setCluster_cluster]
  · rw [State.setCluster_cluster_other _ _ _ _ hj, State.setCluster_cluster_other _ _ _ _ hj, State.setCluster_cluster_other _ _ _ _ hj]

theorem purgeFed_logic : (purgeFed s k).logic k = s.logic k := by
  rw [purgeFed, State.logic_congr k (foldl_purgeQueue_clusters _ _), State.logic, settleAll_cluster_of_still hfuns harr hbus, State.logic]

end

theorem purgeFed_queue {s : State} {k j : Nat} {q : QueueId} (hj : j < 4) (h : writeTarget s k j = some q) : (purgeFed s k).queue q = {} :=
  foldl_purgeQueue_queue (.inl (List.mem_filterMap.mpr ⟨j, List.mem_range.mpr hj, h⟩))

theorem releaseBlock_shape (s : State) (k : Nat) : ∃ o, releaseBlock s k =
    ((s.setFld (fLogState k) (if (s.logic k).framed then 2 else 0)).setLogic k { holdFlops (s.logic k) with playedTo := s.clock.now }).withOut o :=
  showPads_shape _ _

theorem releaseBlock_state (s : State) (k : Nat) : (releaseBlock s k).fld (fLogState k) = if (s.logic k).framed = true then 2 else 0 := by
  obtain ⟨o, ho⟩ := releaseBlock_shape s k
  rw [ho, State.fld_withOut, State.fld_setLogic, State.fld_setFld _ _ _ (Nat.le_of_ble_eq_true rfl)]
  cases (s.logic k).framed <;> rfl

theorem releaseBlock_queue (s : State) (k : Nat) (q : QueueId) : (releaseBlock s k).queue q = s.queue q := by
  obtain ⟨o, ho⟩ := releaseBlock_shape s k
  rw [ho, State.queue_withOut, State.queue_setLogic, State.queue_setFld]

theorem execBlockRelease_of_due {k : ClusterIx} {s : State} (hst : s.fld (fLogState k.val) = 3) (hr : s.runs = true)
    (hfree : s.is (fRgnBusy (clusterRegion k.val)) = false) (hdue : (s.logic k.val).doneAt ≤ lastBoundary s) :
    execBlockRelease k s = .next (releaseBlock (purgeFed s k.val) k.val) := by
  simp [execBlockRelease, hst, hr, hfree, hdue]

/-- DONE, with no frame being applied: CONFIGURING ends. -/
theorem execLogDone_of_configuring {k : ClusterIx} {s : State} (hrec : s.recovery = false) (hst : s.fld (fLogState k.val) = 1)
    (hidle : (s.logic k.val).applying = none) : execLogDone k s =
      .next ((s.setFld (fLogState k.val) 3).setLogic k.val { s.logic k.val with doneAt := s.clock.now + bit s.runs }) := by
  simp [execLogDone, hrec, hst, finishFrame_of_idle hidle]

/-- Settles O35: a word is gathered or completes a frame (`writeFrameLo_of_short`, `writeFrameLo_of_sound`, `writeFrameLo_of_refused`); a frame that
applies writes its columns; BEGIN, DONE and the release change their block and the queues it feeds. -/
theorem framesConfigureBlocks : Obligations.FramesConfigureBlocks := by
  refine ⟨?gathers, ?checks, ?applies, ?configures⟩
  case gathers =>
    intro k lo w s hrec hw hshort
    refine ⟨writeFrameLo s k.val lo, by simp [exec, execLogFrameLo, hrec], ?_⟩
    rw [writeFrameLo_of_short (by rw [← hw]) hshort]
    exact ⟨State.logic_setLogic _ _ _, rfl⟩
  case checks =>
    intro k lo w ws s hrec hw hws hwhole
    subst hw
    have hexec : exec (.logFrameLo k lo) s = .next (writeFrameLo s k.val lo) := by simp [exec, execLogFrameLo, hrec]
    refine ⟨fun hcrc hform hst hidle => ?_, fun hcrc => ?_, fun hform => ?_⟩
    · obtain ⟨c, hshape, hlogic⟩ := writeFrameLo_of_sound hws hwhole hcrc (by simp [hform, hst]) hidle
      exact ⟨_, hexec, hlogic, by rw [hshape]⟩
    · have heq := writeFrameLo_of_refused hws hwhole (by rw [hcrc, Bool.false_and])
      rw [hcrc] at heq
      refine ⟨_, heq ▸ hexec, State.frameRefused_logic _ _ _ _, State.frameRefused_crcErr _ _ _, State.frameRefused_regs _ _ _ _,
        State.frameRefused_frame _ _ _ _⟩
    · have hbad : (frameFormOk ws && decide (s.fld (fLogState k.val) = 1)) = false := by
        rcases hform with hform | hst
        · rw [hform, Bool.false_and]
        · rw [decide_eq_false hst, Bool.and_false]
      have heq := writeFrameLo_of_refused hws hwhole (by rw [hbad, Bool.and_false])
      rw [hbad] at heq
      exact ⟨_, heq ▸ hexec, State.frameRefused_logic _ _ _ _, State.frameRefused_frameErr _ _ _⟩
  case applies =>
    intro k ws h s happ hh
    subst hh
    refine ⟨applyFrame (s.frameTaken k.val) k.val ws, congrArg Host.Outcome.next (finishFrame_of_applying happ), ?_, ?_,
      fun hkind => ?_, fun hkind => ?_⟩
    · rw [applyFrame_applying, State.frameTaken_logic]
    · rw [applyFrame_applied, State.frameTaken_applied]
    · rw [applyFrame_of_cells _ _ _ hkind, State.frameTaken_logic]
      exact ⟨rfl, rfl⟩
    · obtain ⟨l, hl⟩ := applyFrame_of_routing (s.frameTaken k.val) k.val ws hkind
      rw [hl, State.frameTaken_logic]
      exact ⟨rfl, rfl⟩
  case configures =>
    intro k s hrec
    refine ⟨fun href => ?_, fun hok => ?_, fun hst hidle => ?_, fun hst hr hfree hdue hfuns harr hbus => ?_⟩
    · refine ⟨s.mark (fLogRefused k.val), by simp [exec, execLogBegin, hrec, href], ?_, ?_, (onlyRegs.refl.mark _).frame⟩
      · exact State.is_mark _ _ (Nat.le_of_ble_eq_true rfl) rfl
      · exact regsSame_mark _ (regsSame.refl s _) (.head _)
    · refine ⟨enterConfig s k.val, by simp [exec, execLogBegin, hrec, hok], enterConfig_state s k.val, enterConfig_applied s k.val, ?_⟩
      rw [enterConfig_logic]
      exact ⟨rfl, rfl, rfl, fun j hj => enterConfig_cluster s k.val hj⟩
    · refine ⟨_, execLogDone_of_configuring hrec hst hidle, ?_, ?_, ?_, State.setFld_setLogic_frame _ _ _ _ _⟩
      · rw [State.fld_setLogic, State.fld_setFld _ _ _ (Nat.le_of_ble_eq_true rfl)]
        rfl
      · rw [State.logic_setLogic]
      · exact regsSame_setCluster (regsSame_setFld (fLogState k.val) 3 (regsSame.refl s _) (.head _)) _ _
    · refine ⟨_, execBlockRelease_of_due hst hr hfree hdue, ?_, fun j q hq => ?_⟩
      · rw [releaseBlock_state, purgeFed_logic hfuns harr hbus]
      · rw [releaseBlock_queue, purgeFed_queue j.isLt hq]

end Sys2Proof.Machine

/-!
A free PLL's lock and a level change at a pin (08 R196, R219): the blocks concerned play their edges first, from what has come to their clusters by
then, so that beats that were on their way move into the cluster's queues.
-/
namespace Sys2Proof.Machine

/-- LOCKED, in cycle 620 of the crossing that `beatOnItsWay` is in: its beat is due, block 0 has not played since cycle 600, free PLL 0 of its
region is enabled at 156.25 MHz × 8 / 3, and pin 0 carries a user signal of the block. -/
def beatDue : State :=
  { (beatOnItsWay.setRaw (rgnPll 0 0) 0x10308).setRaw 0x100 1 with clock := { beatOnItsWay.clock with now := 620 } }

theorem beatDue_bankQ : beatDue.bankQ = [] := rfl

/-- What is due enters the queue bank. -/
theorem beatDue_settles : (settleAll beatDue 0 619).bankQ ≠ [] := by decide +kernel

/-- So it does when block 0 plays up to now. -/
theorem beatDue_plays : (playLogic beatDue 0 620).bankQ ≠ [] := by
  have hst : beatDue.fld (fLogState 0) = 2 := by decide +kernel
  have hr : beatDue.runs = true := by decide +kernel
  have hplay := playLogic_of_due (t := 620) hst (List.cons_ne_nil _ _) hr (show (600 : Nat) < 620 by decide)
  have hbank : (playLogic beatDue 0 620).bankQ = (settleAll beatDue 0 619).bankQ := (congrArg (fun p => p.1.bankQ) hplay :)
  rw [hbank]
  exact beatDue_settles

/-- The lock of an enabled PLL lets the blocks of its region play up to now. -/
theorem execFreePllLocked_bankQ {r : RegionIx} {p : Fin 2} {s t : State} (hen : bits (s.raw (rgnPll r.val p.val)).toNat 16 1 = 1)
    (hin : pllOut (s.raw (rgnPll r.val p.val)).toNat = false) (h : execFreePllLocked r p s = .next t) :
    t.bankQ = (playBlocks s (fun k => decide (k / 8 = r.val)) s.clock.now).bankQ := by
  rw [execFreePllLocked, if_pos ⟨hen, by rw [hin, Bool.not_false]⟩] at h
  obtain rfl := Host.Outcome.next.inj h
  simp only [State.mark_frame]

/-- A change of a pin's level lets the block whose user signal it carries play up to now. -/
theorem execGpioLevelChange_bankQ {i : Fin 8} {level : Bool} {k : Nat} {s t : State} (hext : s.extest = false)
    (hpad : padBlock s i.val = some k) (h : execGpioLevelChange i level s = .next t) : t.bankQ = (playLogic s k s.clock.now).bankQ := by
  rw [execGpioLevelChange, hext, if_neg Bool.false_ne_true] at h
  simp only [hpad] at h
  obtain rfl := Host.Outcome.next.inj h
  simp only [State.setFld_frame]

/-- Refutes O37: the lock of PLL 0 in `beatDue` lets block 0 play, which takes in the beat that was due; the statement has the lock leave the queue
bank as it was. -/
theorem not_regionsReconfigureAndCommit : ¬ Obligations.RegionsReconfigureAndCommit := by
  rintro ⟨-, -, -, -, -, -, hlock⟩
  have hen : bits (beatDue.raw (rgnPll 0 0)).toNat 16 1 = 1 := by decide +kernel
  have hin : pllOut (beatDue.raw (rgnPll 0 0)).toNat = false := by decide +kernel
  obtain ⟨t, hexec, -, -, -, hframe⟩ := hlock 0 0 beatDue hen hin
  have hsame : t.bankQ = [] := (congrArg State.bankQ hframe :)
  have hplayed : t.bankQ = (playLogic beatDue 0 620).bankQ := execFreePllLocked_bankQ (r := 0) (p := 0) hen hin hexec
  exact beatDue_plays (hplayed.symm.trans hsame)

/-- Refutes O38: the level change at pin 0 in `beatDue` lets block 0 play, which takes in the beat that was due; the statement has the change
leave the queue bank as it was. -/
theorem not_portsAndHardBlocksAct : ¬ Obligations.PortsAndHardBlocksAct := by
  rintro ⟨-, -, -, -, -, -, -, -, hlevel, -⟩
  have hpad : padBlock beatDue 0 = some 0 := by decide +kernel
  obtain ⟨t, hexec, -, -, -, -, hframe⟩ := hlevel 0 true beatDue rfl
  have hsame : t.bankQ = [] := (congrArg State.bankQ hframe :)
  have hplayed : t.bankQ = (playLogic beatDue 0 620).bankQ := execGpioLevelChange_bankQ (i := 0) rfl hpad hexec
  exact beatDue_plays (hplayed.symm.trans hsame)

end Sys2Proof.Machine

/-!
The words of flits and codewords: each field of the header and of a payload reads back from its bits (12 R297 to R301).
-/
namespace Sys2Proof.Machine

/-! ### Fields of a number -/

/-- The field below bit w. -/
theorem bits_low {a w : Nat} (h : a < 2 ^ w) (b : Nat) : bits (a + 2 ^ w * b) 0 w = a := by
  rw [bits, Nat.pow_zero, Nat.div_one, Nat.add_mul_mod_self_left, Nat.mod_eq_of_lt h]

/-- The fields from bit w on. -/
theorem bits_high {a w : Nat} (h : a < 2 ^ w) (b n m : Nat) : bits (a + 2 ^ w * b) (w + n) m = bits b n m := by
  rw [bits, bits, Nat.pow_add, ← Nat.div_div_eq_div_mul, Nat.add_mul_div_left _ _ (Nat.two_pow_pos w), Nat.div_eq_of_lt h, Nat.zero_add]

/-- A field that ends at or below bit w does not see what stands above. -/
theorem bits_below {a w lo m : Nat} (h : a < 2 ^ w) (hm : lo + m ≤ w) (b : Nat) : bits (a + 2 ^ w * b) lo m = bits a lo m := by
  have hlow : bits (a + 2 ^ w * b) lo m = bits (bits (a + 2 ^ w * b) 0 w) lo m := by rw [bits_bits _ hm, Nat.zero_add]
  rw [hlow, bits_low h]

/-- Byte i of the bytes of a number. -/
theorem byte_leNat (l : List Byte) (i : Nat) : BitVec.ofNat 8 (bits (leNat l) (8 * i) 8) = l.getD i 0 := by
  induction l generalizing i with
  | nil => simp [leNat, bits]
  | cons b r ih =>
    have hb : b.toNat < 2 ^ 8 := b.isLt
    have hcons : leNat (b :: r) = b.toNat + 2 ^ 8 * leNat r := rfl
    cases i with
    | zero => rw [hcons, Nat.mul_zero, bits_low hb, BitVec.ofNat_toNat, BitVec.setWidth_eq, List.getD_cons_zero]
    | succ i => rw [hcons, Nat.mul_succ, Nat.add_comm (8 * i), bits_high hb, ih, List.getD_cons_succ]

/-- The bytes of two fields, the first of whole bytes. -/
theorem leBytes_add {m a : Nat} (h : a < 256 ^ m) (n b : Nat) : leBytes (m + n) (a + 256 ^ m * b) = leBytes m a ++ leBytes n b := by
  induction m generalizing a with
  | zero =>
    obtain rfl : a = 0 := by omega
    simp [leBytes]
  | succ m ih =>
    have hdiv : (a + 256 ^ (m + 1) * b) / 256 = a / 256 + 256 ^ m * b := by rw [Nat.pow_succ, Nat.mul_right_comm]; omega
    have hbyte : BitVec.ofNat 8 (a + 256 ^ (m + 1) * b) = BitVec.ofNat 8 a := by
      apply BitVec.eq_of_toNat_eq
      rw [BitVec.toNat_ofNat, BitVec.toNat_ofNat, Nat.pow_succ, Nat.mul_right_comm]
      omega
    rw [Nat.add_right_comm, leBytes, leBytes, hdiv, hbyte, ih (by rw [Nat.pow_succ] at h; omega), List.cons_append]

/-! ### Payloads (R299) -/

theorem bit_le_one (b : Bool) : bit b ≤ 1 := by cases b <;> decide

theorem beatBits_lt (b : Beat) : beatBits b < 2 ^ 208 := by
  have hmant := b.mant.isLt
  have hexp := b.exp.isLt
  have htag := b.tag.isLt
  have hbad := bit_le_one b.bad
  have hlate := bit_le_one b.late
  have hfirst := bit_le_one b.first
  have hlast := bit_le_one b.last
  unfold beatBits
  omega

/-- Up to 24 bytes take the upper 192 bits of a payload. -/
theorem leNat_lt_of_length_le {l : List Byte} (h : l.length ≤ 24) : leNat l < 2 ^ 192 :=
  lt_of_lt_of_le (leNat_lt l) (Nat.pow_le_pow_right (by decide : 0 < 256) h)

/-- The bytes of a WRITE or DATA flit fit into it. -/
def bytesFit (b : FlitBody) : Prop := (∀ a l, b = .write a l → l.length ≤ 24) ∧ ∀ tag o e l, b = .data tag o e l → l.length ≤ 24

theorem payloadOf_write_lt (a : BitVec 48) {l : List Byte} (h : l.length ≤ 24) : payloadOf (.write a l) < 2 ^ 256 := by
  have ha := a.isLt
  have hl := leNat_lt_of_length_le h
  rw [payloadOf]
  omega

theorem payloadOf_data_lt (tag : Byte) (o : BitVec 12) (err : Bool) {l : List Byte} (h : l.length ≤ 24) :
    payloadOf (.data tag o err l) < 2 ^ 256 := by
  have htag := tag.isLt
  have ho := o.isLt
  have herr := bit_le_one err
  have hl := leNat_lt_of_length_le h
  rw [payloadOf]
  omega

theorem payloadOf_lt {b : FlitBody} (h : bytesFit b) : payloadOf b < 2 ^ 256 := by
  cases b with
  | null => exact Nat.two_pow_pos 256
  | beat b => exact lt_trans (beatBits_lt b) (by decide)
  | write a l => exact payloadOf_write_lt a (h.1 a l rfl)
  | read a n tag =>
    have ha := a.isLt
    have hn := n.isLt
    have htag := tag.isLt
    rw [payloadOf]
    omega
  | data tag o err l => exact payloadOf_data_lt tag o err (h.2 tag o err l rfl)
  | notice p => exact p.isLt
  | credit n => exact lt_trans n.isLt (by decide)
  | link q nak =>
    have hq := q.isLt
    have hnak := bit_le_one nak
    rw [payloadOf]
    omega
  | sys p => exact p.isLt

theorem payloadOf_beat_fields (b : Beat) : bits (payloadOf (.beat b)) 0 208 = beatBits b ∧ bits (payloadOf (.beat b)) 208 48 = 0 := by
  have hb := beatBits_lt b
  simp only [payloadOf, bits]
  omega

theorem payloadOf_write_fields (a : BitVec 48) {l : List Byte} (h : l.length ≤ 24) (i : Nat) :
    bits (payloadOf (.write a l)) 0 48 = a.toNat ∧ bits (payloadOf (.write a l)) 48 5 = l.length - 1 ∧ bits (payloadOf (.write a l)) 53 11 = 0 ∧
      BitVec.ofNat 8 (bits (payloadOf (.write a l)) (64 + 8 * i) 8) = l.getD i 0 := by
  have ha := a.isLt
  have hlow : a.toNat + 2 ^ 48 * (l.length - 1) < 2 ^ 64 := by omega
  have hbyte : BitVec.ofNat 8 (bits (payloadOf (.write a l)) (64 + 8 * i) 8) = l.getD i 0 := by rw [payloadOf, bits_high hlow, byte_leNat]
  refine ⟨?_, ?_, ?_, hbyte⟩ <;> · rw [payloadOf, bits_below hlow (by decide)]; unfold bits; omega

theorem payloadOf_read_fields (a : BitVec 48) (n : BitVec 12) (tag : Byte) :
    bits (payloadOf (.read a n tag)) 0 48 = a.toNat ∧ bits (payloadOf (.read a n tag)) 48 12 = n.toNat ∧
      bits (payloadOf (.read a n tag)) 60 8 = tag.toNat := by
  have ha := a.isLt
  have hn := n.isLt
  have htag := tag.isLt
  simp only [payloadOf, bits]
  omega

theorem payloadOf_data_fields (tag : Byte) (o : BitVec 12) (err : Bool) {l : List Byte} (h : l.length ≤ 24) (i : Nat) :
    bits (payloadOf (.data tag o err l)) 0 8 = tag.toNat ∧ bits (payloadOf (.data tag o err l)) 8 12 = o.toNat ∧
      bits (payloadOf (.data tag o err l)) 20 5 = l.length - 1 ∧ bits (payloadOf (.data tag o err l)) 25 1 = bit err ∧
      bits (payloadOf (.data tag o err l)) 26 38 = 0 ∧ BitVec.ofNat 8 (bits (payloadOf (.data tag o err l)) (64 + 8 * i) 8) = l.getD i 0 := by
  have htag := tag.isLt
  have ho := o.isLt
  have herr := bit_le_one err
  have hlow : tag.toNat + 2 ^ 8 * o.toNat + 2 ^ 20 * (l.length - 1) + 2 ^ 25 * bit err < 2 ^ 64 := by omega
  have hbyte : BitVec.ofNat 8 (bits (payloadOf (.data tag o err l)) (64 + 8 * i) 8) = l.getD i 0 := by
    rw [payloadOf, bits_high hlow, byte_leNat]
  refine ⟨?_, ?_, ?_, ?_, ?_, hbyte⟩ <;> · rw [payloadOf, bits_below hlow (by decide)]; unfold bits; omega

theorem payloadOf_link_fields (q : BitVec 8) (nak : Bool) :
    bits (payloadOf (.link q nak)) 0 8 = q.toNat ∧ bits (payloadOf (.link q nak)) 8 1 = bit nak := by
  have hq := q.isLt
  have hnak := bit_le_one nak
  simp only [payloadOf, bits]
  omega

/-! ### Header and check (R297, R298) -/

/-- Three fields of a word, added one by one or one above the other. -/
theorem add_shifted (a b c : Nat) : a + 2 ^ 32 * b + 2 ^ 288 * c = a + 2 ^ 32 * (b + 2 ^ 256 * c) := by
  rw [Nat.mul_add, ← Nat.mul_assoc, ← Nat.pow_add, Nat.add_assoc]

theorem typeOf_le (b : FlitBody) : typeOf b ≤ 10 := by cases b <;> simp [typeOf]

section
variable (seq : BitVec 8) (f : Flit)

/-- The header of a flit as this package sends it. -/
def sentHeader : Nat := headerOfFlit (typeOf f.body) f.locked f.stream seq f.first f.last f.epoch 0

theorem sentHeader_lt : sentHeader seq f < 2 ^ 32 := by
  have htype := typeOf_le f.body
  have hstream := f.stream.isLt
  have hseq := seq.isLt
  have hlocked := bit_le_one f.locked
  have hfirst := bit_le_one f.first
  have hlast := bit_le_one f.last
  have hepoch := bit_le_one f.epoch
  have hspare : (0 : BitVec 2).toNat = 0 := rfl
  rw [sentHeader, headerOfFlit, hspare]
  omega

theorem sentHeader_fields :
    bits (sentHeader seq f) 0 1 = bit f.locked ∧ bits (sentHeader seq f) 1 4 = typeOf f.body ∧ bits (sentHeader seq f) 5 14 = f.stream.toNat ∧
      bits (sentHeader seq f) 19 8 = seq.toNat ∧ bits (sentHeader seq f) 27 1 = bit f.first ∧ bits (sentHeader seq f) 28 1 = bit f.last ∧
      bits (sentHeader seq f) 29 1 = bit f.epoch ∧ bits (sentHeader seq f) 30 2 = 0 := by
  have htype := typeOf_le f.body
  have hstream := f.stream.isLt
  have hseq := seq.isLt
  have hlocked := bit_le_one f.locked
  have hfirst := bit_le_one f.first
  have hlast := bit_le_one f.last
  have hepoch := bit_le_one f.epoch
  have hspare : (0 : BitVec 2).toNat = 0 := rfl
  rw [sentHeader, headerOfFlit, hspare]
  unfold bits
  omega

/-- The check of a flit as this package sends it. -/
def sentCheck : Word32 := flitCheck (sentHeader seq f) (payloadOf f.body)

variable {f} (hp : payloadOf f.body < 2 ^ 256)
include hp

/-- The word of a flit is its header, its payload and its check, one above the other. -/
theorem sentWord_toNat : (sentWord seq f).toNat = sentHeader seq f + 2 ^ 32 * (payloadOf f.body + 2 ^ 256 * (sentCheck seq f).toNat) := by
  have hh := sentHeader_lt seq f
  have hc := (sentCheck seq f).isLt
  have hlt : sentHeader seq f + 2 ^ 32 * (payloadOf f.body + 2 ^ 256 * (sentCheck seq f).toNat) < 2 ^ 32 * (2 ^ 256 * 2 ^ 32) := by omega
  have hmod : (2 : Nat) ^ 320 = 2 ^ 32 * (2 ^ 256 * 2 ^ 32) := by rw [← Nat.pow_add, ← Nat.pow_add]
  rw [sentWord, flitBits, BitVec.toNat_ofNat, hmod, ← Nat.mod_eq_of_lt hlt, ← add_shifted]
  rfl

theorem bits_sentWord_header {lo m : Nat} (h : lo + m ≤ 32) : bits (sentWord seq f).toNat lo m = bits (sentHeader seq f) lo m := by
  rw [sentWord_toNat seq hp, bits_below (sentHeader_lt seq f) h]

theorem bits_sentWord_payload : bits (sentWord seq f).toNat 32 256 = payloadOf f.body := by
  have hskip := bits_high (sentHeader_lt seq f) (payloadOf f.body + 2 ^ 256 * (sentCheck seq f).toNat) 0 256
  rw [sentWord_toNat seq hp]
  exact hskip.trans (bits_low hp _)

theorem bits_sentWord_check : bits (sentWord seq f).toNat 288 32 = (sentCheck seq f).toNat := by
  have hc : (sentCheck seq f).toNat < 2 ^ 32 := (sentCheck seq f).isLt
  have hskip := bits_high (sentHeader_lt seq f) (payloadOf f.body + 2 ^ 256 * (sentCheck seq f).toNat) 256 32
  have hpast := bits_high hp (sentCheck seq f).toNat 0 32
  have hlow := bits_low hc 0
  rw [Nat.mul_zero, Nat.add_zero] at hlow
  rw [sentWord_toNat seq hp]
  exact hskip.trans (hpast.trans hlow)

/-- The check runs over the 36 bytes below it. -/
theorem sentCheck_eq_crc32 : sentCheck seq f = crc32 (leBytes 36 (bits (sentWord seq f).toNat 0 288)) := by
  have hh := sentHeader_lt seq f
  have hlt : sentHeader seq f + 2 ^ 32 * payloadOf f.body < 2 ^ 32 * 2 ^ 256 := by omega
  have hbelow : bits (sentWord seq f).toNat 0 288 = sentHeader seq f + 2 ^ 32 * payloadOf f.body := by
    rw [sentWord_toNat seq hp, ← add_shifted]
    exact bits_low (hlt.trans_eq (Nat.pow_add 2 32 256).symm) _
  have hbytes := leBytes_add (m := 4) (a := sentHeader seq f) (by omega) 32 (payloadOf f.body)
  rw [hbelow, sentCheck, flitCheck]
  exact congrArg crc32 hbytes.symm

end

/-- A received flit whose unnamed bits are zero has the check of the same flit as it is sent. -/
theorem checkOk_iff {h : FlitHdr} {b : FlitBody} (hs : h.spare = 0) (he : h.extra = 0) (hp : payloadOf b < 2 ^ 256) :
    checkOk h (typeOf b) b = true ↔ h.check = sentCheck h.seq (flitOf h b) := by
  have hcame : payloadCame h b = payloadOf b := by
    rw [payloadCame, he]
    exact (congrArg BitVec.toNat BitVec.or_zero).trans (Nat.mod_eq_of_lt hp)
  rw [checkOk, hcame, hs, beq_iff_eq]
  rfl

/-! ### Positions and codewords (R300, R301) -/

theorem nextPosition_spec {g i : Nat} (h : i < g) (pos : Nat) :
    pos ≤ nextPosition pos g i ∧ nextPosition pos g i < pos + g ∧ nextPosition pos g i % g = i := by
  have hr : pos % g < g := Nat.mod_lt _ (Nat.zero_lt_of_lt h)
  have hdm := Nat.div_add_mod pos g
  have hturn : pos + (i + g - pos % g) = i + g * (pos / g + 1) := by rw [Nat.mul_succ]; omega
  refine ⟨Nat.le_add_right _ _, Nat.add_lt_add_left (Nat.mod_lt _ (Nat.zero_lt_of_lt h)) _, ?_⟩
  rw [nextPosition, Nat.add_mod_mod, hturn, Nat.add_mul_mod_self_left, Nat.mod_eq_of_lt h]

/-- The symbols of one flit. -/
def flitSymbols (f : BitVec 320) : List (BitVec 10) := (List.range 32).map (fun i => BitVec.ofNat 10 (f.toNat / 2 ^ (10 * i)))

theorem codewordSymbols_eq (count : BitVec 8) (long : Bool) (flits : List (BitVec 320)) :
    codewordSymbols count long flits = count.zeroExtend 10 :: (flits.flatMap flitSymbols ++ if long then [0] else []) := rfl

theorem length_flitSymbols (f : BitVec 320) : (flitSymbols f).length = 32 := by rw [flitSymbols, List.length_map, List.length_range]

theorem length_flatMap_flitSymbols (flits : List (BitVec 320)) : (flits.flatMap flitSymbols).length = 32 * flits.length := by
  induction flits with
  | nil => rfl
  | cons f r ih => rw [List.flatMap_cons, List.length_append, ih, length_flitSymbols, List.length_cons]; omega

theorem length_codewordSymbols (count : BitVec 8) (long : Bool) (flits : List (BitVec 320)) :
    (codewordSymbols count long flits).length = (if long then 2 else 1) + 32 * flits.length := by
  rw [codewordSymbols_eq, List.length_cons, List.length_append, length_flatMap_flitSymbols]
  cases long <;> simp <;> omega

theorem flitSymbols_getD (f : BitVec 320) {i : Nat} (h : i < 32) : (flitSymbols f).getD i 0 = BitVec.ofNat 10 (bits f.toNat (10 * i) 10) := by
  have hsymbol : BitVec.ofNat 10 (bits f.toNat (10 * i) 10) = BitVec.ofNat 10 (f.toNat / 2 ^ (10 * i)) := by
    apply BitVec.eq_of_toNat_eq
    rw [BitVec.toNat_ofNat, BitVec.toNat_ofNat, bits, Nat.mod_mod]
  simp [flitSymbols, hsymbol, h]

/-- Symbol i of flit k stands in its place among the symbols of all flits, whatever follows them. -/
theorem flatMap_flitSymbols_getD (flits : List (BitVec 320)) (tail : List (BitVec 10)) {k i : Nat} (hk : k < flits.length) (hi : i < 32) :
    (flits.flatMap flitSymbols ++ tail).getD (32 * k + i) 0 = BitVec.ofNat 10 (bits (flits.getD k 0).toNat (10 * i) 10) := by
  induction flits generalizing k with
  | nil => exact absurd hk (Nat.not_lt_zero k)
  | cons f r ih =>
    rw [List.flatMap_cons, List.append_assoc]
    cases k with
    | zero =>
      rw [List.getD_append _ _ _ _ (by rw [length_flitSymbols]; omega), Nat.mul_zero, Nat.zero_add, List.getD_cons_zero, flitSymbols_getD f hi]
    | succ k =>
      have hplace : 32 * (k + 1) + i - (flitSymbols f).length = 32 * k + i := by rw [length_flitSymbols]; omega
      rw [List.getD_append_right _ _ _ _ (by rw [length_flitSymbols]; omega), hplace, List.getD_cons_succ, ih (Nat.lt_of_succ_lt_succ hk)]

/-- Settles O50: a word is its header, payload and check one above the other, and each field reads back from its bits. -/
theorem flitWordsAreLaidOut : Obligations.FlitWordsAreLaidOut := by
  refine ⟨?word, ?beat, ?write, fun a n tag p hp => hp ▸ payloadOf_read_fields a n tag, ?data, fun n q nak => ⟨rfl, payloadOf_link_fields q nak⟩,
    ?check, fun pos g i h => nextPosition_spec h pos, ?codeword⟩
  case word =>
    rintro seq f w rfl hwrite hdata
    have hp : payloadOf f.body < 2 ^ 256 := payloadOf_lt ⟨hwrite, hdata⟩
    have hheader {lo m : Nat} (h : lo + m ≤ 32) := bits_sentWord_header seq hp h
    obtain ⟨hlocked, htype, hstream, hseq, hfirst, hlast, hepoch, hspare⟩ := sentHeader_fields seq f
    exact ⟨(hheader (by decide)).trans hlocked, (hheader (by decide)).trans htype, (hheader (by decide)).trans hstream,
      (hheader (by decide)).trans hseq, (hheader (by decide)).trans hfirst, (hheader (by decide)).trans hlast,
      (hheader (by decide)).trans hepoch, (hheader (by decide)).trans hspare, bits_sentWord_payload seq hp,
      (bits_sentWord_check seq hp).trans (congrArg BitVec.toNat (sentCheck_eq_crc32 seq hp))⟩
  case beat =>
    rintro b p rfl
    exact payloadOf_beat_fields b
  case write =>
    rintro a l i p rfl - hl -
    exact payloadOf_write_fields a hl i
  case data =>
    rintro tag o err l i p rfl - hl -
    exact payloadOf_data_fields tag o err hl i
  case check =>
    intro h b hs he hp
    have hcheck := bits_sentWord_check h.seq (f := flitOf h b) hp
    rw [checkOk_iff hs he hp, hcheck, BitVec.ofNat_toNat, BitVec.setWidth_eq]
  case codeword =>
    intro count flits k i hk hi
    refine ⟨length_codewordSymbols count false flits, length_codewordSymbols count true flits, fun long => ⟨rfl, ?_⟩⟩
    have hplace : 1 + 32 * k + i = 32 * k + i + 1 := by omega
    rw [codewordSymbols_eq, hplace, List.getD_cons_succ, flatMap_flitSymbols_getD flits _ hk hi]

end Sys2Proof.Machine

/-!
Counterexamples on a fabric group: squall leaves every second position without a new loose flit (15 R391), and an access context may still hold the
words of an access that it did not end.
-/
namespace Sys2Proof.Machine

/-! ### A sound flit in its turn -/

/-- A flit whose check holds reaches its lane (R298). -/
theorem receive_of_checkOk {s : State} {h : FlitHdr} {ty : Nat} {b : FlitBody} (hon : onLane s h) (hc : checkOk h ty b = true)
    (run : State → State) : receive h ty b s run = .next (run s) := by
  obtain ⟨htile, hcarries⟩ := hon
  simp [receive, htile, hcarries, hc]

/-- A sound loose flit in its turn is taken by its SEQ (R308). -/
theorem receiveLoose_of_inOrder {s : State} {h : FlitHdr} {b : FlitBody} (hin : inOrder s h b) (bad : Bool) :
    receiveLoose h b bad s = .next (sequenced s h.site.val h.lane.val h.seq bad (flitOf h b)) := by
  obtain ⟨⟨⟨hon, hloose, -⟩, -⟩, hcheck, hreserved⟩ := hin
  rw [receiveLoose, receive_of_checkOk hon hcheck, hloose, if_neg Bool.false_ne_true, hreserved, Bool.false_or]

/-- The header, with its check, of a loose flit that reaches lane 0 of light tile 4 with SEQ 0 and carries `b` on a stream. -/
def soundHeader (stream : BitVec 14) (b : FlitBody) : FlitHdr :=
  { site := 4, lane := 0, locked := false, stream, seq := 0, first := true, last := true, epoch := false, spare := 0, extra := 0
    check := sentCheck 0 ⟨false, stream, true, true, false, b⟩ }

theorem soundHeader_checkOk (stream : BitVec 14) {b : FlitBody} (hp : payloadOf b < 2 ^ 256) :
    checkOk (soundHeader stream b) (typeOf b) b = true := (checkOk_iff rfl rfl hp).mpr rfl

/-! ### New loose flits in squall -/

/-- `squallGroup`, of which stream 1 owes its peer a credit. -/
def squallCredit : State := { squallGroup with ctxs := [(1, { via := some (4, 0), due := 1 })] }

/-- The next position with room lies on lane 1 of the group. -/
theorem squallCredit_goesOut : goesOut squallCredit 4 0 1 := ⟨by decide, by decide, by decide⟩

/-- Refutes O53: the CREDIT flit of `squallCredit` leaves position 1 to NULL and goes by lane 0 (15 R391); the statement sends it by lane 1, in the
first position of a lane with room. -/
theorem not_fabricTimersAct : ¬ Obligations.FabricTimersAct := by
  rintro ⟨-, -, hcredit, -⟩
  obtain ⟨t, hexec, -, hout, -⟩ := hcredit 1 4 0 1 squallCredit (by decide) (by decide) squallCredit_goesOut
  have hlane : laneAfter (exec (.creditTimer 1) squallCredit) = some 0 := by decide
  rw [hexec, laneAfter, hout] at hlane
  exact absurd hlane (by simp [laneOf, sentOut])

/-- `squallGroup` on ELVARO lanes. -/
def squallFabric : State := squallGroup.setFld (fTxFunc 4 0) 3

/-- An ECHO request with timestamp 5. -/
def echoRequest : FlitBody := sysBody 0x09 [(8, 0), (16, 5)]

theorem squallFabric_inOrder : inOrder squallFabric (soundHeader 0 echoRequest) echoRequest :=
  ⟨⟨⟨⟨by decide, by decide⟩, rfl, by decide, by decide, by decide, by decide⟩, by decide⟩,
    soundHeader_checkOk 0 (by decide), by decide⟩

theorem squallFabric_goesOut : goesOut squallFabric 4 0 1 := ⟨by decide, by decide, by decide⟩

/-- Refutes O52: the reply to the ECHO of `squallFabric` leaves position 1 to NULL and goes by lane 0 (15 R391); the statement sends it by lane 1, in
the first position of a lane with room. -/
theorem not_systemControlTakesEffect : ¬ Obligations.SystemControlTakesEffect := by
  rintro ⟨-, -, -, -, -, -, -, -, hecho, -⟩
  obtain ⟨t, hexec, hout, -⟩ := (hecho (soundHeader 0 echoRequest) 5 squallFabric).1 1 squallFabric_inOrder squallFabric_goesOut
  have htaken : exec (.echo (soundHeader 0 echoRequest) false 5) squallFabric =
      .next (sequenced squallFabric 4 0 0 false ⟨false, 0, true, true, false, echoRequest⟩) := receiveLoose_of_inOrder squallFabric_inOrder false
  have hlane : laneAfter (.next (sequenced squallFabric 4 0 0 false ⟨false, 0, true, true, false, echoRequest⟩)) = some 0 := by decide
  rw [← htaken, hexec, laneAfter, hout] at hlane
  exact absurd hlane (by simp [laneOf, sentOut])

/-! ### The words of an access -/

/-- The group of light tile 4 is UP on ELVARO lane 0, and access context 1 is empty but for a word of an access that it did not end. -/
def wordLeft : State :=
  let s := (((({} : State).mark (fGrpUp 4 0)).setFld (fTxFunc 4 0) 3).setFld (fLaneState 4 0 false) 2).setFld (fCtxKind 1) 4
  { s.setFld (fCtxCredits 1) 8 with ctxs := [(1, { words := [(7, false)] })] }

/-- Eight bytes for the first word of memory tile 0. -/
def tileWriteFlit : FlitBody := .write 0x10000000000 (List.replicate 8 9)

theorem wordLeft_inOrder : inOrder wordLeft (soundHeader 1 tileWriteFlit) tileWriteFlit :=
  ⟨⟨⟨⟨by decide, by decide⟩, rfl, by decide, by decide, by decide, by decide⟩, by decide⟩,
    soundHeader_checkOk 1 (by decide), by decide⟩

theorem wordLeft_openContext : openContext wordLeft 1 4 := ⟨by decide, by decide, by decide, by decide, by decide, by decide⟩

/-- The host transfer that a command leaves at memory tile t. -/
def hostJobAfter (r : Res) (t : Nat) : Option HostJob :=
  match r with
  | .next s => hostJob s t
  | _ => none

/-- Refutes O51: context 1 of `wordLeft` takes the WRITE to memory tile 0, but counts its only word as moved by the word that is left over, and asks
for no access; the statement has the tile's controller find a host transfer. -/
theorem not_flitsAreReceived : ¬ Obligations.FlitsAreReceived := by
  rintro ⟨-, -, -, -, -, hwrite, -⟩
  obtain ⟨t, hexec, -, -, hjob, -⟩ := (hwrite (soundHeader 1 tileWriteFlit) 0x10000000000 (List.replicate 8 9) 0 0 0 wordLeft wordLeft_inOrder
    wordLeft_openContext (fun _ => rfl) (by decide) rfl).2 (by decide)
  have htaken : exec (.writeFlit (soundHeader 1 tileWriteFlit) 0x10000000000 (List.replicate 8 9)) wordLeft =
      .next (sequenced wordLeft 4 0 0 false ⟨false, 1, true, true, false, tileWriteFlit⟩) := receiveLoose_of_inOrder wordLeft_inOrder false
  have hnone : hostJobAfter (.next (sequenced wordLeft 4 0 0 false ⟨false, 1, true, true, false, tileWriteFlit⟩)) 0 = none := by decide
  rw [← htaken, hexec] at hnone
  exact hjob hnone

end Sys2Proof.Machine

/-!
What the engine does to a pair before and after a command's own work (13 R330 to R336): it stays within the pairs, the access contexts, and two
registers: the pair's status and the engine's.
-/
namespace Sys2Proof.Machine

/-- From `s` to `t` the engine has worked for pair r: nothing but the pairs, the access contexts, the pair's status register and the engine's has
changed. -/
structure HostOnly (r : Nat) (s t : State) : Prop where
  frame : { t with regs := s.regs, rings := s.rings, ctxs := s.ctxs } = s
  regs : regsSame s t [ringBase r + 0x1C, 0x32000]

section
variable {r : Nat} {s t u : State}

theorem HostOnly.refl (r : Nat) (s : State) : HostOnly r s s := ⟨rfl, regsSame.refl s _⟩

theorem HostOnly.trans (h : HostOnly r s t) (k : HostOnly r t u) : HostOnly r s u := by
  refine ⟨?_, h.regs.trans k.regs⟩
  have hu := congrArg (fun x : State => ({ x with regs := s.regs, rings := s.rings, ctxs := s.ctxs } : State)) k.frame
  exact hu.trans h.frame

theorem HostOnly.setRing (h : HostOnly r s t) (q : Nat) (v : Ring) : HostOnly r s (t.setRing q v) := ⟨h.frame, h.regs⟩

theorem HostOnly.setCtx (h : HostOnly r s t) (x : Nat) (c : CtxSt) : HostOnly r s (t.setCtx x c) := ⟨h.frame, h.regs⟩

theorem HostOnly.setFld (h : HostOnly r s t) {f : Fld} (ha : f.addr ∈ [ringBase r + 0x1C, 0x32000]) (v : Nat) : HostOnly r s (t.setFld f v) :=
  ⟨h.frame, regsSame_setFld f v h.regs ha⟩

theorem HostOnly.mark (h : HostOnly r s t) {f : Fld} (ha : f.addr ∈ [ringBase r + 0x1C, 0x32000]) : HostOnly r s (t.mark f) := h.setFld ha 1

/-- Every other register reads as before. -/
theorem HostOnly.raw (h : HostOnly r s t) {a : Nat} (hr : a ≠ ringBase r + 0x1C) (he : a ≠ 0x32000) : t.raw a = s.raw a := h.regs a (by simp [hr, he])

theorem HostOnly.fld (h : HostOnly r s t) {f : Fld} (hr : f.addr ≠ ringBase r + 0x1C) (he : f.addr ≠ 0x32000) : t.fld f = s.fld f :=
  congrArg (fun w : Word32 => bits w.toNat f.lo f.w) (h.raw hr he)

/-- A register outside the block of the rings. -/
def farAddr (a : Nat) : Prop := a < 0x30000 ∨ 0x33000 ≤ a

theorem HostOnly.raw_far (h : HostOnly r s t) (hr : r < 64) {a : Nat} (ha : farAddr a) : t.raw a = s.raw a := by
  refine h.raw ?_ ?_ <;> simp only [farAddr, ringBase] at * <;> omega

theorem HostOnly.fld_far (h : HostOnly r s t) (hr : r < 64) {f : Fld} (ha : farAddr f.addr) : t.fld f = s.fld f :=
  congrArg (fun w : Word32 => bits w.toNat f.lo f.w) (h.raw_far hr ha)

theorem HostOnly.is_far (h : HostOnly r s t) (hr : r < 64) {f : Fld} (ha : farAddr f.addr) : t.is f = s.is f :=
  congrArg (· == 1) (h.fld_far hr ha)

/-- A part of the state other than the registers, the pairs and the contexts is as it was. -/
theorem HostOnly.part {α : Type} (h : HostOnly r s t) (f : State → α)
    (hf : f { t with regs := s.regs, rings := s.rings, ctxs := s.ctxs } = f t) : f t = f s := hf.symm.trans (congrArg f h.frame)

theorem HostOnly.path (h : HostOnly r s t) : t.fld (fHrgPath r) = s.fld (fHrgPath r) :=
  h.fld (by simp only [fHrgPath]; omega) (by simp only [fHrgPath, ringBase]; omega)

end

/-! ### The pair's command -/

section
variable (s : State) (r : Nat)

@[simp] theorem State.setRing_ring (v : Ring) : (s.setRing r v).ring r = v := mget_mset_same ({} : Ring) s.rings r v

theorem State.setRing_ring_other {q : Nat} (v : Ring) (h : q ≠ r) : (s.setRing r v).ring q = s.ring q := mget_mset_other _ _ s.rings v h

theorem setPhase_hostOnly (p : CmdPhase) : HostOnly r s (setPhase s r p) := (HostOnly.refl r s).setRing _ _

theorem endCmd_hostOnly (status result : Nat) : HostOnly r s (endCmd s r status result) := setPhase_hostOnly s r _

theorem setPhase_ctxs (q : Nat) (p : CmdPhase) : (setPhase s q p).ctxs = s.ctxs := rfl

variable {s r}

theorem setPhase_cur {c : RingCmd} (h : (s.ring r).cur = some c) (p : CmdPhase) : ((setPhase s r p).ring r).cur = some { c with phase := p } := by
  rw [setPhase, State.setRing_ring, h]
  rfl

theorem phaseOf_of_cur {c : RingCmd} (h : (s.ring r).cur = some c) : phaseOf s r = some c.phase := by rw [phaseOf, h]; rfl

theorem phaseOf_setPhase {c : RingCmd} (h : (s.ring r).cur = some c) (p : CmdPhase) : phaseOf (setPhase s r p) r = some p :=
  phaseOf_of_cur (setPhase_cur h p)

theorem endsWith_endCmd {c : RingCmd} (h : (s.ring r).cur = some c) (status result : Nat) : endsWith (endCmd s r status result) r status result :=
  phaseOf_setPhase h _

end

/-! ### A command begins (R330, R335, R336) -/

/-- The head descriptor of pair r is taken, and with it the configuration lock where the command needs it. -/
def begun (s : State) (r op : Nat) : State := if exclusive op then takeLock (takeHead s r) r else takeHead s r

section
variable {s : State} {r op : Nat} {b : List Byte}

theorem statusField_mem {f : Fld} (h : f.addr = ringBase r + 0x1C) : f.addr ∈ [ringBase r + 0x1C, 0x32000] := by simp [h]

theorem engineField_mem {f : Fld} (h : f.addr = 0x32000) : f.addr ∈ [ringBase r + 0x1C, 0x32000] := by simp [h]

theorem runStep_hostOnly (s : State) (r : Nat) : HostOnly r s (runStep s r) := ((HostOnly.refl r s).mark (engineField_mem rfl)).setFld (engineField_mem rfl) r

theorem takeHead_hostOnly (s : State) (r : Nat) : HostOnly r s (takeHead s r) := by
  unfold takeHead
  dsimp only
  split
  · exact HostOnly.refl r s
  · exact (((HostOnly.refl r s).setRing r _).mark (statusField_mem rfl)).trans (runStep_hostOnly _ r)

theorem takeLock_hostOnly (s : State) (r : Nat) : HostOnly r s (takeLock s r) := ((HostOnly.refl r s).mark (engineField_mem rfl)).setFld (engineField_mem rfl) r

theorem begun_hostOnly (s : State) (r op : Nat) : HostOnly r s (begun s r op) := by
  unfold begun
  split
  · exact (takeHead_hostOnly s r).trans (takeLock_hostOnly _ r)
  · exact takeHead_hostOnly s r

theorem takeHead_ctxs (s : State) (r : Nat) : (takeHead s r).ctxs = s.ctxs := by
  unfold takeHead
  dsimp only
  split <;> rfl

theorem begun_ctxs (s : State) (r op : Nat) : (begun s r op).ctxs = s.ctxs := by
  unfold begun
  split
  · exact takeHead_ctxs s r
  · exact takeHead_ctxs s r

theorem takeHead_ring {i : Nat} {l : List (Nat × List Byte)} (h : (s.ring r).ahead = (i, b) :: l) :
    (takeHead s r).ring r = { s.ring r with ahead := l, cur := some ⟨i, b, .done 0 0⟩ } := by
  simp only [takeHead, h]
  exact State.setRing_ring s r _

theorem ahead_of_head {s : State} {r : Nat} (h : ((s.ring r).ahead.head?).map (fun e => e.2) = some b) : ∃ i l, (s.ring r).ahead = (i, b) :: l := by
  cases ha : (s.ring r).ahead with
  | nil => simp [ha] at h
  | cons e l => exact ⟨e.1, l, by simp [ha] at h; rw [← h]⟩

/-- The pair's command is at work. -/
theorem begun_cur (h : ((s.ring r).ahead.head?).map (fun e => e.2) = some b) (op : Nat) : ∃ i, ((begun s r op).ring r).cur = some ⟨i, b, .done 0 0⟩ := by
  obtain ⟨i, l, ha⟩ := ahead_of_head h
  have hring : (begun s r op).ring r = (takeHead s r).ring r := by
    unfold begun
    split <;> rfl
  exact ⟨i, by rw [hring, takeHead_ring ha]⟩

theorem headDesc_of_served (hcur : (s.ring r).cur = none) (hahead : ((s.ring r).ahead.head?).map (fun e => e.2) = some b) (hop : opcodeOf b = op)
    (hserves : engineServes s r = true) : headDesc s r op = some b := by
  obtain ⟨i, l, ha⟩ := ahead_of_head hahead
  simp [headDesc, hcur, ha, hserves, hop]

/-- A sound descriptor whose pair the engine serves, and whose lock no other pair holds, runs. -/
theorem serve_of_headCommand (h : headCommand s r op b) (run : State → List Byte → State) : serve s r op run = .next (run (begun s r op) b) := by
  obtain ⟨hcur, hahead, hop, hserves, hvalid, hlock⟩ := h
  simp only [serve, headDesc_of_served hcur hahead hop hserves, hvalid, Bool.not_true, Bool.false_eq_true, if_false, begun]
  cases hx : exclusive op with
  | false => simp
  | true => 
    have hfree : lockedByOther s r = false := hlock hx
    simp [hfree]

theorem headCommand_op (h : headCommand s r op b) : opcodeOf b = op := h.2.2.1

theorem headCommand_cur (h : headCommand s r op b) : ∃ i, ((begun s r op).ring r).cur = some ⟨i, b, .done 0 0⟩ := begun_cur h.2.1 op

end

end Sys2Proof.Machine

/-!
The path of a pair to the host (13 R328, R341): whether it has a group, and the flits that wait on it.
-/
namespace Sys2Proof.Machine

/-! ### The path's group -/

section
variable {s t : State}

/-- From `s` to `t` the fuses and every register outside the block of the rings are as they were. -/
structure FarSame (s t : State) : Prop where
  fuses : t.fuses = s.fuses
  fld : ∀ f : Fld, farAddr f.addr → t.fld f = s.fld f

theorem FarSame.is (h : FarSame s t) {f : Fld} (hf : farAddr f.addr) : t.is f = s.is f := congrArg (· == 1) (h.fld f hf)

theorem FarSame.tile (h : FarSame s t) (site : Nat) : t.tile site = s.tile site := by rw [State.tile, State.tile, h.fuses]

theorem farAddr_of_site (site o : Nat) : farAddr (siteBase site + o) := .inr (by unfold siteBase; omega)

theorem FarSame.txFunc (h : FarSame s t) (site lane : Nat) : t.fld (fTxFunc site lane) = s.fld (fTxFunc site lane) :=
  h.fld (fTxFunc site lane) (.inr (by simp only [fTxFunc, txBase, siteBase]; omega))

theorem FarSame.txRate (h : FarSame s t) (site lane : Nat) : t.fld (fTxRate site lane) = s.fld (fTxRate site lane) :=
  h.fld (fTxRate site lane) (.inr (by simp only [fTxRate, txBase, siteBase]; omega))

theorem FarSame.bondNrz (h : FarSame s t) (site o : Nat) : t.is (fBondNrz site o) = s.is (fBondNrz site o) :=
  h.is (f := fBondNrz site o) (farAddr_of_site site _)

theorem FarSame.ctxKind (h : FarSame s t) (x : Nat) : t.fld (fCtxKind x) = s.fld (fCtxKind x) :=
  h.fld (fCtxKind x) (.inr (by simp only [fCtxKind, ctxBase, dieBase]; omega))

theorem FarSame.ctxGroup (h : FarSame s t) (x : Nat) : ctxGroup t x = ctxGroup s x := by
  have htarget := h.fld (fCtxTarget x) (.inr (by simp only [fCtxTarget, ctxBase, dieBase]; omega))
  rw [Machine.ctxGroup, Machine.ctxGroup, htarget]

theorem FarSame.groupSize (h : FarSame s t) (site lane : Nat) : groupSize t site lane = groupSize s site lane := by
  rw [Machine.groupSize, Machine.groupSize, h.fld (fBondWidth site (lane / 8)) (farAddr_of_site site _)]

theorem FarSame.leadOf (h : FarSame s t) (site lane : Nat) : leadOf t site lane = leadOf s site lane := by
  rw [Machine.leadOf, Machine.leadOf, h.groupSize]

theorem FarSame.isLead (h : FarSame s t) (site lane : Nat) : isLead t site lane = isLead s site lane := by
  rw [Machine.isLead, Machine.isLead, h.leadOf]

theorem FarSame.funcValid (h : FarSame s t) (site lane : Nat) : funcValid t site lane = funcValid s site lane := by
  rw [Machine.funcValid, Machine.funcValid, h.tile, h.groupSize, h.txFunc, h.txRate, h.bondNrz]

theorem FarSame.funcOf (h : FarSame s t) (site lane : Nat) : funcOf t site lane = funcOf s site lane := by
  rw [Machine.funcOf, Machine.funcOf, h.isLead, h.funcValid, h.txFunc]

theorem FarSame.isPair (h : FarSame s t) (site lane : Nat) : isPair t site lane = isPair s site lane := by
  rw [Machine.isPair, Machine.isPair, h.tile, h.leadOf, h.funcOf]

theorem FarSame.pathHasGroup (h : FarSame s t) {r : Nat} (hpath : t.fld (fHrgPath r) = s.fld (fHrgPath r)) : pathHasGroup t r = pathHasGroup s r := by
  simp only [Machine.pathHasGroup, hpath, h.ctxKind, h.ctxGroup, h.isPair, h.isLead]

variable {r : Nat} (hr : r < 64)
include hr

theorem HostOnly.farSame (h : HostOnly r s t) : FarSame s t := ⟨h.part State.fuses rfl, fun _ hf => h.fld_far hr hf⟩

theorem HostOnly.pathHasGroup (h : HostOnly r s t) : pathHasGroup t r = pathHasGroup s r := (h.farSame hr).pathHasGroup h.path

end

/-! ### Flits that wait on the path -/

section
variable {s t : State} {r : Nat}

theorem pathOut_congr (hc : t.ctxs = s.ctxs) (hpath : t.fld (fHrgPath r) = s.fld (fHrgPath r)) : pathOut t r = pathOut s r := by
  rw [pathOut, pathOut, hpath, State.ctx, State.ctx, hc]

theorem readsOut_congr (hc : t.ctxs = s.ctxs) (hpath : t.fld (fHrgPath r) = s.fld (fHrgPath r)) (addr n : Nat) :
    readsOut t r addr n = readsOut s r addr n := by rw [readsOut, readsOut, hpath, State.ctx, State.ctx, hc]

theorem reply_hostOnly (s : State) (r x : Nat) (l : List Flit) : HostOnly r s (reply s x l) := (HostOnly.refl r s).setCtx x _

theorem askHost_hostOnly (s : State) (r addr n : Nat) (cmd : Option Nat) (second : Bool) : HostOnly r s (askHost s r addr n cmd second) :=
  ((HostOnly.refl r s).setCtx _ _).setCtx _ _

theorem hostWrite_hostOnly (s : State) (r addr : Nat) (bytes : List Byte) : HostOnly r s (hostWrite s r addr bytes) := reply_hostOnly s r _ _

theorem pathOut_reply (s : State) (r : Nat) (l : List Flit) : pathOut (reply s (s.fld (fHrgPath r)) l) r = pathOut s r ++ l := by
  show ((reply s (s.fld (fHrgPath r)) l).ctx (s.fld (fHrgPath r))).outq = _
  rw [reply, State.setCtx_ctx, pathOut]

theorem pathOut_hostWrite (s : State) (r addr : Nat) (bytes : List Byte) :
    pathOut (hostWrite s r addr bytes) r = pathOut s r ++ writeFlits addr bytes := pathOut_reply s r _

/-- The flits of a READ do not say for what the host is asked. -/
theorem readFlit_readsFor (addr r q : Nat) (cmd cmd' : Option Nat) (second second' : Bool) (tag : Byte) (n : Nat) :
    (readsFor r cmd second tag n).map (readFlit addr) = (readsFor q cmd' second' tag n).map (readFlit addr) := by
  simp only [readsFor, List.map_map]
  rfl

theorem pathOut_askHost (s : State) (r addr n : Nat) (cmd : Option Nat) (second : Bool) :
    pathOut (askHost s r addr n cmd second) r = pathOut s r ++ readsOut s r addr n := by
  show ((askHost s r addr n cmd second).ctx (s.fld (fHrgPath r))).outq = _
  unfold askHost reply
  dsimp only
  rw [State.setCtx_ctx, State.setCtx_ctx]
  exact congrArg (pathOut s r ++ ·) (readFlit_readsFor addr r r cmd none second false _ n)

theorem hostWrite_ring (s : State) (r addr : Nat) (bytes : List Byte) (q : Nat) : (hostWrite s r addr bytes).ring q = s.ring q := rfl

end

end Sys2Proof.Machine

/-!
The steward port (13 R352 to R356): the words of a posted write, the registers of the indirect access, and TIM_RUN_LO read through it.
-/
namespace Sys2Proof.Machine

/-! ### Posted writes (R354) -/

section
variable {s : State} (a : Nat) (v : Word32)

theorem postWrite_of_room (h : s.posted.length < 64) : postWrite s a v = { s with posted := s.posted ++ [(a, v)] } := if_pos h

theorem postWrite_of_full (h : 64 ≤ s.posted.length) : postWrite s a v = s.mark fWrOvf := if_neg (Nat.not_lt.mpr h)

end

/-- The word of four bytes, least significant first. -/
theorem leNat_four (b0 b1 b2 b3 : Byte) :
    leNat [b0, b1, b2, b3] = b0.toNat + 256 * b1.toNat + 65536 * b2.toNat + 16777216 * b3.toNat := by
  simp only [leNat]
  omega

theorem word_aligned (addr : Word32) : 4 * (addr.toNat / 4) % 2 ^ 32 = 4 * (addr.toNat / 4) := by
  have hlt := addr.isLt
  omega

theorem execWriteRegisters_word {s : State} (hup : stewardUp s = true) (addr : Word32) (b0 b1 b2 b3 : Byte) :
    execWriteRegisters addr [b0, b1, b2, b3] s = .next (postWrite s (4 * (addr.toNat / 4))
      (BitVec.ofNat 32 (b0.toNat + 256 * b1.toNat + 65536 * b2.toNat + 16777216 * b3.toNat))) := by
  rw [execWriteRegisters, if_pos hup, ← leNat_four, ← word_aligned addr]
  simp [postMany]

theorem execWriteRegisters_short {s : State} (hup : stewardUp s = true) (addr : Word32) (b0 : Byte) :
    execWriteRegisters addr [b0] s = .next (s.mark fWrErr) := by
  simp [execWriteRegisters, hup, postMany]

/-! ### Reads (R352, R353) -/

theorem execReadRegisters_live {s : State} {addr : Word32} (hup : stewardUp s = true) (hlive : isLive (4 * (addr.toNat / 4)) = true) :
    execReadRegisters addr 1 s =
      .next ((regRead s (4 * (addr.toNat / 4))).2.send (.steward [(regRead s (4 * (addr.toNat / 4))).1])) := by
  simp only [execReadRegisters, hup, if_true, readMany, word_aligned, stewardRead, hlive]

/-! ### Indirect access (R356) -/

theorem regWrite_of_no_reboot {s : State} {a : Nat} (v : Word32) (h : a ≠ 0x40004) : regWrite s a v = writeCore s a v :=
  if_neg (fun c => h c.1)

theorem specAt_indirectControl (s : State) : specAt s 0x32014 = [w1s 0, w1s 1, ro 2 1, w1c 3] := by simp [specAt, deadEgress, regSpec, ringRegs]

/-- A write of HRG_IND_CTRL that the port takes. -/
theorem regWrite_indirect {s : State} (v : Word32) (h : answers s 0x32014 = true) : regWrite s 0x32014 v = writeIndirect s 0x32014 v := by
  rw [regWrite_of_no_reboot v (by decide), writeCore, mapped, specAt_indirectControl, h]
  simp [writePackage]

/-- An indirect access, a write or a read, is at work. -/
def indirectBegun (s : State) (writes : Bool) : State :=
  { (((s.setFld fIndRead (bit (!writes))).setFld fIndWrite (bit writes)).mark fIndBusy) with indirect := some writes }

theorem indirectBegun_busy (s : State) (writes : Bool) : (indirectBegun s writes).is fIndBusy = true :=
  State.is_mark ((s.setFld fIndRead (bit (!writes))).setFld fIndWrite (bit writes)) fIndBusy (by decide) rfl

/-- READ or WRITE of HRG_IND_CTRL begins an access to a register that is mapped. -/
theorem writeIndirect_begins {s : State} {a : Nat} {v : Word32} (hone : (v.getLsbD 0 != v.getLsbD 1) = true)
    (hmapped : mapped s (4 * (s.fld fIndAddr / 4)) = true) : writeIndirect s a v = indirectBegun (plainWrite s a v) (v.getLsbD 1) := by
  unfold writeIndirect
  generalize plainWrite s a v = w
  cases h0 : v.getLsbD 0 <;> cases h1 : v.getLsbD 1 <;> simp only [h0, h1] at hone ⊢
  · exact absurd hone (by decide)
  · exact if_pos hmapped
  · exact if_pos hmapped
  · exact absurd hone (by decide)

/-- A read of TIM_RUN_LO gives the low word of the run's count and latches the high one (02 R65). -/
theorem regRead_runLo {s : State} (h : answers s 0x20014 = true) :
    regRead s 0x20014 = (BitVec.ofNat 32 s.run.count, s.setFld fRunHi (s.run.count / 2 ^ 32)) := by
  simp [regRead, h, windowAt, settleFor, readSide]

/-- The indirect access that was at work is over. -/
def indirectOver (s : State) : State := { ((s.setFld fIndBusy 0).setFld fIndRead 0).setFld fIndWrite 0 with indirect := none }

theorem execIndirectAccessDone_read {s : State} (h : s.indirect = some false) :
    execIndirectAccessDone s = .next ((regRead (indirectOver s) (4 * (s.fld fIndAddr / 4))).2.setFld fIndData
      (regRead (indirectOver s) (4 * (s.fld fIndAddr / 4))).1.toNat) := by
  simp only [execIndirectAccessDone, h]
  rfl

theorem indirectOver_idle (s : State) : (indirectOver s).is fIndBusy = false := by
  have hbusy : (indirectOver s).fld fIndBusy = 0 := by
    show (((s.setFld fIndBusy 0).setFld fIndRead 0).setFld fIndWrite 0).fld fIndBusy = 0
    rw [State.fld_setFld_sep _ (by decide), State.fld_setFld_sep _ (by decide), State.fld_setFld _ _ _ (by decide), Nat.zero_mod]
  rw [State.is, hbusy]
  rfl

theorem indirectOver_answers {s : State} {a : Nat} (h : answers s a = true) : answers (indirectOver s) a = true := by
  have hstate : (indirectOver s).fld fBootState = s.fld fBootState := by
    show (((s.setFld fIndBusy 0).setFld fIndRead 0).setFld fIndWrite 0).fld fBootState = s.fld fBootState
    rw [State.fld_setFld_sep _ (by decide), State.fld_setFld_sep _ (by decide), State.fld_setFld_sep _ (by decide)]
  rw [answers, State.recovery, hstate]
  exact h

/-- The end of an indirect read of TIM_RUN_LO. -/
theorem execIndirectAccessDone_runLo {s : State} (h : s.indirect = some false) (ha : answers s 0x20014 = true) (haddr : s.fld fIndAddr = 0x20014) :
    execIndirectAccessDone s = .next (((indirectOver s).setFld fRunHi (s.run.count / 2 ^ 32)).setFld fIndData (s.run.count % 2 ^ 32)) := by
  rw [execIndirectAccessDone_read h, haddr, regRead_runLo (indirectOver_answers ha), BitVec.toNat_ofNat]
  rfl

/-- Settles O41: each command is followed through the port's own reads and writes. -/
theorem stewardPortServes : Obligations.StewardPortServes := by
  refine ⟨fun s hup => ⟨?_, ?_, ?_⟩, fun addr s hup hlive => ⟨_, execReadRegisters_live hup hlive, rfl⟩,
    fun addr b0 b1 b2 b3 s hup => ⟨fun hroom => ?_, fun hfull => ?_, fun _ => ?_⟩, fun a v r s hup hposted ha hlt => ?_,
    fun s ha hmapped => ⟨?_, ?_⟩, fun s hread ha haddr => ?_, fun op ext s hup hother => ?_⟩
  · exact congrArg Host.Outcome.next (if_pos hup)
  · exact congrArg Host.Outcome.next (if_pos hup)
  · exact congrArg Host.Outcome.next (if_pos hup)
  · exact (execWriteRegisters_word hup addr b0 b1 b2 b3).trans (congrArg Host.Outcome.next (postWrite_of_room _ _ hroom))
  · refine ⟨s.mark fWrOvf, ?_, State.is_mark s _ (by decide) rfl, rfl, regsSame_mark _ (regsSame.refl s _) (by decide), rfl⟩
    exact (execWriteRegisters_word hup addr b0 b1 b2 b3).trans (congrArg Host.Outcome.next (postWrite_of_full _ _ hfull))
  · exact ⟨s.mark fWrErr, execWriteRegisters_short hup addr b0, State.is_mark s _ (by decide) rfl, rfl, rfl⟩
  · refine ⟨regWrite { s with posted := r } a v, ?_, ?_⟩
    · show execPostedWrite s = _
      simp only [execPostedWrite, hposted, hup, if_true]
    · have haligned : 4 * ((BitVec.ofNat 32 a).toNat / 4) = a := by
        rw [BitVec.toNat_ofNat]
        omega
      show execRegisterWrite (BitVec.ofNat 32 a) v { s with posted := r } = _
      rw [execRegisterWrite, haligned]
  · exact ⟨_, congrArg Host.Outcome.next ((regWrite_indirect 1 ha).trans (writeIndirect_begins rfl hmapped)), rfl, indirectBegun_busy _ _⟩
  · exact ⟨_, congrArg Host.Outcome.next ((regWrite_indirect 2 ha).trans (writeIndirect_begins rfl hmapped)), rfl, indirectBegun_busy _ _⟩
  · refine ⟨_, execIndirectAccessDone_runLo hread ha haddr, ?_, ?_, rfl⟩
    · rw [State.fld_setFld _ _ _ (by decide)]
      exact Nat.mod_mod _ _
    · have hidle := indirectOver_idle s
      rwa [State.is, State.fld_setFld_sep _ (by decide), State.fld_setFld_sep _ (by decide)]
  · have hunknown : xspiKnown op ext = false := by
      rw [xspiKnown, List.contains_eq_mem]
      exact decide_eq_false hother
    refine ⟨s.mark fCmdErrStw, ?_, State.is_mark s _ (by decide) rfl, regsSame_mark _ (regsSame.refl s _) (by decide), rfl⟩
    exact congrArg Host.Outcome.next (if_pos (by simp [hup, hunknown]))

end Sys2Proof.Machine

/-!
Moves of one word by the host (13 R341; 10 R246): what one part of a move reads and writes at a memory tile or a cluster store, and the two parts
that make a move of eight bytes.
-/
namespace Sys2Proof.Machine

/-! ### Where an address lies, and whose its port is -/

section
variable {s t : State}

theorem placeOf_congr (h : t.fuses = s.fuses) (a : Nat) : placeOf t a = placeOf s a := by
  unfold placeOf memExists State.sitesOf State.tile
  rw [h]

theorem tileOf_of_place {a m w : Nat} (h : placeOf s a = .tile m w) : tileOf s a = some (m, w) := by rw [tileOf, h]

theorem tileOf_of_store {a k w : Nat} (h : placeOf s a = .store k w) : tileOf s a = none := by rw [tileOf, h]

theorem grantee_congr {x : ArbId} (h : t.arb x = s.arb x) : grantee t x = grantee s x := by rw [grantee, grantee, h]

theorem hostMay_of_tile {a m w : Nat} (h : placeOf s a = .tile m w) :
    hostMay s a = decide (grantee s (.memory (Fin.ofNat 8 m)) = some .host) := by rw [hostMay, tileOf_of_place h]

theorem hostMay_congr (hf : t.fuses = s.fuses) (ha : t.memArb = s.memArb) (a : Nat) : hostMay t a = hostMay s a := by
  have htile : tileOf t a = tileOf s a := by rw [tileOf, tileOf, placeOf_congr hf]
  cases hp : placeOf s a with
  | tile m w =>
    have harb : t.arb (.memory (Fin.ofNat 8 m)) = s.arb (.memory (Fin.ofNat 8 m)) := by rw [State.arb, State.arb, ha]
    rw [hostMay_of_tile hp, hostMay_of_tile ((placeOf_congr hf a).trans hp), grantee_congr harb]
  | store k w => rw [hostMay, hostMay, htile, tileOf_of_store hp]
  | cache r i => rw [hostMay, hostMay, htile, tileOf, hp]
  | none => rw [hostMay, hostMay, htile, tileOf, hp]

theorem rangeOk_congr (h : t.fuses = s.fuses) (a n : Nat) (source : Bool) : rangeOk t a n source = rangeOk s a n source := by
  rw [rangeOk, rangeOk, placeOf_congr h, placeOf_congr h]

/-- A memory tile that an address lies in exists. -/
theorem memExists_of_placeOf_tile {a m w : Nat} (h : placeOf s a = .tile m w) : memExists s m = true := by
  unfold placeOf at h
  dsimp only at h
  split_ifs at h with h0 h1 h2 h3 h4 h5
  simp only [MemPlace.tile.injEq] at h
  rw [← h.1]
  exact (Bool.and_eq_true_iff.mp h5).1

/-- A range that a move may write lies in a cluster store or in a memory tile. -/
theorem placeOf_of_rangeOk {a n : Nat} (h : rangeOk s a n false = true) :
    (∃ k w, placeOf s a = .store k w) ∨ (∃ m w, placeOf s a = .tile m w) := by
  rw [rangeOk, Bool.and_eq_true_iff] at h
  revert h
  cases hp : placeOf s a with
  | store k w => exact fun _ => .inl ⟨k, w, rfl⟩
  | tile m w => exact fun _ => .inr ⟨m, w, rfl⟩
  | cache r i => cases placeOf s (a + n - 1) <;> simp
  | none => cases placeOf s (a + n - 1) <;> simp

end

/-- No package has more than eight memory tiles (00 R4). -/
theorem lt_eight_of_memExists {s : State} {m : Nat} (h : memExists s m = true) : m < 8 := by
  refine lt_of_lt_of_le (of_decide_eq_true h) ?_
  unfold State.sitesOf State.tile
  match s.fuses.variant with
  | 0 => decide
  | 1 => decide
  | v + 2 => exact (by decide : ((List.range 16).filter (fun i => tileKind 2 i == 2)).length ≤ 8)

/-! ### The port of a memory tile is used (R179, R180) -/

/-- The host's burst at memory tile m is used. -/
def burstUsed (s : State) (m : Nat) : State := serveArb s (.memory (Fin.ofNat 8 m))

/-- A burst that is used is the host's no more. -/
theorem hostMay_burstUsed {s : State} {a m w : Nat} (h : placeOf s a = .tile m w) : hostMay (burstUsed s m) a = false := by
  have hplace : placeOf (burstUsed s m) a = .tile m w := h
  have hserved : ((burstUsed s m).arb (.memory (Fin.ofNat 8 m))).served = true := by
    have harb : (burstUsed s m).arb (.memory (Fin.ofNat 8 m)) = _ := mget_mset_same _ _ _ _
    rw [harb]
  have hnobody : grantee (burstUsed s m) (.memory (Fin.ofNat 8 m)) = none := by
    simp only [grantee, hserved, Bool.not_true, Bool.and_false, Bool.false_and]
    rfl
  rw [hostMay_of_tile hplace, hnobody]
  rfl

/-- The port of every other tile stays the host's. -/
theorem hostMay_burstUsed_other {s : State} {a m n v : Nat} (hm : m < 8) (hn : n < 8) (hne : m ≠ n) (h : placeOf s a = .tile n v) :
    hostMay (burstUsed s m) a = hostMay s a := by
  have hplace : placeOf (burstUsed s m) a = .tile n v := h
  have harb : (burstUsed s m).arb (.memory (Fin.ofNat 8 n)) = s.arb (.memory (Fin.ofNat 8 n)) := by
    refine mget_mset_other _ _ _ _ ?_
    rw [Fin.val_ofNat, Fin.val_ofNat, Nat.mod_eq_of_lt hm, Nat.mod_eq_of_lt hn]
    exact hne.symm
  rw [hostMay_of_tile hplace, hostMay_of_tile h, grantee_congr harb]

/-! ### A word read from a memory tile (R246) -/

/-- From `s` to `t` memory tiles have been read: nothing but their registers, the blocks their controllers hold and their ports has changed. -/
structure TilesRead (s t : State) : Prop where
  frame : { t with regs := s.regs, memHeld := s.memHeld, memArb := s.memArb } = s
  raw : ∀ a : Nat, a < 0x80000 → t.raw a = s.raw a

section
variable {s t u : State}

theorem TilesRead.refl (s : State) : TilesRead s s := ⟨rfl, fun _ _ => rfl⟩

theorem TilesRead.setFld (h : TilesRead s t) {f : Fld} (hf : 0x80000 ≤ f.addr) (v : Nat) : TilesRead s (t.setFld f v) :=
  ⟨h.frame, fun a ha => (State.raw_setRaw_other t _ (by omega)).trans (h.raw a ha)⟩

theorem TilesRead.burstUsed (h : TilesRead s t) (m : Nat) : TilesRead s (burstUsed t m) := ⟨h.frame, h.raw⟩

theorem TilesRead.touchBlock (h : TilesRead s t) (m b : Nat) : TilesRead s (touchBlock t m b) := ⟨h.frame, h.raw⟩

theorem TilesRead.fld (h : TilesRead s t) {f : Fld} (hf : f.addr < 0x80000) : t.fld f = s.fld f :=
  congrArg (fun w : Word32 => bits w.toNat f.lo f.w) (h.raw _ hf)

/-- A part of the state that reads do not touch is as it was. -/
theorem TilesRead.part {α : Type} (h : TilesRead s t) (f : State → α)
    (hf : f { t with regs := s.regs, memHeld := s.memHeld, memArb := s.memArb } = f t) : f t = f s := hf.symm.trans (congrArg f h.frame)

theorem siteField_le (site o : Nat) : 0x80000 ≤ siteBase site + o := by unfold siteBase; omega

theorem TilesRead.noteUe (h : TilesRead s t) (m a : Nat) : TilesRead s (noteUe t m a) := by
  have hbump : TilesRead s (t.bump (fMemUe t m)) := h.setFld (siteField_le _ _) _
  unfold Machine.noteUe
  dsimp only
  split
  · exact hbump
  · exact ((hbump.setFld (siteField_le _ _) _).setFld (siteField_le _ _) _).setFld (siteField_le _ _) _

theorem TilesRead.tileReadOver (h : TilesRead s t) (m w : Nat) : TilesRead s (tileReadOver t m w none).2.2 := by
  unfold Machine.tileReadOver
  dsimp only
  split
  · exact (h.touchBlock _ _).setFld (siteField_le _ _) _
  · exact (h.touchBlock _ _).noteUe _ _
  · exact h.touchBlock _ _

theorem tileReadOver_word (s : State) (m w : Nat) : (tileReadOver s m w none).1 = (s.memTile m).word w := by
  unfold tileReadOver
  dsimp only
  split <;> rfl

theorem tileReadOver_poison (s : State) (m w : Nat) :
    (tileReadOver s m w none).2.1 = decide ((s.memTile m).check w = some .uncorrectable) := by
  have hlink : linkCheck ((s.memTile m).check w) none = (s.memTile m).check w := rfl
  unfold tileReadOver
  dsimp only
  rw [hlink]
  split <;> simp_all

/-- The ports stay as they are while a word is read. -/
theorem tileReadOver_memArb (s : State) (m w : Nat) : (tileReadOver s m w none).2.2.memArb = s.memArb := by
  unfold tileReadOver
  dsimp only
  split
  · rfl
  · unfold noteUe
    dsimp only
    split <;> rfl
  · rfl

end

/-- The word of a tile, and whether it is poisoned. -/
def tileWord (s : State) (m w : Nat) : Word64 × Bool := ((s.memTile m).word w, decide ((s.memTile m).check w = some .uncorrectable))

/-- The state after one word of tile m is read by the host. -/
def wordRead (s : State) (m w : Nat) : State := (tileReadOver (burstUsed s m) m w none).2.2

theorem wordRead_tilesRead (s : State) (m w : Nat) : TilesRead s (wordRead s m w) := ((TilesRead.refl s).burstUsed m).tileReadOver m w

theorem readPart_word {s : State} {a m w : Nat} (h : placeOf s a = .tile m w) :
    readPart s a 1 ⟨0, []⟩ = ([tileWord s m w], wordRead s m w) := by
  have hused : usePort s a = burstUsed s m := by rw [usePort, tileOf_of_place h]; rfl
  rw [readPart, tileOf_of_place h]
  simp only [hused, tileReads, linkError, List.find?_nil, Option.map_none, tileReadOver_word, tileReadOver_poison]
  rfl

/-! ### A word written (R246, R341) -/

/-- The state after one word is written by the host into tile n. -/
def wordPut (s : State) (n v : Nat) (e : Word64 × Bool) : State :=
  let t := tileWrite (burstUsed s n) n v e.1 e.2
  t.setMemTile n (t.memTile n)

theorem putPart_tile {s : State} {a n v : Nat} (h : placeOf s a = .tile n v) (e : Word64 × Bool) : putPart s a [e] ⟨0, []⟩ = wordPut s n v e := by
  have hused : usePort s a = burstUsed s n := by rw [usePort, tileOf_of_place h]; rfl
  have hplace : placeOf (burstUsed s n) a = .tile n v := h
  have hwrite : pkgWrite [e] (burstUsed s n) a = tileWrite (burstUsed s n) n v e.1 e.2 := by
    simp only [pkgWrite, busWrite, hplace]
    rfl
  rw [putPart, tileOf_of_place h]
  simp only [hused, hwrite]
  rfl

theorem putPart_store {s : State} {a k w : Nat} (h : placeOf s a = .store k w) (e : Word64 × Bool) :
    putPart s a [e] ⟨0, []⟩ = storeWrite s k w e.1 e.2 := by
  rw [putPart, tileOf_of_store h]
  simp only [pkgWrite, busWrite, h]
  rfl

section
variable (s : State) (n v : Nat) (e : Word64 × Bool)

theorem wordPut_memTile (j : Nat) : (wordPut s n v e).memTile j = (tileWrite (burstUsed s n) n v e.1 e.2).memTile j := mget_mset_id _ _ n j

theorem wordPut_word : ((wordPut s n v e).memTile n).word v = e.1 := by rw [wordPut_memTile, tileWrite_word]

theorem wordPut_check : ((wordPut s n v e).memTile n).check v = if e.2 then some .uncorrectable else none := by rw [wordPut_memTile, tileWrite_check]

theorem wordPut_word_other {j u : Nat} (h : (j, u) ≠ (n, v)) : ((wordPut s n v e).memTile j).word u = (s.memTile j).word u := by
  rw [wordPut_memTile]
  by_cases hj : j = n
  · subst hj
    exact tileWrite_word_other _ _ _ _ (fun c => h (by rw [c]))
  · rw [tileWrite_other_tile _ _ _ _ hj]
    rfl

end

/-! ### The two parts of a move of eight bytes -/

section
variable {s t : State} {r : Nat} {c : RingCmd} {e : Word64 × Bool} {given rest : List Byte} {bad : Option Nat}

/-- A word that is held goes out next, even of a COPY that overlaps. -/
theorem readsNext_held {b : List Byte} (hlen : opn b 0x20 4 = 8) (e : Word64 × Bool) : readsNext b 0 [e] = false := by simp [readsNext, hlen]

theorem stepLeft_word {q : Nat} (h : q = 0 ∨ q = 8) : stepLeft 0 q 8 = 8 := by
  rcases h with rfl | rfl <;> rfl

theorem stepDone_held {b : List Byte} (hlen : opn b 0x20 4 = 8) (e : Word64 × Bool) : stepDone b 0 [e] = 0 ∨ stepDone b 0 [e] = 8 := by
  rw [stepDone, readsNext_held hlen, hlen]
  cases copyOverlaps b <;> simp

/-- With the word held the command is in the middle of its step, unless it is FROST_READ. -/
theorem midStep_held (hlen : opn c.bytes 0x20 4 = 8) (hop : opcodeOf c.bytes ≠ 0x31) (hcur : (s.ring r).cur = some c)
    (hphase : c.phase = .moving 0 rest [e] bad) : midStep s r = true := by
  simp only [midStep, phaseOf_of_cur hcur, hphase, hcur, stepDone, readsNext_held hlen, hlen]
  cases copyOverlaps c.bytes <;> simp [hop]

theorem workStep_reads (hcur : (s.ring r).cur = some c) (hphase : c.phase = .moving 0 given [] none) (hlen : opn c.bytes 0x20 4 = 8)
    (hop : opcodeOf c.bytes ≠ 0x31) (hin : moveIn s c.bytes 0 given [] ⟨0, []⟩ = some ([e], rest, t)) (hring : t.ring r = s.ring r) (k : Nat) :
    workStep s r (k + 1) = workStep (setPhase t r (.moving 0 rest [e] (if e.2 then some 0 else none))) r k := by
  have hpart : workPart s r ⟨0, []⟩ = some (setPhase t r (.moving 0 rest [e] (if e.2 then some 0 else none))) := by
    have hnext : readsNext c.bytes 0 [] = true := rfl
    simp only [workPart, hcur, hphase, movePart, hnext, if_true, hin, Option.map_some, List.nil_append]
    cases he : e.2 <;> simp [he]
  have hmid := midStep_held (c := { c with phase := .moving 0 rest [e] (if e.2 then some 0 else none) }) hlen hop
    (setPhase_cur (hring ▸ hcur) _) rfl
  rw [workStep, hpart]
  exact if_pos hmid

theorem workStep_writes (hcur : (s.ring r).cur = some c) (hphase : c.phase = .moving 0 given [e] bad) (hlen : opn c.bytes 0x20 4 = 8)
    (hout : moveOut s r c.bytes 0 [e] ⟨0, []⟩ = some (1, t)) (hring : t.ring r = s.ring r) (k : Nat) :
    workStep s r (k + 1) = endMove t r 8 (if opcodeOf c.bytes = 0x10 then none else bad) := by
  have hpart : workPart s r ⟨0, []⟩ = some (endMove t r 8 (if opcodeOf c.bytes = 0x10 then none else bad)) := by
    simp [workPart, hcur, hphase, movePart, readsNext_held hlen, hout, hlen]
  have hdone : phaseOf (endMove t r 8 (if opcodeOf c.bytes = 0x10 then none else bad)) r = some (.done _ _) := phaseOf_setPhase (hring ▸ hcur) _
  rw [workStep, hpart]
  simp [midStep, noteStep, hdone]

/-- The move waits, with what it has read, while nothing can be moved. -/
theorem workStep_waits {held : List (Word64 × Bool)} {moved : Nat} (hcur : (s.ring r).cur = some c) (hphase : c.phase = .moving moved given held bad)
    (hnone : movePart s r c moved given held bad ⟨0, []⟩ = none) (hawaits : awaitsHost c = false) (k : Nat) : workStep s r (k + 1) = s := by
  have hpart : workPart s r ⟨0, []⟩ = none := by simp [workPart, hcur, hphase, hnone]
  have hwork : hasWork s r = true := by simp [hasWork, hcur, hphase, hawaits]
  rw [workStep, hpart]
  exact if_pos hwork

end

/-! ### What a part of a move of eight bytes moves -/

section
variable {s : State} {b : List Byte} {r : Nat}

/-- An access of eight bytes at a multiple of eight is whole: it does not reach over the end of a burst (R244). -/
theorem burstLen_word {a : Nat} (h : a % 8 = 0) : burstLen s a 8 = 8 := by
  unfold burstLen
  split <;> omega

theorem wholeWords_aligned (h : wholeWords b = true) : opn b 0x10 6 % 8 = 0 ∧ opn b 0x18 6 % 8 = 0 := by
  simp only [wholeWords, Bool.and_eq_true, decide_eq_true_eq] at h
  obtain ⟨⟨⟨hdst, hsrc⟩, -⟩, -⟩ := h
  exact ⟨hdst, hsrc⟩

theorem moveIn_host (hop : opcodeOf b = 0x10) (hlen : opn b 0x20 4 = 8) {data : List Byte} (hdata : data.length = 8) :
    moveIn s b 0 data [] ⟨0, []⟩ = some ([(BitVec.ofNat 64 (leNat data), false)], [], s) := by
  have hone : wordsOf 1 data = [BitVec.ofNat 64 (leNat data)] := by
    cases data with
    | nil => simp at hdata
    | cons x l =>
      show [BitVec.ofNat 64 (leNat ((x :: l).take 8))] = _
      rw [List.take_of_length_le hdata.le]
  have hdrop : data.drop 8 = [] := by rw [← hdata, List.drop_length]
  simp [moveIn, hop, hlen, hdata, stepLeft, hone, hdrop]

theorem moveIn_tile (hop : opcodeOf b ≠ 0x10) (hlen : opn b 0x20 4 = 8) (hwhole : wholeWords b = true) (hmay : hostMay s (opn b 0x18 6) = true)
    {m w : Nat} (hplace : placeOf s (opn b 0x18 6) = .tile m w) (given : List Byte) :
    moveIn s b 0 given [] ⟨0, []⟩ = some ([tileWord s m w], given, wordRead s m w) := by
  have hburst : burstLen s (opn b 0x18 6) 8 = 8 := burstLen_word (wholeWords_aligned hwhole).2
  simp [moveIn, hop, hlen, hmay, stepLeft, hburst, readPart_word hplace]

theorem moveIn_none (hop : opcodeOf b ≠ 0x10) (hmay : hostMay s (opn b 0x18 6) = false) (given : List Byte) :
    moveIn s b 0 given [] ⟨0, []⟩ = none := by simp [moveIn, hop, hmay]

theorem moveOut_package (hop : opcodeOf b = 0x10 ∨ opcodeOf b = 0x12) (hlen : opn b 0x20 4 = 8) (hwhole : wholeWords b = true)
    (hmay : hostMay s (opn b 0x10 6) = true) (e : Word64 × Bool) :
    moveOut s r b 0 [e] ⟨0, []⟩ = some (1, putPart s (opn b 0x10 6) [e] ⟨0, []⟩) := by
  have hburst : burstLen s (opn b 0x10 6) 8 = 8 := burstLen_word (wholeWords_aligned hwhole).1
  simp [moveOut, hop, hlen, hmay, stepLeft_word (stepDone_held hlen e), hburst]

theorem moveOut_none (hop : opcodeOf b = 0x10 ∨ opcodeOf b = 0x12) (hmay : hostMay s (opn b 0x10 6) = false) (e : Word64 × Bool) :
    moveOut s r b 0 [e] ⟨0, []⟩ = none := by simp [moveOut, hop, hmay]

theorem moveOut_host (hop : opcodeOf b = 0x11) (hlen : opn b 0x20 4 = 8) (e : Word64 × Bool) :
    moveOut s r b 0 [e] ⟨0, []⟩ = some (1, hostWrite s r (opn b 0x10 6) (leBytes 8 e.1.toNat)) := by
  simp [moveOut, hop, hlen, stepLeft_word (stepDone_held hlen e), wordBytes]

end

/-! ### The commands, of one word -/

section
variable {s w : State} {b given : List Byte} {r i : Nat} {p : CmdPhase} {e : Word64 × Bool}

/-- The move of the pair's command has its first word, and holds it. -/
def wordHeld (s : State) (r : Nat) (e : Word64 × Bool) : State := setPhase s r (.moving 0 [] [e] (if e.2 then some 0 else none))

theorem wordHeld_cur (hcur : (s.ring r).cur = some ⟨i, b, p⟩) (e : Word64 × Bool) :
    ((wordHeld s r e).ring r).cur = some ⟨i, b, .moving 0 [] [e] (if e.2 then some 0 else none)⟩ := setPhase_cur hcur _

/-- The move of a word begins: it is read. -/
theorem beginMove_reads (hcur : (s.ring r).cur = some ⟨i, b, p⟩) (hlen : opn b 0x20 4 = 8) (hop : opcodeOf b ≠ 0x31)
    (hin : moveIn (setPhase s r (.moving 0 given [] none)) b 0 given [] ⟨0, []⟩ = some ([e], [], w))
    (hring : w.ring r = (setPhase s r (.moving 0 given [] none)).ring r) : beginMove s r given [] = workStep (wordHeld w r e) r 3 :=
  workStep_reads (c := ⟨i, b, .moving 0 given [] none⟩) (setPhase_cur hcur _) rfl hlen hop hin hring 3

/-- It is written, and the command ends. -/
theorem wordHeld_writes (hcur : (s.ring r).cur = some ⟨i, b, p⟩) (hlen : opn b 0x20 4 = 8)
    (hout : moveOut (wordHeld s r e) r b 0 [e] ⟨0, []⟩ = some (1, w)) (hring : w.ring r = (wordHeld s r e).ring r) :
    workStep (wordHeld s r e) r 3 = endMove w r 8 (if opcodeOf b = 0x10 then none else if e.2 then some 0 else none) :=
  workStep_writes (c := ⟨i, b, _⟩) (wordHeld_cur hcur e) rfl hlen hout hring 2

/-- Or it waits for the memory port. -/
theorem wordHeld_waits (hcur : (s.ring r).cur = some ⟨i, b, p⟩) (hlen : opn b 0x20 4 = 8)
    (hout : moveOut (wordHeld s r e) r b 0 [e] ⟨0, []⟩ = none) : workStep (wordHeld s r e) r 3 = wordHeld s r e := by
  refine workStep_waits (c := ⟨i, b, _⟩) (wordHeld_cur hcur e) rfl ?_ ?_ 2
  · simp [movePart, readsNext_held hlen, hout]
  · simp [awaitsHost]

end

/-! ### A word read from a tile by a command (READ_MEM, COPY) -/

/-- The pair's command has read its word from tile m. -/
def wordFetched (s : State) (r m w : Nat) : State := wordHeld (wordRead (setPhase s r (.moving 0 [] [] none)) m w) r (tileWord s m w)

section
variable (s : State) (r m w : Nat)

theorem wordFetched_tilesRead : TilesRead (setPhase s r (.moving 0 [] [] none)) (wordRead (setPhase s r (.moving 0 [] [] none)) m w) :=
  wordRead_tilesRead _ m w

theorem wordFetched_memTiles : (wordFetched s r m w).memTiles = s.memTiles := (wordFetched_tilesRead s r m w).part State.memTiles rfl

theorem wordFetched_fuses : (wordFetched s r m w).fuses = s.fuses := (wordFetched_tilesRead s r m w).part State.fuses rfl

theorem wordFetched_ctxs : (wordFetched s r m w).ctxs = s.ctxs := (wordFetched_tilesRead s r m w).part State.ctxs rfl

theorem wordFetched_memArb : (wordFetched s r m w).memArb = (burstUsed s m).memArb := tileReadOver_memArb _ m w

theorem wordFetched_path (hr : r < 64) : (wordFetched s r m w).fld (fHrgPath r) = s.fld (fHrgPath r) :=
  (wordFetched_tilesRead s r m w).fld (by simp only [fHrgPath, ringBase]; omega)

theorem wordFetched_memTile (j : Nat) : (wordFetched s r m w).memTile j = s.memTile j := congrArg (fun l => mget ({} : Store) l j) (wordFetched_memTiles s r m w)

theorem wordFetched_placeOf (a : Nat) : placeOf (wordFetched s r m w) a = placeOf s a := placeOf_congr (wordFetched_fuses s r m w) a

theorem wordFetched_hostMay (a : Nat) : hostMay (wordFetched s r m w) a = hostMay (burstUsed s m) a :=
  hostMay_congr (s := burstUsed s m) (wordFetched_fuses s r m w) (wordFetched_memArb s r m w) a

variable {s r m w} {b : List Byte} {i : Nat} {p : CmdPhase}

theorem wordRead_ring : (wordRead (setPhase s r (.moving 0 [] [] none)) m w).ring r = (setPhase s r (.moving 0 [] [] none)).ring r :=
  (wordFetched_tilesRead s r m w).part (fun x => x.ring r) rfl

theorem wordRead_cur (hcur : (s.ring r).cur = some ⟨i, b, p⟩) :
    ((wordRead (setPhase s r (.moving 0 [] [] none)) m w).ring r).cur = some ⟨i, b, .moving 0 [] [] none⟩ := by
  rw [wordRead_ring]
  exact setPhase_cur hcur _

theorem wordFetched_cur (hcur : (s.ring r).cur = some ⟨i, b, p⟩) :
    ((wordFetched s r m w).ring r).cur = some ⟨i, b, .moving 0 [] [tileWord s m w] (if (tileWord s m w).2 then some 0 else none)⟩ :=
  wordHeld_cur (wordRead_cur hcur) _

/-- A move from a memory tile whose port is the host's reads its word. -/
theorem beginMove_fetches (hcur : (s.ring r).cur = some ⟨i, b, p⟩) (hlen : opn b 0x20 4 = 8) (hop : opcodeOf b ≠ 0x10) (hfrost : opcodeOf b ≠ 0x31)
    (hwhole : wholeWords b = true) (hmay : hostMay s (opn b 0x18 6) = true) (hplace : placeOf s (opn b 0x18 6) = .tile m w) :
    beginMove s r [] [] = workStep (wordFetched s r m w) r 3 :=
  beginMove_reads hcur hlen hfrost (moveIn_tile (s := setPhase s r (.moving 0 [] [] none)) hop hlen hwhole hmay hplace []) wordRead_ring

end

/-! ### Words of the memory after a move -/

section
variable {s u : State} {r : Nat}

/-- From `s` to `t` the registers, the pairs and the access contexts are as they were. -/
structure PathSame (s t : State) : Prop where
  rings : t.rings = s.rings
  ctxs : t.ctxs = s.ctxs
  fld : ∀ f : Fld, t.fld f = s.fld f

theorem PathSame.trans {s t u : State} (h : PathSame s t) (k : PathSame t u) : PathSame s u :=
  ⟨k.rings.trans h.rings, k.ctxs.trans h.ctxs, fun f => (k.fld f).trans (h.fld f)⟩

theorem setMemTile_pathSame (s : State) (n : Nat) (m : Store) : PathSame s (s.setMemTile n m) := ⟨rfl, rfl, fun f => State.fld_congr rfl rfl rfl f⟩

theorem touchBlock_pathSame (s : State) (n b : Nat) : PathSame s (touchBlock s n b) := ⟨rfl, rfl, fun f => State.fld_congr rfl rfl rfl f⟩

theorem burstUsed_pathSame (s : State) (m : Nat) : PathSame s (burstUsed s m) := ⟨rfl, rfl, fun f => State.fld_congr rfl rfl rfl f⟩

theorem storeWrite_pathSame (s : State) (k w : Nat) (v : Word64) (p : Bool) : PathSame s (storeWrite s k w v p) :=
  ⟨rfl, rfl, fun f => State.fld_congr rfl rfl rfl f⟩

theorem wordPut_pathSame (s : State) (n v : Nat) (e : Word64 × Bool) : PathSame s (wordPut s n v e) :=
  (((burstUsed_pathSame s n).trans (touchBlock_pathSame _ n _)).trans (setMemTile_pathSame _ n _)).trans (setMemTile_pathSame _ n _)

/-- Where a move's eight bytes go, the path and the pair stay as they are. -/
theorem putPart_pathSame {a : Nat} (h : (∃ k w, placeOf u a = .store k w) ∨ (∃ m w, placeOf u a = .tile m w)) (e : Word64 × Bool) :
    PathSame u (putPart u a [e] ⟨0, []⟩) := by
  obtain ⟨k, w, hplace⟩ | ⟨m, w, hplace⟩ := h
  · rw [putPart_store hplace]
    exact storeWrite_pathSame u k w e.1 e.2
  · rw [putPart_tile hplace]
    exact wordPut_pathSame u m w e

theorem PathSame.ring (h : PathSame s u) (q : Nat) : u.ring q = s.ring q := congrArg (fun l => mget ({} : Ring) l q) h.rings

theorem PathSame.pathOut (h : PathSame s u) (r : Nat) : pathOut u r = pathOut s r := pathOut_congr h.ctxs (h.fld _)

theorem HostOnly.fuses (h : HostOnly r s u) : u.fuses = s.fuses := h.part State.fuses rfl

theorem HostOnly.memArb (h : HostOnly r s u) : u.memArb = s.memArb := h.part State.memArb rfl

theorem HostOnly.memTiles (h : HostOnly r s u) : u.memTiles = s.memTiles := h.part State.memTiles rfl

theorem HostOnly.clusters (h : HostOnly r s u) : u.clusters = s.clusters := h.part State.clusters rfl

theorem HostOnly.placeOf (h : HostOnly r s u) (a : Nat) : placeOf u a = placeOf s a := placeOf_congr h.fuses a

theorem HostOnly.hostMay (h : HostOnly r s u) (a : Nat) : hostMay u a = hostMay s a := hostMay_congr h.fuses h.memArb a

theorem HostOnly.rangeOk (h : HostOnly r s u) (a n : Nat) (source : Bool) : rangeOk u a n source = rangeOk s a n source := rangeOk_congr h.fuses a n source

theorem HostOnly.memTile (h : HostOnly r s u) (j : Nat) : u.memTile j = s.memTile j := congrArg (fun l => mget ({} : Store) l j) h.memTiles

theorem HostOnly.cluster (h : HostOnly r s u) (k : Nat) : u.cluster k = s.cluster k := congrArg (fun l => mget ({} : Cluster) l k) h.clusters

end

/-! ### WRITE_MEM -/

section
variable {s : State} {b data : List Byte} {r i : Nat}

/-- What WRITE_MEM has when its data has come: the word. -/
def writeHeld (s : State) (r : Nat) (b data : List Byte) : State :=
  wordHeld (setPhase (askHost s r (opn b 0x18 6) 8 (cmdIndex s r) false) r (.moving 0 data [] none)) r (BitVec.ofNat 64 (leNat data), false)

theorem writeHeld_hostOnly (s : State) (r : Nat) (b data : List Byte) : HostOnly r s (writeHeld s r b data) :=
  ((askHost_hostOnly s r _ _ _ _).trans (setPhase_hostOnly _ r _)).trans (setPhase_hostOnly _ r _)

theorem writeHeld_pathOut (s : State) (r : Nat) (b data : List Byte) :
    pathOut (writeHeld s r b data) r = pathOut s r ++ readsOut s r (opn b 0x18 6) 8 := by
  rw [← pathOut_askHost s r (opn b 0x18 6) 8 (cmdIndex s r) false]
  generalize hu : askHost s r (opn b 0x18 6) 8 (cmdIndex s r) false = u
  rw [writeHeld, hu]
  exact pathOut_congr rfl ((setPhase_hostOnly u r _).trans (setPhase_hostOnly _ r _)).path

theorem writeHeld_cur (hcur : (s.ring r).cur = some ⟨i, b, .done 0 0⟩) :
    ((writeHeld s r b data).ring r).cur = some ⟨i, b, .moving 0 [] [(BitVec.ofNat 64 (leNat data), false)] none⟩ :=
  wordHeld_cur (setPhase_cur (s := askHost s r _ _ _ _) hcur _) _

/-- WRITE_MEM of one word, whose memory port is the host's. -/
theorem runWriteMem_word (hcur : (s.ring r).cur = some ⟨i, b, .done 0 0⟩) (hop : opcodeOf b = 0x10) (hwhole : wholeWords b = true)
    (hlen : opn b 0x20 4 = 8) (hdata : data.length = 8) (hrange : rangeOk s (opn b 0x10 6) 8 false = true) (hpath : pathHasGroup s r = true)
    (hmay : hostMay s (opn b 0x10 6) = true) :
    runWriteMem r data s b = endMove (putPart (writeHeld s r b data) (opn b 0x10 6) [(BitVec.ofNat 64 (leNat data), false)] ⟨0, []⟩) r 8 none := by
  have hkept := writeHeld_hostOnly s r b data
  have hsame := putPart_pathSame (u := writeHeld s r b data) ((hkept.placeOf _).symm ▸ placeOf_of_rangeOk hrange) (BitVec.ofNat 64 (leNat data), false)
  have hask : ((askHost s r (opn b 0x18 6) 8 (cmdIndex s r) false).ring r).cur = some ⟨i, b, .done 0 0⟩ := hcur
  have hstart : runWriteMem r data s b = beginMove (askHost s r (opn b 0x18 6) 8 (cmdIndex s r) false) r data [] := by
    simp [runWriteMem, hwhole, hlen, hrange, hpath, List.take_of_length_le hdata.le]
  rw [hstart, beginMove_reads hask hlen (by rw [hop]; decide) (moveIn_host hop hlen hdata) rfl]
  have hwrite := wordHeld_writes (setPhase_cur hask _) hlen (moveOut_package (.inl hop) hlen hwhole ((hkept.hostMay _).trans hmay) _)
    (hsame.ring r)
  rw [hop] at hwrite
  exact hwrite

end

/-! ### READ_MEM and COPY -/

section
variable {s : State} {b : List Byte} {r i m w : Nat}

theorem runReadMem_begins (hwhole : wholeWords b = true) (hrange : rangeOk s (opn b 0x18 6) (opn b 0x20 4) true = true)
    (hpath : pathHasGroup s r = true) : runReadMem r s b = beginMove s r [] [] := by simp [runReadMem, hwhole, hrange, hpath]

/-- READ_MEM of one word, whose memory port is the host's. -/
theorem runReadMem_word (hcur : (s.ring r).cur = some ⟨i, b, .done 0 0⟩) (hop : opcodeOf b = 0x11) (hwhole : wholeWords b = true)
    (hlen : opn b 0x20 4 = 8) (hrange : rangeOk s (opn b 0x18 6) 8 true = true) (hpath : pathHasGroup s r = true)
    (hmay : hostMay s (opn b 0x18 6) = true) (hplace : placeOf s (opn b 0x18 6) = .tile m w) :
    runReadMem r s b = endMove (hostWrite (wordFetched s r m w) r (opn b 0x10 6) (leBytes 8 ((s.memTile m).word w).toNat)) r 8
      (if (tileWord s m w).2 then some 0 else none) := by
  rw [runReadMem_begins hwhole (hlen ▸ hrange) hpath, beginMove_fetches hcur hlen (by rw [hop]; decide) (by rw [hop]; decide) hwhole hmay hplace]
  have hout := moveOut_host (s := wordFetched s r m w) (r := r) hop hlen (tileWord s m w)
  have hwrite := wordHeld_writes (wordRead_cur hcur) hlen hout (hostWrite_ring _ r _ _ r)
  rw [hop] at hwrite
  exact hwrite

/-- READ_MEM waits for a memory port that is not the host's. -/
theorem runReadMem_waits (hcur : (s.ring r).cur = some ⟨i, b, .done 0 0⟩) (hop : opcodeOf b = 0x11) (hwhole : wholeWords b = true)
    (hrange : rangeOk s (opn b 0x18 6) (opn b 0x20 4) true = true) (hpath : pathHasGroup s r = true) (hmay : hostMay s (opn b 0x18 6) = false) :
    runReadMem r s b = setPhase s r (.moving 0 [] [] none) := by
  have hnext : readsNext b 0 [] = true := rfl
  have hin : moveIn (setPhase s r (.moving 0 [] [] none)) b 0 [] [] ⟨0, []⟩ = none :=
    moveIn_none (s := setPhase s r (.moving 0 [] [] none)) (by rw [hop]; decide) hmay []
  rw [runReadMem_begins hwhole hrange hpath]
  refine workStep_waits (setPhase_cur hcur _) rfl ?_ ?_ 3
  · simp [movePart, hnext, hin]
  · simp [awaitsHost, hop]

/-- COPY of a word from a memory tile whose port is the host's has read it. -/
theorem runCopy_fetches (hcur : (s.ring r).cur = some ⟨i, b, .done 0 0⟩) (hop : opcodeOf b = 0x12) (hwhole : wholeWords b = true)
    (hlen : opn b 0x20 4 = 8) (hdst : rangeOk s (opn b 0x10 6) 8 false = true) (hsrc : rangeOk s (opn b 0x18 6) 8 true = true)
    (hmay : hostMay s (opn b 0x18 6) = true) (hplace : placeOf s (opn b 0x18 6) = .tile m w) :
    runCopy r s b = workStep (wordFetched s r m w) r 3 := by
  have hstart : runCopy r s b = beginMove s r [] [] := by simp [runCopy, hwhole, hlen, hdst, hsrc]
  rw [hstart, beginMove_fetches hcur hlen (by rw [hop]; decide) (by rw [hop]; decide) hwhole hmay hplace]

/-- COPY writes its word on where the destination's port is the host's. -/
theorem wordFetched_copies {n v : Nat} (hcur : (s.ring r).cur = some ⟨i, b, .done 0 0⟩) (hop : opcodeOf b = 0x12) (hwhole : wholeWords b = true)
    (hlen : opn b 0x20 4 = 8) (hplace : placeOf s (opn b 0x10 6) = .tile n v) (hmay : hostMay (burstUsed s m) (opn b 0x10 6) = true) :
    workStep (wordFetched s r m w) r 3 =
      endMove (wordPut (wordFetched s r m w) n v (tileWord s m w)) r 8 (if (tileWord s m w).2 then some 0 else none) := by
  have hout := moveOut_package (s := wordFetched s r m w) (r := r) (.inr hop) hlen hwhole ((wordFetched_hostMay s r m w _).trans hmay) (tileWord s m w)
  rw [putPart_tile ((wordFetched_placeOf s r m w _).trans hplace)] at hout
  have hwrite := wordHeld_writes (wordRead_cur hcur) hlen hout ((wordPut_pathSame _ n v _).ring r)
  rw [hop] at hwrite
  exact hwrite

/-- COPY waits where the destination's port is not the host's. -/
theorem wordFetched_waits (hcur : (s.ring r).cur = some ⟨i, b, .done 0 0⟩) (hop : opcodeOf b = 0x12) (hlen : opn b 0x20 4 = 8)
    (hmay : hostMay (burstUsed s m) (opn b 0x10 6) = false) : workStep (wordFetched s r m w) r 3 = wordFetched s r m w :=
  wordHeld_waits (wordRead_cur hcur) hlen (moveOut_none (s := wordFetched s r m w) (.inr hop) ((wordFetched_hostMay s r m w _).trans hmay) _)

end

/-! ### The end of a move -/

theorem endMove_hostOnly (s : State) (r n : Nat) (bad : Option Nat) : HostOnly r s (endMove s r n bad) := endCmd_hostOnly s r _ _

/-- A move of eight bytes ends with POISON where its word is poisoned. -/
theorem endMove_word {s : State} {r : Nat} {c : RingCmd} (hcur : (s.ring r).cur = some c) (poisoned : Bool) :
    endsWith (endMove s r 8 (if poisoned then some 0 else none)) r (if poisoned then stPoison else 0) 8 := by
  cases poisoned
  · exact endsWith_endCmd hcur 0 8
  · exact endsWith_endCmd hcur stPoison 8

theorem endMove_pathOut (s : State) (r n : Nat) (bad : Option Nat) : pathOut (endMove s r n bad) r = pathOut s r :=
  pathOut_congr rfl (endMove_hostOnly s r n bad).path

/-! ### What the commands leave -/

section
variable {s u : State} {r n v : Nat} {e : Word64 × Bool}

/-- A word that a move has put into a tile: it lies there, and no other word of a tile has changed. -/
theorem wordPut_effect (hkept : ∀ j, u.memTile j = s.memTile j) (bad : Option Nat) :
    ((endMove (wordPut u n v e) r 8 bad).memTile n).word v = e.1 ∧
      ((endMove (wordPut u n v e) r 8 bad).memTile n).check v = (if e.2 then some .uncorrectable else none) ∧
      ∀ j w : Nat, (j, w) ≠ (n, v) → ((endMove (wordPut u n v e) r 8 bad).memTile j).word w = (s.memTile j).word w := by
  have hend := endMove_hostOnly (wordPut u n v e) r 8 bad
  refine ⟨?_, ?_, fun j w hne => ?_⟩
  · rw [hend.memTile, wordPut_word]
  · rw [hend.memTile, wordPut_check]
  · rw [hend.memTile, wordPut_word_other _ _ _ _ hne, hkept]

theorem wordPut_clusters (s : State) (n v : Nat) (e : Word64 × Bool) : (wordPut s n v e).clusters = s.clusters := by
  have hwrite : (tileWrite (burstUsed s n) n v e.1 e.2).clusters = s.clusters := rfl
  exact hwrite

/-- A word that a move has put into a cluster store: it lies there, and no other word of the store has changed. -/
theorem storeWrite_effect (hkept : HostOnly r s u) (k w : Nat) (x : Word64) (bad : Option Nat) :
    ((endMove (storeWrite u k w x false) r 8 bad).cluster k).store.word w = x ∧
      ∀ j : Nat, j ≠ w → ((endMove (storeWrite u k w x false) r 8 bad).cluster k).store.word j = (s.cluster k).store.word j := by
  have hend := endMove_hostOnly (storeWrite u k w x false) r 8 bad
  refine ⟨?_, fun j hj => ?_⟩
  · rw [hend.cluster]
    exact congrArg Prod.fst (storeRead_storeWrite u k w x false)
  · rw [hend.cluster, ← hkept.cluster]
    exact congrArg Prod.fst (storeRead_storeWrite_other u k x false hj)

end

section
variable {s : State} {b data : List Byte} {r : Nat} (hr : r < 64)
include hr

/-- WRITE_MEM of one word (R341). -/
theorem writeMem_word (hhead : headCommand s r 0x10 b) (hwhole : wholeWords b = true) (hlen : opn b 0x20 4 = 8) (hdata : data.length = 8)
    (hrange : rangeOk s (opn b 0x10 6) 8 false = true) (hpath : pathHasGroup s r = true) (hmay : hostMay s (opn b 0x10 6) = true) :
    ∃ u : State, HostOnly r s u ∧ pathOut u r = pathOut s r ++ readsOut s r (opn b 0x18 6) 8 ∧ (∃ c, (u.ring r).cur = some c) ∧
      serve s r 0x10 (runWriteMem r data) =
        .next (endMove (putPart u (opn b 0x10 6) [(BitVec.ofNat 64 (leNat data), false)] ⟨0, []⟩) r 8 none) := by
  obtain ⟨i, hcur⟩ := headCommand_cur hhead
  have hbegun := begun_hostOnly s r 0x10
  have hrun := runWriteMem_word (data := data) hcur (headCommand_op hhead) hwhole hlen hdata ((hbegun.rangeOk _ _ _).trans hrange)
    ((hbegun.pathHasGroup hr).trans hpath) ((hbegun.hostMay _).trans hmay)
  refine ⟨writeHeld (begun s r 0x10) r b data, hbegun.trans (writeHeld_hostOnly _ r b data), ?_, ⟨_, writeHeld_cur hcur⟩,
    (serve_of_headCommand hhead _).trans (congrArg Host.Outcome.next hrun)⟩
  rw [writeHeld_pathOut, pathOut_congr (begun_ctxs s r 0x10) hbegun.path, readsOut_congr (begun_ctxs s r 0x10) hbegun.path]

end

/-- Settles O44: the commands of one word are the two parts of a move, a word read and a word written. -/
theorem hostMovesMemory : Obligations.HostMovesMemory := by
  refine ⟨fun r b data a s hhead ha hwhole hlen hdata hrange hpath hmay => ?_, fun r b a s hhead ha hwhole hlen hrange hpath hmay m w hplace => ?_,
    fun r b s m w n v hhead hwhole hlen hsrc hdst hdstOk hsrcOk hmay => ⟨fun hne hmay' => ?_, fun heq => ?_⟩,
    fun r b a s hhead ha hwhole hrange hpath hmay => ?_⟩
  · subst ha
    obtain ⟨u, hkept, hout, ⟨c, hcur⟩, hexec⟩ := writeMem_word r.isLt hhead hwhole hlen hdata hrange hpath hmay
    have hsame := putPart_pathSame (u := u) ((hkept.placeOf _).symm ▸ placeOf_of_rangeOk hrange) (BitVec.ofNat 64 (leNat data), false)
    refine ⟨_, hexec, endMove_word ((hsame.ring r.val).symm ▸ hcur) false, ?_, fun m w hplace => ?_, fun k w hplace => ?_⟩
    · rw [endMove_pathOut, hsame.pathOut, hout]
    · rw [putPart_tile ((hkept.placeOf _).trans hplace)]
      obtain ⟨hword, hcheck, hothers⟩ := wordPut_effect (s := s) (n := m) (v := w) (e := (BitVec.ofNat 64 (leNat data), false)) hkept.memTile none
      exact ⟨hword, hcheck, hothers, (endMove_hostOnly _ r.val 8 none).clusters.trans ((wordPut_clusters u m w _).trans hkept.clusters)⟩
    · rw [putPart_store ((hkept.placeOf _).trans hplace)]
      obtain ⟨hword, hothers⟩ := storeWrite_effect hkept k w (BitVec.ofNat 64 (leNat data)) none
      exact ⟨hword, hothers, (endMove_hostOnly _ r.val 8 none).memTiles.trans hkept.memTiles⟩
  · subst ha
    obtain ⟨i, hcur⟩ := headCommand_cur hhead
    have hbegun := begun_hostOnly s r.val 0x11
    have hrun := runReadMem_word hcur (headCommand_op hhead) hwhole hlen ((hbegun.rangeOk _ _ _).trans hrange) ((hbegun.pathHasGroup r.isLt).trans hpath)
      ((hbegun.hostMay _).trans hmay) ((hbegun.placeOf _).trans hplace)
    refine ⟨_, (serve_of_headCommand hhead _).trans (congrArg Host.Outcome.next hrun), ?_, ?_, fun j v => ?_⟩
    · rw [endMove_pathOut, pathOut_hostWrite, pathOut_congr (wordFetched_ctxs _ _ _ _) (wordFetched_path _ _ _ _ r.isLt),
        pathOut_congr (begun_ctxs s r.val 0x11) hbegun.path, hbegun.memTile]
    · have hends := endMove_word (s := hostWrite (wordFetched (begun s r.val 0x11) r.val m w) r.val (opn b 0x10 6)
        (leBytes 8 (((begun s r.val 0x11).memTile m).word w).toNat)) (wordFetched_cur hcur) (tileWord (begun s r.val 0x11) m w).2
      simpa only [tileWord, hbegun.memTile, decide_eq_true_eq] using hends
    · rw [(endMove_hostOnly _ r.val 8 _).memTile, (hostWrite_hostOnly _ r.val _ _).memTile, wordFetched_memTile, hbegun.memTile]
  · obtain ⟨i, hcur⟩ := headCommand_cur hhead
    have hbegun := begun_hostOnly s r.val 0x12
    have hsrc' := (hbegun.placeOf _).trans hsrc
    have hdst' := (hbegun.placeOf _).trans hdst
    have hother := hostMay_burstUsed_other (lt_eight_of_memExists (memExists_of_placeOf_tile hsrc')) (lt_eight_of_memExists (memExists_of_placeOf_tile hdst')) hne hdst'
    have hrun := (runCopy_fetches hcur (headCommand_op hhead) hwhole hlen ((hbegun.rangeOk _ _ _).trans hdstOk) ((hbegun.rangeOk _ _ _).trans hsrcOk)
      ((hbegun.hostMay _).trans hmay) hsrc').trans (wordFetched_copies hcur (headCommand_op hhead) hwhole hlen hdst' (hother.trans ((hbegun.hostMay _).trans hmay')))
    have hword : tileWord (begun s r.val 0x12) m w = tileWord s m w := by rw [tileWord, tileWord, hbegun.memTile]
    rw [hword] at hrun
    obtain ⟨hput, hcheck, hothers⟩ := wordPut_effect (s := s) (u := wordFetched (begun s r.val 0x12) r.val m w) (r := r.val) (n := n) (v := v)
      (e := tileWord s m w) (fun j => (wordFetched_memTile _ _ _ _ j).trans (hbegun.memTile j)) (if (tileWord s m w).2 then some 0 else none)
    have hends := endMove_word (((wordPut_pathSame _ n v (tileWord s m w)).ring r.val).symm ▸ wordFetched_cur (m := m) (w := w) hcur) (tileWord s m w).2
    refine ⟨_, (serve_of_headCommand hhead _).trans (congrArg Host.Outcome.next hrun), hput, fun hbad => ?_, fun hgood => ?_, hothers⟩
    · have hp : (tileWord s m w).2 = true := decide_eq_true hbad
      rw [hp] at hcheck hends ⊢
      exact ⟨hcheck, hends⟩
    · have hp : (tileWord s m w).2 = false := decide_eq_false hgood
      rw [hp] at hcheck hends ⊢
      exact ⟨hcheck, hends⟩
  · subst heq
    obtain ⟨i, hcur⟩ := headCommand_cur hhead
    have hbegun := begun_hostOnly s r.val 0x12
    have hrun := (runCopy_fetches hcur (headCommand_op hhead) hwhole hlen ((hbegun.rangeOk _ _ _).trans hdstOk) ((hbegun.rangeOk _ _ _).trans hsrcOk)
      ((hbegun.hostMay _).trans hmay) ((hbegun.placeOf _).trans hsrc)).trans
      (wordFetched_waits hcur (headCommand_op hhead) hlen (hostMay_burstUsed ((hbegun.placeOf _).trans hdst)))
    have hphase := phaseOf_of_cur (wordFetched_cur (m := m) (w := w) hcur)
    rw [tileWord, hbegun.memTile] at hphase
    exact ⟨_, (serve_of_headCommand hhead _).trans (congrArg Host.Outcome.next hrun), (wordFetched_memTiles _ _ _ _).trans hbegun.memTiles, _, hphase⟩
  · subst ha
    obtain ⟨i, hcur⟩ := headCommand_cur hhead
    have hbegun := begun_hostOnly s r.val 0x11
    have hrun := runReadMem_waits hcur (headCommand_op hhead) hwhole ((hbegun.rangeOk _ _ _).trans hrange) ((hbegun.pathHasGroup r.isLt).trans hpath)
      ((hbegun.hostMay _).trans hmay)
    exact ⟨_, (serve_of_headCommand hhead _).trans (congrArg Host.Outcome.next hrun), phaseOf_setPhase hcur _,
      (pathOut_congr rfl (setPhase_hostOnly _ r.val _).path).trans (pathOut_congr (begun_ctxs s r.val 0x11) hbegun.path), hbegun.memTiles⟩

end Sys2Proof.Machine

/-!
DISARM where no run is started (13 R346): the package is disarmed as at the end of a run, and a RUN_STOP that a DISARM has pending is withdrawn.
-/
namespace Sys2Proof.Machine

/-- A run's end withdraws every RUN_STOP that a DISARM has pending. -/
theorem endRun_pendTable (s : State) : (endRun s).pendTable = s.pendTable.filter (fun e => e.disarm.isNone) := by
  have hstaged : (stopStaged (finishDisarm s)).pendTable = s.pendTable :=
    (congrArg (fun u : State => u.pendTable) (stopStaged_sansUnits (finishDisarm s)) :)
  have hover : (endRun s).pendTable = (stopStaged (finishDisarm s)).runOver.pendTable :=
    (congrArg (fun u : State => u.pendTable) (endRun_sansUnits s) :)
  rw [hover, ← hstaged]
  rfl

/-- A DISARM that finds the package armed and no run started ends the run. -/
theorem runDisarm_pendTable_of_idle {s : State} {r : Nat} (b : List Byte) (harmed : s.armed = true) (hidle : s.run.started = false) :
    (runDisarm r s b).pendTable = s.pendTable.filter (fun e => e.disarm.isNone) := by
  have hruns : runDisarm r s b = endCmd (endRun s) r 0 0 := by simp [runDisarm, harmed, hidle]
  rw [hruns]
  exact endRun_pendTable s

theorem disarm_of_headCommand {s : State} {r : RingIx} {b : List Byte} (h : headCommand s r.val 0x21 b) :
    exec (.disarm r) s = .next (runDisarm r.val (begun s r.val 0x21) b) := serve_of_headCommand h _

/-- A descriptor of 64 bytes that names DISARM. -/
def disarmDescriptor : List Byte := 0x21 :: List.replicate 63 0

/-- Armed, with no run started: pair 0 is to begin a DISARM, and the pending table holds the RUN_STOP of a DISARM on pair 3. -/
def strayStop : State :=
  { ({} : State).mark fArmed with
    rings := [(0, { ahead := [(0, disarmDescriptor)] })]
    pendTable := [⟨.runStop, 5, 0, true, some 3⟩] }

theorem strayStop_headCommand : headCommand strayStop 0 0x21 disarmDescriptor :=
  ⟨rfl, rfl, by decide +kernel, by decide +kernel, by decide +kernel, fun _ => by decide +kernel⟩

/-- Refutes O45: the DISARM of `strayStop` ends with the package disarmed, and withdraws the RUN_STOP that another pair's DISARM has pending (13 R346);
the statement has the pending table as it was. -/
theorem not_hostCommandsTakeEffect : ¬ Obligations.HostCommandsTakeEffect := by
  rintro ⟨-, hdisarm, -⟩
  obtain ⟨t, hexec, -, -, -, htable⟩ := (hdisarm 0 disarmDescriptor strayStop strayStop_headCommand).2.2.1 (by decide) rfl
  have hserved := disarm_of_headCommand (r := 0) strayStop_headCommand
  rw [← Host.Outcome.next.inj (hserved.symm.trans hexec), runDisarm_pendTable_of_idle _ (by decide +kernel) (by decide +kernel)] at htable
  exact absurd htable (by decide +kernel)

end Sys2Proof.Machine

/-!
The work of the package on its arrays and images leaves the ring pairs alone (13 R335): one equation per operation says so. Only the end of a run
touches pairs, those whose DISARM waits for it (13 R346).
-/
namespace Sys2Proof.Machine

theorem State.rings_of_beside {s t : State} (h : t.beside = s.beside) : t.rings = s.rings := (congrArg State.rings h :)

theorem State.rings_of_sansUnits {s t : State} (h : t.sansUnits = s.sansUnits) : t.rings = s.rings := (congrArg State.rings h :)

theorem foldl_rings {α : Type} (f : State → α → State) (hf : ∀ y a, (f y a).rings = y.rings) (l : List α) (s : State) :
    (l.foldl f s).rings = s.rings :=
  foldl_keeps (fun u : State => u.rings = s.rings) (fun y a hy => (hf y a).trans hy) rfl

section
variable (s : State)

theorem State.setFld_rings (f : Fld) (v : Nat) : (s.setFld f v).rings = s.rings := by simp

theorem State.bump_rings (f : Fld) (n : Nat) : (s.bump f n).rings = s.rings := by simp

theorem State.mark_rings (f : Fld) : (s.mark f).rings = s.rings := by simp

theorem State.setRegion_rings (g : Nat) (v : Region) : (s.setRegion g v).rings = s.rings := by simp

@[simp] theorem State.setLogic_rings (k : Nat) (v : Logic) : (s.setLogic k v).rings = s.rings := by simp [State.setLogic]

/-! ### Flits sent on a group -/

@[simp] theorem setRetry_rings (site lane : Nat) (v : Retry) : (s.setRetry site lane v).rings = s.rings := rfl

@[simp] theorem fillSlot_rings (site lane : Nat) (w : BitVec 320) : (fillSlot s site lane w).rings = s.rings := rfl

@[simp] theorem fillNull_rings (site lead : Nat) (w : List Nat) (p q : Nat) : (fillNull s site lead w p q).rings = s.rings :=
  foldl_rings _ (fun y _ => fillSlot_rings y _ _ _) _ s

@[simp] theorem sendAt_rings (site lead lane : Nat) (seq : BitVec 8) (f : Flit) : (sendAt s site lead lane seq f).rings = s.rings := by simp [sendAt]

@[simp] theorem noteRest_rings (site lead : Nat) (b : Bool) : (noteRest s site lead b).rings = s.rings := rfl

@[simp] theorem leaveOne_rings (site lead : Nat) : (leaveOne s site lead).rings = s.rings := by simp [leaveOne]

@[simp] theorem sendOn_rings (site lead lane : Nat) (f : Flit) : (sendOn s site lead lane f).rings = s.rings := by simp [sendOn]

@[simp] theorem pumpGroup_rings (site lead fuel : Nat) : (pumpGroup s site lead fuel).rings = s.rings := by
  induction fuel generalizing s with
  | zero => rfl
  | succ n ih =>
    unfold pumpGroup
    dsimp only
    split
    · rfl
    · split
      · rw [ih, sendOn_rings, setRetry_rings]
      · rfl

@[simp] theorem sendSys_rings (site lead fields : Nat) : (sendSys s site lead fields).rings = s.rings := by simp [sendSys, sendLoose, drainWaiting]

@[simp] theorem sendDown_rings (fields : Nat) : (sendDown s fields).rings = s.rings := by
  unfold sendDown
  dsimp only
  split
  · exact foldl_rings _ (fun y _ => sendSys_rings y _ _ _) _ s
  · rfl

@[simp] theorem sendUp_rings (fields : Nat) : (sendUp s fields).rings = s.rings := by
  unfold sendUp
  split <;> simp

/-! ### The steps of a staged run -/

@[simp] theorem armMask_rings (m : Word64) : (armMask s m).rings = s.rings := State.rings_of_beside (armMask_beside s m)

@[simp] theorem commitWaiting_rings : (commitWaiting s).rings = s.rings := State.rings_of_beside (commitWaiting_beside s)

@[simp] theorem reloadDescs_rings : (reloadDescs s).rings = s.rings := State.rings_of_beside (reloadDescs_beside s)

@[simp] theorem invalidateCache_rings (r : Nat) : (invalidateCache s r).rings = s.rings := State.rings_of_beside (invalidateCache_beside s r)

@[simp] theorem swapHalves_rings : (swapHalves s).rings = s.rings := rfl

@[simp] theorem takeMenu_rings : (takeMenu s).rings = s.rings := by
  unfold takeMenu
  split <;> rfl

@[simp] theorem openStep_rings (i left t : Nat) : (openStep s i left t).rings = s.rings := by
  unfold openStep
  dsimp only
  rw [armMask_rings]
  have hinv : ∀ y : State, ((List.range 64).foldl invalidateCache y).rings = y.rings := foldl_rings _ invalidateCache_rings _
  split <;> split <;> split <;> simp [hinv, State.at]

end

/-! ### Pairs that no event ends -/

/-- A pair that holds something, and whose command waits for no event outside the engine. -/
def Ring.standing (v : Ring) : Prop := v ≠ {} ∧ ∀ c : RingCmd, v.cur = some c →
  match c.phase with
  | .waitLock _ | .waitStop | .waitTrain _ _ _ | .waitBarriers _ _ _ _ => False
  | _ => True

/-- Every standing pair is as it was. -/
def StandingKept (s t : State) : Prop := ∀ q : Nat, (s.ring q).standing → t.ring q = s.ring q

section
variable {s t u : State}

theorem StandingKept.of_rings (h : t.rings = s.rings) : StandingKept s t := fun q _ => congrArg (fun l => mget ({} : Ring) l q) h

theorem StandingKept.trans (h : StandingKept s t) (k : StandingKept t u) : StandingKept s u := fun q hq =>
  (k q ((h q hq).symm ▸ hq)).trans (h q hq)

theorem StandingKept.of_same (k : StandingKept t u) (h : t.rings = s.rings) : StandingKept s u := (StandingKept.of_rings h).trans k

/-- A value that a map holds and that `f` leaves as it is stays. -/
theorem mget_mmap_fixed {α : Type} [DecidableEq α] {d : α} {f : α → α} (m : SMap α) {k : Nat} (hne : mget d m k ≠ d) (hf : f (mget d m k) = mget d m k) :
    mget d (mmap d f m) k = mget d m k := by
  induction m with
  | nil => exact absurd rfl hne
  | cons e r ih =>
    by_cases he : e.1 = k
    · rw [mget, if_pos he] at hne hf ⊢
      have hkept : f e.2 ≠ d := hf.symm ▸ hne
      rw [mmap, List.map_cons, List.filter_cons_of_pos (by simpa using hkept), mget, if_pos he, hf]
    · rw [mget, if_neg he] at hne hf ⊢
      have htail := ih hne hf
      rw [mmap] at htail ⊢
      rw [List.map_cons, List.filter_cons]
      split
      · rw [mget, if_neg he, htail]
      · exact htail

theorem finishDisarm_standingKept (s : State) : StandingKept s (finishDisarm s) := by
  intro q hq
  unfold finishDisarm State.ring
  dsimp only
  refine mget_mmap_fixed s.rings hq.1 ?_
  change (match (s.ring q).cur with
    | some c => if c.phase = .waitStop then { s.ring q with cur := some { c with phase := .done 0 _ } } else s.ring q
    | none => s.ring q) = s.ring q
  split
  · next c hcur =>
    have hphase := hq.2 c hcur
    split
    · next hstop => rw [hstop] at hphase; exact hphase.elim
    · rfl
  · rfl

theorem endRun_standingKept (s : State) : StandingKept s (endRun s) := by
  refine (finishDisarm_standingKept s).trans (.of_rings ?_)
  have hover : (stopStaged (finishDisarm s)).runOver.rings = (stopStaged (finishDisarm s)).rings := rfl
  rw [State.rings_of_sansUnits (endRun_sansUnits s), hover, State.rings_of_sansUnits (stopStaged_sansUnits _)]

theorem releaseBarrier_standingKept (s : State) (t : Nat) : StandingKept s (releaseBarrier s t) := by
  unfold releaseBarrier
  dsimp only
  split
  · exact (endRun_standingKept _).of_same (State.bump_rings s fStageBarriers 1)
  · exact .of_rings (openStep_rings _ _ _ _)

theorem releaseSystem_standingKept (s : State) (seq : Nat) : StandingKept s (releaseSystem s seq) := by
  unfold releaseSystem
  dsimp only
  split
  · split
    · exact (releaseBarrier_standingKept _ _).of_same rfl
    · exact .of_rings rfl
  · exact .of_rings rfl

theorem countArrival_standingKept (s : State) (sender : Nat) (seq : BitVec 16) : StandingKept s (countArrival s sender seq) := by
  unfold countArrival
  dsimp only
  split
  · exact .of_rings rfl
  · split
    · exact .of_rings rfl
    · exact (releaseSystem_standingKept _ _).of_same (sendDown_rings _ _)

theorem arriveSystem_standingKept (s : State) : StandingKept s (arriveSystem s) := by
  unfold arriveSystem
  dsimp only
  split
  · exact (countArrival_standingKept _ _ _).of_same rfl
  · exact .of_rings (sendUp_rings _ _)

end

/-! ### Memory -/

section
variable (s : State)

@[simp] theorem noteUe_rings (t a : Nat) : (noteUe s t a).rings = s.rings := by
  unfold noteUe
  dsimp only
  split <;> simp

@[simp] theorem tileReadOver_rings (t w : Nat) (link : Option Bool) : (tileReadOver s t w link).2.2.rings = s.rings := by
  unfold tileReadOver
  dsimp only
  split
  · rfl
  · simp [touchBlock]
  · rfl

@[simp] theorem tileReads_rings (t : Nat) (link : LinkEcc) (w i n : Nat) : (tileReads s t link w i n).2.rings = s.rings := by
  induction n generalizing s w i with
  | zero => rfl
  | succ n ih => rw [tileReads, ih, tileReadOver_rings]

@[simp] theorem serveArb_rings (a : ArbId) : (serveArb s a).rings = s.rings := by
  unfold serveArb State.setArb
  split <;> rfl

@[simp] theorem usePort_rings (a : Nat) : (usePort s a).rings = s.rings := by
  unfold usePort
  split <;> simp

theorem busRead_rings {s t : State} {a : Nat} {w : Word64} {p : Bool} (h : busRead s a = some (w, p, t)) : t.rings = s.rings := by
  unfold busRead cacheWord tileRead at h
  dsimp only at h
  split at h
  · obtain ⟨-, -, rfl⟩ := h
    rfl
  · next m u _ =>
    have ht := congrArg (fun o : Option (Word64 × Bool × State) => o.map (fun x => x.2.2.rings)) h
    simpa using ht.symm
  · split at h
    · obtain ⟨-, -, rfl⟩ := h
      rfl
    · obtain ⟨-, -, rfl⟩ := h
      rfl
  · simp at h

@[simp] theorem pkgWords_rings (n a : Nat) : (pkgWords n s a).2.rings = s.rings := by
  induction n generalizing s a with
  | zero => rfl
  | succ n ih =>
    unfold pkgWords
    split
    · next t hread => rw [ih, busRead_rings hread]
    · rfl

@[simp] theorem readPart_rings (a words : Nat) (link : LinkEcc) : (readPart s a words link).2.rings = s.rings := by
  unfold readPart
  split <;> simp

theorem busWrite_rings (a : Nat) (v : Word64) (p : Bool) : ((busWrite s a v p).getD s).rings = s.rings := by
  unfold busWrite
  split <;> rfl

@[simp] theorem pkgWrite_rings (l : List (Word64 × Bool)) (a : Nat) : (pkgWrite l s a).rings = s.rings := by
  induction l generalizing s a with
  | nil => rfl
  | cons e l ih => rw [pkgWrite, ih, busWrite_rings]

@[simp] theorem putPart_rings (a : Nat) (l : List (Word64 × Bool)) (link : LinkEcc) : (putPart s a l link).rings = s.rings := by
  unfold putPart
  split <;> simp [spoilWords]

/-! ### Tests -/

@[simp] theorem bistUnit_rings (found : BistResult) (g : Nat) : (bistUnit found s g).rings = s.rings := by simp [bistUnit]

@[simp] theorem bistCluster_rings (k : Nat) : (bistCluster s k).rings = s.rings := rfl

@[simp] theorem bistPart_rings (found : BistResult) (p : Nat × Nat) : (bistPart found s p).rings = s.rings := by
  unfold bistPart
  split
  · exact foldl_rings _ (bistUnit_rings · found) _ s
  · exact foldl_rings _ bistCluster_rings _ s
  · exact foldl_rings _ (fun y g => (State.setRegion_rings y g { y.region g with lines := [] })) _ s
  · rfl

/-! ### Registers and stores that an image writes -/

@[simp] theorem stageWrite_rings (a : Nat) (v : Word32) : (stageWrite s a v).rings = s.rings := by
  unfold stageWrite
  split <;> simp

@[simp] theorem plainWrite_rings (a : Nat) (v : Word32) : (plainWrite s a v).rings = s.rings := by
  unfold plainWrite
  dsimp only
  split <;> split <;> simp

@[simp] theorem writeWords_rings (l : List (Nat × Nat)) : (writeWords s l).rings = s.rings := foldl_rings _ (fun y _ => plainWrite_rings y _ _) l s

@[simp] theorem setMem_rings (a : Agent) (kind : Nat) (m : Store) : (setMem s a kind m).rings = s.rings := by
  unfold setMem
  split <;> rfl

@[simp] theorem guardColumn_rings (k col : Nat) : (guardColumn s k col).rings = s.rings := by
  unfold guardColumn
  dsimp only
  split
  · simp
  · split <;> simp

@[simp] theorem applyFrame_rings (k : Nat) (ws : List Word64) : (applyFrame s k ws).rings = s.rings := by
  unfold applyFrame
  dsimp only
  split <;> simp

@[simp] theorem placeSection_rings (h : Hdr) (i : Nat) (p : Placement) (x : Sect) : (placeSection h i p s x).rings = s.rings := by
  unfold placeSection
  dsimp only
  split
  case h_11 => exact foldl_rings _ (fun y f => by simp) _ s
  all_goals simp [putWords]

@[simp] theorem placeAll_rings (h : Hdr) (ss : List Sect) (ps : List Placement) : (placeAll h ss ps s).rings = s.rings :=
  foldl_rings _ (fun y _ => foldl_rings _ (fun z x => placeSection_rings z h _ _ x) ss y) _ s

@[simp] theorem poisonSection_rings (bad : List Nat) (p : Placement) (x : Sect) : (poisonSection bad p s x).rings = s.rings := by
  unfold poisonSection
  dsimp only
  split <;> simp [poisonWords]

@[simp] theorem poisonAll_rings (bad : List Nat) (ss : List Sect) (ps : List Placement) : (poisonAll bad ss ps s).rings = s.rings := by
  unfold poisonAll
  split
  · rfl
  · exact foldl_rings _ (fun y _ => foldl_rings _ (fun z x => poisonSection_rings z bad _ x) ss y) _ s

end

/-! ### The parts of a load (R235) -/

/-- One context of a fabric section (12 R307). -/
def placeContext (s u : State) (e : Nat × List Nat) : State :=
  if keepsOverLoad s (ctxBase e.1) then u
  else
    let u1 := writeWords u [(ctxBase e.1, e.2.getD 0 0), (ctxBase e.1 + 4, e.2.getD 1 0), (ctxBase e.1 + 8, e.2.getD 2 0)]
    u1.setFld (fOutCredit e.1) (u1.fld (fCtxInit e.1))

/-- One entry of a transmit map, whose credit is loaded. -/
def placeTxmap (u : State) (e : Nat × Nat × Nat) : State :=
  let u1 := writeWords u [(txmapBase e.1 e.2.1, e.2.2)]
  u1.setTxLink e.1 e.2.1 { u1.txLink e.1 e.2.1 with credit := u1.fld (fTxmapInit e.1 e.2.1) }

/-- One multicast group, whose members' credits are loaded. -/
def placeMulticast (u : State) (e : Nat × List Nat) : State :=
  let u1 := writeWords u ((List.range 9).map (fun j => (mcBase e.1 + (if j = 0 then 0 else 4 + 4 * j), e.2.getD j 0)))
  u1.setMc e.1 { u1.mc e.1 with credits := (List.range 8).map (fun i => u1.fld (fMemInit e.1 i)) }

/-- One fabric section. -/
def placeFabricSection (s t : State) (x : Sect) : State :=
  (mcEntries x.data).foldl placeMulticast ((txmapEntries x.data).foldl placeTxmap ((ctxEntries x.data).foldl (placeContext s) t))

theorem placeFabric_eq (ss : List Sect) (s : State) : placeFabric ss s = (ofType ss 0x31).foldl (placeFabricSection s) s := rfl

/-- Buffer i of a stage section in one copy: its register and its value (10 R269). -/
def bufferPlaced (x : Sect) (p : Placement) (i : Nat) : Nat × Nat :=
  let o := stageBufOff (stageHead x.data) + 8 * i
  (regionBase (p.regions.getD (nAt x.data o 1) 0) + 0x9100 + 4 * nAt x.data (o + 1) 1, nAt x.data (o + 4) 4)

/-- The buffers of a stage section in one copy. -/
def placeBuffers (x : Sect) (s : State) (p : Placement) : State :=
  (List.range (stageHead x.data).bufs).foldl (fun y i => writeWords y [bufferPlaced x p i]) s

/-- A preloaded handle of a stage section enters its queue in one copy. -/
def placeHandle (x : Sect) (p : Placement) (y : State) (i : Nat) : State :=
  let o := stageHqOff (stageHead x.data) + 4 * i
  let b := nAt x.data o 1
  hqPush y (p.regions.getD (b % 16) 0) (b / 16) (BitVec.ofNat 32 (nAt x.data (o + 2) 2))

/-- The preloaded handles of a stage section in one copy. -/
def placeHandles (x : Sect) (s : State) (p : Placement) : State := (List.range (stageHead x.data).hqs).foldl (placeHandle x p) s

/-- One stage section. -/
def placeStageSection (ps : List Placement) (s : State) (x : Sect) : State :=
  ps.foldl (fun u p => placeHandles x (placeBuffers x u p) p) ((placedDescs [x] ps (stageHead x.data).stride).foldl (fun u e =>
    writeWords u ((List.range 12).map (fun j => (descBase e.1 e.2.1 + 4 * j, snapN e.2.2 j)))) s)

theorem placeStages_eq (ss : List Sect) (ps : List Placement) (s : State) :
    placeStages ss ps s = (ofType ss 0x20).foldl (placeStageSection ps) s := rfl

/-- Steps 3 to 5 of a load: everything of the image is in place. -/
def imagePlaced (s : State) (b : List Byte) (bad : List Nat) : State :=
  placePackage b (poisonAll bad (sectsOf b (headerOf b)) (placements (headerOf b)) (placeAll (headerOf b) (sectsOf b (headerOf b)) (placements (headerOf b))
    (unloadImage s)))

/-- The QUANTISE chain begins again (14 R376). -/
def Trust.quantBegun (v : Trust) : Trust := { v with quantDigest := List.replicate 32 0, quantCount := 0 }

/-- Steps 3 to 6 of a load. -/
def imageWritten (s : State) (b : List Byte) (bad : List Nat) : State :=
  let t := (List.range 64).foldl (fun t r => if t.is (fRgnBusy r) then releaseRegion t r else t)
    (clearIdle { imagePlaced s b bad with image := some (imageOf s b) })
  { t with trust := t.trust.quantBegun }

theorem writeImage_eq (s : State) (b : List Byte) (bad : List Nat) :
    writeImage s b bad = if (headerOf b).n ≠ s.n ∧ 4 ≤ s.fld fState then toPll (imageWritten s b bad) else imageWritten s b bad := rfl

/-- The image is gone, and no other is written. -/
def imageDropped (s : State) : State := { unloadImage s with trust := (unloadImage s).trust.quantBegun }

theorem dropImage_eq (s : State) : dropImage s = if (imageDropped s).n ≠ s.n ∧ 4 ≤ s.fld fState then toPll (imageDropped s) else imageDropped s := rfl

/-! ### A load -/

section
variable (s : State)

theorem State.withImage_rings (i : Option Image) : ({ s with image := i } : State).rings = s.rings := rfl

theorem State.withTrust_rings (v : Trust) : ({ s with trust := v } : State).rings = s.rings := rfl

theorem State.withClock_rings (v : Clock) : ({ s with clock := v } : State).rings = s.rings := rfl

theorem State.withRegs_rings (v : SMap Word32) : ({ s with regs := v } : State).rings = s.rings := rfl

theorem settleAll_rings (k t : Nat) : (settleAll s k t).rings = s.rings := State.rings_of_beside (settleAll_beside s k t)

theorem settleLinks_rings (t n : Nat) : (settleLinks s t n).rings = s.rings := State.rings_of_beside (settleLinks_beside s t n)

theorem purgeRegion_rings (r : Nat) : (purgeRegion s r).rings = s.rings := by
  have hnote := State.rings_of_beside (noteQueues_beside s (fun q => decide (qCluster q / 8 = r)) (s.clock.now + 2))
  exact hnote

@[simp] theorem showPads_rings (p : Nat → Bool) : (showPads s p).rings = s.rings := State.rings_of_beside (showPads_beside s p)

theorem enterConfig_rings (k : Nat) : (enterConfig s k).rings = s.rings := by
  unfold enterConfig
  dsimp only
  rw [showPads_rings, State.setFld_rings, foldl_rings]
  · simp
  · intro y c
    split <;> rfl

@[simp] theorem startRegion_rings (r : Nat) : (startRegion s r).rings = s.rings := by
  unfold startRegion
  dsimp only
  rw [State.setRegion_rings, State.mark_rings, State.setFld_rings, purgeRegion_rings, foldl_rings, settleLinks_rings, foldl_rings]
  · exact fun y c => enterConfig_rings y _
  · exact fun y c => settleAll_rings y _ _

@[simp] theorem withdrawRequest_rings (a : ArbId) (q : Requester) : (withdrawRequest s a q).rings = s.rings :=
  State.rings_of_beside (withdrawRequest_beside s a q)

@[simp] theorem setArb_rings (a : ArbId) (v : Arbiter) : (s.setArb a v).rings = s.rings := State.rings_of_beside (setArb_beside s a v)

@[simp] theorem withdrawAll_rings (a : ArbId) (p : Requester → Bool) : (withdrawAll s a p).rings = s.rings := by
  have hall : ∀ l : List (Requester × Nat), (l.foldl (fun t e => withdrawRequest t a e.1) s).rings = s.rings := fun l =>
    foldl_rings (fun (t : State) (e : Requester × Nat) => withdrawRequest t a e.1) (fun y e => withdrawRequest_rings y a e.1) l s
  unfold withdrawAll
  dsimp only
  split
  · rw [setArb_rings, hall]
  · exact hall _

@[simp] theorem dropTransfers_rings : (dropTransfers s).rings = s.rings := by
  unfold dropTransfers
  dsimp only
  rw [foldl_rings, foldl_rings]
  · intro y e
    rw [withdrawAll_rings, foldl_rings]
    intro z d
    simp
  · exact fun y e => withdrawAll_rings y _ _

@[simp] theorem clearArray_rings : (clearArray s).rings = s.rings := by
  unfold clearArray
  dsimp only
  rw [State.rings_of_beside (haltClusters_beside (haltAgents s)), State.rings_of_beside (haltAgents_beside s)]

@[simp] theorem resetModes_rings : (resetModes s).rings = s.rings := rfl

/-- Fields of one state, one after another. -/
theorem State.setFlds_rings (l : List Fld) : (l.foldl (fun t f => t.setFld f 0) s).rings = s.rings := foldl_rings _ (fun y f => State.setFld_rings y f 0) l s

@[simp] theorem unloadImage_rings : (unloadImage s).rings = s.rings := by
  refine (State.withImage_rings _ none).trans ((State.setFlds_rings _ [fHalf, fRegionsPer, fChannels, fIdle, fWinW, fWinF]).trans ?_)
  refine (foldl_rings _ (fun y n => ?_) _ _).trans ((resetModes_rings _).trans ((State.withRegs_rings _ _).trans ?_))
  · split
    · exact State.setFld_rings y _ _
    · rfl
  · rw [clearArray_rings, dropTransfers_rings, foldl_rings]
    · rw [State.setFld_rings, State.mark_rings]
    · intro y r
      rw [startRegion_rings, State.setFld_rings]

theorem withAlert_rings (before : State) : (withAlert before s).rings = s.rings := by
  unfold withAlert
  split <;> rfl

theorem holdVoltage_rings : (holdVoltage s).rings = s.rings := by
  unfold holdVoltage
  dsimp only
  rw [foldl_rings]
  intro z d
  rw [State.setFld_rings, State.setFld_rings]

theorem leaveCount_rings : (leaveCount s).rings = s.rings := by
  unfold leaveCount
  dsimp only
  rw [State.rings_of_beside (playBlocks_beside s (fun _ => true) s.clock.now)]

theorem restartMeasures_rings : (restartMeasures s).rings = s.rings := rfl

@[simp] theorem toPll_rings : (toPll s).rings = s.rings := by
  rw [toPll, withAlert_rings, enterStep, State.setFld_rings, State.setFld_rings, holdVoltage_rings, restartMeasures_rings, leaveCount_rings]

@[simp] theorem dropImage_rings : (dropImage s).rings = s.rings := by
  have hdropped : (imageDropped s).rings = s.rings := (State.withTrust_rings (unloadImage s) _).trans (unloadImage_rings s)
  rw [dropImage_eq]
  split
  · exact (toPll_rings _).trans hdropped
  · exact hdropped

@[simp] theorem placeVas_rings (h : Hdr) (ss : List Sect) (channels : Nat) : (placeVas h ss channels s).rings = s.rings := by
  unfold placeVas
  dsimp only
  rw [foldl_rings, foldl_rings]
  · intro y v
    split <;> simp
  · intro y x
    simp

@[simp] theorem setTxLink_rings (site link : Nat) (v : TxLink) : (s.setTxLink site link v).rings = s.rings := rfl

@[simp] theorem setMc_rings (m : Nat) (v : McSt) : (s.setMc m v).rings = s.rings := rfl

theorem placeFabricSection_rings (t : State) (x : Sect) : (placeFabricSection s t x).rings = t.rings := by
  unfold placeFabricSection
  rw [foldl_rings, foldl_rings, foldl_rings]
  · intro u e
    unfold placeContext
    split
    · rfl
    · exact (State.setFld_rings _ _ _).trans (writeWords_rings u _)
  · exact fun u e => (setTxLink_rings _ _ _ _).trans (writeWords_rings u _)
  · exact fun u e => (setMc_rings _ _ _).trans (writeWords_rings u _)

@[simp] theorem placeFabric_rings (ss : List Sect) : (placeFabric ss s).rings = s.rings := by
  rw [placeFabric_eq]
  exact foldl_rings _ (fun t x => placeFabricSection_rings s t x) _ s

@[simp] theorem hqPush_rings (r q : Nat) (v : Word32) : (hqPush s r q v).rings = s.rings := by
  unfold hqPush
  split <;> simp [pushHandle, State.setHq]

theorem foldl_writeWords_rings {α : Type} (g : α → List (Nat × Nat)) (l : List α) : (l.foldl (fun y i => writeWords y (g i)) s).rings = s.rings :=
  foldl_rings _ (fun y _ => writeWords_rings y _) l s

theorem foldl_hqPush_rings {α : Type} (r q : α → Nat) (v : α → Word32) (l : List α) :
    (l.foldl (fun y i => hqPush y (r i) (q i) (v i)) s).rings = s.rings := foldl_rings _ (fun y _ => hqPush_rings y _ _ _) l s

theorem placeBuffers_rings (x : Sect) (p : Placement) : (placeBuffers x s p).rings = s.rings := foldl_writeWords_rings s (fun i => [bufferPlaced x p i]) _

theorem placeHandles_rings (x : Sect) (p : Placement) : (placeHandles x s p).rings = s.rings :=
  foldl_hqPush_rings s (fun i => p.regions.getD (nAt x.data (stageHqOff (stageHead x.data) + 4 * i) 1 % 16) 0)
    (fun i => nAt x.data (stageHqOff (stageHead x.data) + 4 * i) 1 / 16)
    (fun i => BitVec.ofNat 32 (nAt x.data (stageHqOff (stageHead x.data) + 4 * i + 2) 2)) _

theorem placeStageSection_rings (ps : List Placement) (x : Sect) : (placeStageSection ps s x).rings = s.rings := by
  have hcopies : ∀ y : State, (ps.foldl (fun u p => placeHandles x (placeBuffers x u p) p) y).rings = y.rings :=
    foldl_rings _ (fun u p => (placeHandles_rings _ x p).trans (placeBuffers_rings u x p)) ps
  rw [placeStageSection, hcopies, foldl_writeWords_rings]

@[simp] theorem placeStages_rings (ss : List Sect) (ps : List Placement) : (placeStages ss ps s).rings = s.rings := by
  rw [placeStages_eq]
  exact foldl_rings _ (fun t x => placeStageSection_rings t ps x) _ s

@[simp] theorem placeSources_rings (h : Hdr) (ss : List Sect) (p : Placement) : (placeSources h ss s p).rings = s.rings := by
  unfold placeSources
  rw [foldl_rings]
  intro t e
  split <;> simp

@[simp] theorem placePackage_rings (b : List Byte) : (placePackage b s).rings = s.rings := by
  refine (State.setFld_rings _ _ _).trans ((State.setFld_rings _ _ _).trans ((State.withClock_rings _ _).trans ((showPads_rings _ _).trans ?_)))
  refine (foldl_rings _ (fun y x => writeWords_rings y _) _ _).trans ?_
  rw [placeStages_rings, placeFabric_rings, placeVas_rings, foldl_rings, foldl_rings]
  · exact fun y p => placeSources_rings y _ _ p
  · exact fun y l => State.mark_rings y _

theorem releaseBlock_rings (k : Nat) : (releaseBlock s k).rings = s.rings := by
  unfold releaseBlock
  dsimp only
  rw [showPads_rings, State.setLogic_rings, State.setFld_rings]

@[simp] theorem releaseRegion_rings (r : Nat) : (releaseRegion s r).rings = s.rings := by
  unfold releaseRegion
  dsimp only
  rw [State.setRegion_rings, State.setFld_rings, foldl_rings, State.rings_of_beside (finishCommit_beside _ r), purgeRegion_rings, foldl_rings,
    settleLinks_rings]
  · exact fun y c => settleAll_rings y _ _
  · exact fun y c => releaseBlock_rings y _

theorem clearIdle_rings : (clearIdle s).rings = s.rings := rfl

@[simp] theorem writeImage_rings (b : List Byte) (bad : List Nat) : (writeImage s b bad).rings = s.rings := by
  have hrelease : ∀ y : State, ((List.range 64).foldl (fun t r => if t.is (fRgnBusy r) then releaseRegion t r else t) y).rings = y.rings := by
    intro y
    rw [foldl_rings]
    intro z r
    split
    · exact releaseRegion_rings z r
    · rfl
  have hwritten : (imageWritten s b bad).rings = s.rings := by
    rw [imageWritten, State.withTrust_rings, hrelease, clearIdle_rings, State.withImage_rings, imagePlaced, placePackage_rings, poisonAll_rings,
      placeAll_rings, unloadImage_rings]
  rw [writeImage_eq]
  split
  · exact (toPll_rings _).trans hwritten
  · exact hwritten

@[simp] theorem setMode_rings : (setMode s).rings = s.rings := by
  unfold setMode
  dsimp only
  split <;> simp only [State.setFld_rings]

@[simp] theorem recordLoad_rings (e : Option (Nat × Nat)) : (recordLoad s e).rings = s.rings := by
  unfold recordLoad
  split <;> rfl

theorem writePlace_rings (s0 : State) (im : Image) (ws : Nat → Int) (ls : List Int) (l : Layer) (p : LayerPlace) :
    (writePlace s0 im ws ls l s p).rings = s.rings := by
  unfold writePlace
  dsimp only
  rw [foldl_rings]
  intro y o
  rw [foldl_rings]
  intro z j
  rw [foldl_rings]
  intro x g
  simp

@[simp] theorem writeLayer_rings (im : Image) (ws : Nat → Int) (l : Layer) : (writeLayer s im ws l).1.rings = s.rings :=
  foldl_rings _ (fun y p => writePlace_rings y s im ws _ l p) _ s

end

end Sys2Proof.Machine

/-!
What one part of a pair's command leaves alone (13 R335): every other pair.
-/
namespace Sys2Proof.Machine

/-- Every pair but pair p is as it was. -/
def OthersKept (p : Nat) (s t : State) : Prop := ∀ q : Nat, q ≠ p → t.ring q = s.ring q

section
variable {p : Nat} {s t u : State}

theorem OthersKept.of_rings (h : t.rings = s.rings) : OthersKept p s t := fun q _ => congrArg (fun l => mget ({} : Ring) l q) h

theorem OthersKept.trans (h : OthersKept p s t) (k : OthersKept p t u) : OthersKept p s u := fun q hq => (k q hq).trans (h q hq)

/-- Pair p is written in a state with the same pairs. -/
theorem OthersKept.of_same (k : OthersKept p t u) (h : t.rings = s.rings) : OthersKept p s u := (OthersKept.of_rings h).trans k

theorem setRing_othersKept (s : State) (p : Nat) (v : Ring) : OthersKept p s (s.setRing p v) := fun _ hq => State.setRing_ring_other s p v hq

theorem setPhase_othersKept (s : State) (p : Nat) (c : CmdPhase) : OthersKept p s (setPhase s p c) := setRing_othersKept s p _

theorem endCmd_othersKept (s : State) (p status result : Nat) : OthersKept p s (endCmd s p status result) := setPhase_othersKept s p _

theorem waitPhase_othersKept (s : State) (p : Nat) (c : CmdPhase) : OthersKept p s (waitPhase s p c) := setPhase_othersKept s p c

theorem takeHead_othersKept (s : State) (p : Nat) : OthersKept p s (takeHead s p) := by
  unfold takeHead
  dsimp only
  split
  · exact .of_rings rfl
  · exact setRing_othersKept s p _

end

section
variable (s : State) (p : Nat)

theorem writeDigest_rings (b digest : List Byte) : (writeDigest s p b digest).rings = s.rings := by
  unfold writeDigest
  dsimp only
  split <;> rfl

theorem openSource_othersKept (c : RingCmd) (given later prior : List Byte) : OthersKept p s (openSource s p c given later prior) := by
  unfold openSource
  dsimp only
  split
  · exact setPhase_othersKept s p _
  · exact (setPhase_othersKept _ p _).of_same rfl

theorem loadChecked_othersKept (c : RingCmd) (later x : List Byte) : OthersKept p s (loadChecked s p c later x) := by
  unfold loadChecked
  dsimp only
  split
  · exact (endCmd_othersKept _ p _ _).of_same ((recordLoad_rings _ _).trans (writeDigest_rings s p _ _))
  · exact (openSource_othersKept _ p c _ _ _).of_same (writeDigest_rings s p _ _)

theorem loadRead_othersKept (x y : List Byte) (bad : List Nat) : OthersKept p s (loadRead s p x y bad) := by
  have hwritten : (recordLoad (writeImage s y bad) none).rings = s.rings := (recordLoad_rings _ _).trans (writeImage_rings s y bad)
  unfold loadRead
  dsimp only
  split
  · exact (endCmd_othersKept _ p _ _).of_same ((setMode_rings _).trans (dropImage_rings s))
  · split
    · exact (endCmd_othersKept _ p _ _).of_same ((setMode_rings _).trans hwritten)
    · split
      · exact (endCmd_othersKept _ p _ _).of_same ((setMode_rings _).trans hwritten)
      · exact (waitPhase_othersKept _ p _).of_same ((State.setFld_rings _ _ _).trans ((State.mark_rings _ _).trans hwritten))

theorem verifyRead_othersKept (c : RingCmd) (x : List Byte) : OthersKept p s (verifyRead s p c x) :=
  (endCmd_othersKept _ p _ _).of_same ((recordLoad_rings _ _).trans (writeDigest_rings s p c.bytes (sha256 x)))

theorem quantRead_othersKept (c : RingCmd) (x : List Byte) (bad : List Nat) : OthersKept p s (quantRead s p c x bad) := by
  unfold quantRead
  split
  · exact endCmd_othersKept s p _ _
  · dsimp only
    split
    · exact endCmd_othersKept s p _ _
    · refine (endCmd_othersKept _ p _ _).of_same ?_
      rw [chainQuant, State.withTrust_rings, writeLayer_rings]

theorem sourceRead_othersKept (c : RingCmd) (later prior x : List Byte) (bad : List Nat) : OthersKept p s (sourceRead s p c later prior x bad) := by
  unfold sourceRead
  split
  · split
    · exact loadChecked_othersKept s p c later x
    · exact loadRead_othersKept s p prior x bad
  · exact verifyRead_othersKept s p c x
  · exact quantRead_othersKept s p c x bad

theorem sourcePart_rings {s t : State} {b given given' l : List Byte} {d n : Nat} {link : LinkEcc} {bad : List Nat}
    (h : sourcePart s b d n given link = some (l, bad, given', t)) : t.rings = s.rings := by
  unfold sourcePart at h
  dsimp only at h
  split at h
  · split at h
    · obtain ⟨-, -, -, rfl⟩ := h
      exact readPart_rings s _ _ _
    · simp at h
  · split at h
    · simp at h
    · obtain ⟨-, -, -, rfl⟩ := h
      rfl

theorem readingPart_othersKept {s t : State} {c : RingCmd} {given later prior got : List Byte} {bad : List Nat} {link : LinkEcc}
    (h : readingPart s p c given later prior got bad link = some t) : OthersKept p s t := by
  unfold readingPart at h
  obtain ⟨x, hx, rfl⟩ := Option.map_eq_some_iff.mp h
  dsimp only
  split
  · exact (sourceRead_othersKept _ p c _ _ _ _).of_same (sourcePart_rings hx)
  · exact (setPhase_othersKept _ p _).of_same (sourcePart_rings hx)

theorem moveIn_rings {s t : State} {b given given' : List Byte} {moved : Nat} {held l : List (Word64 × Bool)} {link : LinkEcc}
    (h : moveIn s b moved given held link = some (l, given', t)) : t.rings = s.rings := by
  unfold moveIn at h
  dsimp only at h
  split at h
  · split at h
    · simp at h
    · obtain ⟨-, -, rfl⟩ := h
      rfl
  · split at h
    · obtain ⟨-, -, rfl⟩ := h
      exact readPart_rings s _ _ _
    · simp at h

theorem moveOut_rings {s t : State} {b : List Byte} {moved n : Nat} {held : List (Word64 × Bool)} {link : LinkEcc}
    (h : moveOut s p b moved held link = some (n, t)) : t.rings = s.rings := by
  unfold moveOut at h
  dsimp only at h
  split at h
  · split at h
    · obtain ⟨-, rfl⟩ := h
      exact putPart_rings s _ _ _
    · simp at h
  · obtain ⟨-, rfl⟩ := h
    rfl

theorem movePart_othersKept {s t : State} {c : RingCmd} {moved : Nat} {given : List Byte} {held : List (Word64 × Bool)} {bad : Option Nat}
    {link : LinkEcc} (h : movePart s p c moved given held bad link = some t) : OthersKept p s t := by
  unfold movePart at h
  dsimp only at h
  split at h
  · obtain ⟨x, hx, rfl⟩ := Option.map_eq_some_iff.mp h
    exact (setPhase_othersKept _ p _).of_same (moveIn_rings hx)
  · obtain ⟨x, hx, rfl⟩ := Option.map_eq_some_iff.mp h
    split
    · exact (endCmd_othersKept _ p _ _).of_same (moveOut_rings p hx)
    · exact (setPhase_othersKept _ p _).of_same (moveOut_rings p hx)

theorem testingPart_othersKept (c : RingCmd) (found : BistResult) (left : List (Nat × Nat)) : OthersKept p s (testingPart s p c found left) := by
  unfold testingPart
  split
  · exact (setPhase_othersKept _ p _).of_same (bistPart_rings s _ _)
  · exact (endCmd_othersKept _ p _ _).of_same (foldl_rings _ (fun y e => bistPart_rings y found e) _ s)

theorem workPart_othersKept {s t : State} {link : LinkEcc} (h : workPart s p link = some t) : OthersKept p s t := by
  unfold workPart at h
  split at h
  · simp at h
  · split at h
    · exact readingPart_othersKept p h
    · exact movePart_othersKept p h
    · obtain rfl := Option.some.inj h
      exact testingPart_othersKept s p _ _ _
    · simp at h

theorem noteStep_rings : (noteStep s p).rings = s.rings := by
  unfold noteStep
  split
  · rfl
  · split <;> rfl

theorem workStep_othersKept (fuel : Nat) : OthersKept p s (workStep s p fuel) := by
  induction fuel generalizing s with
  | zero => exact .of_rings (noteStep_rings s p)
  | succ n ih =>
    unfold workStep
    split
    · split <;> exact .of_rings rfl
    · next t ht =>
      split
      · exact (workPart_othersKept p ht).trans (ih t)
      · exact (workPart_othersKept p ht).trans (.of_rings (noteStep_rings t p))

theorem complete_othersKept (c : RingCmd) (status : Nat) (result : Word64) : OthersKept p s (complete s p c status result) := by
  have hlock : ∀ (y : State) (b : Bool), ((if b then (y.setFld fEngineLocked 0).setFld fEngineLockRing 0 else y) : State).rings = y.rings := by
    intro y b
    cases b <;> simp
  unfold complete
  dsimp only
  refine (OthersKept.trans ?_ (OthersKept.of_rings (State.setFld_rings _ _ _))).trans (.of_rings (State.setFld_rings _ _ _))
  refine (setRing_othersKept _ p _).of_same ?_
  rw [hlock]
  split <;> split <;> rfl

theorem giveStep_othersKept : OthersKept p s (giveStep s p) := by
  unfold giveStep
  split
  · exact .of_rings rfl
  · split
    · exact complete_othersKept s p _ _ _
    · exact (workStep_othersKept (runStep s p) p 4).of_same rfl

end

/-! ### What one step of the engine settles -/

section
variable {s : State} {q : Nat}

/-- A pair with work for the engine waits for no event outside it. -/
theorem standing_of_hasWork (h : hasWork s q = true) : (s.ring q).standing := by
  unfold hasWork at h
  dsimp only at h
  constructor
  · intro hempty
    rw [hempty] at h
    exact Bool.noConfusion h
  · intro c hcur
    rw [hcur] at h
    dsimp only at h
    split <;> simp_all

theorem hasWork_congr {t : State} (h : t.ring q = s.ring q) : hasWork t q = hasWork s q := by rw [hasWork, hasWork, h]

/-- A wait that is over ends its own command; a standing pair has none. -/
theorem settleWait_standingKept (s : State) (p : Nat) : StandingKept s (settleWait s p) := by
  intro q hq
  by_cases hqp : q = p
  · subst hqp
    have hnone : settleWait s q = s := by
      unfold settleWait phaseOf
      cases hcur : (s.ring q).cur with
      | none => rfl
      | some c =>
        have hphase := hq.2 c hcur
        cases hp : c.phase <;> simp_all
    rw [hnone]
  · unfold settleWait
    split
    · split
      · rfl
      · exact endCmd_othersKept s p _ _ q hqp
    · split
      · rfl
      · split
        · exact (endCmd_othersKept _ p _ _).of_same (State.bump_rings _ _ _) q hqp
        · split
          · rfl
          · split
            · exact endCmd_othersKept s p _ _ q hqp
            · exact (setPhase_othersKept _ p _ q hqp).trans (arriveSystem_standingKept s q hq)
    · rfl

theorem settleHead_ring_of_cur {p : Nat} {c : RingCmd} (h : (s.ring q).cur = some c) : (settleHead s p).ring q = s.ring q := by
  unfold settleHead
  split
  · next hnone hahead =>
    split
    · rfl
    · have hqp : q ≠ p := by
        rintro rfl
        exact Option.some_ne_none c (h.symm.trans hnone)
      exact ((endCmd_othersKept _ p _ _) q hqp).trans (takeHead_othersKept s p q hqp)
  · rfl

/-- A pair has its command at work, which waits for no event: a step of the engine for another pair leaves it so. -/
theorem settlePair_ring_of_cur {p : Nat} {c : RingCmd} (h : (s.ring q).cur = some c) (hq : (s.ring q).standing) :
    (settlePair s p).ring q = s.ring q := by
  have hwait := settleWait_standingKept s p q hq
  rw [settlePair, settleHead_ring_of_cur (hwait.symm ▸ h), hwait]

theorem settlePair_hasWork (p : Nat) (h : hasWork s q = true) : hasWork (settlePair s p) q = true := by
  have hwait := settleWait_standingKept s p q (standing_of_hasWork h)
  have hwork : hasWork (settleWait s p) q = true := (hasWork_congr hwait).trans h
  rw [settlePair]
  unfold settleHead
  split
  · next i b l hnone hahead =>
    split
    · exact hwork
    · by_cases hqp : q = p
      · subst hqp
        have hcur : ((takeHead (settleWait s q) q).ring q).cur = some ⟨i, b, .done 0 0⟩ := by rw [takeHead_ring hahead]
        simp only [hasWork, endCmd, setPhase_cur hcur]
      · rw [hasWork_congr (((endCmd_othersKept _ p _ _) q hqp).trans (takeHead_othersKept _ p q hqp)), hwork]
  · exact hwork

theorem settled_ring_of_cur {c : RingCmd} (l : List Nat) (h : (s.ring q).cur = some c) (hq : (s.ring q).standing) :
    (l.foldl settlePair s).ring q = s.ring q :=
  foldl_keeps (fun u : State => u.ring q = s.ring q) (fun _ _ hy => (settlePair_ring_of_cur (hy.symm ▸ h) (hy.symm ▸ hq)).trans hy) rfl

theorem settled_hasWork (l : List Nat) (h : hasWork s q = true) : hasWork (l.foldl settlePair s) q = true :=
  foldl_keeps (fun u : State => hasWork u q = true) (fun _ p hy => settlePair_hasWork p hy) h

/-- The engine gives its next step to no pair beyond one that has work. -/
theorem find_hasWork_le {n : Nat} (hn : q < n) (h : hasWork s q = true) : ∃ p, (List.range n).find? (hasWork s) = some p ∧ p ≤ q := by
  cases hfind : (List.range n).find? (hasWork s) with
  | none => exact absurd h (List.find?_eq_none.mp hfind q (List.mem_range.mpr hn))
  | some p =>
    obtain ⟨-, -, hleast⟩ := List.find?_range_eq_some.mp hfind
    refine ⟨p, rfl, Nat.le_of_not_lt fun hlt => ?_⟩
    have hidle := hleast q hlt
    rw [h] at hidle
    exact Bool.noConfusion hidle

/-- While a lower-numbered pair has work, the engine does not touch a pair whose command moves memory. -/
theorem engineStep_keeps {r i moved : Nat} {bytes given : List Byte} {held : List (Word64 × Bool)} {bad : Option Nat} (hqr : q < r) (hr : q < 64)
    (hwork : hasWork s q = true) (hcur : (s.ring r).cur = some ⟨i, bytes, .moving moved given held bad⟩) :
    ∃ t, execEngineStep s = .next t ∧ t.ring r = s.ring r := by
  have hstanding : (s.ring r).standing := by
    refine ⟨fun hempty => ?_, fun c hc => ?_⟩
    · exact Option.some_ne_none _ (hcur.symm.trans (congrArg Ring.cur hempty))
    · obtain rfl := Option.some.inj (hcur.symm.trans hc)
      trivial
  have hkept := settled_ring_of_cur (List.range 64) hcur hstanding
  have hwork' := settled_hasWork (List.range 64) hwork
  unfold execEngineStep
  dsimp only
  generalize (List.range 64).foldl settlePair s = u at hkept hwork'
  split
  · next p c st res hend =>
    have hpr : r ≠ p := by
      rintro rfl
      unfold endingPair at hend
      split at hend
      · obtain ⟨x, hx, hp⟩ := Option.map_eq_some_iff.mp hend
        simp only [Prod.mk.injEq] at hp
        rw [hp.1, ended, hkept, hcur] at hx
        simp at hx
      · simp at hend
    exact ⟨_, rfl, (complete_othersKept u p c st res r hpr).trans hkept⟩
  · obtain ⟨p, hfind, hpq⟩ := find_hasWork_le (s := u.setFld fEngineBusy 0) hr hwork'
    rw [hfind]
    exact ⟨_, rfl, (giveStep_othersKept (u.setFld fEngineBusy 0) p r (by omega)).trans hkept⟩

end

end Sys2Proof.Machine

/-!
Ring pairs (13 R330 to R337, R342): their registers, the fetch of a descriptor, completions, the steps of a move, and what ends a command from
outside.
-/
namespace Sys2Proof.Machine

/-! ### The registers of a pair (R332, R334) -/

section
variable {s : State} {r : Nat}

theorem doorbell_taken {tail : Nat} (hen : s.is (fHrgEnable r) = true) (hlt : tail < ringSize s r) : doorbell s r tail = s.setFld (fTail r) tail :=
  if_neg (by simp [hen, Nat.not_le.mpr hlt])

theorem doorbell_refused {tail : Nat} (h : s.is (fHrgEnable r) = false ∨ ringSize s r ≤ tail) : doorbell s r tail = s.mark (fDbErr r) := by
  refine if_pos ?_
  rcases h with h | h <;> simp [h]

theorem specAt_ringCtrl (s : State) (hr : r < 64) : specAt s (ringBase r) = [rw 0 1, rw 1 4 4, rw 16 14] := by
  have hlow : ringBase r < 0x80000 := by unfold ringBase; omega
  have hdead : deadEgress s (ringBase r) = false := by simp [deadEgress, hlow]
  have hspec : regSpec s.fuses.variant (ringBase r) = [rw 0 1, rw 1 4 4, rw 16 14] := by
    have h4 : ringBase r % 4 = 0 := by unfold ringBase; omega
    have h1 : ¬ ringBase r < 0x10000 := by unfold ringBase; omega
    have h2 : ¬ ringBase r < 0x20000 := by unfold ringBase; omega
    have h3 : ¬ ringBase r < 0x30000 := by unfold ringBase; omega
    have h5 : ringBase r < 0x40000 := by unfold ringBase; omega
    have hsub : ringBase r - 0x30000 = r * 0x40 := by unfold ringBase; omega
    have hin : r * 0x40 < 0x1000 := by omega
    have hmod : r * 0x40 % 0x40 = 0 := by omega
    simp only [regSpec, h4, h1, h2, h3, h5, hsub, ringRegs, hin, hmod, ne_eq, not_true_eq_false, if_false, if_true]
  simp [specAt, hdead, hspec]

/-- The word that a write to HRG_CTRL stores (R359). -/
def ctrlStored (v : Word32) : Word32 := ctrlValue v &&& 0x3FFF001F#32

theorem maskOf_ringCtrl : maskOf [rw 0 1, rw 1 4 4, rw 16 14] (· == .rw) = 0x3FFF001F#32 := by decide

theorem execHrgEnable_eq (r : RingIx) (v : Word32) (hrec : s.recovery = false) :
    execHrgEnable r v s = .next (writeRingCtrl s r.val (ringBase r.val) v) := by
  have hr := r.isLt
  have hanswers : answers s (ringBase r.val) = true := by simp [answers, hrec]
  have hmapped : mapped s (ringBase r.val) = true := by rw [mapped, specAt_ringCtrl s hr]; rfl
  have hpair : (ringBase r.val - 0x30000) / 0x40 = r.val := by unfold ringBase; omega
  have hoff : ringBase r.val % 0x40 = 0 := by unfold ringBase; omega
  have hlow : ringBase r.val < 0x80000 := by unfold ringBase; omega
  have hin : 0x30000 ≤ ringBase r.val ∧ ringBase r.val < 0x31000 := by unfold ringBase; omega
  have hsite : ¬ (0x100 ≤ ringBase r.val ∧ ringBase r.val < 0x120) := by omega
  have hne : ringBase r.val ≠ 0x2000 ∧ ringBase r.val ≠ 0x2008 ∧ ringBase r.val ≠ 0x2104 ∧ ringBase r.val ≠ 0x1010C ∧ ringBase r.val ≠ 0x20000 := by
    omega
  obtain ⟨h1, h2, h3, h4, h5⟩ := hne
  have hwrite : writePackage s (ringBase r.val) v = writeRingCtrl s r.val (ringBase r.val) v := by
    rw [writePackage, if_neg h1, if_neg h2, if_neg h3, if_neg hsite, if_neg h4, if_neg h5, if_pos hin]
    simp only [hpair, hoff, if_true]
  rw [execHrgEnable, writeCore, hanswers, hmapped, if_pos hlow, hwrite]
  rfl

/-- Of a pair that is not ACTIVE a write stores the whole register. -/
theorem writeRingCtrl_idle (hr : r < 64) (v : Word32) (hidle : s.is (fRingActive r) = false) :
    writeRingCtrl s r (ringBase r) v =
      if (s.raw (ringBase r)).getLsbD 0 && !v.getLsbD 0 then stopPair (s.setRaw (ringBase r) (ctrlStored v)) r
      else if !(s.raw (ringBase r)).getLsbD 0 && v.getLsbD 0 then (s.setRaw (ringBase r) (ctrlStored v)).setFld (fPhase r) 1
      else s.setRaw (ringBase r) (ctrlStored v) := by
  simp only [writeRingCtrl, specAt_ringCtrl s hr, maskOf_ringCtrl, hidle, Bool.false_eq_true, if_false]
  rfl

theorem ctrlStored_enable (v : Word32) : (ctrlStored v).getLsbD 0 = v.getLsbD 0 := by
  unfold ctrlStored ctrlValue
  split <;> simp

theorem testBit_toNat (x : Word32) (i : Nat) : x.toNat.testBit i = x.getLsbD i := rfl

/-- SIZE_LOG2 outside 4 to 12 stores 4 (R359). -/
theorem ctrlStored_size (v : Word32) :
    bits (ctrlStored v).toNat 1 4 = if bits v.toNat 1 4 < 4 ∨ 12 < bits v.toNat 1 4 then 4 else bits v.toNat 1 4 := by
  have hmask : ∀ i < 4, (0x3FFF001F#32).getLsbD (1 + i) = true := by decide
  have hclear : ∀ i < 4, (~~~0x1E#32 : Word32).getLsbD (1 + i) = false := by decide
  have hfour : ∀ i < 4, (8#32).getLsbD (1 + i) = (4 : Nat).testBit i := by decide
  have hsmall : ∀ i, ¬ i < 4 → (4 : Nat).testBit i = false := fun i hi =>
    Nat.testBit_lt_two_pow (lt_of_lt_of_le (by decide : 4 < 2 ^ 4) (Nat.pow_le_pow_right (by decide) (Nat.not_lt.mp hi)))
  unfold ctrlStored ctrlValue
  split <;> refine Nat.eq_of_testBit_eq fun i => ?_
  · rw [testBit_bits, testBit_toNat]
    by_cases hi : i < 4
    · rw [BitVec.getLsbD_and, BitVec.getLsbD_or, BitVec.getLsbD_and, hmask i hi, hclear i hi, hfour i hi]
      simp [hi]
    · simp [hi, hsmall i hi]
  · rw [testBit_bits, testBit_bits, testBit_toNat, testBit_toNat]
    by_cases hi : i < 4
    · rw [BitVec.getLsbD_and, hmask i hi]
      simp
    · simp [hi]

/-! ### Fields of a pair's registers -/

theorem fHead_sep_fTail (r : Nat) : (fTail r).sep (fHead r) = true := by simp [Fld.sep, fTail, fHead]

theorem fDbErr_sep_fTail (r : Nat) : (fTail r).sep (fDbErr r) = true := Fld.sep_of_addr_ne (by simp [fDbErr]) (by simp [fTail, fDbErr])

theorem bits_one_eq_one (x : Word32) (i : Nat) : (bits x.toNat i 1 == 1) = x.getLsbD i := by
  have hbit : bits x.toNat i 1 = (x.toNat.testBit i).toNat := (Nat.toNat_testBit _ _).symm
  rw [hbit, testBit_toNat]
  cases x.getLsbD i <;> rfl

/-- A bit of a register that has been written whole. -/
theorem State.is_setRaw (s : State) (a i : Nat) (v : Word32) : (s.setRaw a v).is ⟨a, i, 1⟩ = v.getLsbD i := by
  rw [State.is, State.fld, State.raw_setRaw, bits_one_eq_one]

theorem fHrgEnable_sep_fPhase (r : Nat) : (fPhase r).sep (fHrgEnable r) = true := Fld.sep_of_addr_ne (by simp [fHrgEnable]) (by simp [fPhase, fHrgEnable])

theorem fSizeLog_sep_fPhase (r : Nat) : (fPhase r).sep (fSizeLog r) = true := Fld.sep_of_addr_ne (by simp [fSizeLog]) (by simp [fPhase, fSizeLog])

theorem fHrgEnable_sep_fHead (r : Nat) : (fHead r).sep (fHrgEnable r) = true := Fld.sep_of_addr_ne (by simp [fHrgEnable]) (by simp [fHead, fHrgEnable])

theorem State.is_setFld_sep (s : State) {f g : Fld} (h : f.sep g = true) (v : Nat) : (s.setFld f v).is g = s.is g :=
  congrArg (· == 1) (State.fld_setFld_sep s h v)

/-- What is read ahead is dropped, and no command is at work (R334). -/
theorem stopPair_ahead {i : Nat} {b : List Byte} {l : List (Nat × List Byte)} (hahead : (s.ring r).ahead = (i, b) :: l) (hcur : (s.ring r).cur = none) :
    stopPair s r = (s.setFld (fHead r) i).setRing r { s.ring r with ahead := [] } := by
  have hdrop : dropAhead s r = (s.setFld (fHead r) i).setRing r { s.ring r with ahead := [] } := by simp only [dropAhead, hahead]
  have hnone : ((dropAhead s r).ring r).cur = none := by rw [hdrop, State.setRing_ring]; exact hcur
  rw [stopPair]
  dsimp only
  rw [hnone]
  exact hdrop

end

/-! ### The fetch of a descriptor (R335) -/

/-- The pair's next descriptor has been asked for and has come. -/
def fetchedDesc (s : State) (r : Nat) (bytes : List Byte) : State :=
  ((askHost s r (ringAddr s r 0x08 / 64 * 64 + 64 * s.fld (fHead r)) 64 none false).setRing r
    { s.ring r with ahead := (s.ring r).ahead ++ [(s.fld (fHead r), bytes)] }).setFld (fHead r) ((s.fld (fHead r) + 1) % ringSize s r)

theorem execDescriptorFetch_eq {s : State} {r : RingIx} {bytes : List Byte} (hen : s.is (fHrgEnable r.val) = true)
    (hpath : pathHasGroup s r.val = true) (hne : s.fld (fHead r.val) ≠ s.fld (fTail r.val)) (hlen : bytes.length = 64) (hroom : heldDescs s < 64) :
    execDescriptorFetch r bytes s = .next (fetchedDesc s r.val bytes) := by
  simp only [execDescriptorFetch, hen, hpath, hlen, hroom, hne, ne_eq, not_false_eq_true, decide_true, Bool.and_true, if_true]
  rfl

theorem fHrgPath_sep_fHead (r : Nat) : (fHead r).sep (fHrgPath r) = true := Fld.sep_of_addr_ne (by simp [fHrgPath]) (by simp [fHead, fHrgPath])

theorem fetchedDesc_pathOut (s : State) (r : Nat) (bytes : List Byte) :
    pathOut (fetchedDesc s r bytes) r = pathOut s r ++ readsOut s r (ringAddr s r 0x08 / 64 * 64 + 64 * s.fld (fHead r)) 64 := by
  rw [← pathOut_askHost s r _ 64 none false]
  exact pathOut_congr rfl (State.fld_setFld_sep _ (fHrgPath_sep_fHead r) _)

theorem askHost_raw (s : State) (r addr n : Nat) (cmd : Option Nat) (second : Bool) (a : Nat) : (askHost s r addr n cmd second).raw a = s.raw a :=
  State.raw_congr rfl rfl rfl a

theorem fetchedDesc_regs (s : State) (r : Nat) (bytes : List Byte) : regsSame s (fetchedDesc s r bytes) [(fHead r).addr] := by
  refine regsSame_setFld _ _ (fun a _ => ?_) (.head _)
  exact (State.raw_congr (s := askHost s r (ringAddr s r 0x08 / 64 * 64 + 64 * s.fld (fHead r)) 64 none false) rfl rfl rfl a).trans
    (askHost_raw s r _ 64 none false a)

/-! ### What ends a command from outside (R337) -/

section
variable {s : State} {r i : Nat} {bytes : List Byte}

theorem dropReads_frame (s : State) (r : Nat) : { dropReads s r with ctxs := s.ctxs } = s := rfl

theorem hostFails_moving {moved : Nat} {given : List Byte} {held : List (Word64 × Bool)} {bad : Option Nat}
    (hcur : (s.ring r).cur = some ⟨i, bytes, .moving moved given held bad⟩) (hreads : readsHost bytes = true) :
    hostFails s r = endCmd (dropReads s r) r stHostErr moved := by simp [hostFails, hcur, hreads]

theorem hostFails_reading {given later prior got : List Byte} {bad : List Nat}
    (hcur : (s.ring r).cur = some ⟨i, bytes, .reading given later prior got bad⟩) (hreads : readsHost bytes = true) :
    hostFails s r = endCmd (dropReads s r) r stHostErr 0 := by simp [hostFails, hcur, hreads]

theorem execHostReadTimeout_working {r : RingIx} {c : RingCmd} (hcur : (s.ring r.val).cur = some c) :
    execHostReadTimeout r s = .next (hostFails s r.val) := by simp only [execHostReadTimeout, hcur]

/-- A command at its head ends before it begins. -/
theorem execHostReadTimeout_head {r : RingIx} {op : Nat} {b : List Byte} (h : headCommand s r.val op b) (hreads : readsHost b = true) :
    execHostReadTimeout r s = .next (endCmd (begun s r.val op) r.val stHostErr 0) := by
  obtain ⟨i, l, hahead⟩ := ahead_of_head h.2.1
  have hcur : (s.ring r.val).cur = none := h.1
  simp only [execHostReadTimeout, hcur, hahead, hreads, if_true, headCommand_op h]
  exact serve_of_headCommand h _

/-! ### LOCKED is reached, or waited for too long (09 R235) -/

theorem setMode_loading (s : State) : (setMode s).is fLoading = false := by
  have h0 : (s.setFld fLoading 0).is fLoading = false := by simp [State.is, State.fld_setFld _ _ _ (by decide : fLoading.lo + fLoading.w ≤ 32)]
  unfold setMode
  dsimp only
  split <;> rwa [State.is_setFld_sep _ (by decide), State.is_setFld_sep _ (by decide), State.is_setFld_sep _ (by decide), State.is_setFld_sep _ (by decide)]

theorem setMode_regime {s : State} {im : Image} (h : s.image = some im) : (setMode s).fld fRegime = if im.locked = true then 1 else 2 := by
  unfold setMode
  dsimp only
  rw [h]
  dsimp only
  rw [State.fld_setFld_sep _ (by decide), State.fld_setFld_sep _ (by decide), State.fld_setFld_sep _ (by decide), State.fld_setFld _ _ _ (by decide)]
  cases im.locked <;> rfl

theorem execLoadLockWaitEnd_eq {r : RingIx} {bad : Bool} (h : phaseOf s r.val = some (.waitLock bad)) :
    execLoadLockWaitEnd r s = .next (endCmd (setMode s) r.val (if 7 ≤ s.fld fState then (if bad then stPoison else 0) else stLockPending)
      (s.fld fLoadSection)) := by simp only [execLoadLockWaitEnd, h]

end

/-! ### A completion (R331, R333) -/

/-- From `s` to `t` nothing but registers, pairs and access contexts has changed. -/
def HostPart (s t : State) : Prop := { t with regs := s.regs, rings := s.rings, ctxs := s.ctxs } = s

theorem HostPart.trans {s t u : State} (h : HostPart s t) (k : HostPart t u) : HostPart s u :=
  (congrArg (fun x : State => ({ x with regs := s.regs, rings := s.rings, ctxs := s.ctxs } : State)) k :).trans h

theorem setFld_hostPart (s : State) (f : Fld) (v : Nat) : HostPart s (s.setFld f v) := rfl

theorem setRing_hostPart (s : State) (r : Nat) (v : Ring) : HostPart s (s.setRing r v) := rfl

/-- The completion and its notice wait on the pair's path. -/
def completionSent (s : State) (r : Nat) (c : RingCmd) (status : Nat) (result : Word64) : State :=
  let s1 := hostWrite s r (ringAddr s r 0x10 / 16 * 16 + 16 * c.index) (completionBytes c (s.fld (fPhase r)) status result)
  if bits (opn c.bytes 2 2) 0 1 = 1 then
    reply s1 (s1.fld (fHrgPath r)) [⟨false, BitVec.ofNat 14 (s1.fld (fNoticeStream r)), true, true, false, .notice (noticePayload r c status)⟩]
  else s1

/-- The pair's registers say that a command has ended. -/
def completionNoted (s : State) (r status : Nat) : State := ((s.setFld (fLastStatus r) status).bump (fRingDone r)).setFld (fRingActive r) 0

/-- PHASE is `v` after a wrap. -/
def phaseTurned (s : State) (r : Nat) (wrap : Bool) (v : Nat) : State := if wrap then s.setFld (fPhase r) v else s

/-- The configuration lock is free again where pair r held it. -/
def lockFreed (s : State) (r : Nat) : State :=
  if s.is fEngineLocked && decide (s.fld fEngineLockRing = r) then (s.setFld fEngineLocked 0).setFld fEngineLockRing 0 else s

/-- The pair has no command, and the engine no step. -/
def pairLeft (s : State) (r : Nat) (w : Written) : State :=
  ((s.setRing r { s.ring r with cur := none, compl := some w }).setFld fEngineRing r).setFld fEngineBusy 0

theorem complete_eq (s : State) (r : Nat) (c : RingCmd) (status : Nat) (result : Word64) :
    complete s r c status result = pairLeft (lockFreed (phaseTurned (completionNoted (completionSent s r c status result) r status) r
      (decide (c.index + 1 = ringSize s r)) (1 - s.fld (fPhase r))) r) r
      { addr := ringAddr s r 0x10 / 16 * 16 + 16 * c.index, bytes := completionBytes c (s.fld (fPhase r)) status result } := by
  unfold complete phaseTurned
  simp only [decide_eq_true_eq]
  rfl

section
variable (s : State) (r : Nat)

theorem completionSent_hostOnly (c : RingCmd) (status : Nat) (result : Word64) : HostOnly r s (completionSent s r c status result) := by
  unfold completionSent
  dsimp only
  split
  · exact (hostWrite_hostOnly s r _ _).trans (reply_hostOnly _ r _ _)
  · exact hostWrite_hostOnly s r _ _

theorem hostWrite_fld (addr : Nat) (bytes : List Byte) (f : Fld) : (hostWrite s r addr bytes).fld f = s.fld f := State.fld_congr rfl rfl rfl f

theorem reply_fld (x : Nat) (l : List Flit) (f : Fld) : (reply s x l).fld f = s.fld f := State.fld_congr rfl rfl rfl f

theorem completionSent_fld (c : RingCmd) (status : Nat) (result : Word64) (f : Fld) : (completionSent s r c status result).fld f = s.fld f := by
  unfold completionSent
  dsimp only
  split
  · rw [reply_fld, hostWrite_fld]
  · exact hostWrite_fld s r _ _ f

theorem completionSent_ring (c : RingCmd) (status : Nat) (result : Word64) (q : Nat) : (completionSent s r c status result).ring q = s.ring q := by
  unfold completionSent
  dsimp only
  split <;> rfl

theorem completionSent_pathOut (c : RingCmd) (status : Nat) (result : Word64) :
    pathOut (completionSent s r c status result) r = pathOut s r ++
      writeFlits (ringAddr s r 0x10 / 16 * 16 + 16 * c.index) (completionBytes c (s.fld (fPhase r)) status result) ++
      (if bits (opn c.bytes 2 2) 0 1 = 1 then
        [⟨false, BitVec.ofNat 14 (s.fld (fNoticeStream r)), true, true, false, .notice (noticePayload r c status)⟩] else []) := by
  unfold completionSent
  dsimp only
  split
  · rw [pathOut_reply, pathOut_hostWrite, hostWrite_fld]
  · rw [pathOut_hostWrite, List.append_nil]

theorem completionNoted_fld (status : Nat) {f : Fld} (h1 : (fLastStatus r).sep f = true) (h2 : (fRingDone r).sep f = true)
    (h3 : (fRingActive r).sep f = true) : (completionNoted s r status).fld f = s.fld f := by
  rw [completionNoted, State.fld_setFld_sep _ h3, State.fld_bump_sep _ h2, State.fld_setFld_sep _ h1]

theorem phaseTurned_fld (wrap : Bool) (v : Nat) {f : Fld} (h : (fPhase r).sep f = true) : (phaseTurned s r wrap v).fld f = s.fld f := by
  unfold phaseTurned
  split
  · exact State.fld_setFld_sep s h v
  · rfl

theorem lockFreed_fld {f : Fld} (h1 : fEngineLocked.sep f = true) (h2 : fEngineLockRing.sep f = true) : (lockFreed s r).fld f = s.fld f := by
  unfold lockFreed
  split
  · rw [State.fld_setFld_sep _ h2, State.fld_setFld_sep _ h1]
  · rfl

theorem pairLeft_fld (w : Written) {f : Fld} (h1 : fEngineRing.sep f = true) (h2 : fEngineBusy.sep f = true) : (pairLeft s r w).fld f = s.fld f := by
  rw [pairLeft, State.fld_setFld_sep _ h2, State.fld_setFld_sep _ h1]
  rfl

theorem phaseTurned_fPhase (wrap : Bool) (v : Nat) (hv : v ≤ 1) : (phaseTurned s r wrap v).fld (fPhase r) = if wrap then v else s.fld (fPhase r) := by
  unfold phaseTurned
  cases wrap
  · rfl
  · exact (State.fld_setFld s (fPhase r) v (by simp [fPhase])).trans (Nat.mod_eq_of_lt (Nat.lt_succ_of_le hv))

theorem lockFreed_locked (hlocked : s.is fEngineLocked = true) (hpair : s.fld fEngineLockRing = r) : (lockFreed s r).is fEngineLocked = false := by
  have hfreed : lockFreed s r = (s.setFld fEngineLocked 0).setFld fEngineLockRing 0 := if_pos (by simp [hlocked, hpair])
  rw [hfreed, State.is_setFld_sep _ (by decide), State.is, State.fld_setFld _ _ _ (by decide)]
  rfl

/-- The fields of the pair's other registers lie beside those that a completion writes. -/
theorem fields_apart :
    (fLastStatus r).sep (fHrgPath r) = true ∧ (fRingDone r).sep (fHrgPath r) = true ∧ (fRingActive r).sep (fHrgPath r) = true ∧
      (fPhase r).sep (fHrgPath r) = true ∧ (fRingDone r).sep (fLastStatus r) = true ∧ (fRingActive r).sep (fLastStatus r) = true ∧
      (fPhase r).sep (fLastStatus r) = true ∧ (fLastStatus r).sep (fPhase r) = true ∧ (fRingDone r).sep (fPhase r) = true ∧
      (fRingActive r).sep (fPhase r) = true ∧ (fPhase r).sep (fRingActive r) = true := by
  simp [Fld.sep, fLastStatus, fRingDone, fRingActive, fPhase, fHrgPath]

/-- No field of a pair's registers lies in the engine's register. -/
theorem Fld.sep_engine {f g : Fld} (hr : r < 64) (hg : g.lo + g.w ≤ 32) (hf : f.addr = 0x32000) (hga : g.addr < ringBase r + 0x40) : f.sep g = true :=
  Fld.sep_of_addr_ne hg (by rw [hf]; unfold ringBase at hga; omega)

theorem lockFreed_pair {f : Fld} (hr : r < 64) (hf : f.lo + f.w ≤ 32) (ha : f.addr < ringBase r + 0x40) : (lockFreed s r).fld f = s.fld f :=
  lockFreed_fld s r (Fld.sep_engine r hr hf rfl ha) (Fld.sep_engine r hr hf rfl ha)

theorem pairLeft_pair (w : Written) {f : Fld} (hr : r < 64) (hf : f.lo + f.w ≤ 32) (ha : f.addr < ringBase r + 0x40) :
    (pairLeft s r w).fld f = s.fld f := pairLeft_fld s r w (Fld.sep_engine r hr hf rfl ha) (Fld.sep_engine r hr hf rfl ha)

variable {s r} (c : RingCmd) (status : Nat) (result : Word64) (hr : r < 64)
include hr

theorem complete_fld {f : Fld} (hf : f.lo + f.w ≤ 32) (ha : f.addr < ringBase r + 0x40) (h1 : (fLastStatus r).sep f = true)
    (h2 : (fRingDone r).sep f = true) (h3 : (fRingActive r).sep f = true) (h4 : (fPhase r).sep f = true) :
    (complete s r c status result).fld f = s.fld f := by
  rw [complete_eq, pairLeft_pair _ _ _ hr hf ha, lockFreed_pair _ _ hr hf ha, phaseTurned_fld _ _ _ _ h4, completionNoted_fld _ _ _ h1 h2 h3,
    completionSent_fld]

theorem complete_pathOut : pathOut (complete s r c status result) r = pathOut s r ++
    writeFlits (ringAddr s r 0x10 / 16 * 16 + 16 * c.index) (completionBytes c (s.fld (fPhase r)) status result) ++
    (if bits (opn c.bytes 2 2) 0 1 = 1 then
      [⟨false, BitVec.ofNat 14 (s.fld (fNoticeStream r)), true, true, false, .notice (noticePayload r c status)⟩] else []) := by
  obtain ⟨h1, h2, h3, h4, -⟩ := fields_apart r
  have hpath : (complete s r c status result).fld (fHrgPath r) = (completionSent s r c status result).fld (fHrgPath r) :=
    (complete_fld c status result hr (by simp [fHrgPath]) (by simp [fHrgPath]) h1 h2 h3 h4).trans (completionSent_fld s r c status result _).symm
  have hctxs : (complete s r c status result).ctxs = (completionSent s r c status result).ctxs := by
    rw [complete_eq]
    unfold pairLeft lockFreed phaseTurned completionNoted
    split <;> split <;> rfl
  rw [pathOut_congr hctxs hpath, completionSent_pathOut]

theorem complete_active : (complete s r c status result).is (fRingActive r) = false := by
  obtain ⟨-, -, -, -, -, -, -, -, -, -, hphase⟩ := fields_apart r
  have hfit : (fRingActive r).lo + (fRingActive r).w ≤ 32 := by simp [fRingActive]
  have haddr : (fRingActive r).addr < ringBase r + 0x40 := by simp [fRingActive]
  rw [State.is, complete_eq, pairLeft_pair _ _ _ hr hfit haddr, lockFreed_pair _ _ hr hfit haddr, phaseTurned_fld _ _ _ _ hphase, completionNoted,
    State.fld_setFld _ _ _ hfit]
  rfl

theorem complete_lastStatus : (complete s r c status result).fld (fLastStatus r) = status % 2 ^ 16 := by
  obtain ⟨-, -, -, -, hdone, hactive, hphase, -⟩ := fields_apart r
  have hfit : (fLastStatus r).lo + (fLastStatus r).w ≤ 32 := by simp [fLastStatus]
  have haddr : (fLastStatus r).addr < ringBase r + 0x40 := by simp [fLastStatus]
  rw [complete_eq, pairLeft_pair _ _ _ hr hfit haddr, lockFreed_pair _ _ hr hfit haddr, phaseTurned_fld _ _ _ _ hphase, completionNoted,
    State.fld_setFld_sep _ hactive, State.fld_bump_sep _ hdone, State.fld_setFld _ _ _ hfit]
  rfl

theorem complete_phase : (complete s r c status result).fld (fPhase r) =
    if c.index + 1 = ringSize s r then 1 - s.fld (fPhase r) else s.fld (fPhase r) := by
  obtain ⟨-, -, -, -, -, -, -, h1, h2, h3, -⟩ := fields_apart r
  have hfit : (fPhase r).lo + (fPhase r).w ≤ 32 := by simp [fPhase]
  have haddr : (fPhase r).addr < ringBase r + 0x40 := by simp [fPhase]
  rw [complete_eq, pairLeft_pair _ _ _ hr hfit haddr, lockFreed_pair _ _ hr hfit haddr, phaseTurned_fPhase _ _ _ _ (Nat.sub_le _ _),
    completionNoted_fld _ _ _ h1 h2 h3, completionSent_fld]
  simp only [decide_eq_true_eq]

theorem complete_locked (hlocked : s.is fEngineLocked = true) (hpair : s.fld fEngineLockRing = r) :
    (complete s r c status result).is fEngineLocked = false := by
  have hfar : ∀ f g : Fld, g.lo + g.w ≤ 32 → g.addr = 0x32000 → f.addr < ringBase r + 0x40 → f.sep g = true := fun f g hg hga hfa =>
    Fld.sep_of_addr_ne hg (by unfold ringBase at hfa; omega)
  have hkept : ∀ g : Fld, g.lo + g.w ≤ 32 → g.addr = 0x32000 → (phaseTurned (completionNoted (completionSent s r c status result) r status) r
      (decide (c.index + 1 = ringSize s r)) (1 - s.fld (fPhase r))).fld g = s.fld g := fun g hg hga => by
    rw [phaseTurned_fld _ _ _ _ (hfar (fPhase r) g hg hga (by simp [fPhase])),
      completionNoted_fld _ _ _ (hfar (fLastStatus r) g hg hga (by simp [fLastStatus])) (hfar (fRingDone r) g hg hga (by simp [fRingDone]))
        (hfar (fRingActive r) g hg hga (by simp [fRingActive])), completionSent_fld]
  rw [complete_eq, State.is, pairLeft_fld _ _ _ (by decide) (by decide)]
  exact lockFreed_locked _ r ((congrArg (· == 1) (hkept fEngineLocked (by decide) rfl)).trans hlocked)
    ((hkept fEngineLockRing (by decide) rfl).trans hpair)

omit hr in
theorem complete_ring : (complete s r c status result).ring r =
    { s.ring r with cur := none, compl := some ⟨ringAddr s r 0x10 / 16 * 16 + 16 * c.index, completionBytes c (s.fld (fPhase r)) status result, false⟩ } := by
  have hsame : (lockFreed (phaseTurned (completionNoted (completionSent s r c status result) r status) r
      (decide (c.index + 1 = ringSize s r)) (1 - s.fld (fPhase r))) r).ring r = s.ring r := by
    rw [← completionSent_ring s r c status result r]
    unfold lockFreed phaseTurned completionNoted
    split <;> split <;> rfl
  rw [complete_eq]
  exact (State.setRing_ring _ r _).trans (by rw [hsame])

omit hr in
theorem complete_hostPart : HostPart s (complete s r c status result) := by
  have hnoted : ∀ y : State, HostPart y (completionNoted y r status) := fun y =>
    ((setFld_hostPart y _ _).trans (setFld_hostPart _ _ _)).trans (setFld_hostPart _ _ _)
  have hturned : ∀ (y : State) (b : Bool) (v : Nat), HostPart y (phaseTurned y r b v) := fun y b v => by
    cases b
    · exact rfl
    · exact setFld_hostPart y _ _
  have hfreed : ∀ y : State, HostPart y (lockFreed y r) := fun y => by
    unfold lockFreed
    split
    · exact (setFld_hostPart y _ _).trans (setFld_hostPart _ _ _)
    · exact rfl
  have hleft : ∀ (y : State) (w : Written), HostPart y (pairLeft y r w) := fun y w =>
    ((setRing_hostPart y r _).trans (setFld_hostPart _ _ _)).trans (setFld_hostPart _ _ _)
  rw [complete_eq]
  exact ((((HostPart.trans (completionSent_hostOnly s r c status result).frame (hnoted _)).trans (hturned _ _ _)).trans (hfreed _)).trans (hleft _ _))

end

/-! ### The engine works for one pair alone (R335) -/

section
variable {s : State} {r : Nat} {c : RingCmd}

theorem settlePair_idle {q : Nat} (hcur : (s.ring q).cur = none) (hahead : (s.ring q).ahead = []) : settlePair s q = s := by
  simp [settlePair, settleWait, phaseOf, settleHead, hcur, hahead]

theorem settlePair_working (hcur : (s.ring r).cur = some c) (hstanding : (s.ring r).standing) : settlePair s r = s := by
  have hwait : settleWait s r = s := by
    have hphase := hstanding.2 c hcur
    unfold settleWait phaseOf
    rw [hcur]
    cases hp : c.phase <;> simp_all
  rw [settlePair, hwait]
  simp [settleHead, hcur]

theorem settled_onlyPair (honly : onlyPair s r) (hcur : (s.ring r).cur = some c) (hstanding : (s.ring r).standing) :
    (List.range 64).foldl settlePair s = s := by
  have hall : ∀ q, q < 64 → settlePair s q = s := fun q hq => by
    by_cases hqr : q = r
    · rw [hqr]
      exact settlePair_working hcur hstanding
    · obtain ⟨hnone, hempty⟩ := honly q hq hqr
      exact settlePair_idle hnone hempty
  have hlist : ∀ l : List Nat, (∀ q ∈ l, q < 64) → l.foldl settlePair s = s := by
    intro l
    induction l with
    | nil => exact fun _ => rfl
    | cons q l ih =>
      intro hl
      rw [List.foldl_cons, hall q (hl q List.mem_cons_self)]
      exact ih fun x hx => hl x (List.mem_cons_of_mem q hx)
  exact hlist _ fun q hq => List.mem_range.mp hq

theorem find_hasWork_onlyPair (honly : onlyPair s r) (hr : r < 64) (hwork : hasWork s r = true) : (List.range 64).find? (hasWork s) = some r := by
  refine List.find?_range_eq_some.mpr ⟨hwork, List.mem_range.mpr hr, fun q hq => ?_⟩
  obtain ⟨hnone, hempty⟩ := honly q (by omega) (by omega)
  simp [hasWork, hnone, hempty]

/-- A step ends, and the next goes to the only pair that has work. -/
theorem engineStep_gives (honly : onlyPair s r) (hr : r < 64) (hcur : (s.ring r).cur = some c) (hstanding : (s.ring r).standing)
    (hwork : hasWork s r = true) (hend : endingPair s = none) : execEngineStep s = .next (giveStep (s.setFld fEngineBusy 0) r) := by
  have hfind : (List.range 64).find? (hasWork (s.setFld fEngineBusy 0)) = some r := find_hasWork_onlyPair honly hr hwork
  simp only [execEngineStep, settled_onlyPair honly hcur hstanding, hend, hfind]

/-- Only the pair itself can have a command that has ended. -/
theorem endingPair_onlyPair (honly : onlyPair s r) {x : Nat × RingCmd × Nat × Word64} (h : endingPair s = some x) :
    ∃ y, ended s r = some y ∧ x = (r, y) := by
  unfold endingPair at h
  split at h
  · obtain ⟨y, hy, rfl⟩ := Option.map_eq_some_iff.mp h
    have hlt : s.fld fEngineRing < 64 := Nat.mod_lt _ (by decide)
    have hr : s.fld fEngineRing = r := by
      by_contra hne
      obtain ⟨hnone, -⟩ := honly _ hlt hne
      simp [ended, hnone] at hy
    rw [hr] at hy ⊢
    exact ⟨y, hy, rfl⟩
  · simp at h

/-- The step of a command that has ended ends with its completion. -/
theorem engineStep_completes {i st : Nat} {bytes : List Byte} {res : Word64} (honly : onlyPair s r) (hr : r < 64)
    (hcur : (s.ring r).cur = some ⟨i, bytes, .done st res⟩) :
    ∃ u, (u = s ∨ u = s.setFld fEngineBusy 0) ∧ execEngineStep s = .next (complete u r ⟨i, bytes, .done st res⟩ st res) := by
  have hstanding : (s.ring r).standing := standing_of_hasWork (by simp [hasWork, hcur])
  have hended : ended s r = some (⟨i, bytes, .done st res⟩, st, res) := by simp [ended, hcur]
  cases hend : endingPair s with
  | none =>
    have hwork : hasWork s r = true := by simp [hasWork, hcur]
    refine ⟨s.setFld fEngineBusy 0, .inr rfl, ?_⟩
    rw [engineStep_gives honly hr hcur hstanding hwork hend]
    have hcur' : ((s.setFld fEngineBusy 0).ring r).cur = some ⟨i, bytes, .done st res⟩ := hcur
    simp only [giveStep, hcur']
  | some x =>
    obtain ⟨y, hy, rfl⟩ := endingPair_onlyPair honly hend
    obtain rfl := Option.some.inj (hended.symm.trans hy)
    refine ⟨s, .inl rfl, ?_⟩
    simp only [execEngineStep, settled_onlyPair honly hcur hstanding, hend]

end

end Sys2Proof.Machine

/-!
A step of READ_MEM out of a cluster store (13 R335, R341), and what a refused command leaves.
-/
namespace Sys2Proof.Machine

/-! ### Words of a cluster store -/

section
variable {s : State} {k w : Nat}

/-- An address of cluster store k: its slot of the store window. -/
theorem placeOf_store_iff {a : Nat} : placeOf s a = .store k w ↔
    0x100000000 ≤ a ∧ a < 0x140000000 ∧ (a - 0x100000000) / 0x100000 % 64 < 32 ∧
      k = 32 * ((a - 0x100000000) / 0x100000 / 64) + (a - 0x100000000) / 0x100000 % 64 ∧ w = a % 0x100000 / 8 := by
  unfold placeOf
  dsimp only
  split_ifs <;> simp <;> omega

/-- Clusters of different slots are different. -/
theorem slot_eq {x y : Nat} (hx : x / 0x100000 % 64 < 32) (hy : y / 0x100000 % 64 < 32)
    (h : 32 * (x / 0x100000 / 64) + x / 0x100000 % 64 = 32 * (y / 0x100000 / 64) + y / 0x100000 % 64) : x / 0x100000 = y / 0x100000 := by omega

theorem slot_between {x d n : Nat} (h : x / 0x100000 = (x + n - 1) / 0x100000) (hd : 8 * d < n) : (x + 8 * d) / 0x100000 = x / 0x100000 := by omega

theorem slot_word {x d : Nat} (hx : x % 8 = 0) (h : (x + 8 * d) / 0x100000 = x / 0x100000) :
    (x + 8 * d) % 0x100000 / 8 = x % 0x100000 / 8 + d := by omega

theorem storeBase_mod (x : Nat) : (0x100000000 + x) % 0x100000 = x % 0x100000 := by omega

/-- The same by the offset within the store window. -/
theorem placeOf_store_offset_iff {x : Nat} : placeOf s (0x100000000 + x) = .store k w ↔
    x < 0x40000000 ∧ x / 0x100000 % 64 < 32 ∧ k = 32 * (x / 0x100000 / 64) + x / 0x100000 % 64 ∧ w = x % 0x100000 / 8 := by
  rw [placeOf_store_iff, Nat.add_sub_cancel_left, storeBase_mod]
  have hlow : 0x100000000 ≤ 0x100000000 + x := Nat.le_add_right _ _
  have hhigh : 0x100000000 + x < 0x140000000 ↔ x < 0x40000000 := by omega
  rw [hhigh]
  exact and_iff_right hlow

/-- A range that begins in a cluster store lies in it whole. -/
theorem placeOf_in_range {a n d : Nat} (hrange : rangeOk s a n true = true) (hplace : placeOf s a = .store k w) (ha : a % 8 = 0) (hd : 8 * d < n) :
    placeOf s (a + 8 * d) = .store k (w + d) := by
  obtain ⟨x, rfl⟩ := Nat.exists_eq_add_of_le (placeOf_store_iff.mp hplace).1
  rw [rangeOk, Bool.and_eq_true_iff, hplace] at hrange
  obtain ⟨-, hend⟩ := hrange
  have hlast' : 0x100000000 + x + n - 1 = 0x100000000 + (x + n - 1) := by rw [Nat.add_assoc, Nat.add_sub_assoc (by omega)]
  rw [hlast'] at hend
  cases hlast : placeOf s (0x100000000 + (x + n - 1)) with
  | store j v =>
    rw [hlast] at hend
    obtain rfl : k = j := of_decide_eq_true hend
    obtain ⟨-, h3, h4, h5⟩ := placeOf_store_offset_iff.mp hplace
    obtain ⟨g2, g3, g4, -⟩ := placeOf_store_offset_iff.mp hlast
    have hslot := slot_between (slot_eq h3 g3 (h4.symm.trans g4)) hd
    have hx : x % 8 = 0 := by omega
    rw [Nat.add_assoc]
    refine placeOf_store_offset_iff.mpr ⟨by omega, hslot.symm ▸ h3, hslot.symm ▸ h4, ?_⟩
    rw [slot_word hx hslot, h5]
  | tile m v => rw [hlast] at hend; simp at hend
  | cache m v => rw [hlast] at hend; simp at hend
  | none => rw [hlast] at hend; simp at hend

/-- Words read from a cluster store one after another change nothing. -/
theorem pkgWords_store {n a : Nat} (h : ∀ j, j < n → placeOf s (a + 8 * j) = .store k (w + j)) :
    pkgWords n s a = ((List.range n).map (fun j => storeRead s k (w + j)), s) := by
  induction n generalizing a w with
  | zero => rfl
  | succ n ih =>
    have hfirst : busRead s a = some ((storeRead s k w).1, (storeRead s k w).2, s) := by
      have hplace : placeOf s a = .store k w := h 0 (Nat.succ_pos n)
      rw [busRead, hplace]
    have hrest : pkgWords n s (a + 8) = ((List.range n).map (fun j => storeRead s k (w + 1 + j)), s) := ih fun j hj => by
      have hj' := h (j + 1) (Nat.succ_lt_succ hj)
      rwa [Nat.mul_add, Nat.mul_one, Nat.add_comm (8 * j) 8, ← Nat.add_assoc, Nat.add_comm j 1, ← Nat.add_assoc] at hj'
    simp only [pkgWords, hfirst, hrest]
    rw [List.range_succ_eq_map, List.map_cons, List.map_map]
    simp only [Nat.add_zero]
    refine congrArg (fun l => ((storeRead s k w) :: l, s)) (List.map_congr_left fun j _ => ?_)
    simp only [Function.comp, Nat.succ_eq_add_one, Nat.add_assoc, Nat.add_comm 1 j]

end

/-- The first of the words that `f` gives of which `p` holds. -/
theorem findIdx?_map_range {α : Type} (f : Nat → α) (p : α → Bool) (n : Nat) :
    ((List.range n).map f).findIdx? p = (List.range n).find? (fun j => p (f j)) := by
  cases hfind : (List.range n).find? (fun j => p (f j)) with
  | none =>
    refine List.findIdx?_eq_none_iff.mpr fun x hx => ?_
    obtain ⟨j, hj, rfl⟩ := List.mem_map.mp hx
    simpa using List.find?_eq_none.mp hfind j hj
  | some i =>
    obtain ⟨hp, hi, hleast⟩ := List.find?_range_eq_some.mp hfind
    refine List.findIdx?_eq_some_iff_getElem.mpr ⟨by simpa using hi, by simpa using hp, fun j hj => ?_⟩
    simpa using hleast j hj

/-! ### A step of READ_MEM -/

section
variable {s : State} {r i moved k w n : Nat} {bytes given : List Byte} {bad p : Option Nat}

/-- The words that the step reads. -/
def stepWords (s : State) (k w moved n : Nat) : List (Word64 × Bool) := (List.range (n / 8)).map (fun j => storeRead s k (w + moved / 8 + j))

theorem stepWords_length (s : State) (k w moved n : Nat) : (stepWords s k w moved n).length = n / 8 := by simp [stepWords]

/-- The step's bounds: whole words, within 256 KiB and the transfer (R335). -/
structure StepBounds (bytes : List Byte) (moved n : Nat) : Prop where
  start : moved % 262144 = 0
  inside : moved < opn bytes 0x20 4
  size : n = min 262144 (opn bytes 0x20 4 - moved)
  words : opn bytes 0x20 4 % 8 = 0

theorem StepBounds.left (h : StepBounds bytes moved n) : stepLeft moved moved (opn bytes 0x20 4) = n := by
  obtain ⟨hstart, -, hsize, -⟩ := h
  rw [stepLeft, hstart, hsize, Nat.sub_zero, Nat.min_comm]

theorem StepBounds.eight (h : StepBounds bytes moved n) : 8 * (n / 8) = n ∧ 0 < n / 8 ∧ moved + n ≤ opn bytes 0x20 4 ∧ 8 * (moved / 8) = moved := by
  obtain ⟨hstart, hinside, hsize, hwords⟩ := h
  omega

theorem moveIn_store (hop : opcodeOf bytes = 0x11) (hwhole : wholeWords bytes = true) (hb : StepBounds bytes moved n)
    (hrange : rangeOk s (opn bytes 0x18 6) (opn bytes 0x20 4) true = true) (hplace : placeOf s (opn bytes 0x18 6) = .store k w) :
    moveIn s bytes moved given [] ⟨0, []⟩ = some (stepWords s k w moved n, given, s) := by
  obtain ⟨height, hpos, hfit, hmoved⟩ := hb.eight
  have hat : ∀ j, j < n / 8 → placeOf s (opn bytes 0x18 6 + moved + 8 * j) = .store k (w + moved / 8 + j) := fun j hj => by
    have hin := placeOf_in_range (d := moved / 8 + j) hrange hplace (wholeWords_aligned hwhole).2 (by omega)
    rwa [Nat.mul_add, hmoved, ← Nat.add_assoc, ← Nat.add_assoc] at hin
  have hfirst : placeOf s (opn bytes 0x18 6 + moved) = .store k (w + moved / 8) := hat 0 hpos
  have htile : tileOf s (opn bytes 0x18 6 + moved) = none := tileOf_of_store hfirst
  have hmay : hostMay s (opn bytes 0x18 6 + moved) = true := by rw [hostMay, htile]
  have hburst : burstLen s (opn bytes 0x18 6 + moved) n = n := by simp [burstLen, htile]
  have hread : readPart s (opn bytes 0x18 6 + moved) (n / 8) ⟨0, []⟩ = (stepWords s k w moved n, s) := by
    rw [readPart, htile]
    exact pkgWords_store hat
  simp only [moveIn, hop, List.length_nil, Nat.mul_zero, Nat.add_zero, hmay, hb.left, hburst, hread]
  rfl

/-- The pair's command holds the words of its step. -/
def stepHeld (s : State) (r moved : Nat) (given : List Byte) (held : List (Word64 × Bool)) (p : Option Nat) : State :=
  setPhase s r (.moving moved given held p)

theorem stepWords_bad (s : State) (k w moved n : Nat) : ((stepWords s k w moved n).findIdx? (fun e => e.2)).map (fun i => moved + 8 * i) =
    ((List.range (n / 8)).find? (fun j => (storeRead s k (w + moved / 8 + j)).2)).map (fun j => moved + 8 * j) := by
  rw [stepWords, findIdx?_map_range]

theorem stepWords_ne_nil (hb : StepBounds bytes moved n) : (stepWords s k w moved n).isEmpty = false := by
  rw [List.isEmpty_eq_false_iff_exists_mem]
  exact ⟨_, List.mem_map.mpr ⟨0, List.mem_range.mpr hb.eight.2.1, rfl⟩⟩

/-- READ_MEM writes on what it holds. -/
theorem readsNext_step {held : List (Word64 × Bool)} (hop : opcodeOf bytes = 0x11) (hne : held.isEmpty = false) : readsNext bytes moved held = false := by
  simp [readsNext, hne, copyOverlaps, hop]

theorem moveOut_step (hop : opcodeOf bytes = 0x11) (hb : StepBounds bytes moved n) {u : State} (l : List (Word64 × Bool)) (hlen : l.length = n / 8) :
    moveOut u r bytes moved l ⟨0, []⟩ = some (n / 8, hostWrite u r (opn bytes 0x10 6 + moved) (wordBytes l)) := by
  obtain ⟨height, hpos, -, -⟩ := hb.eight
  have hne : l.isEmpty = false := by
    rw [List.isEmpty_eq_false_iff]
    rintro rfl
    simp at hlen
    omega
  have hdone : stepDone bytes moved l = moved := by simp [stepDone, readsNext_step hop hne, copyOverlaps, hop]
  have htake : l.take (n / 8) = l := List.take_of_length_le hlen.le
  simp [moveOut, hop, hdone, hb.left, hlen, height, htake]

/-- The words have gone to the host. -/
def stepSent (s : State) (r dst moved : Nat) (given : List Byte) (l : List (Word64 × Bool)) (p : Option Nat) : State :=
  hostWrite (stepHeld s r moved given l p) r (dst + moved) (wordBytes l)

theorem stepHeld_cur {c : RingCmd} (hcur : (s.ring r).cur = some c) (l : List (Word64 × Bool)) (p : Option Nat) :
    ((stepHeld s r moved given l p).ring r).cur = some { c with phase := .moving moved given l p } := setPhase_cur hcur _

theorem stepSent_cur {c : RingCmd} (hcur : (s.ring r).cur = some c) (dst : Nat) (l : List (Word64 × Bool)) (p : Option Nat) :
    ((stepSent s r dst moved given l p).ring r).cur = some { c with phase := .moving moved given l p } := setPhase_cur hcur _

/-- The words of the step are read. -/
theorem workStep_storeRead (hcur : (s.ring r).cur = some ⟨i, bytes, .moving moved given [] bad⟩) (hop : opcodeOf bytes = 0x11)
    (hwhole : wholeWords bytes = true) (hb : StepBounds bytes moved n) (hrange : rangeOk s (opn bytes 0x18 6) (opn bytes 0x20 4) true = true)
    (hplace : placeOf s (opn bytes 0x18 6) = .store k w) (hp : p = bad.or (((stepWords s k w moved n).findIdx? (fun e => e.2)).map (fun i => moved + 8 * i)))
    (fuel : Nat) : workStep s r (fuel + 1) = workStep (stepHeld s r moved given (stepWords s k w moved n) p) r fuel := by
  have hnext : readsNext bytes moved [] = true := rfl
  have hpart : workPart s r ⟨0, []⟩ = some (stepHeld s r moved given (stepWords s k w moved n) p) := by
    simp only [workPart, hcur, movePart, hnext, if_true, moveIn_store hop hwhole hb hrange hplace, Option.map_some, List.nil_append, List.length_nil,
      Nat.mul_zero, Nat.add_zero, ← hp]
    rfl
  have hmid : midStep (stepHeld s r moved given (stepWords s k w moved n) p) r = true := by
    have hheld := stepHeld_cur (moved := moved) (given := given) hcur (stepWords s k w moved n) p
    simp only [midStep, phaseOf_of_cur hheld, hheld, readsNext_step hop (stepWords_ne_nil hb), copyOverlaps, hop]
    simp
  rw [workStep, hpart]
  exact if_pos hmid

/-- And written: the last ones of the transfer. -/
theorem workStep_storeEnds {l : List (Word64 × Bool)} (hcur : (s.ring r).cur = some ⟨i, bytes, .moving moved given [] bad⟩) (hop : opcodeOf bytes = 0x11)
    (hb : StepBounds bytes moved n) (hlen : l.length = n / 8) (hend : opn bytes 0x20 4 ≤ moved + n) (fuel : Nat) :
    workStep (stepHeld s r moved given l p) r (fuel + 1) = endMove (stepSent s r (opn bytes 0x10 6) moved given l p) r (opn bytes 0x20 4) p := by
  obtain ⟨height, hpos, hfit, -⟩ := hb.eight
  have hheld := stepHeld_cur (moved := moved) (given := given) hcur l p
  have hne : l.isEmpty = false := by
    rw [List.isEmpty_eq_false_iff]
    rintro rfl
    simp at hlen
    omega
  have hall : moved + 8 * (n / 8) = opn bytes 0x20 4 := by omega
  have hpart : workPart (stepHeld s r moved given l p) r ⟨0, []⟩ = some (endMove (stepSent s r (opn bytes 0x10 6) moved given l p) r (opn bytes 0x20 4) p) := by
    simp only [workPart, hheld, movePart, readsNext_step hop hne, moveOut_step hop hb l hlen, Bool.false_eq_true, if_false, Option.map_some, hall,
      le_refl, if_true, hop]
    rfl
  have hdone : phaseOf (endMove (stepSent s r (opn bytes 0x10 6) moved given l p) r (opn bytes 0x20 4) p) r = some (.done _ _) :=
    phaseOf_setPhase (stepSent_cur hcur _ l p) _
  rw [workStep, hpart]
  simp [midStep, noteStep, hdone]

/-- Or those of a step between others, which ends. -/
theorem workStep_storeGoesOn {l : List (Word64 × Bool)} (hcur : (s.ring r).cur = some ⟨i, bytes, .moving moved given [] bad⟩)
    (hop : opcodeOf bytes = 0x11) (hb : StepBounds bytes moved n) (hlen : l.length = n / 8) (hmore : moved + 262144 < opn bytes 0x20 4) (fuel : Nat) :
    workStep (stepHeld s r moved given l p) r (fuel + 1) =
      (setPhase (stepSent s r (opn bytes 0x10 6) moved given l p) r (.moving (moved + 262144) given [] p)).setFld fEngineBusy 0 := by
  obtain ⟨height, hpos, hfit, -⟩ := hb.eight
  have hheld := stepHeld_cur (moved := moved) (given := given) hcur l p
  have hne : l.isEmpty = false := by
    rw [List.isEmpty_eq_false_iff]
    rintro rfl
    simp at hlen
    omega
  have hsize : n = 262144 := by have := hb.size; omega
  have hall : moved + 8 * (n / 8) = moved + 262144 := by omega
  have hdrop : l.drop (n / 8) = [] := by rw [← hlen, List.drop_length]
  have hpart : workPart (stepHeld s r moved given l p) r ⟨0, []⟩ =
      some (setPhase (stepSent s r (opn bytes 0x10 6) moved given l p) r (.moving (moved + 262144) given [] p)) := by
    simp only [workPart, hheld, movePart, readsNext_step hop hne, moveOut_step hop hb l hlen, Bool.false_eq_true, if_false, Option.map_some, hall,
      Nat.not_le.mpr hmore, hdrop]
    rfl
  have hcur' := setPhase_cur (stepSent_cur (moved := moved) (given := given) hcur (opn bytes 0x10 6) l p) (.moving (moved + 262144) given [] p)
  have hstart : (moved + 262144) % 262144 = 0 := by have := hb.start; omega
  have hmid : midStep (setPhase (stepSent s r (opn bytes 0x10 6) moved given l p) r (.moving (moved + 262144) given [] p)) r = false := by
    have hnext : readsNext bytes (moved + 262144) [] = true := rfl
    simp only [midStep, phaseOf_of_cur hcur', hcur', stepDone, hnext, if_true, List.length_nil, Nat.mul_zero, Nat.add_zero, hstart]
    simp
  rw [workStep, hpart]
  dsimp only
  rw [hmid, if_neg Bool.false_ne_true, noteStep, phaseOf_of_cur hcur', hmid]
  rfl

theorem stepSent_hostOnly (s : State) (r dst moved : Nat) (given : List Byte) (l : List (Word64 × Bool)) (p : Option Nat) :
    HostOnly r s (stepSent s r dst moved given l p) := (setPhase_hostOnly s r _).trans (hostWrite_hostOnly _ r _ _)

theorem stepSent_pathOut (s : State) (r dst moved : Nat) (given : List Byte) (l : List (Word64 × Bool)) (p : Option Nat) :
    pathOut (stepSent s r dst moved given l p) r = pathOut s r ++ writeFlits (dst + moved) (wordBytes l) := by
  rw [stepSent, pathOut_hostWrite, stepHeld, pathOut_congr (setPhase_ctxs s r _) (setPhase_hostOnly s r _).path]

end

/-! ### Descriptors that are refused (R330, R336) -/

section
variable {s : State} {r op : Nat} {b : List Byte} (hcur : (s.ring r).cur = none) (hahead : ((s.ring r).ahead.head?).map (fun e => e.2) = some b)
  (hop : opcodeOf b = op) (hserves : engineServes s r = true)
include hcur hahead hop hserves

theorem serve_unsound (hvalid : validDesc b = false) (run : State → List Byte → State) : serve s r op run = .next (endCmd (takeHead s r) r stOpcode 0) := by
  simp [serve, headDesc_of_served hcur hahead hop hserves, hvalid]

theorem serve_locked (hvalid : validDesc b = true) (hx : exclusive op = true) (hlocked : s.is fEngineLocked = true) (hpair : s.fld fEngineLockRing ≠ r)
    (run : State → List Byte → State) : serve s r op run = .next (endCmd (takeHead s r) r stBusy 0) := by
  simp [serve, headDesc_of_served hcur hahead hop hserves, hvalid, hx, lockedByOther, hlocked, hpair]

end

section
variable {s : State} {r : Nat} {b : List Byte} (hahead : ((s.ring r).ahead.head?).map (fun e => e.2) = some b)
include hahead

theorem takeHead_cur : ∃ i, ((takeHead s r).ring r).cur = some ⟨i, b, .done 0 0⟩ := by
  obtain ⟨i, l, ha⟩ := ahead_of_head hahead
  exact ⟨i, by rw [takeHead_ring ha]⟩

/-- What the engine's registers say when a head has been taken. -/
theorem takeHead_eq : ∃ v, takeHead s r = runStep ((s.setRing r v).mark (fRingActive r)) r := by
  obtain ⟨i, l, ha⟩ := ahead_of_head hahead
  exact ⟨{ s.ring r with ahead := l, cur := some ⟨i, b, .done 0 0⟩ }, by simp only [takeHead, ha]⟩

theorem takeHead_active (hr : r < 64) : (takeHead s r).is (fRingActive r) = true := by
  obtain ⟨v, hv⟩ := takeHead_eq hahead
  have h1 : fEngineBusy.sep (fRingActive r) = true := Fld.sep_engine r hr (by simp [fRingActive]) rfl (by simp [fRingActive])
  have h2 : fEngineRing.sep (fRingActive r) = true := Fld.sep_engine r hr (by simp [fRingActive]) rfl (by simp [fRingActive])
  rw [hv, runStep, State.is_setFld_sep _ h2, State.is, State.fld_mark_sep _ h1]
  exact State.is_mark _ (fRingActive r) (by simp [fRingActive]) rfl

theorem takeHead_lockRing (hr : r < 64) : (takeHead s r).fld fEngineLockRing = s.fld fEngineLockRing := by
  obtain ⟨v, hv⟩ := takeHead_eq hahead
  have hsep : (fRingActive r).sep fEngineLockRing = true := Fld.sep_of_addr_ne (by decide) (by simp only [fRingActive, fEngineLockRing, ringBase]; omega)
  rw [hv, runStep, State.fld_setFld_sep _ (by decide), State.fld_mark_sep _ (by decide), State.fld_mark_sep _ hsep]
  exact State.fld_congr rfl rfl rfl _

end

end Sys2Proof.Machine

/-!
The obligation about ring pairs, clause by clause.
-/
namespace Sys2Proof.Machine

/-! ### A pair's registers -/

section
variable {s : State} {r : RingIx} {v : Word32} (hrec : s.recovery = false)
include hrec

theorem hrgDb_taken (hen : s.is (fHrgEnable r.val) = true) (hlt : bits v.toNat 0 12 < ringSize s r.val) :
    ∃ t, exec (.hrgDb r v) s = .next t ∧ t.fld (fTail r.val) = bits v.toNat 0 12 ∧ t.fld (fHead r.val) = s.fld (fHead r.val) ∧
      t.fld (fDbErr r.val) = s.fld (fDbErr r.val) ∧ regsSame s t [(fTail r.val).addr] ∧ { t with regs := s.regs } = s := by
  have hrun : exec (.hrgDb r v) s = .next (s.setFld (fTail r.val) (bits v.toNat 0 12)) := by
    show execHrgDb r v s = _
    rw [execHrgDb, if_neg (by simp [hrec]), doorbell_taken hen hlt]
  refine ⟨_, hrun, ?_, State.fld_setFld_sep s (fHead_sep_fTail r.val) _, State.fld_setFld_sep s (fDbErr_sep_fTail r.val) _,
    regsSame_setFld _ _ (regsSame.refl s _) (.head _), rfl⟩
  rw [State.fld_setFld _ _ _ (by simp [fTail])]
  exact Nat.mod_eq_of_lt (Nat.mod_lt _ (by decide))

theorem hrgDb_refused (h : s.is (fHrgEnable r.val) = false ∨ ringSize s r.val ≤ bits v.toNat 0 12) :
    ∃ t, exec (.hrgDb r v) s = .next t ∧ t.is (fDbErr r.val) = true ∧ regsSame s t [(fDbErr r.val).addr] ∧ { t with regs := s.regs } = s := by
  have hrun : exec (.hrgDb r v) s = .next (s.mark (fDbErr r.val)) := by
    show execHrgDb r v s = _
    rw [execHrgDb, if_neg (by simp [hrec]), doorbell_refused h]
  exact ⟨_, hrun, State.is_mark _ _ (by simp [fDbErr]) rfl, regsSame_mark _ (regsSame.refl s _) (.head _), rfl⟩

variable (hidle : s.is (fRingActive r.val) = false)
include hidle

/-- ENABLE becomes 1 (R334). -/
theorem hrgEnable_starts (hoff : (s.raw (ringBase r.val)).getLsbD 0 = false) (hon : v.getLsbD 0 = true) :
    ∃ t, exec (.hrgEnable r v) s = .next t ∧ t.is (fHrgEnable r.val) = true ∧ t.is (fPhase r.val) = true ∧
      t.fld (fSizeLog r.val) = (if bits v.toNat 1 4 < 4 ∨ 12 < bits v.toNat 1 4 then 4 else bits v.toNat 1 4) ∧
      regsSame s t [ringBase r.val, (fPhase r.val).addr] ∧ { t with regs := s.regs } = s := by
  have hrun : exec (.hrgEnable r v) s = .next ((s.setRaw (ringBase r.val) (ctrlStored v)).setFld (fPhase r.val) 1) := by
    refine (execHrgEnable_eq r v hrec).trans (congrArg Host.Outcome.next ?_)
    rw [writeRingCtrl_idle r.isLt v hidle, hoff, hon]
    rfl
  refine ⟨_, hrun, ?_, ?_, ?_, regsSame_setFld _ _ (regsSame_setRaw _ _ (regsSame.refl s _) (.head _)) (.tail _ (.head _)), rfl⟩
  · rw [State.is_setFld_sep _ (fHrgEnable_sep_fPhase r.val), fHrgEnable, State.is_setRaw, ctrlStored_enable, hon]
  · exact State.is_mark _ (fPhase r.val) (by simp [fPhase]) rfl
  · rw [State.fld_setFld_sep _ (fSizeLog_sep_fPhase r.val), ← ctrlStored_size, State.fld, fSizeLog]
    exact congrArg (fun w : Word32 => bits w.toNat 1 4) (State.raw_setRaw s (ringBase r.val) (ctrlStored v))

/-- ENABLE becomes 0 while the pair has descriptors read ahead: it goes back to the first (R334). -/
theorem hrgEnable_stops {i : Nat} {b : List Byte} {l : List (Nat × List Byte)} (hwas : (s.raw (ringBase r.val)).getLsbD 0 = true)
    (hoff : v.getLsbD 0 = false) (hahead : (s.ring r.val).ahead = (i, b) :: l) (hcur : (s.ring r.val).cur = none) :
    ∃ t, exec (.hrgEnable r v) s = .next t ∧ t.is (fHrgEnable r.val) = false ∧ (t.ring r.val).ahead = [] ∧ t.fld (fHead r.val) = i % 2 ^ 12 := by
  have hrun : exec (.hrgEnable r v) s = .next (((s.setRaw (ringBase r.val) (ctrlStored v)).setFld (fHead r.val) i).setRing r.val
      { s.ring r.val with ahead := [] }) := by
    refine (execHrgEnable_eq r v hrec).trans (congrArg Host.Outcome.next ?_)
    rw [writeRingCtrl_idle r.isLt v hidle, hwas, hoff]
    exact stopPair_ahead (s := s.setRaw (ringBase r.val) (ctrlStored v)) hahead hcur
  have hfld : ∀ f : Fld, (((s.setRaw (ringBase r.val) (ctrlStored v)).setFld (fHead r.val) i).setRing r.val { s.ring r.val with ahead := [] }).fld f =
      ((s.setRaw (ringBase r.val) (ctrlStored v)).setFld (fHead r.val) i).fld f := fun f => State.fld_congr rfl rfl rfl f
  refine ⟨_, hrun, ?_, ?_, ?_⟩
  · rw [State.is, hfld]
    refine (State.is_setFld_sep _ (fHrgEnable_sep_fHead r.val) i).trans ?_
    rw [fHrgEnable, State.is_setRaw, ctrlStored_enable, hoff]
  · rw [State.setRing_ring]
  · rw [hfld, State.fld_setFld _ _ _ (by simp [fHead])]
    rfl

end

/-- A descriptor is asked for and comes (R335). -/
theorem descriptorFetch_reads {s : State} {r : RingIx} {bytes : List Byte} (hen : s.is (fHrgEnable r.val) = true)
    (hpath : pathHasGroup s r.val = true) (hne : s.fld (fHead r.val) ≠ s.fld (fTail r.val)) (hlen : bytes.length = 64) (hroom : heldDescs s < 64) :
    ∃ t, exec (.descriptorFetch r bytes) s = .next t ∧ (t.ring r.val).ahead = (s.ring r.val).ahead ++ [(s.fld (fHead r.val), bytes)] ∧
      t.fld (fHead r.val) = (s.fld (fHead r.val) + 1) % ringSize s r.val % 2 ^ 12 ∧ regsSame s t [(fHead r.val).addr] ∧
      pathOut t r.val = pathOut s r.val ++ readsOut s r.val (ringAddr s r.val 0x08 / 64 * 64 + 64 * s.fld (fHead r.val)) 64 ∧
      { t with regs := s.regs, rings := s.rings, ctxs := s.ctxs } = s := by
  have hring : ((fetchedDesc s r.val bytes).ring r.val) =
      { s.ring r.val with ahead := (s.ring r.val).ahead ++ [(s.fld (fHead r.val), bytes)] } := State.setRing_ring _ r.val _
  refine ⟨_, execDescriptorFetch_eq hen hpath hne hlen hroom, congrArg Ring.ahead hring, ?_, fetchedDesc_regs s r.val bytes,
    fetchedDesc_pathOut s r.val bytes, ?_⟩
  · rw [fetchedDesc, State.fld_setFld _ _ _ (by simp [fHead])]
    rfl
  · exact (askHost_hostOnly s r.val (ringAddr s r.val 0x08 / 64 * 64 + 64 * s.fld (fHead r.val)) 64 none false).frame

/-! ### Steps of the engine -/

section
variable {s : State} {r : Nat} (hr : r < 64)
include hr

/-- The engine's BUSY is none of a pair's fields. -/
theorem fld_busy_cleared {f : Fld} (hf : f.lo + f.w ≤ 32) (ha : f.addr < ringBase r + 0x40) : (s.setFld fEngineBusy 0).fld f = s.fld f :=
  State.fld_setFld_sep s (Fld.sep_engine r hr hf rfl ha) 0

theorem ringAddr_busy_cleared {o : Nat} (ho : o + 4 < 0x40) : ringAddr (s.setFld fEngineBusy 0) r o = ringAddr s r o := by
  rw [ringAddr, ringAddr, fld_busy_cleared hr (f := ⟨ringBase r + o, 0, 32⟩) (by simp) (by simp; omega),
    fld_busy_cleared hr (f := ⟨ringBase r + o + 4, 0, 16⟩) (by simp) (by simp; omega)]

/-- The completion of a command that has ended (R331, R333). -/
theorem complete_serves {i st : Nat} {bytes : List Byte} {res : Word64} {u : State} (hu : u = s ∨ u = s.setFld fEngineBusy 0) :
    pathOut (complete u r ⟨i, bytes, .done st res⟩ st res) r = pathOut s r ++
        writeFlits (ringAddr s r 0x10 / 16 * 16 + 16 * i) (completionBytes ⟨i, bytes, .done st res⟩ (s.fld (fPhase r)) st res) ++
        (if bits (opn bytes 2 2) 0 1 = 1 then [⟨false, BitVec.ofNat 14 (s.fld (fNoticeStream r)), true, true, false,
          .notice (noticePayload r ⟨i, bytes, .done st res⟩ st)⟩] else []) ∧
      (complete u r ⟨i, bytes, .done st res⟩ st res).fld (fPhase r) =
        (if i + 1 = ringSize s r then 1 - s.fld (fPhase r) else s.fld (fPhase r)) ∧
      (s.is fEngineLocked = true → s.fld fEngineLockRing = r → (complete u r ⟨i, bytes, .done st res⟩ st res).is fEngineLocked = false) := by
  have hphase : u.fld (fPhase r) = s.fld (fPhase r) := by
    rcases hu with rfl | rfl
    · rfl
    · exact fld_busy_cleared hr (by simp [fPhase]) (by simp [fPhase])
  have hsize : ringSize u r = ringSize s r := by
    rcases hu with rfl | rfl
    · rfl
    · exact congrArg (2 ^ ·) (fld_busy_cleared hr (f := fSizeLog r) (by simp [fSizeLog]) (by simp [fSizeLog]))
  have haddr : ringAddr u r 0x10 = ringAddr s r 0x10 := by
    rcases hu with rfl | rfl
    · rfl
    · exact ringAddr_busy_cleared hr (by decide)
  have hstream : u.fld (fNoticeStream r) = s.fld (fNoticeStream r) := by
    rcases hu with rfl | rfl
    · rfl
    · exact fld_busy_cleared hr (by simp [fNoticeStream]) (by simp [fNoticeStream])
  have hout : pathOut u r = pathOut s r := by
    rcases hu with rfl | rfl
    · rfl
    · exact pathOut_congr rfl (fld_busy_cleared hr (by simp [fHrgPath]) (by simp [fHrgPath]))
  have hlock : u.is fEngineLocked = s.is fEngineLocked ∧ u.fld fEngineLockRing = s.fld fEngineLockRing := by
    rcases hu with rfl | rfl
    · exact ⟨rfl, rfl⟩
    · exact ⟨State.is_setFld_sep s (by decide) 0, State.fld_setFld_sep s (by decide) 0⟩
  refine ⟨?_, ?_, fun hlocked hpair => ?_⟩
  · rw [complete_pathOut _ st res hr, hphase, haddr, hstream, hout]
  · rw [complete_phase _ st res hr, hphase, hsize]
  · exact complete_locked _ st res hr (hlock.1.trans hlocked) (hlock.2.trans hpair)

/-- A command that has ended: ENGINE_STEP completes it. -/
theorem engineStep_ends {i st : Nat} {bytes : List Byte} {res : Word64} (hcur : (s.ring r).cur = some ⟨i, bytes, .done st res⟩) (honly : onlyPair s r) :
    ∃ t, exec .engineStep s = .next t ∧
      pathOut t r = pathOut s r ++
        writeFlits (ringAddr s r 0x10 / 16 * 16 + 16 * i) (completionBytes ⟨i, bytes, .done st res⟩ (s.fld (fPhase r)) st res) ++
        (if bits (opn bytes 2 2) 0 1 = 1 then [⟨false, BitVec.ofNat 14 (s.fld (fNoticeStream r)), true, true, false,
          .notice (noticePayload r ⟨i, bytes, .done st res⟩ st)⟩] else []) ∧
      (t.ring r).cur = none ∧ (t.ring r).ahead = (s.ring r).ahead ∧ t.is (fRingActive r) = false ∧
      t.fld (fLastStatus r) = st % 2 ^ 16 ∧ t.fld (fPhase r) = (if i + 1 = ringSize s r then 1 - s.fld (fPhase r) else s.fld (fPhase r)) ∧
      (s.is fEngineLocked = true → s.fld fEngineLockRing = r → t.is fEngineLocked = false) ∧
      { t with regs := s.regs, rings := s.rings, ctxs := s.ctxs } = s := by
  obtain ⟨u, hu, hexec⟩ := engineStep_completes honly hr hcur
  obtain ⟨hout, hphase, hlock⟩ := complete_serves (i := i) (st := st) (bytes := bytes) (res := res) hr hu
  have hring : u.ring r = s.ring r := by rcases hu with rfl | rfl <;> rfl
  have hpart : HostPart s u := by
    rcases hu with rfl | rfl
    · exact rfl
    · exact setFld_hostPart s _ _
  refine ⟨_, hexec, hout, by rw [complete_ring], by rw [complete_ring, hring],
    complete_active _ st res hr, complete_lastStatus _ st res hr, hphase, hlock, hpart.trans (complete_hostPart _ st res)⟩

end

/-- The state in which the engine gives its step to pair r. -/
def stepGiven (s : State) (r : Nat) : State := runStep (s.setFld fEngineBusy 0) r

theorem stepGiven_hostOnly (s : State) (r : Nat) : HostOnly r s (stepGiven s r) :=
  ((HostOnly.refl r s).setFld (engineField_mem rfl) 0).trans (runStep_hostOnly _ r)

theorem stepGiven_pathOut (s : State) (r : Nat) : pathOut (stepGiven s r) r = pathOut s r := pathOut_congr rfl (stepGiven_hostOnly s r).path

theorem storeRead_congr {s t : State} (h : t.clusters = s.clusters) (k w : Nat) : storeRead t k w = storeRead s k w := by
  rw [storeRead, storeRead, State.cluster, State.cluster, h]

theorem stepWords_congr {s t : State} (h : t.clusters = s.clusters) (k w moved n : Nat) : stepWords t k w moved n = stepWords s k w moved n :=
  List.map_congr_left fun j _ => storeRead_congr h k (w + moved / 8 + j)

section
variable {s : State} {r i moved k w n : Nat} {bytes given : List Byte} {bad p : Option Nat} (hr : r < 64)
include hr

/-- One step of READ_MEM out of a cluster store: its words go to the host, and the step ends with 256 KiB or with the transfer (R335, R341). -/
theorem engineStep_readsStore (hcur : (s.ring r).cur = some ⟨i, bytes, .moving moved given [] bad⟩) (honly : onlyPair s r) (hend : endingPair s = none)
    (hop : opcodeOf bytes = 0x11) (hwhole : wholeWords bytes = true) (hrange : rangeOk s (opn bytes 0x18 6) (opn bytes 0x20 4) true = true)
    (hplace : placeOf s (opn bytes 0x18 6) = .store k w) (hb : StepBounds bytes moved n)
    (hp : p = bad.or (((stepWords s k w moved n).findIdx? (fun e => e.2)).map (fun i => moved + 8 * i))) :
    ∃ t, exec .engineStep s = .next t ∧
      pathOut t r = pathOut s r ++ writeFlits (opn bytes 0x10 6 + moved) (wordBytes (stepWords s k w moved n)) ∧
      (moved + 262144 < opn bytes 0x20 4 → phaseOf t r = some (.moving (moved + 262144) given [] p)) ∧
      (opn bytes 0x20 4 ≤ moved + 262144 → endsWith t r (if p.isSome = true then stPoison else 0) (opn bytes 0x20 4 + 2 ^ 32 * p.getD 0)) ∧
      t.clusters = s.clusters ∧ t.memTiles = s.memTiles := by
  have hawaits : hasWork s r = true := by simp [hasWork, hcur, awaitsHost, hop]
  have hgives := engineStep_gives honly hr hcur (standing_of_hasWork hawaits) hawaits hend
  have hstep : exec .engineStep s = .next (workStep (stepGiven s r) r 4) := by
    refine hgives.trans (congrArg Host.Outcome.next ?_)
    have hcur' : ((s.setFld fEngineBusy 0).ring r).cur = some ⟨i, bytes, .moving moved given [] bad⟩ := hcur
    simp only [giveStep, hcur']
    rfl
  have hkept := stepGiven_hostOnly s r
  have hwords := stepWords_congr hkept.clusters k w moved n
  have hcur' : ((stepGiven s r).ring r).cur = some ⟨i, bytes, .moving moved given [] bad⟩ := hcur
  have hread := workStep_storeRead (p := p) hcur' hop hwhole hb ((hkept.rangeOk _ _ _).trans hrange) ((hkept.placeOf _).trans hplace)
    (by rw [hwords]; exact hp) 3
  have hlen := stepWords_length (stepGiven s r) k w moved n
  have hsent := stepSent_hostOnly (stepGiven s r) r (opn bytes 0x10 6) moved given (stepWords (stepGiven s r) k w moved n) p
  have hout : pathOut (stepSent (stepGiven s r) r (opn bytes 0x10 6) moved given (stepWords (stepGiven s r) k w moved n) p) r =
      pathOut s r ++ writeFlits (opn bytes 0x10 6 + moved) (wordBytes (stepWords s k w moved n)) := by
    rw [stepSent_pathOut, hwords, stepGiven_pathOut]
  have hheld := stepSent_cur (moved := moved) (given := given) hcur' (opn bytes 0x10 6) (stepWords (stepGiven s r) k w moved n) p
  rcases Nat.lt_or_ge (moved + 262144) (opn bytes 0x20 4) with hmore | hlast
  · rw [hread, workStep_storeGoesOn hcur' hop hb hlen hmore 2] at hstep
    generalize stepSent (stepGiven s r) r (opn bytes 0x10 6) moved given (stepWords (stepGiven s r) k w moved n) p = x at hstep hsent hout hheld
    have hphase := setPhase_hostOnly x r (.moving (moved + 262144) given [] p)
    have hlast := ((hkept.trans hsent).trans hphase).setFld (engineField_mem (f := fEngineBusy) rfl) 0
    refine ⟨_, hstep, ?_, fun _ => ?_, fun hle => absurd hle (Nat.not_le.mpr hmore), hlast.clusters, hlast.memTiles⟩
    · rw [← hout]
      exact pathOut_congr rfl (fld_busy_cleared hr (by simp [fHrgPath]) (by simp [fHrgPath]))
    · exact phaseOf_setPhase hheld _
  · have hend' : opn bytes 0x20 4 ≤ moved + n := by have := hb.size; have := hb.inside; omega
    rw [hread, workStep_storeEnds hcur' hop hb hlen hend' 2] at hstep
    generalize stepSent (stepGiven s r) r (opn bytes 0x10 6) moved given (stepWords (stepGiven s r) k w moved n) p = x at hstep hsent hout hheld
    have hall := (hkept.trans hsent).trans (endMove_hostOnly x r (opn bytes 0x20 4) p)
    refine ⟨_, hstep, (endMove_pathOut _ _ _ _).trans hout, fun hlt => absurd hlt (Nat.not_lt.mpr hlast), fun _ => ?_, hall.clusters, hall.memTiles⟩
    exact endsWith_endCmd hheld _ _

end

/-! ### The host's answer comes too late (R337) -/

section
variable {s : State} {r : RingIx} {i : Nat} {bytes : List Byte} (hreads : readsHost bytes = true)
include hreads

theorem hostReadTimeout_head {op : Nat} (h : headCommand s r.val op bytes) :
    ∃ t, exec (.hostReadTimeout r) s = .next t ∧ endsWith t r.val stHostErr 0 ∧ t.memTiles = s.memTiles ∧ t.image = s.image := by
  obtain ⟨i, hcur⟩ := headCommand_cur h
  have hkept := (begun_hostOnly s r.val op).trans (endCmd_hostOnly _ r.val stHostErr 0)
  exact ⟨_, execHostReadTimeout_head h hreads, endsWith_endCmd hcur _ _, hkept.memTiles, hkept.part State.image rfl⟩

omit hreads in
/-- What a command that has asked the host leaves, with the bytes that it has moved. -/
theorem hostReadTimeout_working {c : RingCmd} {n : Nat} (hcur : (s.ring r.val).cur = some c)
    (hfails : hostFails s r.val = endCmd (dropReads s r.val) r.val stHostErr n) :
    ∃ t, exec (.hostReadTimeout r) s = .next t ∧ endsWith t r.val stHostErr n ∧ { t with rings := s.rings, ctxs := s.ctxs } = s := by
  refine ⟨_, (execHostReadTimeout_working hcur).trans (congrArg Host.Outcome.next hfails), endsWith_endCmd (c := c) hcur _ _, ?_⟩
  exact dropReads_frame s r.val

end

/-- LOCKED is reached, or waited for too long (09 R235). -/
theorem loadLockWaitEnd_ends {s : State} {r : RingIx} {bad : Bool} (h : phaseOf s r.val = some (.waitLock bad)) :
    ∃ t, exec (.loadLockWaitEnd r) s = .next t ∧ t.is fLoading = false ∧
      endsWith t r.val (if 7 ≤ s.fld fState then (if bad = true then stPoison else 0) else stLockPending) (s.fld fLoadSection) ∧
      (∀ im : Image, s.image = some im → t.fld fRegime = (if im.locked = true then 1 else 2)) := by
  have hfld : ∀ (st res : Nat) (f : Fld), (endCmd (setMode s) r.val st res).fld f = (setMode s).fld f := fun st res f => State.fld_congr rfl rfl rfl f
  obtain ⟨c, hcur⟩ : ∃ c, ((setMode s).ring r.val).cur = some c := by
    rw [State.ring, setMode_rings]
    obtain ⟨c, hc, -⟩ := Option.map_eq_some_iff.mp h
    exact ⟨c, hc⟩
  refine ⟨_, execLoadLockWaitEnd_eq h, ?_, endsWith_endCmd hcur _ _, fun im him => ?_⟩
  · rw [State.is, hfld]
    exact setMode_loading s
  · rw [hfld, setMode_regime him]

/-! ### A refused head -/

/-- The commands that a head of their opcode begins. -/
def beginners (r : RingIx) : List (Instr × Nat) :=
  [(Instr.readMem r, 0x11), (.copy r, 0x12), (.armRun r, 0x20), (.disarm r, 0x21), (.selectMenu r, 0x22), (.frostHostCommand r, 0x30),
    (.frostRead r, 0x31), (.spyDrain r, 0x32), (.attest r, 0x40), (.scrub r, 0x41), (.linkTrain r, 0x50)]

theorem exec_of_beginners {c : Instr} {op : Nat} {r : RingIx} (h : (c, op) ∈ beginners r) (s : State) : ∃ run, exec c s = serve s r.val op run := by
  simp only [beginners, List.mem_cons, Prod.mk.injEq, List.not_mem_nil, or_false] at h
  rcases h with ⟨rfl, rfl⟩ | ⟨rfl, rfl⟩ | ⟨rfl, rfl⟩ | ⟨rfl, rfl⟩ | ⟨rfl, rfl⟩ | ⟨rfl, rfl⟩ | ⟨rfl, rfl⟩ | ⟨rfl, rfl⟩ | ⟨rfl, rfl⟩ | ⟨rfl, rfl⟩ | ⟨rfl, rfl⟩
  all_goals exact ⟨_, rfl⟩

section
variable {s : State} {c : Instr} {op : Nat} {r : RingIx} {b : List Byte} (hc : (c, op) ∈ beginners r) (hcur : (s.ring r.val).cur = none)
  (hahead : ((s.ring r.val).ahead.head?).map (fun e => e.2) = some b) (hop : opcodeOf b = op) (hserves : engineServes s r.val = true)
include hc hcur hahead hop hserves

/-- An unsound descriptor (R330). -/
theorem exec_unsound (hvalid : validDesc b = false) :
    ∃ t, exec c s = .next t ∧ endsWith t r.val stOpcode 0 ∧ t.is (fRingActive r.val) = true ∧ t.image = s.image := by
  obtain ⟨run, hrun⟩ := exec_of_beginners hc s
  obtain ⟨i, htaken⟩ := takeHead_cur hahead
  have hfld : (endCmd (takeHead s r.val) r.val stOpcode 0).fld (fRingActive r.val) = (takeHead s r.val).fld (fRingActive r.val) :=
    State.fld_congr rfl rfl rfl _
  refine ⟨_, hrun.trans (serve_unsound hcur hahead hop hserves hvalid run), endsWith_endCmd htaken _ _, ?_,
    ((takeHead_hostOnly s r.val).trans (endCmd_hostOnly _ r.val stOpcode 0)).part State.image rfl⟩
  rw [State.is, hfld]
  exact takeHead_active hahead r.isLt

/-- A command that another pair's configuration lock holds off (R336). -/
theorem exec_locked (hvalid : validDesc b = true) (hx : exclusive op = true) (hlocked : s.is fEngineLocked = true)
    (hpair : s.fld fEngineLockRing ≠ r.val) :
    ∃ t, exec c s = .next t ∧ endsWith t r.val stBusy 0 ∧ t.is fArmed = s.is fArmed ∧ t.run = s.run ∧ t.fld fEngineLockRing = s.fld fEngineLockRing := by
  obtain ⟨run, hrun⟩ := exec_of_beginners hc s
  obtain ⟨i, htaken⟩ := takeHead_cur hahead
  have hkept := (takeHead_hostOnly s r.val).trans (endCmd_hostOnly _ r.val stBusy 0)
  have hfld : (endCmd (takeHead s r.val) r.val stBusy 0).fld fEngineLockRing = (takeHead s r.val).fld fEngineLockRing := State.fld_congr rfl rfl rfl _
  refine ⟨_, hrun.trans (serve_locked hcur hahead hop hserves hvalid hx hlocked hpair run), endsWith_endCmd htaken _ _,
    hkept.is_far r.isLt (.inl (by decide)), hkept.part State.run rfl, hfld.trans (takeHead_lockRing hahead r.isLt)⟩

end

theorem exec_engineStep (s : State) : exec .engineStep s = execEngineStep s := rfl

/-- Settles O42: each event's clause is its lemma above. -/
theorem ringsServeDescriptors : Obligations.RingsServeDescriptors := by
  refine ⟨fun r v s hrec => ⟨hrgDb_taken hrec, hrgDb_refused hrec⟩, fun r v s hrec hidle => hrgEnable_starts hrec hidle,
    fun r v i b l s hrec hidle hwas hoff hahead hcur => hrgEnable_stops hrec hidle hwas hoff hahead hcur,
    fun r bytes s hen hpath hne hlen hroom => descriptorFetch_reads hen hpath hne hlen hroom,
    fun r i st bytes res s hcur honly => engineStep_ends r.isLt hcur honly, ?_,
    fun q r i moved bytes given held bad s _ hwork hqr hcur => by
      rw [exec_engineStep]
      exact engineStep_keeps hqr q.isLt hwork hcur,
    fun r op b s h hreads => hostReadTimeout_head hreads h,
    fun r i moved bytes given held bad s hcur hreads => hostReadTimeout_working hcur (hostFails_moving hcur hreads),
    fun r i bytes given later prior got bad s hcur hreads => hostReadTimeout_working hcur (hostFails_reading hcur hreads),
    fun r bad s h => loadLockWaitEnd_ends h,
    fun c op r b s hc hcur hahead hop hserves => ⟨exec_unsound hc hcur hahead hop hserves, exec_locked hc hcur hahead hop hserves⟩⟩
  intro r i moved k w n bytes given bad p s hcur honly hend hop hwhole hrange hplace hstart hinside hsize hp
  have hlen : opn bytes 0x20 4 % 8 = 0 := by
    simp only [wholeWords, Bool.and_eq_true, decide_eq_true_eq] at hwhole
    exact hwhole.1.2
  have hbytes : wordBytes (stepWords s k w moved n) =
      (List.range (n / 8)).flatMap (fun j => leBytes 8 (storeRead s k (w + moved / 8 + j)).1.toNat) := by rw [wordBytes, stepWords, List.flatMap_map]
  rw [← hbytes]
  exact engineStep_readsStore r.isLt hcur honly hend hop hwhole hrange hplace ⟨hstart, hinside, hsize, hlen⟩ (by rw [stepWords_bad]; exact hp)

end Sys2Proof.Machine

/-!
The numbers of QUANTISE (03_number_formats.md R84, R86): the scale that covers a group, and the code nearest to a weight.
-/
namespace Sys2Proof.Machine

/-! ### The least scale (R84) -/

/-- A running maximum from 0 over a list is its greatest positive element. -/
theorem foldl_max_eq {f : Int → Int} {ws : List Int} {b : Int} (hle : ∀ w ∈ ws, f w ≤ b) (hb : b = 0 ∨ 0 < b ∧ ∃ w ∈ ws, f w = b) :
    ws.foldl (fun a w => max a (f w)) 0 = b := by
  have hmax : ∀ (l : List Int) (a : Int), a ≤ l.foldl (fun a w => max a (f w)) a ∧ (∀ w ∈ l, f w ≤ l.foldl (fun a w => max a (f w)) a) ∧
      ∀ c : Int, a ≤ c → (∀ w ∈ l, f w ≤ c) → l.foldl (fun a w => max a (f w)) a ≤ c := by
    intro l
    induction l with
    | nil => exact fun a => ⟨le_refl a, by simp, fun c h _ => h⟩
    | cons v l ih =>
      intro a
      obtain ⟨h1, h2, h3⟩ := ih (max a (f v))
      refine ⟨(le_max_left _ _).trans h1, fun w hw => ?_, fun c hc hl => h3 c (max_le hc (hl v List.mem_cons_self)) fun w hw =>
        hl w (List.mem_cons_of_mem _ hw)⟩
      rcases List.mem_cons.mp hw with rfl | hw
      · exact (le_max_right _ _).trans h1
      · exact h2 w hw
  obtain ⟨h1, h2, h3⟩ := hmax ws 0
  rcases hb with rfl | ⟨hpos, w, hw, hwb⟩
  · exact le_antisymm (h3 0 (le_refl 0) hle) h1
  · exact le_antisymm (h3 b hpos.le hle) (hwb ▸ h2 w hw)

/-- A scale covers the group's weights at both ends. -/
def Covers (m x : Nat) (hi lo pos neg : Int) : Prop := pos ≤ m * 2 ^ (x + 118) * hi ∧ neg ≤ m * 2 ^ (x + 118) * lo

theorem scaleFits_iff {m x : Nat} {hi lo pos neg : Int} : scaleFits m x hi lo pos neg = true ↔ Covers m x hi lo pos neg := by
  rw [scaleFits, Bool.and_eq_true, decide_eq_true_eq, decide_eq_true_eq, Covers]
  push_cast
  exact Iff.rfl

theorem not_covers_iff {m x : Nat} {hi lo pos neg : Int} :
    ¬ Covers m x hi lo pos neg ↔ m * 2 ^ (x + 118) * hi < pos ∨ m * 2 ^ (x + 118) * lo < neg := by
  rw [Covers, not_and_or, not_le, not_le]

/-- The largest scale covers every weight that R83 lets pass. -/
theorem covers_largest {hi lo pos neg : Int} (hhi : 1 ≤ hi) (hlo : 1 ≤ lo) (hpos : pos < 2 ^ 188) (hneg : neg < 2 ^ 188) :
    Covers 255 63 hi lo pos neg := by
  unfold Covers
  norm_num
  constructor <;> nlinarith

section
variable {hi lo pos neg : Int} (hhi : 1 ≤ hi) (hlo : 1 ≤ lo) (hpos : pos < 2 ^ 188) (hneg : neg < 2 ^ 188)

/-- The least exponent that covers with the largest mantissa. -/
def leastExponent (hi lo pos neg : Int) : Nat := ((List.range 64).find? (fun x => scaleFits 255 x hi lo pos neg)).getD 63

/-- The least mantissa that covers at an exponent. -/
def leastMantissa (x : Nat) (hi lo pos neg : Int) : Nat :=
  ((List.range 256).find? (fun m => decide (1 ≤ m) && scaleFits m x hi lo pos neg)).getD 255

include hhi hlo hpos hneg in
theorem leastExponent_spec : leastExponent hi lo pos neg ≤ 63 ∧ Covers 255 (leastExponent hi lo pos neg) hi lo pos neg ∧
    ∀ y, y < leastExponent hi lo pos neg → ¬ Covers 255 y hi lo pos neg := by
  have hlast := covers_largest hhi hlo hpos hneg
  unfold leastExponent
  cases hfind : (List.range 64).find? (fun x => scaleFits 255 x hi lo pos neg) with
  | none => exact absurd (scaleFits_iff.mpr hlast) (List.find?_eq_none.mp hfind 63 (by simp))
  | some x =>
    obtain ⟨hfits, hx, hleast⟩ := List.find?_range_eq_some.mp hfind
    refine ⟨Nat.le_of_lt_succ (List.mem_range.mp hx), scaleFits_iff.mp hfits, fun y hy hc => ?_⟩
    have hno := hleast y hy
    rw [scaleFits_iff.mpr hc] at hno
    simp at hno

omit hhi hlo hpos hneg in
theorem leastMantissa_spec {x : Nat} (hcov : Covers 255 x hi lo pos neg) : 1 ≤ leastMantissa x hi lo pos neg ∧ leastMantissa x hi lo pos neg ≤ 255 ∧
    Covers (leastMantissa x hi lo pos neg) x hi lo pos neg ∧ ∀ k, 1 ≤ k → k < leastMantissa x hi lo pos neg → ¬ Covers k x hi lo pos neg := by
  unfold leastMantissa
  cases hfind : (List.range 256).find? (fun m => decide (1 ≤ m) && scaleFits m x hi lo pos neg) with
  | none => exact absurd (by simpa using scaleFits_iff.mpr hcov) (List.find?_eq_none.mp hfind 255 (by simp))
  | some m =>
    obtain ⟨hfits, hm, hleast⟩ := List.find?_range_eq_some.mp hfind
    rw [Bool.and_eq_true, decide_eq_true_eq] at hfits
    refine ⟨hfits.1, Nat.le_of_lt_succ (List.mem_range.mp hm), scaleFits_iff.mp hfits.2, fun k hk hkm hc => ?_⟩
    have hno := hleast k hkm
    rw [scaleFits_iff.mpr hc] at hno
    simp at hno
    omega

end

theorem chooseScale_eq {ws : List Int} {hi lo pos neg : Int} (hle : ∀ w ∈ ws, w ≤ pos ∧ -w ≤ neg) (hpos : pos = 0 ∨ 0 < pos ∧ pos ∈ ws)
    (hneg : neg = 0 ∨ 0 < neg ∧ -neg ∈ ws) : chooseScale ws hi lo =
      if pos = 0 ∧ neg = 0 then (0, 0) else (leastMantissa (leastExponent hi lo pos neg) hi lo pos neg, leastExponent hi lo pos neg) := by
  have h1 : ws.foldl max 0 = pos := foldl_max_eq (f := id) (fun w hw => (hle w hw).1) (hpos.imp_right fun h => ⟨h.1, pos, h.2, rfl⟩)
  have h2 : ws.foldl (fun a w => max a (-w)) 0 = neg :=
    foldl_max_eq (f := Neg.neg) (fun w hw => (hle w hw).2) (hneg.imp_right fun h => ⟨h.1, -neg, h.2, neg_neg neg⟩)
  rw [chooseScale]
  simp only [h1, h2]
  rfl

/-! ### The nearest code (R86) -/

/-- The fold of `nearestCode`: the best code so far against the next one. -/
def nearerOf (dist : Nat → Nat) (best k : Nat) : Nat := if dist k < dist best ∨ (dist k = dist best ∧ k % 2 = 0) then k else best

/-- The nearest of the first `n + 1` codes, when a code between two others is nearer than the farther one: of two as near, the even one. -/
theorem foldl_nearer (dist : Nat → Nat) (n : Nat) (hbetween : ∀ c j k : Nat, c < j → j < k → k < n + 1 → dist j < max (dist c) (dist k)) :
    (List.range (n + 1)).foldl (nearerOf dist) 0 < n + 1 ∧ ∀ c, c < n + 1 → dist ((List.range (n + 1)).foldl (nearerOf dist) 0) ≤ dist c ∧
      (c ≠ (List.range (n + 1)).foldl (nearerOf dist) 0 → dist ((List.range (n + 1)).foldl (nearerOf dist) 0) = dist c →
        (List.range (n + 1)).foldl (nearerOf dist) 0 % 2 = 0) := by
  induction n with
  | zero => simp [nearerOf]
  | succ n ih =>
    obtain ⟨hlt, hbest⟩ := ih fun c j k hcj hjk hk => hbetween c j k hcj hjk (by omega)
    rw [List.range_succ, List.foldl_append, List.foldl_cons, List.foldl_nil]
    generalize (List.range (n + 1)).foldl (nearerOf dist) 0 = b at hlt hbest
    unfold nearerOf
    split
    · next hnear =>
      refine ⟨by omega, fun c hc => ?_⟩
      rcases Nat.lt_succ_iff_lt_or_eq.mp hc with hc | rfl
      · have := (hbest c hc).1
        omega
      · omega
    · next hfar =>
      refine ⟨by omega, fun c hc => ?_⟩
      rcases Nat.lt_succ_iff_lt_or_eq.mp hc with hc | rfl
      · exact hbest c hc
      · refine ⟨by omega, fun hne htie => ?_⟩
        have hodd : (n + 1) % 2 ≠ 0 := fun h => hfar (.inr ⟨htie.symm, h⟩)
        have hnext : b = n := by
          by_contra hgap
          have hmid := hbetween b (b + 1) (n + 1) (by omega) (by omega) (by omega)
          have hleast := (hbest (b + 1) (by omega)).1
          rw [← htie, max_self] at hmid
          omega
        omega

/-- The distance of code k in units of the scale. -/
def codeDist (ls : List Int) (num den z : Int) (k : Nat) : Nat := (num + (z - ls.getD k 0) * den).natAbs

theorem nearestCode_eq (ls : List Int) (num den z : Int) :
    nearestCode ls num den z = (List.range ls.length).foldl (nearerOf (codeDist ls num den z)) 0 := rfl

theorem getD_lt_getD {ls : List Int} (h : ls.Pairwise (fun a b => a < b)) {i j : Nat} (hij : i < j) (hj : j < ls.length) : ls.getD i 0 < ls.getD j 0 := by
  rw [List.getD_eq_getElem _ _ (hij.trans hj), List.getD_eq_getElem _ _ hj]
  exact List.pairwise_iff_getElem.mp h i j (hij.trans hj) hj hij

/-- Between two levels the distance is less than to the farther one. -/
theorem codeDist_between {ls : List Int} (h : ls.Pairwise (fun a b => a < b)) {num den z : Int} (hden : 0 < den) {c j k : Nat} (hcj : c < j) (hjk : j < k)
    (hk : k < ls.length) : codeDist ls num den z j < max (codeDist ls num den z c) (codeDist ls num den z k) := by
  have hlow := mul_lt_mul_of_pos_right (getD_lt_getD h hcj (hjk.trans hk)) hden
  have hhigh := mul_lt_mul_of_pos_right (getD_lt_getD h hjk hk) hden
  unfold codeDist
  rw [sub_mul, sub_mul, sub_mul]
  omega

theorem nearestCode_spec {ls : List Int} (hne : ls ≠ []) (h : ls.Pairwise (fun a b => a < b)) {num den z : Int} (hden : 0 < den) :
    nearestCode ls num den z < ls.length ∧ ∀ c, c < ls.length →
      codeDist ls num den z (nearestCode ls num den z) ≤ codeDist ls num den z c ∧ (c ≠ nearestCode ls num den z →
        codeDist ls num den z (nearestCode ls num den z) = codeDist ls num den z c → nearestCode ls num den z % 2 = 0) := by
  obtain ⟨n, hn⟩ := Nat.exists_eq_succ_of_ne_zero (List.length_pos_iff.mpr hne).ne'
  rw [nearestCode_eq, hn]
  exact foldl_nearer _ n fun c j k hcj hjk hk => codeDist_between h hden hcj hjk (hn ▸ hk)

/-- A code is one of the format's. -/
theorem nearestCode_lt {ls : List Int} (hne : ls ≠ []) (num den z : Int) : nearestCode ls num den z < ls.length := by
  have hall : ∀ l : List Nat, (∀ k ∈ l, k < ls.length) → ∀ b, b < ls.length → l.foldl (nearerOf (codeDist ls num den z)) b < ls.length := by
    intro l
    induction l with
    | nil => exact fun _ b hb => hb
    | cons k l ih =>
      intro hl b hb
      refine ih (fun x hx => hl x (List.mem_cons_of_mem _ hx)) _ ?_
      unfold nearerOf
      split
      · exact hl k List.mem_cons_self
      · exact hb
  exact hall _ (fun k hk => List.mem_range.mp hk) 0 (List.length_pos_iff.mpr hne)

/-- A weight over its scale, as a fraction in units of 2^-149: the numerator, 0 for a disabled group. -/
def weightNum (sc : Nat × Nat) (w : Int) : Int := if sc.1 = 0 then 0 else w

/-- And the denominator. -/
def weightDen (sc : Nat × Nat) : Int := if sc.1 = 0 then 1 else scaleUnits sc

theorem codeFor_eq (ls : List Int) (sc : Nat × Nat) (z w : Int) : codeFor ls sc z w = nearestCode ls (weightNum sc w) (weightDen sc) z := by
  unfold codeFor weightNum weightDen
  split <;> rfl

theorem weightDen_pos (sc : Nat × Nat) : 0 < weightDen sc := by
  unfold weightDen scaleUnits
  split
  · exact one_pos
  · next h => exact Int.natCast_pos.mpr (Nat.mul_pos (Nat.pos_of_ne_zero h) (pow_pos two_pos _))

theorem codeFor_lt {ls : List Int} (hne : ls ≠ []) (sc : Nat × Nat) (z w : Int) : codeFor ls sc z w < ls.length := by
  rw [codeFor_eq]
  exact nearestCode_lt hne _ _ z

/-- R84: the scale that covers a group is the least. -/
theorem chooseScale_least (ws : List Int) (hi lo pos neg : Int) (m x : Nat) (hhi : 1 ≤ hi) (hlo : 1 ≤ lo) (hle : ∀ w ∈ ws, w ≤ pos ∧ -w ≤ neg)
    (hpos : pos = 0 ∨ 0 < pos ∧ pos ∈ ws) (hneg : neg = 0 ∨ 0 < neg ∧ -neg ∈ ws) (hpos' : pos < 2 ^ 188) (hneg' : neg < 2 ^ 188)
    (hm : (m, x) = chooseScale ws hi lo) :
    (pos = 0 → neg = 0 → m = 0 ∧ x = 0) ∧
    (0 < pos + neg → 1 ≤ m ∧ m ≤ 255 ∧ x ≤ 63 ∧ pos ≤ m * 2 ^ (x + 118) * hi ∧ neg ≤ m * 2 ^ (x + 118) * lo ∧
      (∀ y : Nat, y < x → 255 * 2 ^ (y + 118) * hi < pos ∨ 255 * 2 ^ (y + 118) * lo < neg) ∧
      (∀ k : Nat, 1 ≤ k → k < m → k * 2 ^ (x + 118) * hi < pos ∨ k * 2 ^ (x + 118) * lo < neg)) := by
  rw [chooseScale_eq hle hpos hneg] at hm
  refine ⟨fun h1 h2 => ?_, fun hsum => ?_⟩
  · rw [if_pos ⟨h1, h2⟩] at hm
    exact Prod.mk.inj hm
  · rw [if_neg (by omega)] at hm
    obtain ⟨rfl, rfl⟩ := Prod.mk.inj hm
    obtain ⟨hx, hcov, hleast⟩ := leastExponent_spec hhi hlo hpos' hneg'
    obtain ⟨hm1, hm255, hmcov, hmleast⟩ := leastMantissa_spec hcov
    exact ⟨hm1, hm255, hx, hmcov.1, hmcov.2, fun y hy => not_covers_iff.mp (hleast y hy), fun k hk hkm => not_covers_iff.mp (hmleast k hk hkm)⟩

/-- R86: the code of a weight is the nearest, and of two as near the even one. -/
theorem codeFor_nearest (ls : List Int) (sc : Nat × Nat) (w z d n : Int) (k : Nat) (hne : ls ≠ []) (h : ls.Pairwise (fun a b => a < b))
    (hk : k = codeFor ls sc z w) (hd : d = (if sc.1 = 0 then 1 else sc.1 * 2 ^ (sc.2 + 118))) (hn : n = (if sc.1 = 0 then 0 else w)) :
    (k < ls.length ∧ (∀ c : Nat, c < ls.length → (n + (z - ls.getD k 0) * d).natAbs ≤ (n + (z - ls.getD c 0) * d).natAbs ∧
      (c ≠ k → (n + (z - ls.getD k 0) * d).natAbs = (n + (z - ls.getD c 0) * d).natAbs → k % 2 = 0))) := by
  have hden : d = weightDen sc := by
    rw [hd, weightDen, scaleUnits]
    push_cast
    rfl
  obtain rfl := hk.trans (codeFor_eq ls sc z w)
  rw [hden, show n = weightNum sc w from hn]
  exact nearestCode_spec hne h (weightDen_pos sc)

end Sys2Proof.Machine

/-!
What the sections of an image write into the stores (09_timetable_contract.md R227).
-/
namespace Sys2Proof.Machine

/-! ### Words and bytes put one after another -/

theorem Store.putAll_cons (m : Store) (i : Nat) (w : Word64) (ws : List Word64) : m.putAll i (w :: ws) = (m.put i w).putAll (i + 1) ws := rfl

theorem Store.word_putAll_other (m : Store) (i : Nat) (ws : List Word64) {j : Nat} (h : j < i ∨ i + ws.length ≤ j) :
    (m.putAll i ws).word j = m.word j := by
  induction ws generalizing m i with
  | nil => rfl
  | cons w ws ih =>
    rw [List.length_cons] at h
    rw [Store.putAll_cons, ih _ _ (by omega), Store.word_put_other _ _ (by omega)]

theorem Store.word_putAll (m : Store) (i : Nat) (ws : List Word64) {j : Nat} (h : j < ws.length) : (m.putAll i ws).word (i + j) = ws.getD j 0 := by
  induction ws generalizing m i j with
  | nil => exact absurd h (Nat.not_lt_zero j)
  | cons w ws ih =>
    rw [Store.putAll_cons]
    cases j with
    | zero =>
      exact (Store.word_putAll_other _ _ _ (.inl (Nat.lt_add_one i))).trans (Store.word_put m i w)
    | succ j =>
      rw [← Nat.add_assoc, Nat.add_right_comm, ih _ _ (Nat.lt_of_succ_lt_succ h)]
      rfl

/-- Words changed one after another, each by what it held. -/
theorem Store.word_foldl_put (g : Nat → Word64 → Word64) (m : Store) (first n j : Nat) :
    ((List.range n).foldl (fun t i => t.put (first + i) (g (first + i) (t.word (first + i)))) m).word (first + j) =
      if j < n then g (first + j) (m.word (first + j)) else m.word (first + j) := by
  induction n with
  | zero => simp
  | succ n ih =>
    rw [List.range_succ, List.foldl_append, List.foldl_cons, List.foldl_nil]
    rcases Nat.lt_trichotomy j n with hj | rfl | hj
    · rw [Store.word_put_other _ _ (by omega), ih, if_pos hj, if_pos (by omega)]
    · rw [Store.word_put, if_pos (Nat.lt_succ_self j)]
      rw [if_neg (Nat.lt_irrefl j)] at ih
      rw [ih]
    · rw [Store.word_put_other _ _ (by omega), ih, if_neg (by omega), if_neg (by omega)]

/-- The bytes of word `w` once the bytes `bs` lie from byte `o` on. -/
def wordBytesWith (o : Nat) (bs : List Byte) (w : Nat) (v : Word64) : List Byte :=
  (List.range 8).map (fun j =>
    let p := 8 * w + j
    if o ≤ p then (bs[p - o]?).getD ((leBytes 8 v.toNat).getD j 0) else (leBytes 8 v.toNat).getD j 0)

theorem putBytes_word (m : Store) (o : Nat) (bs : List Byte) {i : Nat} (h : i < bs.length) :
    (putBytes m o bs).word ((o + i) / 8) = BitVec.ofNat 64 (leNat (wordBytesWith o bs ((o + i) / 8) (m.word ((o + i) / 8)))) := by
  have hfold := Store.word_foldl_put (fun w v => BitVec.ofNat 64 (leNat (wordBytesWith o bs w v))) m (o / 8) ((o % 8 + bs.length + 7) / 8) ((o + i) / 8 - o / 8)
  have hword : o / 8 + ((o + i) / 8 - o / 8) = (o + i) / 8 := by omega
  rw [hword, if_pos (by omega)] at hfold
  exact hfold

theorem leBytes_ofNat_leNat {l : List Byte} (h : l.length = 8) : leBytes 8 (BitVec.ofNat 64 (leNat l)).toNat = l := by
  have hlt : leNat l < 2 ^ 64 := by
    have := leNat_lt l
    rwa [h] at this
  rw [BitVec.toNat_ofNat, Nat.mod_eq_of_lt hlt, leBytes_leNat l 8 h.le, h]
  simp

/-- A byte that has been put reads as it was given. -/
theorem putBytes_byte (m : Store) (o : Nat) (bs : List Byte) {i : Nat} (h : i < bs.length) :
    (leBytes 8 ((putBytes m o bs).word ((o + i) / 8)).toNat).getD ((o + i) % 8) 0 = bs.getD i 0 := by
  have hj : (o + i) % 8 < 8 := Nat.mod_lt _ (by decide)
  have hat : 8 * ((o + i) / 8) + (o + i) % 8 = o + i := Nat.div_add_mod _ _
  rw [putBytes_word m o bs h, leBytes_ofNat_leNat (by simp [wordBytesWith]), wordBytesWith]
  simp only [List.getD_eq_getElem?_getD, List.getElem?_map, List.getElem?_range hj, Option.map_some, Option.getD_some, hat, Nat.le_add_right, if_true,
    Nat.add_sub_cancel_left, List.getElem?_eq_getElem h]

/-! ### The memories of an agent -/

section
variable (s : State)

theorem memOf_setMem_same (u : UnitIx) {kind : Nat} (hk : kind < 4) (m : Store) : memOf (setMem s (.dot u) kind m) (.dot u) kind = m := by
  interval_cases kind <;> simp [memOf, setMem]

theorem memOf_setMem_kind (u : UnitIx) {kind k : Nat} (hk : k < 3) (hne : k ≠ kind) (m : Store) :
    memOf (setMem s (.dot u) kind m) (.dot u) k = memOf s (.dot u) k := by
  match kind, hne with
  | 0, hne | 1, hne | 2, hne => interval_cases k <;> simp_all [memOf, setMem]
  | kind + 3, _ => interval_cases k <;> simp [memOf, setMem]

theorem memOf_setMem_other {a b : Agent} (h : b ≠ a) (kind k : Nat) (m : Store) : memOf (setMem s a kind m) b k = memOf s b k := by
  cases a with
  | fn f =>
    cases b with
    | dot u => rfl
    | fn e =>
      have hne : e.val ≠ f.val := fun he => h (congrArg Agent.fn (Fin.ext he))
      unfold memOf setMem
      dsimp only
      rw [State.setFun_fun_other _ _ _ _ hne]
  | dot u =>
    cases b with
    | fn e => rfl
    | dot v =>
      have hne : v.val ≠ u.val := fun hv => h (congrArg Agent.dot (Fin.ext hv))
      unfold memOf setMem
      dsimp only
      rw [State.setUnit_unit_other _ _ _ _ hne]

end

/-! ### One section (R227) -/

section
variable (h : Hdr) (n : Nat) (p : Placement) (s : State) (x : Sect)

/-- The dot unit that a section names in a copy. -/
def sectUnit (p : Placement) (x : Sect) : UnitIx := Fin.ofNat 4096 (placedUnit p x.treg x.cluster x.unit)

/-- The sections of a dot unit's stores: type, store, first word, words. -/
def storeSections (p : Placement) (x : Sect) : List (Nat × Nat × Nat × List Word64) :=
  [(1, 3, 0, (w64s x.data).map (relabelDot p)), (3, 0, nAt x.data 0 4, w64s (x.data.drop 8)), (4, 1, nAt x.data 0 4, w64s (x.data.drop 8)),
    (5, 2, nAt x.data 0 4, w64s (x.data.drop 8))]

theorem placeSection_of_store {kind start : Nat} {ws : List Word64} (hx : (x.typ, kind, start, ws) ∈ storeSections p x) :
    kind < 4 ∧ placeSection h n p s x = putWords s (.dot (sectUnit p x)) kind start ws := by
  simp only [storeSections, List.mem_cons, Prod.mk.injEq, List.not_mem_nil, or_false] at hx
  rcases hx with ⟨ht, rfl, rfl, rfl⟩ | ⟨ht, rfl, rfl, rfl⟩ | ⟨ht, rfl, rfl, rfl⟩ | ⟨ht, rfl, rfl, rfl⟩
  all_goals
    refine ⟨by decide, ?_⟩
    rw [placeSection, ht]
    rfl

theorem placeSection_of_bytes (hx : x.typ = 8) : placeSection h n p s x = s.setCluster (placedCluster p x.treg x.cluster)
    { s.cluster (placedCluster p x.treg x.cluster) with
      store := putBytes (s.cluster (placedCluster p x.treg x.cluster)).store (nAt x.data 0 4) (x.data.drop 8) } := by
  rw [placeSection, hx]
  rfl

/-- The words of a unit's section land in its store, and no other word of any memory changes. -/
theorem placeSection_words {kind start : Nat} {ws : List Word64} (hx : (x.typ, kind, start, ws) ∈ storeSections p x) :
    (∀ i : Nat, i < ws.length → (memOf (placeSection h n p s x) (.dot (sectUnit p x)) kind).word (start + i) = ws.getD i 0) ∧
    (∀ i : Nat, i < start ∨ start + ws.length ≤ i →
      (memOf (placeSection h n p s x) (.dot (sectUnit p x)) kind).word i = (memOf s (.dot (sectUnit p x)) kind).word i) ∧
    (∀ (a : Agent) (k : Nat), a ≠ .dot (sectUnit p x) ∨ k < 3 ∧ k ≠ kind → memOf (placeSection h n p s x) a k = memOf s a k) := by
  obtain ⟨hk, hplace⟩ := placeSection_of_store h n p s x hx
  rw [hplace, putWords]
  refine ⟨fun i hi => ?_, fun i hi => ?_, fun a k ha => ?_⟩
  · rw [memOf_setMem_same _ _ hk, Store.word_putAll _ _ _ hi]
  · rw [memOf_setMem_same _ _ hk, Store.word_putAll_other _ _ _ hi]
  · by_cases hau : a = .dot (sectUnit p x)
    · subst hau
      obtain ⟨hk3, hne⟩ := ha.resolve_left (fun hne => hne rfl)
      exact memOf_setMem_kind s _ hk3 hne _
    · exact memOf_setMem_other s hau _ _ _

/-- The bytes of a cluster's section land in its store. -/
theorem placeSection_bytes (hx : x.typ = 8) {i : Nat} (hi : i + 8 < x.data.length) :
    (leBytes 8 (((placeSection h n p s x).cluster (placedCluster p x.treg x.cluster)).store.word ((nAt x.data 0 4 + i) / 8)).toNat).getD
      ((nAt x.data 0 4 + i) % 8) 0 = x.data.getD (8 + i) 0 := by
  rw [placeSection_of_bytes h n p s x hx, State.setCluster_cluster, putBytes_byte _ _ _ (by rw [List.length_drop]; omega), List.getD_eq_getElem?_getD,
    List.getElem?_drop, ← List.getD_eq_getElem?_getD]

end

end Sys2Proof.Machine

/-!
Where QUANTISE puts the codes, scales and zero points of a group (03 R70, R94, R95).
-/
namespace Sys2Proof.Machine

/-! ### Fields of a word -/

theorem getLsbD_putW (x : Word64) (lo n v i : Nat) (hi : i < 64) :
    (putW x lo n v).getLsbD i = if lo ≤ i ∧ i < lo + n then v.testBit (i - lo) else x.getLsbD i := by
  rw [putW, BitVec.getLsbD_or, BitVec.getLsbD_and, BitVec.getLsbD_not, BitVec.getLsbD_shiftLeft, BitVec.getLsbD_shiftLeft, BitVec.getLsbD_ofNat,
    BitVec.getLsbD_ofNat, Nat.testBit_two_pow_sub_one, Nat.testBit_mod_two_pow]
  by_cases h1 : lo ≤ i
  · by_cases h2 : i < lo + n
    · have h3 : i - lo < n := by omega
      have h4 : i - lo < 64 := by omega
      have h5 : ¬ i < lo := by omega
      simp [h1, h2, h3, h4, h5, hi]
    · have h3 : ¬ i - lo < n := by omega
      simp [h1, h2, h3, hi]
  · have h2 : i < lo := by omega
    simp [h1, h2, hi]

theorem bits_putW_same (x : Word64) {lo n v : Nat} (h : lo + n ≤ 64) : bits (putW x lo n v).toNat lo n = v % 2 ^ n := by
  refine Nat.eq_of_testBit_eq fun i => ?_
  rw [testBit_bits, Nat.testBit_mod_two_pow]
  by_cases hi : i < n
  · have hbit := getLsbD_putW x lo n v (lo + i) (by omega)
    rw [if_pos ⟨Nat.le_add_right _ _, by omega⟩, Nat.add_sub_cancel_left] at hbit
    simp [hi, ← hbit, BitVec.getLsbD]
  · simp [hi]

theorem bits_putW_other (x : Word64) {lo n v lo' n' : Nat} (h : lo' + n' ≤ 64) (hd : lo' + n' ≤ lo ∨ lo + n ≤ lo') :
    bits (putW x lo n v).toNat lo' n' = bits x.toNat lo' n' := by
  refine Nat.eq_of_testBit_eq fun i => ?_
  rw [testBit_bits, testBit_bits]
  by_cases hi : i < n'
  · have hbit := getLsbD_putW x lo n v (lo' + i) (by omega)
    rw [if_neg (by omega)] at hbit
    simp only [BitVec.getLsbD] at hbit
    simp [hi, hbit]
  · simp [hi]

/-- The codes of one word of weights, the first in its low bits. -/
def packCodes (w : Nat) (l : List Nat) : Nat := l.reverse.foldl (fun a c => a * 2 ^ w + c) 0

theorem packCodes_cons (w c : Nat) (l : List Nat) : packCodes w (c :: l) = c + 2 ^ w * packCodes w l := by
  rw [packCodes, List.reverse_cons, List.foldl_append, List.foldl_cons, List.foldl_nil, Nat.add_comm, Nat.mul_comm]
  rfl

section
variable {w : Nat} {l : List Nat} (hl : ∀ c ∈ l, c < 2 ^ w)
include hl

theorem packCodes_lt : packCodes w l < 2 ^ (w * l.length) := by
  induction l with
  | nil => simp [packCodes]
  | cons c l ih =>
    have hrest := ih fun x hx => hl x (List.mem_cons_of_mem c hx)
    have hc := hl c List.mem_cons_self
    rw [packCodes_cons, List.length_cons, Nat.mul_succ, Nat.add_comm (w * _), Nat.pow_add]
    calc c + 2 ^ w * packCodes w l < 2 ^ w * (packCodes w l + 1) := by rw [Nat.mul_succ]; omega
      _ ≤ 2 ^ w * 2 ^ (w * l.length) := Nat.mul_le_mul_left _ hrest

theorem bits_packCodes {i : Nat} (hi : i < l.length) : bits (packCodes w l) (w * i) w = l.getD i 0 := by
  induction l generalizing i with
  | nil => exact absurd hi (Nat.not_lt_zero i)
  | cons c l ih =>
    have hc := hl c List.mem_cons_self
    rw [packCodes_cons]
    cases i with
    | zero => rw [Nat.mul_zero, bits_low hc, List.getD_cons_zero]
    | succ i =>
      rw [Nat.mul_succ, Nat.add_comm (w * i), bits_high hc, List.getD_cons_succ]
      exact ih (fun x hx => hl x (List.mem_cons_of_mem c hx)) (Nat.lt_of_succ_lt_succ hi)

end

/-! ### One group -/

/-- What a group of a placement holds in a unit: where it lies, and what is written. -/
structure GroupAt where
  base : Nat
  fmt : Nat
  size : Nat
  place : LayerPlace

/-- The word of weights of local group j, output o, and row k of the group (R94). -/
def GroupAt.weightWord (q : GroupAt) (o j k : Nat) : Nat := 32 * ((q.place.row + j * (q.size / perRow q.fmt) + k + q.base) % 512) + o

/-- The limits of R345 that keep groups apart. -/
structure GroupAt.Ok (q : GroupAt) : Prop where
  format : q.fmt ≤ 2
  size : q.size = 32 ∨ q.size = 64 ∨ q.size = 128
  whole : q.place.ni % q.size = 0
  rows : q.place.row + q.place.ni / perRow q.fmt - 1 ≤ 511

theorem perRow_cases {f : Nat} (h : f ≤ 2) : (f < 2 ∧ perRow f = 16) ∨ (f = 2 ∧ perRow f = 8) := by
  interval_cases f <;> simp [perRow]

theorem rows_fit {ni g n row j k : Nat} (hg : g = 32 ∨ g = 64 ∨ g = 128) (hn : n = 16 ∨ n = 8) (hw : ni % g = 0) (hr : row + ni / n - 1 ≤ 511)
    (hj : j < ni / g) (hk : k < g / n) : row + (j * (g / n) + k) ≤ 511 := by
  rcases hg with rfl | rfl | rfl <;> rcases hn with rfl | rfl <;> omega

/-- Every row of a group lies in the placement's rows. -/
theorem GroupAt.Ok.row_lt {q : GroupAt} (h : q.Ok) {j k : Nat} (hj : j < q.place.ni / q.size) (hk : k < q.size / perRow q.fmt) :
    q.place.row + (j * (q.size / perRow q.fmt) + k) ≤ 511 := by
  exact rows_fit h.size ((perRow_cases h.format).imp (fun x => x.2) (fun x => x.2)) h.whole h.rows hj hk

/-- Different words of weights lie apart. -/
theorem GroupAt.Ok.weightWord_inj {q : GroupAt} (h : q.Ok) {o j k o' j' k' : Nat} (ho : o < 32) (ho' : o' < 32) (hj : j < q.place.ni / q.size)
    (hj' : j' < q.place.ni / q.size) (hk : k < q.size / perRow q.fmt) (hk' : k' < q.size / perRow q.fmt)
    (heq : q.weightWord o j k = q.weightWord o' j' k') : o = o' ∧ j = j' ∧ k = k' := by
  have h1 := h.row_lt hj hk
  have h2 := h.row_lt hj' hk'
  unfold GroupAt.weightWord at heq
  have ho : o = o' := by omega
  have hrow : j * (q.size / perRow q.fmt) + k = j' * (q.size / perRow q.fmt) + k' := by omega
  refine ⟨ho, ?_⟩
  generalize q.size / perRow q.fmt = n at hk hk' hrow
  have hn : 0 < n := by omega
  have hjj : j = j' := by
    have := congrArg (· / n) hrow
    simpa [Nat.add_comm, Nat.add_mul_div_right _ _ hn, Nat.div_eq_of_lt hk, Nat.div_eq_of_lt hk'] using this
  subst hjj
  exact ⟨rfl, by omega⟩

end Sys2Proof.Machine

/-!
A group written into a unit reads back, and the groups written after it leave it alone.
-/
namespace Sys2Proof.Machine

/-! ### Words put at addresses of their own -/

section
variable (A : Nat → Nat) (V : Nat → Word64) (m : Store)

theorem Store.word_foldl_putAt_other {n a : Nat} (h : ∀ k, k < n → A k ≠ a) :
    ((List.range n).foldl (fun t k => t.put (A k) (V k)) m).word a = m.word a := by
  induction n with
  | zero => rfl
  | succ n ih =>
    rw [List.range_succ, List.foldl_append, List.foldl_cons, List.foldl_nil, Store.word_put_other _ _ (h n (Nat.lt_succ_self n)).symm]
    exact ih fun k hk => h k (Nat.lt_succ_of_lt hk)

theorem Store.word_foldl_putAt {n k : Nat} (hinj : ∀ a b, a < n → b < n → A a = A b → a = b) (hk : k < n) :
    ((List.range n).foldl (fun t k => t.put (A k) (V k)) m).word (A k) = V k := by
  induction n with
  | zero => exact absurd hk (Nat.not_lt_zero k)
  | succ n ih =>
    rw [List.range_succ, List.foldl_append, List.foldl_cons, List.foldl_nil]
    rcases Nat.lt_succ_iff_lt_or_eq.mp hk with hlt | rfl
    · have hne : A k ≠ A n := fun he => absurd (hinj k n hk (Nat.lt_succ_self n) he) hlt.ne
      rw [Store.word_put_other _ _ hne]
      exact ih (fun a b ha hb => hinj a b (Nat.lt_succ_of_lt ha) (Nat.lt_succ_of_lt hb)) hlt
    · exact Store.word_put _ _ _

end

/-! ### What a group holds -/

/-- Unit `u` holds group (o, j): its codes, its scale, and its zero point where one is given. -/
structure GroupAt.In (q : GroupAt) (o j : Nat) (codes : List Nat) (sc : Nat × Nat) (zero : Option Int) (u : DotUnit) : Prop where
  code : ∀ k i, k < q.size / perRow q.fmt → i < perRow q.fmt →
    bits (u.weight.word (q.weightWord o j k)).toNat (64 / perRow q.fmt * i) (64 / perRow q.fmt) = codes.getD (perRow q.fmt * k + i) 0
  scale : scaleWord u.scale (q.place.set + j) o = sc
  zero : ∀ z, zero = some z → zeroPoint u.zp (q.place.zp + j) o = z

/-- A group's codes fit the format's width, its scale word says its scale, and its zero point fits a byte. -/
structure GroupAt.Fits (q : GroupAt) (codes : List Nat) (scale : Nat) (sc : Nat × Nat) (zero : Option Int) : Prop where
  length : codes.length = q.size
  codes : ∀ c ∈ codes, c < 2 ^ (64 / perRow q.fmt)
  scale : (bits (scale % 2 ^ 16) 0 8, bits (scale % 2 ^ 16) 8 6) = sc
  zero : ∀ z, zero = some z → fitsIn 8 z

/-- A group written. -/
def GroupAt.write (q : GroupAt) (o j : Nat) (codes : List Nat) (scale : Nat) (zero : Option Int) (u : DotUnit) : DotUnit :=
  writeGroup q.base q.fmt q.place codes scale zero q.size o j u

section
variable (q : GroupAt) (o j : Nat) (codes : List Nat) (scale : Nat) (zero : Option Int) (u : DotUnit)

theorem GroupAt.write_weight : (q.write o j codes scale zero u).weight = (List.range (q.size / perRow q.fmt)).foldl (fun m k =>
    m.put (q.weightWord o j k) (BitVec.ofNat 64 (packCodes (64 / perRow q.fmt) (slice codes (perRow q.fmt * k) (perRow q.fmt))))) u.weight := rfl

theorem GroupAt.write_scale : (q.write o j codes scale zero u).scale = u.scale.put (8 * (q.place.set + j) + o / 4)
    (putW (u.scale.word (8 * (q.place.set + j) + o / 4)) (16 * (o % 4)) 16 scale) := rfl

theorem GroupAt.write_zp : (q.write o j codes scale zero u).zp = match zero with
    | some z => u.zp.put (4 * (q.place.zp + j) + o / 8) (putW (u.zp.word (4 * (q.place.zp + j) + o / 8)) (8 * (o % 8)) 8 (low 8 z))
    | none => u.zp := rfl

end

section
variable {q : GroupAt} (hq : q.Ok) {o j : Nat} (ho : o < 32) (hj : j < q.place.ni / q.size)
include hq

theorem GroupAt.Ok.perRow : 64 / perRow q.fmt * perRow q.fmt = 64 ∧ 0 < perRow q.fmt := by
  rcases perRow_cases hq.format with ⟨-, h⟩ | ⟨-, h⟩ <;> rw [h] <;> decide

omit hq in
/-- Every word of a group is full. -/
theorem GroupAt.word_full {k : Nat} (hk : k < q.size / Machine.perRow q.fmt) : Machine.perRow q.fmt * k + Machine.perRow q.fmt ≤ q.size := by
  have h := Nat.mul_le_mul_left (Machine.perRow q.fmt) (Nat.succ_le_of_lt hk)
  rw [Nat.mul_succ] at h
  exact h.trans (Nat.mul_div_le q.size _)

include ho hj

/-- A group that has been written is there. -/
theorem GroupAt.write_in {codes : List Nat} {scale : Nat} {sc : Nat × Nat} {zero : Option Int} (hfits : q.Fits codes scale sc zero) (u : DotUnit) :
    q.In o j codes sc zero (q.write o j codes scale zero u) := by
  obtain ⟨hlen, hcodes, hscale, hzero⟩ := hfits
  refine ⟨fun k i hk hi => ?_, ?_, fun z hz => ?_⟩
  · have hsub : ∀ c ∈ slice codes (Machine.perRow q.fmt * k) (Machine.perRow q.fmt), c < 2 ^ (64 / Machine.perRow q.fmt) := fun c hc =>
      hcodes c (List.mem_of_mem_drop (List.mem_of_mem_take hc))
    have hslice : (slice codes (Machine.perRow q.fmt * k) (Machine.perRow q.fmt)).length = Machine.perRow q.fmt := by
      have := GroupAt.word_full hk
      rw [slice, List.length_take, List.length_drop, hlen]
      omega
    have hlt := packCodes_lt hsub
    rw [hslice, hq.perRow.1] at hlt
    rw [GroupAt.write_weight, Store.word_foldl_putAt (q.weightWord o j) _ _ (fun a b ha hb he => (hq.weightWord_inj ho ho hj hj ha hb he).2.2) hk,
      BitVec.toNat_ofNat, Nat.mod_eq_of_lt hlt, bits_packCodes hsub (by rw [hslice]; exact hi), slice, List.getD_eq_getElem?_getD,
      List.getElem?_take_of_lt hi, List.getElem?_drop, ← List.getD_eq_getElem?_getD]
  · rw [GroupAt.write_scale, scaleWord, Store.word_put, bits_putW_same _ (by omega)]
    exact hscale
  · subst hz
    rw [GroupAt.write_zp, zeroPoint]
    dsimp only
    rw [Store.word_put, bits_putW_same _ (by omega), Nat.mod_eq_of_lt (low_lt 8 z)]
    exact sext_low (by decide) (hzero z rfl)

/-- Another group that is written leaves it. -/
theorem GroupAt.write_keeps {o' j' : Nat} (ho' : o' < 32) (hj' : j' < q.place.ni / q.size) (hne : (o', j') ≠ (o, j)) {codes : List Nat}
    {sc : Nat × Nat} {zero : Option Int} {u : DotUnit} (hin : q.In o j codes sc zero u) (codes' : List Nat) (scale' : Nat) (zero' : Option Int) :
    q.In o j codes sc zero (q.write o' j' codes' scale' zero' u) := by
  obtain ⟨hcode, hscale, hzero⟩ := hin
  have hapart : o' = o → j' ≠ j := fun h1 h2 => hne (by rw [h1, h2])
  refine ⟨fun k i hk hi => ?_, ?_, fun z hz => ?_⟩
  · rw [GroupAt.write_weight, Store.word_foldl_putAt_other]
    · exact hcode k i hk hi
    · intro k' hk' he
      obtain ⟨h1, h2, -⟩ := hq.weightWord_inj ho' ho hj' hj hk' hk he
      exact hapart h1 h2
  · rw [← hscale, GroupAt.write_scale, scaleWord, scaleWord]
    by_cases hword : 8 * (q.place.set + j) + o / 4 = 8 * (q.place.set + j') + o' / 4
    · rw [← hword, Store.word_put, bits_putW_other _ (by omega) (by omega)]
    · rw [Store.word_put_other _ _ hword]
  · rw [← hzero z hz, GroupAt.write_zp, zeroPoint, zeroPoint]
    cases zero' with
    | none => rfl
    | some z' =>
      dsimp only
      by_cases hword : 4 * (q.place.zp + j) + o / 8 = 4 * (q.place.zp + j') + o' / 8
      · rw [← hword, Store.word_put, bits_putW_other _ (by omega) (by omega)]
      · rw [Store.word_put_other _ _ hword]

end

end Sys2Proof.Machine

/-!
A layer of one placement written into the units of every copy (03 R83 to R86; 09 R228).
-/
namespace Sys2Proof.Machine

/-- What every step of a list keeps holds after them. -/
theorem foldl_keeps_of_mem {α β : Type} {p : β → Prop} {f : β → α → β} {l : List α} {x : β} (hkeep : ∀ y b, b ∈ l → p y → p (f y b)) (hx : p x) :
    p (l.foldl f x) := by
  induction l generalizing x with
  | nil => exact hx
  | cons b l ih => exact ih (fun y c hc => hkeep y c (List.mem_cons_of_mem b hc)) (hkeep x b List.mem_cons_self hx)

/-- A step that a list holds establishes what every step of it keeps. -/
theorem foldl_reaches {α β : Type} {p : β → Prop} {f : β → α → β} {l : List α} {a : α} {x : β} (ha : a ∈ l) (hset : ∀ y, p (f y a))
    (hkeep : ∀ y b, b ∈ l → p y → p (f y b)) : p (l.foldl f x) := by
  induction l generalizing x with
  | nil => exact absurd ha (by simp)
  | cons b l ih =>
    have hrest : ∀ y c, c ∈ l → p y → p (f y c) := fun y c hc => hkeep y c (List.mem_cons_of_mem b hc)
    rcases List.mem_cons.mp ha with rfl | ha
    · exact foldl_keeps_of_mem (l := l) hrest (hset x)
    · exact ih ha hrest

/-! ### Levels fit a byte (R66, R67) -/

theorem fitsIn_foldl_of {f : Int → Int → Int} (hf : ∀ a b, f a b = a ∨ f a b = b) {l : List Int} {a : Int} (ha : fitsIn 8 a) (hl : ∀ v ∈ l, fitsIn 8 v) :
    fitsIn 8 (l.foldl f a) := by
  induction l generalizing a with
  | nil => exact ha
  | cons v l ih =>
    refine ih ?_ fun x hx => hl x (List.mem_cons_of_mem v hx)
    rcases hf a v with h | h <;> rw [h]
    · exact ha
    · exact hl v List.mem_cons_self

theorem fitsIn_level {f : Nat} {cb : List Int} (hf : f ≤ 2) (hcb : ∀ v ∈ cb, fitsIn 8 v) {c : Nat} (hc : c < if f = 2 then 256 else 16) :
    fitsIn 8 (level f cb c) := by
  interval_cases f
  · exact mem_getD_of (fitsIn_zero 8) hcb c
  · simp only [level, fitsIn]
    simp at hc
    omega
  · exact fitsIn_sext c (by decide)

theorem fitsIn_codebook (s : State) (g : Nat) : ∀ v ∈ codebook s g, fitsIn 8 v := by
  unfold codebook
  split
  · unfold defaultLevels fitsIn
    decide
  · intro v hv
    obtain ⟨k, -, rfl⟩ := List.mem_map.mp hv
    exact fitsIn_sext _ (by decide)

section
variable {s : State} {im : Image} {l : Layer}

theorem layerLevels_length (s : State) (im : Image) (l : Layer) : (layerLevels s im l).length = if l.format = 2 then 256 else 16 := by
  simp [layerLevels, levelsOf]

theorem layerLevels_ne_nil (s : State) (im : Image) (l : Layer) : layerLevels s im l ≠ [] := by
  intro h
  have hlen := layerLevels_length s im l
  rw [h] at hlen
  split at hlen <;> simp at hlen

theorem fitsIn_layerLevels (hf : l.format ≤ 2) : ∀ v ∈ layerLevels s im l, fitsIn 8 v := by
  intro v hv
  obtain ⟨c, hc, rfl⟩ := List.mem_map.mp hv
  exact fitsIn_level hf (fitsIn_codebook s _) (List.mem_range.mp hc)

/-- A zero point that R83 lets pass fits a byte. -/
theorem fitsIn_of_zeroBad (hf : l.format ≤ 2) {z : Int} (h : zeroBad (layerLevels s im l) z = false) : fitsIn 8 z := by
  have hlevels := fitsIn_layerLevels (s := s) (im := im) hf
  have hhead : fitsIn 8 ((layerLevels s im l).headD 0) := by
    cases hl : layerLevels s im l with
    | nil => exact fitsIn_zero 8
    | cons v r => exact hlevels v (by rw [hl]; exact List.mem_cons_self)
  have hleast : fitsIn 8 (least (layerLevels s im l)) := fitsIn_foldl_of (fun a b => min_choice a b) hhead hlevels
  have hgreatest : fitsIn 8 (greatest (layerLevels s im l)) := fitsIn_foldl_of (fun a b => max_choice a b) hhead hlevels
  rw [zeroBad, Bool.or_eq_false_iff, decide_eq_false_iff_not, decide_eq_false_iff_not] at h
  unfold fitsIn at *
  omega

end

/-! ### What is written for a group -/

theorem chooseScale_bound (ws : List Int) (hi lo : Int) : (chooseScale ws hi lo).1 ≤ 255 ∧ (chooseScale ws hi lo).2 ≤ 63 := by
  have hfind : ∀ (n : Nat) (p : Nat → Bool), ((List.range (n + 1)).find? p).getD n ≤ n := fun n p => by
    cases h : (List.range (n + 1)).find? p with
    | none => exact le_refl n
    | some x => exact Nat.le_of_lt_succ (List.mem_range.mp (List.mem_of_find?_eq_some h))
  unfold chooseScale
  dsimp only
  split
  · exact ⟨Nat.zero_le _, Nat.zero_le _⟩
  · exact ⟨hfind 255 _, hfind 63 _⟩

section
variable {s : State} {im : Image} {l : Layer} {p : LayerPlace}

/-- Where the groups of a placement lie. -/
def placeGroup (s : State) (im : Image) (l : Layer) (p : LayerPlace) : GroupAt := ⟨s.fld (fMenuBase ((unitsOf im p).headD 0) p.menu), l.format, l.g, p⟩

/-- The limits that a layer keeps (13 R345, 03 R83), of a placement. -/
structure PlaceOk (s : State) (im : Image) (l : Layer) (p : LayerPlace) : Prop where
  group : (placeGroup s im l p).Ok
  pins : ∀ q ∈ l.pins, fitsIn 8 q.zp

theorem placeOk_of_layer (hok : layerOk im l = true) (hpass : layerRefused s im l = false) (hp : p ∈ l.places) : PlaceOk s im l p := by
  simp only [layerRefused, Bool.or_eq_false_iff, decide_eq_false_iff_not, not_lt] at hpass
  obtain ⟨⟨⟨⟨hformat, -⟩, -⟩, -⟩, hpins⟩ := hpass
  simp only [layerOk, Bool.and_eq_true, Bool.or_eq_true, decide_eq_true_eq] at hok
  obtain ⟨⟨hsize, hplaces⟩, -⟩ := hok
  have hplace := List.all_eq_true.mp hplaces p hp
  simp only [placeOk, Bool.and_eq_true, decide_eq_true_eq] at hplace
  obtain ⟨⟨⟨⟨⟨⟨-, hwhole⟩, -⟩, -⟩, hrows⟩, -⟩, -⟩ := hplace
  refine ⟨⟨hformat, or_assoc.mp hsize, hwhole, hrows⟩, fun q hq => ?_⟩
  have hzero := List.any_eq_false.mp hpins q hq
  exact fitsIn_of_zeroBad (s := s) (im := im) hformat (by simpa using hzero)

theorem groupWeights_length (ws : Nat → Int) (l : Layer) (p : LayerPlace) (o j : Nat) : (groupWeights ws l p o j).length = l.g := by simp [groupWeights]

theorem scaleWordFor_reads (ws : Nat → Int) (ls : List Int) (o j : Nat) :
    (bits (scaleWordFor s im ws ls l p o j % 2 ^ 16) 0 8, bits (scaleWordFor s im ws ls l p o j % 2 ^ 16) 8 6) = groupScale s im ws ls l p o j := by
  unfold scaleWordFor groupScale
  cases pinOf l (p.o0 + o) (p.i0 / l.g + j) with
  | some q =>
    dsimp only
    rw [Nat.mod_eq_of_lt q.scale.isLt]
  | none =>
    obtain ⟨h1, h2⟩ := chooseScale_bound (groupWeights ws l p o j) (greatest ls - groupZero s im l p o j) (groupZero s im l p o j - least ls)
    dsimp only
    generalize chooseScale (groupWeights ws l p o j) (greatest ls - groupZero s im l p o j) (groupZero s im l p o j - least ls) = c at h1 h2
    have hlow : bits ((c.1 + 256 * c.2) % 2 ^ 16) 0 8 = c.1 := by unfold bits; omega
    have hhigh : bits ((c.1 + 256 * c.2) % 2 ^ 16) 8 6 = c.2 := by unfold bits; omega
    rw [hlow, hhigh]

/-- What QUANTISE writes for a group fits its place. -/
theorem placeGroup_fits (h : PlaceOk s im l p) (ws : Nat → Int) (o j : Nat) :
    (placeGroup s im l p).Fits (groupCodes s im ws (layerLevels s im l) l p o j) (scaleWordFor s im ws (layerLevels s im l) l p o j)
      (groupScale s im ws (layerLevels s im l) l p o j) (zeroWritten l (p.o0 + o) (p.i0 / l.g + j)) := by
  refine ⟨(List.length_map _).trans (groupWeights_length ws l p o j), fun c hc => ?_, scaleWordFor_reads ws _ o j, fun z hz => ?_⟩
  · obtain ⟨w, -, rfl⟩ := List.mem_map.mp hc
    refine (codeFor_lt (layerLevels_ne_nil s im l) _ _ _).trans_eq ?_
    rw [layerLevels_length]
    show _ = 2 ^ (64 / perRow l.format)
    have hformat : l.format ≤ 2 := h.group.format
    rcases perRow_cases hformat with ⟨hf, hp⟩ | ⟨hf, hp⟩
    · rw [hp, if_neg (by omega)]
      decide
    · rw [hp, if_pos hf]
      decide
  · unfold zeroWritten at hz
    split at hz
    · next q hq =>
      obtain rfl := Option.some.inj hz
      exact h.pins q (List.mem_of_find?_eq_some hq)
    · split at hz
      · simp at hz
      · obtain rfl := Option.some.inj hz
        exact fitsIn_zero 8

/-! ### The writes of a placement -/

/-- A group written into every unit of the placement. -/
def writeGroups (s : State) (im : Image) (ws : Nat → Int) (l : Layer) (p : LayerPlace) (o : Nat) (x : State) (j : Nat) : State :=
  (unitsOf im p).foldl (fun (y : State) g => y.setUnit g ((placeGroup s im l p).write o j (groupCodes s im ws (layerLevels s im l) l p o j)
    (scaleWordFor s im ws (layerLevels s im l) l p o j) (zeroWritten l (p.o0 + o) (p.i0 / l.g + j)) (y.unit g))) x

theorem writePlace_eq (ws : Nat → Int) (acc : State) : writePlace s im ws (layerLevels s im l) l acc p =
    (List.range 32).foldl (fun a o => (List.range (p.ni / l.g)).foldl (writeGroups s im ws l p o) a) acc := rfl

variable (h : PlaceOk s im l p) (ws : Nat → Int) {o j : Nat} (ho : o < 32) (hj : j < p.ni / l.g)

/-- Unit g holds group (o, j) of the placement. -/
def HoldsGroup (s : State) (im : Image) (l : Layer) (p : LayerPlace) (ws : Nat → Int) (o j g : Nat) (y : State) : Prop :=
  (placeGroup s im l p).In o j (groupCodes s im ws (layerLevels s im l) l p o j) (groupScale s im ws (layerLevels s im l) l p o j)
    (zeroWritten l (p.o0 + o) (p.i0 / l.g + j)) (y.unit g)

include h ho hj

theorem writeGroups_keeps {g o' j' : Nat} (ho' : o' < 32) (hj' : j' < p.ni / l.g) {x : State} (hx : HoldsGroup s im l p ws o j g x) :
    HoldsGroup s im l p ws o j g (writeGroups s im ws l p o' x j') := by
  refine foldl_keeps (HoldsGroup s im l p ws o j g) (fun y g' hy => ?_) hx
  by_cases hg : g' = g
  · subst hg
    unfold HoldsGroup
    rw [State.setUnit_unit]
    by_cases hsame : (o', j') = (o, j)
    · obtain ⟨rfl, rfl⟩ := Prod.mk.inj hsame
      exact GroupAt.write_in h.group ho hj (placeGroup_fits h ws o' j') _
    · exact GroupAt.write_keeps h.group ho hj ho' hj' hsame hy _ _ _
  · unfold HoldsGroup
    rw [State.setUnit_unit_other _ _ _ _ (fun he => hg he.symm)]
    exact hy

theorem writeGroups_sets {g : Nat} (hg : g ∈ unitsOf im p) (x : State) : HoldsGroup s im l p ws o j g (writeGroups s im ws l p o x j) := by
  refine foldl_reaches hg (fun y => ?_) (fun y g' _ hy => ?_)
  · unfold HoldsGroup
    rw [State.setUnit_unit]
    exact GroupAt.write_in h.group ho hj (placeGroup_fits h ws o j) _
  · by_cases hgg : g' = g
    · subst hgg
      unfold HoldsGroup
      rw [State.setUnit_unit]
      exact GroupAt.write_in h.group ho hj (placeGroup_fits h ws o j) _
    · unfold HoldsGroup
      rw [State.setUnit_unit_other _ _ _ _ (fun he => hgg he.symm)]
      exact hy

/-- A placement that has been written is there, in every unit. -/
theorem writePlace_holds {g : Nat} (hg : g ∈ unitsOf im p) (acc : State) :
    HoldsGroup s im l p ws o j g (writePlace s im ws (layerLevels s im l) l acc p) := by
  rw [writePlace_eq]
  refine foldl_reaches (p := HoldsGroup s im l p ws o j g) (List.mem_range.mpr ho) (fun y => ?_) (fun y o' ho' hy => ?_)
  · exact foldl_reaches (List.mem_range.mpr hj) (fun z => writeGroups_sets h ws ho hj hg z)
      (fun z j' hj' hz => writeGroups_keeps h ws ho hj ho (List.mem_range.mp hj') hz)
  · exact foldl_keeps_of_mem (fun z j' hj' hz => writeGroups_keeps h ws ho hj (List.mem_range.mp ho') (List.mem_range.mp hj') hz) hy

end

/-! ### What a layer that has been written holds -/

section
variable {s : State} {im : Image} {l : Layer} {p : LayerPlace}

theorem codeOf_word {m : Store} {a f o i : Nat} (hf : f ≤ 2) (hi : i < perRow f) :
    codeOf m a f (perRow f * o + i) = bits (m.word (a + o)).toNat (64 / perRow f * i) (64 / perRow f) := by
  unfold codeOf
  rcases perRow_cases hf with ⟨hlt, hp⟩ | ⟨rfl, hp⟩ <;> rw [hp] at hi ⊢
  · rw [if_pos hlt, Nat.mul_add_div (by decide), Nat.mul_add_mod, Nat.div_eq_of_lt hi, Nat.mod_eq_of_lt hi, Nat.add_zero]
  · rw [if_neg (by decide), Nat.mul_add_div (by decide), Nat.mul_add_mod, Nat.div_eq_of_lt hi, Nat.mod_eq_of_lt hi, Nat.add_zero]

theorem groupCodes_getD (ws : Nat → Int) (ls : List Int) (o j : Nat) {i : Nat} (hi : i < l.g) :
    (groupCodes s im ws ls l p o j).getD i 0 = codeFor ls (groupScale s im ws ls l p o j) (groupZero s im l p o j)
      (if p.o0 + o < l.out then ws ((p.o0 + o) * l.inp + p.i0 + l.g * j + i) else 0) := by
  simp only [groupCodes, groupWeights, List.getD_eq_getElem?_getD, List.getElem?_map, List.getElem?_range hi, Option.map_some, Option.getD_some]

theorem HoldsGroup.reads {ws : Nat → Int} {o j g i : Nat} {y : State} (h : PlaceOk s im l p) (hy : HoldsGroup s im l p ws o j g y) (hi : i < l.g) :
    codeOf (y.unit g).weight (32 * ((p.row + j * (l.g / perRow l.format) + i / perRow l.format + s.fld (fMenuBase ((unitsOf im p).headD 0) p.menu)) % 512))
        l.format (perRow l.format * o + i % perRow l.format) =
      codeFor (layerLevels s im l) (groupScale s im ws (layerLevels s im l) l p o j) (groupZero s im l p o j)
        (if p.o0 + o < l.out then ws ((p.o0 + o) * l.inp + p.i0 + l.g * j + i) else 0) ∧
    scaleWord (y.unit g).scale (p.set + j) o = groupScale s im ws (layerLevels s im l) l p o j ∧
    (∀ q : LayerPin, pinOf l (p.o0 + o) (p.i0 / l.g + j) = some q →
      groupZero s im l p o j = q.zp ∧ zeroPoint (y.unit g).zp (p.zp + j) o = groupZero s im l p o j) := by
  obtain ⟨hcode, hscale, hzero⟩ := hy
  have hformat : l.format ≤ 2 := h.group.format
  have hpos : 0 < perRow l.format := h.group.perRow.2
  refine ⟨?_, hscale, fun q hq => ?_⟩
  · have hrow : i / perRow l.format < l.g / perRow l.format := by
      have hdvd : l.g = perRow l.format * (l.g / perRow l.format) := by
        have hsize : l.g = 32 ∨ l.g = 64 ∨ l.g = 128 := h.group.size
        rcases hsize with hs | hs | hs <;> rcases perRow_cases hformat with ⟨-, hp⟩ | ⟨-, hp⟩ <;> rw [hs, hp]
      exact Nat.div_lt_of_lt_mul (hdvd ▸ hi)
    have hin := hcode (i / perRow l.format) (i % perRow l.format) hrow (Nat.mod_lt i hpos)
    have hat : perRow l.format * (i / perRow l.format) + i % perRow l.format = i := Nat.div_add_mod i _
    rw [codeOf_word hformat (Nat.mod_lt i hpos), ← groupCodes_getD ws _ o j hi]
    rw [show (placeGroup s im l p).fmt = l.format from rfl, hat] at hin
    exact hin
  · have hzp : groupZero s im l p o j = q.zp := by rw [groupZero, hq]
    refine ⟨hzp, ?_⟩
    rw [hzp]
    exact hzero q.zp (by rw [zeroWritten, hq])

/-- A layer of one placement. -/
theorem writeLayer_single (ws : Nat → Int) (hp : l.places = [p]) : (writeLayer s im ws l).1 = writePlace s im ws (layerLevels s im l) l s p := by
  rw [writeLayer, hp]
  rfl

/-- Only units change. -/
theorem writeLayer_frame (ws : Nat → Int) : { (writeLayer s im ws l).1 with units := s.units } = s := by
  have hunits : ∀ (y : State) (gs : List Nat) (f : Nat → DotUnit → DotUnit), { y with units := s.units } = s →
      { gs.foldl (fun x g => x.setUnit g (f g (x.unit g))) y with units := s.units } = s := fun y gs f hy =>
    foldl_keeps (fun x : State => { x with units := s.units } = s) (fun _ _ hx => hx) hy
  refine foldl_keeps (fun x : State => { x with units := s.units } = s) (fun y p hy => ?_) rfl
  refine foldl_keeps (fun x : State => { x with units := s.units } = s) (fun z o hz => ?_) hy
  exact foldl_keeps (fun x : State => { x with units := s.units } = s) (fun u j hu => hunits u _ _ hu) hz

end

end Sys2Proof.Machine

/-!
A command that reads its source from the host or from the package (13 R341, R342, R344), and VERIFY_IMAGE.
-/
namespace Sys2Proof.Machine

/-! ### The source is read -/

section
variable {s : State} {r i : Nat} {b x y : List Byte} {p : CmdPhase}

theorem sourceLen_of_image (hop : opcodeOf b ≠ 3) : sourceLen b = opn b 0x18 4 := if_neg hop

theorem sourceBegun_hostOnly (s : State) (r : Nat) (b x y : List Byte) : HostOnly r s (sourceBegun s r b x y) :=
  (askHost_hostOnly s r _ _ _ _).trans (setPhase_hostOnly _ r _)

theorem sourceBegun_cur (hcur : (s.ring r).cur = some ⟨i, b, p⟩) (x y : List Byte) :
    ((sourceBegun s r b x y).ring r).cur = some ⟨i, b, .reading x y [] [] []⟩ :=
  setPhase_cur (s := askHost s r (opn b 0x10 6) (sourceLen b) (cmdIndex s r) false) hcur _

theorem sourceBegun_pathOut (s : State) (r : Nat) (b x y : List Byte) :
    pathOut (sourceBegun s r b x y) r = pathOut s r ++ readsOut s r (opn b 0x10 6) (sourceLen b) := by
  rw [← pathOut_askHost s r _ _ (cmdIndex s r) false]
  exact pathOut_congr rfl (setPhase_hostOnly _ r _).path

/-- The host is asked for the source. -/
theorem beginRead_host (hcur : (s.ring r).cur = some ⟨i, b, p⟩) (hhost : fromPackage b = false) (hlen : 0 < sourceLen b)
    (hpath : pathHasGroup s r = true) (x y : List Byte) : beginRead s r b x y = workStep (sourceBegun s r b x y) r 4 := by
  have hok : sourceOk s r b = true := by simp [sourceOk, hhost, hlen, hpath]
  have hopen : openSource s r ⟨i, b, p⟩ x y [] = sourceBegun s r b x y := by
    simp only [openSource, hhost, Bool.false_eq_true, if_false, sourceBegun, cmdIndex, hcur, Option.map_some, List.isEmpty_nil, Bool.not_true]
  simp only [beginRead, hcur, hok, if_true, hopen]

/-- A source that the host has answered whole is read in one part. -/
theorem workPart_host {given later prior : List Byte} (hcur : (s.ring r).cur = some ⟨i, b, .reading given later prior [] []⟩)
    (hhost : fromPackage b = false) (hlen : given.length = sourceLen b) (hpos : 0 < sourceLen b) (hfit : prior.length + sourceLen b ≤ 262144) :
    workPart s r ⟨0, []⟩ = some (sourceRead s r ⟨i, b, .reading given later prior [] []⟩ later prior given []) := by
  have hne : given.isEmpty = false := by
    rw [List.isEmpty_eq_false_iff]
    rintro rfl
    exact absurd hlen hpos.ne
  have hleft : stepLeft 0 (prior.length + 0) (sourceLen b) = sourceLen b := by unfold stepLeft; omega
  have htake : given.take (sourceLen b) = given := List.take_of_length_le hlen.le
  have hpart : sourcePart s b prior.length ([] : List Byte).length given ⟨0, []⟩ = some (given, [], given.drop (sourceLen b), s) := by
    simp only [sourcePart, List.length_nil, hleft, hhost, Bool.false_eq_true, if_false, hne, htake]
  simp only [workPart, hcur, readingPart, hpart, Option.map_some, List.nil_append, hlen, le_refl, if_true]

/-- A part that ends the command ends the step. -/
theorem workStep_ends {t : State} {st : Nat} {res : Word64} (hpart : workPart s r ⟨0, []⟩ = some t) (hdone : phaseOf t r = some (.done st res)) (fuel : Nat) :
    workStep s r (fuel + 1) = t := by
  have hmid : midStep t r = false := by simp [midStep, hdone]
  rw [workStep, hpart]
  simp [hmid, noteStep, hdone]

end

/-! ### PKG_LOAD and DIGEST (R341, 09 R238) -/

section
variable (s : State)

theorem recordLoad_frame (e : Option (Nat × Nat)) : { recordLoad s e with regs := s.regs, freeNext := s.freeNext } = s := by cases e <;> rfl

theorem recordLoad_fld {f : Fld} (hf : f.addr ≠ 0x000C) (e : Option (Nat × Nat)) : (recordLoad s e).fld f = s.fld f := by
  cases e with
  | none => exact congrArg (fun w : Word32 => bits w.toNat f.lo f.w) ((State.raw_setRaw_other _ _ hf).trans (State.raw_congr rfl rfl rfl _))
  | some v => exact congrArg (fun w : Word32 => bits w.toNat f.lo f.w) (State.raw_setRaw_other s _ hf)

/-- A part of the state other than the registers and the count of free values. -/
theorem recordLoad_part {α : Type} (f : State → α) (e : Option (Nat × Nat))
    (hf : f { recordLoad s e with regs := s.regs, freeNext := s.freeNext } = f (recordLoad s e)) : f (recordLoad s e) = f s :=
  hf.symm.trans (congrArg f (recordLoad_frame s e))

theorem recordLoad_pathOut {r : Nat} (hr : r < 64) (e : Option (Nat × Nat)) : pathOut (recordLoad s e) r = pathOut s r :=
  pathOut_congr (recordLoad_part s State.ctxs e rfl) (recordLoad_fld s (by simp only [fHrgPath, ringBase]; omega) e)

theorem writeDigest_hostOnly (r : Nat) (b d : List Byte) : HostOnly r s (writeDigest s r b d) := by
  unfold writeDigest
  dsimp only
  split
  · exact HostOnly.refl r s
  · exact hostWrite_hostOnly s r _ _

theorem writeDigest_ring (r : Nat) (b d : List Byte) (q : Nat) : (writeDigest s r b d).ring q = s.ring q := by
  unfold writeDigest
  dsimp only
  split <;> rfl

theorem writeDigest_pathOut (r : Nat) (b d : List Byte) :
    pathOut (writeDigest s r b d) r = pathOut s r ++ if 0 < opn b 0x20 6 then writeFlits (opn b 0x20 6) d else [] := by
  unfold writeDigest
  dsimp only
  by_cases h : opn b 0x20 6 = 0
  · simp [h]
  · rw [if_neg h, if_pos (Nat.pos_of_ne_zero h), pathOut_hostWrite]

end

/-! ### VERIFY_IMAGE (09 R237) -/

section
variable {s : State} {r : Nat} {c : RingCmd} {x : List Byte}

/-- The digest has been written, and the image is judged. -/
theorem verifyRead_spec (hr : r < 64) (hcur : (s.ring r).cur = some c) {w : State} (hw : w = writeDigest s r c.bytes (sha256 x)) :
    ∃ n, endsWith (verifyRead s r c x) r ((imageError w x false).map (fun e => e.1) |>.getD 0) n ∧
      (verifyRead s r c x).image = s.image ∧ (verifyRead s r c x).units = s.units ∧ (verifyRead s r c x).clusters = s.clusters ∧
      (verifyRead s r c x).run = s.run ∧ pathOut (verifyRead s r c x) r = pathOut w r := by
  subst hw
  have hkept := writeDigest_hostOnly s r c.bytes (sha256 x)
  have hcur' : ((recordLoad (writeDigest s r c.bytes (sha256 x)) (imageError (writeDigest s r c.bytes (sha256 x)) x false)).ring r).cur = some c := by
    rw [State.ring, recordLoad_rings]
    exact (congrArg Ring.cur (writeDigest_ring s r c.bytes (sha256 x) r)).trans hcur
  have hpart : ∀ {α : Type} (f : State → α), (∀ (t : State) (g : SMap Ring), f { t with rings := g } = f t) →
      (∀ (t : State) (a : SMap Word32) (n : Nat), f { t with regs := a, freeNext := n } = f t) →
      (∀ (t : State) (a : SMap Word32) (g : SMap Ring) (n : SMap CtxSt), f { t with regs := a, rings := g, ctxs := n } = f t) →
      f (verifyRead s r c x) = f s := fun f h1 h2 h3 =>
    (h1 _ _).trans ((recordLoad_part _ f _ (h2 _ _ _)).trans (hkept.part f (h3 _ _ _ _)))
  refine ⟨_, endsWith_endCmd hcur' _ _, hpart State.image (fun _ _ => rfl) (fun _ _ _ => rfl) (fun _ _ _ _ => rfl),
    hpart State.units (fun _ _ => rfl) (fun _ _ _ => rfl) (fun _ _ _ _ => rfl), hpart State.clusters (fun _ _ => rfl) (fun _ _ _ => rfl) (fun _ _ _ _ => rfl),
    hpart State.run (fun _ _ => rfl) (fun _ _ _ => rfl) (fun _ _ _ _ => rfl), ?_⟩
  exact (pathOut_congr rfl (setPhase_hostOnly _ r _).path).trans (recordLoad_pathOut _ hr _)

end

end Sys2Proof.Machine

/-!
VERIFY_IMAGE, and what an image's source that cannot be read answers (13 R341, R342).
-/
namespace Sys2Proof.Machine

theorem begun_shared (s : State) (r : Nat) {op : Nat} (h : exclusive op = false) : begun s r op = takeHead s r := if_neg (by simp [h])

theorem begun_exclusive (s : State) (r : Nat) {op : Nat} (h : exclusive op = true) : begun s r op = takeLock (takeHead s r) r := if_pos h

theorem begun_pathOut (s : State) (r op : Nat) : pathOut (begun s r op) r = pathOut s r := pathOut_congr (begun_ctxs s r op) (begun_hostOnly s r op).path

theorem digestOk_of {s : State} {r : Nat} {b : List Byte} (h : opn b 0x20 6 = 0 ∨ pathHasGroup s r = true) : digestOk s r b = true := by
  unfold digestOk
  rcases h with h | h <;> simp [h]

section
variable {s : State} {r i : Nat} {b x : List Byte} {p : CmdPhase}

/-! ### From the host -/

theorem runVerify_host (hr : r < 64) (hcur : (s.ring r).cur = some ⟨i, b, p⟩) (hop : opcodeOf b = 2) (hhost : fromPackage b = false)
    (hlen : x.length = sourceLen b) (hpos : 0 < sourceLen b) (hfit : sourceLen b ≤ 262144) (hpath : pathHasGroup s r = true) :
    runVerify r x s b = verifyRead (sourceBegun s r b x []) r ⟨i, b, .reading x [] [] [] []⟩ x := by
  have hwork := sourceBegun_cur hcur x []
  have hpart : workPart (sourceBegun s r b x []) r ⟨0, []⟩ = some (verifyRead (sourceBegun s r b x []) r ⟨i, b, .reading x [] [] [] []⟩ x) := by
    rw [workPart_host hwork hhost hlen hpos (by simpa using hfit), sourceRead]
    simp only [hop]
  obtain ⟨n, hdone, -⟩ := verifyRead_spec (x := x) hr hwork rfl
  rw [runVerify, digestOk_of (.inr hpath), if_pos rfl, beginRead_host hcur hhost hpos hpath, workStep_ends hpart hdone]

/-! ### From a cluster store -/

/-- The bytes of a source that lies in a cluster store. -/
def storeBytes (s : State) (k w n : Nat) : List Byte := ((List.range ((n + 7) / 8)).flatMap (fun i => leBytes 8 (storeRead s k (w + i)).1.toNat)).take n

theorem storeBytes_congr {t : State} (h : t.clusters = s.clusters) (k w n : Nat) : storeBytes t k w n = storeBytes s k w n := by
  simp only [storeBytes, storeRead_congr h]

theorem storeBytes_length (s : State) (k w n : Nat) : (storeBytes s k w n).length = n := by
  have hall : ((List.range ((n + 7) / 8)).flatMap (fun i => leBytes 8 (storeRead s k (w + i)).1.toNat)).length = 8 * ((n + 7) / 8) := by
    simp [List.length_flatMap, Nat.mul_comm]
  rw [storeBytes, List.length_take, hall]
  omega

theorem sourcePart_store {k w : Nat} (hpkg : fromPackage b = true) (hfit : sourceLen b ≤ 262144) (halign : opn b 0x10 6 % 8 = 0)
    (hrange : rangeOk s (opn b 0x10 6) (sourceLen b) true = true) (hplace : placeOf s (opn b 0x10 6) = .store k w) (given : List Byte) :
    ∃ bad, sourcePart s b 0 0 given ⟨0, []⟩ = some (storeBytes s k w (sourceLen b), bad, given, s) := by
  have hat : ∀ j, j < (sourceLen b + 7) / 8 → placeOf s (opn b 0x10 6 + 8 * j) = .store k (w + j) := fun j hj =>
    placeOf_in_range hrange hplace halign (by omega)
  have htile : tileOf s (opn b 0x10 6) = none := tileOf_of_store hplace
  have hmay : hostMay s (opn b 0x10 6) = true := by rw [hostMay, htile]
  have hleft : stepLeft 0 (0 + 0) (sourceLen b) = sourceLen b := by unfold stepLeft; omega
  have hburst : burstLen s (opn b 0x10 6) (sourceLen b) = sourceLen b := by simp [burstLen, htile]
  have hread : readPart s (opn b 0x10 6) ((sourceLen b + 7) / 8) ⟨0, []⟩ =
      ((List.range ((sourceLen b + 7) / 8)).map (fun j => storeRead s k (w + j)), s) := by
    rw [readPart, htile]
    exact pkgWords_store hat
  refine ⟨(indicesOf (fun e : Word64 × Bool => e.2) ((List.range ((sourceLen b + 7) / 8)).map (fun j => storeRead s k (w + j)))).map (0 / 8 + ·), ?_⟩
  simp only [sourcePart, hpkg, if_true, Nat.add_zero, hmay, hleft, hburst, hread, wordBytes, List.flatMap_map]
  rfl

theorem runVerify_store {k w : Nat} (hr : r < 64) (hcur : (s.ring r).cur = some ⟨i, b, p⟩) (hop : opcodeOf b = 2) (hpkg : fromPackage b = true)
    (hfit : sourceLen b ≤ 262144) (halign : opn b 0x10 6 % 8 = 0) (hrange : rangeOk s (opn b 0x10 6) (sourceLen b) true = true)
    (hplace : placeOf s (opn b 0x10 6) = .store k w) (hpath : pathHasGroup s r = true) :
    runVerify r x s b = verifyRead (setPhase s r (.reading x [] [] [] [])) r ⟨i, b, .reading x [] [] [] []⟩ (storeBytes s k w (sourceLen b)) := by
  have hkept := setPhase_hostOnly s r (.reading x [] [] [] [])
  have hwork := setPhase_cur hcur (.reading x [] [] [] [])
  have hok : sourceOk s r b = true := by simp [sourceOk, hpkg, halign, hrange]
  have hopen : openSource s r ⟨i, b, p⟩ x [] [] = setPhase s r (.reading x [] [] [] []) := by simp only [openSource, hpkg, if_true]
  obtain ⟨bad, hsource⟩ := sourcePart_store (s := setPhase s r (.reading x [] [] [] [])) hpkg hfit halign ((hkept.rangeOk _ _ _).trans hrange)
    ((hkept.placeOf _).trans hplace) x
  rw [storeBytes_congr hkept.clusters] at hsource
  have hpart : workPart (setPhase s r (.reading x [] [] [] [])) r ⟨0, []⟩ =
      some (verifyRead (setPhase s r (.reading x [] [] [] [])) r ⟨i, b, .reading x [] [] [] []⟩ (storeBytes s k w (sourceLen b))) := by
    simp only [workPart, hwork, readingPart, List.length_nil, hsource, Option.map_some, List.nil_append, storeBytes_length, le_refl, if_true, sourceRead, hop]
  obtain ⟨n, hdone, -⟩ := verifyRead_spec (x := storeBytes s k w (sourceLen b)) hr hwork rfl
  rw [runVerify, digestOk_of (.inr hpath), if_pos rfl, beginRead]
  simp only [hcur, hok, if_true, hopen]
  exact workStep_ends hpart hdone 3

/-! ### A source or DIGEST that cannot be reached -/

theorem beginRead_refused {c : RingCmd} (hcur : (s.ring r).cur = some c) (h : sourceOk s r b = false) (y : List Byte) :
    beginRead s r b x y = endCmd s r stRange 0 := by simp [beginRead, hcur, h]

theorem runVerify_refused {c : RingCmd} (hcur : (s.ring r).cur = some c) (h : digestOk s r b = false ∨ sourceOk s r b = false) :
    runVerify r x s b = endCmd s r stRange 0 := by
  unfold runVerify
  split
  · next hd => exact beginRead_refused hcur (h.resolve_left (by simp [hd])) []
  · rfl

theorem runLoad_refused {c : RingCmd} (hcur : (s.ring r).cur = some c) (hruns : stopsRuns s = false) (h : digestOk s r b = false ∨ sourceOk s r b = false)
    (y : List Byte) : runLoad r x y s b = endCmd s r stRange 0 := by
  unfold runLoad
  rw [hruns, if_neg Bool.false_ne_true]
  split
  · next hd => exact beginRead_refused hcur (h.resolve_left (by simp [hd])) y
  · rfl

/-- What R341 asks of the source and of DIGEST is not given. -/
theorem unreachable_of (hop : opcodeOf b ≠ 3) (h : opn b 0x18 4 = 0 ∨ (opn b 0x20 6 ≠ 0 ∧ pathHasGroup s r = false) ∨
    (fromPackage b = false ∧ pathHasGroup s r = false) ∨
      (fromPackage b = true ∧ (opn b 0x10 6 % 8 ≠ 0 ∨ rangeOk s (opn b 0x10 6) (opn b 0x18 4) true = false))) :
    digestOk s r b = false ∨ sourceOk s r b = false := by
  unfold digestOk sourceOk
  dsimp only
  rw [sourceLen_of_image hop]
  rcases h with hlen | ⟨hdigest, hpath⟩ | ⟨hhost, hpath⟩ | ⟨hpkg, hrange⟩
  · right
    cases fromPackage b <;> simp [hlen, rangeOk]
  · exact .inl (by simp [hdigest, hpath])
  · exact .inr (by simp [hhost, hpath])
  · right
    rcases hrange with h | h <;> simp [hpkg, h]

theorem HostOnly.stopsRuns {t : State} (h : HostOnly r s t) (hr : r < 64) : stopsRuns t = stopsRuns s := by
  have hsupply : t.is fSupplyStop = s.is fSupplyStop := h.is_far hr (.inl (by decide))
  have htrip : t.thermal = s.thermal := h.part State.thermal rfl
  rw [Machine.stopsRuns, Machine.stopsRuns, hsupply, htrip]

end

/-! ### The clauses of VERIFY_IMAGE -/

/-- VERIFY_IMAGE of an image in host memory. -/
theorem verifyImage_host {r : RingIx} {b x : List Byte} {s w : State} (h : headCommand s r.val 2 b) (hhost : bits (opn b 0x16 1) 0 1 = 0)
    (hpos : 0 < opn b 0x18 4) (hfit : opn b 0x18 4 ≤ 262144) (hlen : x.length = opn b 0x18 4) (hpath : pathHasGroup s r.val = true)
    (hw : w = writeDigest (sourceBegun (takeHead s r.val) r.val b x []) r.val b (sha256 x)) :
    ∃ t n, exec (.verifyImage r x) s = .next t ∧ endsWith t r.val ((imageError w x false).map (fun e => e.1) |>.getD 0) n ∧
      t.image = s.image ∧ t.units = s.units ∧ t.clusters = s.clusters ∧ t.run = s.run ∧
      pathOut t r.val = pathOut s r.val ++ readsOut s r.val (opn b 0x10 6) (opn b 0x18 4) ++
        (if 0 < opn b 0x20 6 then writeFlits (opn b 0x20 6) (sha256 x) else []) := by
  have hop := headCommand_op h
  have hsrc : sourceLen b = opn b 0x18 4 := sourceLen_of_image (by rw [hop]; decide)
  have hhost' : fromPackage b = false := by simp [fromPackage, hhost]
  obtain ⟨i, hcur⟩ := headCommand_cur h
  have hbegun := begun_hostOnly s r.val 2
  rw [← begun_shared s r.val (op := 2) (by decide)] at hw
  have hrun := runVerify_host (x := x) r.isLt hcur hop hhost' (hsrc ▸ hlen) (hsrc ▸ hpos) (hsrc ▸ hfit) ((hbegun.pathHasGroup r.isLt).trans hpath)
  obtain ⟨n, hends, himage, hunits, hclusters, hruns, hout⟩ := verifyRead_spec (x := x) r.isLt (sourceBegun_cur hcur x []) hw
  have hkept := hbegun.trans (sourceBegun_hostOnly (begun s r.val 2) r.val b x [])
  refine ⟨_, n, (serve_of_headCommand h _).trans (congrArg Host.Outcome.next hrun), hends, himage.trans (hkept.part State.image rfl),
    hunits.trans (hkept.part State.units rfl), hclusters.trans hkept.clusters, hruns.trans (hkept.part State.run rfl), ?_⟩
  rw [hout, hw, writeDigest_pathOut, sourceBegun_pathOut, begun_pathOut, readsOut_congr (begun_ctxs s r.val 2) hbegun.path, hsrc]

/-- VERIFY_IMAGE of an image in a cluster store: the digest is that of its bytes. -/
theorem verifyImage_store {r : RingIx} {b x y : List Byte} {n k w : Nat} {s : State} (h : headCommand s r.val 2 b) (hpkg : fromPackage b = true)
    (hn : n = opn b 0x18 4) (hfit : n ≤ 262144) (halign : opn b 0x10 6 % 8 = 0) (hrange : rangeOk s (opn b 0x10 6) n true = true)
    (hplace : placeOf s (opn b 0x10 6) = .store k w) (hdigest : opn b 0x20 6 ≠ 0) (hpath : pathHasGroup s r.val = true) (hy : y = storeBytes s k w n) :
    ∃ t, exec (.verifyImage r x) s = .next t ∧ pathOut t r.val = pathOut s r.val ++ writeFlits (opn b 0x20 6) (sha256 y) ∧ t.image = s.image ∧
      t.units = s.units ∧ t.clusters = s.clusters := by
  have hop := headCommand_op h
  have hsrc : sourceLen b = n := (sourceLen_of_image (by rw [hop]; decide)).trans hn.symm
  obtain ⟨i, hcur⟩ := headCommand_cur h
  have hbegun := begun_hostOnly s r.val 2
  have hrun := runVerify_store (x := x) r.isLt hcur hop hpkg (hsrc.symm ▸ hfit) halign ((hbegun.rangeOk _ _ _).trans (hsrc.symm ▸ hrange))
    ((hbegun.placeOf _).trans hplace) ((hbegun.pathHasGroup r.isLt).trans hpath)
  rw [storeBytes_congr hbegun.clusters, hsrc, ← hy] at hrun
  obtain ⟨m, -, himage, hunits, hclusters, -, hout⟩ := verifyRead_spec (x := y) r.isLt (setPhase_cur hcur (.reading x [] [] [] [])) rfl
  have hkept := hbegun.trans (setPhase_hostOnly (begun s r.val 2) r.val (.reading x [] [] [] []))
  refine ⟨_, (serve_of_headCommand h _).trans (congrArg Host.Outcome.next hrun), ?_, himage.trans (hkept.part State.image rfl),
    hunits.trans (hkept.part State.units rfl), hclusters.trans hkept.clusters⟩
  rw [hout, writeDigest_pathOut, if_pos (Nat.pos_of_ne_zero hdigest), pathOut_congr (setPhase_ctxs _ _ _) (setPhase_hostOnly _ r.val _).path, begun_pathOut]

/-- LOAD_IMAGE and VERIFY_IMAGE that cannot reach their source or DIGEST. -/
theorem image_unreachable {c : Instr} {op : Nat} {r : RingIx} {b x y : List Byte} {s : State}
    (hc : (c, op) ∈ [(Instr.loadImage r x y, 1), (.verifyImage r x, 2)]) (h : headCommand s r.val op b) (hruns : op = 1 → stopsRuns s = false)
    (hsource : opn b 0x18 4 = 0 ∨ (opn b 0x20 6 ≠ 0 ∧ pathHasGroup s r.val = false) ∨ (fromPackage b = false ∧ pathHasGroup s r.val = false) ∨
      (fromPackage b = true ∧ (opn b 0x10 6 % 8 ≠ 0 ∨ rangeOk s (opn b 0x10 6) (opn b 0x18 4) true = false))) :
    ∃ t, exec c s = .next t ∧ endsWith t r.val stRange 0 ∧ t.image = s.image ∧ t.units = s.units ∧ pathOut t r.val = pathOut s r.val := by
  obtain ⟨i, hcur⟩ := headCommand_cur h
  have hbegun := begun_hostOnly s r.val op
  have hkept := hbegun.trans (endCmd_hostOnly (begun s r.val op) r.val stRange 0)
  have hrefused : opcodeOf b ≠ 3 → digestOk (begun s r.val op) r.val b = false ∨ sourceOk (begun s r.val op) r.val b = false := fun hop =>
    unreachable_of hop (by rw [hbegun.pathHasGroup r.isLt, hbegun.rangeOk]; exact hsource)
  have hrun : exec c s = .next (endCmd (begun s r.val op) r.val stRange 0) := by
    simp only [List.mem_cons, Prod.mk.injEq, List.not_mem_nil, or_false] at hc
    rcases hc with ⟨rfl, rfl⟩ | ⟨rfl, rfl⟩
    · exact (serve_of_headCommand h _).trans (congrArg Host.Outcome.next (runLoad_refused hcur ((hbegun.stopsRuns r.isLt).trans (hruns rfl))
        (hrefused (by rw [headCommand_op h]; decide)) y))
    · exact (serve_of_headCommand h _).trans (congrArg Host.Outcome.next (runVerify_refused hcur (hrefused (by rw [headCommand_op h]; decide))))
  refine ⟨_, hrun, endsWith_endCmd hcur _ _, hkept.part State.image rfl, hkept.part State.units rfl, ?_⟩
  rw [endCmd, pathOut_congr (setPhase_ctxs _ _ _) (setPhase_hostOnly _ r.val _).path, begun_pathOut]

end Sys2Proof.Machine

/-!
QUANTISE (13 R344; 03 R83 to R86): when it is refused for the state, and what it writes.
-/
namespace Sys2Proof.Machine

/-! ### What the engine's work leaves of a layer -/

section
variable {s t : State} {im : Image} {l : Layer}

theorem farAddr_unit (g o : Nat) : farAddr (unitBase g + o) := .inr (by simp only [unitBase, clusterBase, regionBase, dieBase]; omega)

theorem FarSame.codebook (h : FarSame s t) (g : Nat) : codebook t g = codebook s g := by
  have hdefault : t.is (fDefaultCb g) = s.is (fDefaultCb g) := h.is (farAddr_unit g _)
  have hwords : ∀ i, t.fld (fCodebook g i) = s.fld (fCodebook g i) := fun i => h.fld (fCodebook g i) (by
    have := farAddr_unit g (0x10 + 4 * i)
    simpa only [fCodebook, Nat.add_assoc] using this)
  rw [Machine.codebook, Machine.codebook, hdefault]
  simp only [hwords]

theorem FarSame.formatsDiffer (h : FarSame s t) : formatsDiffer t im l = formatsDiffer s im l := by
  have hformat : ∀ g, t.fld (fFormat g) = s.fld (fFormat g) := fun g => h.fld (fFormat g) (farAddr_unit g _)
  unfold Machine.formatsDiffer
  simp only [hformat, h.codebook]

theorem FarSame.layerLevels (h : FarSame s t) : layerLevels t im l = layerLevels s im l := by rw [Machine.layerLevels, Machine.layerLevels, h.codebook]

theorem FarSame.menuBase (h : FarSame s t) (g m : Nat) : t.fld (fMenuBase g m) = s.fld (fMenuBase g m) := h.fld (fMenuBase g m) (by
  have := farAddr_unit g (0x20 + 4 * (m / 2))
  simpa only [fMenuBase, Nat.add_assoc] using this)

theorem groupZero_congr (h : t.units = s.units) (p : LayerPlace) (o j : Nat) : groupZero t im l p o j = groupZero s im l p o j := by
  unfold groupZero State.unit
  rw [h]

theorem groupScale_congr (h : t.units = s.units) (ws : Nat → Int) (ls : List Int) (p : LayerPlace) (o j : Nat) :
    groupScale t im ws ls l p o j = groupScale s im ws ls l p o j := by
  unfold groupScale
  simp only [groupZero_congr h]

theorem FarSame.layerRefused (h : FarSame s t) (hunits : t.units = s.units) : layerRefused t im l = layerRefused s im l := by
  unfold Machine.layerRefused
  simp only [h.layerLevels, groupZero_congr hunits]

end

/-! ### QUANTISE runs -/

/-- A unit that the layer is placed in plays. -/
def layerPlays (s : State) (im : Image) (l : Layer) : Bool := l.places.any (fun p => (unitsOf im p).any (fun g => s.is (fRunning (.dot (Fin.ofNat 4096 g)))))

theorem FarSame.layerPlays {s t : State} (h : FarSame s t) (im : Image) (l : Layer) : layerPlays t im l = layerPlays s im l := by
  have hrunning : ∀ g : Nat, t.is (fRunning (.dot (Fin.ofNat 4096 g))) = s.is (fRunning (.dot (Fin.ofNat 4096 g))) := fun g => h.is (farAddr_unit _ _)
  unfold Machine.layerPlays
  simp only [hrunning]

section
variable {s : State} {r i : Nat} {b x : List Byte} {p : CmdPhase} {im : Image} {l : Layer}

theorem runQuantise_state (h : s.image = none ∨ s.lockedImage = false ∨ s.armed = true) : runQuantise r x s b = endCmd s r stState 0 := by
  unfold runQuantise
  cases him : s.image with
  | none => rfl
  | some im =>
    have hstop : (!im.locked || s.armed) = true := by
      rcases h with h | h | h
      · exact absurd (him.symm.trans h) (Option.some_ne_none im)
      · have hlocked : im.locked = false := by simpa [State.lockedImage, him] using h
        simp [hlocked]
      · simp [h]
    simp only [hstop, Bool.true_or, if_true]

/-- The layer passes every check that needs no weight. -/
theorem runQuantise_begins (him : s.image = some im) (hlocked : im.locked = true) (harmed : s.armed = false) (hl : im.layers[opn b 0x1C 2]? = some l)
    (hplays : layerPlays s im l = false) (hcount : opn b 0x18 4 = l.out * l.inp) (hok : layerOk im l = true) (hformats : formatsDiffer s im l = false)
    (hpass : layerRefused s im l = false) : runQuantise r x s b = beginRead s r b x [] := by
  have hplays' : l.places.any (fun p => (unitsOf im p).any (fun g => s.is (fRunning (.dot (Fin.ofNat 4096 g))))) = false := hplays
  unfold runQuantise
  rw [him]
  simp only [hlocked, harmed, hl, hplays', hcount, hok, hformats, hpass, Bool.not_true, Bool.or_self, Bool.false_eq_true, if_false, ne_eq,
    not_true_eq_false]

/-- The layer of the source's weights is written, and the chain of R376 goes on. -/
def quantised (s : State) (r : Nat) (im : Image) (l : Layer) (b x : List Byte) : State :=
  let y := writeLayer s im (fun i => (sourceWeight (bits (opn b 0x16 1) 1 2) x i).getD 0) l
  endCmd (chainQuant y.1 b x) r 0 (min (2 ^ 32 - 1) y.2 + 2 ^ 32 * (l.pins.length % 65536))

theorem quantRead_writes {c : RingCmd} (him : s.image = some im) (hl : im.layers[opn c.bytes 0x1C 2]? = some l)
    (hweights : ∀ i, i < l.out * l.inp → weightRefused (sourceWeight (bits (opn c.bytes 0x16 1) 1 2) x i) = false) :
    quantRead s r c x [] = quantised s r im l c.bytes x := by
  have hlayer : quantLayer s c.bytes = some (im, l) := by simp [quantLayer, him, hl]
  have hany : (List.range (l.out * l.inp)).any (fun i => weightRefused (sourceWeight (bits (opn c.bytes 0x16 1) 1 2) x i)) = false := by
    rw [List.any_eq_false]
    intro i hi
    simpa using hweights i (List.mem_range.mp hi)
  unfold quantRead
  rw [hlayer]
  dsimp only
  rw [hany]
  rfl

theorem quantised_cur (hcur : (s.ring r).cur = some ⟨i, b, p⟩) :
    phaseOf (quantised s r im l b x) r = some (.done 0 (BitVec.ofNat 64 (min (2 ^ 32 - 1)
      (writeLayer s im (fun i => (sourceWeight (bits (opn b 0x16 1) 1 2) x i).getD 0) l).2 + 2 ^ 32 * (l.pins.length % 65536)))) := by
  have hring : (chainQuant (writeLayer s im (fun i => (sourceWeight (bits (opn b 0x16 1) 1 2) x i).getD 0) l).1 b x).rings = s.rings := writeLayer_rings s im _ l
  refine phaseOf_setPhase (c := ⟨i, b, p⟩) ?_ _
  rw [State.ring, hring]
  exact hcur

/-- Only the units, the pairs and the chain change. -/
theorem quantised_frame (s : State) (r : Nat) (im : Image) (l : Layer) (b x : List Byte) :
    { quantised s r im l b x with units := s.units, rings := s.rings, trust := s.trust } = s := by
  have h := writeLayer_frame (s := s) (im := im) (l := l) (fun i => (sourceWeight (bits (opn b 0x16 1) 1 2) x i).getD 0)
  exact congrArg (fun y : State => ({ y with rings := s.rings, trust := s.trust } : State)) h

theorem quantised_trust (s : State) (r : Nat) (im : Image) (l : Layer) (b x : List Byte) :
    (quantised s r im l b x).trust.quantCount = min 65535 (s.trust.quantCount + 1) ∧
      (quantised s r im l b x).trust.quantDigest = sha256 (s.trust.quantDigest ++ slice b 0x1C 2 ++ leBytes 1 (bits (opn b 0x16 1) 1 2) ++ x) := by
  have h : (writeLayer s im (fun i => (sourceWeight (bits (opn b 0x16 1) 1 2) x i).getD 0) l).1.trust = s.trust :=
    (congrArg State.trust (writeLayer_frame (s := s) (im := im) (l := l) (fun i => (sourceWeight (bits (opn b 0x16 1) 1 2) x i).getD 0)) :)
  unfold quantised
  dsimp only
  refine ⟨?_, ?_⟩
  · show min 65535 ((writeLayer s im _ l).1.trust.quantCount + 1) = _
    rw [h]
  · show sha256 ((writeLayer s im _ l).1.trust.quantDigest ++ _ ++ _ ++ x) = _
    rw [h]

theorem runQuantise_host (hcur : (s.ring r).cur = some ⟨i, b, p⟩) (hop : opcodeOf b = 3) (hhost : fromPackage b = false) (hlen : x.length = sourceLen b)
    (hpos : 0 < sourceLen b) (hfit : sourceLen b ≤ 262144) (hpath : pathHasGroup s r = true) (him : s.image = some im)
    (hl : im.layers[opn b 0x1C 2]? = some l)
    (hweights : ∀ i, i < l.out * l.inp → weightRefused (sourceWeight (bits (opn b 0x16 1) 1 2) x i) = false) :
    beginRead s r b x [] = quantised (sourceBegun s r b x []) r im l b x := by
  have hwork := sourceBegun_cur hcur x []
  have him' : (sourceBegun s r b x []).image = some im := him
  have hread := quantRead_writes (r := r) (c := ⟨i, b, .reading x [] [] [] []⟩) him' hl hweights
  have hpart : workPart (sourceBegun s r b x []) r ⟨0, []⟩ = some (quantised (sourceBegun s r b x []) r im l b x) := by
    rw [workPart_host hwork hhost hlen hpos (by simpa using hfit), ← hread, sourceRead]
    simp only [hop]
  rw [beginRead_host hcur hhost hpos hpath, workStep_ends hpart (quantised_cur hwork)]

end

/-! ### The clauses of QUANTISE -/

/-- With no locked image, or armed (R344). -/
theorem quantise_state {r : RingIx} {b x : List Byte} {s : State} (h : headCommand s r.val 3 b)
    (hstate : s.image = none ∨ s.lockedImage = false ∨ s.armed = true) :
    ∃ t, exec (.quantise r x) s = .next t ∧ endsWith t r.val stState 0 ∧ t.units = s.units ∧ t.trust = s.trust := by
  obtain ⟨i, hcur⟩ := headCommand_cur h
  have hbegun := begun_hostOnly s r.val 3
  have hkept := hbegun.trans (endCmd_hostOnly (begun s r.val 3) r.val stState 0)
  have himage : (begun s r.val 3).image = s.image := hbegun.part State.image rfl
  have harmed : (begun s r.val 3).armed = s.armed := hbegun.is_far r.isLt (.inl (by decide))
  have hlocked : (begun s r.val 3).lockedImage = s.lockedImage := by rw [State.lockedImage, State.lockedImage, himage]
  have hrun := runQuantise_state (r := r.val) (x := x) (b := b) (s := begun s r.val 3) (by rwa [himage, harmed, hlocked])
  exact ⟨_, (serve_of_headCommand h _).trans (congrArg Host.Outcome.next hrun), endsWith_endCmd hcur _ _, hkept.part State.units rfl,
    hkept.part State.trust rfl⟩

/-- An accepted QUANTISE. -/
theorem quantise_writes {r : RingIx} {b x : List Byte} {s : State} {im : Image} {l : Layer} (h : headCommand s r.val 3 b) (him : s.image = some im)
    (hlocked : im.locked = true) (harmed : s.armed = false) (hl : im.layers[opn b 0x1C 2]? = some l)
    (hplays : ∀ p ∈ l.places, ∀ g ∈ unitsOf im p, s.is (fRunning (.dot (Fin.ofNat 4096 g))) = false) (hcount : opn b 0x18 4 = l.out * l.inp)
    (hok : layerOk im l = true) (hformats : formatsDiffer s im l = false) (hpass : layerRefused s im l = false) (hhost : bits (opn b 0x16 1) 0 1 = 0)
    (hlen : x.length = l.out * l.inp * inWidth (bits (opn b 0x16 1) 1 2)) (hpos : 0 < x.length) (hfit : x.length ≤ 262144)
    (hpath : pathHasGroup s r.val = true)
    (hweights : ∀ i : Nat, i < l.out * l.inp → weightRefused (sourceWeight (bits (opn b 0x16 1) 1 2) x i) = false) :
    ∃ t n, exec (.quantise r x) s = .next t ∧ endsWith t r.val 0 n ∧ t.trust.quantCount = min 65535 (s.trust.quantCount + 1) ∧
      t.trust.quantDigest = sha256 (s.trust.quantDigest ++ (b.drop 0x1C).take 2 ++ leBytes 1 (bits (opn b 0x16 1) 1 2) ++ x) ∧
      t.image = s.image ∧ t.memTiles = s.memTiles ∧
      (∀ (p : LayerPlace) (g g0 o j i at_ : Nat) (ws : Nat → Int) (ls : List Int) (z : Int) (sc : Nat × Nat), l.places = [p] → g ∈ unitsOf im p →
        g0 = (unitsOf im p).headD 0 → o < 32 → j < p.ni / l.g → i < l.g →
        ws = (fun k => (sourceWeight (bits (opn b 0x16 1) 1 2) x k).getD 0) → ls = layerLevels s im l →
        z = groupZero s im l p o j → sc = groupScale s im ws ls l p o j →
        at_ = 32 * ((p.row + j * (l.g / perRow l.format) + i / perRow l.format + s.fld (fMenuBase g0 p.menu)) % 512) →
        codeOf (t.unit g).weight at_ l.format (perRow l.format * o + i % perRow l.format) =
          codeFor ls sc z (if p.o0 + o < l.out then ws ((p.o0 + o) * l.inp + p.i0 + l.g * j + i) else 0) ∧
        scaleWord (t.unit g).scale (p.set + j) o = sc ∧
        (∀ q : LayerPin, pinOf l (p.o0 + o) (p.i0 / l.g + j) = some q → z = q.zp ∧ zeroPoint (t.unit g).zp (p.zp + j) o = z)) := by
  have hop := headCommand_op h
  have hsrc : sourceLen b = x.length := by rw [sourceLen, if_pos hop, hcount, hlen]
  have hhost' : fromPackage b = false := by simp [fromPackage, hhost]
  obtain ⟨i, hcur⟩ := headCommand_cur h
  have hbegun := begun_hostOnly s r.val 3
  have hfar := hbegun.farSame r.isLt
  have hunits : (begun s r.val 3).units = s.units := hbegun.part State.units rfl
  have himage : (begun s r.val 3).image = some im := (hbegun.part State.image rfl).trans him
  have hplays' : layerPlays (begun s r.val 3) im l = false := by
    rw [hfar.layerPlays, layerPlays, List.any_eq_false]
    intro p hp
    rw [Bool.not_eq_true, List.any_eq_false]
    intro g hg
    rw [hplays p hp g hg]
    exact Bool.false_ne_true
  have hbegins := runQuantise_begins (r := r.val) (x := x) himage hlocked ((hbegun.is_far r.isLt (.inl (by decide))).trans harmed) hl hplays' hcount hok
    (hfar.formatsDiffer.trans hformats) ((hfar.layerRefused hunits).trans hpass)
  have hrun := hbegins.trans (runQuantise_host hcur hop hhost' hsrc.symm (hsrc ▸ hpos) (hsrc ▸ hfit) ((hbegun.pathHasGroup r.isLt).trans hpath) himage hl hweights)
  have hkept := hbegun.trans (sourceBegun_hostOnly (begun s r.val 3) r.val b x [])
  have htrust : (sourceBegun (begun s r.val 3) r.val b x []).trust = s.trust := hkept.part State.trust rfl
  have hends := quantised_cur (im := im) (l := l) (x := x) (sourceBegun_cur hcur x [])
  generalize sourceBegun (begun s r.val 3) r.val b x [] = w at hrun hkept htrust hends
  have hframe := quantised_frame w r.val im l b x
  obtain ⟨hquantCount, hquantDigest⟩ := quantised_trust w r.val im l b x
  rw [htrust] at hquantCount hquantDigest
  have hwfar := hkept.farSame r.isLt
  have hwunits : w.units = s.units := hkept.part State.units rfl
  refine ⟨_, _, (serve_of_headCommand h _).trans (congrArg Host.Outcome.next hrun), hends, hquantCount, hquantDigest,
    (congrArg State.image hframe).trans (hkept.part State.image rfl), (congrArg State.memTiles hframe).trans hkept.memTiles, ?_⟩
  intro p g g0 o j k at_ ws ls z sc hp hg hg0 ho hj hk hws hls hz hsc hat
  subst hg0 hws hls hz hsc hat
  have hplace : PlaceOk w im l p := placeOk_of_layer hok ((hwfar.layerRefused hwunits).trans hpass) (by rw [hp]; exact List.mem_singleton.mpr rfl)
  have hholds := writePlace_holds hplace (fun k => (sourceWeight (bits (opn b 0x16 1) 1 2) x k).getD 0) ho hj hg w
  rw [← writeLayer_single _ hp] at hholds
  have hreads := hholds.reads hplace hk
  rw [hwfar.layerLevels, hwfar.menuBase] at hreads
  simp only [groupZero_congr hwunits, groupScale_congr hwunits] at hreads
  exact hreads

end Sys2Proof.Machine

/-!
The work of the array does not read the ring pairs or the access contexts: each of its operations does the same to a state with other ones.
-/
namespace Sys2Proof.Machine

/-- The state with other pairs and contexts. -/
def State.hosted (s : State) (R : SMap Ring) (C : SMap CtxSt) : State := { s with rings := R, ctxs := C }

section
variable {R : SMap Ring} {C : SMap CtxSt}

theorem ite_hosted {c : Prop} [Decidable c] {a b a' b' : State} (ha : a' = a.hosted R C) (hb : b' = b.hosted R C) :
    (if c then a' else b') = (if c then a else b).hosted R C := by
  split
  · exact ha
  · exact hb

theorem foldl_hosted {α : Type} (f : State → α → State) (hf : ∀ y a, f (y.hosted R C) a = (f y a).hosted R C) (l : List α) (s : State) :
    l.foldl f (s.hosted R C) = (l.foldl f s).hosted R C := by
  induction l generalizing s with
  | nil => rfl
  | cons a l ih => rw [List.foldl_cons, List.foldl_cons, hf, ih]

variable (s : State)

/-! ### Parts of the state -/

@[simp] theorem State.setRaw_hosted (a : Nat) (v : Word32) : (s.hosted R C).setRaw a v = (s.setRaw a v).hosted R C := (rfl)
@[simp] theorem State.setFld_hosted (f : Fld) (v : Nat) : (s.hosted R C).setFld f v = (s.setFld f v).hosted R C := (rfl)
@[simp] theorem State.mark_hosted (f : Fld) : (s.hosted R C).mark f = (s.mark f).hosted R C := (rfl)
@[simp] theorem State.bump_hosted (f : Fld) (n : Nat) : (s.hosted R C).bump f n = (s.bump f n).hosted R C := (rfl)
@[simp] theorem State.raise_hosted (f : Fld) (v : Nat) : (s.hosted R C).raise f v = (s.raise f v).hosted R C := ite_hosted rfl rfl
@[simp] theorem State.drawn_hosted : (s.hosted R C).drawn = s.drawn.hosted R C := (rfl)
@[simp] theorem State.send_hosted (o : Out) : (s.hosted R C).send o = (s.send o).hosted R C := (rfl)
@[simp] theorem State.setUnit_hosted (g : Nat) (v : DotUnit) : (s.hosted R C).setUnit g v = (s.setUnit g v).hosted R C := (rfl)
@[simp] theorem State.setFun_hosted (f : Nat) (v : FunUnit) : (s.hosted R C).setFun f v = (s.setFun f v).hosted R C := (rfl)
@[simp] theorem State.setCluster_hosted (k : Nat) (v : Cluster) : (s.hosted R C).setCluster k v = (s.setCluster k v).hosted R C := (rfl)
@[simp] theorem State.setRegion_hosted (g : Nat) (v : Region) : (s.hosted R C).setRegion g v = (s.setRegion g v).hosted R C := (rfl)
@[simp] theorem State.setQueue_hosted (q : QueueId) (v : Queue) : (s.hosted R C).setQueue q v = (s.setQueue q v).hosted R C := by cases q <;> rfl
@[simp] theorem State.setArb_hosted (a : ArbId) (v : Arbiter) : (s.hosted R C).setArb a v = (s.setArb a v).hosted R C := by cases a <;> rfl
@[simp] theorem State.setSteer_hosted (k : Nat) (v : Steer) : (s.hosted R C).setSteer k v = (s.setSteer k v).hosted R C := (rfl)
@[simp] theorem State.setLogic_hosted (k : Nat) (v : Logic) : (s.hosted R C).setLogic k v = (s.setLogic k v).hosted R C := (rfl)
@[simp] theorem State.setPlay_hosted (a : Agent) (p : Play) : (s.hosted R C).setPlay a p = (s.setPlay a p).hosted R C := by cases a <;> rfl

/-! ### What is read of it -/

@[simp] theorem State.clock_hosted : (s.hosted R C).clock = s.clock := (rfl)
@[simp] theorem State.units_hosted : (s.hosted R C).units = s.units := (rfl)
@[simp] theorem State.funs_hosted : (s.hosted R C).funs = s.funs := (rfl)
@[simp] theorem State.clusters_hosted : (s.hosted R C).clusters = s.clusters := (rfl)
@[simp] theorem State.regions_hosted : (s.hosted R C).regions = s.regions := (rfl)
@[simp] theorem State.links_hosted : (s.hosted R C).links = s.links := (rfl)
@[simp] theorem State.memArb_hosted : (s.hosted R C).memArb = s.memArb := (rfl)
@[simp] theorem State.freeNext_hosted : (s.hosted R C).freeNext = s.freeNext := (rfl)
@[simp] theorem State.hazardsHeld_hosted : (s.hosted R C).hazardsHeld = s.hazardsHeld := (rfl)
@[simp] theorem State.fld_hosted (f : Fld) : (s.hosted R C).fld f = s.fld f := (rfl)
@[simp] theorem State.is_hosted (f : Fld) : (s.hosted R C).is f = s.is f := (rfl)
@[simp] theorem State.n_hosted : (s.hosted R C).n = s.n := (rfl)
@[simp] theorem State.numOf_hosted (x : Nat) : (s.hosted R C).numOf x = s.numOf x := (rfl)
@[simp] theorem State.stagedImage_hosted : (s.hosted R C).stagedImage = s.stagedImage := (rfl)
@[simp] theorem State.idleRegion_hosted (r : Nat) : (s.hosted R C).idleRegion r = s.idleRegion r := (rfl)
@[simp] theorem State.extest_hosted : (s.hosted R C).extest = s.extest := (rfl)
@[simp] theorem State.unit_hosted (g : Nat) : (s.hosted R C).unit g = s.unit g := (rfl)
@[simp] theorem State.fun_hosted (f : Nat) : (s.hosted R C).fun_ f = s.fun_ f := (rfl)
@[simp] theorem State.cluster_hosted (k : Nat) : (s.hosted R C).cluster k = s.cluster k := (rfl)
@[simp] theorem State.region_hosted (r : Nat) : (s.hosted R C).region r = s.region r := (rfl)
@[simp] theorem State.steer_hosted (k : Nat) : (s.hosted R C).steer k = s.steer k := (rfl)
@[simp] theorem State.logic_hosted (k : Nat) : (s.hosted R C).logic k = s.logic k := (rfl)
@[simp] theorem State.lane_hosted (site lane : Nat) (tx : Bool) : (s.hosted R C).lane site lane tx = s.lane site lane tx := (rfl)
@[simp] theorem State.txLink_hosted (site k : Nat) : (s.hosted R C).txLink site k = s.txLink site k := (rfl)
@[simp] theorem State.queue_hosted (q : QueueId) : (s.hosted R C).queue q = s.queue q := by cases q <;> rfl
@[simp] theorem State.arb_hosted (a : ArbId) : (s.hosted R C).arb a = s.arb a := by cases a <;> rfl
@[simp] theorem State.play_hosted (a : Agent) : (s.hosted R C).play a = s.play a := by cases a <;> rfl
/-! ### Arbiters -/

@[simp] theorem arbBase_hosted (a : ArbId) : arbBase a (s.hosted R C) = arbBase a s := by cases a <;> rfl

@[simp] theorem withdrawRequest_hosted (a : ArbId) (q : Requester) : withdrawRequest (s.hosted R C) a q = (withdrawRequest s a q).hosted R C := by
  unfold withdrawRequest
  simp only [State.arb_hosted, arbBase_hosted, State.setArb_hosted, State.raise_hosted]
  cases (s.arb a).parked.find? (fun e => decide (e.1 = q)) with
  | some e => rfl
  | none => exact ite_hosted rfl rfl

@[simp] theorem withdrawAll_hosted (a : ArbId) (p : Requester → Bool) : withdrawAll (s.hosted R C) a p = (withdrawAll s a p).hosted R C := by
  unfold withdrawAll
  dsimp only
  rw [State.arb_hosted, foldl_hosted _ (fun y e => withdrawRequest_hosted y a e.1), State.arb_hosted]
  exact ite_hosted (State.setArb_hosted _ a _) rfl

/-! ### Queues -/

@[simp] theorem hazard_hosted (kind : Nat) (who : Who) (object t : Nat) :
    hazard (s.hosted R C) kind who object t = (hazard s kind who object t).hosted R C := by
  unfold hazard
  simp only [State.hazardsHeld_hosted, State.bump_hosted, State.is_hosted, State.n_hosted, State.clock_hosted, State.numOf_hosted, State.setFld_hosted,
    State.mark_hosted]
  exact ite_hosted (ite_hosted rfl rfl) rfl

theorem qHold_hosted (q : QueueId) : qHold (s.hosted R C) q = qHold s q := (rfl)

theorem passInputs_hosted (g o : Nat) : passInputs (s.hosted R C) g o = passInputs s g o := (rfl)

theorem injector_hosted (g p : Nat) : injector (s.hosted R C) g p = injector s g p := (rfl)

theorem capturer_hosted (g p : Nat) : capturer (s.hosted R C) g p = capturer s g p := (rfl)

theorem pathBack_hosted (fuel g p : Nat) : pathBack (s.hosted R C) fuel g p = pathBack s fuel g p := by
  induction fuel generalizing g p with
  | zero => rfl
  | succ fuel ih => simp only [pathBack, passInputs_hosted, ih]

theorem creditLat_hosted (q : QueueId) : creditLat (s.hosted R C) q = creditLat s q := by
  cases q <;> simp only [creditLat, injector_hosted, pathBack_hosted]

@[simp] theorem giveCredits_hosted (q : QueueId) (n t : Nat) : giveCredits (s.hosted R C) q n t = (giveCredits s q n t).hosted R C := by
  unfold giveCredits
  simp only [qHold_hosted, creditLat_hosted, State.queue_hosted, State.setQueue_hosted]
  exact ite_hosted rfl rfl

@[simp] theorem noteOcc_hosted (q : QueueId) (t : Nat) : noteOcc (s.hosted R C) q t = (noteOcc s q t).hosted R C := by
  unfold noteOcc
  simp only [State.queue_hosted, State.setQueue_hosted, State.raise_hosted]
  cases (s.queue q).wrote with
  | some c => exact ite_hosted rfl rfl
  | none => rfl

@[simp] theorem noteOver_hosted (q : QueueId) (t : Nat) : noteOver (s.hosted R C) q t = (noteOver s q t).hosted R C := by
  unfold noteOver
  simp only [State.queue_hosted, State.setQueue_hosted, State.mark_hosted, State.bump_hosted, hazard_hosted]
  cases (s.queue q).excess with
  | some e => exact ite_hosted rfl rfl
  | none => rfl

@[simp] theorem noteQueue_hosted (q : QueueId) (t : Nat) : noteQueue (s.hosted R C) q t = (noteQueue s q t).hosted R C := by simp [noteQueue]

@[simp] theorem noteQueues_hosted (p : QueueId → Bool) (t : Nat) : noteQueues (s.hosted R C) p t = (noteQueues s p t).hosted R C :=
  foldl_hosted _ (fun y q => noteQueue_hosted y q t) (queuesOf s p) s

@[simp] theorem noteWait_hosted (q : QueueId) (t : Nat) : noteWait (s.hosted R C) q t = (noteWait s q t).hosted R C := by
  unfold noteWait
  simp only [State.queue_hosted, State.setQueue_hosted]
  exact ite_hosted rfl rfl

theorem qFull_hosted (q : QueueId) : qFull (s.hosted R C) q = qFull s q := by
  unfold qFull
  simp only [State.queue_hosted]
  rfl

@[simp] theorem writeQueue_hosted (q : QueueId) (b : Beat) (who : Who) (t : Nat) :
    writeQueue (s.hosted R C) q b who t = (writeQueue s q b who t).hosted R C := by
  unfold writeQueue
  simp only [noteQueue_hosted, State.queue_hosted, State.setQueue_hosted, State.bump_hosted, giveCredits_hosted, qFull_hosted]
  exact ite_hosted rfl (ite_hosted rfl rfl)

@[simp] theorem spendCredit_hosted (q : QueueId) : spendCredit (s.hosted R C) q = (spendCredit s q).hosted R C := by
  unfold spendCredit
  simp only [State.queue_hosted, State.setQueue_hosted]
  exact ite_hosted rfl rfl

@[simp] theorem takeOver_hosted (q : QueueId) (t : Nat) : takeOver (s.hosted R C) q t = (takeOver s q t).hosted R C := by
  unfold takeOver
  simp only [State.queue_hosted, State.setQueue_hosted, writeQueue_hosted]
  cases (s.queue q).excess with
  | some e => exact ite_hosted rfl rfl
  | none => rfl

@[simp] theorem underRead_hosted (q : QueueId) (who : Who) (t : Nat) : underRead (s.hosted R C) q who t = (underRead s q who t).hosted R C := by
  simp [underRead]

@[simp] theorem lostRead_hosted (q : QueueId) (who : Who) (t : Nat) : lostRead (s.hosted R C) q who t = (lostRead s q who t).hosted R C := by
  simp [lostRead]

end

end Sys2Proof.Machine

/-!
Reads of queues, links and arrivals with other ring pairs and contexts.
-/
namespace Sys2Proof.Machine

section
variable {R : SMap Ring} {C : SMap CtxSt} (s : State)

section
variable (q : QueueId)

@[simp] theorem qDepth_hosted : qDepth (s.hosted R C) q = qDepth s q := (rfl)

@[simp] theorem movedHead_hosted (n : Nat) : movedHead (s.hosted R C) q n = movedHead s q n := by
  simp only [movedHead, qDepth_hosted, State.queue_hosted]

@[simp] theorem passPort_hosted : passPort (s.hosted R C) q = passPort s q := by cases q <;> rfl

@[simp] theorem readQueue_hosted (pop : Bool) (who : Who) (t : Nat) :
    readQueue (s.hosted R C) q pop who t =
      ((readQueue s q pop who t).1, (readQueue s q pop who t).2.1, (readQueue s q pop who t).2.2.hosted R C) := by
  unfold readQueue
  simp only [noteQueue_hosted, State.queue_hosted, lostRead_hosted, passPort_hosted, State.setQueue_hosted, movedHead_hosted, giveCredits_hosted,
    takeOver_hosted, underRead_hosted]
  split
  · rfl
  · split
    · split <;> rfl
    · rfl

@[simp] theorem qReady_hosted : qReady (s.hosted R C) q = qReady s q := by
  simp only [qReady, State.queue_hosted]

@[simp] theorem maySend_hosted : maySend (s.hosted R C) q = maySend s q := by
  simp only [maySend, qHold_hosted, qCredits, qDepth_hosted, State.queue_hosted]
  rfl

end

/-! ### Links and arrivals -/

@[simp] theorem State.setLane_hosted (site lane : Nat) (tx : Bool) (v : LaneSt) :
    (s.hosted R C).setLane site lane tx v = (s.setLane site lane tx v).hosted R C := (rfl)
@[simp] theorem State.setTxLink_hosted (site k : Nat) (v : TxLink) : (s.hosted R C).setTxLink site k v = (s.setTxLink site k v).hosted R C := (rfl)
@[simp] theorem State.setLinks_hosted (l : List LinkBeat) : ({ s.hosted R C with links := l } : State) = ({ s with links := l } : State).hosted R C := (rfl)

@[simp] theorem tileBuf_hosted (site k : Nat) : tileBuf (s.hosted R C) site k = tileBuf s site k := (rfl)

@[simp] theorem bufHeld_hosted (site k : Nat) (t : TileBuf) : bufHeld (s.hosted R C) site k t = bufHeld s site k t := by cases t <;> rfl

@[simp] theorem tileTakes_hosted (site k : Nat) : tileTakes (s.hosted R C) site k = tileTakes s site k := by
  simp only [tileTakes, tileBuf_hosted, bufHeld_hosted, State.lane_hosted]

@[simp] theorem setBuf_hosted (site k : Nat) (t : TileBuf) (l : List Beat) : setBuf (s.hosted R C) site k t l = (setBuf s site k t l).hosted R C := by
  cases t <;> simp only [setBuf, State.lane_hosted, State.txLink_hosted, State.setLane_hosted, State.setTxLink_hosted]

@[simp] theorem tileSend_hosted (g site k : Nat) (b : Beat) : tileSend (s.hosted R C) g site k b = (tileSend s g site k b).hosted R C := by
  unfold tileSend
  simp only [tileBuf_hosted, tileTakes_hosted, bufHeld_hosted, setBuf_hosted, State.bump_hosted, State.mark_hosted]
  cases tileBuf s site k with
  | none => rfl
  | some t => cases t <;> exact ite_hosted rfl rfl

@[simp] theorem sendArrival_hosted (k : Nat) (q : QueueId) (due writer : Nat) (b : Beat) :
    sendArrival (s.hosted R C) k q due writer b = (sendArrival s k q due writer b).hosted R C := by
  simp only [sendArrival, State.cluster_hosted, State.setCluster_hosted]

section
variable (g o : Nat) (b : Beat) (epoch : Bool)

@[simp] theorem launch_hosted (t : Nat) : launch (s.hosted R C) g o b epoch t = (launch s g o b epoch t).hosted R C := by
  unfold launch
  simp only [capturer_hosted, sendArrival_hosted, State.links_hosted, State.setLinks_hosted, tileSend_hosted]
  cases capturer s g o with
  | some q => rfl
  | none => cases neighbour g o <;> rfl

@[simp] theorem relaunch_hosted (took : Bool) (t : Nat) : relaunch (s.hosted R C) g o b epoch took t = (relaunch s g o b epoch took t).hosted R C := by
  unfold relaunch
  simp only [capturer_hosted, State.cluster_hosted, State.setCluster_hosted, State.links_hosted, State.setLinks_hosted, launch_hosted, tileBuf_hosted,
    bufHeld_hosted, setBuf_hosted]
  cases capturer s g o with
  | some q => rfl
  | none =>
    cases neighbour g o with
    | some h => rfl
    | none =>
      cases took with
      | false => rfl
      | true => cases tileBuf s (siteOf (g / 256) o) (edgeLink g o) <;> rfl

@[simp] theorem sendBeat_hosted (rank t pc : Nat) : sendBeat (s.hosted R C) g o b epoch rank t pc = (sendBeat s g o b epoch rank t pc).hosted R C := by
  unfold sendBeat
  simp only [State.is_hosted, State.unit_hosted, State.bump_hosted, hazard_hosted, tileTakes_hosted, State.setUnit_hosted, launch_hosted,
    relaunch_hosted]
  cases (s.unit g).outLink.find? (fun r => decide (r.port = o) && decide (r.cycle = t)) with
  | none => rfl
  | some r => exact ite_hosted rfl rfl

end

@[simp] theorem expects_hosted (g p : Nat) : expects (s.hosted R C) g p = expects s g p := (rfl)

@[simp] theorem deliver_hosted (l : LinkBeat) : deliver (s.hosted R C) l = (deliver s l).hosted R C := by
  unfold deliver
  simp only [State.unit_hosted, State.fld_hosted, State.is_hosted, State.idleRegion_hosted, injector_hosted, State.bump_hosted, sendBeat_hosted,
    writeQueue_hosted, expects_hosted]
  exact ite_hosted rfl (ite_hosted rfl (ite_hosted rfl (ite_hosted rfl (ite_hosted rfl rfl))))

@[simp] theorem nextBeat_hosted (p : LinkBeat → Bool) : nextBeat (s.hosted R C) p = nextBeat s p := (rfl)

@[simp] theorem settleBeats_hosted (p : LinkBeat → Bool) (fuel : Nat) : settleBeats (s.hosted R C) p fuel = (settleBeats s p fuel).hosted R C := by
  induction fuel generalizing s with
  | zero => rfl
  | succ fuel ih =>
    simp only [settleBeats, nextBeat_hosted, State.links_hosted, State.setLinks_hosted, deliver_hosted, ih]
    cases nextBeat s p <;> rfl

@[simp] theorem settlePorts_hosted (g : Nat) (ps : List Nat) (bound : Nat) :
    settlePorts (s.hosted R C) g ps bound = (settlePorts s g ps bound).hosted R C := settleBeats_hosted s _ _

@[simp] theorem settlePass_hosted (fuel g o t : Nat) : settlePass (s.hosted R C) fuel g o t = (settlePass s fuel g o t).hosted R C := by
  induction fuel generalizing s g o t with
  | zero => rfl
  | succ fuel ih =>
    have hstep : ∀ (y : State) (p : Nat),
        (match neighbour g p with
          | some h => settlePass (y.hosted R C) fuel h ((p + 2) % 4) (t - linkCycles g h)
          | none => y.hosted R C) =
        State.hosted (match neighbour g p with
          | some h => settlePass y fuel h ((p + 2) % 4) (t - linkCycles g h)
          | none => y) R C := by
      intro y p
      cases neighbour g p with
      | none => rfl
      | some h => exact ih y _ _ _
    simp only [settlePass, passInputs_hosted, State.links_hosted]
    cases passInputs s g o with
    | nil => rfl
    | cons p ps =>
      refine ite_hosted rfl ?_
      rw [foldl_hosted _ hstep, settlePorts_hosted]

@[simp] theorem settlePort_hosted (g p bound : Nat) : settlePort (s.hosted R C) g p bound = (settlePort s g p bound).hosted R C := by
  unfold settlePort
  cases neighbour g p with
  | none => exact settlePorts_hosted s _ _ _
  | some h => simp only [settlePass_hosted, settlePorts_hosted]

@[simp] theorem settleLinks_hosted (bound fuel : Nat) : settleLinks (s.hosted R C) bound fuel = (settleLinks s bound fuel).hosted R C :=
  settleBeats_hosted s _ _

@[simp] theorem noteHead_hosted (a : QueueArrival) (wasEmpty : Bool) : noteHead (s.hosted R C) a wasEmpty = (noteHead s a wasEmpty).hosted R C := by
  unfold noteHead
  cases a.q with
  | port u p => rfl
  | bank k q => rfl
  | steer k i => exact ite_hosted rfl rfl

theorem landOne_hosted (p : State × List (QueueId × Nat)) (a : QueueArrival) :
    landOne (p.1.hosted R C, p.2) a = ((landOne p a).1.hosted R C, (landOne p a).2) := by
  unfold landOne
  simp only [State.bump_hosted, hazard_hosted, State.queue_hosted, writeQueue_hosted, noteHead_hosted]
  split <;> rfl

/-- A fold over a state and what it gathers. -/
theorem foldl_fst_hosted {α β : Type} (f : State × β → α → State × β) (hf : ∀ p a, f (p.1.hosted R C, p.2) a = ((f p a).1.hosted R C, (f p a).2))
    (l : List α) (p : State × β) : l.foldl f (p.1.hosted R C, p.2) = ((l.foldl f p).1.hosted R C, (l.foldl f p).2) := by
  induction l generalizing p with
  | nil => rfl
  | cons a l ih => rw [List.foldl_cons, List.foldl_cons, hf, ih]

@[simp] theorem settleCluster_hosted (k bound : Nat) : settleCluster (s.hosted R C) k bound = (settleCluster s k bound).hosted R C := by
  unfold settleCluster
  simp only [State.cluster_hosted, State.setCluster_hosted]
  exact congrArg Prod.fst (foldl_fst_hosted landOne landOne_hosted _ (_, []))

@[simp] theorem settleQueue_hosted (q : QueueId) (bound : Nat) : settleQueue (s.hosted R C) q bound = (settleQueue s q bound).hosted R C := by
  cases q with
  | port u p => exact settlePort_hosted s _ _ _
  | bank k q => exact settleCluster_hosted s _ _
  | steer k i => exact settleCluster_hosted s _ _

@[simp] theorem readAt_hosted (q : QueueId) (pop : Bool) (who : Who) (t : Nat) :
    readAt (s.hosted R C) q pop who t = ((readAt s q pop who t).1, (readAt s q pop who t).2.1, (readAt s q pop who t).2.2.hosted R C) := by
  simp only [readAt, settleQueue_hosted, readQueue_hosted]

@[simp] theorem readRanked_hosted (q : QueueId) (behind : Bool) (who : Who) (t : Nat) :
    readRanked (s.hosted R C) q behind who t =
      ((readRanked s q behind who t).1, (readRanked s q behind who t).2.1, (readRanked s q behind who t).2.2.hosted R C) := by
  unfold readRanked
  simp only [settleQueue_hosted, noteQueue_hosted, State.queue_hosted, lostRead_hosted, readAt_hosted]
  split <;> rfl

end

end Sys2Proof.Machine

/-!
The sum bus and the function units with other ring pairs and contexts.
-/
namespace Sys2Proof.Machine

section
variable {R : SMap Ring} {C : SMap CtxSt} (s : State)

/-! ### The sum bus -/

@[simp] theorem period_hosted (a : Agent) : period (s.hosted R C) a = period s a := (rfl)

@[simp] theorem issuing_hosted (a : Agent) (t : Nat) : issuing (s.hosted R C) a t = issuing s a t := by
  simp only [issuing, State.play_hosted, period_hosted]

@[simp] theorem settleUnit_hosted (g bound : Nat) : settleUnit (s.hosted R C) g bound = (settleUnit s g bound).hosted R C := by
  unfold settleUnit
  simp only [State.unit_hosted, State.setUnit_hosted, State.bump_hosted]
  exact ite_hosted rfl rfl

@[simp] theorem enterBuffer_hosted (f : Nat) (r : BusRow) : enterBuffer (s.hosted R C) f r = (enterBuffer s f r).hosted R C := by
  unfold enterBuffer
  simp only [State.fun_hosted, State.setFun_hosted, State.bump_hosted, issuing_hosted, hazard_hosted]
  exact ite_hosted rfl rfl

@[simp] theorem awaitsRow_hosted (k dest due : Nat) : awaitsRow (s.hosted R C) k dest due = awaitsRow s k dest due := (rfl)

theorem passRow_hosted (k : Nat) (p : State × List BusRow) (r : BusRow) :
    passRow k (p.1.hosted R C, p.2) r = ((passRow k p r).1.hosted R C, (passRow k p r).2) := by
  unfold passRow
  simp only [enterBuffer_hosted, awaitsRow_hosted, State.bump_hosted]
  split
  · rfl
  · split <;> rfl

@[simp] theorem settleBus_hosted (k bound : Nat) : settleBus (s.hosted R C) k bound = (settleBus s k bound).hosted R C := by
  unfold settleBus
  simp only [State.cluster_hosted, foldl_fst_hosted (passRow k) (passRow_hosted k) _ (s, []), State.setCluster_hosted]

@[simp] theorem settleBusAt_hosted (k c : Nat) (dests : List Nat) : settleBusAt (s.hosted R C) k c dests = (settleBusAt s k c dests).hosted R C := by
  unfold settleBusAt
  simp only [settleBus_hosted, State.cluster_hosted, State.setCluster_hosted]
  exact foldl_hosted _ (fun y r => enterBuffer_hosted y _ r) _ _

@[simp] theorem placeRow_hosted (k : Nat) (r : BusRow) : placeRow (s.hosted R C) k r = (placeRow s k r).hosted R C := by
  unfold placeRow
  simp only [State.cluster_hosted, State.setCluster_hosted, State.bump_hosted, hazard_hosted]
  cases (s.cluster k).bus.find? (fun x => decide (x.due = r.due)) with
  | none => rfl
  | some x => exact ite_hosted rfl rfl

/-! ### Function units -/

section
variable (f : Nat) (o : FunOp)

@[simp] theorem funWho_hosted : funWho (s.hosted R C) f = funWho s f := (rfl)

@[simp] theorem funIn_hosted : funIn (s.hosted R C) f o = funIn s f o := (rfl)

@[simp] theorem pushBeat_hosted (p : Nat × Beat) : pushBeat f o (s.hosted R C) p = (pushBeat f o s p).hosted R C := by
  unfold pushBeat
  cases outQueue f o.w with
  | none => rfl
  | some q =>
    simp only [State.fun_hosted, State.stagedImage_hosted, State.bump_hosted, ite_hosted rfl rfl, State.setFun_hosted, hazard_hosted, funWho_hosted,
      maySend_hosted, spendCredit_hosted, sendArrival_hosted, State.queue_hosted, State.setQueue_hosted, noteWait_hosted]

theorem pushBeats_hosted {α : Type} (e : α → Nat × Beat) (l : List α) :
    l.foldl (fun t j => pushBeat f o t (e j)) (s.hosted R C) = (l.foldl (fun t j => pushBeat f o t (e j)) s).hosted R C :=
  foldl_hosted _ (fun y j => pushBeat_hosted y f o (e j)) l s

@[simp] theorem indexAhead_hosted : indexAhead (s.hosted R C) f o = indexAhead s f o := by
  simp only [indexAhead, State.cluster_hosted, State.queue_hosted]

@[simp] theorem streamNow_hosted (flush : Bool) : streamNow (s.hosted R C) f o flush = (streamNow s f o flush).hosted R C := by
  unfold streamNow
  simp only [indexAhead_hosted, funIn_hosted]
  rw [pushBeats_hosted, State.fun_hosted, State.setFun_hosted]

@[simp] theorem State.setFreeNext_hosted (n : Nat) : ({ s.hosted R C with freeNext := n } : State) = ({ s with freeNext := n } : State).hosted R C :=
  (rfl)

@[simp] theorem contribute_hosted (out : FOut) : contribute (s.hosted R C) f o out = (contribute s f o out).hosted R C := by
  unfold contribute
  cases out.trigger with
  | none => rfl
  | some e => rfl

@[simp] theorem comingTakes_hosted (due pc t fuel : Nat) : comingTakes (s.hosted R C) f due pc t fuel = comingTakes s f due pc t fuel := by
  induction fuel generalizing pc t with
  | zero => rfl
  | succ fuel ih => simp only [comingTakes, period_hosted, State.fun_hosted, ih]

@[simp] theorem busTakesBy_hosted (due : Nat) : busTakesBy (s.hosted R C) f due = busTakesBy s f due := by
  simp only [busTakesBy, State.fun_hosted, comingTakes_hosted]

@[simp] theorem busTaken_hosted (k dest due : Nat) : busTaken (s.hosted R C) k dest due = busTaken s k dest due := by
  simp only [busTaken, State.cluster_hosted, busTakesBy_hosted, State.fun_hosted]

@[simp] theorem reduceClaim_hosted : reduceClaim (s.hosted R C) f = reduceClaim s f := (rfl)

@[simp] theorem busClaimed_hosted (k dest due : Nat) : busClaimed (s.hosted R C) k dest due = busClaimed s k dest due := by
  simp only [busClaimed, busTaken_hosted, reduceClaim_hosted]

@[simp] theorem freeBusCycle_hosted (k dest lat t fuel : Nat) : freeBusCycle (s.hosted R C) k dest lat t fuel = freeBusCycle s k dest lat t fuel := by
  induction fuel generalizing t with
  | zero => rfl
  | succ fuel ih => simp only [freeBusCycle, busClaimed_hosted, ih]

@[simp] theorem placeReduce_hosted (out : FOut) : placeReduce (s.hosted R C) f o out = (placeReduce s f o out).hosted R C := by
  unfold placeReduce
  cases out.row with
  | none => rfl
  | some r =>
    simp only [State.fun_hosted, State.setFun_hosted, State.stagedImage_hosted, freeBusCycle_hosted, State.bump_hosted, ite_hosted rfl rfl,
      funWho_hosted, placeRow_hosted]

@[simp] theorem finishOp_hosted : finishOp (s.hosted R C) f o = (finishOp s f o).hosted R C := by
  unfold finishOp
  simp only [funIn_hosted, foldl_hosted _ (fun y p => pushBeat_hosted y f o p), ite_hosted rfl rfl, contribute_hosted, placeReduce_hosted,
    State.bump_hosted, State.fun_hosted, State.setFun_hosted, State.freeNext_hosted, State.setFreeNext_hosted]

@[simp] theorem readySource_hosted (src : Src) (c : Nat) : readySource (s.hosted R C) f src c = (readySource s f src c).hosted R C := by
  unfold readySource
  simp only [settleQueue_hosted, settleBus_hosted, settleBusAt_hosted, State.fun_hosted]
  cases src with
  | queue q => rfl
  | open_ => rfl
  | bus => exact ite_hosted rfl rfl
  | rowBeat => exact ite_hosted rfl rfl

@[simp] theorem comingReads_hosted (q c pc t fuel : Nat) : comingReads (s.hosted R C) f q c pc t fuel = comingReads s f q c pc t fuel := by
  induction fuel generalizing pc t with
  | zero => rfl
  | succ fuel ih => simp only [comingReads, period_hosted, State.fun_hosted, ih]

@[simp] theorem readsSoon_hosted (q c : Nat) : readsSoon (s.hosted R C) f q c = readsSoon s f q c := by
  simp only [readsSoon, State.fun_hosted, comingReads_hosted]
  rfl

@[simp] theorem hasItem_hosted (src : Src) : hasItem (s.hosted R C) f src = hasItem s f src := by
  cases src <;> simp only [hasItem, qReady_hosted, State.fun_hosted]

@[simp] theorem takeItem_hosted (src : Src) (c : Nat) :
    takeItem (s.hosted R C) f src c = ((takeItem s f src c).1, (takeItem s f src c).2.hosted R C) := by
  unfold takeItem
  simp only [readRanked_hosted, readsSoon_hosted, funWho_hosted, State.bump_hosted, ite_hosted rfl rfl, State.freeNext_hosted, State.fun_hosted,
    State.drawn_hosted, State.setFun_hosted, settleBusAt_hosted, hazard_hosted]
  cases src with
  | queue q => rfl
  | open_ => rfl
  | bus => cases (s.fun_ f).buf <;> rfl
  | rowBeat => cases (s.fun_ f).buf <;> rfl

@[simp] theorem takeStep_hosted (t : Take) (c : Nat) : takeStep (s.hosted R C) f o t c = (takeStep s f o t c).hosted R C := by
  unfold takeStep
  simp only [readySource_hosted, State.stagedImage_hosted, hasItem_hosted, streamNow_hosted, ite_hosted rfl rfl, funWho_hosted, hazard_hosted,
    State.fun_hosted, State.setFun_hosted, takeItem_hosted, finishOp_hosted]
  refine ite_hosted rfl (ite_hosted rfl ?_)
  split <;> rfl

end

@[simp] theorem nextTake_hosted (f : Nat) : nextTake (s.hosted R C) f = nextTake s f := (rfl)

@[simp] theorem runTakes_hosted (k bound fuel : Nat) : runTakes (s.hosted R C) k bound fuel = (runTakes s k bound fuel).hosted R C := by
  induction fuel generalizing s with
  | zero => rfl
  | succ fuel ih =>
    simp only [runTakes, nextTake_hosted, takeStep_hosted, ih]
    cases nextTake s (2 * k) with
    | none =>
      cases nextTake s (2 * k + 1) with
      | none => rfl
      | some y => exact ite_hosted rfl rfl
    | some x =>
      cases nextTake s (2 * k + 1) with
      | none => exact ite_hosted rfl rfl
      | some y => exact ite_hosted (ite_hosted rfl rfl) (ite_hosted rfl rfl)

@[simp] theorem settleFuns_hosted (k bound : Nat) : settleFuns (s.hosted R C) k bound = (settleFuns s k bound).hosted R C :=
  runTakes_hosted s k bound (takesLeft s k)

@[simp] theorem settleAll_hosted (k bound : Nat) : settleAll (s.hosted R C) k bound = (settleAll s k bound).hosted R C := by
  simp only [settleAll, settleFuns_hosted, settleCluster_hosted, settleBusAt_hosted]

end

end Sys2Proof.Machine

/-!
The old image leaves with other ring pairs and contexts.
-/
namespace Sys2Proof.Machine

section
variable {R : SMap Ring} {C : SMap CtxSt} (s : State)

/-! ### Waits, blocks and regions -/

@[simp] theorem takeMap_hosted (k : Nat) (m0 m1 : Word32) : takeMap (s.hosted R C) k m0 m1 = (takeMap s k m0 m1).hosted R C := by
  simp only [takeMap, State.steer_hosted, State.setRaw_hosted, State.setSteer_hosted]

@[simp] theorem rowsFor_hosted (g since : Nat) : rowsFor (s.hosted R C) g since = rowsFor s g since := (rfl)

@[simp] theorem arrivalCycle_hosted (f : Nat) (src : Src) (since : Nat) : arrivalCycle (s.hosted R C) f src since = arrivalCycle s f src since := by
  simp only [arrivalCycle, State.cluster_hosted, hasItem_hosted, State.clock_hosted]

@[simp] theorem chargeWait_hosted (a : Agent) : chargeWait (s.hosted R C) a = (chargeWait s a).hosted R C := by
  unfold chargeWait
  simp only [State.clock_hosted, State.play_hosted, rowsFor_hosted, State.bump_hosted, State.setPlay_hosted, State.fun_hosted, arrivalCycle_hosted,
    State.setFun_hosted]
  split <;> rfl

@[simp] theorem chargeWaits_hosted : chargeWaits (s.hosted R C) = (chargeWaits s).hosted R C := by
  unfold chargeWaits
  simp only [State.units_hosted, foldl_hosted (fun t (e : Nat × DotUnit) => chargeWait t (.dot (Fin.ofNat 4096 e.1))) (fun y e => chargeWait_hosted y _), State.funs_hosted,
    foldl_hosted (fun t (e : Nat × FunUnit) => chargeWait t (.fn (Fin.ofNat 1024 e.1))) (fun y e => chargeWait_hosted y _)]

@[simp] theorem landDue_hosted (t : Nat) : landDue (s.hosted R C) t = (landDue s t).hosted R C := by
  have hclusters : ∀ (y : State) (e : Nat × Cluster),
      settleBus (settleCluster (y.hosted R C) e.1 t) e.1 t = (settleBus (settleCluster y e.1 t) e.1 t).hosted R C := by
    intro y e
    rw [settleCluster_hosted, settleBus_hosted]
  unfold landDue
  simp only [State.links_hosted, settleLinks_hosted, State.funs_hosted, foldl_hosted (fun x (e : Nat × FunUnit) => settleFuns x (e.1 / 2) t) (fun y e => settleFuns_hosted y _ t),
    State.clusters_hosted, foldl_hosted (fun x (e : Nat × Cluster) => settleBus (settleCluster x e.1 t) e.1 t) hclusters, State.units_hosted, foldl_hosted (fun x (e : Nat × DotUnit) => settleUnit x e.1 t) (fun y e => settleUnit_hosted y _ t)]

@[simp] theorem padOf_hosted (i : Nat) : padOf (s.hosted R C) i = padOf s i := (rfl)

@[simp] theorem padsOf_hosted (k : Nat) : padsOf (s.hosted R C) k = padsOf s k := (rfl)

@[simp] theorem showPads_hosted (p : Nat → Bool) : showPads (s.hosted R C) p = (showPads s p).hosted R C := by
  have hpad : ∀ (y : State) (i : Nat), (y.hosted R C).send (.pad i (padOf (y.hosted R C) i)) = (y.send (.pad i (padOf y i))).hosted R C := by
    intro y i
    rw [padOf_hosted, State.send_hosted]
  unfold showPads
  rw [State.extest_hosted, foldl_hosted _ hpad]
  exact ite_hosted rfl rfl

@[simp] theorem borrows_hosted (k c : Nat) : borrows (s.hosted R C) k c = borrows s k c := (rfl)

/-- An exchange of a controller that the block owns is abandoned. -/
def dropExchange (k : Nat) (t : State) (c : Nat) : State :=
  if borrows t k c then { t with byteCmds := mset none t.byteCmds (2 * (k / 32) + c) none } else t

theorem enterConfig_eq (k : Nat) : enterConfig s k =
    let s1 := ((s.setFld (fLogState k) 1).setFld (fApplied k) 0).setLogic k (holdFlops { s.logic k with words := [], done := false })
    let s3 := ([0, 1].foldl (dropExchange k) s1).setFld ⟨regionBase (clusterRegion k) + 0x1404, 8 + k % 8, 1⟩ 0
    showPads s3 (padsOf s3 k) := rfl

theorem dropExchange_hosted (k c : Nat) : dropExchange k (s.hosted R C) c = (dropExchange k s c).hosted R C := by
  unfold dropExchange
  rw [borrows_hosted]
  exact ite_hosted rfl rfl

@[simp] theorem enterConfig_hosted (k : Nat) : enterConfig (s.hosted R C) k = (enterConfig s k).hosted R C := by
  simp only [enterConfig_eq, State.setFld_hosted, State.logic_hosted, State.setLogic_hosted, foldl_hosted (dropExchange k) (dropExchange_hosted · k),
    padsOf_hosted, showPads_hosted]

@[simp] theorem purgeRegion_hosted (r : Nat) : purgeRegion (s.hosted R C) r = (purgeRegion s r).hosted R C := by
  unfold purgeRegion
  simp only [State.clock_hosted, noteQueues_hosted]
  rfl

@[simp] theorem startRegion_hosted (r : Nat) : startRegion (s.hosted R C) r = (startRegion s r).hosted R C := by
  unfold startRegion
  simp only [State.clock_hosted, foldl_hosted (fun x c => enterConfig x (8 * r + c)) (fun y c => enterConfig_hosted y _), State.links_hosted, settleLinks_hosted,
    
    foldl_hosted (fun x c => settleAll x (8 * r + c) (s.clock.now + 1)) (fun y c => settleAll_hosted y _ _), purgeRegion_hosted, State.fld_hosted, State.setFld_hosted,
    State.mark_hosted, State.region_hosted, State.setRegion_hosted]

/-! ### The array halts -/

/-- A dot unit halts as it was listed. -/
def haltDot (t : State) (e : Nat × DotUnit) : State :=
  (t.setFld (fRunning (.dot (Fin.ofNat 4096 e.1))) 0).setUnit e.1 { e.2 with play := {}, flight := [], outLink := [] }

theorem haltAgents_eq : haltAgents s =
    let s0 := chargeWaits (landDue s (s.clock.now - 1))
    let s1 := s0.units.foldl haltDot s0
    s1.funs.foldl haltFun s1 := rfl

@[simp] theorem haltAgents_hosted : haltAgents (s.hosted R C) = (haltAgents s).hosted R C := by
  have hdot : ∀ (y : State) (e : Nat × DotUnit), haltDot (y.hosted R C) e = (haltDot y e).hosted R C := fun _ _ => rfl
  have hfun : ∀ (y : State) (e : Nat × FunUnit), haltFun (y.hosted R C) e = (haltFun y e).hosted R C := fun _ _ => rfl
  simp only [haltAgents_eq, State.clock_hosted, landDue_hosted, chargeWaits_hosted, State.units_hosted, foldl_hosted haltDot hdot, State.funs_hosted,
    foldl_hosted haltFun hfun]

@[simp] theorem haltClusters_hosted : haltClusters (s.hosted R C) = (haltClusters s).hosted R C := by
  unfold haltClusters
  refine foldl_hosted _ (fun y e => ?_) _ s
  simp only [State.cluster_hosted, State.setCluster_hosted, takeMap_hosted]
  cases (y.cluster e.1).steer.nextMap <;> rfl

/-- A dot unit's banks, what is on its way in it and its source regions are cleared. -/
def clearedUnit (e : Nat × DotUnit) : DotUnit :=
  { e.2 with gb := List.replicate 4 {}, mb := List.replicate 16 {}, flight := [], schedHeld := none, outLink := [], src := [none, none, none, none] }

/-- A function unit forgets the poison that it has read. -/
def clearedFun (e : Nat × FunUnit) : FunUnit := { e.2 with poisoned := false, schedHeld := none }

/-- A cluster's steering unit and block are at their reset. -/
def clearedCluster (e : Nat × Cluster) : Cluster := { e.2 with steer := {}, logic := {} }

/-- The halted array with what an image set cleared, and with given contexts. -/
def arrayCleared (t : State) (D : SMap CtxSt) : State :=
  { t with
    units := t.units.foldl (fun m e => mset {} m e.1 (clearedUnit e)) []
    funs := t.funs.foldl (fun m e => mset {} m e.1 (clearedFun e)) []
    clusters := t.clusters.foldl (fun m e => mset {} m e.1 (clearedCluster e)) []
    portQ := [], bankQ := [], steerQ := [], links := [], contribs := [], vas := [], stage := {}, baseSwap := false
    regions := t.regions.foldl (fun m e => mset {} m e.1 { e.2 with
      descs := [], hqs := [], arrived := false, requestAt := none, lines := [], fills := [] }) []
    way := t.way.foldl (fun m e => mset {} m e.1 (stopWay e.2)) []
    ctxs := D, mcs := [], txLinks := [], windows := [] }

theorem clearArray_eq : ∃ D, clearArray s = arrayCleared (haltClusters (haltAgents s)) D := ⟨_, rfl⟩

theorem arrayCleared_hosted (D E : SMap CtxSt) : arrayCleared (s.hosted R C) D = (arrayCleared s E).hosted R D := rfl

/-- What of the old image is cleared does not depend on the pairs, and the contexts go to contexts. -/
theorem clearArray_hosted : ∃ D, clearArray (s.hosted R C) = (clearArray s).hosted R D := by
  obtain ⟨D, hD⟩ := clearArray_eq (s.hosted R C)
  obtain ⟨E, hE⟩ := clearArray_eq s
  exact ⟨D, by rw [hD, hE, haltAgents_hosted, haltClusters_hosted, arrayCleared_hosted]⟩

/-- The transfers of a region are dropped. -/
def regionDropped (t : State) (e : Nat × Region) : State :=
  withdrawAll (e.2.descs.foldl (fun x d => (x.setFld (fBusy e.1 d.1) 0).setFld (fPending e.1 d.1) 0) t) (.cache (Fin.ofNat 64 e.1)) (fun _ => true)

theorem regionDropped_hosted (e : Nat × Region) : regionDropped (s.hosted R C) e = (regionDropped s e).hosted R C := by
  unfold regionDropped
  rw [foldl_hosted _ (fun y d => by rw [State.setFld_hosted, State.setFld_hosted]), withdrawAll_hosted]

theorem dropTransfers_eq : dropTransfers s =
    (s.regions.foldl regionDropped s).memArb.foldl (fun t e => withdrawAll t (.memory (Fin.ofNat 8 e.1)) (fun q => decide (q ≠ .host)))
      (s.regions.foldl regionDropped s) := rfl

@[simp] theorem dropTransfers_hosted : dropTransfers (s.hosted R C) = (dropTransfers s).hosted R C := by
  rw [dropTransfers_eq, State.regions_hosted, foldl_hosted _ regionDropped_hosted, State.memArb_hosted]
  exact foldl_hosted _ (fun y e => withdrawAll_hosted y _ _) _ _

/-- Every region starts reconfiguring, and the package shows no image. -/
def regionsStarted : State := (List.range 64).foldl (fun t r => startRegion (t.setFld (fCommitPending r) 0) r) ((s.mark fLoading).setFld fRegime 0)

theorem regionsStarted_hosted : regionsStarted (s.hosted R C) = (regionsStarted s).hosted R C := by
  unfold regionsStarted
  rw [State.mark_hosted, State.setFld_hosted]
  exact foldl_hosted _ (fun y r => by rw [State.setFld_hosted, startRegion_hosted]) _ _

/-- The registers of the cleared array, with those that a load keeps. -/
def regsKept (t : State) : State := resetModes { t with regs := t.regs.filter (fun e => keepsOverLoad s e.1) }

theorem regsKept_hosted (t : State) (D : SMap CtxSt) : regsKept (s.hosted R C) (t.hosted R D) = (regsKept s t).hosted R D := rfl

/-- A lane leaves the map. -/
def laneUnmapped (t : State) (n : Nat) : State := if t.is (fWayInMap n) then t.setFld (fWayInMap n) 0 else t

theorem laneUnmapped_hosted (n : Nat) : laneUnmapped (s.hosted R C) n = (laneUnmapped s n).hosted R C := by
  unfold laneUnmapped
  rw [State.is_hosted, State.setFld_hosted]
  exact ite_hosted rfl rfl

theorem unloadImage_eq : unloadImage s =
    { (((((((List.range 384).foldl laneUnmapped (regsKept s (clearArray (dropTransfers (regionsStarted s))))).setFld fHalf 0).setFld fRegionsPer 0).setFld
      fChannels 0).setFld fIdle 0).setFld fWinW 0).setFld fWinF 0 with image := none } := rfl

/-- The old image leaves a state with other pairs and contexts as it leaves the state. -/
theorem unloadImage_hosted : ∃ D, unloadImage (s.hosted R C) = (unloadImage s).hosted R D := by
  obtain ⟨D, hclear⟩ := clearArray_hosted (R := R) (C := C) (dropTransfers (regionsStarted s))
  refine ⟨D, ?_⟩
  rw [unloadImage_eq, regionsStarted_hosted, dropTransfers_hosted, hclear, regsKept_hosted, foldl_hosted _ laneUnmapped_hosted]
  simp only [State.setFld_hosted, unloadImage_eq]
  rfl

end

end Sys2Proof.Machine

/-!
The memories of the array, with what is at work or on its way in it: most writes leave all of it alone.
-/
namespace Sys2Proof.Machine

/-- The units, the beats on links, and of each cluster its store and what is on its way in it. -/
def State.core (s : State) : (SMap DotUnit × SMap FunUnit × List LinkBeat) × (Nat → Store × List QueueArrival × List BusRow) :=
  ((s.units, s.funs, s.links), fun k => ((s.cluster k).store, (s.cluster k).arrivals, (s.cluster k).bus))

/-- Nothing is at work in a cluster, on its way in it or on a link. -/
def Calm (s : State) : Prop := quiet s ∧ s.links = []

theorem State.core_of_sansLogic {s t : State} (h : t.sansLogic = s.sansLogic) : t.core = s.core :=
  (congrArg (fun p : State × (Nat → Cluster) => ((p.1.units, p.1.funs, p.1.links), fun k => ((p.2 k).store, (p.2 k).arrivals, (p.2 k).bus))) h :)

section
variable {s t : State}

theorem State.units_of_core (h : t.core = s.core) : t.units = s.units := (congrArg (fun p => p.1.1) h :)

theorem State.funs_of_core (h : t.core = s.core) : t.funs = s.funs := (congrArg (fun p => p.1.2.1) h :)

theorem State.links_of_core (h : t.core = s.core) : t.links = s.links := (congrArg (fun p => p.1.2.2) h :)

theorem State.store_of_core (h : t.core = s.core) (k : Nat) : (t.cluster k).store = (s.cluster k).store := (congrArg (fun p => (p.2 k).1) h :)

theorem Calm.of_core (hs : Calm s) (h : t.core = s.core) : Calm t := by
  obtain ⟨⟨hidle, hstill⟩, hlinks⟩ := hs
  refine ⟨⟨fun f => ?_, fun k => ⟨?_, ?_⟩⟩, (State.links_of_core h).trans hlinks⟩
  · exact (congrArg (fun m : SMap FunUnit => (mget {} m f).op) (State.funs_of_core h) :).trans (hidle f)
  · exact (congrArg (fun p => (p.2 k).2.1) h :).trans (hstill k).1
  · exact (congrArg (fun p => (p.2 k).2.2) h :).trans (hstill k).2

end

theorem foldl_core {α : Type} (f : State → α → State) (hf : ∀ y a, (f y a).core = y.core) (l : List α) (s : State) : (l.foldl f s).core = s.core :=
  foldl_keeps (fun u : State => u.core = s.core) (fun y a hy => (hf y a).trans hy) rfl

/-- A fold whose steps leave a calm array alone leaves it alone. -/
theorem foldl_core_of_calm {α : Type} (f : State → α → State) (hf : ∀ y a, Calm y → (f y a).core = y.core) (l : List α) {s : State} (h : Calm s) :
    (l.foldl f s).core = s.core :=
  foldl_keeps (fun u : State => u.core = s.core) (fun y a hy => (hf y a (h.of_core hy)).trans hy) rfl

section
variable (s : State)

/-! ### Writes -/

@[simp] theorem State.setRaw_core (a : Nat) (v : Word32) : (s.setRaw a v).core = s.core := (rfl)
@[simp] theorem State.setFld_core (f : Fld) (v : Nat) : (s.setFld f v).core = s.core := (rfl)
@[simp] theorem State.mark_core (f : Fld) : (s.mark f).core = s.core := (rfl)
@[simp] theorem State.bump_core (f : Fld) (n : Nat) : (s.bump f n).core = s.core := (rfl)
@[simp] theorem State.drawn_core : s.drawn.core = s.core := (rfl)
@[simp] theorem State.setRegion_core (g : Nat) (v : Region) : (s.setRegion g v).core = s.core := (rfl)
@[simp] theorem State.setTxLink_core (site k : Nat) (v : TxLink) : (s.setTxLink site k v).core = s.core := (rfl)
@[simp] theorem State.setMc_core (m : Nat) (v : McSt) : (s.setMc m v).core = s.core := (rfl)
@[simp] theorem unstage_core (a : Nat) : (unstage s a).core = s.core := (rfl)
@[simp] theorem State.setQueue_core (q : QueueId) (v : Queue) : (s.setQueue q v).core = s.core := by cases q <;> rfl

@[simp] theorem State.raise_core (f : Fld) (v : Nat) : (s.raise f v).core = s.core := by
  unfold State.raise
  split <;> simp

@[simp] theorem State.setLogic_core (k : Nat) (v : Logic) : (s.setLogic k v).core = s.core := State.core_of_sansLogic (s.setLogic_sansLogic k v)

@[simp] theorem State.setSteer_core (k : Nat) (v : Steer) : (s.setSteer k v).core = s.core := by
  refine Prod.ext rfl (funext fun j => ?_)
  by_cases h : j = k
  · simp only [State.core, State.setSteer, h, State.setCluster_cluster]
  · simp only [State.core, State.setSteer, State.setCluster_cluster_other _ _ _ _ h]

@[simp] theorem showPads_core (p : Nat → Bool) : (showPads s p).core = s.core := State.core_of_sansLogic (showPads_sansLogic s p)

/-! ### Queues -/

@[simp] theorem hazard_core (kind : Nat) (who : Who) (object t : Nat) : (hazard s kind who object t).core = s.core := by
  unfold hazard
  dsimp only
  split
  · split <;> simp only [State.setFld_core, State.mark_core, State.bump_core]
  · rfl

section
variable (q : QueueId)

@[simp] theorem noteOcc_core (t : Nat) : (noteOcc s q t).core = s.core := by
  unfold noteOcc
  dsimp only
  split
  · split <;> simp
  · rfl

@[simp] theorem noteOver_core (t : Nat) : (noteOver s q t).core = s.core := by
  unfold noteOver
  split
  · split <;> simp
  · rfl

@[simp] theorem noteQueue_core (t : Nat) : (noteQueue s q t).core = s.core := by simp [noteQueue]

@[simp] theorem noteQueues_core (p : QueueId → Bool) (t : Nat) : (noteQueues s p t).core = s.core :=
  foldl_core _ (fun y q => noteQueue_core y q t) _ s

@[simp] theorem chargeQueue_core (t : Nat) : (chargeQueue s q t).core = s.core := by
  unfold chargeQueue
  dsimp only
  split
  · rw [State.setQueue_core, State.bump_core]
    split <;> simp
  · split <;> simp

@[simp] theorem purgeQueue_core : (purgeQueue s q).core = s.core := by simp [purgeQueue]

@[simp] theorem loadCredits_core : (loadCredits s q).core = s.core := by simp [loadCredits]

end

@[simp] theorem purgeRegion_core (r : Nat) : (purgeRegion s r).core = s.core := noteQueues_core s _ _

/-! ### Staged fields and configuration frames -/

@[simp] theorem takeStaged_core (a : Nat) : (takeStaged s a).core = s.core := by
  unfold takeStaged
  split <;> simp

@[simp] theorem stageWrite_core (a : Nat) (v : Word32) : (stageWrite s a v).core = s.core := by
  unfold stageWrite
  split
  · exact State.mark_core _ _
  · rfl

@[simp] theorem plainWrite_core (a : Nat) (v : Word32) : (plainWrite s a v).core = s.core := by
  unfold plainWrite
  dsimp only
  repeat' split
  all_goals simp

@[simp] theorem writeWords_core (l : List (Nat × Nat)) : (writeWords s l).core = s.core := foldl_core _ (fun y _ => plainWrite_core y _ _) l s

@[simp] theorem guardColumn_core (k col : Nat) : (guardColumn s k col).core = s.core := by
  unfold guardColumn
  dsimp only
  split
  · simp
  · split <;> simp

@[simp] theorem applyFrame_core (k : Nat) (ws : List Word64) : (applyFrame s k ws).core = s.core := by
  unfold applyFrame
  dsimp only
  split <;> simp

@[simp] theorem commitFormat_core (g : Nat) : (commitFormat s g).core = s.core := by
  unfold commitFormat
  dsimp only
  split
  · rfl
  · split
    · exact (State.mark_core _ _).trans (foldl_core _ unstage_core _ s)
    · exact foldl_core _ takeStaged_core _ s

@[simp] theorem commitQueue_core (k q : Nat) (x : QSet) : (commitQueue s k q x).core = s.core := by
  unfold commitQueue
  dsimp only
  repeat' split
  all_goals simp

@[simp] theorem commitBank_core (k : Nat) : (commitBank s k).core = s.core := foldl_core _ (fun y q => commitQueue_core y k q _) _ s

@[simp] theorem takeMap_core (k : Nat) (m0 m1 : Word32) : (takeMap s k m0 m1).core = s.core := by simp [takeMap]

@[simp] theorem commitMap_core (k : Nat) (m0 m1 : Word32) : (commitMap s k m0 m1).core = s.core := by
  unfold commitMap
  dsimp only
  split <;> simp

@[simp] theorem commitSteer_core (k : Nat) : (commitSteer s k).core = s.core := by
  unfold commitSteer
  dsimp only
  repeat' split
  all_goals simp

@[simp] theorem commitPll_core (r i : Nat) : (commitPll s r i).core = s.core := by
  unfold commitPll
  dsimp only
  repeat' split
  all_goals simp

@[simp] theorem switchTrees_core (old : State) (r : Nat) : (switchTrees old s r).core = s.core :=
  foldl_core _ (fun y _ => (State.drawn_core _).trans (State.setRegion_core y _ _)) _ s

@[simp] theorem releaseBlock_core (k : Nat) : (releaseBlock s k).core = s.core := by
  simp only [releaseBlock, showPads_core, State.setLogic_core, State.setFld_core]

end

/-! ### A region is released in a calm array (08 R211, R214) -/

section
variable {s : State} (h : Calm s)

theorem settleBeats_of_calm (hlinks : s.links = []) (p : LinkBeat → Bool) (fuel : Nat) : settleBeats s p fuel = s := by
  cases fuel with
  | zero => rfl
  | succ fuel => simp [settleBeats, nextBeat, hlinks]

theorem settlePass_of_calm (hlinks : s.links = []) (fuel g o t : Nat) : settlePass s fuel g o t = s := by
  cases fuel with
  | zero => rfl
  | succ fuel =>
    rw [settlePass]
    split
    · rfl
    · simp [hlinks]

theorem settlePort_of_calm (hlinks : s.links = []) (g p bound : Nat) : settlePort s g p bound = s := by
  unfold settlePort
  dsimp only
  split
  · rw [settlePass_of_calm hlinks]
    exact settleBeats_of_calm hlinks _ _
  · exact settleBeats_of_calm hlinks _ _

include h

theorem settleQueue_core (q : QueueId) (bound : Nat) : (settleQueue s q bound).core = s.core := by
  cases q with
  | port u p => exact congrArg State.core (settlePort_of_calm h.2 _ _ _)
  | bank k q => exact State.core_of_sansLogic (settleCluster_of_still h.1.2 _ _)
  | steer k i => exact State.core_of_sansLogic (settleCluster_of_still h.1.2 _ _)

theorem settleAll_core (k bound : Nat) : (settleAll s k bound).core = s.core := State.core_of_sansLogic (settleAll_of_quiet h.1 k bound)

theorem commitMode_core (q : QueueId) : (commitMode s q).core = s.core := by
  unfold commitMode
  split
  · rfl
  · split
    · simp
    · rw [loadCredits_core, takeStaged_core, settleQueue_core h]

theorem commitUnit_core (g : Nat) : (commitUnit s g).core = s.core := by
  have hformat : (takeStaged (commitFormat s g) (unitBase g + 0x64)).core = s.core := by simp
  exact (foldl_core_of_calm _ (fun y p hy => commitMode_core hy _) _ (h.of_core hformat)).trans hformat

theorem commitCluster_core (k : Nat) : (commitCluster s k).core = s.core := by
  have hbank : (if anyStaged s ((List.range 16).map (fun q => bankAddr k q) ++ (List.range 16).map (fun q => bankAddr k q + 0x18)) then
      commitBank (settleAll s k s.clock.now) k else s).core = s.core := by
    split
    · rw [commitBank_core, settleAll_core h]
    · rfl
  have hunits := (foldl_core_of_calm (fun t u => commitUnit t (8 * k + u)) (fun y u hy => commitUnit_core hy _) (List.range 8) (h.of_core hbank)).trans
    hbank
  rw [commitCluster, commitSteer_core]
  exact (foldl_core_of_calm _ (fun y i hy => commitMode_core hy _) _ (h.of_core hunits)).trans hunits

theorem commitClocks_core (r : Nat) : (commitClocks s r).core = s.core := by
  unfold commitClocks
  dsimp only
  split
  · rfl
  · split
    · exact (State.mark_core _ _).trans (foldl_core _ unstage_core _ s)
    · rw [switchTrees_core, commitPll_core, commitPll_core, takeStaged_core]
      exact State.core_of_sansLogic (playBlocks_of_quiet h.1 _ _)

theorem finishCommit_core (r : Nat) : (finishCommit s r).core = s.core := by
  have hclusters := foldl_core_of_calm (fun t c => commitCluster t (8 * r + c)) (fun y c hy => commitCluster_core hy _) (List.range 8) h
  rw [finishCommit, State.setRegion_core, State.setFld_core, commitRegion, State.setFld_core, commitClocks_core (h.of_core hclusters), hclusters]

theorem releaseRegion_core (r : Nat) : (releaseRegion s r).core = s.core := by
  have hlinks : settleLinks s s.clock.now (129 * s.links.length) = s := settleBeats_of_calm h.2 _ _
  have hsettled := foldl_core_of_calm (fun x c => settleAll x (8 * r + c) x.clock.now) (fun y c hy => settleAll_core hy _ _) (List.range 8) h
  have hpurged := (purgeRegion_core _ r).trans hsettled
  have hcommitted := (finishCommit_core (h.of_core hpurged) r).trans hpurged
  rw [releaseRegion, hlinks, State.setRegion_core, State.setFld_core]
  exact (foldl_core _ (fun y c => releaseBlock_core y _) _ _).trans hcommitted

end

end Sys2Proof.Machine

/-!
What an image leaves in the memories: the sections in the stores that the old image left, and no timetable where no channel runs (09 R227, R235;
01 R21).
-/
namespace Sys2Proof.Machine

/-! ### The same words in every memory -/

/-- The same words in every memory of every agent and in every cluster store. -/
def SameMemory (s t : State) : Prop := (∀ a k, memOf t a k = memOf s a k) ∧ ∀ k, (t.cluster k).store = (s.cluster k).store

/-- The memory of an agent that a kind names: a function unit has one, a dot unit four. -/
def memoryIx : Agent → Nat → Nat
  | .fn _, _ => 3
  | .dot _, k => min k 3

section
variable {s t u : State}

theorem SameMemory.trans (h : SameMemory s t) (g : SameMemory t u) : SameMemory s u :=
  ⟨fun a k => (g.1 a k).trans (h.1 a k), fun k => (g.2 k).trans (h.2 k)⟩

theorem SameMemory.symm (h : SameMemory s t) : SameMemory t s := ⟨fun a k => (h.1 a k).symm, fun k => (h.2 k).symm⟩

theorem memOf_congr (hu : t.units = s.units) (hf : t.funs = s.funs) (a : Agent) (k : Nat) : memOf t a k = memOf s a k := by
  cases a with
  | fn f => simp only [memOf, State.fun_, hf]
  | dot g => simp only [memOf, State.unit, hu]

theorem SameMemory.of_core (h : t.core = s.core) : SameMemory s t :=
  ⟨memOf_congr (State.units_of_core h) (State.funs_of_core h), State.store_of_core h⟩

/-- Where both sides are written the same memory changes, the memories stay the same. -/
theorem SameMemory.of_cores {s' t' : State} (h : SameMemory s t) (hs : s'.core = s.core) (ht : t'.core = t.core) : SameMemory s' t' :=
  ((SameMemory.of_core hs).symm.trans h).trans (SameMemory.of_core ht)

theorem memOf_setMem (a b : Agent) (kind k : Nat) (m : Store) :
    memOf (setMem s a kind m) b k = if b = a ∧ memoryIx b k = memoryIx a kind then m else memOf s b k := by
  by_cases hb : b = a
  · subst hb
    cases b with
    | fn f => simp [memOf, setMem, memoryIx]
    | dot g =>
      match kind, k with
      | 0, 0 | 0, 1 | 0, 2 | 0, n + 3 | 1, 0 | 1, 1 | 1, 2 | 1, n + 3 | 2, 0 | 2, 1 | 2, 2 | 2, n + 3 | n + 3, 0 | n + 3, 1 | n + 3, 2 | n + 3, l + 3 =>
        simp [memOf, setMem, memoryIx]
  · rw [if_neg (fun h => hb h.1), memOf_setMem_other s hb]

theorem setMem_clusters (a : Agent) (kind : Nat) (m : Store) : (setMem s a kind m).clusters = s.clusters := by cases a <;> rfl

theorem SameMemory.setMem (h : SameMemory s t) (a : Agent) (kind : Nat) (m : Store) : SameMemory (setMem s a kind m) (setMem t a kind m) := by
  refine ⟨fun b k => ?_, fun k => ?_⟩
  · rw [memOf_setMem, memOf_setMem, h.1]
  · rw [State.cluster, setMem_clusters, State.cluster, setMem_clusters]
    exact h.2 k

theorem SameMemory.putWords (h : SameMemory s t) (a : Agent) (kind start : Nat) (ws : List Word64) :
    SameMemory (putWords s a kind start ws) (putWords t a kind start ws) := by
  rw [Machine.putWords, Machine.putWords, h.1]
  exact h.setMem a kind _

theorem SameMemory.setStore (h : SameMemory s t) (k : Nat) (m : Store) :
    SameMemory (s.setCluster k { s.cluster k with store := m }) (t.setCluster k { t.cluster k with store := m }) := by
  refine ⟨fun a j => h.1 a j, fun j => ?_⟩
  by_cases hj : j = k
  · rw [hj, State.setCluster_cluster, State.setCluster_cluster]
  · rw [State.setCluster_cluster_other _ _ _ _ hj, State.setCluster_cluster_other _ _ _ _ hj]
    exact h.2 j

end

/-! ### The sections (R227) -/

theorem placeFrames_core (k : Nat) (l : List (List Word64)) (s : State) : (l.foldl (fun t f => (applyFrame t k f).bump (fApplied k)) s).core = s.core :=
  foldl_core _ (fun y f => (State.bump_core _ _ _).trans (applyFrame_core y k f)) l s

/-- What a section does to the array: a store of one unit, one cluster store, or nothing. -/
theorem placeSection_cases (h : Hdr) (i : Nat) (p : Placement) (x : Sect) :
    (∃ a kind start ws, ∀ s, placeSection h i p s x = putWords s a kind start ws) ∨
    (∃ k o bs, ∀ s, placeSection h i p s x = s.setCluster k { s.cluster k with store := putBytes (s.cluster k).store o bs }) ∨
    (∀ s, (placeSection h i p s x).core = s.core) := by
  unfold placeSection
  dsimp only
  split
  case h_1 | h_3 | h_4 | h_5 | h_6 => exact .inl ⟨_, _, _, _, fun _ => rfl⟩
  case h_8 => exact .inr (.inl ⟨_, _, _, fun _ => rfl⟩)
  case h_2 | h_7 | h_9 | h_10 => exact .inr (.inr fun s => writeWords_core s _)
  case h_11 => exact .inr (.inr fun s => placeFrames_core _ _ s)
  case h_12 => exact .inr (.inr fun _ => rfl)

theorem SameMemory.placeSection {s t : State} (hst : SameMemory s t) (h : Hdr) (i : Nat) (p : Placement) (x : Sect) :
    SameMemory (placeSection h i p s x) (placeSection h i p t x) := by
  rcases placeSection_cases h i p x with ⟨a, kind, start, ws, hput⟩ | ⟨k, o, bs, hput⟩ | hcore
  · rw [hput, hput]
    exact hst.putWords a kind start ws
  · rw [hput, hput, hst.2]
    exact hst.setStore k _
  · exact hst.of_cores (hcore s) (hcore t)

theorem SameMemory.foldl {α : Type} {f : State → α → State} (hf : ∀ s t a, SameMemory s t → SameMemory (f s a) (f t a)) (l : List α) {s t : State}
    (h : SameMemory s t) : SameMemory (l.foldl f s) (l.foldl f t) := by
  induction l generalizing s t with
  | nil => exact h
  | cons a l ih => exact ih (hf s t a h)

/-- The sections make the same memories of the same memories. -/
theorem SameMemory.placeAll {s t : State} (hst : SameMemory s t) (h : Hdr) (ss : List Sect) (ps : List Placement) :
    SameMemory (placeAll h ss ps s) (placeAll h ss ps t) := by
  unfold Machine.placeAll
  refine SameMemory.foldl (fun y z e hy => ?_) _ hst
  exact SameMemory.foldl (fun _ _ x hz => hz.placeSection h e.1 e.2 x) ss hy

/-! ### A sound array -/

/-- Nothing is at work, and each unit is listed once. -/
structure Sound (s : State) : Prop where
  calm : Calm s
  units : risingKeys s.units = true
  funs : risingKeys s.funs = true

section
variable {s t : State}

theorem Sound.of_core (hs : Sound s) (h : t.core = s.core) : Sound t :=
  ⟨hs.calm.of_core h, by rw [State.units_of_core h]; exact hs.units, by rw [State.funs_of_core h]; exact hs.funs⟩

theorem Sound.setUnit (hs : Sound s) (g : Nat) (u : DotUnit) : Sound (s.setUnit g u) := ⟨hs.calm, risingKeys_mset _ _ _ _ hs.units, hs.funs⟩

theorem Sound.setFun (hs : Sound s) (f : Nat) {u : FunUnit} (hu : u.op = none) : Sound (s.setFun f u) :=
  ⟨⟨⟨idleFuns_setFun hs.calm.1.1 f hu, hs.calm.1.2⟩, hs.calm.2⟩, hs.units, risingKeys_mset _ _ _ _ hs.funs⟩

theorem Sound.setMem (hs : Sound s) (a : Agent) (kind : Nat) (m : Store) : Sound (setMem s a kind m) := by
  cases a with
  | dot g => exact hs.setUnit _ _
  | fn f => exact hs.setFun _ (hs.calm.1.1 f.val)

theorem Sound.setStore (hs : Sound s) (k : Nat) (m : Store) : Sound (s.setCluster k { s.cluster k with store := m }) := by
  refine ⟨⟨⟨hs.calm.1.1, fun j => ?_⟩, hs.calm.2⟩, hs.units, hs.funs⟩
  by_cases hj : j = k
  · rw [hj, State.setCluster_cluster]
    exact hs.calm.1.2 k
  · rw [State.setCluster_cluster_other _ _ _ _ hj]
    exact hs.calm.1.2 j

theorem Sound.placeSection (hs : Sound s) (h : Hdr) (i : Nat) (p : Placement) (x : Sect) : Sound (placeSection h i p s x) := by
  rcases placeSection_cases h i p x with ⟨a, kind, start, ws, hput⟩ | ⟨k, o, bs, hput⟩ | hcore
  · rw [hput]
    exact hs.setMem _ _ _
  · rw [hput]
    exact hs.setStore k _
  · exact hs.of_core (hcore s)

theorem Sound.placeAll (hs : Sound s) (h : Hdr) (ss : List Sect) (ps : List Placement) : Sound (placeAll h ss ps s) :=
  foldl_keeps Sound (fun _ e hy => foldl_keeps Sound (fun _ x hz => hz.placeSection h e.1 e.2 x) hy) hs

end

end Sys2Proof.Machine

/-!
The array that the old image has left is sound (09 R235), and so is the one that holds the new image.
-/
namespace Sys2Proof.Machine

/-! ### Maps rebuilt entry by entry -/

section
variable {α : Type} [DecidableEq α]

theorem mem_mset {d : α} {m : SMap α} {k : Nat} {v : α} {e : Nat × α} (h : e ∈ mset d m k v) : e = (k, v) ∨ e ∈ m ∧ e.1 ≠ k := by
  unfold mset at h
  split at h
  · exact .inr ⟨(List.mem_filter.mp h).1, key_ne_of_mem_merase h⟩
  · rcases mem_minsert h with h | h
    · exact .inl h
    · exact .inr ⟨(List.mem_filter.mp h).1, key_ne_of_mem_merase h⟩

/-- The map of the entries of a list, each changed. -/
def rebuilt (d : α) (f : Nat × α → α) (l : SMap α) : SMap α := l.foldl (fun m e => mset d m e.1 (f e)) []

theorem risingKeys_rebuilt (d : α) (f : Nat × α → α) (l : SMap α) : risingKeys (rebuilt d f l) = true :=
  foldl_keeps (fun m : SMap α => risingKeys m = true) (fun m e hm => risingKeys_mset d m e.1 (f e) hm) rfl

/-- What holds of the empty value and of every changed entry holds of every value of the rebuilt map. -/
theorem rebuilt_all (P : α → Prop) {d : α} {f : Nat × α → α} {l : SMap α} (hd : P d) (hf : ∀ e ∈ l, P (f e)) (k : Nat) : P (mget d (rebuilt d f l) k) := by
  have hstep : ∀ (r : SMap α) (m : SMap α), (∀ e ∈ r, P (f e)) → (∀ e ∈ m, P e.2) → ∀ e ∈ r.foldl (fun m e => mset d m e.1 (f e)) m, P e.2 := by
    intro r
    induction r with
    | nil => exact fun m _ hm => hm
    | cons e r ih =>
      intro m hr hm
      refine ih _ (fun x hx => hr x (List.mem_cons_of_mem e hx)) (fun x hx => ?_)
      rcases mem_mset hx with rfl | ⟨hx, -⟩
      · exact hr e List.mem_cons_self
      · exact hm x hx
  rcases mget_mem d (rebuilt d f l) k with h | h
  · rw [h]
    exact hd
  · exact hstep l [] hf (by simp) _ h

/-- Where every key is listed once, the rebuilt map reads as the map, changed. -/
theorem mget_rebuilt {d : α} {f : Nat × α → α} {l : SMap α} (hl : risingKeys l = true) {k : Nat} (hd : f (k, d) = d) :
    mget d (rebuilt d f l) k = f (k, mget d l k) := by
  have hother : ∀ (r m : SMap α), (∀ e ∈ r, e.1 ≠ k) → mget d (r.foldl (fun m e => mset d m e.1 (f e)) m) k = mget d m k := by
    intro r
    induction r with
    | nil => exact fun m _ => rfl
    | cons e r ih =>
      intro m hr
      rw [List.foldl_cons, ih _ (fun x hx => hr x (List.mem_cons_of_mem e hx)), mget_mset_other _ _ _ _ (hr e List.mem_cons_self).symm]
  have hstep : ∀ (r m : SMap α), risingKeys r = true → mget d m k = d → mget d (r.foldl (fun m e => mset d m e.1 (f e)) m) k = f (k, mget d r k) := by
    intro r
    induction r with
    | nil => exact fun m _ hm => hm.trans hd.symm
    | cons e r ih =>
      intro m hr hm
      obtain ⟨habove, hrise⟩ := (risingKeys_cons_iff e r).mp hr
      rw [List.foldl_cons, mget]
      by_cases he : e.1 = k
      · rw [hother r _ (fun x hx => by have := habove x hx; omega), if_pos he, he, mget_mset_same, ← he]
      · rw [if_neg he]
        exact ih _ hrise ((mget_mset_other _ _ _ _ (Ne.symm he)).trans hm)
  exact hstep l [] hl rfl

end

/-! ### Every listed agent and cluster stops -/

section
variable (s t : State)

theorem State.setFun_funs (f : Nat) (u : FunUnit) : (t.setFun f u).funs = mset {} t.funs f u := rfl

theorem State.setFld_funs (f : Fld) (v : Nat) : (t.setFld f v).funs = t.funs := rfl

theorem State.setRaw_clusters (a : Nat) (v : Word32) : (t.setRaw a v).clusters = t.clusters := rfl

theorem State.setSteer_clusters (k : Nat) (v : Steer) : (t.setSteer k v).clusters = mset {} t.clusters k { t.cluster k with steer := v } := rfl

theorem haltFun_funs (e : Nat × FunUnit) : (haltFun t e).funs =
    mset {} t.funs e.1 { e.2 with play := {}, op := none, buf := [], lastRow := {}, outBusy := [] } := by
  rw [haltFun, State.setFun_funs, State.setFld_funs]

/-- Every listed function unit stops. -/
theorem haltFuns_listed {l : SMap FunUnit} (h : ∀ e ∈ t.funs, e.2.op = none ∨ ∃ x ∈ l, x.1 = e.1) : ∀ e ∈ (l.foldl haltFun t).funs, e.2.op = none := by
  induction l generalizing t with
  | nil => exact fun e he => (h e he).resolve_right (by simp)
  | cons x l ih =>
    refine ih (haltFun t x) (fun e he => ?_)
    rw [haltFun_funs] at he
    rcases mem_mset he with rfl | ⟨he, hne⟩
    · exact .inl rfl
    · rcases h e he with hop | ⟨y, hy, hkey⟩
      · exact .inl hop
      · rcases List.mem_cons.mp hy with rfl | hy
        · exact absurd hkey.symm hne
        · exact .inr ⟨y, hy, hkey⟩

theorem haltAgents_listed : ∀ e ∈ (haltAgents s).funs, e.2.op = none := by
  rw [haltAgents_eq]
  exact haltFuns_listed _ (fun e he => .inr ⟨e, he, rfl⟩)

theorem takeMap_clusters (k : Nat) (m0 m1 : Word32) : ∃ v, (takeMap t k m0 m1).clusters = mset {} t.clusters k { t.cluster k with steer := v } := by
  unfold takeMap
  dsimp only
  rw [State.setSteer_clusters, State.setRaw_cluster, State.setRaw_cluster, State.setRaw_clusters, State.setRaw_clusters]
  exact ⟨_, Eq.refl _⟩

/-- The entries after a cluster has stopped: it, and those of other clusters. -/
theorem haltCluster_listed (x e : Nat × Cluster) (he : e ∈ (haltCluster t x).clusters) : e.2.still ∨ e ∈ t.clusters ∧ e.1 ≠ x.1 := by
  have hset : ∀ {c : Cluster} {e : Nat × Cluster}, c.still → e ∈ (t.setCluster x.1 c).clusters → e.2.still ∨ e ∈ t.clusters ∧ e.1 ≠ x.1 := by
    intro c e hc he
    rcases mem_mset he with rfl | he
    · exact .inl hc
    · exact .inr he
  unfold haltCluster at he
  dsimp only at he
  split at he
  · obtain ⟨v, hv⟩ := takeMap_clusters (t.setCluster x.1 { t.cluster x.1 with
      bus := [], arrivals := [], injected := []
      steer := { (t.cluster x.1).steer with
        token := none, jobs := [], splitCount := 0, splitTag := none, slot := 0, packed := 0, waitSince := none } }) x.1 _ _
    rw [hv] at he
    rcases mem_mset he with rfl | ⟨he, -⟩
    · rw [State.setCluster_cluster]
      exact .inl ⟨rfl, rfl⟩
    · exact hset ⟨rfl, rfl⟩ he
  · exact hset ⟨rfl, rfl⟩ he

/-- Every listed cluster stops. -/
theorem haltClusters_listed : ∀ e ∈ (haltClusters s).clusters, e.2.still := by
  have hstep : ∀ (l : SMap Cluster) (t : State), (∀ e ∈ t.clusters, e.2.still ∨ ∃ x ∈ l, x.1 = e.1) → ∀ e ∈ (l.foldl haltCluster t).clusters, e.2.still := by
    intro l
    induction l with
    | nil => exact fun t h e he => (h e he).resolve_right (by simp)
    | cons x l ih =>
      intro t h
      refine ih (haltCluster t x) (fun e he => ?_)
      rcases haltCluster_listed t x e he with hstill | ⟨he, hne⟩
      · exact .inl hstill
      · rcases h e he with hstill | ⟨y, hy, hkey⟩
        · exact .inl hstill
        · rcases List.mem_cons.mp hy with rfl | hy
          · exact absurd hkey.symm hne
          · exact .inr ⟨y, hy, hkey⟩
  exact hstep s.clusters s (fun e he => .inr ⟨e, he, rfl⟩)

end

/-! ### The old image has left -/

section
variable (s : State)

variable {s} in
/-- What has stopped is sound once it is cleared. -/
theorem arrayCleared_sound (hfuns : ∀ e ∈ s.funs, e.2.op = none) (hclusters : ∀ e ∈ s.clusters, e.2.still) (D : SMap CtxSt) : Sound (arrayCleared s D) where
  calm := ⟨⟨rebuilt_all (fun u : FunUnit => u.op = none) (f := clearedFun) rfl hfuns,
    rebuilt_all Cluster.still (f := clearedCluster) ⟨rfl, rfl⟩ hclusters⟩, rfl⟩
  units := risingKeys_rebuilt ({} : DotUnit) clearedUnit s.units
  funs := risingKeys_rebuilt ({} : FunUnit) clearedFun s.funs

theorem laneUnmapped_core (n : Nat) : (laneUnmapped s n).core = s.core := by
  unfold laneUnmapped
  split <;> simp

theorem State.setImage_core (i : Option Image) : ({ s with image := i } : State).core = s.core := (rfl)

theorem regsKept_core (t : State) : (regsKept s t).core = t.core := rfl

theorem unloadImage_core : (unloadImage s).core = (clearArray (dropTransfers (regionsStarted s))).core := by
  rw [unloadImage_eq, State.setImage_core]
  simp only [State.setFld_core]
  rw [foldl_core _ laneUnmapped_core, regsKept_core]

theorem unloadImage_sound : Sound (unloadImage s) := by
  obtain ⟨D, hclear⟩ := clearArray_eq (dropTransfers (regionsStarted s))
  refine Sound.of_core ?_ (unloadImage_core s)
  rw [hclear]
  refine arrayCleared_sound ?_ (haltClusters_listed _) D
  rw [haltClusters_funs]
  exact haltAgents_listed _

theorem unloadImage_image : (unloadImage s).image = none := rfl

end

/-! ### Step 5 (R231 to R233): sources, assemblers, the fabric and the stages -/

section
variable {s : State}

/-- A unit whose memories are those that it had is written. -/
theorem SameMemory.setUnit (g : Nat) {u : DotUnit} (h : (u.weight, u.scale, u.zp, u.tt) = ((s.unit g).weight, (s.unit g).scale, (s.unit g).zp, (s.unit g).tt)) :
    SameMemory s (s.setUnit g u) := by
  refine ⟨fun a k => ?_, fun k => rfl⟩
  cases a with
  | fn f => rfl
  | dot v =>
    by_cases hv : v.val = g
    · subst hv
      obtain ⟨hw, hs, hz, ht⟩ : u.weight = _ ∧ u.scale = _ ∧ u.zp = _ ∧ u.tt = _ := by simpa using h
      unfold memOf
      dsimp only
      rw [State.setUnit_unit]
      split <;> assumption
    · unfold memOf
      dsimp only
      rw [State.setUnit_unit_other _ _ _ _ hv]

/-- The memories are the same, and the array is as sound. -/
def KeepsMemory (s t : State) : Prop := SameMemory s t ∧ (Sound s → Sound t)

theorem KeepsMemory.of_core {s t : State} (h : t.core = s.core) : KeepsMemory s t := ⟨SameMemory.of_core h, fun hs => hs.of_core h⟩

theorem KeepsMemory.trans {s t u : State} (h : KeepsMemory s t) (g : KeepsMemory t u) : KeepsMemory s u := ⟨h.1.trans g.1, fun hs => g.2 (h.2 hs)⟩

theorem foldl_keepsMemory {α : Type} (f : State → α → State) (hf : ∀ y a, KeepsMemory y (f y a)) (l : List α) (s : State) : KeepsMemory s (l.foldl f s) :=
  foldl_keeps (KeepsMemory s) (fun y a hy => hy.trans (hf y a)) ⟨⟨fun _ _ => rfl, fun _ => rfl⟩, id⟩

theorem placeSources_keepsMemory (h : Hdr) (ss : List Sect) (s : State) (p : Placement) : KeepsMemory s (placeSources h ss s p) := by
  refine foldl_keepsMemory _ (fun t e => ?_) _ s
  split
  · exact ⟨SameMemory.setUnit _ rfl, fun ht => ht.setUnit _ _⟩
  · exact .of_core rfl

variable (s)

theorem placeVas_core (h : Hdr) (ss : List Sect) (channels : Nat) : (placeVas h ss channels s).core = s.core := by
  refine (foldl_core _ (fun y x => ?_) _ _).trans (foldl_core _ (fun y v => ?_) _ s)
  · simp
  · dsimp only
    split <;> simp

theorem placeFabricSection_core (t : State) (x : Sect) : (placeFabricSection s t x).core = t.core := by
  unfold placeFabricSection
  rw [foldl_core, foldl_core, foldl_core]
  · intro u e
    unfold placeContext
    split
    · rfl
    · exact (State.setFld_core _ _ _).trans (writeWords_core u _)
  · exact fun u e => (State.setTxLink_core _ _ _ _).trans (writeWords_core u _)
  · exact fun u e => (State.setMc_core _ _ _).trans (writeWords_core u _)

theorem hqPush_core (r q : Nat) (v : Word32) : (hqPush s r q v).core = s.core := by
  unfold hqPush
  split <;> simp [pushHandle, State.setHq]

theorem placeStageSection_core (ps : List Placement) (x : Sect) : (placeStageSection ps s x).core = s.core := by
  have hbuffers : ∀ (y : State) (p : Placement), (placeBuffers x y p).core = y.core := fun y p => foldl_core _ (fun z i => writeWords_core z _) _ y
  have hhandles : ∀ (y : State) (p : Placement), (placeHandles x y p).core = y.core := fun y p => foldl_core _ (fun z i => hqPush_core z _ _ _) _ y
  rw [placeStageSection, foldl_core _ (fun y p => (hhandles _ p).trans (hbuffers y p))]
  exact foldl_core _ (fun y e => writeWords_core y _) _ s

theorem State.setClock_core (c : Clock) : ({ s with clock := c } : State).core = s.core := rfl

/-- Step 5 keeps the memories. -/
theorem placePackage_keepsMemory (b : List Byte) : KeepsMemory s (placePackage b s) := by
  refine (foldl_keepsMemory (placeSources (headerOf b) (sectsOf b (headerOf b))) (fun y p => placeSources_keepsMemory _ _ y p)
    (placements (headerOf b)) s).trans (.of_core ?_)
  refine (State.setFld_core _ _ _).trans ((State.setFld_core _ _ _).trans ((State.setClock_core _ _).trans ((showPads_core _ _).trans ?_)))
  refine (foldl_core _ (fun y x => writeWords_core y _) _ _).trans ?_
  rw [placeStages_eq, foldl_core _ (fun y x => placeStageSection_core y _ x), placeFabric_eq, foldl_core _ (fun y x => placeFabricSection_core _ y x),
    placeVas_core, foldl_core _ (fun y l => State.mark_core y _)]

end

end Sys2Proof.Machine

/-!
The new image is in place, its regions are released, and the units of the regions that no channel occupies hold no timetable (09 R235; 01 R21).
-/
namespace Sys2Proof.Machine

/-! ### The units without a channel (01 R21) -/

section
variable {s : State}

/-- A dot unit without a channel holds no timetable. -/
def idledUnit (s : State) (e : Nat × DotUnit) : DotUnit := if s.idleRegion (unitRegion e.1) then { e.2 with tt := {} } else e.2

/-- Neither does a function unit. -/
def idledFun (s : State) (e : Nat × FunUnit) : FunUnit := if s.idleRegion (clusterRegion (e.1 / 2)) then { e.2 with tt := {} } else e.2

theorem clearIdle_unit (h : Sound s) (g : Nat) : (clearIdle s).unit g = idledUnit s (g, s.unit g) :=
  mget_rebuilt (f := idledUnit s) h.units (by unfold idledUnit; split <;> rfl)

theorem clearIdle_fun (h : Sound s) (f : Nat) : (clearIdle s).fun_ f = idledFun s (f, s.fun_ f) :=
  mget_rebuilt (f := idledFun s) h.funs (by unfold idledFun; split <;> rfl)

/-- The weights, scales and zero points stay, and so do the timetables of a region with a channel. -/
theorem clearIdle_memory (h : Sound s) : (∀ k, ((clearIdle s).cluster k).store = (s.cluster k).store) ∧
    (∀ (u : UnitIx) (k : Nat), k < 3 → memOf (clearIdle s) (.dot u) k = memOf s (.dot u) k) ∧
    (∀ a : Agent, s.idleRegion (clusterRegion (aCluster a)) = false → memOf (clearIdle s) a 3 = memOf s a 3) := by
  refine ⟨fun k => rfl, fun u k hk => ?_, fun a ha => ?_⟩
  · have hunit : (clearIdle s).unit u.val = idledUnit s (u.val, s.unit u.val) := clearIdle_unit h u.val
    interval_cases k <;> simp only [memOf, hunit, idledUnit] <;> split <;> rfl
  · cases a with
    | dot u =>
      have hregion : unitRegion u.val = clusterRegion (aCluster (.dot u)) := by simp only [unitRegion, clusterRegion, aCluster]; omega
      simp only [memOf, clearIdle_unit h, idledUnit, hregion, ha, Bool.false_eq_true, if_false]
    | fn f =>
      have hregion : clusterRegion (f.val / 2) = clusterRegion (aCluster (.fn f)) := rfl
      simp only [memOf, clearIdle_fun h, idledFun, hregion, ha, Bool.false_eq_true, if_false]

theorem clearIdle_calm (h : Sound s) : Calm (clearIdle s) := by
  refine ⟨⟨fun f => ?_, h.calm.1.2⟩, h.calm.2⟩
  rw [clearIdle_fun h, idledFun]
  split
  · exact h.calm.1.1 f
  · exact h.calm.1.1 f

theorem clearIdle_image (s : State) : (clearIdle s).image = s.image := rfl

end

/-! ### The regions are released -/

section
variable (s : State)

theorem purgeRegion_beside (r : Nat) : (purgeRegion s r).beside = s.beside := noteQueues_beside s _ _

theorem releaseBlock_beside (k : Nat) : (releaseBlock s k).beside = s.beside := by
  unfold releaseBlock
  dsimp only
  rw [showPads_beside, State.setLogic_beside, State.setFld_beside _ (by simp [fLogState, logBase])]

theorem releaseRegion_beside (r : Nat) : (releaseRegion s r).beside = s.beside := by
  rw [releaseRegion, State.setRegion_beside, State.setFld_beside _ (by simp [fRgnBusy]), foldl_beside _ (fun y c => releaseBlock_beside y _), finishCommit_beside,
    purgeRegion_beside, foldl_beside _ (fun y c => settleAll_beside y _ _), settleLinks_beside]

/-- Every region that waits for its release is released. -/
def regionsReleased : State := (List.range 64).foldl (fun t r => if t.is (fRgnBusy r) then releaseRegion t r else t) s

theorem regionsReleased_image : (regionsReleased s).image = s.image := by
  have hbeside : (regionsReleased s).beside = s.beside := by
    refine foldl_beside _ (fun y r => ?_) _ s
    split
    · exact releaseRegion_beside y r
    · rfl
  exact (State.kept_of_beside hbeside).2.2.1

variable {s} in
theorem regionsReleased_core (h : Calm s) : (regionsReleased s).core = s.core := by
  refine foldl_core_of_calm _ (fun y r hy => ?_) _ h
  split
  · exact releaseRegion_core hy r
  · rfl

end

/-! ### Steps 3 to 6 of a load (R235) -/

section
variable (s : State) (b : List Byte)

/-- The sections of an image over what the old image left. -/
def sectionsPlaced : State := placeAll (headerOf b) (sectsOf b (headerOf b)) (placements (headerOf b)) (unloadImage s)

theorem sectionsPlaced_sound : Sound (sectionsPlaced s b) := (unloadImage_sound s).placeAll _ _ _

theorem imagePlaced_keepsMemory : KeepsMemory (sectionsPlaced s b) (imagePlaced s b []) := placePackage_keepsMemory (sectionsPlaced s b) b

/-- The new image is held, and no unit without a channel has a timetable. -/
def imageHeld : State := clearIdle { imagePlaced s b [] with image := some (imageOf s b) }

theorem imageWritten_eq : imageWritten s b [] =
    { regionsReleased (imageHeld s b) with trust := (regionsReleased (imageHeld s b)).trust.quantBegun } := rfl

theorem State.setTrust_core (v : Trust) : ({ s with trust := v } : State).core = s.core := (rfl)

theorem imageWritten_image : (imageWritten s b []).image = some (imageOf s b) :=
  (regionsReleased_image (imageHeld s b)).trans (clearIdle_image _)

/-- The memories of a state whose array holds the words that a load leaves. -/
def HoldsImage (z t : State) : Prop :=
  (∀ k : Nat, (t.cluster k).store = (z.cluster k).store) ∧
  (∀ (u : UnitIx) (k : Nat), k < 3 → memOf t (.dot u) k = memOf z (.dot u) k) ∧
  (∀ a : Agent, t.idleRegion (clusterRegion (aCluster a)) = false → memOf t a 3 = memOf z a 3)

theorem State.idleRegion_congr {s t : State} (h : t.image = s.image) (r : Nat) : t.idleRegion r = s.idleRegion r := by rw [State.idleRegion, State.idleRegion, h]

theorem HoldsImage.of_core {z s t : State} (h : HoldsImage z s) (hcore : t.core = s.core) (himage : t.image = s.image) : HoldsImage z t := by
  obtain ⟨hstore, hunits, htable⟩ := h
  obtain ⟨hmem, hclusters⟩ := SameMemory.of_core hcore
  refine ⟨fun k => (hclusters k).trans (hstore k), fun u k hk => (hmem _ k).trans (hunits u k hk), fun a ha => (hmem a 3).trans (htable a ?_)⟩
  rw [← State.idleRegion_congr himage]
  exact ha

theorem HoldsImage.of_same {y z t : State} (h : HoldsImage y t) (hsame : SameMemory z y) : HoldsImage z t := by
  obtain ⟨hstore, hunits, htable⟩ := h
  exact ⟨fun k => (hstore k).trans (hsame.2 k), fun u k hk => (hunits u k hk).trans (hsame.1 _ k), fun a ha => (htable a ha).trans (hsame.1 a 3)⟩

theorem clearIdle_holds {s : State} (h : Sound s) : HoldsImage s (clearIdle s) := clearIdle_memory h

theorem imageHeld_sound : Sound ({ imagePlaced s b [] with image := some (imageOf s b) } : State) :=
  ((imagePlaced_keepsMemory s b).2 (sectionsPlaced_sound s b)).of_core (State.setImage_core _ _)

theorem imageHeld_image : (imageHeld s b).image = some (imageOf s b) := clearIdle_image _

theorem imageHeld_holds : HoldsImage (sectionsPlaced s b) (imageHeld s b) :=
  (clearIdle_holds (imageHeld_sound s b)).of_same ((imagePlaced_keepsMemory s b).1.trans (SameMemory.of_core (State.setImage_core _ _)))

/-- What a load writes: the words of the image's sections, and the image. -/
theorem imageWritten_holds : HoldsImage (sectionsPlaced s b) (imageWritten s b []) := by
  refine (imageHeld_holds s b).of_core ?_ ((imageWritten_image s b).trans (imageHeld_image s b).symm)
  rw [imageWritten_eq, State.setTrust_core]
  exact regionsReleased_core (clearIdle_calm (imageHeld_sound s b))

variable {R : SMap Ring} {C : SMap CtxSt}

theorem State.hosted_core : (s.hosted R C).core = s.core := (rfl)

/-- The words of the sections do not depend on the pairs and contexts. -/
theorem sectionsPlaced_hosted : SameMemory (sectionsPlaced s b) (sectionsPlaced (s.hosted R C) b) := by
  obtain ⟨D, hunload⟩ := unloadImage_hosted (R := R) (C := C) s
  have hsame : SameMemory (unloadImage s) (unloadImage (s.hosted R C)) := by
    rw [hunload]
    exact SameMemory.of_core (State.hosted_core _)
  exact hsame.placeAll _ _ _

end

end Sys2Proof.Machine

/-!
LOAD_IMAGE of an image in host memory (13 R342; 09 R235): the check fails, the second read differs, or the image is loaded.
-/
namespace Sys2Proof.Machine

/-! ### The image of a dropped load -/

section
variable (s : State)

theorem withAlert_image (before : State) : (withAlert before s).image = s.image := by
  unfold withAlert
  split <;> rfl

theorem State.setFld_image (f : Fld) (v : Nat) : (s.setFld f v).image = s.image := rfl

theorem endCmd_image (r status result : Nat) : (endCmd s r status result).image = s.image := rfl

theorem endCmd_fld (r status result : Nat) (f : Fld) : (endCmd s r status result).fld f = s.fld f := rfl

theorem endCmd_core (r status result : Nat) : (endCmd s r status result).core = s.core := rfl

theorem foldl_image {α : Type} (f : State → α → State) (hf : ∀ y a, (f y a).image = y.image) (l : List α) : (l.foldl f s).image = s.image :=
  foldl_keeps (fun u : State => u.image = s.image) (fun y a hy => (hf y a).trans hy) rfl

theorem holdVoltage_image : (holdVoltage s).image = s.image := by
  unfold holdVoltage
  dsimp only
  rw [foldl_image]
  intro y d
  rw [State.setFld_image, State.setFld_image]

theorem leaveCount_image : (leaveCount s).image = s.image := (State.kept_of_beside (playBlocks_beside s (fun _ => true) s.clock.now)).2.2.1

theorem enterStep_image (st : Nat) : (enterStep s st).image = s.image := rfl

theorem restartMeasures_image : (restartMeasures s).image = s.image := rfl

theorem toPll_image : (toPll s).image = s.image := by
  rw [toPll, withAlert_image, enterStep_image, holdVoltage_image, restartMeasures_image, leaveCount_image]

theorem dropImage_image : (dropImage s).image = none := by
  have hdropped : (imageDropped s).image = none := unloadImage_image s
  rw [dropImage_eq]
  split
  · exact (toPll_image _).trans hdropped
  · exact hdropped

theorem setMode_image : (setMode s).image = s.image := by
  unfold setMode
  dsimp only
  split <;> rfl

theorem setMode_core : (setMode s).core = s.core := by
  unfold setMode
  dsimp only
  split <;> simp only [State.setFld_core]

theorem recordLoad_core (e : Option (Nat × Nat)) : (recordLoad s e).core = s.core := by
  cases e with
  | none => exact (State.setRaw_core _ _ _).trans (State.drawn_core s)
  | some v => exact State.setRaw_core s _ _

variable {s}

theorem setMode_regime_none (h : s.image = none) : (setMode s).fld fRegime = 0 := by
  unfold setMode
  dsimp only
  rw [h]
  dsimp only
  rw [State.fld_setFld_sep _ (by decide), State.fld_setFld_sep _ (by decide), State.fld_setFld_sep _ (by decide), State.fld_setFld _ _ _ (by decide)]
  rfl

end

/-! ### What the second read leaves -/

section
variable {s : State} {r : Nat} {c : RingCmd} {x y : List Byte}

/-- A second read that differs leaves no image. -/
theorem loadRead_changed (hcur : (s.ring r).cur = some c) (h : sha256 y ≠ sha256 x) :
    endsWith (loadRead s r x y []) r stImageChanged 0 ∧ (loadRead s r x y []).image = none ∧ (loadRead s r x y []).fld fRegime = 0 := by
  have hring : ((setMode (dropImage s)).ring r).cur = some c := by
    rw [State.ring, setMode_rings, dropImage_rings]
    exact hcur
  rw [loadRead, if_pos h]
  exact ⟨endsWith_endCmd hring _ _, (endCmd_image _ _ _ _).trans ((setMode_image _).trans (dropImage_image s)),
    (endCmd_fld _ _ _ _ _).trans (setMode_regime_none (dropImage_image s))⟩

/-- The image is loaded, and recorded. -/
def imageLoaded (s : State) (x : List Byte) : State := setMode (recordLoad (imageWritten s x []) none)

theorem imageLoaded_image (s : State) (x : List Byte) : (imageLoaded s x).image = some (imageOf s x) :=
  (setMode_image _).trans ((recordLoad_part _ State.image none rfl).trans (imageWritten_image s x))

theorem imageLoaded_rings (hn : (headerOf x).n = s.n) : (imageLoaded s x).rings = s.rings := by
  have hwritten : writeImage s x [] = imageWritten s x [] := by rw [writeImage_eq, if_neg (fun h => h.1 hn)]
  rw [imageLoaded, setMode_rings, recordLoad_rings, ← hwritten, writeImage_rings]

theorem imageLoaded_holds (s : State) (x : List Byte) : HoldsImage (sectionsPlaced s x) (imageLoaded s x) :=
  (imageWritten_holds s x).of_core ((setMode_core _).trans (recordLoad_core _ none)) ((imageLoaded_image s x).trans (imageWritten_image s x).symm)

/-- A second read that agrees with the first loads the image. -/
theorem loadRead_same (hn : (headerOf x).n = s.n) :
    loadRead s r x x [] = endCmd (imageLoaded s x) r 0 ((recordLoad (imageWritten s x []) none).fld fLoadSection) := by
  have hwritten : writeImage s x [] = imageWritten s x [] := by rw [writeImage_eq, if_neg (fun h => h.1 hn)]
  rw [loadRead, if_neg (fun h => h rfl), hwritten, if_pos hn]
  rfl

end

/-! ### The two reads (R342) -/

section
variable {s : State} {r i : Nat} {b x y : List Byte} {p : CmdPhase}

theorem setPhase_hosted (s : State) (r : Nat) (p : CmdPhase) : setPhase s r p = s.hosted (setPhase s r p).rings s.ctxs := rfl

theorem askHost_hosted (s : State) (r a n : Nat) (cmd : Option Nat) (second : Bool) : ∃ C, askHost s r a n cmd second = s.hosted s.rings C := ⟨_, rfl⟩

/-- The host is asked a second time, for the answers `y`. -/
def againBegun (s : State) (r : Nat) (c : RingCmd) (x y : List Byte) : State := openSource s r c y [] x

theorem againBegun_hosted (c : RingCmd) (hhost : fromPackage c.bytes = false) : ∃ R C, againBegun s r c x y = s.hosted R C := by
  obtain ⟨C, hasked⟩ := askHost_hosted s r (opn c.bytes 0x10 6) (sourceLen c.bytes) (some c.index) (!x.isEmpty)
  rw [againBegun, openSource, hhost, if_neg Bool.false_ne_true, hasked]
  exact ⟨_, C, setPhase_hosted _ r _⟩

theorem againBegun_cur (hcur : (s.ring r).cur = some ⟨i, b, p⟩) (hhost : fromPackage b = false) (c : RingCmd) (hc : c.bytes = b) :
    ((againBegun s r c x y).ring r).cur = some ⟨i, b, .reading y [] x [] []⟩ := by
  rw [againBegun, openSource, hc, hhost, if_neg Bool.false_ne_true]
  exact setPhase_cur (s := askHost s r (opn b 0x10 6) (sourceLen b) (some c.index) (!x.isEmpty)) hcur _

theorem loadChecked_refused {c : RingCmd} (hdigest : opn c.bytes 0x20 6 = 0) {e : Nat × Nat} (he : imageError s x true = some e) :
    loadChecked s r c y x = endCmd (recordLoad s (some e)) r e.1 e.2 := by
  have hwrite : writeDigest s r c.bytes (sha256 x) = s := if_pos hdigest
  simp only [loadChecked, hwrite, he]

theorem loadChecked_sound {c : RingCmd} (hdigest : opn c.bytes 0x20 6 = 0) (he : imageError s x true = none) :
    loadChecked s r c y x = againBegun s r c x y := by
  have hwrite : writeDigest s r c.bytes (sha256 x) = s := if_pos hdigest
  simp only [loadChecked, hwrite, he, againBegun]

/-- The first read is judged. -/
theorem firstRead (hcur : (s.ring r).cur = some ⟨i, b, .reading x y [] [] []⟩) (hop : opcodeOf b = 1) (hhost : fromPackage b = false)
    (hlen : x.length = sourceLen b) (hpos : 0 < sourceLen b) (hfit : sourceLen b ≤ 262144) :
    workPart s r ⟨0, []⟩ = some (loadChecked s r ⟨i, b, .reading x y [] [] []⟩ y x) := by
  rw [workPart_host hcur hhost hlen hpos (by simpa using hfit), sourceRead]
  simp only [hop, List.isEmpty_nil, if_true]

/-- The second read is compared with the first. -/
theorem secondRead (hcur : (s.ring r).cur = some ⟨i, b, .reading y [] x [] []⟩) (hop : opcodeOf b = 1) (hhost : fromPackage b = false)
    (hx : x.length = sourceLen b) (hlen : y.length = sourceLen b) (hpos : 0 < sourceLen b) (hfit : 2 * sourceLen b ≤ 262144) :
    workPart s r ⟨0, []⟩ = some (loadRead s r x y []) := by
  have hne : x.isEmpty = false := by
    rw [List.isEmpty_eq_false_iff]
    rintro rfl
    exact absurd hx hpos.ne
  rw [workPart_host hcur hhost hlen hpos (by omega), sourceRead]
  simp only [hop, hne, Bool.false_eq_true, if_false]

/-- Between the two reads the step goes on. -/
theorem midStep_again (hcur : (s.ring r).cur = some ⟨i, b, .reading y [] x [] []⟩) (hpos : 0 < x.length) (hfit : x.length < 262144) :
    midStep s r = true := by
  have hphase : phaseOf s r = some (.reading y [] x [] []) := by rw [phaseOf, hcur, Option.map_some]
  simp only [midStep, hphase, List.length_nil, Nat.add_zero]
  exact decide_eq_true (by rw [Nat.mod_eq_of_lt hfit]; exact hpos.ne')

end

end Sys2Proof.Machine

/-!
The clauses of LOAD_IMAGE, and the obligation on images and quantisation.
-/
namespace Sys2Proof.Machine

section
variable {r : RingIx} {b x y : List Byte} {s w : State} (h : headCommand s r.val 1 b) (hruns : stopsRuns s = false)
  (hhost : bits (opn b 0x16 1) 0 1 = 0) (hpos : 0 < opn b 0x18 4) (hfit : 2 * opn b 0x18 4 ≤ 262144) (hlen : x.length = opn b 0x18 4)
  (hpath : pathHasGroup s r.val = true) (hdigest : opn b 0x20 6 = 0)
  (hw : w = sourceBegun (takeLock (takeHead s r.val) r.val) r.val b x y)
include h hruns hhost hpos hfit hlen hpath hdigest hw

/-- The first read of a load is made, and the image is judged. -/
theorem loadImage_read : ∃ i, (w.ring r.val).cur = some ⟨i, b, .reading x y [] [] []⟩ ∧ HostOnly r.val s w ∧
    workPart w r.val ⟨0, []⟩ = some (loadChecked w r.val ⟨i, b, .reading x y [] [] []⟩ y x) ∧ exec (.loadImage r x y) s = .next (workStep w r.val 4) := by
  have hop := headCommand_op h
  have hsrc : sourceLen b = opn b 0x18 4 := sourceLen_of_image (by rw [hop]; decide)
  have hhost' : fromPackage b = false := by simp [fromPackage, hhost]
  obtain ⟨i, hcur⟩ := headCommand_cur h
  have hbegun := begun_hostOnly s r.val 1
  rw [← begun_exclusive s r.val (op := 1) (by decide)] at hw
  have hread := sourceBegun_cur hcur x y
  have hrun : runLoad r.val x y (begun s r.val 1) b = workStep w r.val 4 := by
    rw [runLoad, hbegun.stopsRuns r.isLt, hruns, if_neg Bool.false_ne_true, digestOk_of (.inl hdigest), if_pos rfl, hw]
    exact beginRead_host hcur hhost' (hsrc ▸ hpos) ((hbegun.pathHasGroup r.isLt).trans hpath) x y
  rw [← hw] at hread
  refine ⟨i, hread, ?_, firstRead hread hop hhost' (hsrc ▸ hlen) (hsrc ▸ hpos) (by omega),
    (serve_of_headCommand h _).trans (congrArg Host.Outcome.next hrun)⟩
  rw [hw]
  exact hbegun.trans (sourceBegun_hostOnly _ r.val b x y)

/-- An image that a check refuses. -/
theorem loadImage_refused {e : Nat × Nat} (he : imageError w x true = some e) :
    ∃ t, exec (.loadImage r x y) s = .next t ∧ endsWith t r.val e.1 e.2 ∧ t.raw 0x000C = BitVec.ofNat 32 (e.1 + 2 ^ 16 * e.2) ∧
      t.image = s.image ∧ t.units = s.units ∧ t.clusters = s.clusters := by
  obtain ⟨i, hcur, hkept, hpart, hrun⟩ := loadImage_read h hruns hhost hpos hfit hlen hpath hdigest hw
  rw [loadChecked_refused hdigest he] at hpart
  have hring : ((recordLoad w (some e)).ring r.val).cur = some ⟨i, b, .reading x y [] [] []⟩ := by
    rw [State.ring, recordLoad_rings]
    exact hcur
  have hends := endsWith_endCmd hring e.1 e.2
  rw [workStep_ends hpart hends] at hrun
  exact ⟨_, hrun, hends, State.raw_setRaw w _ _, hkept.part State.image rfl, hkept.part State.units rfl, hkept.clusters⟩

/-- The second read of a sound image is made, and compared with the first. -/
theorem loadImage_again (he : imageError w x true = none) (hsame : y.length = x.length) :
    ∃ i R C, ((w.hosted R C).ring r.val).cur = some ⟨i, b, .reading y [] x [] []⟩ ∧
      ∀ t st res, t = loadRead (w.hosted R C) r.val x y [] → endsWith t r.val st res → exec (.loadImage r x y) s = .next t := by
  have hop := headCommand_op h
  have hsrc : sourceLen b = opn b 0x18 4 := sourceLen_of_image (by rw [hop]; decide)
  have hhost' : fromPackage b = false := by simp [fromPackage, hhost]
  obtain ⟨i, hcur, hkept, hpart, hrun⟩ := loadImage_read h hruns hhost hpos hfit hlen hpath hdigest hw
  rw [loadChecked_sound hdigest he] at hpart
  have hagain := againBegun_cur (x := x) (y := y) hcur hhost' ⟨i, b, .reading x y [] [] []⟩ rfl
  obtain ⟨R, C, hhosted⟩ := againBegun_hosted (s := w) (r := r.val) (x := x) (y := y) ⟨i, b, .reading x y [] [] []⟩ hhost'
  rw [hhosted] at hpart hagain
  have hmid := midStep_again hagain (hlen ▸ hpos) (by omega)
  have hsecond := secondRead hagain hop hhost' (hsrc ▸ hlen) (hsrc ▸ hsame.trans hlen) (hsrc ▸ hpos) (by omega)
  refine ⟨i, R, C, hagain, fun t st res ht hends => ?_⟩
  have hstep : workStep w r.val 4 = workStep (w.hosted R C) r.val 3 := by
    rw [workStep, hpart]
    simp only [hmid, if_true]
  rw [hrun, hstep, workStep_ends (ht ▸ hsecond) hends]

/-- An image that reads the same twice is loaded. -/
theorem loadImage_loads (he : imageError w x true = none) (hsame : y = x) (hn : (headerOf x).n = s.n) :
    ∃ t im n z, exec (.loadImage r x y) s = .next t ∧ endsWith t r.val 0 n ∧ t.image = some im ∧ im.digest = sha256 x ∧
      im.n = (headerOf x).n ∧ im.locked = (headerOf x).locked ∧ t.fld fRegime = (if im.locked = true then 1 else 2) ∧ t.is fLoading = false ∧
      z = placeAll (headerOf x) (sectsOf x (headerOf x)) (placements (headerOf x)) (unloadImage w) ∧ HoldsImage z t := by
  obtain ⟨i, -, hkept, -⟩ := loadImage_read h hruns hhost hpos hfit hlen hpath hdigest hw
  obtain ⟨j, R, C, hcur, hrun⟩ := loadImage_again h hruns hhost hpos hfit hlen hpath hdigest hw he (congrArg List.length hsame)
  have hnw : (headerOf x).n = (w.hosted R C).n := by
    have hwn : w.n = s.n := by
      have himage : w.image = s.image := hkept.part State.image rfl
      have hdefault : w.fld fNDefault = s.fld fNDefault := hkept.fld_far r.isLt (.inl (by decide))
      rw [State.n, State.n, himage, hdefault]
    rw [State.n_hosted, hwn, hn]
  have hring : ((imageLoaded (w.hosted R C) x).ring r.val).cur = some ⟨j, b, .reading y [] x [] []⟩ := by
    rw [State.ring, imageLoaded_rings hnw]
    exact hcur
  have hends := endsWith_endCmd hring 0 ((recordLoad (imageWritten (w.hosted R C) x []) none).fld fLoadSection)
  have himage := imageLoaded_image (w.hosted R C) x
  have hloading : (imageLoaded (w.hosted R C) x).is fLoading = false := setMode_loading _
  have hregime : (imageLoaded (w.hosted R C) x).fld fRegime = if (imageOf (w.hosted R C) x).locked = true then 1 else 2 :=
    setMode_regime ((setMode_image _).symm.trans himage)
  refine ⟨_, imageOf (w.hosted R C) x, _, _, hrun _ _ _ ?_ hends, hends, (endCmd_image _ _ _ _).trans himage, rfl, rfl, rfl,
    (endCmd_fld _ _ _ _ _).trans hregime, hloading, rfl, ?_⟩
  · rw [hsame, loadRead_same hnw]
  · exact ((imageLoaded_holds (w.hosted R C) x).of_same (sectionsPlaced_hosted w x)).of_core (endCmd_core _ _ _ _) (endCmd_image _ _ _ _)

/-- An image whose second read differs leaves none. -/
theorem loadImage_changed (he : imageError w x true = none) (hsame : y.length = x.length) (hsha : sha256 y ≠ sha256 x) :
    ∃ t, exec (.loadImage r x y) s = .next t ∧ endsWith t r.val stImageChanged 0 ∧ t.image = none ∧ t.fld fRegime = 0 := by
  obtain ⟨i, R, C, hcur, hrun⟩ := loadImage_again h hruns hhost hpos hfit hlen hpath hdigest hw he hsame
  obtain ⟨hends, himage, hregime⟩ := loadRead_changed hcur hsha
  exact ⟨_, hrun _ _ _ rfl hends, hends, himage, hregime⟩

end

/-- Settles O43: each clause is its lemma above. -/
theorem imagesLoadAndQuantise : Obligations.ImagesLoadAndQuantise := by
  refine ⟨fun r b x y s w h hruns hhost hpos hfit hlen hpath hdigest hw =>
      ⟨fun e he => loadImage_refused h hruns hhost hpos hfit hlen hpath hdigest hw he,
        fun he hsame hn => loadImage_loads h hruns hhost hpos hfit hlen hpath hdigest hw he hsame hn,
        fun he hsame hsha => loadImage_changed h hruns hhost hpos hfit hlen hpath hdigest hw he hsame hsha⟩,
    fun r b x s w h hhost hpos hfit hlen hpath hw => verifyImage_host h hhost hpos hfit hlen hpath hw,
    fun c op r b x y s hc h hruns hsource => image_unreachable hc h hruns hsource,
    fun r b x y n k w s h hpkg hn hfit halign hrange hplace hdigest hpath hy => verifyImage_store h hpkg hn hfit halign hrange hplace hdigest hpath hy,
    fun r b x s h => ⟨quantise_state h, fun im l him hlocked harmed hl hplays hcount hok hformats hpass hhost hlen hpos hfit hpath hweights =>
      quantise_writes h him hlocked harmed hl hplays hcount hok hformats hpass hhost hlen hpos hfit hpath hweights⟩,
    chooseScale_least, codeFor_nearest, ?_⟩
  rintro h n p s t x u rfl rfl
  exact ⟨fun kind start ws hx => placeSection_words h n p s x hx, fun i a k hx hk hi ha => by
    subst hk ha
    exact placeSection_bytes h n p s x hx hi⟩

end Sys2Proof.Machine
